-- ==== Sys2Proof/Word.lean ====
section
/-! DEFINITION. The words the T9 is built from: bytes, 32-bit and 64-bit register words, 128-bit tile instructions. -/
namespace Sys2Proof

/-- One byte of memory, the smallest addressable unit (R3, R5). -/
abbrev Byte := BitVec 8

/-- A 64-bit register of the register space (R22), a scalar register of a tile, a sync counter. -/
abbrev Word := BitVec 64

/-- A 32-bit register of a Fern core. -/
abbrev Word32 := BitVec 32

end Sys2Proof
end

