-- ==== Sys2Proof/Wire.lean ====
section
/-! DEFINITION. What arrives from outside with a command: answers of host memory, packets and frames. Choices and readings of
the model: log entry 10. -/
namespace Sys2Proof

/-- What the host answers to a read the device made on an operation's behalf (R266, R267, R270): data, no answer within
the completion timeout, a poisoned completion, or a completion with status UR or CA. -/
inductive HostReply where
  | data (bytes : List Byte)
  | timeout
  | poisoned
  | refused
  deriving DecidableEq, Repr

/-- Whether a host's answer is data. -/
def HostReply.isData : HostReply → Bool
  | .data _ => true
  | .timeout | .poisoned | .refused => false

/-- The header of an Understory frame of a group (R166). -/
structure UstHeader where
  link : Fin 8
  group : BitVec 8
  src : BitVec 8
  dst : BitVec 8
  gen : BitVec 16
  lseq : BitVec 12
  opseq : BitVec 32
  deriving DecidableEq, Repr

/-- What an ARRIVE frame says of the operation that its member has issued (R176). -/
structure UstOp where
  op : BitVec 8
  len : BitVec 32
  dtype : BitVec 8
  redop : BitVec 8
  root : BitVec 8
  deriving DecidableEq, Repr

/-- What a LINK frame carries of its sender's groups (R169): group, members, topology, generation, own index. -/
structure UstPeer where
  group : Fin 64
  members : BitVec 7
  tree : Bool
  gen : BitVec 16
  self : BitVec 7
  deriving DecidableEq, Repr

/-- The acknowledgement of a remote post by its target (R174): the group, the target member, and whether it landed. -/
structure UstPostAck where
  group : Fin 64
  member : BitVec 8
  landed : Bool
  deriving DecidableEq, Repr

/-- What a LINK frame says of the link's sequence (R167): the LSEQ it acknowledges and the one from which it asks for a replay. -/
structure UstLinkSeq where
  acked : Option (BitVec 12)
  replay : Option (BitVec 12)
  deriving DecidableEq, Repr

/-- The Ethernet header of a frame with a good FCS as a data port receives it (R212): its destination and the VIDs of its IEEE
802.1Q tags. -/
structure EthHead where
  dst : BitVec 48
  tags : List (BitVec 12)
  deriving DecidableEq, Repr

/-- A frame that asks for the MAC of an address (R212): its Ethernet header and the MAC that its sender gives. -/
structure EthAsk where
  eth : EthHead
  mac : BitVec 48
  deriving DecidableEq, Repr

/-- The headers below UDP's payload of a packet as a data port receives it (R212): IPv6 or IPv4, the next header or protocol,
which is not 17 where there are extension headers, and of IPv4 the IHL, MF, the fragment offset and whether its checksum is good;
the destination address and port, and whether the UDP checksum is zero or good. -/
structure FrameHead where
  eth : EthHead
  v6 : Bool
  proto : BitVec 8
  ihl : BitVec 4
  mf : Bool
  frag : BitVec 13
  ipSum : Bool
  dst : BitVec 128
  udpPort : BitVec 16
  udpSum : Bool
  deriving DecidableEq, Repr

/-- A Saloa packet as a data port receives it (R212, R215, R216): the port, the headers around it, whether its tag verifies under
one of the two keys of its sender's group, whether it carries CE, and the fields of its header. -/
structure SalHeader where
  port : Fin 16
  frame : FrameHead
  authentic : Bool
  ce : Bool
  version : BitVec 8
  first : Bool
  last : Bool
  ackreq : Bool
  ece : Bool
  fresh : Bool
  src : BitVec 16
  dst : BitVec 16
  epoch : BitVec 16
  ftn : BitVec 16
  psn : BitVec 48
  apsn : BitVec 48
  ts : BitVec 32
  tse : BitVec 32
  addr : BitVec 64
  rkey : BitVec 32
  msg : BitVec 32
  moff : BitVec 32
  aux : BitVec 32
  opv : BitVec 64
  deriving DecidableEq, Repr

/-- A twin frame as a twin port receives it (R377): the port, whether its tag verifies under the twin-link key, the fields
of its header, and for writes the write sequence number and the data. -/
structure TwinFrame where
  port : Fin 2
  authentic : Bool
  state : BitVec 3
  src : BitVec 16
  epoch : BitVec 16
  addr : BitVec 64
  aux : BitVec 64
  seq : BitVec 64
  bytes : List (BitVec 8)
  deriving DecidableEq, Repr

/-- What a member of a ring group tells another through the control areas (R352, R357 to R364): the ring's step, that it has
captured everything, a hash for its owner, a granule's reference and whether the granule is the winner, a winner's bytes, the
stripe count of an owner, a shard for its holder, that its shards are in place; during a drain, its manifest part with the
stripe count, that its region is durable, that the root is written; that it abandoned the ring, that its DRAIN fails for
every member, that this device cannot reach it, and in a restore whether it can restore the step. -/
inductive CkpMsg where
  | step
  | captured
  | hash (item granule : Nat) (hash : List (BitVec 8))
  | reference (item granule owner shard stripe : Nat) (winner : Bool)
  | granule (item granule : Nat) (bytes : List (BitVec 8))
  | stripes (count : Nat)
  | shard (stripe index : Nat) (bytes : List (BitVec 8))
  | placed
  | part (stripes : Nat) (bytes : List (BitVec 8))
  | durable
  | sealed
  | abandoned (status : Nat)
  | drainFailed (status : Nat)
  | lost
  | vote (ok : Bool)
  deriving DecidableEq, Repr

/-- What a channel controller finds in a codeword besides the channel's erasure positions (R73, R74, R78): no symbol in
error, or `n` symbols in error, the lowest of them `low`; and, for an error that is corrected, the symbol that is still in
error when the codeword is read again. -/
inductive CwFind where
  | clean
  | errors (n : Fin 73) (low : Fin 72) (still : Option (Fin 72))
  deriving DecidableEq, Repr

/-- The errors a port reports in AER (R271). -/
inductive AerErr where
  | receiver | badTlp | badDllp | replayTimeout | replayRollover | headerOverflow | correctedInternal
  | dataLinkProtocol | malformedTlp | flowControl | uncorrectableInternal | poisonedTlp | completionTimeout
  | unexpectedCompletion | completerAbort | unsupportedRequest | ecrc
  /-- Advisory Non-Fatal Error: an advisory error was logged at non-fatal severity. -/
  | advisory
  deriving DecidableEq, Repr

/-- Whether an error is of the Correctable class (R271). -/
def AerErr.correctable : AerErr → Bool
  | .receiver | .badTlp | .badDllp | .replayTimeout | .replayRollover | .headerOverflow | .correctedInternal | .advisory => true
  | .dataLinkProtocol | .malformedTlp | .flowControl | .uncorrectableInternal | .poisonedTlp | .completionTimeout
  | .unexpectedCompletion | .completerAbort | .unsupportedRequest | .ecrc => false

/-- Whether an error is advisory (R271). -/
def AerErr.isAdvisory : AerErr → Bool
  | .poisonedTlp | .unexpectedCompletion | .completerAbort | .unsupportedRequest => true
  | .receiver | .badTlp | .badDllp | .replayTimeout | .replayRollover | .headerOverflow | .correctedInternal | .advisory
  | .dataLinkProtocol | .malformedTlp | .flowControl | .uncorrectableInternal | .completionTimeout | .ecrc => false

/-- A configuration write with no command of its own (R261, R264 to R266, R269, R271, R272): the completion timeout range,
the tag width (0: 8-bit, 1: 10-bit, 2: 14-bit), the largest read request as 128 times a power of two, relaxed ordering,
PASID Enable set, ATS, ECRC checking, MSI-X disabled, the function mask set, a vector masked or its table entry written, an
AER status bit cleared, an AER severity, and a return to D0. -/
inductive CfgWrite where
  | cplTimeout (range : BitVec 4)
  | tagWidth (w : Fin 3)
  | readSize (k : Fin 6)
  | payloadSize (k : Fin 3)
  | relaxed (on : Bool)
  | pasidEnable
  | ats (on : Bool)
  | ecrcCheck (on : Bool)
  | msixDisable
  | functionMask
  | vectorMask (v : Fin 2048)
  | vectorEntry (v : Fin 2048) (addr : BitVec 64) (data : BitVec 32)
  | aerClear (e : AerErr)
  | aerSeverity (e : AerErr) (fatal : Bool)
  | d0
  deriving DecidableEq, Repr

/-- Who waits on a counter or a completion count (R171). -/
inductive WaitParty where
  | queue (qid : BitVec 24)
  | tile (n : Fin 64)
  | core (k : Fin 256)
  | mgmt
  deriving DecidableEq, Repr

end Sys2Proof
end

