-- ==== Sys2Proof/Syntax.lean ====
section
/-! DEFINITION. The commands of the Tilok T9, one constructor per row of spec/opcode_table.json: what the outside (the host, a
peer, a timer, a pin, a unit of the device) does to the block, with the operands the row's rule gives it. Choices and readings
of the model: log entry 36. -/
namespace Sys2Proof

/-- One command or event of the T9. -/
inductive Instr where
  /-- AUX_PWRGD_RISE (R36): The standby supply-good input rises and the device enters standby. -/
  | auxPwrgdRise
  /-- AUX_PWRGD_FALL (R39): The standby supply-good input falls: everything is held in reset, THERMTRIP_N is released and BOOT_RESET_CAUSE is cleared. -/
  | auxPwrgdFall
  /-- PWRGD_RISE (R31): PWRGD rises: the device samples the straps and begins the start sequence, or waits for SYS_RST_N. -/
  | pwrgdRise (test : Bool) (slow : Bool) (sysclk : Bool)
  /-- PWRGD_FALL (R32): PWRGD falls: power-on reset; the lanes stop, the flash pins are released, every unit resets and DRAM contents are lost. -/
  | pwrgdFall
  /-- SYS_RST_N_ASSERT (R65): SYS_RST_N goes low and starts a warm device reset. -/
  | sysRstNAssert
  /-- SYS_RST_N_RELEASE (R31): SYS_RST_N rises, and a held start sequence or warm device reset proceeds. -/
  | sysRstNRelease
  /-- PERST_ASSERT (R65): PERST_A_N or PERST_B_N goes low: fundamental reset of that port, with the instances and event rings homed on it handled as for FLR. -/
  | perstAssert (p : Fin 2)
  /-- PERST_RELEASE (R31): PERST_x_N rises, and the port begins counting towards readiness. -/
  | perstRelease (p : Fin 2)
  /-- PERST_HOLD_EXPIRE (R31): 100 ms after PWRGD rose, a port whose PERST_x_N rose early leaves fundamental reset. -/
  | perstHoldExpire (p : Fin 2)
  /-- RAIL_SAG (R33): A monitored rail stays below its threshold for more than 1 µs: the device acts as if PWRGD had fallen and records the rail. -/
  | railSag (rail : Fin 4)
  /-- SYSCLK_STOP (R35): SYSCLK_25 stops while the device runs, and the clock monitor resets the device. -/
  | sysclkStop
  /-- HCLK_LOSS (R35): A host reference clock stops: the port loses its link as DL_Down and stays in detect. -/
  | hclkLoss (p : Fin 2)
  /-- HCLK_RETURN (R35): A host reference clock returns, and the port leaves detect and trains. -/
  | hclkReturn (p : Fin 2)
  /-- OCLK_LOSS (R35): An optical reference clock is absent or out of tolerance, and that tile's lanes do not train. -/
  | oclkLoss (t : Fin 4)
  /-- THERMAL_TRIP (R39): A sensor reaches 115 °C: THERMTRIP_N is pulled low and the clocks, lanes and DRAM contents stop in hardware. -/
  | thermalTrip
  /-- LASER_LIGHT_LOSS (R28): Light is lost on a laser input; the tile's lanes go down only when both of its inputs are dark. -/
  | laserLightLoss (j : Fin 8)
  /-- LASER_LIGHT_RESTORE (R234): Light returns on a laser input, and waiting ports move to TRAINING. -/
  | laserLightRestore (j : Fin 8)
  /-- ROM_DONE (R46): The boot ROM has checked the management pairs, and the device enters IDENTITY, or REPAIR after a warm device reset. -/
  | romDone (pair0 : Bool) (pair1 : Bool)
  /-- IDENTITY_DONE (R56): Identity reconstruction ends, or fails and sets IDENTITY_FAIL, and the device enters IMAGE. -/
  | identityDone (helper : List Byte) (counter : Option (BitVec 32))
  /-- IMAGE_READ_DONE (R53): The image copies have been read and checked in order of generation; the device enters REPAIR, or NO_IMAGE if no copy verifies. -/
  | imageReadDone (a : List Byte) (b : List Byte) (log0 : List Byte) (log1 : List Byte)
  /-- REPAIR_DONE (R59): The repair set is applied, banks are retired and spares are assigned; link training starts and the device enters MARCH or TRAIN. -/
  | repairDone
  /-- MARCH_DONE (R60): The start-up march test ends, and faulty units are recorded and handled. -/
  | marchDone (columns : List (BitVec 16 × BitVec 32 × BitVec 32)) (failed : List (BitVec 16))
  /-- TRAIN_DONE (R47): DRAM training ends: the device enters RESIDENT and the ports answer configuration requests normally. -/
  | trainDone
  /-- OPTICAL_BRINGUP_DONE (R47): Every optical and Understory lane is up or reported down, and the BOOT_STATE flags are set. -/
  | opticalBringupDone
  /-- WARM_RESET (R65): BOOT_CTRL.WARM_RESET written with KEY 0xA5 starts a warm device reset. -/
  | warmReset (key : BitVec 8)
  /-- DRAM_DRAIN_DONE (R85): On a warm device reset, every accepted write reaches DRAM and self-refresh entry begins. -/
  | dramDrainDone
  /-- SELF_REFRESH_ENTERED (R85): Every channel is in self-refresh, and the warm device reset restarts the sequence at ROM. -/
  | selfRefreshEntered
  /-- WRITEBACK_REQUEST (R58): BOOT_CTRL.WRITEBACK asks for a write-back of held faults, which is refused at once while IDENTITY_FAIL is set. -/
  | writebackRequest
  /-- WRITEBACK_DONE (R58): A repair-log write-back to the other slot completes and sets WRITEBACK_DONE. -/
  | writebackDone
  /-- WRITEBACK_TIMEOUT (R58): A write-back reaches 5 s, is abandoned and sets WRITEBACK_FAIL. -/
  | writebackTimeout
  /-- LOAD (R62): BOOT_FW_CMD LOAD checks its length and state and begins fetching the firmware image from host memory. -/
  | load (p : Fin 2)
  /-- FW_LOAD_VERIFIED (R62): The fetch and verification of a loaded image end; on success the management pairs start, otherwise the device returns to RESIDENT. -/
  | fwLoadVerified (reply : HostReply)
  /-- FW_READY (R62): Loaded firmware declares itself ready and publishes its features, and the device enters RUNNING. -/
  | fwReady
  /-- FW_READY_TIMEOUT (R62): Firmware has not declared itself ready within 2,000 ms; the image is discarded with status 0x08. -/
  | fwReadyTimeout
  /-- NEGOTIATE (R63): BOOT_FW_CMD NEGOTIATE sets BOOT_FEAT_AGREED and the agreed minor version, or is refused. -/
  | negotiate
  /-- MARCH_REQUEST (R61): BOOT_MARCH START begins an on-request march test of one out-of-service unit, or is refused. -/
  | marchRequest (unit : BitVec 16) (mode : BitVec 2)
  /-- MARCH_REQUEST_DONE (R61): An on-request march test ends with its result, and the faults are recorded with origin 3. -/
  | marchRequestDone (faults : List (BitVec 32 × BitVec 32))
  /-- REGION_CONTROLLER_FAIL (R13): A region controller fails: its agents begin moving to controller k XOR 1, and control operations aimed at them are held. -/
  | regionControllerFail (k : Fin 8)
  /-- AGENT_MOVE_DONE (R13): The agents of a failed controller have moved, and the held control operations are released. -/
  | agentMoveDone (k : Fin 8)
  /-- QUADRANT_LOSS (R13): A quadrant's crossbar fails: the quadrant is the firebreak and its channels complete as uncorrectable. -/
  | quadrantLoss (q : Fin 4)
  /-- MEM_REGION_DEGRADED (R83): Up to 1 ms after a quadrant loss, one event is raised per valid region that has lost granules. -/
  | memRegionDegraded (j : Fin 1024)
  /-- MGMT_PAIR_DISAGREE (R412): The cores of a management pair disagree; their outputs are blocked and the standby pair begins taking control. -/
  | mgmtPairDisagree (p : Fin 2)
  /-- MGMT_FAILOVER_DONE (R412): The standby pair has taken control and completes or reruns the set-up commands in flight. -/
  | mgmtFailoverDone
  /-- TILE_HARD_FAULT (R374): A tile or worker core fails at runtime, and a spare is brought in or the unit goes out of service, as the spare policy gives. -/
  | tileHardFault (unit : BitVec 16) (self : Bool)
  /-- SPARE_BRING_IN_DONE (R15): The spare's agent configuration is copied, the map register is updated in one write, and the held accesses are released. -/
  | spareBringInDone (unit : BitVec 16)
  /-- SRAM_ERROR (R371): An SRAM word reads as uncorrectable or as a recurring hard bit; the word is rewritten, and a repeated failure fails the unit. -/
  | sramError (unit : BitVec 16) (array column : BitVec 32) (hard again : Bool)
  /-- BAR0_BAD_ACCESS (R22): A BAR0 access that is misaligned or of a bad size returns all ones or is dropped, and sets GLB_REG_ERR. -/
  | bar0BadAccess (off : BitVec 26) (size : BitVec 13) (write : Bool)
  /-- BAR0_UNMAPPED_ACCESS (R21): A BAR0 access in the reserved range reads zero or is dropped, and sets UNMAPPED. -/
  | bar0UnmappedAccess (off : BitVec 26) (wide : Bool) (write : Bool)
  /-- BAR0_OUT_OF_SVC_ACCESS (R16): A BAR0 access to an out-of-service unit's block reads all ones or is dropped and sets OUT_OF_SVC, except a read of TILE_STATE. -/
  | bar0OutOfSvcAccess (off : BitVec 26) (wide : Bool) (write : Bool)
  /-- REGISTER_WRITE (R6): A BAR0 write to a register with no row of its own applies the field access codes and the RWL lock rules. -/
  | registerWrite (p : Fin 2) (off : BitVec 26) (wide : Bool) (v : Word)
  /-- PCIE_CONFIG_WRITE (R261): A configuration write with no row of its own, such as Device Control 2 or the MSI-X table, takes effect on the function. -/
  | pcieConfigWrite (p : Fin 2) (w : CfgWrite)
  /-- MEM_READ (R78): A channel controller reads a codeword for a requester; a correctable error is written back and re-read, and an uncorrectable one completes as MEDIUM_ERROR or poison. -/
  | memRead (a : BitVec 40) (find : CwFind)
  /-- MEM_WRITE (R75): A channel controller writes a codeword, merging a partial write with a read and storing a poison marker into an uncorrectable codeword. -/
  | memWrite (a : BitVec 40) (data : List Byte) (find : CwFind)
  /-- ROW_SPARE_DONE (R79): The row copy completes, the row is redirected, the held accesses are released and MEM_ROW_SPARED is raised. -/
  | rowSpareDone
  /-- BANK_FENCE (R80): A bank found faulty is fenced, takes a MEM_RETIRE entry and raises MEM_BANK_FENCED. -/
  | bankFence (bank : Fin 512)
  /-- SCRUB_READ (R77): Patrol scrub reads the next codeword at its pace, and a pass that ends raises MEM_SCRUB_PASS. -/
  | scrubRead (find : CwFind)
  /-- REFRESH_TICK (R84): A channel refreshes its next bank on schedule while the other banks carry traffic. -/
  | refreshTick (ch : Fin 64)
  /-- SCRUB_CFG_WRITE (R77): A write to MEM_SCRUB_CFG stops or resumes scrub, or repaces the pass in progress. -/
  | scrubCfgWrite (v : Word)
  /-- MEM_LAYOUT_WRITE (R72): A write to MEM_LAYOUT changes LOCAL_GIB and CORR_LIMIT, or is refused in whole and sets LAYOUT_REFUSED. -/
  | memLayoutWrite (v : Word)
  /-- REGION_VALID_SET (R87): Setting VALID on a memory region is checked for overlap, the top of DRAM and quota; a mirrored region is checked with the twin. -/
  | regionValidSet (j : Fin 1024) (v : Word) (target : Bool)
  /-- REGION_VALID_CLEAR (R210): Clearing VALID removes the registrations and volumes inside the region and stops any mirror copy, and then clears the region. -/
  | regionValidClear (j : Fin 1024)
  /-- MIRROR_RESYNC_DONE (R90): The copy of a STALE region to a healthy twin completes, STALE clears and MEM_MIRROR_RESYNCED is raised. -/
  | mirrorResyncDone (r : Fin 1024)
  /-- MIRROR_FENCE_START (R89): MEM_MIRROR_FENCE START begins waiting for a region's mirrored writes to be applied at the twin. -/
  | mirrorFenceStart (r : Fin 1024)
  /-- MIRROR_FENCE_DONE (R89): A mirror fence completes with SUCCESS or TWIN_DEGRADED. -/
  | mirrorFenceDone
  /-- SR_SEED_WRITE (R105): A write to TILE_SR_SEED sets the seed and sets TILE_SR_SEQ to 0 from the next instruction. -/
  | srSeedWrite (n : Fin 64) (v : BitVec 64)
  /-- TILE_CFG_WRITE (R282): A TILE_CFG write assigns the tile to a glade, subject to the glade's tile quota. -/
  | tileCfgWrite (n : Fin 64) (v : Word)
  /-- TILE_QUEUE_ENABLE (R116): Setting TILE_QCTRL.ENABLE enables a tile queue if its owner is an instance of the tile's glade. -/
  | tileQueueEnable (j : Fin 512) (v : BitVec 64)
  /-- TILE_QUEUE_DISABLE (R121): Clearing ENABLE makes the queue DISABLED once its running command completes. -/
  | tileQueueDisable (j : Fin 512)
  /-- TILE_QUEUE_RESET (R121): TILE_QCTRL.RESET starts a queue reset. -/
  | tileQueueReset (j : Fin 512)
  /-- TILE_QUEUE_RESUME (R121): TILE_QCTRL.RESUME takes a HALTED queue to ACTIVE. -/
  | tileQueueResume (j : Fin 512)
  /-- DOORBELL_TAIL (R289): A BAR2 tail doorbell is checked and records a queue's new tail, or is refused. -/
  | doorbellTail (p : Fin 2) (j : Fin 4096) (v : Word)
  /-- QUEUE_RESET_DOORBELL (R289): The control doorbell with action 1 starts a queue reset. -/
  | queueResetDoorbell (p : Fin 2) (j : Fin 4096) (v : Word)
  /-- RESUME_DOORBELL (R289): The control doorbell with action 2 resumes a HALTED queue. -/
  | resumeDoorbell (p : Fin 2) (j : Fin 4096) (v : Word)
  /-- EVR_HEAD_DOORBELL (R289): An instance's event-ring head doorbell moves HEAD of a ring filtered to that instance. -/
  | evrHeadDoorbell (p : Fin 2) (j : Fin 4096) (v : Word)
  /-- BAR2_BAD_WRITE (R263): A BAR2 write to a page with no instance, or of a bad size or alignment, is dropped and counted. -/
  | bar2BadWrite (p : Fin 2) (j : Fin 4096) (off : BitVec 12) (aligned64 : Bool)
  /-- QUEUE_RESET_DONE (R121): Every command of a resetting queue has completed; head and tail go to 0 and the queue returns to ACTIVE or DISABLED. -/
  | queueResetDone (qid : BitVec 24)
  /-- COMMAND_FETCH (R137): A command is fetched and decoded from a queue's ring, and its fields are checked. -/
  | commandFetch (qid : BitVec 24) (reply : HostReply)
  /-- COMPLETION_WRITE (R120): A completion entry is written, the completion count is incremented, and MSI-X is sent if INTR is set. -/
  | completionWrite (qid : BitVec 24)
  /-- WAIT_SATISFIED (R171): A waiter whose counter or completion count has reached its target proceeds. -/
  | waitSatisfied (who : WaitParty)
  /-- RUN (R122): The RUN tile command loads S1 to S6 and starts the program at its entry PC. -/
  | run (j : Fin 512)
  /-- TILE_LOAD (R119): The LOAD tile command copies instructions from DRAM into program memory. -/
  | tileLoad (j : Fin 512)
  /-- TILE_CMD_WAIT (R119): The WAIT tile command occupies its queue until a counter or completion count reaches its target. -/
  | tileCmdWait (j : Fin 512)
  /-- TILE_CMD_POST (R119): The POST tile command adds its increment to a sync counter. -/
  | tileCmdPost (j : Fin 512)
  /-- NOP (R125): The tile instruction NOP does nothing. -/
  | nop (n : Fin 64)
  /-- END (R125): END waits for all work and completes the command with SUCCESS. -/
  | endCmd (n : Fin 64)
  /-- JMP (R125): JMP sets the program counter. -/
  | jmp (n : Fin 64)
  /-- LOOP (R125): LOOP decrements a scalar register and branches while it is nonzero. -/
  | loop (n : Fin 64)
  /-- BR (R125): BR branches when a signed comparison of two scalar registers holds. -/
  | br (n : Fin 64)
  /-- SLI (R125): SLI loads an immediate into a scalar register. -/
  | sli (n : Fin 64)
  /-- SALU (R125): SALU applies a scalar ALU operation modulo 2^64. -/
  | salu (n : Fin 64)
  /-- STREAM (R130): STREAM starts a copy from DRAM or the scratchpad aggregate into this scratchpad through the decompressor. -/
  | stream (n : Fin 64)
  /-- STREAM_COMPLETE (R131): A stream slot finishes its stream, zero-filling uncorrectable chunks, and becomes idle. -/
  | streamComplete (n : Fin 64) (k : Fin 4)
  /-- STOUT (R130): STOUT starts a copy from this scratchpad to DRAM or the scratchpad aggregate. -/
  | stout (n : Fin 64)
  /-- STOUT_COMPLETE (R130): A STOUT finishes writing and its slot becomes idle. -/
  | stoutComplete (n : Fin 64) (k : Fin 4)
  /-- SWAIT (R123): SWAIT waits until the named slots are idle, and reports a stream's MEDIUM_ERROR. -/
  | swait (n : Fin 64)
  /-- WLOAD (R128): WLOAD loads one weight block, with its scales and sparse metadata, into the weight register. -/
  | wload (n : Fin 64)
  /-- MMA (R101): MMA applies the current weight block to M activation vectors into accumulator rows. -/
  | mma (n : Fin 64)
  /-- DRAIN (R126): The tile instruction DRAIN converts accumulator rows to OFMT and writes them to the scratchpad. -/
  | drain (n : Fin 64)
  /-- VOP (R129): VOP performs N 64-lane vector-unit operations. -/
  | vop (n : Fin 64)
  /-- POST (R125): The tile instruction POST waits for earlier work and then adds to a sync counter. -/
  | post (n : Fin 64)
  /-- WAITC (R125): WAITC waits until a sync counter reaches a target. -/
  | waitc (n : Fin 64)
  /-- WAITQ (R125): WAITQ waits until a queue's completion count reaches a target. -/
  | waitq (n : Fin 64)
  /-- FENCE (R125): The tile instruction FENCE waits for earlier work and for its writes to become visible. -/
  | fence (n : Fin 64)
  /-- SRSEED (R125): SRSEED writes a scalar register to TILE_SR_SEED. -/
  | srseed (n : Fin 64)
  /-- TILE_WATCHDOG_EXPIRE (R134): A RUN command's watchdog reaches TILE_WDOG.LIMIT and the program is stopped with TILE_WATCHDOG. -/
  | tileWatchdogExpire (n : Fin 64)
  /-- TILE_DMA_STARVED (R133): A DMA access to a scratchpad has waited 65,536 cycles, and the event is raised once. -/
  | tileDmaStarved (n : Fin 64) (a : BitVec 21)
  /-- ATTEND_ITEM (R154): A tile takes a decode item between commands and computes one page of attention in its window. -/
  | attendItem (n : Fin 64)
  /-- OPEN (R148): OPEN copies a stream descriptor into a context and returns a handle. -/
  | openCmd (q : Fin 256)
  /-- CLOSE (R148): CLOSE closes a stream and advances its handle generation. -/
  | close (q : Fin 256)
  /-- APPEND_KV (R151): APPEND_KV writes K and V for COUNT positions after checking their page-table entries. -/
  | appendKv (q : Fin 256)
  /-- ATTEND (R153): ATTEND divides attention for COUNT positions into items across TILE_MASK and merges the page results. -/
  | attend (q : Fin 256)
  /-- SET_TREE (R155): SET_TREE sets the stream's candidate tree and copies its tokens. -/
  | setTree (q : Fin 256)
  /-- SAMPLE_FULL (R157): SAMPLE in FULL mode draws tokens from logits with top-k, top-p and temperature. -/
  | sampleFull (q : Fin 256)
  /-- SAMPLE_PARTIAL (R159): SAMPLE in PARTIAL mode writes the ordered top-K candidate entries. -/
  | samplePartial (q : Fin 256)
  /-- SAMPLE_MERGE (R159): SAMPLE in MERGE mode merges candidate lists and samples as FULL does. -/
  | sampleMerge (q : Fin 256)
  /-- VERIFY (R156): VERIFY accepts the longest matching path, compacts K and V, and advances LEN. -/
  | verify (q : Fin 256)
  /-- COMMIT (R144): COMMIT adds COUNT to LEN. -/
  | commit (q : Fin 256)
  /-- TRUNCATE (R144): TRUNCATE sets LEN to NEW_LEN and discards any tree. -/
  | truncate (q : Fin 256)
  /-- CONTEXT_FETCH_DONE (R229): A context missing from the cache is fetched from its backing table, and the packets held for it are processed in order. -/
  | contextFetchDone (d : BitVec 16)
  /-- UST_LINK_FRAME (R167): A LINK frame (acknowledgement, credit or heartbeat) is received on an Understory link, or a frame
  fails its CRC there on lane `bad`. -/
  | ustLinkFrame (k : Fin 8) (bad : Option (Fin 8)) (type : BitVec 8) (peer : BitVec 16) (groups : List UstPeer) (seq : UstLinkSeq) (ack : Option UstPostAck)
  /-- UST_POST_FRAME (R170): A remote POST frame is applied to a granted counter, or relayed. -/
  | ustPostFrame (h : UstHeader) (ctr : BitVec 16) (inc : BitVec 64)
  /-- UST_ARRIVE_FRAME (R176): An ARRIVE frame of a collective is received and matched by OPSEQ. -/
  | ustArriveFrame (h : UstHeader) (o : UstOp)
  /-- UST_RELEASE_FRAME (R174): A RELEASE frame completes a barrier or mark on this member. -/
  | ustReleaseFrame (h : UstHeader)
  /-- UST_REDUCE_DATA (R177): A REDUCE_DATA frame piece is reduced and forwarded, or written to DST. -/
  | ustReduceData (h : UstHeader) (offset : BitVec 16) (words : List (BitVec 32))
  /-- UST_BCAST_DATA (R174): A BCAST_DATA frame piece is written to DST and forwarded. -/
  | ustBcastData (h : UstHeader) (offset : BitVec 16) (bytes : List (BitVec 8))
  /-- UST_ABORT_FRAME (R181): An ABORT frame completes the operation with UST_REMOTE_ABORT. -/
  | ustAbortFrame (h : UstHeader)
  /-- UST_MARK_FRAME (R178): A MARK frame of an epoch mark is received. -/
  | ustMarkFrame (h : UstHeader)
  /-- UST_DOWN_FRAME (R169): A DOWN frame sends the group DOWN and is forwarded on its other edges. -/
  | ustDownFrame (h : UstHeader)
  /-- UST_HEARTBEAT_TICK (R167): A link with nothing to send sends a heartbeat every 1 µs. -/
  | ustHeartbeatTick (k : Fin 8)
  /-- UST_LINK_TIMEOUT (R167): A link that has received no valid frame for 8 to 10 µs is declared down. -/
  | ustLinkTimeout (k : Fin 8)
  /-- UST_GROUP_VALID_SET (R169): Setting VALID in UST_GRP_A takes the group to FORMING. -/
  | ustGroupValidSet (g : Fin 64) (v : BitVec 64)
  /-- UST_GROUP_VALID_CLEAR (R181): Clearing VALID disables the group and completes its commands with EPOCH_MISMATCH. -/
  | ustGroupValidClear (g : Fin 64)
  /-- UST_FORMING_TIMEOUT (R169): A group has stayed FORMING for 2 s and goes DOWN. -/
  | ustFormingTimeout (g : Fin 64)
  /-- CTR_BLOCK_GRANT (R170): A change of GRANTED from 0 to 1 grants a counter block and zeroes its counters. -/
  | ctrBlockGrant (b : Fin 256) (glade : BitVec 8)
  /-- CTR_BLOCK_REVOKE (R170): Clearing GRANTED revokes a counter block and ends every wait pending on it. -/
  | ctrBlockRevoke (b : Fin 256)
  /-- UST_CTR_WRITE (R171): A write to UST_CTR sets a counter, and its waiters are evaluated. -/
  | ustCtrWrite (c : Fin 65536) (v : BitVec 64)
  /-- UST_CTR_ADD (R170): A write to UST_CTR_ADD adds atomically to a counter. -/
  | ustCtrAdd (c : Fin 65536) (v : BitVec 64)
  /-- UST_LOCK_SET (R184): Setting UST_LOCK.LOCKED fixes the RWL fields of UST. -/
  | ustLockSet
  /-- BARRIER (R174): The collective BARRIER is issued on a group. -/
  | barrier (q : Fin 256)
  /-- BCAST (R174): The collective BCAST writes the root's bytes to DST on every member. -/
  | bcast (q : Fin 256)
  /-- ALLREDUCE (R177): The collective ALLREDUCE writes the element-wise reduction to DST on every member. -/
  | allreduce (q : Fin 256)
  /-- RPOST (R174): The collective RPOST adds to a remote member's counter and completes on acknowledgement. -/
  | rpost (q : Fin 256)
  /-- MARK (R178): The collective MARK is a barrier that advances the group's epoch. -/
  | mark (q : Fin 256)
  /-- WRITE (R197): The transport command WRITE copies local bytes to a global address. -/
  | write (t : Fin 65536)
  /-- WRITE_POST (R197): The transport command WRITE_POST writes and then posts a counter at the target. -/
  | writePost (t : Fin 65536)
  /-- READ (R197): The transport command READ copies bytes from a global address. -/
  | read (t : Fin 65536)
  /-- FADD (R197): The transport command FADD is a remote 64-bit fetch-and-add. -/
  | fadd (t : Fin 65536)
  /-- CAS (R197): The transport command CAS is a remote 64-bit compare-and-swap. -/
  | cas (t : Fin 65536)
  /-- SEND (R200): The transport command SEND delivers a message to a remote receive queue's next posted buffer. -/
  | send (t : Fin 65536)
  /-- SEND_RETRY_EXPIRE (R200): A SEND refused as not ready for 1 to 2 ms completes with RESOURCE_EXHAUSTED. -/
  | sendRetryExpire (t : Fin 65536)
  /-- BAR4_READ (R205): A memory read through a BAR4 window is translated and carried out as a Saloa read, or refused. -/
  | bar4Read (p : Fin 2) (off : BitVec 38) (len : BitVec 13) (tag : BitVec 14)
  /-- BAR4_WRITE (R205): A memory write through a BAR4 window is translated and carried out, or dropped. -/
  | bar4Write (p : Fin 2) (off : BitVec 38) (data : List (BitVec 8))
  /-- BAR4_READ_TIMEOUT (R205): A window read with no answer within 10 ms is stopped with PEER_UNREACHABLE. -/
  | bar4ReadTimeout (p : Fin 2) (tag : BitVec 14)
  /-- WINDOW_VALID_SET (R207): Setting VALID on a BAR4 window is checked and applies to later accesses, or is refused. -/
  | windowValidSet (j : Fin 256) (v : BitVec 64)
  /-- WINDOW_FENCE_START (R208): HEP_WIN_FENCE START begins waiting for accesses translated by a window's previous entry. -/
  | windowFenceStart (v : BitVec 64)
  /-- WINDOW_FENCE_DONE (R208): No access under the previous entry remains, and the fence's BUSY clears. -/
  | windowFenceDone
  /-- RKT_ENABLE (R190): A write to FAB_SAL_RKT_CFG.ENABLE puts the registration table in force, or is refused. -/
  | rktEnable (v : BitVec 64)
  /-- PD_WRITE (R188): A write to FAB_SAL_PD sets or clears a protection domain, subject to its users. -/
  | pdWrite (p : Fin 4096) (v : BitVec 64)
  /-- FTN_WRITE (R189): A write to FAB_SAL_FTN sets a glade's tenant number unless the glade has windows, queues or registrations. -/
  | ftnWrite (g : Fin 256) (v : BitVec 16)
  /-- FAB_SAL_LOCK_SET (R208): Setting FAB_SAL_LOCK.LOCKED fixes this chapter's RWL fields. -/
  | fabSalLockSet
  /-- PKT_WRITE (R223): A reliable WRITE packet is received, checked by PSN and key, and applied. -/
  | pktWrite (h : SalHeader) (data : List (BitVec 8))
  /-- PKT_WRITE_POST (R217): A WRITE_POST packet is received and applied, and the counter is posted after its write. -/
  | pktWritePost (h : SalHeader) (data : List (BitVec 8))
  /-- READ_REQ (R217): A READ_REQ packet is received and answered with READ_RESP data. -/
  | readReq (h : SalHeader)
  /-- PKT_FADD (R217): A FADD packet is performed atomically at the channel controller. -/
  | pktFadd (h : SalHeader)
  /-- PKT_CAS (R217): A CAS packet is performed atomically at the channel controller. -/
  | pktCas (h : SalHeader) (swap : BitVec 64)
  /-- PKT_SEND (R223): A SEND packet consumes the receive queue's head buffer, or is answered NOT_READY. -/
  | pktSend (h : SalHeader) (data : List (BitVec 8))
  /-- READ_RESP (R217): A READ_RESP is received and its data is written at LADDR. -/
  | readResp (h : SalHeader) (data : List (BitVec 8))
  /-- ATOMIC_RESP (R217): An ATOMIC_RESP is received and the old value is written at LADDR. -/
  | atomicResp (h : SalHeader) (old : BitVec 64)
  /-- OP_RESP (R217): An OP_RESP is received and completes a WRITE, WRITE_POST or SEND command. -/
  | opResp (h : SalHeader)
  /-- ACK (R224): An ACK is received, advances the lowest unacknowledged PSN and updates the congestion window. -/
  | ack (h : SalHeader)
  /-- NAK (R225): A NAK is received and acted on as SEQ, EPOCH or NOT_READY. -/
  | nak (h : SalHeader)
  /-- PROBE (R217): A PROBE is received and answered with an ACK. -/
  | probe (h : SalHeader)
  /-- HELLO (R221): A HELLO is received, an epoch is adopted and HELLO_ACK is sent. -/
  | hello (h : SalHeader)
  /-- HELLO_ACK (R221): A HELLO_ACK is received and the peer context becomes OPEN. -/
  | helloAck (h : SalHeader)
  /-- ARP_REQUEST (R212): An ARP request for a port address is answered in hardware. -/
  | arpRequest (p : Fin 16) (ask : EthAsk) (ip target : BitVec 32)
  /-- NEIGHBOUR_SOLICITATION (R212): An IPv6 neighbour solicitation for a port address is answered in hardware. -/
  | neighbourSolicitation (p : Fin 16) (ask : EthAsk) (src target : BitVec 128)
  /-- ETH_FRAME_DROP (R212): A frame the port does not accept, including PAUSE and PFC, is dropped and counted. -/
  | ethFrameDrop (p : Fin 16) (kind : Fin 3)
  /-- SCHEDULER_DECISION (R248): At a packet boundary the port's scheduler chooses and sends the next packet. -/
  | schedulerDecision (p : Fin 16)
  /-- ACK_TIMER_EXPIRE (R224): 2 µs after the oldest unacknowledged packet was applied, an ACK is sent. -/
  | ackTimerExpire (d : BitVec 16)
  /-- RTO_EXPIRE (R226): The retransmission timer expires: packets are sent again, the window falls and the path may move. -/
  | rtoExpire (d : BitVec 16)
  /-- PEER_TIMEOUT (R226): TIMEOUT passes without progress: the peer context becomes UNREACHABLE and its operations fail. -/
  | peerTimeout (d : BitVec 16)
  /-- HOLDOFF_EXPIRE (R226): HOLDOFF passes for an UNREACHABLE context, so a later command may reopen it. -/
  | holdoffExpire (d : BitVec 16)
  /-- NOT_READY_PAUSE_EXPIRE (R225): A NOT_READY hint ends and the sender sends again from the refused PSN. -/
  | notReadyPauseExpire (d : BitVec 16)
  /-- FAB_PORT_ENABLE (R234): A write of FAB_PORT.ENABLE enables or disables a data port. -/
  | fabPortEnable (p : Fin 16) (v : BitVec 64)
  /-- LANE_FAULT (R235): A lane loses light, loses lock or shows uncorrectable FEC for three intervals, and it is retrained once. -/
  | laneFault (l : Fin 44)
  /-- LANE_RETRAIN_DONE (R235): The retrain and loopback of a failed lane end, and a spare is switched in or the lane is reported failed. -/
  | laneRetrainDone (l : Fin 44) (locked loopback : Bool)
  /-- LANE_SPARE_DONE (R235): A spare lane is switched onto the failed lane's fibres and recorded. -/
  | laneSpareDone (l : Fin 44)
  /-- LANE_UP (R234): A lane locks and its FEC aligns; a port with both lanes up enters UP. -/
  | laneUp (l : Fin 44)
  /-- CTX_STORE_CFG_WRITE (R227): A write to FAB_CTX_CFG enables the context store or changes PEER_RESERVE, or is refused. -/
  | ctxStoreCfgWrite (v : BitVec 64)
  /-- FAB_LOCK_SET (R240): Setting FAB_LOCK.LOCKED fixes the RWL fields of FAB and OPT. -/
  | fabLockSet
  /-- SCHED_INTERVAL (R252): At each 2^20 ns boundary, AVAIL, D and the effective minimums are computed and shortfalls are reported. -/
  | schedInterval
  /-- SCH_NODE_WRITE (R254): A write to a glade or instance node applies from the next decision, and credits are cut to CAP. -/
  | schNodeWrite (inst : Bool) (n : Fin 4096) (b : Bool) (v : BitVec 64)
  /-- POLICER_WRITE (R249): A write to a policer refills both buckets, and held packets are metered again. -/
  | policerWrite (k : Fin 1024) (b : Bool) (v : BitVec 64)
  /-- POLICER_BIND (R249): Setting POL_EN binds a policer to a node, or is refused with BIND_REFUSED. -/
  | policerBind (inst : Bool) (n : Fin 4096) (v : BitVec 64)
  /-- POLICER_RELEASE (R250): A held packet is metered again when the buckets would colour it yellow or green. -/
  | policerRelease (k : Fin 1024)
  /-- BME_CLEAR (R268): Bus Master Enable is cleared: no new requests are issued and host-access operations fail. -/
  | bmeClear (p : Fin 2)
  /-- BME_SET (R268): Bus Master Enable is set again and requests may be issued. -/
  | bmeSet (p : Fin 2)
  /-- FLR (R269): A function-level reset resets the port's instances, clears its rings and set-up queue, and resets configuration space. -/
  | flr (p : Fin 2)
  /-- FLR_DONE (R269): The function completes its reset and stops answering with retry status. -/
  | flrDone (p : Fin 2)
  /-- HOT_RESET (R65): A hot reset received on a port resets it as a fundamental reset. -/
  | hotReset (p : Fin 2)
  /-- DL_DOWN (R271): A DL_Down on a port is handled as a hot reset. -/
  | dlDown (p : Fin 2)
  /-- LINK_STATE_CHANGE (R277): A PCIe link goes up or down, or changes speed or width. -/
  | linkStateChange (p : Fin 2) (up : Bool) (speed : Fin 7) (width : Fin 17) (flit : Bool)
  /-- PASID_ENABLE_CLEAR (R287): The host clears PASID Enable, and the PASID instances on that port fail their host access. -/
  | pasidEnableClear (p : Fin 2)
  /-- D3HOT_ENTRY (R261): The function enters D3hot and then accepts only configuration requests. -/
  | d3hotEntry (p : Fin 2)
  /-- BAR4_RESIZE (R278): A Resizable BAR change of BAR4 changes S for later requests. -/
  | bar4Resize (p : Fin 2) (k : Fin 9)
  /-- MSIX_UNMASK (R272): Removing a mask sends one message for each pending vector and clears its bit. -/
  | msixUnmask (p : Fin 2) (v : Option (Fin 2048)) (enable : Bool)
  /-- HOST_UNSUPPORTED_REQUEST (R263): A request outside every BAR, an I/O request, an AtomicOp or a request in D3hot is answered with UR. -/
  | hostUnsupportedRequest (p : Fin 2) (tag : BitVec 14) (posted : Bool)
  /-- POISONED_WRITE_RECEIVED (R263): A received poisoned posted write is dropped and logged. -/
  | poisonedWriteReceived (p : Fin 2)
  /-- HOST_READ_ISSUE (R264): A waiting non-posted request is issued once a tag is free and the limit allows. -/
  | hostReadIssue (p : Fin 2)
  /-- HOST_COMPLETION (R267): A completion is received and matched to its tag, or discarded as unexpected; poisoned, UR and CA completions fail their operation. -/
  | hostCompletion (p : Fin 2) (tag : BitVec 14) (completer : BitVec 16) (reply : HostReply)
  /-- COMPLETION_TIMEOUT (R266): A request times out: HOST_READ_TIMEOUT, an AER log entry and quarantine of the tag. -/
  | completionTimeout (p : Fin 2) (tag : BitVec 14)
  /-- TAG_QUARANTINE_EXPIRE (R266): A quarantined tag becomes free after twice the range's upper value. -/
  | tagQuarantineExpire (p : Fin 2) (tag : BitVec 14)
  /-- EVENT_WRITE (R275): A raised record is written to every matching enabled ring, with TAIL write-back, or is dropped and counted. -/
  | eventWrite
  /-- EVR_HOLDOFF_EXPIRE (R275): A ring's holdoff ends and one message covers the records written during it. -/
  | evrHoldoffExpire (r : Fin 64)
  /-- EVR_ENABLE (R275): A write to HEP_EVR_CFG.ENABLE puts a ring in force, resets HEAD and TAIL, or disables it. -/
  | evrEnable (r : Fin 64) (v : Word)
  /-- EVR_HEAD_WRITE (R275): A write to HEP_EVR_HEAD reports the consumer's progress. -/
  | evrHeadWrite (r : Fin 64) (v : BitVec 16)
  /-- SQ_ENABLE (R295): Setting GLD_SQ_CTRL.ENABLE enables the set-up queue and restarts HEAD, TAIL and PHASE. -/
  | sqEnable (v : Word)
  /-- SQ_TAIL_WRITE (R284): A write of GLD_SQ_TAIL records the set-up queue's new tail. -/
  | sqTailWrite (v : Word)
  /-- GLADE_CREATE (R285): GLADE_CREATE creates a glade with its quotas. -/
  | gladeCreate
  /-- GLADE_QUOTA (R283): GLADE_QUOTA changes a glade's quotas. -/
  | gladeQuota
  /-- GLADE_RESET (R290): GLADE_RESET resets every instance and offload program of the glade and its credits. -/
  | gladeReset
  /-- GLADE_DESTROY (R290): GLADE_DESTROY removes an empty glade and erases its key slots. -/
  | gladeDestroy
  /-- INST_CREATE (R285): INST_CREATE creates an instance on a HOST port with its PASID. -/
  | instCreate
  /-- INST_RESET (R290): INST_RESET aborts the instance's queues, closes its streams and advances its generation. -/
  | instReset
  /-- INST_DESTROY (R290): INST_DESTROY resets the instance, deletes its queues and frees its number. -/
  | instDestroy
  /-- QUEUE_CREATE (R285): QUEUE_CREATE creates a decode, collective, transport, storage or checkpoint queue. -/
  | queueCreate
  /-- QUEUE_DELETE (R290): QUEUE_DELETE resets and deletes a queue, and ends the waits on its completion count. -/
  | queueDelete
  /-- REG_CREATE (R285): REG_CREATE creates a registration at the lowest free index and returns its key. -/
  | regCreate
  /-- REG_REMOVE (R191): REG_REMOVE clears VALID and advances GEN for a registration. -/
  | regRemove
  /-- REG_REMOVE_DRAINED (R191): Every access past the key check has finished, and the removal completes. -/
  | regRemoveDrained
  /-- STQ_READ (R301): The storage READ command reads blocks from the volume to DPTR. -/
  | stqRead (q : Fin 8192) (list : HostReply)
  /-- STQ_WRITE (R308): The storage WRITE command writes blocks, durably when FUA is set. -/
  | stqWrite (q : Fin 8192) (list data : HostReply)
  /-- FLUSH (R309): FLUSH waits for covered writes and makes them durable. -/
  | flush (q : Fin 8192)
  /-- DEALLOCATE (R301): DEALLOCATE makes blocks read as zeros. -/
  | deallocate (q : Fin 8192)
  /-- IDENTIFY (R312): The admin command IDENTIFY writes device, volume or volume-list data. -/
  | identify (q : Fin 8192)
  /-- GET_LOG (R312): The admin command GET_LOG returns the error, volume statistics or firmware log. -/
  | getLog (q : Fin 8192)
  /-- GET_FEATURE (R311): The admin command GET_FEATURE returns a feature value. -/
  | getFeature (q : Fin 8192)
  /-- SET_FEATURE (R311): The admin command SET_FEATURE sets a feature value. -/
  | setFeature (q : Fin 8192)
  /-- FW_DOWNLOAD (R313): FW_DOWNLOAD writes a contiguous firmware piece into the store. -/
  | fwDownload (q : Fin 8192) (data : HostReply)
  /-- FW_COMMIT (R419): FW_COMMIT verifies the staged image and stages or activates it. -/
  | fwCommit (q : Fin 8192)
  /-- CREATE_QUEUE (R311): The admin command CREATE_QUEUE creates a storage queue as QUEUE_CREATE does. -/
  | createQueue (q : Fin 8192)
  /-- DELETE_QUEUE (R311): The admin command DELETE_QUEUE deletes a storage queue as QUEUE_DELETE does. -/
  | deleteQueue (q : Fin 8192)
  /-- VOLUME_VALID_SET (R304): Setting VALID on a volume is checked, or refused with VOL_REFUSED. -/
  | volumeValidSet (v : Fin 4096) (w : BitVec 64)
  /-- VOLUME_VALID_CLEAR (R304): Clearing VALID makes later commands complete with STQ_NO_VOLUME. -/
  | volumeValidClear (v : Fin 4096)
  /-- STAGING_ENABLE (R306): Setting STQ_GLADE_A.ENABLE puts a glade's staging in force, or is refused. -/
  | stagingEnable (g : Fin 256) (v : BitVec 64) (b : BitVec 16)
  /-- SERVICE_TIMEOUT (R307): No reply within SVC_TIMEOUT_MS: PEER_UNREACHABLE, the event, and quarantine of the slot. -/
  | serviceTimeout (q : Fin 8192) (t : Fin 32)
  /-- SLOT_QUARANTINE_EXPIRE (R307): A quarantined staging slot becomes free after twice SVC_TIMEOUT_MS. -/
  | slotQuarantineExpire (g : Fin 256) (slot : BitVec 16)
  /-- ACTIVATION_DRAIN_TIMEOUT (R314): Storage commands still running DRAIN_MS after the stop complete with ACTIVATION_IN_PROGRESS. -/
  | activationDrainTimeout
  /-- LOAD_PLAIN (R331): The key command LOAD_PLAIN loads a key into a slot. -/
  | loadPlain (type : BitVec 2) (glade : BitVec 8) (slot : BitVec 16)
  /-- LOAD_WRAPPED (R331): The key command LOAD_WRAPPED unwraps a key under a key-encryption key and loads it. -/
  | loadWrapped (type : BitVec 2) (glade : BitVec 8) (slot kek : BitVec 16)
  /-- ECDH_KEK (R332): The key command ECDH_KEK derives a key-encryption key from the tenant's point. -/
  | ecdhKek (glade : BitVec 8) (slot : BitVec 16)
  /-- ERASE (R331): The key command ERASE zeroes and frees a slot. -/
  | erase (glade : BitVec 8) (slot : BitVec 16)
  /-- KEY_CMD_DONE (R342): A key command ends, BUSY clears and SEC_KEY_DATA is cleared. -/
  | keyCmdDone
  /-- ATTEST_START (R327): SEC_ATT_CTRL START begins signing an attestation report. -/
  | attestStart (g : BitVec 8)
  /-- ATTEST_DONE (R328): The signed report is written to SEC_ATT_REPORT and BUSY clears. -/
  | attestDone
  /-- ROLLBACK_ADVANCE (R324): SEC_ROLLBACK.ADVANCE begins advancing the flash counter to the running SVN, or is refused. -/
  | rollbackAdvance
  /-- ADVANCE_DONE (R324): The rollback counter has advanced and SEC_ROLLBACK_ADVANCED is raised. -/
  | advanceDone
  /-- FAB_KEY_GROUP_WRITE (R334): A write to SEC_FAB_GRP sets a fabric key group or TX_SEL, or VALID is refused. -/
  | fabKeyGroupWrite (k : Fin 64) (b : Bool) (v : BitVec 64)
  /-- SEAL_LOCK_TAKE (R336): Writing a token while HELD is 0 takes the seal lock. -/
  | sealLockTake (token : BitVec 16) (mgmt : Bool)
  /-- SEAL_LOCK_RELEASE (R336): RELEASE with the holder's token frees the lock and clears the key and message buffer. -/
  | sealLockRelease (token : BitVec 16)
  /-- SEAL_LOCK_EXPIRE (R336): 10 ms with the lock held, no START and no BUSY frees the lock. -/
  | sealLockExpire
  /-- SEAL_MSG_WRITE (R344): An aligned 64-bit write to SEC_SEAL_MSG adds message bytes. -/
  | sealMsgWrite (j : Fin 512) (v : BitVec 64)
  /-- SEAL (R337): SEC_SEAL_CTRL mode SEAL MACs a chunk, inserting the advanced counter on the first chunk. -/
  | seal (token : BitVec 16) (slot : Fin 16) (len : BitVec 13) (more mgmt : Bool)
  /-- SEAL_VERIFY (R338): SEC_SEAL_CTRL mode VERIFY checks a tag and, with REPLAY, the watermark. -/
  | sealVerify (token : BitVec 16) (slot : Fin 16) (len : BitVec 13) (more replay mgmt : Bool)
  /-- LOADKEY (R335): SEC_SEAL_CTRL mode LOADKEY loads SEC_SEAL_KEY into a seal slot. -/
  | loadkey (token : BitVec 16) (slot : Fin 16)
  /-- SEAL_CHUNK_DONE (R342): A seal, verify or load operation ends and BUSY clears with its status. -/
  | sealChunkDone
  /-- SEC_DEBUG_LOCK_SET (R344): Setting SEC_DEBUG.LOCK fixes the RWL fields of SEC. -/
  | secDebugLockSet
  /-- CAPTURE (R349): CAPTURE arms a growth ring of the group on this member. -/
  | capture (q : Fin 256)
  /-- CKP_DRAIN (R360): The checkpoint command DRAIN writes the shards and manifests of a STAGED ring to the volume area. -/
  | ckpDrain (q : Fin 256)
  /-- RESTORE (R364): RESTORE finds the newest restorable sealed ring and writes its items. -/
  | restore (q : Fin 256) (areas : List (List (BitVec 8))) (agreed : List (BitVec 64))
  /-- ABANDON (R349): ABANDON abandons a ring that is not yet STAGED on every member. -/
  | abandon (q : Fin 256)
  /-- RING_GROUP_VALID_SET (R346): Setting VALID in CKP_GRP_A puts a ring group in force, or is refused. -/
  | ringGroupValidSet (g : Fin 16) (v : BitVec 64)
  /-- CKP_MEMBER_MESSAGE (R352): A message from another member arrives through the control areas, such as the step of a timer ring. -/
  | ckpMemberMessage (g : Fin 16) (member : Fin 32) (step : BitVec 64) (m : CkpMsg)
  /-- CKP_TIMER_EXPIRE (R352): Member 0's PERIOD_MS timer expires and sets the ring's step from STEP_CTR plus LEAD. -/
  | ckpTimerExpire (g : Fin 16) (r : Fin 2)
  /-- CKP_TRIGGER (R353): The step counter reaches the ring's step: the granules are marked uncopied and TRIG_CTR is posted, or the step is missed. -/
  | ckpTrigger (g : Fin 16) (r : Fin 2)
  /-- COPY_GRANULE (R354): The background copy captures the next granule, and releases the writes held on it. -/
  | copyGranule (g : Fin 16) (r : Fin 2)
  /-- CKP_DEDUP_DONE (R357): Deduplication of the captured granules ends and striping starts. -/
  | ckpDedupDone (g : Fin 16) (r : Fin 2)
  /-- CKP_STAGED (R358): Every shard is in place, the capture copies are freed and the ring is STAGED. -/
  | ckpStaged (g : Fin 16) (r : Fin 2)
  /-- CKP_ROOT_SEALED (R363): The root writer seals and writes the root, the ring is SEALED and the DRAINs complete. -/
  | ckpRootSealed (g : Fin 16) (r : Fin 2)
  /-- HEARTBEAT (R379): A verified twin HEARTBEAT frame is received and updates the pair state. -/
  | heartbeat (f : TwinFrame)
  /-- MIRROR_WRITE (R377): A twin MIRROR_WRITE frame is applied in order of write sequence. -/
  | mirrorWrite (f : TwinFrame)
  /-- MIRROR_ACK (R377): A twin MIRROR_ACK frame advances the sender's acknowledged write. -/
  | mirrorAck (f : TwinFrame)
  /-- RESYNC_WRITE (R377): A twin RESYNC_WRITE frame is applied to a target region. -/
  | resyncWrite (f : TwinFrame)
  /-- TWIN_HEARTBEAT_TICK (R379): Each twin port sends a HEARTBEAT every 100 µs. -/
  | twinHeartbeatTick (t : Fin 2)
  /-- TWIN_PORT_TIMEOUT (R379): No verified frame for 300 to 310 µs: the twin port is down, and with both down the link is dead. -/
  | twinPortTimeout (t : Fin 2)
  /-- MIRROR_ACK_TIMER (R377): 2 µs after the oldest unacknowledged mirror write, a MIRROR_ACK is sent. -/
  | mirrorAckTimer
  /-- MIRROR_RETRANSMIT_TIMER (R377): An acknowledgement that has not advanced for 20 µs sends again from the first unacknowledged write. -/
  | mirrorRetransmitTimer
  /-- TWIN_PROBE_TICK (R380): Every 250 µs a PROBE is sent to the twin and the fabric verdict is checked, which may change the pair state. -/
  | twinProbeTick
  /-- GRANT_TIMEOUT (R381): GRANT_MS passes in SUSPECT without a decision, and the device becomes ISOLATED. -/
  | grantTimeout
  /-- ISOLATED_RETRY_TICK (R381): An ISOLATED device retries the grants every GRANT_MS. -/
  | isolatedRetryTick
  /-- TAKEOVER_WAIT_EXPIRE (R383): 1 ms after a majority is won, the device enters TAKEN_OVER and releases the held writes. -/
  | takeoverWaitExpire
  /-- PAIR (R385): TWN_CTRL.PAIR enters PAIRING with a new epoch. -/
  | pair (epoch : BitVec 16)
  /-- TWN_LOCK_SET (R389): Setting TWN_LOCK.LOCKED fixes the RWL fields of TWN. -/
  | twnLockSet
  /-- TAKE_OUT (R375): TWN_SVC ACTION 1 takes a tile, core, cluster or quadrant shared unit out of service. -/
  | takeOut (unit : BitVec 16) (force : Bool)
  /-- RETURN (R375): TWN_SVC ACTION 2 returns a tested unit to service. -/
  | returnCmd (unit : BitVec 16)
  /-- ADD (R398): The Fern instruction ADD adds, and also writes NCF and BC. -/
  | add (k : Fin 257)
  /-- SUB (R398): SUB subtracts modulo 2^32. -/
  | sub (k : Fin 257)
  /-- AND (R398): AND is a bitwise and. -/
  | andCmd (k : Fin 257)
  /-- OR (R398): OR is a bitwise or. -/
  | orCmd (k : Fin 257)
  /-- XOR (R398): XOR is a bitwise exclusive or. -/
  | xorCmd (k : Fin 257)
  /-- SLL (R398): SLL shifts left logically. -/
  | sll (k : Fin 257)
  /-- SRL (R398): SRL shifts right logically. -/
  | srl (k : Fin 257)
  /-- SRA (R398): SRA shifts right arithmetically. -/
  | sra (k : Fin 257)
  /-- SLT (R398): SLT sets 1 on a signed less-than. -/
  | slt (k : Fin 257)
  /-- SLTU (R398): SLTU sets 1 on an unsigned less-than. -/
  | sltu (k : Fin 257)
  /-- MUL (R398): MUL gives the low 32 bits of the product. -/
  | mul (k : Fin 257)
  /-- MULH (R398): MULH gives the high 32 bits of the signed product. -/
  | mulh (k : Fin 257)
  /-- MULHU (R398): MULHU gives the high 32 bits of the unsigned product. -/
  | mulhu (k : Fin 257)
  /-- DIV (R398): DIV divides signed, with defined results for zero and overflow. -/
  | div (k : Fin 257)
  /-- DIVU (R398): DIVU divides unsigned. -/
  | divu (k : Fin 257)
  /-- REM (R398): REM gives the signed remainder. -/
  | rem (k : Fin 257)
  /-- REMU (R398): REMU gives the unsigned remainder. -/
  | remu (k : Fin 257)
  /-- ADDI (R398): ADDI adds an immediate. -/
  | addi (k : Fin 257)
  /-- ANDI (R398): ANDI ands with a zero-extended immediate. -/
  | andi (k : Fin 257)
  /-- ORI (R398): ORI ors with a zero-extended immediate. -/
  | ori (k : Fin 257)
  /-- XORI (R398): XORI exclusive-ors with a zero-extended immediate. -/
  | xori (k : Fin 257)
  /-- SLTI (R398): SLTI sets 1 on a signed less-than with an immediate. -/
  | slti (k : Fin 257)
  /-- SLLI (R398): SLLI shifts left by an immediate. -/
  | slli (k : Fin 257)
  /-- SRLI (R398): SRLI shifts right logically by an immediate. -/
  | srli (k : Fin 257)
  /-- SRAI (R398): SRAI shifts right arithmetically by an immediate. -/
  | srai (k : Fin 257)
  /-- LUI (R398): LUI loads IMM19 times 2^13. -/
  | lui (k : Fin 257)
  /-- AUIPC (R398): AUIPC adds IMM19 times 2^13 to the PC. -/
  | auipc (k : Fin 257)
  /-- LB (R398): LB loads a sign-extended byte. -/
  | lb (k : Fin 257)
  /-- LBU (R398): LBU loads a zero-extended byte. -/
  | lbu (k : Fin 257)
  /-- LH (R398): LH loads a sign-extended halfword. -/
  | lh (k : Fin 257)
  /-- LHU (R398): LHU loads a zero-extended halfword. -/
  | lhu (k : Fin 257)
  /-- LW (R398): LW loads a word. -/
  | lw (k : Fin 257)
  /-- SB (R398): SB stores a byte. -/
  | sb (k : Fin 257)
  /-- SH (R398): SH stores a halfword. -/
  | sh (k : Fin 257)
  /-- SW (R398): SW stores a word. -/
  | sw (k : Fin 257)
  /-- BEQ (R398): BEQ branches if equal. -/
  | beq (k : Fin 257)
  /-- BNE (R398): BNE branches if not equal. -/
  | bne (k : Fin 257)
  /-- BLT (R398): BLT branches if signed less. -/
  | blt (k : Fin 257)
  /-- BGE (R398): BGE branches if signed greater or equal. -/
  | bge (k : Fin 257)
  /-- BLTU (R398): BLTU branches if unsigned less. -/
  | bltu (k : Fin 257)
  /-- BGEU (R398): BGEU branches if unsigned greater or equal. -/
  | bgeu (k : Fin 257)
  /-- JAL (R398): JAL jumps and links. -/
  | jal (k : Fin 257)
  /-- JALR (R398): JALR jumps to a register plus offset and links. -/
  | jalr (k : Fin 257)
  /-- DADD (R404): DADD adds packed decimal. -/
  | dadd (k : Fin 257)
  /-- DADDC (R404): DADDC adds packed decimal with carry. -/
  | daddc (k : Fin 257)
  /-- DSUB (R404): DSUB subtracts packed decimal. -/
  | dsub (k : Fin 257)
  /-- DSUBB (R404): DSUBB subtracts packed decimal with borrow. -/
  | dsubb (k : Fin 257)
  /-- DADJ (R405): DADJ adjusts a binary sum to decimal using NCF and BC. -/
  | dadj (k : Fin 257)
  /-- DSL (R404): DSL shifts decimal digits left. -/
  | dsl (k : Fin 257)
  /-- DSR (R404): DSR shifts decimal digits right. -/
  | dsr (k : Fin 257)
  /-- ECALL (R403): ECALL traps to the handler level. -/
  | ecall (k : Fin 257)
  /-- EBREAK (R403): EBREAK traps with cause 9. -/
  | ebreak (k : Fin 257)
  /-- TRET (R403): TRET restores PL and IE and returns to TPC. -/
  | tret (k : Fin 257)
  /-- WFI (R398): WFI waits for an enabled interrupt. -/
  | wfi (k : Fin 257)
  /-- FERN_FENCE (R394): The Fern instruction FENCE waits until every earlier store has completed. -/
  | fernFence (k : Fin 257)
  /-- MFSR (R401): MFSR reads a system register, subject to privilege. -/
  | mfsr (k : Fin 257)
  /-- MTSR (R401): MTSR writes a system register, subject to privilege. -/
  | mtsr (k : Fin 257)
  /-- CPOST (R409): CPOST fences and adds to a sync counter. -/
  | cpost (k : Fin 257)
  /-- CWAIT (R409): CWAIT holds the core until a counter reaches a 64-bit target. -/
  | cwait (k : Fin 257)
  /-- CREAD (R409): CREAD reads a sync counter into a register pair. -/
  | cread (k : Fin 257)
  /-- AMOADD (R398): AMOADD atomically adds to an aligned word. -/
  | amoadd (k : Fin 257)
  /-- AMOSWAP (R398): AMOSWAP atomically swaps an aligned word. -/
  | amoswap (k : Fin 257)
  /-- AMOCAS (R398): AMOCAS atomically compares and swaps an aligned word. -/
  | amocas (k : Fin 257)
  /-- C_ADDI (R399): C.ADDI adds a signed immediate. -/
  | cAddi (k : Fin 257)
  /-- C_LW (R399): C.LW loads a word. -/
  | cLw (k : Fin 257)
  /-- C_SW (R399): C.SW stores a word. -/
  | cSw (k : Fin 257)
  /-- C_ALU (R399): C.ALU applies the operation that F selects. -/
  | cAlu (k : Fin 257)
  /-- C_BZ (R399): C.BZ branches on a register being zero or nonzero. -/
  | cBz (k : Fin 257)
  /-- C_J (R399): C.J jumps by an offset. -/
  | cJ (k : Fin 257)
  /-- C_LI (R399): C.LI loads a signed immediate. -/
  | cLi (k : Fin 257)
  /-- ILLEGAL_INSTRUCTION (R400): An illegal encoding is fetched and traps with cause 1. -/
  | illegalInstruction (k : Fin 257)
  /-- TIMER_INTERRUPT (R403): TIME reaches TCMP while IE is 1, and the core takes the timer interrupt. -/
  | timerInterrupt (k : Fin 257)
  /-- CORE_WATCHDOG_EXPIRE (R410): A firmware core's 10 ms watchdog expires. -/
  | coreWatchdogExpire (k : Fin 256)
  /-- CORE_RESTART_DONE (R410): A restarted firmware core is back in service. -/
  | coreRestartDone (k : Fin 256)
  /-- OFL_LOAD (R407): Offload LOAD checks the header, takes cores, copies the image and extends the glade measurement. -/
  | oflLoad (slot : Fin 64)
  /-- OFL_LOAD_DONE (R414): An offload LOAD completes, the slot is LOADED and BUSY clears. -/
  | oflLoadDone
  /-- OFL_START (R409): Offload START starts every core of the slot at ENTRY. -/
  | oflStart (slot : Fin 64)
  /-- OFL_STOP (R407): Offload STOP begins halting every core of the slot. -/
  | oflStop (slot : Fin 64)
  /-- OFL_STOP_DONE (R414): Every core of the slot has halted and the slot is STOPPED. -/
  | oflStopDone
  /-- OFL_UNLOAD (R407): Offload UNLOAD zeroes local memory and returns the cores to the pool. -/
  | oflUnload (slot : Fin 64)
  /-- FW_STORE_ENABLE (R418): Setting PWR_FW_STORE.ENABLE puts the firmware store in force, or is refused. -/
  | fwStoreEnable (v : Word)
  /-- FW_COMMIT_VERIFIED (R419): Verification of a committed image ends and the activation state is decided. -/
  | fwCommitVerified
  /-- DEFERRED_START_EXPIRE (R420): The control level has stayed below THROTTLE for 500 ms and QUIESCE is entered. -/
  | deferredStartExpire
  /-- QUIESCE_DONE (R421): Storage has drained and HANDOVER is entered. -/
  | quiesceDone
  /-- HANDOVER_READY (R422): The new image declares itself ready and RESUME is entered. -/
  | handoverReady (good : Bool)
  /-- HANDOVER_TIMEOUT (R422): 40 ms pass in HANDOVER without readiness and FALLBACK is entered. -/
  | handoverTimeout
  /-- ACTIVATION_RESUME_DONE (R420): Fetching has restarted on every queue and the activation ends. -/
  | activationResumeDone
  /-- FALLBACK_DONE (R422): The old image runs again and the state returns to IDLE. -/
  | fallbackDone
  /-- THERMAL_LEVEL_ENTER (R424): A sensor crosses a threshold and the device enters the higher thermal level with its caps. -/
  | thermalLevelEnter (j : Fin 16) (t : BitVec 12)
  /-- THERMAL_LEVEL_EXIT (R424): Every sensor has stayed below threshold less HYST_C for 10 ms and the level falls. -/
  | thermalLevelExit (temps : List (BitVec 12))
  /-- SENSOR_FAULT (R426): A sensor fails its self-check and reads as THROTTLE_C until power-on reset. -/
  | sensorFault (j : Fin 16)
  /-- POWER_SAMPLE (R427): Package power is measured every 10 µs, and the limiter engages or releases. -/
  | powerSample (w : BitVec 12)
  /-- FW_LOOP_TICK (R429): Every 1 ms the power and thermal loops set the requested fractions. -/
  | fwLoopTick
  /-- PWR_LIMIT_WRITE (R431): A write to PWR_LIMIT sets the loop targets, and is held during activation. -/
  | pwrLimitWrite (v : Word)
  /-- THERM_CFG_WRITE (R431): A write to PWR_THERM_CFG may only lower the thresholds, or is ignored. -/
  | thermCfgWrite (v : Word)
  /-- PWR_LOCK_SET (R433): Setting PWR_LOCK.LOCKED fixes the RWL fields of PWR. -/
  | pwrLockSet
  /-- QUERY (R436): TLM_CTR_CMD QUERY returns a counter's overflow bit. -/
  | query (off : BitVec 23)
  /-- CLEAR (R436): TLM_CTR_CMD CLEAR zeroes a statistic counter and its overflow bit. -/
  | clear (off : BitVec 23)
  /-- CLEAR_BLOCK (R436): TLM_CTR_CMD CLEAR_BLOCK zeroes every statistic counter of a block. -/
  | clearBlock (off : BitVec 23)
  /-- TLM_STREAM_ENABLE (R438): Setting TLM_STR_CFG.ENABLE starts a sampled stream. -/
  | tlmStreamEnable (k : Fin 8) (v : Word)
  /-- STREAM_SAMPLE (R438): Every PERIOD_US a stream samples its registers and writes a record, or counts a drop. -/
  | streamSample (k : Fin 8)
  /-- METER_RING_ENABLE (R440): Setting TLM_MTR_CFG.ENABLE puts the metering ring in force. -/
  | meterRingEnable (v : Word)
  /-- METERING_INTERVAL (R439): At each interval end, firmware writes a metering record per glade, or holds and merges it. -/
  | meteringInterval
  /-- CROSSING_TIMEOUT (R447): An unacknowledged native-mode transfer times out after 1,024 watch-clock cycles and the far grove is STOPPED. -/
  | crossingTimeout (near far : Fin 115) (class_ : Fin 4)
  /-- CROSSING_HOLD_LONG (R449): A hold-mode transfer passes 1,024 watch-clock cycles and sets HOLD_LONG and HOLDING. -/
  | crossingHoldLong (near far : Fin 115) (class_ : Fin 4)
  /-- FAR_CLOCK_RETURN (R449): The far clock returns and a held transfer completes. -/
  | farClockReturn (far : Fin 115)
  /-- GROVE_RESET (R451): A controller or agent resets a grove and the crossings into it flush. -/
  | groveReset (g : Fin 115)
  /-- GROVE_RESET_DONE (R451): A grove reset ends and its crossings reopen. -/
  | groveResetDone (g : Fin 115)
  /-- CLK_LOCK_SET (R455): Setting CLK_LOCK.LOCKED fixes the RWL fields of CLK. -/
  | clkLockSet
  /-- TRAIL_READ (R456): A Trail read transaction is checked and answered with ACK and data. -/
  | trailRead (off : BitVec 24) (crc : BitVec 8)
  /-- TRAIL_WRITE (R456): A Trail write transaction is checked and applied, and answered with ACK. -/
  | trailWrite (off : BitVec 24) (v : Word) (crc : BitVec 8)
  /-- TRAIL_BAD_OP (R457): A Trail transaction with an unlisted OP is framed as a read and answered 0x04 or 0x03. -/
  | trailBadOp (op : BitVec 8) (off : BitVec 24) (crc : BitVec 8)
  /-- CHALLENGE (R458): TRL_AUTH_CTRL CHALLENGE places a fresh challenge and sets CHAL_VALID. -/
  | challenge
  /-- SUBMIT (R458): TRL_AUTH_CTRL SUBMIT begins checking the debug response. -/
  | submit
  /-- DEBUG_RESPONSE_CHECKED (R339): The check of a debug response ends: an unlock in its scope, or a refusal. -/
  | debugResponseChecked
  /-- DEBUG_REFUSAL_EXPIRE (R339): The 1 s refusal of challenges ends. -/
  | debugRefusalExpire
  /-- TRAIL_RELOCK (R458): TRL_AUTH_CTRL LOCK relocks the port, clears breakpoints and resumes halted cores. -/
  | trailRelock
  /-- HALT (R460): HALT stops the selected core at the next instruction boundary. -/
  | halt
  /-- TRAIL_RESUME (R460): RESUME lets a halted core run. -/
  | trailResume
  /-- STEP (R460): STEP executes one instruction on the halted core. -/
  | step
  /-- BREAKPOINT_HIT (R460): A core halts before an instruction at a breakpoint address. -/
  | breakpointHit (k : Fin 257)
  /-- WATCHPOINT_HIT (R460): A core halts after a matching access. -/
  | watchpointHit (k : Fin 257)
  /-- CORE_REG_ACCESS (R460): TRL_CORE_REG GO reads or writes a register of a halted core. -/
  | coreRegAccess (v : Word)
  /-- TRAIL_MEM_ACCESS (R462): An access of TRL_MEM_DATA starts an aligned 8-byte access at TRL_MEM_ADDR. -/
  | trailMemAccess (write : Option Word)
  /-- TRAIL_MEM_DONE (R462): A Trail memory access completes and the address advances if INC is set. -/
  | trailMemDone
  /-- EXTEST (R466): The TAP instruction EXTEST holds the device in warm device reset and drives the boundary cells. -/
  | extest
  /-- IDCODE (R464): The TAP instruction IDCODE selects the identification register. -/
  | idcode
  /-- SAMPLE_PRELOAD (R464): The TAP instruction SAMPLE/PRELOAD samples the boundary register with the device running. -/
  | samplePreload
  /-- CLAMP (R466): The TAP instruction CLAMP holds the device in warm device reset. -/
  | clamp
  /-- HIGHZ (R466): The TAP instruction HIGHZ holds the device in warm device reset with outputs at high impedance. -/
  | highz
  /-- BYPASS (R464): The TAP instruction BYPASS selects the bypass register. -/
  | bypass
  /-- TEST_LOGIC_RESET (R466): The TAP enters Test-Logic-Reset and a held warm device reset completes. -/
  | testLogicReset
  /-- OCLK_RETURN (R35): An optical reference clock comes back within ±100 ppm; REFCLK_OK sets and that tile's lanes can train again. -/
  | oclkReturn (t : Fin 4)
  /-- TLP_ERROR_RECEIVED (R271): A received TLP or DLLP fails a PCIe check (Bad TLP, Malformed TLP, ECRC Error, Flow Control Protocol Error and the like) and is logged in AER with its class and severity. -/
  | tlpErrorReceived (p : Fin 2) (e : AerErr)
  /-- HOST_PORT_INTERNAL_ERROR (R271): A host-port buffer corrects an error (Corrected Internal Error) or holds one it cannot correct, and the port then enters hot reset. -/
  | hostPortInternalError (p : Fin 2) (corrected : Bool)
  /-- STQ_MSIX_HOLDOFF_EXPIRE (R311): The MSI-X holdoff that SET_FEATURE FID 0x01 sets for an instance's storage queues ends, and one message covers the completions written during it. -/
  | stqMsixHoldoffExpire (j : Fin 4096)
  deriving DecidableEq, Repr

end Sys2Proof
end

