-- ==== Sys2Proof/Config.lean ====
section
/-! DEFINITION. What an implementation fixes and the spec leaves open: free values (constants with no body, applied to the
state's counter of free values or to the operands they depend on) and the cryptographic functions that the spec names by
reference to outside standards. Choices and readings of the model: log entry 8. -/
namespace Sys2Proof

/-- A fresh free bit: nothing is known of its value. -/
opaque Config.freeBit : Nat → Bool

/-- A fresh free byte: nothing is known of its value. -/
opaque Config.freeByte : Nat → BitVec 8

/-- A fresh free 32-bit word: nothing is known of its value. -/
opaque Config.freeWord32 : Nat → BitVec 32

/-- A fresh free 64-bit word: nothing is known of its value. -/
opaque Config.freeWord : Nat → BitVec 64

/-- What the vector unit answers for an operation and an FP32 operand where the spec states only a bound or no result:
codes 0x0B to 0x12 (R111, R129), and the sign of a minimum or maximum of zeros of both signs. -/
opaque Config.vectorResult : (op : Nat) → (x : BitVec 32) → BitVec 32

/-- What a decode slice's FP32 division answers, within the accuracy of R111 (R140, R157). -/
opaque Config.vectorDivide : (a b : BitVec 32) → BitVec 32

/-- What the vector unit answers for the INT32 absolute value or negation of the most negative number, which the spec does
not state (R111). -/
opaque Config.vectorMinInt : (op : Nat) → BitVec 32

/-- SHA-512 of a message (FIPS 180, named by the spec): 64 bytes. -/
opaque Config.sha512 : List (BitVec 8) → List (BitVec 8)

/-- SHA-512/256 of a message (FIPS 180, named by the spec): 32 bytes. -/
opaque Config.sha512t256 : List (BitVec 8) → List (BitVec 8)

/-- ECDSA P-521 verification of a signature over a message with a public key (FIPS 186, named by the spec). -/
opaque Config.ecdsaVerify : (key msg sig : List (BitVec 8)) → Bool

/-- ECDSA P-521 signature of a message with a secret key (FIPS 186, named by the spec): 132 bytes. -/
opaque Config.ecdsaSign : (key msg : List (BitVec 8)) → List (BitVec 8)

/-- The P-521 secret key the device derives from its unclonable function and the helper data (R56). -/
opaque Config.identityKey : (helper : List (BitVec 8)) → List (BitVec 8)

/-- The public key of a secret P-521 key. -/
opaque Config.publicKey : (key : List (BitVec 8)) → List (BitVec 8)

/-- The seal engine's root key, derived from the unclonable function's response (R56). -/
opaque Config.sealRootKey : (helper : List (BitVec 8)) → List (BitVec 8)

/-- Whether the helper data reconstructs the identity (R56): the unclonable function's own answer. -/
opaque Config.identityReconstructs : (helper : List (BitVec 8)) → Bool

/-- The root signature over the identity public key and the serial number that the helper data holds (R326): the spec does
not give its place. -/
opaque Config.identityCert : (helper : List (BitVec 8)) → List (BitVec 8)

/-- Whether a unit holds an SRAM array and the array has a column (R57): the spec gives no numbers of them. -/
opaque Config.sramColumn : (unit array column : Nat) → Bool

/-- The vendor's root public key that the boot ROM holds. -/
opaque Config.vendorRootKey : List (BitVec 8)

/-- ECDH P-521 shared secret of a secret key and a peer's point, if the point is on the curve. -/
opaque Config.ecdh : (key point : List (BitVec 8)) → Option (List (BitVec 8))

/-- HMAC-SHA-256 based key derivation: 32 bytes from a secret and an information string. -/
opaque Config.kdf : (secret info : List (BitVec 8)) → List (BitVec 8)

/-- AES-256 key unwrap of a wrapped key under a key-encryption key, if its integrity check passes. -/
opaque Config.keyUnwrap : (kek wrapped : List (BitVec 8)) → Option (List (BitVec 8))

/-- AES-CMAC of a message: 16 bytes. -/
opaque Config.cmac : (key msg : List (BitVec 8)) → List (BitVec 8)

/-- XTS-AES-256 encryption of a block with a tweak. -/
opaque Config.xtsEncrypt : (key : List (BitVec 8)) → (tweak : Nat) → List (BitVec 8) → List (BitVec 8)

/-- XTS-AES-256 decryption of a block with a tweak. -/
opaque Config.xtsDecrypt : (key : List (BitVec 8)) → (tweak : Nat) → List (BitVec 8) → List (BitVec 8)

/-- AES-256-GCM decryption and tag check: the plain text, if the tag verifies. -/
opaque Config.gcmOpen : (key nonce aad cipher tag : List (BitVec 8)) → Option (List (BitVec 8))

/-- AES-256-GCM encryption: cipher text followed by its 16-byte tag. -/
opaque Config.gcmSeal : (key nonce aad plain : List (BitVec 8)) → List (BitVec 8)

end Sys2Proof
end

