-- ==== Sys2Proof/Machine/Bits.lean ====
section
/-! DEFINITION. Bit fields, sign extension, byte order and checksum helpers over natural numbers and byte lists. -/
namespace Sys2Proof.Machine

/-- Field `[lsb + width - 1 : lsb]` of a number (R4). -/
def bitsOf (v lsb width : Nat) : Nat := (v / 2 ^ lsb) % 2 ^ width

/-- Bit `i` of a number. -/
def bitOf (v i : Nat) : Bool := (v / 2 ^ i) % 2 == 1

/-- `v` with field `[lsb + width - 1 : lsb]` replaced by the low bits of `f`. -/
def putBits (v lsb width f : Nat) : Nat :=
  2 ^ (lsb + width) * (v / 2 ^ (lsb + width)) + 2 ^ lsb * (f % 2 ^ width) + v % 2 ^ lsb

/-- A Boolean as a bit. -/
def b2n (b : Bool) : Nat := if b then 1 else 0

/-- The signed value of the low `w` bits of a number. -/
def signedOf (w v : Nat) : Int :=
  let x := v % 2 ^ w
  if x < 2 ^ (w - 1) then (x : Int) else (x : Int) - (2 ^ w : Nat)

/-- The `w`-bit two's complement word of an integer. -/
def wordOf (w : Nat) (i : Int) : Nat := (i % ((2 ^ w : Nat) : Int)).toNat

/-- Little-endian value of a list of bytes (R3). -/
def leNat : List Byte → Nat
  | [] => 0
  | b :: t => b.toNat + 256 * leNat t

/-- The low `n` bytes of a number, least significant first (R3). -/
def toLe : Nat → Nat → List Byte
  | 0, _ => []
  | n + 1, v => BitVec.ofNat 8 v :: toLe n (v / 256)

/-- Bytes `off` to `off + n - 1` of a list; positions past its end read as zero. -/
def bytesAt (l : List Byte) (off n : Nat) : List Byte :=
  (List.range n).map fun i => (l.drop (off + i)).headD 0

/-- Little-endian field of `n` bytes at byte `off` of a structure. -/
def leAt (l : List Byte) (off n : Nat) : Nat := leNat (bytesAt l off n)

/-- Every byte of the field of `n` bytes at byte `off` is zero. -/
def zeroAt (l : List Byte) (off n : Nat) : Bool := leAt l off n == 0

/-- Big-endian value of a list of bytes (network headers, signatures: R3). -/
def beNat (l : List Byte) : Nat := leNat l.reverse

/-- The low `n` bytes of a number, most significant first. -/
def toBe (n v : Nat) : List Byte := (toLe n v).reverse

/-- The addresses of `n` bytes from `a`. -/
def addrsFrom (a n : Nat) : List Nat := (List.range n).map (a + ·)

/-- Saturating addition at `2 ^ w - 1`. -/
def satAdd (w a b : Nat) : Nat := min (a + b) (2 ^ w - 1)

/-- The number of members of a list of truth values that hold. -/
def countTrue (l : List Bool) : Nat := (l.filter id).length

/-- The numbers below `n` whose test holds, rising. -/
def below (n : Nat) (p : Nat → Bool) : List Nat := (List.range n).filter p

/-- The least number below `n` whose test holds. -/
def leastBelow (n : Nat) (p : Nat → Bool) : Option Nat := (List.range n).find? p

/-- Insert a number into a rising list. -/
def insertNat (x : Nat) : List Nat → List Nat
  | [] => [x]
  | y :: t => if x ≤ y then x :: y :: t else y :: insertNat x t

/-- The members of a list in rising order. -/
def sortNat : List Nat → List Nat
  | [] => []
  | x :: t => insertNat x (sortNat t)

/-- The sum of a list of numbers. -/
def sumNat : List Nat → Nat
  | [] => 0
  | x :: t => x + sumNat t

/-- `a / b` rounded up, for positive `b`. -/
def ceilDiv (a b : Nat) : Nat := (a + b - 1) / b

/-- A list with its element at a position replaced. -/
def setAt {α : Type} : List α → Nat → α → List α
  | [], _, _ => []
  | _ :: t, 0, v => v :: t
  | x :: t, n + 1, v => x :: setAt t n v

/-- One step of CRC-32C over a byte: eight shifts of the reflected polynomial 0x82F6_3B78. -/
def crc32cByte (crc : Nat) (b : Byte) : Nat :=
  (List.range 8).foldl
    (fun c _ => if c % 2 = 1 then Nat.xor (c / 2) 0x82F63B78 else c / 2) (Nat.xor crc b.toNat)

/-- CRC-32C of a list of bytes (R166). -/
def crc32c (l : List Byte) : Nat := Nat.xor (l.foldl crc32cByte 0xFFFFFFFF) 0xFFFFFFFF

/-- Multiplication by 2 in GF(2^8) with polynomial 0x11D (R358). -/
def gfDouble (a : Nat) : Nat := if a < 128 then 2 * a else Nat.xor (2 * a) 0x11D

/-- Multiplication in GF(2^8) with polynomial 0x11D. -/
def gfMul (a b : Nat) : Nat :=
  ((List.range 8).foldl
    (fun (p : Nat × Nat) i => (if bitOf b i then Nat.xor p.1 p.2 else p.1, gfDouble p.2)) (0, a % 256)).1

/-- The power 2^j in GF(2^8). -/
def gfPow2 : Nat → Nat
  | 0 => 1
  | j + 1 => gfDouble (gfPow2 j)

/-- The inverse of a nonzero element of GF(2^8). -/
def gfInv (a : Nat) : Nat := ((List.range 256).find? fun b => gfMul a b == 1).getD 0

/-- The sum of two blocks in GF(2^8), byte by byte; the shorter is padded with zeros. -/
def gfAdd : List Byte → List Byte → List Byte
  | [], l => l
  | l, [] => l
  | a :: s, b :: t => (a ^^^ b) :: gfAdd s t

/-- A block multiplied by an element of GF(2^8). -/
def gfScale (k : Nat) (l : List Byte) : List Byte := l.map fun b => BitVec.ofNat 8 (gfMul k b.toNat)

/-- Position of the highest set bit, for a positive number. -/
def log2 (n : Nat) : Nat := Nat.log2 n

end Sys2Proof.Machine
end

