-- ==== Sys2Proof/Machine/Tab.lean ====
section
/-! DEFINITION. Sparse tables in one canonical form: pairs of a key and a value, keys strictly rising, and no entry
equal to what an unlisted key reads as. Memory, the register space and every indexed table of the state are such tables. -/
namespace Sys2Proof.Machine

/-- A sparse table from numbers to values. -/
abbrev Tab (α : Type) := List (Nat × α)

/-- The entry of key `k`, if it is listed. -/
def Tab.find {α : Type} : Tab α → Nat → Option α
  | [], _ => none
  | (a, v) :: t, k => if a = k then some v else Tab.find t k

/-- What key `k` reads as: its entry, else the default `d k`. -/
def Tab.getD {α : Type} (d : Nat → α) (t : Tab α) (k : Nat) : α :=
  match Tab.find t k with
  | some v => v
  | none => d k

/-- Insert or replace the entry of key `k`. -/
def Tab.put {α : Type} : Tab α → Nat → α → Tab α
  | [], k, v => [(k, v)]
  | (a, w) :: t, k, v =>
    if k < a then (k, v) :: (a, w) :: t
    else if a = k then (k, v) :: t
    else (a, w) :: Tab.put t k v

/-- Remove the entry of key `k`. -/
def Tab.del {α : Type} : Tab α → Nat → Tab α
  | [], _ => []
  | (a, w) :: t, k => if a = k then Tab.del t k else (a, w) :: Tab.del t k

/-- Make key `k` read as `v`: the default removes the entry, so that equal tables are equal data. -/
def Tab.setD {α : Type} [DecidableEq α] (d : Nat → α) (t : Tab α) (k : Nat) (v : α) : Tab α :=
  if v = d k then Tab.del t k else Tab.put t k v

/-- Every listed key is above `b`, keys rise strictly, and no entry equals its default. -/
def Tab.above {α : Type} [DecidableEq α] (d : Nat → α) : Option Nat → Tab α → Bool
  | _, [] => true
  | b, (a, v) :: t =>
    (match b with
     | none => true
     | some x => decide (x < a)) && !decide (v = d a) && Tab.above d (some a) t

/-- The canonical form of a table. -/
def Tab.wf {α : Type} [DecidableEq α] (d : Nat → α) (t : Tab α) : Bool := Tab.above d none t

/-- A read of a table whose unlisted keys all read as `d`. -/
def Tab.get {α : Type} (d : α) (t : Tab α) (k : Nat) : α := Tab.getD (fun _ => d) t k

/-- A write of a table whose unlisted keys all read as `d`. -/
def Tab.set {α : Type} [DecidableEq α] (d : α) (t : Tab α) (k : Nat) (v : α) : Tab α :=
  Tab.setD (fun _ => d) t k v

end Sys2Proof.Machine
end

