-- ==== Sys2Proof/Machine/Types.lean ====
section
/-! DEFINITION. The kinds of data the state is made of: register fields, event records, outputs, and the state
of each block that no register shows. -/
namespace Sys2Proof.Machine

/-- The access codes of a register field (R6). -/
inductive Acc where
  | rw | ro | wo | w1c | w1s | rwl
  deriving DecidableEq, Repr

/-- A named register field: where it lies (register `i` is at `base + stride * i`, or, when `sub` is not zero, at
`base + stride2 * (i / sub) + stride * (i % sub)`), its bits, its access code and its reset value. -/
structure Fld where
  base : Nat
  stride : Nat
  sub : Nat
  stride2 : Nat
  lsb : Nat
  width : Nat
  acc : Acc
  reset : Nat
  deriving DecidableEq, Repr

/-- A register or an array of registers with its fields and the word it holds at power-on reset (R7). -/
structure Reg where
  name : String
  base : Nat
  stride : Nat
  count : Nat
  sub : Nat
  stride2 : Nat
  reset : Nat
  fields : List Fld
  deriving DecidableEq, Repr

/-- An event record (R273). The generation, bytes 8 to 9, is the instance's at the event. -/
structure EventRec where
  type : Nat
  source : Nat
  glade : Nat
  inst : Nat
  status : Nat
  gen : Nat
  time : Nat
  payload : Nat
  deriving DecidableEq, Repr

/-- A raised record with the rings it is due for (R275, R276). -/
structure Raised where
  event : EventRec
  due : List Nat
  deriving DecidableEq, Repr

/-- What the device sends to the outside: the block's visible outputs, in the order they were made. -/
inductive Output where
  /-- A write to host memory through a port, with a PASID if the access carries one, poisoned or not, with or without Relaxed Ordering
  (R265). -/
  | hostWrite (port : Nat) (pasid : Option Nat) (addr : Nat) (bytes : List Byte) (poisoned relaxed : Bool)
  /-- An MSI-X message of a port's function. -/
  | msix (port : Nat) (vector : Nat)
  /-- A non-posted read request to the host with its tag, with a PASID if the access carries one. -/
  | hostRead (port : Nat) (tag : Nat) (pasid : Option Nat) (addr : Nat) (len : Nat)
  /-- Completion data, or a completion status, for a request the host sent. -/
  | completion (port : Nat) (tag : Nat) (status : Nat) (bytes : List Byte) (poisoned : Bool)
  /-- Data or a status returned to a requester inside the device. -/
  | answer (status : Nat) (bytes : List Byte)
  /-- A frame on an Understory link. -/
  | ustFrame (link : Nat) (bytes : List Byte)
  /-- A packet handed to a data port. -/
  | packet (port : Nat) (device : Nat) (bytes : List Byte)
  /-- An Ethernet frame sent by a data port's own hardware (ARP, neighbour advertisement). -/
  | ethFrame (port : Nat) (bytes : List Byte)
  /-- A frame on a twin port. -/
  | twinFrame (port : Nat) (bytes : List Byte)
  /-- Data bits shifted out of the Trail port or the test access port. -/
  | serial (bytes : List Byte)
  /-- A message to another member of a growth-ring group, about the ring of a step. -/
  | member (group : Nat) (member : Nat) (step : Nat) (msg : CkpMsg)
  /-- Blocks written to a remote volume for a growth ring. -/
  | volume (volume : Nat) (lba : Nat) (bytes : List Byte)
  /-- Bytes written to the serial flash at an offset (R58). -/
  | flash (offset : Nat) (bytes : List Byte)
  deriving DecidableEq, Repr

/-- A memory access held while a row is copied to a spare row (R79): a read of `len` bytes, or a write. -/
structure HeldMem where
  addr : Nat
  len : Nat
  write : Option (List Byte)
  deriving DecidableEq, Repr

/-- A row being copied to a spare row (R79). `bank` is `8 * channel + bank`; `page` is the address of the row's page. -/
structure SpareJob where
  bank : Nat
  row : Nat
  spare : Nat
  page : Nat
  deriving DecidableEq, Repr

/-- A mirrored write waiting to be sent over the twin link (R88). -/
structure MirrorWrite where
  region : Nat
  addr : Nat
  bytes : List Byte
  deriving DecidableEq, Repr

/-- The state of the DRAM stacks and their channel controllers that no register shows. -/
structure Dram where
  /-- Codeword addresses that hold a poison marker (R76). -/
  poison : List Nat := []
  /-- Codeword addresses last read as uncorrectable and not yet written whole (R76). -/
  bad : List Nat := []
  /-- Per channel, the (symbol, bank, row) of errors that persisted in this scrub pass (R78). -/
  persist : Tab (List (Nat × Nat × Nat)) := []
  /-- Per bank, the (time, row) of uncorrectable reads within the last second (R80). -/
  ueRows : Tab (List (Nat × Nat)) := []
  /-- Rows being copied to spare rows (R79). -/
  sparing : List SpareJob := []
  /-- Rows redirected to spare rows: bank, row, spare row. -/
  spared : List (Nat × Nat × Nat) := []
  /-- Banks for which MEM_SPARES_EXHAUSTED has been raised (R79). -/
  exhausted : List Nat := []
  /-- Accesses held during a row copy, in order (R79, R91). -/
  held : List HeldMem := []
  /-- Banks found faulty and not yet fenced (R80). -/
  faulty : List Nat := []
  /-- Banks fenced and not retired, in the order in which they were fenced (R80, R82). -/
  fenced : List Nat := []
  /-- Quadrants whose crossbar has failed (R83). -/
  lostQuads : List Nat := []
  /-- Channels that have left service with their grove (R448). -/
  lostChans : List Nat := []
  /-- Regions still owed a MEM_REGION_DEGRADED event, with the quadrant lost, or 4 + k for channel pair k (R83, R448). -/
  degrade : List (Nat × Nat) := []
  /-- Local time at which the scrub pass in progress began (R77). -/
  scrubStart : Nat := 0
  /-- Writes to mirrored regions held while the queue is full (R88). -/
  mirrorHeld : List MirrorWrite := []
  /-- The region whose mirror fence is waiting, and the write sequence that must be applied at the twin (R89). -/
  fence : Option (Nat × Nat) := none
  /-- Regions being copied back to the twin (R90). -/
  resync : List Nat := []
  /-- Bytes of each such region that have been sent (R90). -/
  copied : Tab Nat := []
  /-- Regions whose VALID clears once no access past a check of these registrations is left (R210). -/
  clearing : Tab (List Nat) := []
  /-- Mirrored regions for which the twin has shown no matching MIRROR_TARGET region (R90). -/
  noTarget : List Nat := []
  /-- The next bank each channel refreshes (R84). -/
  refresh : Tab Nat := []
  deriving DecidableEq, Repr

/-- A non-posted request of a port (R264): its tag once issued, the operation it belongs to (queue identifier and ring
entry), and whether that operation has already ended, so that its data is dropped. -/
structure HostReq where
  tag : Nat
  addr : Nat
  len : Nat
  owner : Option (Nat × Nat)
  dropped : Bool
  pasid : Option Nat := none
  /-- Its timeout is not reported (R268). -/
  silent : Bool := false
  /-- It was outstanding when its port was reset, and OUTSTANDING, which took its reset value then, no longer counts it (R66). -/
  old : Bool := false
  deriving DecidableEq, Repr

/-- The state of one host port's function that no register of the HEP block shows. -/
structure HostPort where
  /-- The port is held in fundamental reset. -/
  inReset : Bool := true
  /-- The link is trained or training is allowed (R48, R54). -/
  training : Bool := false
  /-- Configuration requests are answered with retry status (R48, R269). -/
  retry : Bool := true
  /-- The function is in D3hot (R261). -/
  d3hot : Bool := false
  /-- The host's PASID Enable. -/
  pasidEn : Bool := false
  /-- MSI-X Enable. -/
  msixEn : Bool := false
  /-- MSI-X Function Mask. -/
  msixMask : Bool := false
  /-- MSI-X vectors whose mask bit is clear; every vector is masked after a reset (R269). -/
  unmasked : List Nat := []
  /-- The MSI-X table: address and data of each vector. -/
  table : Tab (Nat × Nat) := []
  /-- MSI-X pending bits. -/
  pba : List Nat := []
  /-- Max_Read_Request_Size in bytes. -/
  mrrs : Nat := 512
  /-- Max_Payload_Size in bytes: at reset the value that PCIe 6.0 gives, 128 (log entry 26). -/
  mps : Nat := 128
  /-- The host's Enable Relaxed Ordering. -/
  relaxed : Bool := true
  /-- ECRC checking is enabled. -/
  ecrcCheck : Bool := false
  /-- BAR4 is `2 ^ bar4Log2` GiB (R261). -/
  bar4Log2 : Nat := 0
  /-- BAR4_LOG2 of the image: the size at reset (R259). -/
  bar4Reset : Nat := 0
  /-- BAR4 is present (not in NO_IMAGE, R54). -/
  bar4On : Bool := false
  /-- MAX_WIDTH of the image. -/
  maxWidth : Nat := 16
  /-- MAX_SPEED of the image. -/
  maxSpeed : Nat := 6
  /-- CLOCKING bit 0 of the image: SRIS. -/
  sris : Bool := false
  /-- Subsystem vendor ID and subsystem ID of the image. -/
  ssvid : Nat := 0
  ssid : Nat := 0
  /-- AER: errors logged and not cleared. -/
  aer : List AerErr := []
  /-- AER: the header log of 4 DW and the TLP prefix log of 4 DW, of the first uncorrectable error logged (R261). The commands do not
  bring the header of the TLP in error, so its bytes are free (log entry 26, safe). -/
  hdrLog : List Byte := []
  /-- AER: uncorrectable errors whose severity is fatal (R271). -/
  fatal : List AerErr := [.dataLinkProtocol, .malformedTlp, .flowControl, .uncorrectableInternal]
  /-- Requests issued and not yet answered (R264). -/
  outstanding : List HostReq := []
  /-- Tags in quarantine, oldest first (R266). -/
  quarantine : List Nat := []
  /-- The lowest tag that has never been used. -/
  nextTag : Nat := 0
  /-- Tags used before and free now, the longest free first (R264). -/
  freed : List Nat := []
  /-- Requests waiting for a tag or for room under the limit, oldest first (R264). -/
  waiting : List HostReq := []
  /-- Completions discarded since the last HEP_UNEXPECTED_CPL (R277). -/
  discards : Nat := 0
  deriving DecidableEq, Repr

/-- The states of a queue (R121). -/
inductive QState where
  | disabled | active | halted | resetting
  deriving DecidableEq, Repr

/-- A command fetched from a queue's ring and not yet completed: its bytes, the ring entry it came from, the generation
it is stamped with (R288), whether it has started, and whether it waits on its PREWAIT (R143). -/
structure Cmd where
  bytes : List Byte
  entry : Nat
  stamp : Nat
  started : Bool
  waiting : Bool
  deriving DecidableEq, Repr

/-- Who is told of a SEND once its receive entry is written (R199): a peer's operation, with the glade of the receive queue, or
a command of this device. -/
inductive Tell where
  | peer (device msg status glade : Nat)
  | cmd (qid entry status result : Nat)
  deriving DecidableEq, Repr

/-- A completion that is due (R120, R145, R201): bytes 0 to 3, the status, bytes 8 to 11, the stamp, the ring entry, the
interrupt flag, the sync counter to post once the entry is written (R143), and who is told then (R199). -/
structure Done where
  word0 : Nat
  status : Nat
  mid : Nat
  stamp : Nat
  entry : Nat
  intr : Bool
  post : Option Nat
  tell : Option Tell := none
  deriving DecidableEq, Repr

/-- A queue. For a tile queue and for the set-up queue the fields down to `last` live in the registers of the TILE and
GLD blocks, and a stored record holds only `wpos`, `cmds`, `due` and `abort`. -/
structure Queue where
  valid : Bool := false
  inst : Nat := 0
  host : Bool := false
  log2 : Nat := 4
  prio : Nat := 0
  vector : Nat := 0
  base : Nat := 0
  cbase : Nat := 0
  /-- Decode slice, or the cluster of a storage or checkpoint queue. -/
  home : Nat := 0
  /-- Transport: a receive queue. Storage: an admin queue. -/
  kind : Bool := false
  /-- Transport: the protection domain. -/
  pd : Nat := 0
  head : Nat := 0
  tail : Nat := 0
  state : QState := .disabled
  phase : Bool := true
  count : Nat := 0
  refused : Bool := false
  last : Nat := 0
  /-- The next entry of the completion ring. -/
  wpos : Nat := 0
  cmds : List Cmd := []
  due : List Done := []
  /-- The status with which the reset in progress, or the loss of the queue's unit, completes its commands. -/
  abort : Nat := 0
  /-- The tail when the reset in progress began: a doorbell after it is discarded by the reset (R136). -/
  resetTail : Nat := 0
  deriving DecidableEq, Repr

/-- A capture item of a growth ring (R351), whether it has been captured, and its DONE_CTR at the trigger (R355). -/
structure CkpItem where
  kind : Nat
  port : Nat
  usePasid : Bool
  doneEn : Bool
  doneCtr : Nat
  id : Nat
  addr : Nat
  len : Nat
  pasid : Nat
  captured : Bool
  atTrigger : Nat
  deriving DecidableEq, Repr

/-- A hash of a captured granule (R357). -/
structure CkpHash where
  member : Nat
  item : Nat
  granule : Nat
  hash : List Byte
  deriving DecidableEq, Repr

/-- A drain of a ring (R360): the queue and ring entry of the DRAIN, the volume, the first block of the area and its length
in blocks. -/
structure CkpDrain where
  qid : Nat
  entry : Nat
  volume : Nat
  area : Nat
  ablks : Nat
  /-- The root has been sent to the service of a remote volume, whose answer is awaited (R363). -/
  rooted : Bool := false
  deriving DecidableEq, Repr

/-- A granule's reference (R357, R362): its item and granule, the owner, shard index and stripe of its winner. -/
structure CkpRef where
  item : Nat
  granule : Nat
  owner : Nat
  shard : Nat
  stripe : Nat
  deriving DecidableEq, Repr

/-- One of the two rings of a ring group (R356, R359). The state, the step and the uncopied count are in CKP_RING_A and
CKP_RING_STEP. -/
structure CkpRing where
  /-- Checkpoint queue identifier and ring entry of the CAPTURE in progress. -/
  capture : Option (Nat × Nat) := none
  items : List CkpItem := []
  stepCtr : Nat := 0
  trigCtr : Nat := 0
  cmax : Nat := 0
  /-- PERIOD_MS and LEAD of a timer that is running on member 0 (R352). -/
  timer : Option (Nat × Nat) := none
  /-- The ring's step is known on this member. -/
  stepKnown : Bool := false
  /-- Uncopied granules of kind 1 items in ascending address order: item and granule (R353, R354). -/
  todo : List (Nat × Nat) := []
  /-- Reads of kind 2 items not yet answered: item, offset, length (R355). -/
  pull : List (Nat × Nat × Nat) := []
  /-- The 64 KiB block of the reserve's ring space at which this ring begins, and the blocks of its captures. -/
  base : Nat := 0
  caps : Nat := 0
  /-- Hashes of this member's granules, and hashes of all members that this member owns (R357). -/
  hashes : List CkpHash := []
  seen : List CkpHash := []
  /-- This member has sent its hashes to their owners. -/
  hashed : Bool := false
  /-- Deduplication has ended on this member. -/
  deduped : Bool := false
  refs : List CkpRef := []
  /-- The winners this member owns, in order: member, item, granule; and those whose bytes have come, by position. -/
  owned : List (Nat × Nat × Nat) := []
  got : Tab (List Byte) := []
  /-- Hashes of the shards of the stripes this member owns, by stripe. -/
  shardHash : Tab (List (List Byte)) := []
  /-- Stripe counts by owner. -/
  counts : Tab Nat := []
  /-- Shards this member holds, in the order of their blocks after the captures: owner and stripe. -/
  shards : List (Nat × Nat) := []
  /-- Members known to have captured every item. -/
  captured : List Nat := []
  /-- Members whose shards are all in place. -/
  placed : List Nat := []
  /-- Members whose region is durable during a drain, and members that are absent. -/
  durable : List Nat := []
  absent : List Nat := []
  /-- Manifest parts of members, with their stripe counts. -/
  parts : Tab (Nat × List Byte) := []
  drain : Option CkpDrain := none
  deriving DecidableEq, Repr

/-- A mirror or resync write sent to the twin and not yet acknowledged (R377): its write sequence number, frame type,
source region, twin address and data. -/
structure TwinWrite where
  seq : Nat
  type : Nat
  region : Nat
  addr : Nat
  bytes : List Byte
  deriving DecidableEq, Repr

/-- The twin pair's state that no register shows (R377 to R385). -/
structure Twin where
  /-- COUNT of the next frame sent under the epoch. -/
  count : Nat := 0
  /-- Write sequence number of the next mirror or resync write. -/
  nextSeq : Nat := 1
  unacked : List TwinWrite := []
  /-- Sequence number of the last write of the twin's stream applied in order. -/
  applied : Nat := 0
  /-- Writes applied since the last MIRROR_ACK. -/
  toAck : Nat := 0
  /-- Local time of the last PROBE answer or advancing packet from the twin (R380). -/
  lastAnswer : Option Nat := none
  /-- A probe has been sent and not answered. -/
  probeOut : Bool := false
  /-- Witness grants won and lost in this attempt (R382). -/
  won : List Nat := []
  lost : List Nat := []
  /-- A majority has been won and the 1 ms wait runs (R383). -/
  waiting : Bool := false
  /-- Writes to MIRROR regions held in SUSPECT (R384). -/
  held : List (Nat × List Byte) := []
  deriving DecidableEq, Repr

/-- A key command in progress (R331), as SEC_KEY_CMD and SEC_KEY_DATA gave it at START. -/
structure KeyOp where
  op : Nat
  type : Nat
  glade : Nat
  slot : Nat
  kek : Nat
  data : List Byte
  deriving DecidableEq, Repr

/-- A write of START held while an activation pauses the firmware (R421): a key command with its fields, an attestation, an
offload command, or a service command. -/
inductive HeldStart where
  | key (op type glade slot kek : Nat)
  | att (glade : Nat)
  | ofl (op slot : Nat)
  | svc (op unit : Nat) (force : Bool)
  deriving DecidableEq, Repr

/-- An operation of the seal engine in progress: MODE, slot, MORE, REPLAY, and the message bytes MACed so far, the counter
bytes first (R337, R338). For LOADKEY the bytes are the key. -/
structure SealOp where
  mode : Nat
  slot : Nat
  more : Bool
  replay : Bool
  bytes : List Byte
  deriving DecidableEq, Repr

/-- The security block's state that no register shows. -/
structure Sec where
  /-- Key values by slot (R330). -/
  keys : Tab (List Byte) := []
  /-- The key command in progress. -/
  keyOp : Option KeyOp := none
  /-- The identity helper data as it was read (R56). -/
  helper : List Byte := []
  /-- Owner keys with their usage bytes (R321). -/
  owners : List (List Byte × Nat) := []
  /-- The attestation report in progress: its glade and its nonce (R327). -/
  att : Option (Nat × List Byte) := none
  /-- Glades debugged since their creation (R328, R340). -/
  debugged : List Nat := []
  /-- Keys of seal slots 1 to 15 (R335). -/
  sealKeys : Tab (List Byte) := []
  /-- The words of the seal message buffer (R337). -/
  sealMsg : Tab Nat := []
  /-- The seal lock is held by the management complex (R341). -/
  sealMgmt : Bool := false
  /-- The operation in progress. -/
  sealOp : Option SealOp := none
  /-- A message of which more chunks follow: the MAC so far (R337). -/
  sealRun : Option SealOp := none
  /-- A debug response being checked: the challenge and the response (R339). -/
  debugOp : Option (List Byte × List Byte) := none
  /-- Failed debug responses in a row (R339). -/
  failures : Nat := 0
  /-- Writes of START held until an activation has ended, oldest first (R421). -/
  heldStarts : List HeldStart := []
  deriving DecidableEq, Repr

/-- What an event ring keeps besides its registers (R275, R276): records dropped and not yet reported, the local time of
the last message, and whether a message waits for the holdoff. -/
structure EvrRing where
  owed : Nat := 0
  lastMsg : Option Nat := none
  held : Bool := false
  deriving DecidableEq, Repr

/-- A weight block in a tile's weight register (R128). -/
structure WBlock where
  fmt : Nat
  sparse : Bool
  vals : List Byte
  scales : List Byte
  metas : List Byte
  deriving DecidableEq, Repr

/-- A stream in flight in a slot (R130): a STREAM from an internal address to the scratchpad, or a STOUT, whose bytes were
taken from the scratchpad in program order. -/
structure Flight where
  out : Bool
  zeroMask : Bool
  addr : Nat
  spad : Nat
  len : Nat
  data : List Byte
  /-- Its place in the order of issue (R131). -/
  order : Nat := 0
  deriving DecidableEq, Repr

/-- A stream slot: what is in flight, and the status of a finished stream that the program has not yet seen (R131). -/
structure Slot where
  flight : Option Flight := none
  err : Nat := 0
  deriving DecidableEq, Repr

/-- A decode item of an ATTEND command (R154), given to a tile between its commands. -/
structure Item where
  qid : Nat
  head : Nat
  page : Nat
  prio : Nat
  deriving DecidableEq, Repr

/-- A candidate tree (R155): the parent of each node and its token. -/
structure Tree where
  parents : List Nat
  tokens : List Nat
  deriving DecidableEq, Repr

/-- A stream context (R148, R149). A closed context keeps its handle generation. -/
structure Stream where
  valid : Bool := false
  gen : Nat := 0
  inst : Nat := 0
  glade : Nat := 0
  slice : Nat := 0
  kvFmt : Nat := 0
  qFmt : Nat := 0
  dprio : Nat := 0
  layers : Nat := 0
  heads : Nat := 0
  group : Nat := 0
  dim : Nat := 0
  maxLen : Nat := 0
  len : Nat := 0
  scale : Nat := 0
  table : Nat := 0
  seed : Nat := 0
  window : Nat := 0
  tree : Option Tree := none
  /-- Tokens of the last FULL or MERGE SAMPLE since the tree was set (R156). -/
  samples : Option (List Nat) := none
  /-- The queue whose command runs on the stream (R142). -/
  busy : Option Nat := none
  deriving DecidableEq, Repr

/-- The merged result of one query position and head (R153): m and l, none before the first page, and the sums. -/
structure Merge where
  m : Nat
  l : Nat
  acc : List Nat
  deriving DecidableEq, Repr

/-- An ATTEND command in progress (R152 to R154): the items not yet done, and the merged results, one for each query
position and query head in the order of Q. -/
structure Attend where
  ctx : Nat := 0
  layer : Nat := 0
  count : Nat := 0
  tree : Bool := false
  fmt : Nat := 0
  q : Nat := 0
  out : Nat := 0
  mask : Nat := 0
  left : Nat := 0
  parts : List (Option Merge) := []
  deriving DecidableEq, Repr

/-- The program state of a matrix tile and its memories (R94, R122). -/
structure Tile where
  pc : Nat := 0
  /-- Scalar registers S1 to S15. -/
  sregs : Tab Nat := []
  /-- Accumulator words: entry `i` of row `r` of buffer `b` at `1024 b + 32 r + i`. -/
  acc : Tab (BitVec 32) := []
  /-- Classes of the accumulator rows, row `r` of buffer `b` at `32 b + r`: 0 none, 1 integer, 2 FP32 (R102). -/
  cls : Tab Nat := []
  /-- Program memory: 128-bit instructions by PC. -/
  prog : Tab (BitVec 128) := []
  wreg : Option WBlock := none
  slots : Tab Slot := []
  /-- The queue whose RUN command is running. -/
  run : Option Nat := none
  /-- The source the sequencer picked last at each priority (R118). -/
  lastQueue : Tab Nat := []
  /-- Streams issued by the running command so far (R131). -/
  issued : Nat := 0
  /-- Decode items given to the tile and not yet done (R153, R154). -/
  items : List Item := []
  /-- TILE_LOST has been raised for the tile (R138). -/
  lostRaised : Bool := false
  deriving DecidableEq, Repr

/-- What a waiter waits on (R171, R172). -/
inductive WaitOn where
  | counter (c : Nat)
  | count (qid : Nat)
  deriving DecidableEq, Repr

/-- Who waits: a queue at its waiting command, a tile sequencer, a worker core. -/
inductive Waiter where
  | queue (qid : Nat)
  | tile (n : Nat)
  | core (k : Nat)
  deriving DecidableEq, Repr

/-- A pending wait (R171). -/
structure Wait where
  who : Waiter
  on : WaitOn
  target : Nat
  deriving DecidableEq, Repr

end Sys2Proof.Machine
end

