-- ==== Sys2Proof/Machine/RegMap.lean ====
section
/-! DEFINITION. The register map: one `Fld` for every named field of every register table of the spec, and `regTable`,
the registers of each block with their fields, their access codes (R6) and their reset words (R7). -/
namespace Sys2Proof.Machine

/-- `GLB_IDENT.PART`, spec/01_architecture.md. -/
def GLB_IDENT.PART : Fld := ⟨0x0000000, 0, 0, 0, 0, 16, .ro, 0x4160⟩
/-- `GLB_IDENT.FAMILY`, spec/01_architecture.md. -/
def GLB_IDENT.FAMILY : Fld := ⟨0x0000000, 0, 0, 0, 16, 8, .ro, 9⟩
/-- `GLB_IDENT.STEPPING`, spec/01_architecture.md. -/
def GLB_IDENT.STEPPING : Fld := ⟨0x0000000, 0, 0, 0, 24, 8, .ro, 0xA1⟩
/-- `GLB_UNITS.TILES_IN_SERVICE`, spec/01_architecture.md: reset from Lyras image; 0x40 when no tile is out of service. -/
def GLB_UNITS.TILES_IN_SERVICE : Fld := ⟨0x0000008, 0, 0, 0, 0, 7, .ro, 0⟩
/-- `GLB_UNITS.TILE_SPARES_FREE`, spec/01_architecture.md: reset from Lyras image. -/
def GLB_UNITS.TILE_SPARES_FREE : Fld := ⟨0x0000008, 0, 0, 0, 7, 3, .ro, 0⟩
/-- `GLB_UNITS.CORES_IN_SERVICE`, spec/01_architecture.md: reset from Lyras image; 0x100 when none is out of service. -/
def GLB_UNITS.CORES_IN_SERVICE : Fld := ⟨0x0000008, 0, 0, 0, 10, 9, .ro, 0⟩
/-- `GLB_UNITS.CORE_SPARES_FREE`, spec/01_architecture.md: reset from Lyras image. -/
def GLB_UNITS.CORE_SPARES_FREE : Fld := ⟨0x0000008, 0, 0, 0, 19, 5, .ro, 0⟩
/-- `GLB_UNITS.CHANNELS_IN_SERVICE`, spec/01_architecture.md: reset from Lyras image; 0x40 when none is out of service. -/
def GLB_UNITS.CHANNELS_IN_SERVICE : Fld := ⟨0x0000008, 0, 0, 0, 24, 7, .ro, 0⟩
/-- `GLB_UNITS.LANE_SPARES_FREE`, spec/01_architecture.md: reset from Lyras image. -/
def GLB_UNITS.LANE_SPARES_FREE : Fld := ⟨0x0000008, 0, 0, 0, 32, 3, .ro, 0⟩
/-- `GLB_TILE_MAP.REPLACES`, spec/01_architecture.md: reset from Lyras image. -/
def GLB_TILE_MAP.REPLACES : Fld := ⟨0x0000040, 8, 0, 0, 0, 6, .ro, 0⟩
/-- `GLB_TILE_MAP.IN_USE`, spec/01_architecture.md: reset from Lyras image. -/
def GLB_TILE_MAP.IN_USE : Fld := ⟨0x0000040, 8, 0, 0, 8, 1, .ro, 0⟩
/-- `GLB_TILE_MAP.SPARE_FAULTY`, spec/01_architecture.md: reset from Lyras image. -/
def GLB_TILE_MAP.SPARE_FAULTY : Fld := ⟨0x0000040, 8, 0, 0, 9, 1, .ro, 0⟩
/-- `GLB_TILE_MAP.OUT_OF_SERVICE`, spec/01_architecture.md: reset from Lyras image. -/
def GLB_TILE_MAP.OUT_OF_SERVICE : Fld := ⟨0x0000040, 8, 0, 0, 16, 16, .ro, 0⟩
/-- `GLB_CORE_MAP.REPLACES`, spec/01_architecture.md: reset from Lyras image. -/
def GLB_CORE_MAP.REPLACES : Fld := ⟨0x0000080, 8, 0, 0, 0, 4, .ro, 0⟩
/-- `GLB_CORE_MAP.IN_USE`, spec/01_architecture.md: reset from Lyras image. -/
def GLB_CORE_MAP.IN_USE : Fld := ⟨0x0000080, 8, 0, 0, 8, 1, .ro, 0⟩
/-- `GLB_CORE_MAP.SPARE_FAULTY`, spec/01_architecture.md: reset from Lyras image. -/
def GLB_CORE_MAP.SPARE_FAULTY : Fld := ⟨0x0000080, 8, 0, 0, 9, 1, .ro, 0⟩
/-- `GLB_CORE_MAP.OUT_OF_SERVICE`, spec/01_architecture.md: reset from Lyras image. -/
def GLB_CORE_MAP.OUT_OF_SERVICE : Fld := ⟨0x0000080, 8, 0, 0, 16, 16, .ro, 0⟩
/-- `GLB_REG_ERR.MISALIGNED`, spec/01_architecture.md. -/
def GLB_REG_ERR.MISALIGNED : Fld := ⟨0x0000100, 0, 0, 0, 0, 1, .w1c, 0⟩
/-- `GLB_REG_ERR.BAD_SIZE`, spec/01_architecture.md. -/
def GLB_REG_ERR.BAD_SIZE : Fld := ⟨0x0000100, 0, 0, 0, 1, 1, .w1c, 0⟩
/-- `GLB_REG_ERR.UNMAPPED`, spec/01_architecture.md. -/
def GLB_REG_ERR.UNMAPPED : Fld := ⟨0x0000100, 0, 0, 0, 2, 1, .w1c, 0⟩
/-- `GLB_REG_ERR.OUT_OF_SVC`, spec/01_architecture.md. -/
def GLB_REG_ERR.OUT_OF_SVC : Fld := ⟨0x0000100, 0, 0, 0, 3, 1, .w1c, 0⟩
/-- `GLB_REG_ERR.FIRST_OFFSET`, spec/01_architecture.md. -/
def GLB_REG_ERR.FIRST_OFFSET : Fld := ⟨0x0000100, 0, 0, 0, 8, 26, .ro, 0⟩
/-- `BOOT_STATE.STATE`, spec/03_bringup_configuration.md. -/
def BOOT_STATE.STATE : Fld := ⟨0x0100000, 0, 0, 0, 0, 4, .ro, 0⟩
/-- `BOOT_STATE.OPTICAL_DONE`, spec/03_bringup_configuration.md. -/
def BOOT_STATE.OPTICAL_DONE : Fld := ⟨0x0100000, 0, 0, 0, 16, 1, .ro, 0⟩
/-- `BOOT_STATE.UNDERSTORY_DONE`, spec/03_bringup_configuration.md. -/
def BOOT_STATE.UNDERSTORY_DONE : Fld := ⟨0x0100000, 0, 0, 0, 17, 1, .ro, 0⟩
/-- `BOOT_STATUS.IMAGE_A_VALID`, spec/03_bringup_configuration.md. -/
def BOOT_STATUS.IMAGE_A_VALID : Fld := ⟨0x0100008, 0, 0, 0, 0, 1, .ro, 0⟩
/-- `BOOT_STATUS.IMAGE_B_VALID`, spec/03_bringup_configuration.md. -/
def BOOT_STATUS.IMAGE_B_VALID : Fld := ⟨0x0100008, 0, 0, 0, 1, 1, .ro, 0⟩
/-- `BOOT_STATUS.NO_IMAGE`, spec/03_bringup_configuration.md. -/
def BOOT_STATUS.NO_IMAGE : Fld := ⟨0x0100008, 0, 0, 0, 2, 1, .ro, 0⟩
/-- `BOOT_STATUS.IDENTITY_FAIL`, spec/03_bringup_configuration.md. -/
def BOOT_STATUS.IDENTITY_FAIL : Fld := ⟨0x0100008, 0, 0, 0, 3, 1, .ro, 0⟩
/-- `BOOT_STATUS.REPAIR_LOG_INVALID`, spec/03_bringup_configuration.md. -/
def BOOT_STATUS.REPAIR_LOG_INVALID : Fld := ⟨0x0100008, 0, 0, 0, 4, 1, .ro, 0⟩
/-- `BOOT_STATUS.REPAIR_LOG_FULL`, spec/03_bringup_configuration.md. -/
def BOOT_STATUS.REPAIR_LOG_FULL : Fld := ⟨0x0100008, 0, 0, 0, 5, 1, .ro, 0⟩
/-- `BOOT_STATUS.WRITEBACK_DONE`, spec/03_bringup_configuration.md. -/
def BOOT_STATUS.WRITEBACK_DONE : Fld := ⟨0x0100008, 0, 0, 0, 6, 1, .w1c, 0⟩
/-- `BOOT_STATUS.WRITEBACK_FAIL`, spec/03_bringup_configuration.md. -/
def BOOT_STATUS.WRITEBACK_FAIL : Fld := ⟨0x0100008, 0, 0, 0, 7, 1, .w1c, 0⟩
/-- `BOOT_STATUS.MARCH_FAULTS`, spec/03_bringup_configuration.md. -/
def BOOT_STATUS.MARCH_FAULTS : Fld := ⟨0x0100008, 0, 0, 0, 8, 1, .ro, 0⟩
/-- `BOOT_STATUS.WRITEBACK_PENDING`, spec/03_bringup_configuration.md. -/
def BOOT_STATUS.WRITEBACK_PENDING : Fld := ⟨0x0100008, 0, 0, 0, 9, 1, .ro, 0⟩
/-- `BOOT_IMAGE.SELECTED`, spec/03_bringup_configuration.md. -/
def BOOT_IMAGE.SELECTED : Fld := ⟨0x0100010, 0, 0, 0, 0, 1, .ro, 0⟩
/-- `BOOT_IMAGE.SECTIONS`, spec/03_bringup_configuration.md. -/
def BOOT_IMAGE.SECTIONS : Fld := ⟨0x0100010, 0, 0, 0, 8, 8, .ro, 0⟩
/-- `BOOT_IMAGE.GENERATION`, spec/03_bringup_configuration.md. -/
def BOOT_IMAGE.GENERATION : Fld := ⟨0x0100010, 0, 0, 0, 32, 32, .ro, 0⟩
/-- `BOOT_RESET_CAUSE.CAUSE`, spec/03_bringup_configuration.md. -/
def BOOT_RESET_CAUSE.CAUSE : Fld := ⟨0x0100018, 0, 0, 0, 0, 4, .ro, 0⟩
/-- `BOOT_RESET_CAUSE.RAIL`, spec/03_bringup_configuration.md. -/
def BOOT_RESET_CAUSE.RAIL : Fld := ⟨0x0100018, 0, 0, 0, 4, 3, .ro, 0⟩
/-- `BOOT_RESET_CAUSE.PREV_TRIP`, spec/03_bringup_configuration.md. -/
def BOOT_RESET_CAUSE.PREV_TRIP : Fld := ⟨0x0100018, 0, 0, 0, 7, 1, .w1c, 0⟩
/-- `BOOT_RESET_CAUSE.WARM_COUNT`, spec/03_bringup_configuration.md. -/
def BOOT_RESET_CAUSE.WARM_COUNT : Fld := ⟨0x0100018, 0, 0, 0, 16, 16, .ro, 0⟩
/-- `BOOT_CTRL.WARM_RESET`, spec/03_bringup_configuration.md. -/
def BOOT_CTRL.WARM_RESET : Fld := ⟨0x0100020, 0, 0, 0, 0, 1, .wo, 0⟩
/-- `BOOT_CTRL.WRITEBACK`, spec/03_bringup_configuration.md. -/
def BOOT_CTRL.WRITEBACK : Fld := ⟨0x0100020, 0, 0, 0, 1, 1, .wo, 0⟩
/-- `BOOT_CTRL.KEY`, spec/03_bringup_configuration.md. -/
def BOOT_CTRL.KEY : Fld := ⟨0x0100020, 0, 0, 0, 8, 8, .wo, 0⟩
/-- `BOOT_FW_BASE.ADDR`, spec/03_bringup_configuration.md. -/
def BOOT_FW_BASE.ADDR : Fld := ⟨0x0100028, 0, 0, 0, 12, 52, .rw, 0⟩
/-- `BOOT_FW_LEN.LEN`, spec/03_bringup_configuration.md. -/
def BOOT_FW_LEN.LEN : Fld := ⟨0x0100030, 0, 0, 0, 0, 27, .rw, 0⟩
/-- `BOOT_FW_CMD.CMD`, spec/03_bringup_configuration.md. -/
def BOOT_FW_CMD.CMD : Fld := ⟨0x0100038, 0, 0, 0, 0, 2, .wo, 0⟩
/-- `BOOT_FW_CMD.STATUS`, spec/03_bringup_configuration.md. -/
def BOOT_FW_CMD.STATUS : Fld := ⟨0x0100038, 0, 0, 0, 8, 8, .ro, 0⟩
/-- `BOOT_FW_CMD.BUSY`, spec/03_bringup_configuration.md. -/
def BOOT_FW_CMD.BUSY : Fld := ⟨0x0100038, 0, 0, 0, 16, 1, .ro, 0⟩
/-- `BOOT_FEAT_DEV.FEATURES`, spec/03_bringup_configuration.md. -/
def BOOT_FEAT_DEV.FEATURES : Fld := ⟨0x0100040, 8, 0, 0, 0, 64, .ro, 0⟩
/-- `BOOT_FEAT_DRV.FEATURES`, spec/03_bringup_configuration.md. -/
def BOOT_FEAT_DRV.FEATURES : Fld := ⟨0x0100050, 8, 0, 0, 0, 64, .rw, 0⟩
/-- `BOOT_FEAT_AGREED.FEATURES`, spec/03_bringup_configuration.md. -/
def BOOT_FEAT_AGREED.FEATURES : Fld := ⟨0x0100060, 8, 0, 0, 0, 64, .ro, 0⟩
/-- `BOOT_IFVER.DEV_MAJOR`, spec/03_bringup_configuration.md. -/
def BOOT_IFVER.DEV_MAJOR : Fld := ⟨0x0100070, 0, 0, 0, 0, 16, .ro, 0⟩
/-- `BOOT_IFVER.DEV_MINOR`, spec/03_bringup_configuration.md. -/
def BOOT_IFVER.DEV_MINOR : Fld := ⟨0x0100070, 0, 0, 0, 16, 16, .ro, 0⟩
/-- `BOOT_IFVER.DRV_MAJOR`, spec/03_bringup_configuration.md. -/
def BOOT_IFVER.DRV_MAJOR : Fld := ⟨0x0100070, 0, 0, 0, 32, 16, .rw, 0⟩
/-- `BOOT_IFVER.DRV_MINOR`, spec/03_bringup_configuration.md. -/
def BOOT_IFVER.DRV_MINOR : Fld := ⟨0x0100070, 0, 0, 0, 48, 16, .rw, 0⟩
/-- `BOOT_MARCH.UNIT`, spec/03_bringup_configuration.md. -/
def BOOT_MARCH.UNIT : Fld := ⟨0x0100078, 0, 0, 0, 0, 16, .rw, 0⟩
/-- `BOOT_MARCH.MODE`, spec/03_bringup_configuration.md. -/
def BOOT_MARCH.MODE : Fld := ⟨0x0100078, 0, 0, 0, 16, 2, .rw, 1⟩
/-- `BOOT_MARCH.START`, spec/03_bringup_configuration.md. -/
def BOOT_MARCH.START : Fld := ⟨0x0100078, 0, 0, 0, 18, 1, .wo, 0⟩
/-- `BOOT_MARCH.BUSY`, spec/03_bringup_configuration.md. -/
def BOOT_MARCH.BUSY : Fld := ⟨0x0100078, 0, 0, 0, 19, 1, .ro, 0⟩
/-- `BOOT_MARCH.RESULT`, spec/03_bringup_configuration.md. -/
def BOOT_MARCH.RESULT : Fld := ⟨0x0100078, 0, 0, 0, 20, 4, .ro, 0⟩
/-- `BOOT_MARCH.FAULTS`, spec/03_bringup_configuration.md. -/
def BOOT_MARCH.FAULTS : Fld := ⟨0x0100078, 0, 0, 0, 24, 16, .ro, 0⟩
/-- `CLK_CFG.HOLD`, spec/21_groves_crossings.md: reset from Lyras image. -/
def CLK_CFG.HOLD : Fld := ⟨0x0200000, 0, 0, 0, 0, 4, .rwl, 0⟩
/-- `CLK_LOCK.LOCKED`, spec/21_groves_crossings.md: reset from Lyras image. -/
def CLK_LOCK.LOCKED : Fld := ⟨0x0200008, 0, 0, 0, 0, 1, .w1s, 0⟩
/-- `CLK_XERR.TIMEOUT`, spec/21_groves_crossings.md. -/
def CLK_XERR.TIMEOUT : Fld := ⟨0x0200010, 0, 0, 0, 0, 1, .w1c, 0⟩
/-- `CLK_XERR.HOLD_LONG`, spec/21_groves_crossings.md. -/
def CLK_XERR.HOLD_LONG : Fld := ⟨0x0200010, 0, 0, 0, 1, 1, .w1c, 0⟩
/-- `CLK_XERR.FIRST_CLASS`, spec/21_groves_crossings.md. -/
def CLK_XERR.FIRST_CLASS : Fld := ⟨0x0200010, 0, 0, 0, 2, 2, .ro, 0⟩
/-- `CLK_XERR.FIRST_GROVE`, spec/21_groves_crossings.md. -/
def CLK_XERR.FIRST_GROVE : Fld := ⟨0x0200010, 0, 0, 0, 4, 7, .ro, 0⟩
/-- `CLK_XERR.FIRST_NEAR`, spec/21_groves_crossings.md. -/
def CLK_XERR.FIRST_NEAR : Fld := ⟨0x0200010, 0, 0, 0, 11, 7, .ro, 0⟩
/-- `CLK_GROVE.STATE`, spec/21_groves_crossings.md. -/
def CLK_GROVE.STATE : Fld := ⟨0x0200100, 8, 0, 0, 0, 2, .ro, 0⟩
/-- `CLK_GROVE.HOLDING`, spec/21_groves_crossings.md. -/
def CLK_GROVE.HOLDING : Fld := ⟨0x0200100, 8, 0, 0, 2, 1, .ro, 0⟩
/-- `CLK_XTO_CNT.COUNT`, spec/21_groves_crossings.md. -/
def CLK_XTO_CNT.COUNT : Fld := ⟨0x0201000, 8, 0, 0, 0, 64, .ro, 0⟩
/-- `CLK_MERGE_CNT.COUNT`, spec/21_groves_crossings.md. -/
def CLK_MERGE_CNT.COUNT : Fld := ⟨0x0202000, 8, 0, 0, 0, 64, .ro, 0⟩
/-- `PWR_STATUS.LEVEL`, spec/19_firmware_power_thermal.md. -/
def PWR_STATUS.LEVEL : Fld := ⟨0x0300000, 0, 0, 0, 0, 2, .ro, 0⟩
/-- `PWR_STATUS.HW_LIMIT`, spec/19_firmware_power_thermal.md. -/
def PWR_STATUS.HW_LIMIT : Fld := ⟨0x0300000, 0, 0, 0, 2, 1, .ro, 0⟩
/-- `PWR_STATUS.HOT_SENSOR`, spec/19_firmware_power_thermal.md. -/
def PWR_STATUS.HOT_SENSOR : Fld := ⟨0x0300000, 0, 0, 0, 4, 4, .ro, 0⟩
/-- `PWR_STATUS.TMAX`, spec/19_firmware_power_thermal.md. -/
def PWR_STATUS.TMAX : Fld := ⟨0x0300000, 0, 0, 0, 8, 12, .ro, 0⟩
/-- `PWR_STATUS.PKG_W`, spec/19_firmware_power_thermal.md. -/
def PWR_STATUS.PKG_W : Fld := ⟨0x0300000, 0, 0, 0, 20, 12, .ro, 0⟩
/-- `PWR_CLK.TILE_EFF`, spec/19_firmware_power_thermal.md. -/
def PWR_CLK.TILE_EFF : Fld := ⟨0x0300008, 0, 0, 0, 0, 5, .ro, 0x10⟩
/-- `PWR_CLK.CORE_EFF`, spec/19_firmware_power_thermal.md. -/
def PWR_CLK.CORE_EFF : Fld := ⟨0x0300008, 0, 0, 0, 5, 5, .ro, 0x10⟩
/-- `PWR_CLK.DRAM_EFF`, spec/19_firmware_power_thermal.md. -/
def PWR_CLK.DRAM_EFF : Fld := ⟨0x0300008, 0, 0, 0, 10, 5, .ro, 0x10⟩
/-- `PWR_CLK.TILE_REQ`, spec/19_firmware_power_thermal.md: reset from Lyras image. -/
def PWR_CLK.TILE_REQ : Fld := ⟨0x0300008, 0, 0, 0, 16, 5, .ro, 0⟩
/-- `PWR_CLK.CORE_REQ`, spec/19_firmware_power_thermal.md: reset from Lyras image. -/
def PWR_CLK.CORE_REQ : Fld := ⟨0x0300008, 0, 0, 0, 21, 5, .ro, 0⟩
/-- `PWR_CLK.DRAM_REQ`, spec/19_firmware_power_thermal.md: reset from Lyras image. -/
def PWR_CLK.DRAM_REQ : Fld := ⟨0x0300008, 0, 0, 0, 26, 5, .ro, 0⟩
/-- `PWR_CLK.LOOP`, spec/19_firmware_power_thermal.md. -/
def PWR_CLK.LOOP : Fld := ⟨0x0300008, 0, 0, 0, 31, 1, .ro, 0⟩
/-- `PWR_LIMIT.LIMIT_W`, spec/19_firmware_power_thermal.md: reset from Lyras image. -/
def PWR_LIMIT.LIMIT_W : Fld := ⟨0x0300010, 0, 0, 0, 0, 9, .rw, 0⟩
/-- `PWR_LIMIT.TARGET_C`, spec/19_firmware_power_thermal.md: reset from Lyras image. -/
def PWR_LIMIT.TARGET_C : Fld := ⟨0x0300010, 0, 0, 0, 16, 8, .rw, 0⟩
/-- `PWR_HW_CFG.HW_LIMIT_W`, spec/19_firmware_power_thermal.md: reset from Lyras image. -/
def PWR_HW_CFG.HW_LIMIT_W : Fld := ⟨0x0300018, 0, 0, 0, 0, 9, .rwl, 0⟩
/-- `PWR_HW_CFG.HW_WINDOW_US`, spec/19_firmware_power_thermal.md: reset from Lyras image. -/
def PWR_HW_CFG.HW_WINDOW_US : Fld := ⟨0x0300018, 0, 0, 0, 9, 14, .rwl, 0⟩
/-- `PWR_HW_CFG.DEF_TILE`, spec/19_firmware_power_thermal.md: reset from Lyras image. -/
def PWR_HW_CFG.DEF_TILE : Fld := ⟨0x0300018, 0, 0, 0, 23, 5, .rwl, 0⟩
/-- `PWR_HW_CFG.DEF_CORE`, spec/19_firmware_power_thermal.md: reset from Lyras image. -/
def PWR_HW_CFG.DEF_CORE : Fld := ⟨0x0300018, 0, 0, 0, 28, 5, .rwl, 0⟩
/-- `PWR_HW_CFG.DEF_DRAM`, spec/19_firmware_power_thermal.md: reset from Lyras image. -/
def PWR_HW_CFG.DEF_DRAM : Fld := ⟨0x0300018, 0, 0, 0, 33, 5, .rwl, 0⟩
/-- `PWR_THERM_CFG.WARN_C`, spec/19_firmware_power_thermal.md: reset from Lyras image. -/
def PWR_THERM_CFG.WARN_C : Fld := ⟨0x0300020, 0, 0, 0, 0, 8, .rwl, 0⟩
/-- `PWR_THERM_CFG.THROTTLE_C`, spec/19_firmware_power_thermal.md: reset from Lyras image. -/
def PWR_THERM_CFG.THROTTLE_C : Fld := ⟨0x0300020, 0, 0, 0, 8, 8, .rwl, 0⟩
/-- `PWR_THERM_CFG.EMERG_C`, spec/19_firmware_power_thermal.md: reset from Lyras image. -/
def PWR_THERM_CFG.EMERG_C : Fld := ⟨0x0300020, 0, 0, 0, 16, 8, .rwl, 0⟩
/-- `PWR_THERM_CFG.HYST_C`, spec/19_firmware_power_thermal.md: reset from Lyras image. -/
def PWR_THERM_CFG.HYST_C : Fld := ⟨0x0300020, 0, 0, 0, 24, 4, .rwl, 0⟩
/-- `PWR_LOCK.LOCKED`, spec/19_firmware_power_thermal.md: reset from Lyras image. -/
def PWR_LOCK.LOCKED : Fld := ⟨0x0300028, 0, 0, 0, 0, 1, .w1s, 0⟩
/-- `PWR_SENSOR.TEMP`, spec/19_firmware_power_thermal.md. -/
def PWR_SENSOR.TEMP : Fld := ⟨0x0300040, 8, 0, 0, 0, 12, .ro, 0⟩
/-- `PWR_SENSOR.FAULT`, spec/19_firmware_power_thermal.md. -/
def PWR_SENSOR.FAULT : Fld := ⟨0x0300040, 8, 0, 0, 12, 1, .ro, 0⟩
/-- `PWR_ACT.STATE`, spec/19_firmware_power_thermal.md. -/
def PWR_ACT.STATE : Fld := ⟨0x0300100, 0, 0, 0, 0, 3, .ro, 0⟩
/-- `PWR_ACT.LAST_RESULT`, spec/19_firmware_power_thermal.md. -/
def PWR_ACT.LAST_RESULT : Fld := ⟨0x0300100, 0, 0, 0, 8, 8, .ro, 0⟩
/-- `PWR_ACT.PAUSE_MS`, spec/19_firmware_power_thermal.md. -/
def PWR_ACT.PAUSE_MS : Fld := ⟨0x0300100, 0, 0, 0, 16, 16, .ro, 0⟩
/-- `PWR_ACT_VER.RUN_VERSION`, spec/19_firmware_power_thermal.md. -/
def PWR_ACT_VER.RUN_VERSION : Fld := ⟨0x0300108, 0, 0, 0, 0, 32, .ro, 0⟩
/-- `PWR_ACT_VER.STAGED_VERSION`, spec/19_firmware_power_thermal.md. -/
def PWR_ACT_VER.STAGED_VERSION : Fld := ⟨0x0300108, 0, 0, 0, 32, 32, .ro, 0⟩
/-- `PWR_FW_STORE.REGION`, spec/19_firmware_power_thermal.md. -/
def PWR_FW_STORE.REGION : Fld := ⟨0x0300110, 0, 0, 0, 0, 10, .rw, 0⟩
/-- `PWR_FW_STORE.ENABLE`, spec/19_firmware_power_thermal.md. -/
def PWR_FW_STORE.ENABLE : Fld := ⟨0x0300110, 0, 0, 0, 10, 1, .rw, 0⟩
/-- `PWR_CNT.COUNT`, spec/19_firmware_power_thermal.md. -/
def PWR_CNT.COUNT : Fld := ⟨0x0300200, 8, 0, 0, 0, 64, .ro, 0⟩
/-- `MEM_STATUS.TOP_MIB`, spec/04_memory_stacks.md. -/
def MEM_STATUS.TOP_MIB : Fld := ⟨0x0400000, 0, 0, 0, 0, 18, .ro, 0x28000⟩
/-- `MEM_STATUS.CONTENTS_KEPT`, spec/04_memory_stacks.md. -/
def MEM_STATUS.CONTENTS_KEPT : Fld := ⟨0x0400000, 0, 0, 0, 18, 1, .ro, 0⟩
/-- `MEM_STATUS.RETIRED`, spec/04_memory_stacks.md. -/
def MEM_STATUS.RETIRED : Fld := ⟨0x0400000, 0, 0, 0, 19, 4, .ro, 0⟩
/-- `MEM_STATUS.FENCED`, spec/04_memory_stacks.md. -/
def MEM_STATUS.FENCED : Fld := ⟨0x0400000, 0, 0, 0, 23, 4, .ro, 0⟩
/-- `MEM_STATUS.RETIRE_FULL`, spec/04_memory_stacks.md. -/
def MEM_STATUS.RETIRE_FULL : Fld := ⟨0x0400000, 0, 0, 0, 27, 1, .ro, 0⟩
/-- `MEM_STATUS.LAYOUT_REFUSED`, spec/04_memory_stacks.md. -/
def MEM_STATUS.LAYOUT_REFUSED : Fld := ⟨0x0400000, 0, 0, 0, 28, 1, .w1c, 0⟩
/-- `MEM_STATUS.RGN_REFUSED`, spec/04_memory_stacks.md. -/
def MEM_STATUS.RGN_REFUSED : Fld := ⟨0x0400000, 0, 0, 0, 29, 1, .w1c, 0⟩
/-- `MEM_LAYOUT.LOCAL_GIB`, spec/04_memory_stacks.md. -/
def MEM_LAYOUT.LOCAL_GIB : Fld := ⟨0x0400008, 0, 0, 0, 0, 6, .rw, 0⟩
/-- `MEM_LAYOUT.CORR_LIMIT`, spec/04_memory_stacks.md. -/
def MEM_LAYOUT.CORR_LIMIT : Fld := ⟨0x0400008, 0, 0, 0, 8, 1, .rw, 0⟩
/-- `MEM_LAYOUT.LAYOUT_REDUCED`, spec/04_memory_stacks.md. -/
def MEM_LAYOUT.LAYOUT_REDUCED : Fld := ⟨0x0400008, 0, 0, 0, 16, 1, .ro, 0⟩
/-- `MEM_SCRUB_CFG.PERIOD_H`, spec/04_memory_stacks.md. -/
def MEM_SCRUB_CFG.PERIOD_H : Fld := ⟨0x0400010, 0, 0, 0, 0, 8, .rw, 0x18⟩
/-- `MEM_SCRUB_CFG.ENABLE`, spec/04_memory_stacks.md. -/
def MEM_SCRUB_CFG.ENABLE : Fld := ⟨0x0400010, 0, 0, 0, 8, 1, .rw, 1⟩
/-- `MEM_SCRUB_CFG.CE_STEP`, spec/04_memory_stacks.md. -/
def MEM_SCRUB_CFG.CE_STEP : Fld := ⟨0x0400010, 0, 0, 0, 16, 16, .rw, 0x100⟩
/-- `MEM_SCRUB_POS.ADDR`, spec/04_memory_stacks.md. -/
def MEM_SCRUB_POS.ADDR : Fld := ⟨0x0400018, 0, 0, 0, 0, 40, .ro, 0⟩
/-- `MEM_RETIRE.CHANNEL`, spec/04_memory_stacks.md. -/
def MEM_RETIRE.CHANNEL : Fld := ⟨0x0400040, 8, 0, 0, 0, 6, .ro, 0⟩
/-- `MEM_RETIRE.BANK`, spec/04_memory_stacks.md. -/
def MEM_RETIRE.BANK : Fld := ⟨0x0400040, 8, 0, 0, 6, 3, .ro, 0⟩
/-- `MEM_RETIRE.STATE`, spec/04_memory_stacks.md. -/
def MEM_RETIRE.STATE : Fld := ⟨0x0400040, 8, 0, 0, 9, 2, .ro, 0⟩
/-- `MEM_ERASE.POS0`, spec/04_memory_stacks.md. -/
def MEM_ERASE.POS0 : Fld := ⟨0x0400100, 8, 0, 0, 0, 7, .ro, 0⟩
/-- `MEM_ERASE.VALID0`, spec/04_memory_stacks.md. -/
def MEM_ERASE.VALID0 : Fld := ⟨0x0400100, 8, 0, 0, 7, 1, .ro, 0⟩
/-- `MEM_ERASE.POS1`, spec/04_memory_stacks.md. -/
def MEM_ERASE.POS1 : Fld := ⟨0x0400100, 8, 0, 0, 8, 7, .ro, 0⟩
/-- `MEM_ERASE.VALID1`, spec/04_memory_stacks.md. -/
def MEM_ERASE.VALID1 : Fld := ⟨0x0400100, 8, 0, 0, 15, 1, .ro, 0⟩
/-- `MEM_SPARE_USE.USED`, spec/04_memory_stacks.md: reset from Lyras image and repair log. -/
def MEM_SPARE_USE.USED : Fld := ⟨0x0400400, 8, 0, 0, 0, 7, .ro, 0⟩
/-- `MEM_CE_CNT.COUNT`, spec/04_memory_stacks.md. -/
def MEM_CE_CNT.COUNT : Fld := ⟨0x0402000, 8, 0, 0, 0, 64, .ro, 0⟩
/-- `MEM_UE_CNT.COUNT`, spec/04_memory_stacks.md. -/
def MEM_UE_CNT.COUNT : Fld := ⟨0x0402200, 8, 0, 0, 0, 64, .ro, 0⟩
/-- `MEM_MIRROR_FENCE.REGION`, spec/04_memory_stacks.md. -/
def MEM_MIRROR_FENCE.REGION : Fld := ⟨0x0403000, 0, 0, 0, 0, 10, .rw, 0⟩
/-- `MEM_MIRROR_FENCE.START`, spec/04_memory_stacks.md. -/
def MEM_MIRROR_FENCE.START : Fld := ⟨0x0403000, 0, 0, 0, 16, 1, .wo, 0⟩
/-- `MEM_MIRROR_FENCE.BUSY`, spec/04_memory_stacks.md. -/
def MEM_MIRROR_FENCE.BUSY : Fld := ⟨0x0403000, 0, 0, 0, 17, 1, .ro, 0⟩
/-- `MEM_MIRROR_FENCE.STATUS`, spec/04_memory_stacks.md. -/
def MEM_MIRROR_FENCE.STATUS : Fld := ⟨0x0403000, 0, 0, 0, 18, 8, .ro, 0⟩
/-- `MEM_RGN_A.VALID`, spec/04_memory_stacks.md. -/
def MEM_RGN_A.VALID : Fld := ⟨0x0410000, 0x10, 0, 0, 0, 1, .rw, 0⟩
/-- `MEM_RGN_A.MIRROR`, spec/04_memory_stacks.md. -/
def MEM_RGN_A.MIRROR : Fld := ⟨0x0410000, 0x10, 0, 0, 1, 1, .rw, 0⟩
/-- `MEM_RGN_A.MIRROR_TARGET`, spec/04_memory_stacks.md. -/
def MEM_RGN_A.MIRROR_TARGET : Fld := ⟨0x0410000, 0x10, 0, 0, 2, 1, .rw, 0⟩
/-- `MEM_RGN_A.STALE`, spec/04_memory_stacks.md. -/
def MEM_RGN_A.STALE : Fld := ⟨0x0410000, 0x10, 0, 0, 3, 1, .ro, 0⟩
/-- `MEM_RGN_A.GLADE`, spec/04_memory_stacks.md. -/
def MEM_RGN_A.GLADE : Fld := ⟨0x0410000, 0x10, 0, 0, 8, 8, .rw, 0⟩
/-- `MEM_RGN_A.BASE`, spec/04_memory_stacks.md. -/
def MEM_RGN_A.BASE : Fld := ⟨0x0410000, 0x10, 0, 0, 21, 17, .rw, 0⟩
/-- `MEM_RGN_B.SIZE`, spec/04_memory_stacks.md. -/
def MEM_RGN_B.SIZE : Fld := ⟨0x0410008, 0x10, 0, 0, 0, 17, .rw, 0⟩
/-- `MEM_RGN_B.TWIN_BASE`, spec/04_memory_stacks.md. -/
def MEM_RGN_B.TWIN_BASE : Fld := ⟨0x0410008, 0x10, 0, 0, 21, 17, .rw, 0⟩
/-- `TILE_STATE.SEQ`, spec/06_tile_programs.md. -/
def TILE_STATE.SEQ : Fld := ⟨0x0800000, 0x10000, 0, 0, 0, 2, .ro, 0⟩
/-- `TILE_STATE.QUEUE`, spec/06_tile_programs.md. -/
def TILE_STATE.QUEUE : Fld := ⟨0x0800000, 0x10000, 0, 0, 2, 3, .ro, 0⟩
/-- `TILE_STATE.PC`, spec/06_tile_programs.md. -/
def TILE_STATE.PC : Fld := ⟨0x0800000, 0x10000, 0, 0, 16, 12, .ro, 0⟩
/-- `TILE_CFG.GLADE`, spec/06_tile_programs.md. -/
def TILE_CFG.GLADE : Fld := ⟨0x0800008, 0x10000, 0, 0, 0, 8, .rw, 0⟩
/-- `TILE_CFG.ASSIGNED`, spec/06_tile_programs.md. -/
def TILE_CFG.ASSIGNED : Fld := ⟨0x0800008, 0x10000, 0, 0, 8, 1, .rw, 0⟩
/-- `TILE_WDOG.LIMIT`, spec/06_tile_programs.md. -/
def TILE_WDOG.LIMIT : Fld := ⟨0x0800010, 0x10000, 0, 0, 0, 40, .rw, 0x3B9ACA00⟩
/-- `TILE_ARITH_FLAGS.INVALID`, spec/05_matrix_arithmetic.md. -/
def TILE_ARITH_FLAGS.INVALID : Fld := ⟨0x0800020, 0x10000, 0, 0, 0, 1, .w1c, 0⟩
/-- `TILE_ARITH_FLAGS.OVERFLOW`, spec/05_matrix_arithmetic.md. -/
def TILE_ARITH_FLAGS.OVERFLOW : Fld := ⟨0x0800020, 0x10000, 0, 0, 1, 1, .w1c, 0⟩
/-- `TILE_ARITH_FLAGS.UNDERFLOW_ZERO`, spec/05_matrix_arithmetic.md. -/
def TILE_ARITH_FLAGS.UNDERFLOW_ZERO : Fld := ⟨0x0800020, 0x10000, 0, 0, 2, 1, .w1c, 0⟩
/-- `TILE_ARITH_FLAGS.INT_SAT`, spec/05_matrix_arithmetic.md. -/
def TILE_ARITH_FLAGS.INT_SAT : Fld := ⟨0x0800020, 0x10000, 0, 0, 3, 1, .w1c, 0⟩
/-- `TILE_ARITH_FLAGS.SCALE_NAN`, spec/05_matrix_arithmetic.md. -/
def TILE_ARITH_FLAGS.SCALE_NAN : Fld := ⟨0x0800020, 0x10000, 0, 0, 4, 1, .w1c, 0⟩
/-- `TILE_SR_SEED.SEED`, spec/05_matrix_arithmetic.md. -/
def TILE_SR_SEED.SEED : Fld := ⟨0x0800028, 0x10000, 0, 0, 0, 64, .rw, 0⟩
/-- `TILE_SR_SEQ.SEQ`, spec/05_matrix_arithmetic.md. -/
def TILE_SR_SEQ.SEQ : Fld := ⟨0x0800030, 0x10000, 0, 0, 0, 32, .ro, 0⟩
/-- `TILE_DMA_WAIT.CYCLES`, spec/06_tile_programs.md. -/
def TILE_DMA_WAIT.CYCLES : Fld := ⟨0x0800038, 0x10000, 0, 0, 0, 64, .ro, 0⟩
/-- `TILE_QBASE.LOC`, spec/06_tile_programs.md. -/
def TILE_QBASE.LOC : Fld := ⟨0x0800100, 0x40, 8, 0x10000, 0, 1, .rw, 0⟩
/-- `TILE_QBASE.ADDR`, spec/06_tile_programs.md. -/
def TILE_QBASE.ADDR : Fld := ⟨0x0800100, 0x40, 8, 0x10000, 6, 58, .rw, 0⟩
/-- `TILE_QCBASE.LOC`, spec/06_tile_programs.md. -/
def TILE_QCBASE.LOC : Fld := ⟨0x0800108, 0x40, 8, 0x10000, 0, 1, .rw, 0⟩
/-- `TILE_QCBASE.ADDR`, spec/06_tile_programs.md. -/
def TILE_QCBASE.ADDR : Fld := ⟨0x0800108, 0x40, 8, 0x10000, 6, 58, .rw, 0⟩
/-- `TILE_QCTRL.ENABLE`, spec/06_tile_programs.md. -/
def TILE_QCTRL.ENABLE : Fld := ⟨0x0800110, 0x40, 8, 0x10000, 0, 1, .rw, 0⟩
/-- `TILE_QCTRL.LOG2SIZE`, spec/06_tile_programs.md. -/
def TILE_QCTRL.LOG2SIZE : Fld := ⟨0x0800110, 0x40, 8, 0x10000, 1, 4, .rw, 4⟩
/-- `TILE_QCTRL.PRIO`, spec/06_tile_programs.md. -/
def TILE_QCTRL.PRIO : Fld := ⟨0x0800110, 0x40, 8, 0x10000, 5, 2, .rw, 0⟩
/-- `TILE_QCTRL.OWNER`, spec/06_tile_programs.md. -/
def TILE_QCTRL.OWNER : Fld := ⟨0x0800110, 0x40, 8, 0x10000, 8, 12, .rw, 0⟩
/-- `TILE_QCTRL.VECTOR`, spec/06_tile_programs.md. -/
def TILE_QCTRL.VECTOR : Fld := ⟨0x0800110, 0x40, 8, 0x10000, 20, 11, .rw, 0⟩
/-- `TILE_QCTRL.RESET`, spec/06_tile_programs.md. -/
def TILE_QCTRL.RESET : Fld := ⟨0x0800110, 0x40, 8, 0x10000, 31, 1, .wo, 0⟩
/-- `TILE_QCTRL.RESUME`, spec/06_tile_programs.md. -/
def TILE_QCTRL.RESUME : Fld := ⟨0x0800110, 0x40, 8, 0x10000, 32, 1, .wo, 0⟩
/-- `TILE_QSTATUS.HEAD`, spec/06_tile_programs.md. -/
def TILE_QSTATUS.HEAD : Fld := ⟨0x0800118, 0x40, 8, 0x10000, 0, 12, .ro, 0⟩
/-- `TILE_QSTATUS.TAIL`, spec/06_tile_programs.md. -/
def TILE_QSTATUS.TAIL : Fld := ⟨0x0800118, 0x40, 8, 0x10000, 16, 12, .ro, 0⟩
/-- `TILE_QSTATUS.STATE`, spec/06_tile_programs.md. -/
def TILE_QSTATUS.STATE : Fld := ⟨0x0800118, 0x40, 8, 0x10000, 28, 2, .ro, 0⟩
/-- `TILE_QSTATUS.PHASE`, spec/06_tile_programs.md. -/
def TILE_QSTATUS.PHASE : Fld := ⟨0x0800118, 0x40, 8, 0x10000, 30, 1, .ro, 1⟩
/-- `TILE_QSTATUS.TAIL_REFUSED`, spec/06_tile_programs.md. -/
def TILE_QSTATUS.TAIL_REFUSED : Fld := ⟨0x0800118, 0x40, 8, 0x10000, 31, 1, .w1c, 0⟩
/-- `TILE_QSTATUS.LAST_STATUS`, spec/06_tile_programs.md. -/
def TILE_QSTATUS.LAST_STATUS : Fld := ⟨0x0800118, 0x40, 8, 0x10000, 32, 8, .ro, 0⟩
/-- `TILE_QDONE.COUNT`, spec/06_tile_programs.md. -/
def TILE_QDONE.COUNT : Fld := ⟨0x0800120, 0x40, 8, 0x10000, 0, 64, .ro, 0⟩
/-- `UST_STATUS.LANES_UP`, spec/08_understory.md. -/
def UST_STATUS.LANES_UP : Fld := ⟨0x0C00000, 0, 0, 0, 0, 8, .ro, 0⟩
/-- `UST_STATUS.LINKS_UP`, spec/08_understory.md. -/
def UST_STATUS.LINKS_UP : Fld := ⟨0x0C00000, 0, 0, 0, 8, 8, .ro, 0⟩
/-- `UST_STATUS.GROUPS_UP`, spec/08_understory.md. -/
def UST_STATUS.GROUPS_UP : Fld := ⟨0x0C00000, 0, 0, 0, 16, 7, .ro, 0⟩
/-- `UST_LOCK.LOCKED`, spec/08_understory.md: reset from Lyras image. -/
def UST_LOCK.LOCKED : Fld := ⟨0x0C00008, 0, 0, 0, 0, 1, .w1s, 0⟩
/-- `UST_LINK.LANES`, spec/08_understory.md: reset from Lyras image. -/
def UST_LINK.LANES : Fld := ⟨0x0C00040, 8, 0, 0, 0, 8, .rwl, 0⟩
/-- `UST_LINK.EXPECT`, spec/08_understory.md: reset from Lyras image. -/
def UST_LINK.EXPECT : Fld := ⟨0x0C00040, 8, 0, 0, 8, 16, .rwl, 0⟩
/-- `UST_LINK.PEER`, spec/08_understory.md. -/
def UST_LINK.PEER : Fld := ⟨0x0C00040, 8, 0, 0, 24, 16, .ro, 0⟩
/-- `UST_LINK.UP`, spec/08_understory.md. -/
def UST_LINK.UP : Fld := ⟨0x0C00040, 8, 0, 0, 40, 1, .ro, 0⟩
/-- `UST_LINK.PEER_WRONG`, spec/08_understory.md. -/
def UST_LINK.PEER_WRONG : Fld := ⟨0x0C00040, 8, 0, 0, 41, 1, .ro, 0⟩
/-- `UST_LINK.ANY`, spec/08_understory.md: reset from Lyras image. -/
def UST_LINK.ANY : Fld := ⟨0x0C00040, 8, 0, 0, 42, 1, .rwl, 0⟩
/-- `UST_LANE.STATE`, spec/08_understory.md. -/
def UST_LANE.STATE : Fld := ⟨0x0C00080, 8, 0, 0, 0, 2, .ro, 0⟩
/-- `UST_LANE.SPARED`, spec/08_understory.md. -/
def UST_LANE.SPARED : Fld := ⟨0x0C00080, 8, 0, 0, 2, 1, .ro, 0⟩
/-- `UST_GRP_A.VALID`, spec/08_understory.md: reset from Lyras image. -/
def UST_GRP_A.VALID : Fld := ⟨0x0C01000, 0x10, 0, 0, 0, 1, .rwl, 0⟩
/-- `UST_GRP_A.TOPO`, spec/08_understory.md: reset from Lyras image. -/
def UST_GRP_A.TOPO : Fld := ⟨0x0C01000, 0x10, 0, 0, 1, 1, .rwl, 0⟩
/-- `UST_GRP_A.STATE`, spec/08_understory.md. -/
def UST_GRP_A.STATE : Fld := ⟨0x0C01000, 0x10, 0, 0, 2, 2, .ro, 0⟩
/-- `UST_GRP_A.GLADE`, spec/08_understory.md: reset from Lyras image. -/
def UST_GRP_A.GLADE : Fld := ⟨0x0C01000, 0x10, 0, 0, 4, 8, .rwl, 0⟩
/-- `UST_GRP_A.MEMBERS`, spec/08_understory.md: reset from Lyras image. -/
def UST_GRP_A.MEMBERS : Fld := ⟨0x0C01000, 0x10, 0, 0, 12, 7, .rwl, 0⟩
/-- `UST_GRP_A.SELF`, spec/08_understory.md: reset from Lyras image. -/
def UST_GRP_A.SELF : Fld := ⟨0x0C01000, 0x10, 0, 0, 19, 7, .rwl, 0⟩
/-- `UST_GRP_A.GEN`, spec/08_understory.md: reset from Lyras image. -/
def UST_GRP_A.GEN : Fld := ⟨0x0C01000, 0x10, 0, 0, 26, 16, .rwl, 0⟩
/-- `UST_GRP_A.QUEUE`, spec/08_understory.md: reset from Lyras image. -/
def UST_GRP_A.QUEUE : Fld := ⟨0x0C01000, 0x10, 0, 0, 42, 8, .rwl, 0⟩
/-- `UST_GRP_B.PREV`, spec/08_understory.md: reset from Lyras image. -/
def UST_GRP_B.PREV : Fld := ⟨0x0C01008, 0x10, 0, 0, 0, 3, .rwl, 0⟩
/-- `UST_GRP_B.PREV_VALID`, spec/08_understory.md: reset from Lyras image. -/
def UST_GRP_B.PREV_VALID : Fld := ⟨0x0C01008, 0x10, 0, 0, 3, 1, .rwl, 0⟩
/-- `UST_GRP_B.NEXT`, spec/08_understory.md: reset from Lyras image. -/
def UST_GRP_B.NEXT : Fld := ⟨0x0C01008, 0x10, 0, 0, 4, 3, .rwl, 0⟩
/-- `UST_GRP_B.NEXT_VALID`, spec/08_understory.md: reset from Lyras image. -/
def UST_GRP_B.NEXT_VALID : Fld := ⟨0x0C01008, 0x10, 0, 0, 7, 1, .rwl, 0⟩
/-- `UST_GRP_B.CHILDREN`, spec/08_understory.md: reset from Lyras image. -/
def UST_GRP_B.CHILDREN : Fld := ⟨0x0C01008, 0x10, 0, 0, 8, 8, .rwl, 0⟩
/-- `UST_GRP_B.ALERT_CTR`, spec/08_understory.md: reset from Lyras image. -/
def UST_GRP_B.ALERT_CTR : Fld := ⟨0x0C01008, 0x10, 0, 0, 16, 16, .rwl, 0⟩
/-- `UST_GRP_B.ALERT_EN`, spec/08_understory.md: reset from Lyras image. -/
def UST_GRP_B.ALERT_EN : Fld := ⟨0x0C01008, 0x10, 0, 0, 32, 1, .rwl, 0⟩
/-- `UST_EPOCH.VALUE`, spec/08_understory.md. -/
def UST_EPOCH.VALUE : Fld := ⟨0x0C02000, 0x10, 0, 0, 0, 64, .ro, 0⟩
/-- `UST_EPOCH_TIME.VALUE`, spec/08_understory.md. -/
def UST_EPOCH_TIME.VALUE : Fld := ⟨0x0C02008, 0x10, 0, 0, 0, 64, .ro, 0⟩
/-- `UST_CTR_BLK.GRANTED`, spec/08_understory.md. -/
def UST_CTR_BLK.GRANTED : Fld := ⟨0x0C04000, 8, 0, 0, 0, 1, .rw, 0⟩
/-- `UST_CTR_BLK.GLADE`, spec/08_understory.md. -/
def UST_CTR_BLK.GLADE : Fld := ⟨0x0C04000, 8, 0, 0, 8, 8, .rw, 0⟩
/-- `UST_LANE_CRC.COUNT`, spec/08_understory.md. -/
def UST_LANE_CRC.COUNT : Fld := ⟨0x0C05000, 8, 0, 0, 0, 64, .ro, 0⟩
/-- `UST_LANE_REPLAY.COUNT`, spec/08_understory.md. -/
def UST_LANE_REPLAY.COUNT : Fld := ⟨0x0C05040, 8, 0, 0, 0, 64, .ro, 0⟩
/-- `UST_DROP.COUNT`, spec/08_understory.md. -/
def UST_DROP.COUNT : Fld := ⟨0x0C05080, 0, 0, 0, 0, 64, .ro, 0⟩
/-- `UST_CTR.VALUE`, spec/08_understory.md. -/
def UST_CTR.VALUE : Fld := ⟨0x0D00000, 8, 0, 0, 0, 64, .rw, 0⟩
/-- `UST_CTR_ADD.VALUE`, spec/08_understory.md. -/
def UST_CTR_ADD.VALUE : Fld := ⟨0x0D80000, 8, 0, 0, 0, 64, .wo, 0⟩
/-- `FAB_CFG.IPV6`, spec/10_fabric_transport.md: reset from Lyras image. -/
def FAB_CFG.IPV6 : Fld := ⟨0x1000000, 0, 0, 0, 0, 1, .rwl, 0⟩
/-- `FAB_CFG.VLAN_EN`, spec/10_fabric_transport.md: reset from Lyras image. -/
def FAB_CFG.VLAN_EN : Fld := ⟨0x1000000, 0, 0, 0, 1, 1, .rwl, 0⟩
/-- `FAB_CFG.VID`, spec/10_fabric_transport.md: reset from Lyras image. -/
def FAB_CFG.VID : Fld := ⟨0x1000000, 0, 0, 0, 4, 12, .rwl, 0⟩
/-- `FAB_CFG.PCP`, spec/10_fabric_transport.md: reset from Lyras image. -/
def FAB_CFG.PCP : Fld := ⟨0x1000000, 0, 0, 0, 16, 3, .rwl, 0⟩
/-- `FAB_CFG.DSCP`, spec/10_fabric_transport.md: reset from Lyras image. -/
def FAB_CFG.DSCP : Fld := ⟨0x1000000, 0, 0, 0, 24, 6, .rwl, 0⟩
/-- `FAB_CFG.UDP_PORT`, spec/10_fabric_transport.md: reset from Lyras image. -/
def FAB_CFG.UDP_PORT : Fld := ⟨0x1000000, 0, 0, 0, 32, 16, .rwl, 0⟩
/-- `FAB_CFG.HOP_LIMIT`, spec/10_fabric_transport.md: reset from Lyras image. -/
def FAB_CFG.HOP_LIMIT : Fld := ⟨0x1000000, 0, 0, 0, 48, 8, .rwl, 0⟩
/-- `FAB_LOCK.LOCKED`, spec/10_fabric_transport.md: reset from Lyras image. -/
def FAB_LOCK.LOCKED : Fld := ⟨0x1000008, 0, 0, 0, 0, 1, .w1s, 0⟩
/-- `FAB_IP_BASE.BASE`, spec/10_fabric_transport.md: reset from Lyras image. -/
def FAB_IP_BASE.BASE : Fld := ⟨0x1000010, 8, 0, 0, 0, 64, .rwl, 0⟩
/-- `FAB_RETRY.RTO_MIN`, spec/10_fabric_transport.md. -/
def FAB_RETRY.RTO_MIN : Fld := ⟨0x1000020, 0, 0, 0, 0, 16, .rw, 0x20⟩
/-- `FAB_RETRY.RTO_MAX`, spec/10_fabric_transport.md. -/
def FAB_RETRY.RTO_MAX : Fld := ⟨0x1000020, 0, 0, 0, 16, 16, .rw, 0x7D0⟩
/-- `FAB_RETRY.TIMEOUT`, spec/10_fabric_transport.md. -/
def FAB_RETRY.TIMEOUT : Fld := ⟨0x1000020, 0, 0, 0, 32, 10, .rw, 0x14⟩
/-- `FAB_RETRY.HOLDOFF`, spec/10_fabric_transport.md. -/
def FAB_RETRY.HOLDOFF : Fld := ⟨0x1000020, 0, 0, 0, 42, 10, .rw, 0x64⟩
/-- `FAB_CC.TARGET_NS`, spec/10_fabric_transport.md. -/
def FAB_CC.TARGET_NS : Fld := ⟨0x1000028, 0, 0, 0, 0, 16, .rw, 0x2EE0⟩
/-- `FAB_CC.AI_KIB`, spec/10_fabric_transport.md. -/
def FAB_CC.AI_KIB : Fld := ⟨0x1000028, 0, 0, 0, 16, 16, .rw, 8⟩
/-- `FAB_CC.MAX_KIB`, spec/10_fabric_transport.md. -/
def FAB_CC.MAX_KIB : Fld := ⟨0x1000028, 0, 0, 0, 32, 12, .rw, 0x800⟩
/-- `FAB_CC.INIT_KIB`, spec/10_fabric_transport.md. -/
def FAB_CC.INIT_KIB : Fld := ⟨0x1000028, 0, 0, 0, 44, 12, .rw, 0x100⟩
/-- `FAB_CTX_CFG.LOC`, spec/10_fabric_transport.md. -/
def FAB_CTX_CFG.LOC : Fld := ⟨0x1000030, 0, 0, 0, 0, 1, .rwl, 0⟩
/-- `FAB_CTX_CFG.ENABLE`, spec/10_fabric_transport.md. -/
def FAB_CTX_CFG.ENABLE : Fld := ⟨0x1000030, 0, 0, 0, 1, 1, .rw, 0⟩
/-- `FAB_CTX_CFG.REGION`, spec/10_fabric_transport.md. -/
def FAB_CTX_CFG.REGION : Fld := ⟨0x1000030, 0, 0, 0, 2, 10, .rwl, 0⟩
/-- `FAB_CTX_CFG.PEER_RESERVE`, spec/10_fabric_transport.md. -/
def FAB_CTX_CFG.PEER_RESERVE : Fld := ⟨0x1000030, 0, 0, 0, 12, 17, .rwl, 0x1000⟩
/-- `FAB_CTX_HOST.ADDR`, spec/10_fabric_transport.md. -/
def FAB_CTX_HOST.ADDR : Fld := ⟨0x1000038, 0, 0, 0, 16, 48, .rwl, 0⟩
/-- `FAB_CTX_USE.CACHED`, spec/10_fabric_transport.md. -/
def FAB_CTX_USE.CACHED : Fld := ⟨0x1000040, 8, 0, 0, 0, 13, .ro, 0⟩
/-- `FAB_CTX_USE.BUSY`, spec/10_fabric_transport.md. -/
def FAB_CTX_USE.BUSY : Fld := ⟨0x1000040, 8, 0, 0, 13, 13, .ro, 0⟩
/-- `FAB_CTX_USE.MISS_BYTES`, spec/10_fabric_transport.md. -/
def FAB_CTX_USE.MISS_BYTES : Fld := ⟨0x1000040, 8, 0, 0, 26, 24, .ro, 0⟩
/-- `FAB_PEER_SEL.DEVICE`, spec/10_fabric_transport.md. -/
def FAB_PEER_SEL.DEVICE : Fld := ⟨0x1000060, 0, 0, 0, 0, 16, .rw, 0⟩
/-- `FAB_PEER_STAT.STATE`, spec/10_fabric_transport.md. -/
def FAB_PEER_STAT.STATE : Fld := ⟨0x1000068, 0, 0, 0, 0, 3, .ro, 0⟩
/-- `FAB_PEER_STAT.CACHED`, spec/10_fabric_transport.md. -/
def FAB_PEER_STAT.CACHED : Fld := ⟨0x1000068, 0, 0, 0, 3, 1, .ro, 0⟩
/-- `FAB_PEER_STAT.PORT`, spec/10_fabric_transport.md. -/
def FAB_PEER_STAT.PORT : Fld := ⟨0x1000068, 0, 0, 0, 4, 4, .ro, 0⟩
/-- `FAB_PEER_STAT.EPOCH`, spec/10_fabric_transport.md. -/
def FAB_PEER_STAT.EPOCH : Fld := ⟨0x1000068, 0, 0, 0, 8, 16, .ro, 0⟩
/-- `FAB_PEER_STAT.W_KIB`, spec/10_fabric_transport.md. -/
def FAB_PEER_STAT.W_KIB : Fld := ⟨0x1000068, 0, 0, 0, 24, 12, .ro, 0⟩
/-- `FAB_PEER_STAT.UNACKED`, spec/10_fabric_transport.md. -/
def FAB_PEER_STAT.UNACKED : Fld := ⟨0x1000068, 0, 0, 0, 36, 13, .ro, 0⟩
/-- `FAB_PORT.ENABLE`, spec/10_fabric_transport.md: reset from Lyras image. -/
def FAB_PORT.ENABLE : Fld := ⟨0x1000100, 8, 0, 0, 0, 1, .rwl, 0⟩
/-- `FAB_PORT.STATE`, spec/10_fabric_transport.md. -/
def FAB_PORT.STATE : Fld := ⟨0x1000100, 8, 0, 0, 1, 3, .ro, 0⟩
/-- `FAB_PORT.MTU`, spec/10_fabric_transport.md: reset from Lyras image. -/
def FAB_PORT.MTU : Fld := ⟨0x1000100, 8, 0, 0, 4, 14, .rwl, 0⟩
/-- `FAB_PORT_MAC.MAC`, spec/10_fabric_transport.md: reset from Lyras image. -/
def FAB_PORT_MAC.MAC : Fld := ⟨0x1000180, 8, 0, 0, 0, 48, .rwl, 0⟩
/-- `FAB_PORT_GW.GW`, spec/10_fabric_transport.md: reset from Lyras image. -/
def FAB_PORT_GW.GW : Fld := ⟨0x1000200, 8, 0, 0, 0, 48, .rwl, 0⟩
/-- `FAB_CNT.COUNT`, spec/10_fabric_transport.md. -/
def FAB_CNT.COUNT : Fld := ⟨0x1001000, 8, 0, 0, 0, 64, .ro, 0⟩
/-- `FAB_SAL_DEVNUM.DEVNUM`, spec/09_saloa_memory_space.md: reset from Lyras image. -/
def FAB_SAL_DEVNUM.DEVNUM : Fld := ⟨0x13C0000, 0, 0, 0, 0, 16, .rwl, 0⟩
/-- `FAB_SAL_LOCK.LOCKED`, spec/09_saloa_memory_space.md: reset from Lyras image. -/
def FAB_SAL_LOCK.LOCKED : Fld := ⟨0x13C0008, 0, 0, 0, 0, 1, .w1s, 0⟩
/-- `FAB_SAL_RKT_CFG.REGION`, spec/09_saloa_memory_space.md. -/
def FAB_SAL_RKT_CFG.REGION : Fld := ⟨0x13C0010, 0, 0, 0, 0, 10, .rwl, 0⟩
/-- `FAB_SAL_RKT_CFG.LOG2N`, spec/09_saloa_memory_space.md. -/
def FAB_SAL_RKT_CFG.LOG2N : Fld := ⟨0x13C0010, 0, 0, 0, 16, 5, .rwl, 0xA⟩
/-- `FAB_SAL_RKT_CFG.ENABLE`, spec/09_saloa_memory_space.md. -/
def FAB_SAL_RKT_CFG.ENABLE : Fld := ⟨0x13C0010, 0, 0, 0, 24, 1, .rw, 0⟩
/-- `FAB_SAL_DENIED.COUNT`, spec/09_saloa_memory_space.md. -/
def FAB_SAL_DENIED.COUNT : Fld := ⟨0x13C0018, 0, 0, 0, 0, 64, .ro, 0⟩
/-- `FAB_SAL_RKT_MISS.COUNT`, spec/09_saloa_memory_space.md. -/
def FAB_SAL_RKT_MISS.COUNT : Fld := ⟨0x13C0020, 0, 0, 0, 0, 64, .ro, 0⟩
/-- `FAB_SAL_FTN.FTN`, spec/09_saloa_memory_space.md. -/
def FAB_SAL_FTN.FTN : Fld := ⟨0x13C0800, 8, 0, 0, 0, 16, .rw, 0⟩
/-- `FAB_SAL_PD.VALID`, spec/09_saloa_memory_space.md. -/
def FAB_SAL_PD.VALID : Fld := ⟨0x13D0000, 8, 0, 0, 0, 1, .rw, 0⟩
/-- `FAB_SAL_PD.GLADE`, spec/09_saloa_memory_space.md. -/
def FAB_SAL_PD.GLADE : Fld := ⟨0x13D0000, 8, 0, 0, 8, 8, .rw, 0⟩
/-- `FAB_SAL_PD.USERS`, spec/09_saloa_memory_space.md. -/
def FAB_SAL_PD.USERS : Fld := ⟨0x13D0000, 8, 0, 0, 16, 24, .ro, 0⟩
/-- `OPT_LANE.STATE`, spec/10_fabric_transport.md. -/
def OPT_LANE.STATE : Fld := ⟨0x1400000, 8, 0, 0, 0, 2, .ro, 0⟩
/-- `OPT_LANE.SPARED`, spec/10_fabric_transport.md: reset from Lyras image and repair log. -/
def OPT_LANE.SPARED : Fld := ⟨0x1400000, 8, 0, 0, 2, 1, .ro, 0⟩
/-- `OPT_LANE.PARTNER`, spec/10_fabric_transport.md: reset from Lyras image and repair log. -/
def OPT_LANE.PARTNER : Fld := ⟨0x1400000, 8, 0, 0, 3, 6, .ro, 0⟩
/-- `OPT_LANE.IN_USE`, spec/10_fabric_transport.md: reset from Lyras image and repair log. -/
def OPT_LANE.IN_USE : Fld := ⟨0x1400000, 8, 0, 0, 9, 1, .ro, 0⟩
/-- `OPT_TILE.LIGHT0`, spec/10_fabric_transport.md. -/
def OPT_TILE.LIGHT0 : Fld := ⟨0x1400200, 8, 0, 0, 0, 1, .ro, 0⟩
/-- `OPT_TILE.LIGHT1`, spec/10_fabric_transport.md. -/
def OPT_TILE.LIGHT1 : Fld := ⟨0x1400200, 8, 0, 0, 1, 1, .ro, 0⟩
/-- `OPT_TILE.REFCLK_OK`, spec/10_fabric_transport.md. -/
def OPT_TILE.REFCLK_OK : Fld := ⟨0x1400200, 8, 0, 0, 2, 1, .ro, 0⟩
/-- `OPT_FEC_CORR.COUNT`, spec/10_fabric_transport.md. -/
def OPT_FEC_CORR.COUNT : Fld := ⟨0x1400400, 8, 0, 0, 0, 64, .ro, 0⟩
/-- `OPT_FEC_UNCORR.COUNT`, spec/10_fabric_transport.md. -/
def OPT_FEC_UNCORR.COUNT : Fld := ⟨0x1400600, 8, 0, 0, 0, 64, .ro, 0⟩
/-- `SCH_PORT_CFG.OVERHEAD`, spec/11_scheduling_guarantees.md. -/
def SCH_PORT_CFG.OVERHEAD : Fld := ⟨0x1600000, 8, 0, 0, 0, 8, .rw, 0x54⟩
/-- `SCH_PORT_STAT.AVAIL`, spec/11_scheduling_guarantees.md. -/
def SCH_PORT_STAT.AVAIL : Fld := ⟨0x1600080, 8, 0, 0, 0, 20, .ro, 0x61A80⟩
/-- `SCH_PORT_STAT.MIN_DEMAND`, spec/11_scheduling_guarantees.md. -/
def SCH_PORT_STAT.MIN_DEMAND : Fld := ⟨0x1600080, 8, 0, 0, 20, 27, .ro, 0⟩
/-- `SCH_PORT_STAT.SCALE`, spec/11_scheduling_guarantees.md. -/
def SCH_PORT_STAT.SCALE : Fld := ⟨0x1600080, 8, 0, 0, 47, 11, .ro, 0x400⟩
/-- `SCH_STATUS.BIND_REFUSED`, spec/11_scheduling_guarantees.md. -/
def SCH_STATUS.BIND_REFUSED : Fld := ⟨0x1600100, 0, 0, 0, 0, 1, .w1c, 0⟩
/-- `SCH_GLADE_A.MIN`, spec/11_scheduling_guarantees.md. -/
def SCH_GLADE_A.MIN : Fld := ⟨0x1601000, 0x10, 0, 0, 0, 20, .rw, 0⟩
/-- `SCH_GLADE_A.MAX`, spec/11_scheduling_guarantees.md. -/
def SCH_GLADE_A.MAX : Fld := ⟨0x1601000, 0x10, 0, 0, 20, 20, .rw, 0⟩
/-- `SCH_GLADE_A.WEIGHT`, spec/11_scheduling_guarantees.md. -/
def SCH_GLADE_A.WEIGHT : Fld := ⟨0x1601000, 0x10, 0, 0, 40, 8, .rw, 1⟩
/-- `SCH_GLADE_A.LAT_US`, spec/11_scheduling_guarantees.md. -/
def SCH_GLADE_A.LAT_US : Fld := ⟨0x1601000, 0x10, 0, 0, 48, 8, .rw, 0⟩
/-- `SCH_GLADE_B.CAP`, spec/11_scheduling_guarantees.md. -/
def SCH_GLADE_B.CAP : Fld := ⟨0x1601008, 0x10, 0, 0, 0, 24, .rw, 0x40000⟩
/-- `SCH_GLADE_B.POLICER`, spec/11_scheduling_guarantees.md. -/
def SCH_GLADE_B.POLICER : Fld := ⟨0x1601008, 0x10, 0, 0, 24, 10, .rw, 0⟩
/-- `SCH_GLADE_B.POL_EN`, spec/11_scheduling_guarantees.md. -/
def SCH_GLADE_B.POL_EN : Fld := ⟨0x1601008, 0x10, 0, 0, 34, 1, .rw, 0⟩
/-- `SCH_GLADE_B.DWEIGHT`, spec/11_scheduling_guarantees.md. -/
def SCH_GLADE_B.DWEIGHT : Fld := ⟨0x1601008, 0x10, 0, 0, 36, 8, .rw, 1⟩
/-- `SCH_INST_A.MIN`, spec/11_scheduling_guarantees.md. -/
def SCH_INST_A.MIN : Fld := ⟨0x1610000, 0x10, 0, 0, 0, 20, .rw, 0⟩
/-- `SCH_INST_A.MAX`, spec/11_scheduling_guarantees.md. -/
def SCH_INST_A.MAX : Fld := ⟨0x1610000, 0x10, 0, 0, 20, 20, .rw, 0⟩
/-- `SCH_INST_A.WEIGHT`, spec/11_scheduling_guarantees.md. -/
def SCH_INST_A.WEIGHT : Fld := ⟨0x1610000, 0x10, 0, 0, 40, 8, .rw, 1⟩
/-- `SCH_INST_A.LAT_US`, spec/11_scheduling_guarantees.md. -/
def SCH_INST_A.LAT_US : Fld := ⟨0x1610000, 0x10, 0, 0, 48, 8, .rw, 0⟩
/-- `SCH_INST_B.CAP`, spec/11_scheduling_guarantees.md. -/
def SCH_INST_B.CAP : Fld := ⟨0x1610008, 0x10, 0, 0, 0, 24, .rw, 0x40000⟩
/-- `SCH_INST_B.POLICER`, spec/11_scheduling_guarantees.md. -/
def SCH_INST_B.POLICER : Fld := ⟨0x1610008, 0x10, 0, 0, 24, 10, .rw, 0⟩
/-- `SCH_INST_B.POL_EN`, spec/11_scheduling_guarantees.md. -/
def SCH_INST_B.POL_EN : Fld := ⟨0x1610008, 0x10, 0, 0, 34, 1, .rw, 0⟩
/-- `SCH_INST_B.DWEIGHT`, spec/11_scheduling_guarantees.md. -/
def SCH_INST_B.DWEIGHT : Fld := ⟨0x1610008, 0x10, 0, 0, 36, 8, .rw, 1⟩
/-- `SCH_POL_A.TWO_RATE`, spec/11_scheduling_guarantees.md. -/
def SCH_POL_A.TWO_RATE : Fld := ⟨0x1620000, 0x20, 0, 0, 0, 1, .rw, 0⟩
/-- `SCH_POL_A.AWARE`, spec/11_scheduling_guarantees.md. -/
def SCH_POL_A.AWARE : Fld := ⟨0x1620000, 0x20, 0, 0, 1, 1, .rw, 0⟩
/-- `SCH_POL_A.YELLOW_ACT`, spec/11_scheduling_guarantees.md. -/
def SCH_POL_A.YELLOW_ACT : Fld := ⟨0x1620000, 0x20, 0, 0, 2, 1, .rw, 0⟩
/-- `SCH_POL_A.RED_ACT`, spec/11_scheduling_guarantees.md. -/
def SCH_POL_A.RED_ACT : Fld := ⟨0x1620000, 0x20, 0, 0, 3, 2, .rw, 0⟩
/-- `SCH_POL_A.GLADE`, spec/11_scheduling_guarantees.md. -/
def SCH_POL_A.GLADE : Fld := ⟨0x1620000, 0x20, 0, 0, 8, 8, .rw, 0⟩
/-- `SCH_POL_A.CIR`, spec/11_scheduling_guarantees.md. -/
def SCH_POL_A.CIR : Fld := ⟨0x1620000, 0x20, 0, 0, 16, 20, .rw, 0⟩
/-- `SCH_POL_A.PIR`, spec/11_scheduling_guarantees.md. -/
def SCH_POL_A.PIR : Fld := ⟨0x1620000, 0x20, 0, 0, 36, 20, .rw, 0⟩
/-- `SCH_POL_B.CBS`, spec/11_scheduling_guarantees.md. -/
def SCH_POL_B.CBS : Fld := ⟨0x1620008, 0x20, 0, 0, 0, 24, .rw, 0⟩
/-- `SCH_POL_B.EBS_PBS`, spec/11_scheduling_guarantees.md. -/
def SCH_POL_B.EBS_PBS : Fld := ⟨0x1620008, 0x20, 0, 0, 24, 24, .rw, 0⟩
/-- `SCH_POL_CNT.COUNT`, spec/11_scheduling_guarantees.md. -/
def SCH_POL_CNT.COUNT : Fld := ⟨0x1630000, 8, 0, 0, 0, 64, .ro, 0⟩
/-- `SCH_GLADE_BYTES.COUNT`, spec/11_scheduling_guarantees.md. -/
def SCH_GLADE_BYTES.COUNT : Fld := ⟨0x1638000, 8, 0, 0, 0, 64, .ro, 0⟩
/-- `SCH_FLOW.WEIGHT`, spec/11_scheduling_guarantees.md. -/
def SCH_FLOW.WEIGHT : Fld := ⟨0x1640000, 8, 0, 0, 0, 8, .rw, 1⟩
/-- `SCH_FLOW_S.WEIGHT`, spec/11_scheduling_guarantees.md. -/
def SCH_FLOW_S.WEIGHT : Fld := ⟨0x16C0000, 8, 0, 0, 0, 8, .rw, 1⟩
/-- `HEP_PORT_STAT.LINK_UP`, spec/12_host_endpoint.md. -/
def HEP_PORT_STAT.LINK_UP : Fld := ⟨0x1800000, 8, 0, 0, 0, 1, .ro, 0⟩
/-- `HEP_PORT_STAT.SPEED`, spec/12_host_endpoint.md. -/
def HEP_PORT_STAT.SPEED : Fld := ⟨0x1800000, 8, 0, 0, 1, 3, .ro, 0⟩
/-- `HEP_PORT_STAT.WIDTH`, spec/12_host_endpoint.md. -/
def HEP_PORT_STAT.WIDTH : Fld := ⟨0x1800000, 8, 0, 0, 4, 5, .ro, 0⟩
/-- `HEP_PORT_STAT.FLIT`, spec/12_host_endpoint.md. -/
def HEP_PORT_STAT.FLIT : Fld := ⟨0x1800000, 8, 0, 0, 9, 1, .ro, 0⟩
/-- `HEP_PORT_STAT.ROLE`, spec/12_host_endpoint.md: reset from Lyras image. -/
def HEP_PORT_STAT.ROLE : Fld := ⟨0x1800000, 8, 0, 0, 10, 1, .ro, 0⟩
/-- `HEP_PORT_STAT.BME`, spec/12_host_endpoint.md. -/
def HEP_PORT_STAT.BME : Fld := ⟨0x1800000, 8, 0, 0, 11, 1, .ro, 0⟩
/-- `HEP_PORT_STAT.FLR_BUSY`, spec/12_host_endpoint.md. -/
def HEP_PORT_STAT.FLR_BUSY : Fld := ⟨0x1800000, 8, 0, 0, 12, 1, .ro, 0⟩
/-- `HEP_PORT_STAT.ATS_EN`, spec/12_host_endpoint.md. -/
def HEP_PORT_STAT.ATS_EN : Fld := ⟨0x1800000, 8, 0, 0, 13, 1, .ro, 0⟩
/-- `HEP_PORT_STAT.TAGW`, spec/12_host_endpoint.md. -/
def HEP_PORT_STAT.TAGW : Fld := ⟨0x1800000, 8, 0, 0, 14, 2, .ro, 0⟩
/-- `HEP_CPL_TO_CFG.RANGE`, spec/12_host_endpoint.md. -/
def HEP_CPL_TO_CFG.RANGE : Fld := ⟨0x1800010, 8, 0, 0, 0, 4, .ro, 0⟩
/-- `HEP_CPL_TO_CFG.UPPER_US`, spec/12_host_endpoint.md. -/
def HEP_CPL_TO_CFG.UPPER_US : Fld := ⟨0x1800010, 8, 0, 0, 8, 26, .ro, 0xD6D8⟩
/-- `HEP_CPL_TO_CFG.QUAR_US`, spec/12_host_endpoint.md. -/
def HEP_CPL_TO_CFG.QUAR_US : Fld := ⟨0x1800010, 8, 0, 0, 34, 27, .ro, 0x1ADB0⟩
/-- `HEP_TAG_STAT.OUTSTANDING`, spec/12_host_endpoint.md. -/
def HEP_TAG_STAT.OUTSTANDING : Fld := ⟨0x1800020, 8, 0, 0, 0, 13, .ro, 0⟩
/-- `HEP_TAG_STAT.QUARANTINED`, spec/12_host_endpoint.md. -/
def HEP_TAG_STAT.QUARANTINED : Fld := ⟨0x1800020, 8, 0, 0, 16, 15, .ro, 0⟩
/-- `HEP_PORT_CFG.MAX_OUT`, spec/12_host_endpoint.md. -/
def HEP_PORT_CFG.MAX_OUT : Fld := ⟨0x1800030, 8, 0, 0, 0, 13, .rw, 0x1000⟩
/-- `HEP_PORT_CFG.RO_EN`, spec/12_host_endpoint.md. -/
def HEP_PORT_CFG.RO_EN : Fld := ⟨0x1800030, 8, 0, 0, 13, 1, .rw, 1⟩
/-- `HEP_CFG.MED_PORT`, spec/12_host_endpoint.md: reset from Lyras image. -/
def HEP_CFG.MED_PORT : Fld := ⟨0x1800040, 0, 0, 0, 0, 1, .ro, 0⟩
/-- `HEP_CNT.COUNT`, spec/12_host_endpoint.md. -/
def HEP_CNT.COUNT : Fld := ⟨0x1800100, 8, 0, 0, 0, 64, .ro, 0⟩
/-- `HEP_EVR_BASE.LOC`, spec/12_host_endpoint.md. -/
def HEP_EVR_BASE.LOC : Fld := ⟨0x1840000, 0x40, 0, 0, 0, 1, .rw, 0⟩
/-- `HEP_EVR_BASE.ADDR`, spec/12_host_endpoint.md. -/
def HEP_EVR_BASE.ADDR : Fld := ⟨0x1840000, 0x40, 0, 0, 6, 58, .rw, 0⟩
/-- `HEP_EVR_CFG.ENABLE`, spec/12_host_endpoint.md. -/
def HEP_EVR_CFG.ENABLE : Fld := ⟨0x1840008, 0x40, 0, 0, 0, 1, .rw, 0⟩
/-- `HEP_EVR_CFG.LOG2SIZE`, spec/12_host_endpoint.md. -/
def HEP_EVR_CFG.LOG2SIZE : Fld := ⟨0x1840008, 0x40, 0, 0, 1, 5, .rw, 6⟩
/-- `HEP_EVR_CFG.PORT`, spec/12_host_endpoint.md. -/
def HEP_EVR_CFG.PORT : Fld := ⟨0x1840008, 0x40, 0, 0, 6, 1, .rw, 0⟩
/-- `HEP_EVR_CFG.USE_PASID`, spec/12_host_endpoint.md. -/
def HEP_EVR_CFG.USE_PASID : Fld := ⟨0x1840008, 0x40, 0, 0, 7, 1, .rw, 0⟩
/-- `HEP_EVR_CFG.PASID`, spec/12_host_endpoint.md. -/
def HEP_EVR_CFG.PASID : Fld := ⟨0x1840008, 0x40, 0, 0, 8, 20, .rw, 0⟩
/-- `HEP_EVR_CFG.GLADE_FILT`, spec/12_host_endpoint.md. -/
def HEP_EVR_CFG.GLADE_FILT : Fld := ⟨0x1840008, 0x40, 0, 0, 28, 1, .rw, 0⟩
/-- `HEP_EVR_CFG.GLADE`, spec/12_host_endpoint.md. -/
def HEP_EVR_CFG.GLADE : Fld := ⟨0x1840008, 0x40, 0, 0, 29, 8, .rw, 0⟩
/-- `HEP_EVR_CFG.INST_FILT`, spec/12_host_endpoint.md. -/
def HEP_EVR_CFG.INST_FILT : Fld := ⟨0x1840008, 0x40, 0, 0, 37, 1, .rw, 0⟩
/-- `HEP_EVR_CFG.INST`, spec/12_host_endpoint.md. -/
def HEP_EVR_CFG.INST : Fld := ⟨0x1840008, 0x40, 0, 0, 38, 12, .rw, 0⟩
/-- `HEP_EVR_CFG.VECTOR`, spec/12_host_endpoint.md. -/
def HEP_EVR_CFG.VECTOR : Fld := ⟨0x1840008, 0x40, 0, 0, 50, 11, .rw, 0⟩
/-- `HEP_EVR_HEAD.INDEX`, spec/12_host_endpoint.md. -/
def HEP_EVR_HEAD.INDEX : Fld := ⟨0x1840010, 0x40, 0, 0, 0, 16, .rw, 0⟩
/-- `HEP_EVR_TAIL.INDEX`, spec/12_host_endpoint.md. -/
def HEP_EVR_TAIL.INDEX : Fld := ⟨0x1840018, 0x40, 0, 0, 0, 16, .ro, 0⟩
/-- `HEP_EVR_WB.WB_EN`, spec/12_host_endpoint.md. -/
def HEP_EVR_WB.WB_EN : Fld := ⟨0x1840020, 0x40, 0, 0, 0, 1, .rw, 0⟩
/-- `HEP_EVR_WB.ADDR`, spec/12_host_endpoint.md. -/
def HEP_EVR_WB.ADDR : Fld := ⟨0x1840020, 0x40, 0, 0, 3, 61, .rw, 0⟩
/-- `HEP_EVR_MOD.HOLDOFF_US`, spec/12_host_endpoint.md. -/
def HEP_EVR_MOD.HOLDOFF_US : Fld := ⟨0x1840028, 0x40, 0, 0, 0, 16, .rw, 0⟩
/-- `HEP_EVR_DROP.COUNT`, spec/12_host_endpoint.md. -/
def HEP_EVR_DROP.COUNT : Fld := ⟨0x1840030, 0x40, 0, 0, 0, 64, .ro, 0⟩
/-- `HEP_EVR_UNMATCHED.COUNT`, spec/12_host_endpoint.md. -/
def HEP_EVR_UNMATCHED.COUNT : Fld := ⟨0x1841000, 0, 0, 0, 0, 64, .ro, 0⟩
/-- `HEP_WIN_A.VALID`, spec/09_saloa_memory_space.md. -/
def HEP_WIN_A.VALID : Fld := ⟨0x19C0000, 0x10, 0, 0, 0, 1, .rw, 0⟩
/-- `HEP_WIN_A.RD`, spec/09_saloa_memory_space.md. -/
def HEP_WIN_A.RD : Fld := ⟨0x19C0000, 0x10, 0, 0, 1, 1, .rw, 0⟩
/-- `HEP_WIN_A.WR`, spec/09_saloa_memory_space.md. -/
def HEP_WIN_A.WR : Fld := ⟨0x19C0000, 0x10, 0, 0, 2, 1, .rw, 0⟩
/-- `HEP_WIN_A.PORT_A`, spec/09_saloa_memory_space.md. -/
def HEP_WIN_A.PORT_A : Fld := ⟨0x19C0000, 0x10, 0, 0, 3, 1, .rw, 0⟩
/-- `HEP_WIN_A.PORT_B`, spec/09_saloa_memory_space.md. -/
def HEP_WIN_A.PORT_B : Fld := ⟨0x19C0000, 0x10, 0, 0, 4, 1, .rw, 0⟩
/-- `HEP_WIN_A.GLADE`, spec/09_saloa_memory_space.md. -/
def HEP_WIN_A.GLADE : Fld := ⟨0x19C0000, 0x10, 0, 0, 8, 8, .rw, 0⟩
/-- `HEP_WIN_A.RKEY`, spec/09_saloa_memory_space.md. -/
def HEP_WIN_A.RKEY : Fld := ⟨0x19C0000, 0x10, 0, 0, 16, 32, .rw, 0⟩
/-- `HEP_WIN_A.LIMIT`, spec/09_saloa_memory_space.md. -/
def HEP_WIN_A.LIMIT : Fld := ⟨0x19C0000, 0x10, 0, 0, 48, 16, .rw, 0⟩
/-- `HEP_WIN_B.TARGET`, spec/09_saloa_memory_space.md. -/
def HEP_WIN_B.TARGET : Fld := ⟨0x19C0008, 0x10, 0, 0, 12, 44, .rw, 0⟩
/-- `HEP_WIN_B.TARGET_HI`, spec/09_saloa_memory_space.md. -/
def HEP_WIN_B.TARGET_HI : Fld := ⟨0x19C0008, 0x10, 0, 0, 56, 8, .rw, 0⟩
/-- `HEP_WIN_STATUS.REFUSED`, spec/09_saloa_memory_space.md. -/
def HEP_WIN_STATUS.REFUSED : Fld := ⟨0x19D0000, 0, 0, 0, 0, 1, .w1c, 0⟩
/-- `HEP_WIN_STATUS.LAST_REFUSED`, spec/09_saloa_memory_space.md. -/
def HEP_WIN_STATUS.LAST_REFUSED : Fld := ⟨0x19D0000, 0, 0, 0, 8, 8, .ro, 0⟩
/-- `HEP_WIN_FENCE.WINDOW`, spec/09_saloa_memory_space.md. -/
def HEP_WIN_FENCE.WINDOW : Fld := ⟨0x19D0008, 0, 0, 0, 0, 8, .rw, 0⟩
/-- `HEP_WIN_FENCE.START`, spec/09_saloa_memory_space.md. -/
def HEP_WIN_FENCE.START : Fld := ⟨0x19D0008, 0, 0, 0, 8, 1, .wo, 0⟩
/-- `HEP_WIN_FENCE.BUSY`, spec/09_saloa_memory_space.md. -/
def HEP_WIN_FENCE.BUSY : Fld := ⟨0x19D0008, 0, 0, 0, 9, 1, .ro, 0⟩
/-- `GLD_SQ_BASE.LOC`, spec/13_glades_instances.md. -/
def GLD_SQ_BASE.LOC : Fld := ⟨0x1A00000, 0, 0, 0, 0, 1, .rw, 0⟩
/-- `GLD_SQ_BASE.ADDR`, spec/13_glades_instances.md. -/
def GLD_SQ_BASE.ADDR : Fld := ⟨0x1A00000, 0, 0, 0, 6, 58, .rw, 0⟩
/-- `GLD_SQ_CBASE.LOC`, spec/13_glades_instances.md. -/
def GLD_SQ_CBASE.LOC : Fld := ⟨0x1A00008, 0, 0, 0, 0, 1, .rw, 0⟩
/-- `GLD_SQ_CBASE.ADDR`, spec/13_glades_instances.md. -/
def GLD_SQ_CBASE.ADDR : Fld := ⟨0x1A00008, 0, 0, 0, 6, 58, .rw, 0⟩
/-- `GLD_SQ_CTRL.ENABLE`, spec/13_glades_instances.md. -/
def GLD_SQ_CTRL.ENABLE : Fld := ⟨0x1A00010, 0, 0, 0, 0, 1, .rw, 0⟩
/-- `GLD_SQ_CTRL.LOG2SIZE`, spec/13_glades_instances.md. -/
def GLD_SQ_CTRL.LOG2SIZE : Fld := ⟨0x1A00010, 0, 0, 0, 1, 4, .rw, 4⟩
/-- `GLD_SQ_CTRL.VECTOR`, spec/13_glades_instances.md. -/
def GLD_SQ_CTRL.VECTOR : Fld := ⟨0x1A00010, 0, 0, 0, 5, 11, .rw, 0⟩
/-- `GLD_SQ_TAIL.TAIL`, spec/13_glades_instances.md. -/
def GLD_SQ_TAIL.TAIL : Fld := ⟨0x1A00018, 0, 0, 0, 0, 12, .rw, 0⟩
/-- `GLD_SQ_STATUS.HEAD`, spec/13_glades_instances.md. -/
def GLD_SQ_STATUS.HEAD : Fld := ⟨0x1A00020, 0, 0, 0, 0, 12, .ro, 0⟩
/-- `GLD_SQ_STATUS.PHASE`, spec/13_glades_instances.md. -/
def GLD_SQ_STATUS.PHASE : Fld := ⟨0x1A00020, 0, 0, 0, 12, 1, .ro, 1⟩
/-- `GLD_SQ_STATUS.TAIL_REFUSED`, spec/13_glades_instances.md. -/
def GLD_SQ_STATUS.TAIL_REFUSED : Fld := ⟨0x1A00020, 0, 0, 0, 13, 1, .w1c, 0⟩
/-- `GLD_SQ_STATUS.LAST_STATUS`, spec/13_glades_instances.md. -/
def GLD_SQ_STATUS.LAST_STATUS : Fld := ⟨0x1A00020, 0, 0, 0, 14, 8, .ro, 0⟩
/-- `GLD_POOL_A.INSTANCES`, spec/13_glades_instances.md. -/
def GLD_POOL_A.INSTANCES : Fld := ⟨0x1A00040, 0, 0, 0, 0, 13, .ro, 0⟩
/-- `GLD_POOL_A.TILES`, spec/13_glades_instances.md. -/
def GLD_POOL_A.TILES : Fld := ⟨0x1A00040, 0, 0, 0, 13, 7, .ro, 0⟩
/-- `GLD_POOL_A.CORES`, spec/13_glades_instances.md. -/
def GLD_POOL_A.CORES : Fld := ⟨0x1A00040, 0, 0, 0, 20, 9, .ro, 0⟩
/-- `GLD_POOL_A.DRAM`, spec/13_glades_instances.md. -/
def GLD_POOL_A.DRAM : Fld := ⟨0x1A00040, 0, 0, 0, 29, 17, .ro, 0⟩
/-- `GLD_POOL_A.OVERCOMMIT`, spec/13_glades_instances.md. -/
def GLD_POOL_A.OVERCOMMIT : Fld := ⟨0x1A00040, 0, 0, 0, 46, 1, .ro, 0⟩
/-- `GLD_POOL_B.CTX`, spec/13_glades_instances.md. -/
def GLD_POOL_B.CTX : Fld := ⟨0x1A00048, 0, 0, 0, 0, 19, .ro, 0⟩
/-- `GLD_POOL_B.KEYS`, spec/13_glades_instances.md. -/
def GLD_POOL_B.KEYS : Fld := ⟨0x1A00048, 0, 0, 0, 19, 17, .ro, 0⟩
/-- `GLD_POOL_B.STQ`, spec/13_glades_instances.md. -/
def GLD_POOL_B.STQ : Fld := ⟨0x1A00048, 0, 0, 0, 36, 14, .ro, 0⟩
/-- `GLD_DEFAULT_A.INSTANCES`, spec/13_glades_instances.md: reset from Lyras image. -/
def GLD_DEFAULT_A.INSTANCES : Fld := ⟨0x1A00060, 0, 0, 0, 0, 13, .rw, 0⟩
/-- `GLD_DEFAULT_A.TILES`, spec/13_glades_instances.md: reset from Lyras image. -/
def GLD_DEFAULT_A.TILES : Fld := ⟨0x1A00060, 0, 0, 0, 13, 7, .rw, 0⟩
/-- `GLD_DEFAULT_A.CORES`, spec/13_glades_instances.md: reset from Lyras image. -/
def GLD_DEFAULT_A.CORES : Fld := ⟨0x1A00060, 0, 0, 0, 20, 9, .rw, 0⟩
/-- `GLD_DEFAULT_A.DRAM`, spec/13_glades_instances.md: reset from Lyras image. -/
def GLD_DEFAULT_A.DRAM : Fld := ⟨0x1A00060, 0, 0, 0, 29, 17, .rw, 0⟩
/-- `GLD_DEFAULT_B.CTX`, spec/13_glades_instances.md: reset from Lyras image. -/
def GLD_DEFAULT_B.CTX : Fld := ⟨0x1A00068, 0, 0, 0, 0, 19, .rw, 0⟩
/-- `GLD_DEFAULT_B.KEYS`, spec/13_glades_instances.md: reset from Lyras image. -/
def GLD_DEFAULT_B.KEYS : Fld := ⟨0x1A00068, 0, 0, 0, 19, 17, .rw, 0⟩
/-- `GLD_DEFAULT_B.STQ`, spec/13_glades_instances.md: reset from Lyras image. -/
def GLD_DEFAULT_B.STQ : Fld := ⟨0x1A00068, 0, 0, 0, 36, 14, .rw, 0⟩
/-- `GLD_QUOTA_A.INSTANCES`, spec/13_glades_instances.md. -/
def GLD_QUOTA_A.INSTANCES : Fld := ⟨0x1A01000, 0x20, 0, 0, 0, 13, .ro, 0⟩
/-- `GLD_QUOTA_A.TILES`, spec/13_glades_instances.md. -/
def GLD_QUOTA_A.TILES : Fld := ⟨0x1A01000, 0x20, 0, 0, 13, 7, .ro, 0⟩
/-- `GLD_QUOTA_A.CORES`, spec/13_glades_instances.md. -/
def GLD_QUOTA_A.CORES : Fld := ⟨0x1A01000, 0x20, 0, 0, 20, 9, .ro, 0⟩
/-- `GLD_QUOTA_A.DRAM`, spec/13_glades_instances.md. -/
def GLD_QUOTA_A.DRAM : Fld := ⟨0x1A01000, 0x20, 0, 0, 29, 17, .ro, 0⟩
/-- `GLD_QUOTA_A.EXISTS`, spec/13_glades_instances.md. -/
def GLD_QUOTA_A.EXISTS : Fld := ⟨0x1A01000, 0x20, 0, 0, 46, 1, .ro, 0⟩
/-- `GLD_QUOTA_B.CTX`, spec/13_glades_instances.md. -/
def GLD_QUOTA_B.CTX : Fld := ⟨0x1A01008, 0x20, 0, 0, 0, 19, .ro, 0⟩
/-- `GLD_QUOTA_B.KEYS`, spec/13_glades_instances.md. -/
def GLD_QUOTA_B.KEYS : Fld := ⟨0x1A01008, 0x20, 0, 0, 19, 17, .ro, 0⟩
/-- `GLD_QUOTA_B.STQ`, spec/13_glades_instances.md. -/
def GLD_QUOTA_B.STQ : Fld := ⟨0x1A01008, 0x20, 0, 0, 36, 14, .ro, 0⟩
/-- `GLD_USE_A.INSTANCES`, spec/13_glades_instances.md. -/
def GLD_USE_A.INSTANCES : Fld := ⟨0x1A01010, 0x20, 0, 0, 0, 13, .ro, 0⟩
/-- `GLD_USE_A.TILES`, spec/13_glades_instances.md. -/
def GLD_USE_A.TILES : Fld := ⟨0x1A01010, 0x20, 0, 0, 13, 7, .ro, 0⟩
/-- `GLD_USE_A.CORES`, spec/13_glades_instances.md. -/
def GLD_USE_A.CORES : Fld := ⟨0x1A01010, 0x20, 0, 0, 20, 9, .ro, 0⟩
/-- `GLD_USE_A.DRAM`, spec/13_glades_instances.md. -/
def GLD_USE_A.DRAM : Fld := ⟨0x1A01010, 0x20, 0, 0, 29, 17, .ro, 0⟩
/-- `GLD_USE_B.CTX`, spec/13_glades_instances.md. -/
def GLD_USE_B.CTX : Fld := ⟨0x1A01018, 0x20, 0, 0, 0, 19, .ro, 0⟩
/-- `GLD_USE_B.KEYS`, spec/13_glades_instances.md. -/
def GLD_USE_B.KEYS : Fld := ⟨0x1A01018, 0x20, 0, 0, 19, 17, .ro, 0⟩
/-- `GLD_USE_B.STQ`, spec/13_glades_instances.md. -/
def GLD_USE_B.STQ : Fld := ⟨0x1A01018, 0x20, 0, 0, 36, 14, .ro, 0⟩
/-- `GLD_INST.VALID`, spec/13_glades_instances.md. -/
def GLD_INST.VALID : Fld := ⟨0x1A10000, 8, 0, 0, 0, 1, .ro, 0⟩
/-- `GLD_INST.PORT`, spec/13_glades_instances.md. -/
def GLD_INST.PORT : Fld := ⟨0x1A10000, 8, 0, 0, 1, 1, .ro, 0⟩
/-- `GLD_INST.PASID_EN`, spec/13_glades_instances.md. -/
def GLD_INST.PASID_EN : Fld := ⟨0x1A10000, 8, 0, 0, 2, 1, .ro, 0⟩
/-- `GLD_INST.GLADE`, spec/13_glades_instances.md. -/
def GLD_INST.GLADE : Fld := ⟨0x1A10000, 8, 0, 0, 8, 8, .ro, 0⟩
/-- `GLD_INST.PASID`, spec/13_glades_instances.md. -/
def GLD_INST.PASID : Fld := ⟨0x1A10000, 8, 0, 0, 16, 20, .ro, 0⟩
/-- `GLD_INST.GEN`, spec/13_glades_instances.md. -/
def GLD_INST.GEN : Fld := ⟨0x1A10000, 8, 0, 0, 36, 16, .ro, 0⟩
/-- `GLD_INST.RESETTING`, spec/13_glades_instances.md. -/
def GLD_INST.RESETTING : Fld := ⟨0x1A10000, 8, 0, 0, 52, 1, .ro, 0⟩
/-- `GLD_INST.STQ`, spec/13_glades_instances.md. -/
def GLD_INST.STQ : Fld := ⟨0x1A10000, 8, 0, 0, 53, 7, .ro, 0⟩
/-- `GLD_STALE_CNT.COUNT`, spec/13_glades_instances.md. -/
def GLD_STALE_CNT.COUNT : Fld := ⟨0x1A20000, 0, 0, 0, 0, 64, .ro, 0⟩
/-- `GLD_DB_DROP.COUNT`, spec/13_glades_instances.md. -/
def GLD_DB_DROP.COUNT : Fld := ⟨0x1A20008, 0, 0, 0, 0, 64, .ro, 0⟩
/-- `STQ_CFG.SVC_TIMEOUT_MS`, spec/14_storage_queues.md. -/
def STQ_CFG.SVC_TIMEOUT_MS : Fld := ⟨0x1C00000, 0, 0, 0, 0, 16, .rw, 0x1388⟩
/-- `STQ_CFG.DRAIN_MS`, spec/14_storage_queues.md. -/
def STQ_CFG.DRAIN_MS : Fld := ⟨0x1C00000, 0, 0, 0, 16, 16, .rw, 0x64⟩
/-- `STQ_STATUS.QUEUES`, spec/14_storage_queues.md. -/
def STQ_STATUS.QUEUES : Fld := ⟨0x1C00008, 0, 0, 0, 0, 14, .ro, 0⟩
/-- `STQ_STATUS.VOL_REFUSED`, spec/14_storage_queues.md. -/
def STQ_STATUS.VOL_REFUSED : Fld := ⟨0x1C00008, 0, 0, 0, 14, 1, .w1c, 0⟩
/-- `STQ_STATUS.STAGE_REFUSED`, spec/14_storage_queues.md. -/
def STQ_STATUS.STAGE_REFUSED : Fld := ⟨0x1C00008, 0, 0, 0, 15, 1, .w1c, 0⟩
/-- `STQ_GLADE_A.ENABLE`, spec/14_storage_queues.md. -/
def STQ_GLADE_A.ENABLE : Fld := ⟨0x1C01000, 0x10, 0, 0, 0, 1, .rw, 0⟩
/-- `STQ_GLADE_A.STAGE_RGN`, spec/14_storage_queues.md. -/
def STQ_GLADE_A.STAGE_RGN : Fld := ⟨0x1C01000, 0x10, 0, 0, 1, 10, .rw, 0⟩
/-- `STQ_GLADE_A.STAGE_KEY`, spec/14_storage_queues.md. -/
def STQ_GLADE_A.STAGE_KEY : Fld := ⟨0x1C01000, 0x10, 0, 0, 32, 32, .rw, 0⟩
/-- `STQ_GLADE_B.REPLY_Q`, spec/14_storage_queues.md. -/
def STQ_GLADE_B.REPLY_Q : Fld := ⟨0x1C01008, 0x10, 0, 0, 0, 16, .rw, 0⟩
/-- `STQ_GLADE_B.SLOTS`, spec/14_storage_queues.md. -/
def STQ_GLADE_B.SLOTS : Fld := ⟨0x1C01008, 0x10, 0, 0, 16, 16, .ro, 0⟩
/-- `STQ_GLADE_B.SLOTS_BUSY`, spec/14_storage_queues.md. -/
def STQ_GLADE_B.SLOTS_BUSY : Fld := ⟨0x1C01008, 0x10, 0, 0, 32, 16, .ro, 0⟩
/-- `STQ_VOL_A.VALID`, spec/14_storage_queues.md. -/
def STQ_VOL_A.VALID : Fld := ⟨0x1C10000, 0x20, 0, 0, 0, 1, .rw, 0⟩
/-- `STQ_VOL_A.BACKEND`, spec/14_storage_queues.md. -/
def STQ_VOL_A.BACKEND : Fld := ⟨0x1C10000, 0x20, 0, 0, 1, 1, .rw, 0⟩
/-- `STQ_VOL_A.BS`, spec/14_storage_queues.md. -/
def STQ_VOL_A.BS : Fld := ⟨0x1C10000, 0x20, 0, 0, 2, 1, .rw, 0⟩
/-- `STQ_VOL_A.READ_ONLY`, spec/14_storage_queues.md. -/
def STQ_VOL_A.READ_ONLY : Fld := ⟨0x1C10000, 0x20, 0, 0, 3, 1, .rw, 0⟩
/-- `STQ_VOL_A.ENCRYPT`, spec/14_storage_queues.md. -/
def STQ_VOL_A.ENCRYPT : Fld := ⟨0x1C10000, 0x20, 0, 0, 4, 1, .rw, 0⟩
/-- `STQ_VOL_A.GLADE`, spec/14_storage_queues.md. -/
def STQ_VOL_A.GLADE : Fld := ⟨0x1C10000, 0x20, 0, 0, 8, 8, .rw, 0⟩
/-- `STQ_VOL_A.KEY_SLOT`, spec/14_storage_queues.md. -/
def STQ_VOL_A.KEY_SLOT : Fld := ⟨0x1C10000, 0x20, 0, 0, 16, 16, .rw, 0⟩
/-- `STQ_VOL_A.DEVNUM`, spec/14_storage_queues.md. -/
def STQ_VOL_A.DEVNUM : Fld := ⟨0x1C10000, 0x20, 0, 0, 32, 16, .rw, 0⟩
/-- `STQ_VOL_B.TARGET`, spec/14_storage_queues.md. -/
def STQ_VOL_B.TARGET : Fld := ⟨0x1C10008, 0x20, 0, 0, 0, 20, .rw, 0⟩
/-- `STQ_VOL_B.SVOL`, spec/14_storage_queues.md. -/
def STQ_VOL_B.SVOL : Fld := ⟨0x1C10008, 0x20, 0, 0, 32, 32, .rw, 0⟩
/-- `STQ_VOL_C.CAPACITY`, spec/14_storage_queues.md. -/
def STQ_VOL_C.CAPACITY : Fld := ⟨0x1C10010, 0x20, 0, 0, 0, 48, .rw, 0⟩
/-- `STQ_VOL_D.TWEAK_BASE`, spec/14_storage_queues.md. -/
def STQ_VOL_D.TWEAK_BASE : Fld := ⟨0x1C10018, 0x20, 0, 0, 0, 64, .rw, 0⟩
/-- `STQ_Q.VALID`, spec/14_storage_queues.md. -/
def STQ_Q.VALID : Fld := ⟨0x1C40000, 8, 0, 0, 0, 1, .ro, 0⟩
/-- `STQ_Q.ADMIN`, spec/14_storage_queues.md. -/
def STQ_Q.ADMIN : Fld := ⟨0x1C40000, 8, 0, 0, 1, 1, .ro, 0⟩
/-- `STQ_Q.STATE`, spec/14_storage_queues.md. -/
def STQ_Q.STATE : Fld := ⟨0x1C40000, 8, 0, 0, 2, 2, .ro, 0⟩
/-- `STQ_Q.CLUSTER`, spec/14_storage_queues.md. -/
def STQ_Q.CLUSTER : Fld := ⟨0x1C40000, 8, 0, 0, 4, 4, .ro, 0⟩
/-- `STQ_Q.OWNER`, spec/14_storage_queues.md. -/
def STQ_Q.OWNER : Fld := ⟨0x1C40000, 8, 0, 0, 8, 12, .ro, 0⟩
/-- `STQ_Q.BUSY_TAGS`, spec/14_storage_queues.md. -/
def STQ_Q.BUSY_TAGS : Fld := ⟨0x1C40000, 8, 0, 0, 20, 6, .ro, 0⟩
/-- `STQ_CNT.COUNT`, spec/14_storage_queues.md. -/
def STQ_CNT.COUNT : Fld := ⟨0x1C60000, 8, 0, 0, 0, 64, .ro, 0⟩
/-- `SEC_STATUS.IDENTITY_OK`, spec/15_security.md. -/
def SEC_STATUS.IDENTITY_OK : Fld := ⟨0x1E00000, 0, 0, 0, 0, 1, .ro, 0⟩
/-- `SEC_STATUS.OWNER_KEYS`, spec/15_security.md. -/
def SEC_STATUS.OWNER_KEYS : Fld := ⟨0x1E00000, 0, 0, 0, 1, 4, .ro, 0⟩
/-- `SEC_STATUS.OWNER_BAD`, spec/15_security.md. -/
def SEC_STATUS.OWNER_BAD : Fld := ⟨0x1E00000, 0, 0, 0, 5, 1, .ro, 0⟩
/-- `SEC_STATUS.DEBUG_MGMT`, spec/15_security.md. -/
def SEC_STATUS.DEBUG_MGMT : Fld := ⟨0x1E00000, 0, 0, 0, 6, 1, .ro, 0⟩
/-- `SEC_IDENT_PUB.BYTES`, spec/15_security.md. -/
def SEC_IDENT_PUB.BYTES : Fld := ⟨0x1E00100, 8, 0, 0, 0, 64, .ro, 0⟩
/-- `SEC_IDENT_CERT.BYTES`, spec/15_security.md. -/
def SEC_IDENT_CERT.BYTES : Fld := ⟨0x1E00200, 8, 0, 0, 0, 64, .ro, 0⟩
/-- `SEC_ROLLBACK.MIN_SVN`, spec/15_security.md: reset from Flash counter. -/
def SEC_ROLLBACK.MIN_SVN : Fld := ⟨0x1E00300, 0, 0, 0, 0, 32, .ro, 0⟩
/-- `SEC_ROLLBACK.BASIS`, spec/15_security.md. -/
def SEC_ROLLBACK.BASIS : Fld := ⟨0x1E00300, 0, 0, 0, 32, 1, .ro, 0⟩
/-- `SEC_ROLLBACK.ADVANCE`, spec/15_security.md. -/
def SEC_ROLLBACK.ADVANCE : Fld := ⟨0x1E00300, 0, 0, 0, 33, 1, .wo, 0⟩
/-- `SEC_ROLLBACK.ADV_STATUS`, spec/15_security.md. -/
def SEC_ROLLBACK.ADV_STATUS : Fld := ⟨0x1E00300, 0, 0, 0, 34, 8, .ro, 0⟩
/-- `SEC_ATT_CTRL.GLADE`, spec/15_security.md. -/
def SEC_ATT_CTRL.GLADE : Fld := ⟨0x1E00400, 0, 0, 0, 0, 8, .rw, 0⟩
/-- `SEC_ATT_CTRL.START`, spec/15_security.md. -/
def SEC_ATT_CTRL.START : Fld := ⟨0x1E00400, 0, 0, 0, 8, 1, .wo, 0⟩
/-- `SEC_ATT_CTRL.BUSY`, spec/15_security.md. -/
def SEC_ATT_CTRL.BUSY : Fld := ⟨0x1E00400, 0, 0, 0, 9, 1, .ro, 0⟩
/-- `SEC_ATT_CTRL.STATUS`, spec/15_security.md. -/
def SEC_ATT_CTRL.STATUS : Fld := ⟨0x1E00400, 0, 0, 0, 10, 8, .ro, 0⟩
/-- `SEC_ATT_NONCE.BYTES`, spec/15_security.md. -/
def SEC_ATT_NONCE.BYTES : Fld := ⟨0x1E00440, 8, 0, 0, 0, 64, .rw, 0⟩
/-- `SEC_ATT_REPORT.BYTES`, spec/15_security.md. -/
def SEC_ATT_REPORT.BYTES : Fld := ⟨0x1E00800, 8, 0, 0, 0, 64, .ro, 0⟩
/-- `SEC_GLADE_MEAS.BYTES`, spec/15_security.md. -/
def SEC_GLADE_MEAS.BYTES : Fld := ⟨0x1E04000, 8, 0, 0, 0, 64, .ro, 0⟩
/-- `SEC_KEY_DATA.BYTES`, spec/15_security.md. -/
def SEC_KEY_DATA.BYTES : Fld := ⟨0x1E10000, 8, 0, 0, 0, 64, .wo, 0⟩
/-- `SEC_KEY_CMD.OP`, spec/15_security.md. -/
def SEC_KEY_CMD.OP : Fld := ⟨0x1E10100, 0, 0, 0, 0, 3, .rw, 0⟩
/-- `SEC_KEY_CMD.TYPE`, spec/15_security.md. -/
def SEC_KEY_CMD.TYPE : Fld := ⟨0x1E10100, 0, 0, 0, 3, 2, .rw, 0⟩
/-- `SEC_KEY_CMD.GLADE`, spec/15_security.md. -/
def SEC_KEY_CMD.GLADE : Fld := ⟨0x1E10100, 0, 0, 0, 8, 8, .rw, 0⟩
/-- `SEC_KEY_CMD.SLOT`, spec/15_security.md. -/
def SEC_KEY_CMD.SLOT : Fld := ⟨0x1E10100, 0, 0, 0, 16, 16, .rw, 0⟩
/-- `SEC_KEY_CMD.KEK`, spec/15_security.md. -/
def SEC_KEY_CMD.KEK : Fld := ⟨0x1E10100, 0, 0, 0, 32, 16, .rw, 0⟩
/-- `SEC_KEY_CMD.START`, spec/15_security.md. -/
def SEC_KEY_CMD.START : Fld := ⟨0x1E10100, 0, 0, 0, 48, 1, .wo, 0⟩
/-- `SEC_KEY_CMD.BUSY`, spec/15_security.md. -/
def SEC_KEY_CMD.BUSY : Fld := ⟨0x1E10100, 0, 0, 0, 49, 1, .ro, 0⟩
/-- `SEC_KEY_CMD.STATUS`, spec/15_security.md. -/
def SEC_KEY_CMD.STATUS : Fld := ⟨0x1E10100, 0, 0, 0, 50, 8, .ro, 0⟩
/-- `SEC_KEY_SLOT.TYPE`, spec/15_security.md. -/
def SEC_KEY_SLOT.TYPE : Fld := ⟨0x1E20000, 8, 0, 0, 0, 2, .ro, 0⟩
/-- `SEC_KEY_SLOT.GLADE`, spec/15_security.md. -/
def SEC_KEY_SLOT.GLADE : Fld := ⟨0x1E20000, 8, 0, 0, 2, 8, .ro, 0⟩
/-- `SEC_FAB_GRP_A.LO`, spec/15_security.md. -/
def SEC_FAB_GRP_A.LO : Fld := ⟨0x1EA0000, 0x10, 0, 0, 0, 16, .rw, 0⟩
/-- `SEC_FAB_GRP_A.HI`, spec/15_security.md. -/
def SEC_FAB_GRP_A.HI : Fld := ⟨0x1EA0000, 0x10, 0, 0, 16, 16, .rw, 0⟩
/-- `SEC_FAB_GRP_A.VALID`, spec/15_security.md. -/
def SEC_FAB_GRP_A.VALID : Fld := ⟨0x1EA0000, 0x10, 0, 0, 32, 1, .rw, 0⟩
/-- `SEC_FAB_GRP_A.TX_SEL`, spec/15_security.md. -/
def SEC_FAB_GRP_A.TX_SEL : Fld := ⟨0x1EA0000, 0x10, 0, 0, 33, 1, .rw, 0⟩
/-- `SEC_FAB_GRP_B.SLOT0`, spec/15_security.md. -/
def SEC_FAB_GRP_B.SLOT0 : Fld := ⟨0x1EA0008, 0x10, 0, 0, 0, 16, .rw, 0⟩
/-- `SEC_FAB_GRP_B.SLOT1`, spec/15_security.md. -/
def SEC_FAB_GRP_B.SLOT1 : Fld := ⟨0x1EA0008, 0x10, 0, 0, 16, 16, .rw, 0⟩
/-- `SEC_SEAL_LOCK.TOKEN`, spec/15_security.md. -/
def SEC_SEAL_LOCK.TOKEN : Fld := ⟨0x1EC0000, 0, 0, 0, 0, 16, .rw, 0⟩
/-- `SEC_SEAL_LOCK.RELEASE`, spec/15_security.md. -/
def SEC_SEAL_LOCK.RELEASE : Fld := ⟨0x1EC0000, 0, 0, 0, 16, 1, .wo, 0⟩
/-- `SEC_SEAL_LOCK.HELD`, spec/15_security.md. -/
def SEC_SEAL_LOCK.HELD : Fld := ⟨0x1EC0000, 0, 0, 0, 17, 1, .ro, 0⟩
/-- `SEC_SEAL_KEY.BYTES`, spec/15_security.md. -/
def SEC_SEAL_KEY.BYTES : Fld := ⟨0x1EC0010, 8, 0, 0, 0, 64, .wo, 0⟩
/-- `SEC_SEAL_CTRL.SLOT`, spec/15_security.md. -/
def SEC_SEAL_CTRL.SLOT : Fld := ⟨0x1EC0040, 0, 0, 0, 0, 4, .rw, 0⟩
/-- `SEC_SEAL_CTRL.MODE`, spec/15_security.md. -/
def SEC_SEAL_CTRL.MODE : Fld := ⟨0x1EC0040, 0, 0, 0, 4, 2, .rw, 0⟩
/-- `SEC_SEAL_CTRL.MORE`, spec/15_security.md. -/
def SEC_SEAL_CTRL.MORE : Fld := ⟨0x1EC0040, 0, 0, 0, 6, 1, .rw, 0⟩
/-- `SEC_SEAL_CTRL.REPLAY`, spec/15_security.md. -/
def SEC_SEAL_CTRL.REPLAY : Fld := ⟨0x1EC0040, 0, 0, 0, 7, 1, .rw, 0⟩
/-- `SEC_SEAL_CTRL.LEN`, spec/15_security.md. -/
def SEC_SEAL_CTRL.LEN : Fld := ⟨0x1EC0040, 0, 0, 0, 8, 13, .rw, 0⟩
/-- `SEC_SEAL_CTRL.START`, spec/15_security.md. -/
def SEC_SEAL_CTRL.START : Fld := ⟨0x1EC0040, 0, 0, 0, 21, 1, .wo, 0⟩
/-- `SEC_SEAL_CTRL.BUSY`, spec/15_security.md. -/
def SEC_SEAL_CTRL.BUSY : Fld := ⟨0x1EC0040, 0, 0, 0, 22, 1, .ro, 0⟩
/-- `SEC_SEAL_CTRL.STATUS`, spec/15_security.md. -/
def SEC_SEAL_CTRL.STATUS : Fld := ⟨0x1EC0040, 0, 0, 0, 23, 8, .ro, 0⟩
/-- `SEC_SEAL_CTRL.MATCH`, spec/15_security.md. -/
def SEC_SEAL_CTRL.MATCH : Fld := ⟨0x1EC0040, 0, 0, 0, 31, 1, .ro, 0⟩
/-- `SEC_SEAL_CTRL.TOKEN`, spec/15_security.md. -/
def SEC_SEAL_CTRL.TOKEN : Fld := ⟨0x1EC0040, 0, 0, 0, 48, 16, .rw, 0⟩
/-- `SEC_SEAL_CTR.VALUE`, spec/15_security.md. -/
def SEC_SEAL_CTR.VALUE : Fld := ⟨0x1EC0048, 0, 0, 0, 0, 64, .rw, 0⟩
/-- `SEC_SEAL_TAG.VALUE`, spec/15_security.md. -/
def SEC_SEAL_TAG.VALUE : Fld := ⟨0x1EC0050, 8, 0, 0, 0, 64, .rw, 0⟩
/-- `SEC_SEAL_SLOTCTR.VALUE`, spec/15_security.md. -/
def SEC_SEAL_SLOTCTR.VALUE : Fld := ⟨0x1EC0080, 8, 0, 0, 0, 64, .ro, 0⟩
/-- `SEC_SEAL_WATER.VALUE`, spec/15_security.md. -/
def SEC_SEAL_WATER.VALUE : Fld := ⟨0x1EC0100, 8, 0, 0, 0, 64, .ro, 0⟩
/-- `SEC_DEBUG.MGMT_OK`, spec/15_security.md. -/
def SEC_DEBUG.MGMT_OK : Fld := ⟨0x1EE0000, 0, 0, 0, 0, 1, .rwl, 0⟩
/-- `SEC_DEBUG.GLADE_OK`, spec/15_security.md. -/
def SEC_DEBUG.GLADE_OK : Fld := ⟨0x1EE0000, 0, 0, 0, 1, 1, .rwl, 0⟩
/-- `SEC_DEBUG.LOCK`, spec/15_security.md. -/
def SEC_DEBUG.LOCK : Fld := ⟨0x1EE0000, 0, 0, 0, 2, 1, .w1s, 0⟩
/-- `CKP_CFG.COPY_GBPS`, spec/16_growth_rings.md. -/
def CKP_CFG.COPY_GBPS : Fld := ⟨0x2000000, 0, 0, 0, 0, 11, .rw, 0x1F4⟩
/-- `CKP_STATUS.GRP_REFUSED`, spec/16_growth_rings.md. -/
def CKP_STATUS.GRP_REFUSED : Fld := ⟨0x2000008, 0, 0, 0, 0, 1, .w1c, 0⟩
/-- `CKP_GRP_A.VALID`, spec/16_growth_rings.md. -/
def CKP_GRP_A.VALID : Fld := ⟨0x2001000, 0x10, 0, 0, 0, 1, .rw, 0⟩
/-- `CKP_GRP_A.GLADE`, spec/16_growth_rings.md. -/
def CKP_GRP_A.GLADE : Fld := ⟨0x2001000, 0x10, 0, 0, 8, 8, .rw, 0⟩
/-- `CKP_GRP_A.QUEUE`, spec/16_growth_rings.md. -/
def CKP_GRP_A.QUEUE : Fld := ⟨0x2001000, 0x10, 0, 0, 16, 8, .rw, 0⟩
/-- `CKP_GRP_A.MEMBERS`, spec/16_growth_rings.md. -/
def CKP_GRP_A.MEMBERS : Fld := ⟨0x2001000, 0x10, 0, 0, 24, 6, .rw, 0⟩
/-- `CKP_GRP_A.PARITY`, spec/16_growth_rings.md. -/
def CKP_GRP_A.PARITY : Fld := ⟨0x2001000, 0x10, 0, 0, 30, 2, .rw, 1⟩
/-- `CKP_GRP_A.SELF`, spec/16_growth_rings.md. -/
def CKP_GRP_A.SELF : Fld := ⟨0x2001000, 0x10, 0, 0, 32, 5, .rw, 0⟩
/-- `CKP_GRP_A.RESERVE`, spec/16_growth_rings.md. -/
def CKP_GRP_A.RESERVE : Fld := ⟨0x2001000, 0x10, 0, 0, 40, 10, .rw, 0⟩
/-- `CKP_GRP_A.SEAL_SLOT`, spec/16_growth_rings.md. -/
def CKP_GRP_A.SEAL_SLOT : Fld := ⟨0x2001000, 0x10, 0, 0, 50, 4, .rw, 0⟩
/-- `CKP_GRP_B.JOB`, spec/16_growth_rings.md. -/
def CKP_GRP_B.JOB : Fld := ⟨0x2001008, 0x10, 0, 0, 0, 32, .rw, 0⟩
/-- `CKP_GRP_B.PUSH_MIB`, spec/16_growth_rings.md. -/
def CKP_GRP_B.PUSH_MIB : Fld := ⟨0x2001008, 0x10, 0, 0, 32, 16, .rw, 0⟩
/-- `CKP_MEMBER.DEVNUM`, spec/16_growth_rings.md. -/
def CKP_MEMBER.DEVNUM : Fld := ⟨0x2002000, 8, 0, 0, 0, 16, .rw, 0⟩
/-- `CKP_MEMBER.RKEY`, spec/16_growth_rings.md. -/
def CKP_MEMBER.RKEY : Fld := ⟨0x2002000, 8, 0, 0, 16, 32, .rw, 0⟩
/-- `CKP_RING_A.STATE`, spec/16_growth_rings.md. -/
def CKP_RING_A.STATE : Fld := ⟨0x2004000, 0x10, 0, 0, 0, 3, .ro, 0⟩
/-- `CKP_RING_A.UNCOPIED`, spec/16_growth_rings.md. -/
def CKP_RING_A.UNCOPIED : Fld := ⟨0x2004000, 0x10, 0, 0, 8, 22, .ro, 0⟩
/-- `CKP_RING_STEP.STEP`, spec/16_growth_rings.md. -/
def CKP_RING_STEP.STEP : Fld := ⟨0x2004008, 0x10, 0, 0, 0, 64, .ro, 0⟩
/-- `CKP_CNT.COUNT`, spec/16_growth_rings.md. -/
def CKP_CNT.COUNT : Fld := ⟨0x2005000, 8, 0, 0, 0, 64, .ro, 0⟩
/-- `TWN_CFG.ENABLE`, spec/17_resilience_twin.md: reset from Lyras image. -/
def TWN_CFG.ENABLE : Fld := ⟨0x2200000, 0, 0, 0, 0, 1, .rwl, 0⟩
/-- `TWN_CFG.WITNESSES`, spec/17_resilience_twin.md: reset from Lyras image. -/
def TWN_CFG.WITNESSES : Fld := ⟨0x2200000, 0, 0, 0, 1, 2, .rwl, 0⟩
/-- `TWN_CFG.FAB_DEAD_MS`, spec/17_resilience_twin.md: reset from Lyras image; 0x05 with no section. -/
def TWN_CFG.FAB_DEAD_MS : Fld := ⟨0x2200000, 0, 0, 0, 8, 8, .rwl, 0⟩
/-- `TWN_CFG.GRANT_MS`, spec/17_resilience_twin.md: reset from Lyras image; 0x14 with no section. -/
def TWN_CFG.GRANT_MS : Fld := ⟨0x2200000, 0, 0, 0, 16, 8, .rwl, 0⟩
/-- `TWN_CFG.TWIN_DEV`, spec/17_resilience_twin.md: reset from Lyras image. -/
def TWN_CFG.TWIN_DEV : Fld := ⟨0x2200000, 0, 0, 0, 24, 16, .rwl, 0⟩
/-- `TWN_CFG.KEY_SLOT`, spec/17_resilience_twin.md: reset from Lyras image. -/
def TWN_CFG.KEY_SLOT : Fld := ⟨0x2200000, 0, 0, 0, 40, 16, .rwl, 0⟩
/-- `TWN_LOCK.LOCKED`, spec/17_resilience_twin.md: reset from Lyras image. -/
def TWN_LOCK.LOCKED : Fld := ⟨0x2200008, 0, 0, 0, 0, 1, .w1s, 0⟩
/-- `TWN_STATUS.STATE`, spec/17_resilience_twin.md. -/
def TWN_STATUS.STATE : Fld := ⟨0x2200010, 0, 0, 0, 0, 3, .ro, 0⟩
/-- `TWN_STATUS.PORT0_UP`, spec/17_resilience_twin.md. -/
def TWN_STATUS.PORT0_UP : Fld := ⟨0x2200010, 0, 0, 0, 3, 1, .ro, 0⟩
/-- `TWN_STATUS.PORT1_UP`, spec/17_resilience_twin.md. -/
def TWN_STATUS.PORT1_UP : Fld := ⟨0x2200010, 0, 0, 0, 4, 1, .ro, 0⟩
/-- `TWN_STATUS.FAB_ALIVE`, spec/17_resilience_twin.md. -/
def TWN_STATUS.FAB_ALIVE : Fld := ⟨0x2200010, 0, 0, 0, 5, 1, .ro, 0⟩
/-- `TWN_STATUS.EPOCH_WRONG`, spec/17_resilience_twin.md. -/
def TWN_STATUS.EPOCH_WRONG : Fld := ⟨0x2200010, 0, 0, 0, 6, 1, .w1c, 0⟩
/-- `TWN_STATUS.GRANTS`, spec/17_resilience_twin.md. -/
def TWN_STATUS.GRANTS : Fld := ⟨0x2200010, 0, 0, 0, 8, 2, .ro, 0⟩
/-- `TWN_STATUS.TWIN_STATE`, spec/17_resilience_twin.md. -/
def TWN_STATUS.TWIN_STATE : Fld := ⟨0x2200010, 0, 0, 0, 10, 3, .ro, 0⟩
/-- `TWN_STATUS.PAIR_EPOCH`, spec/17_resilience_twin.md. -/
def TWN_STATUS.PAIR_EPOCH : Fld := ⟨0x2200010, 0, 0, 0, 16, 16, .ro, 0⟩
/-- `TWN_CTRL.EPOCH`, spec/17_resilience_twin.md. -/
def TWN_CTRL.EPOCH : Fld := ⟨0x2200018, 0, 0, 0, 0, 16, .rw, 0⟩
/-- `TWN_CTRL.PAIR`, spec/17_resilience_twin.md. -/
def TWN_CTRL.PAIR : Fld := ⟨0x2200018, 0, 0, 0, 16, 1, .wo, 0⟩
/-- `TWN_WIT_ADDR.ADDR`, spec/17_resilience_twin.md: reset from Lyras image. -/
def TWN_WIT_ADDR.ADDR : Fld := ⟨0x2200020, 8, 0, 0, 0, 56, .rwl, 0⟩
/-- `TWN_WIT_KEY.KEY`, spec/17_resilience_twin.md: reset from Lyras image. -/
def TWN_WIT_KEY.KEY : Fld := ⟨0x2200040, 8, 0, 0, 0, 32, .rwl, 0⟩
/-- `TWN_SVC.UNIT`, spec/17_resilience_twin.md. -/
def TWN_SVC.UNIT : Fld := ⟨0x2200100, 0, 0, 0, 0, 16, .rw, 0⟩
/-- `TWN_SVC.ACTION`, spec/17_resilience_twin.md. -/
def TWN_SVC.ACTION : Fld := ⟨0x2200100, 0, 0, 0, 16, 2, .rw, 0⟩
/-- `TWN_SVC.FORCE`, spec/17_resilience_twin.md. -/
def TWN_SVC.FORCE : Fld := ⟨0x2200100, 0, 0, 0, 18, 1, .rw, 0⟩
/-- `TWN_SVC.START`, spec/17_resilience_twin.md. -/
def TWN_SVC.START : Fld := ⟨0x2200100, 0, 0, 0, 19, 1, .wo, 0⟩
/-- `TWN_SVC.BUSY`, spec/17_resilience_twin.md. -/
def TWN_SVC.BUSY : Fld := ⟨0x2200100, 0, 0, 0, 20, 1, .ro, 0⟩
/-- `TWN_SVC.RESULT`, spec/17_resilience_twin.md. -/
def TWN_SVC.RESULT : Fld := ⟨0x2200100, 0, 0, 0, 21, 3, .ro, 0⟩
/-- `TWN_CNT.COUNT`, spec/17_resilience_twin.md. -/
def TWN_CNT.COUNT : Fld := ⟨0x2201000, 8, 0, 0, 0, 64, .ro, 0⟩
/-- `TLM_TIME.NS`, spec/20_telemetry_counters.md. -/
def TLM_TIME.NS : Fld := ⟨0x2400000, 0, 0, 0, 0, 64, .ro, 0⟩
/-- `TLM_CTR_CMD.OFFSET`, spec/20_telemetry_counters.md. -/
def TLM_CTR_CMD.OFFSET : Fld := ⟨0x2400008, 0, 0, 0, 3, 23, .rw, 0⟩
/-- `TLM_CTR_CMD.OP`, spec/20_telemetry_counters.md. -/
def TLM_CTR_CMD.OP : Fld := ⟨0x2400008, 0, 0, 0, 26, 2, .rw, 0⟩
/-- `TLM_CTR_CMD.START`, spec/20_telemetry_counters.md. -/
def TLM_CTR_CMD.START : Fld := ⟨0x2400008, 0, 0, 0, 28, 1, .wo, 0⟩
/-- `TLM_CTR_CMD.BUSY`, spec/20_telemetry_counters.md. -/
def TLM_CTR_CMD.BUSY : Fld := ⟨0x2400008, 0, 0, 0, 29, 1, .ro, 0⟩
/-- `TLM_CTR_CMD.OVF`, spec/20_telemetry_counters.md. -/
def TLM_CTR_CMD.OVF : Fld := ⟨0x2400008, 0, 0, 0, 30, 1, .ro, 0⟩
/-- `TLM_CTR_CMD.NOT_COUNTER`, spec/20_telemetry_counters.md. -/
def TLM_CTR_CMD.NOT_COUNTER : Fld := ⟨0x2400008, 0, 0, 0, 31, 1, .ro, 0⟩
/-- `TLM_OVF_SUM.BLOCKS`, spec/20_telemetry_counters.md. -/
def TLM_OVF_SUM.BLOCKS : Fld := ⟨0x2400010, 0, 0, 0, 0, 19, .ro, 0⟩
/-- `TLM_STR_BASE.LOC`, spec/20_telemetry_counters.md. -/
def TLM_STR_BASE.LOC : Fld := ⟨0x2401000, 0x40, 0, 0, 0, 1, .rw, 0⟩
/-- `TLM_STR_BASE.ADDR`, spec/20_telemetry_counters.md. -/
def TLM_STR_BASE.ADDR : Fld := ⟨0x2401000, 0x40, 0, 0, 6, 58, .rw, 0⟩
/-- `TLM_STR_CFG.ENABLE`, spec/20_telemetry_counters.md. -/
def TLM_STR_CFG.ENABLE : Fld := ⟨0x2401008, 0x40, 0, 0, 0, 1, .rw, 0⟩
/-- `TLM_STR_CFG.LOG2SIZE`, spec/20_telemetry_counters.md. -/
def TLM_STR_CFG.LOG2SIZE : Fld := ⟨0x2401008, 0x40, 0, 0, 1, 5, .rw, 4⟩
/-- `TLM_STR_CFG.PORT`, spec/20_telemetry_counters.md. -/
def TLM_STR_CFG.PORT : Fld := ⟨0x2401008, 0x40, 0, 0, 6, 1, .rw, 0⟩
/-- `TLM_STR_CFG.PERIOD_US`, spec/20_telemetry_counters.md. -/
def TLM_STR_CFG.PERIOD_US : Fld := ⟨0x2401008, 0x40, 0, 0, 7, 20, .rw, 0x3E8⟩
/-- `TLM_STR_CFG.NCTR`, spec/20_telemetry_counters.md. -/
def TLM_STR_CFG.NCTR : Fld := ⟨0x2401008, 0x40, 0, 0, 27, 5, .rw, 1⟩
/-- `TLM_STR_CFG.VECTOR`, spec/20_telemetry_counters.md. -/
def TLM_STR_CFG.VECTOR : Fld := ⟨0x2401008, 0x40, 0, 0, 32, 11, .rw, 0⟩
/-- `TLM_STR_HEAD.VALUE`, spec/20_telemetry_counters.md. -/
def TLM_STR_HEAD.VALUE : Fld := ⟨0x2401010, 0x40, 0, 0, 0, 16, .rw, 0⟩
/-- `TLM_STR_TAIL.VALUE`, spec/20_telemetry_counters.md. -/
def TLM_STR_TAIL.VALUE : Fld := ⟨0x2401018, 0x40, 0, 0, 0, 64, .ro, 0⟩
/-- `TLM_STR_DROP.VALUE`, spec/20_telemetry_counters.md. -/
def TLM_STR_DROP.VALUE : Fld := ⟨0x2401020, 0x40, 0, 0, 0, 64, .ro, 0⟩
/-- `TLM_STR_SEL.OFFSET`, spec/20_telemetry_counters.md. -/
def TLM_STR_SEL.OFFSET : Fld := ⟨0x2402000, 8, 0, 0, 0, 26, .rw, 0⟩
/-- `TLM_MTR_BASE.LOC`, spec/20_telemetry_counters.md. -/
def TLM_MTR_BASE.LOC : Fld := ⟨0x2403000, 0, 0, 0, 0, 1, .rw, 0⟩
/-- `TLM_MTR_BASE.ADDR`, spec/20_telemetry_counters.md. -/
def TLM_MTR_BASE.ADDR : Fld := ⟨0x2403000, 0, 0, 0, 6, 58, .rw, 0⟩
/-- `TLM_MTR_CFG.ENABLE`, spec/20_telemetry_counters.md. -/
def TLM_MTR_CFG.ENABLE : Fld := ⟨0x2403008, 0, 0, 0, 0, 1, .rw, 0⟩
/-- `TLM_MTR_CFG.LOG2SIZE`, spec/20_telemetry_counters.md. -/
def TLM_MTR_CFG.LOG2SIZE : Fld := ⟨0x2403008, 0, 0, 0, 1, 5, .rw, 6⟩
/-- `TLM_MTR_CFG.PORT`, spec/20_telemetry_counters.md. -/
def TLM_MTR_CFG.PORT : Fld := ⟨0x2403008, 0, 0, 0, 6, 1, .rw, 0⟩
/-- `TLM_MTR_CFG.INTERVAL_S`, spec/20_telemetry_counters.md. -/
def TLM_MTR_CFG.INTERVAL_S : Fld := ⟨0x2403008, 0, 0, 0, 7, 12, .rw, 0x3C⟩
/-- `TLM_MTR_CFG.VECTOR`, spec/20_telemetry_counters.md. -/
def TLM_MTR_CFG.VECTOR : Fld := ⟨0x2403008, 0, 0, 0, 19, 11, .rw, 0⟩
/-- `TLM_MTR_HEAD.INDEX`, spec/20_telemetry_counters.md. -/
def TLM_MTR_HEAD.INDEX : Fld := ⟨0x2403010, 0, 0, 0, 0, 16, .rw, 0⟩
/-- `TLM_MTR_TAIL.INDEX`, spec/20_telemetry_counters.md. -/
def TLM_MTR_TAIL.INDEX : Fld := ⟨0x2403018, 0, 0, 0, 0, 16, .ro, 0⟩
/-- `TLM_MTR_GLADE.EN`, spec/20_telemetry_counters.md. -/
def TLM_MTR_GLADE.EN : Fld := ⟨0x2403400, 8, 0, 0, 0, 1, .rw, 0⟩
/-- `TLM_MTR_GLADE.HELD`, spec/20_telemetry_counters.md. -/
def TLM_MTR_GLADE.HELD : Fld := ⟨0x2403400, 8, 0, 0, 1, 3, .ro, 0⟩
/-- `CPU_MGMT.ACTIVE`, spec/18_control_processors.md. -/
def CPU_MGMT.ACTIVE : Fld := ⟨0x2600000, 0, 0, 0, 0, 1, .ro, 0⟩
/-- `CPU_MGMT.PAIR0_OK`, spec/18_control_processors.md. -/
def CPU_MGMT.PAIR0_OK : Fld := ⟨0x2600000, 0, 0, 0, 1, 1, .ro, 1⟩
/-- `CPU_MGMT.PAIR1_OK`, spec/18_control_processors.md. -/
def CPU_MGMT.PAIR1_OK : Fld := ⟨0x2600000, 0, 0, 0, 2, 1, .ro, 1⟩
/-- `CPU_CORE.ROLE`, spec/18_control_processors.md: reset from Lyras image. -/
def CPU_CORE.ROLE : Fld := ⟨0x2601000, 8, 0, 0, 0, 2, .ro, 0⟩
/-- `CPU_CORE.GLADE`, spec/18_control_processors.md. -/
def CPU_CORE.GLADE : Fld := ⟨0x2601000, 8, 0, 0, 2, 8, .ro, 0⟩
/-- `CPU_CORE.SLOT`, spec/18_control_processors.md. -/
def CPU_CORE.SLOT : Fld := ⟨0x2601000, 8, 0, 0, 10, 6, .ro, 0⟩
/-- `CPU_CORE.STATE`, spec/18_control_processors.md. -/
def CPU_CORE.STATE : Fld := ⟨0x2601000, 8, 0, 0, 16, 2, .ro, 0⟩
/-- `CPU_CORE.RESTARTS`, spec/18_control_processors.md. -/
def CPU_CORE.RESTARTS : Fld := ⟨0x2601000, 8, 0, 0, 18, 8, .ro, 0⟩
/-- `CPU_CORE.SPARE`, spec/18_control_processors.md: reset from Lyras image. -/
def CPU_CORE.SPARE : Fld := ⟨0x2601000, 8, 0, 0, 26, 1, .ro, 0⟩
/-- `CPU_OFL_A.STATE`, spec/18_control_processors.md. -/
def CPU_OFL_A.STATE : Fld := ⟨0x2602000, 0x10, 0, 0, 0, 3, .ro, 0⟩
/-- `CPU_OFL_A.GLADE`, spec/18_control_processors.md. -/
def CPU_OFL_A.GLADE : Fld := ⟨0x2602000, 0x10, 0, 0, 8, 8, .rw, 0⟩
/-- `CPU_OFL_A.CORES`, spec/18_control_processors.md. -/
def CPU_OFL_A.CORES : Fld := ⟨0x2602000, 0x10, 0, 0, 16, 8, .rw, 0⟩
/-- `CPU_OFL_A.CLUSTER_MASK`, spec/18_control_processors.md. -/
def CPU_OFL_A.CLUSTER_MASK : Fld := ⟨0x2602000, 0x10, 0, 0, 24, 16, .rw, 0⟩
/-- `CPU_OFL_A.FAULT_CTR`, spec/18_control_processors.md. -/
def CPU_OFL_A.FAULT_CTR : Fld := ⟨0x2602000, 0x10, 0, 0, 40, 16, .rw, 0⟩
/-- `CPU_OFL_A.FAULT_EN`, spec/18_control_processors.md. -/
def CPU_OFL_A.FAULT_EN : Fld := ⟨0x2602000, 0x10, 0, 0, 56, 1, .rw, 0⟩
/-- `CPU_OFL_B.ADDR`, spec/18_control_processors.md. -/
def CPU_OFL_B.ADDR : Fld := ⟨0x2602008, 0x10, 0, 0, 0, 40, .rw, 0⟩
/-- `CPU_OFL_B.LEN`, spec/18_control_processors.md. -/
def CPU_OFL_B.LEN : Fld := ⟨0x2602008, 0x10, 0, 0, 40, 19, .rw, 0⟩
/-- `CPU_OFL_CMD.OP`, spec/18_control_processors.md. -/
def CPU_OFL_CMD.OP : Fld := ⟨0x2603000, 0, 0, 0, 0, 3, .rw, 0⟩
/-- `CPU_OFL_CMD.SLOT`, spec/18_control_processors.md. -/
def CPU_OFL_CMD.SLOT : Fld := ⟨0x2603000, 0, 0, 0, 3, 6, .rw, 0⟩
/-- `CPU_OFL_CMD.START`, spec/18_control_processors.md. -/
def CPU_OFL_CMD.START : Fld := ⟨0x2603000, 0, 0, 0, 9, 1, .wo, 0⟩
/-- `CPU_OFL_CMD.BUSY`, spec/18_control_processors.md. -/
def CPU_OFL_CMD.BUSY : Fld := ⟨0x2603000, 0, 0, 0, 10, 1, .ro, 0⟩
/-- `CPU_OFL_CMD.STATUS`, spec/18_control_processors.md. -/
def CPU_OFL_CMD.STATUS : Fld := ⟨0x2603000, 0, 0, 0, 11, 8, .ro, 0⟩
/-- `CPU_CNT.COUNT`, spec/18_control_processors.md. -/
def CPU_CNT.COUNT : Fld := ⟨0x2604000, 8, 0, 0, 0, 64, .ro, 0⟩
/-- `TRL_STATUS.LOCK`, spec/22_trail_port.md. -/
def TRL_STATUS.LOCK : Fld := ⟨0x2800000, 0, 0, 0, 0, 2, .ro, 0⟩
/-- `TRL_STATUS.CHAL_VALID`, spec/22_trail_port.md. -/
def TRL_STATUS.CHAL_VALID : Fld := ⟨0x2800000, 0, 0, 0, 2, 1, .ro, 0⟩
/-- `TRL_STATUS.AUTH`, spec/22_trail_port.md. -/
def TRL_STATUS.AUTH : Fld := ⟨0x2800000, 0, 0, 0, 3, 2, .ro, 0⟩
/-- `TRL_STATUS.GLADE`, spec/22_trail_port.md. -/
def TRL_STATUS.GLADE : Fld := ⟨0x2800000, 0, 0, 0, 5, 8, .ro, 0⟩
/-- `TRL_STATUS.ERR`, spec/22_trail_port.md. -/
def TRL_STATUS.ERR : Fld := ⟨0x2800000, 0, 0, 0, 13, 3, .ro, 0⟩
/-- `TRL_AUTH_CTRL.CHALLENGE`, spec/22_trail_port.md. -/
def TRL_AUTH_CTRL.CHALLENGE : Fld := ⟨0x2800008, 0, 0, 0, 0, 1, .wo, 0⟩
/-- `TRL_AUTH_CTRL.SUBMIT`, spec/22_trail_port.md. -/
def TRL_AUTH_CTRL.SUBMIT : Fld := ⟨0x2800008, 0, 0, 0, 1, 1, .wo, 0⟩
/-- `TRL_AUTH_CTRL.LOCK`, spec/22_trail_port.md. -/
def TRL_AUTH_CTRL.LOCK : Fld := ⟨0x2800008, 0, 0, 0, 2, 1, .wo, 0⟩
/-- `TRL_AUTH_CHAL.BYTES`, spec/22_trail_port.md. -/
def TRL_AUTH_CHAL.BYTES : Fld := ⟨0x2800040, 8, 0, 0, 0, 64, .ro, 0⟩
/-- `TRL_AUTH_RESP.BYTES`, spec/22_trail_port.md. -/
def TRL_AUTH_RESP.BYTES : Fld := ⟨0x2800080, 8, 0, 0, 0, 64, .wo, 0⟩
/-- `TRL_CORE_SEL.UNIT`, spec/22_trail_port.md. -/
def TRL_CORE_SEL.UNIT : Fld := ⟨0x2800200, 0, 0, 0, 0, 16, .rw, 0⟩
/-- `TRL_CORE_CTRL.HALT`, spec/22_trail_port.md. -/
def TRL_CORE_CTRL.HALT : Fld := ⟨0x2800208, 0, 0, 0, 0, 1, .wo, 0⟩
/-- `TRL_CORE_CTRL.RESUME`, spec/22_trail_port.md. -/
def TRL_CORE_CTRL.RESUME : Fld := ⟨0x2800208, 0, 0, 0, 1, 1, .wo, 0⟩
/-- `TRL_CORE_CTRL.STEP`, spec/22_trail_port.md. -/
def TRL_CORE_CTRL.STEP : Fld := ⟨0x2800208, 0, 0, 0, 2, 1, .wo, 0⟩
/-- `TRL_CORE_CTRL.HALTED`, spec/22_trail_port.md. -/
def TRL_CORE_CTRL.HALTED : Fld := ⟨0x2800208, 0, 0, 0, 3, 1, .ro, 0⟩
/-- `TRL_CORE_CTRL.REASON`, spec/22_trail_port.md. -/
def TRL_CORE_CTRL.REASON : Fld := ⟨0x2800208, 0, 0, 0, 4, 2, .ro, 0⟩
/-- `TRL_CORE_CTRL.WHICH`, spec/22_trail_port.md. -/
def TRL_CORE_CTRL.WHICH : Fld := ⟨0x2800208, 0, 0, 0, 6, 3, .ro, 0⟩
/-- `TRL_CORE_REG.DATA`, spec/22_trail_port.md. -/
def TRL_CORE_REG.DATA : Fld := ⟨0x2800210, 0, 0, 0, 0, 32, .rw, 0⟩
/-- `TRL_CORE_REG.NUM`, spec/22_trail_port.md. -/
def TRL_CORE_REG.NUM : Fld := ⟨0x2800210, 0, 0, 0, 32, 10, .rw, 0⟩
/-- `TRL_CORE_REG.SR`, spec/22_trail_port.md. -/
def TRL_CORE_REG.SR : Fld := ⟨0x2800210, 0, 0, 0, 42, 1, .rw, 0⟩
/-- `TRL_CORE_REG.GO`, spec/22_trail_port.md. -/
def TRL_CORE_REG.GO : Fld := ⟨0x2800210, 0, 0, 0, 43, 1, .wo, 0⟩
/-- `TRL_CORE_REG.WRITE`, spec/22_trail_port.md. -/
def TRL_CORE_REG.WRITE : Fld := ⟨0x2800210, 0, 0, 0, 44, 1, .rw, 0⟩
/-- `TRL_BP.EN`, spec/22_trail_port.md. -/
def TRL_BP.EN : Fld := ⟨0x2800240, 8, 0, 0, 0, 1, .rw, 0⟩
/-- `TRL_BP.ADDR`, spec/22_trail_port.md. -/
def TRL_BP.ADDR : Fld := ⟨0x2800240, 8, 0, 0, 1, 31, .rw, 0⟩
/-- `TRL_WP.EN`, spec/22_trail_port.md. -/
def TRL_WP.EN : Fld := ⟨0x2800280, 8, 0, 0, 0, 1, .rw, 0⟩
/-- `TRL_WP.KIND`, spec/22_trail_port.md. -/
def TRL_WP.KIND : Fld := ⟨0x2800280, 8, 0, 0, 1, 2, .rw, 0⟩
/-- `TRL_WP.LOG2`, spec/22_trail_port.md. -/
def TRL_WP.LOG2 : Fld := ⟨0x2800280, 8, 0, 0, 3, 5, .rw, 0⟩
/-- `TRL_WP.ADDR`, spec/22_trail_port.md. -/
def TRL_WP.ADDR : Fld := ⟨0x2800280, 8, 0, 0, 8, 32, .rw, 0⟩
/-- `TRL_MEM_ADDR.ADDR`, spec/22_trail_port.md. -/
def TRL_MEM_ADDR.ADDR : Fld := ⟨0x2800300, 0, 0, 0, 0, 40, .rw, 0⟩
/-- `TRL_MEM_ADDR.LOCAL`, spec/22_trail_port.md. -/
def TRL_MEM_ADDR.LOCAL : Fld := ⟨0x2800300, 0, 0, 0, 61, 1, .rw, 0⟩
/-- `TRL_MEM_ADDR.INC`, spec/22_trail_port.md. -/
def TRL_MEM_ADDR.INC : Fld := ⟨0x2800300, 0, 0, 0, 62, 1, .rw, 0⟩
/-- `TRL_MEM_DATA.DATA`, spec/22_trail_port.md. -/
def TRL_MEM_DATA.DATA : Fld := ⟨0x2800308, 0, 0, 0, 0, 64, .rw, 0⟩

/-- The registers of block GLB (R21). -/
def regTableGLB : List Reg :=
  [ { name := "GLB_IDENT", base := 0x0000000, stride := 0, count := 1, sub := 0, stride2 := 0, reset := 0xA1094160, fields := [GLB_IDENT.PART, GLB_IDENT.FAMILY, GLB_IDENT.STEPPING] }
  , { name := "GLB_UNITS", base := 0x0000008, stride := 0, count := 1, sub := 0, stride2 := 0, reset := 0, fields := [GLB_UNITS.TILES_IN_SERVICE, GLB_UNITS.TILE_SPARES_FREE, GLB_UNITS.CORES_IN_SERVICE, GLB_UNITS.CORE_SPARES_FREE, GLB_UNITS.CHANNELS_IN_SERVICE, GLB_UNITS.LANE_SPARES_FREE] }
  , { name := "GLB_TILE_MAP", base := 0x0000040, stride := 8, count := 4, sub := 0, stride2 := 0, reset := 0, fields := [GLB_TILE_MAP.REPLACES, GLB_TILE_MAP.IN_USE, GLB_TILE_MAP.SPARE_FAULTY, GLB_TILE_MAP.OUT_OF_SERVICE] }
  , { name := "GLB_CORE_MAP", base := 0x0000080, stride := 8, count := 16, sub := 0, stride2 := 0, reset := 0, fields := [GLB_CORE_MAP.REPLACES, GLB_CORE_MAP.IN_USE, GLB_CORE_MAP.SPARE_FAULTY, GLB_CORE_MAP.OUT_OF_SERVICE] }
  , { name := "GLB_REG_ERR", base := 0x0000100, stride := 0, count := 1, sub := 0, stride2 := 0, reset := 0, fields := [GLB_REG_ERR.MISALIGNED, GLB_REG_ERR.BAD_SIZE, GLB_REG_ERR.UNMAPPED, GLB_REG_ERR.OUT_OF_SVC, GLB_REG_ERR.FIRST_OFFSET] } ]

/-- The registers of block BOOT (R21). -/
def regTableBOOT : List Reg :=
  [ { name := "BOOT_STATE", base := 0x0100000, stride := 0, count := 1, sub := 0, stride2 := 0, reset := 0, fields := [BOOT_STATE.STATE, BOOT_STATE.OPTICAL_DONE, BOOT_STATE.UNDERSTORY_DONE] }
  , { name := "BOOT_STATUS", base := 0x0100008, stride := 0, count := 1, sub := 0, stride2 := 0, reset := 0, fields := [BOOT_STATUS.IMAGE_A_VALID, BOOT_STATUS.IMAGE_B_VALID, BOOT_STATUS.NO_IMAGE, BOOT_STATUS.IDENTITY_FAIL, BOOT_STATUS.REPAIR_LOG_INVALID, BOOT_STATUS.REPAIR_LOG_FULL, BOOT_STATUS.WRITEBACK_DONE, BOOT_STATUS.WRITEBACK_FAIL, BOOT_STATUS.MARCH_FAULTS, BOOT_STATUS.WRITEBACK_PENDING] }
  , { name := "BOOT_IMAGE", base := 0x0100010, stride := 0, count := 1, sub := 0, stride2 := 0, reset := 0, fields := [BOOT_IMAGE.SELECTED, BOOT_IMAGE.SECTIONS, BOOT_IMAGE.GENERATION] }
  , { name := "BOOT_RESET_CAUSE", base := 0x0100018, stride := 0, count := 1, sub := 0, stride2 := 0, reset := 0, fields := [BOOT_RESET_CAUSE.CAUSE, BOOT_RESET_CAUSE.RAIL, BOOT_RESET_CAUSE.PREV_TRIP, BOOT_RESET_CAUSE.WARM_COUNT] }
  , { name := "BOOT_CTRL", base := 0x0100020, stride := 0, count := 1, sub := 0, stride2 := 0, reset := 0, fields := [BOOT_CTRL.WARM_RESET, BOOT_CTRL.WRITEBACK, BOOT_CTRL.KEY] }
  , { name := "BOOT_FW_BASE", base := 0x0100028, stride := 0, count := 1, sub := 0, stride2 := 0, reset := 0, fields := [BOOT_FW_BASE.ADDR] }
  , { name := "BOOT_FW_LEN", base := 0x0100030, stride := 0, count := 1, sub := 0, stride2 := 0, reset := 0, fields := [BOOT_FW_LEN.LEN] }
  , { name := "BOOT_FW_CMD", base := 0x0100038, stride := 0, count := 1, sub := 0, stride2 := 0, reset := 0, fields := [BOOT_FW_CMD.CMD, BOOT_FW_CMD.STATUS, BOOT_FW_CMD.BUSY] }
  , { name := "BOOT_FEAT_DEV", base := 0x0100040, stride := 8, count := 2, sub := 0, stride2 := 0, reset := 0, fields := [BOOT_FEAT_DEV.FEATURES] }
  , { name := "BOOT_FEAT_DRV", base := 0x0100050, stride := 8, count := 2, sub := 0, stride2 := 0, reset := 0, fields := [BOOT_FEAT_DRV.FEATURES] }
  , { name := "BOOT_FEAT_AGREED", base := 0x0100060, stride := 8, count := 2, sub := 0, stride2 := 0, reset := 0, fields := [BOOT_FEAT_AGREED.FEATURES] }
  , { name := "BOOT_IFVER", base := 0x0100070, stride := 0, count := 1, sub := 0, stride2 := 0, reset := 0, fields := [BOOT_IFVER.DEV_MAJOR, BOOT_IFVER.DEV_MINOR, BOOT_IFVER.DRV_MAJOR, BOOT_IFVER.DRV_MINOR] }
  , { name := "BOOT_MARCH", base := 0x0100078, stride := 0, count := 1, sub := 0, stride2 := 0, reset := 0x10000, fields := [BOOT_MARCH.UNIT, BOOT_MARCH.MODE, BOOT_MARCH.START, BOOT_MARCH.BUSY, BOOT_MARCH.RESULT, BOOT_MARCH.FAULTS] } ]

/-- The registers of block CLK (R21). -/
def regTableCLK : List Reg :=
  [ { name := "CLK_CFG", base := 0x0200000, stride := 0, count := 1, sub := 0, stride2 := 0, reset := 0, fields := [CLK_CFG.HOLD] }
  , { name := "CLK_LOCK", base := 0x0200008, stride := 0, count := 1, sub := 0, stride2 := 0, reset := 0, fields := [CLK_LOCK.LOCKED] }
  , { name := "CLK_XERR", base := 0x0200010, stride := 0, count := 1, sub := 0, stride2 := 0, reset := 0, fields := [CLK_XERR.TIMEOUT, CLK_XERR.HOLD_LONG, CLK_XERR.FIRST_CLASS, CLK_XERR.FIRST_GROVE, CLK_XERR.FIRST_NEAR] }
  , { name := "CLK_GROVE", base := 0x0200100, stride := 8, count := 115, sub := 0, stride2 := 0, reset := 0, fields := [CLK_GROVE.STATE, CLK_GROVE.HOLDING] }
  , { name := "CLK_XTO_CNT", base := 0x0201000, stride := 8, count := 115, sub := 0, stride2 := 0, reset := 0, fields := [CLK_XTO_CNT.COUNT] }
  , { name := "CLK_MERGE_CNT", base := 0x0202000, stride := 8, count := 115, sub := 0, stride2 := 0, reset := 0, fields := [CLK_MERGE_CNT.COUNT] } ]

/-- The registers of block PWR (R21). -/
def regTablePWR : List Reg :=
  [ { name := "PWR_STATUS", base := 0x0300000, stride := 0, count := 1, sub := 0, stride2 := 0, reset := 0, fields := [PWR_STATUS.LEVEL, PWR_STATUS.HW_LIMIT, PWR_STATUS.HOT_SENSOR, PWR_STATUS.TMAX, PWR_STATUS.PKG_W] }
  , { name := "PWR_CLK", base := 0x0300008, stride := 0, count := 1, sub := 0, stride2 := 0, reset := 0x4210, fields := [PWR_CLK.TILE_EFF, PWR_CLK.CORE_EFF, PWR_CLK.DRAM_EFF, PWR_CLK.TILE_REQ, PWR_CLK.CORE_REQ, PWR_CLK.DRAM_REQ, PWR_CLK.LOOP] }
  , { name := "PWR_LIMIT", base := 0x0300010, stride := 0, count := 1, sub := 0, stride2 := 0, reset := 0, fields := [PWR_LIMIT.LIMIT_W, PWR_LIMIT.TARGET_C] }
  , { name := "PWR_HW_CFG", base := 0x0300018, stride := 0, count := 1, sub := 0, stride2 := 0, reset := 0, fields := [PWR_HW_CFG.HW_LIMIT_W, PWR_HW_CFG.HW_WINDOW_US, PWR_HW_CFG.DEF_TILE, PWR_HW_CFG.DEF_CORE, PWR_HW_CFG.DEF_DRAM] }
  , { name := "PWR_THERM_CFG", base := 0x0300020, stride := 0, count := 1, sub := 0, stride2 := 0, reset := 0, fields := [PWR_THERM_CFG.WARN_C, PWR_THERM_CFG.THROTTLE_C, PWR_THERM_CFG.EMERG_C, PWR_THERM_CFG.HYST_C] }
  , { name := "PWR_LOCK", base := 0x0300028, stride := 0, count := 1, sub := 0, stride2 := 0, reset := 0, fields := [PWR_LOCK.LOCKED] }
  , { name := "PWR_SENSOR", base := 0x0300040, stride := 8, count := 16, sub := 0, stride2 := 0, reset := 0, fields := [PWR_SENSOR.TEMP, PWR_SENSOR.FAULT] }
  , { name := "PWR_ACT", base := 0x0300100, stride := 0, count := 1, sub := 0, stride2 := 0, reset := 0, fields := [PWR_ACT.STATE, PWR_ACT.LAST_RESULT, PWR_ACT.PAUSE_MS] }
  , { name := "PWR_ACT_VER", base := 0x0300108, stride := 0, count := 1, sub := 0, stride2 := 0, reset := 0, fields := [PWR_ACT_VER.RUN_VERSION, PWR_ACT_VER.STAGED_VERSION] }
  , { name := "PWR_FW_STORE", base := 0x0300110, stride := 0, count := 1, sub := 0, stride2 := 0, reset := 0, fields := [PWR_FW_STORE.REGION, PWR_FW_STORE.ENABLE] }
  , { name := "PWR_CNT", base := 0x0300200, stride := 8, count := 7, sub := 0, stride2 := 0, reset := 0, fields := [PWR_CNT.COUNT] } ]

/-- The registers of block MEM (R21). -/
def regTableMEM : List Reg :=
  [ { name := "MEM_STATUS", base := 0x0400000, stride := 0, count := 1, sub := 0, stride2 := 0, reset := 0x28000, fields := [MEM_STATUS.TOP_MIB, MEM_STATUS.CONTENTS_KEPT, MEM_STATUS.RETIRED, MEM_STATUS.FENCED, MEM_STATUS.RETIRE_FULL, MEM_STATUS.LAYOUT_REFUSED, MEM_STATUS.RGN_REFUSED] }
  , { name := "MEM_LAYOUT", base := 0x0400008, stride := 0, count := 1, sub := 0, stride2 := 0, reset := 0, fields := [MEM_LAYOUT.LOCAL_GIB, MEM_LAYOUT.CORR_LIMIT, MEM_LAYOUT.LAYOUT_REDUCED] }
  , { name := "MEM_SCRUB_CFG", base := 0x0400010, stride := 0, count := 1, sub := 0, stride2 := 0, reset := 0x1000118, fields := [MEM_SCRUB_CFG.PERIOD_H, MEM_SCRUB_CFG.ENABLE, MEM_SCRUB_CFG.CE_STEP] }
  , { name := "MEM_SCRUB_POS", base := 0x0400018, stride := 0, count := 1, sub := 0, stride2 := 0, reset := 0, fields := [MEM_SCRUB_POS.ADDR] }
  , { name := "MEM_RETIRE", base := 0x0400040, stride := 8, count := 8, sub := 0, stride2 := 0, reset := 0, fields := [MEM_RETIRE.CHANNEL, MEM_RETIRE.BANK, MEM_RETIRE.STATE] }
  , { name := "MEM_ERASE", base := 0x0400100, stride := 8, count := 64, sub := 0, stride2 := 0, reset := 0, fields := [MEM_ERASE.POS0, MEM_ERASE.VALID0, MEM_ERASE.POS1, MEM_ERASE.VALID1] }
  , { name := "MEM_SPARE_USE", base := 0x0400400, stride := 8, count := 512, sub := 0, stride2 := 0, reset := 0, fields := [MEM_SPARE_USE.USED] }
  , { name := "MEM_CE_CNT", base := 0x0402000, stride := 8, count := 64, sub := 0, stride2 := 0, reset := 0, fields := [MEM_CE_CNT.COUNT] }
  , { name := "MEM_UE_CNT", base := 0x0402200, stride := 8, count := 64, sub := 0, stride2 := 0, reset := 0, fields := [MEM_UE_CNT.COUNT] }
  , { name := "MEM_MIRROR_FENCE", base := 0x0403000, stride := 0, count := 1, sub := 0, stride2 := 0, reset := 0, fields := [MEM_MIRROR_FENCE.REGION, MEM_MIRROR_FENCE.START, MEM_MIRROR_FENCE.BUSY, MEM_MIRROR_FENCE.STATUS] }
  , { name := "MEM_RGN_A", base := 0x0410000, stride := 0x10, count := 1024, sub := 0, stride2 := 0, reset := 0, fields := [MEM_RGN_A.VALID, MEM_RGN_A.MIRROR, MEM_RGN_A.MIRROR_TARGET, MEM_RGN_A.STALE, MEM_RGN_A.GLADE, MEM_RGN_A.BASE] }
  , { name := "MEM_RGN_B", base := 0x0410008, stride := 0x10, count := 1024, sub := 0, stride2 := 0, reset := 0, fields := [MEM_RGN_B.SIZE, MEM_RGN_B.TWIN_BASE] } ]

/-- The registers of block TILE (R21). -/
def regTableTILE : List Reg :=
  [ { name := "TILE_STATE", base := 0x0800000, stride := 0x10000, count := 64, sub := 0, stride2 := 0, reset := 0, fields := [TILE_STATE.SEQ, TILE_STATE.QUEUE, TILE_STATE.PC] }
  , { name := "TILE_CFG", base := 0x0800008, stride := 0x10000, count := 64, sub := 0, stride2 := 0, reset := 0, fields := [TILE_CFG.GLADE, TILE_CFG.ASSIGNED] }
  , { name := "TILE_WDOG", base := 0x0800010, stride := 0x10000, count := 64, sub := 0, stride2 := 0, reset := 0x3B9ACA00, fields := [TILE_WDOG.LIMIT] }
  , { name := "TILE_ARITH_FLAGS", base := 0x0800020, stride := 0x10000, count := 64, sub := 0, stride2 := 0, reset := 0, fields := [TILE_ARITH_FLAGS.INVALID, TILE_ARITH_FLAGS.OVERFLOW, TILE_ARITH_FLAGS.UNDERFLOW_ZERO, TILE_ARITH_FLAGS.INT_SAT, TILE_ARITH_FLAGS.SCALE_NAN] }
  , { name := "TILE_SR_SEED", base := 0x0800028, stride := 0x10000, count := 64, sub := 0, stride2 := 0, reset := 0, fields := [TILE_SR_SEED.SEED] }
  , { name := "TILE_SR_SEQ", base := 0x0800030, stride := 0x10000, count := 64, sub := 0, stride2 := 0, reset := 0, fields := [TILE_SR_SEQ.SEQ] }
  , { name := "TILE_DMA_WAIT", base := 0x0800038, stride := 0x10000, count := 64, sub := 0, stride2 := 0, reset := 0, fields := [TILE_DMA_WAIT.CYCLES] }
  , { name := "TILE_QBASE", base := 0x0800100, stride := 0x40, count := 512, sub := 8, stride2 := 0x10000, reset := 0, fields := [TILE_QBASE.LOC, TILE_QBASE.ADDR] }
  , { name := "TILE_QCBASE", base := 0x0800108, stride := 0x40, count := 512, sub := 8, stride2 := 0x10000, reset := 0, fields := [TILE_QCBASE.LOC, TILE_QCBASE.ADDR] }
  , { name := "TILE_QCTRL", base := 0x0800110, stride := 0x40, count := 512, sub := 8, stride2 := 0x10000, reset := 8, fields := [TILE_QCTRL.ENABLE, TILE_QCTRL.LOG2SIZE, TILE_QCTRL.PRIO, TILE_QCTRL.OWNER, TILE_QCTRL.VECTOR, TILE_QCTRL.RESET, TILE_QCTRL.RESUME] }
  , { name := "TILE_QSTATUS", base := 0x0800118, stride := 0x40, count := 512, sub := 8, stride2 := 0x10000, reset := 0x40000000, fields := [TILE_QSTATUS.HEAD, TILE_QSTATUS.TAIL, TILE_QSTATUS.STATE, TILE_QSTATUS.PHASE, TILE_QSTATUS.TAIL_REFUSED, TILE_QSTATUS.LAST_STATUS] }
  , { name := "TILE_QDONE", base := 0x0800120, stride := 0x40, count := 512, sub := 8, stride2 := 0x10000, reset := 0, fields := [TILE_QDONE.COUNT] } ]

/-- The registers of block UST (R21). -/
def regTableUST : List Reg :=
  [ { name := "UST_STATUS", base := 0x0C00000, stride := 0, count := 1, sub := 0, stride2 := 0, reset := 0, fields := [UST_STATUS.LANES_UP, UST_STATUS.LINKS_UP, UST_STATUS.GROUPS_UP] }
  , { name := "UST_LOCK", base := 0x0C00008, stride := 0, count := 1, sub := 0, stride2 := 0, reset := 0, fields := [UST_LOCK.LOCKED] }
  , { name := "UST_LINK", base := 0x0C00040, stride := 8, count := 8, sub := 0, stride2 := 0, reset := 0, fields := [UST_LINK.LANES, UST_LINK.EXPECT, UST_LINK.PEER, UST_LINK.UP, UST_LINK.PEER_WRONG, UST_LINK.ANY] }
  , { name := "UST_LANE", base := 0x0C00080, stride := 8, count := 8, sub := 0, stride2 := 0, reset := 0, fields := [UST_LANE.STATE, UST_LANE.SPARED] }
  , { name := "UST_GRP_A", base := 0x0C01000, stride := 0x10, count := 64, sub := 0, stride2 := 0, reset := 0, fields := [UST_GRP_A.VALID, UST_GRP_A.TOPO, UST_GRP_A.STATE, UST_GRP_A.GLADE, UST_GRP_A.MEMBERS, UST_GRP_A.SELF, UST_GRP_A.GEN, UST_GRP_A.QUEUE] }
  , { name := "UST_GRP_B", base := 0x0C01008, stride := 0x10, count := 64, sub := 0, stride2 := 0, reset := 0, fields := [UST_GRP_B.PREV, UST_GRP_B.PREV_VALID, UST_GRP_B.NEXT, UST_GRP_B.NEXT_VALID, UST_GRP_B.CHILDREN, UST_GRP_B.ALERT_CTR, UST_GRP_B.ALERT_EN] }
  , { name := "UST_EPOCH", base := 0x0C02000, stride := 0x10, count := 64, sub := 0, stride2 := 0, reset := 0, fields := [UST_EPOCH.VALUE] }
  , { name := "UST_EPOCH_TIME", base := 0x0C02008, stride := 0x10, count := 64, sub := 0, stride2 := 0, reset := 0, fields := [UST_EPOCH_TIME.VALUE] }
  , { name := "UST_CTR_BLK", base := 0x0C04000, stride := 8, count := 256, sub := 0, stride2 := 0, reset := 0, fields := [UST_CTR_BLK.GRANTED, UST_CTR_BLK.GLADE] }
  , { name := "UST_LANE_CRC", base := 0x0C05000, stride := 8, count := 8, sub := 0, stride2 := 0, reset := 0, fields := [UST_LANE_CRC.COUNT] }
  , { name := "UST_LANE_REPLAY", base := 0x0C05040, stride := 8, count := 8, sub := 0, stride2 := 0, reset := 0, fields := [UST_LANE_REPLAY.COUNT] }
  , { name := "UST_DROP", base := 0x0C05080, stride := 0, count := 1, sub := 0, stride2 := 0, reset := 0, fields := [UST_DROP.COUNT] }
  , { name := "UST_CTR", base := 0x0D00000, stride := 8, count := 65536, sub := 0, stride2 := 0, reset := 0, fields := [UST_CTR.VALUE] }
  , { name := "UST_CTR_ADD", base := 0x0D80000, stride := 8, count := 65536, sub := 0, stride2 := 0, reset := 0, fields := [UST_CTR_ADD.VALUE] } ]

/-- The registers of block FAB (R21). -/
def regTableFAB : List Reg :=
  [ { name := "FAB_CFG", base := 0x1000000, stride := 0, count := 1, sub := 0, stride2 := 0, reset := 0, fields := [FAB_CFG.IPV6, FAB_CFG.VLAN_EN, FAB_CFG.VID, FAB_CFG.PCP, FAB_CFG.DSCP, FAB_CFG.UDP_PORT, FAB_CFG.HOP_LIMIT] }
  , { name := "FAB_LOCK", base := 0x1000008, stride := 0, count := 1, sub := 0, stride2 := 0, reset := 0, fields := [FAB_LOCK.LOCKED] }
  , { name := "FAB_IP_BASE", base := 0x1000010, stride := 8, count := 2, sub := 0, stride2 := 0, reset := 0, fields := [FAB_IP_BASE.BASE] }
  , { name := "FAB_RETRY", base := 0x1000020, stride := 0, count := 1, sub := 0, stride2 := 0, reset := 0x1901407D00020, fields := [FAB_RETRY.RTO_MIN, FAB_RETRY.RTO_MAX, FAB_RETRY.TIMEOUT, FAB_RETRY.HOLDOFF] }
  , { name := "FAB_CC", base := 0x1000028, stride := 0, count := 1, sub := 0, stride2 := 0, reset := 0x10080000082EE0, fields := [FAB_CC.TARGET_NS, FAB_CC.AI_KIB, FAB_CC.MAX_KIB, FAB_CC.INIT_KIB] }
  , { name := "FAB_CTX_CFG", base := 0x1000030, stride := 0, count := 1, sub := 0, stride2 := 0, reset := 0x1000000, fields := [FAB_CTX_CFG.LOC, FAB_CTX_CFG.ENABLE, FAB_CTX_CFG.REGION, FAB_CTX_CFG.PEER_RESERVE] }
  , { name := "FAB_CTX_HOST", base := 0x1000038, stride := 0, count := 1, sub := 0, stride2 := 0, reset := 0, fields := [FAB_CTX_HOST.ADDR] }
  , { name := "FAB_CTX_USE", base := 0x1000040, stride := 8, count := 4, sub := 0, stride2 := 0, reset := 0, fields := [FAB_CTX_USE.CACHED, FAB_CTX_USE.BUSY, FAB_CTX_USE.MISS_BYTES] }
  , { name := "FAB_PEER_SEL", base := 0x1000060, stride := 0, count := 1, sub := 0, stride2 := 0, reset := 0, fields := [FAB_PEER_SEL.DEVICE] }
  , { name := "FAB_PEER_STAT", base := 0x1000068, stride := 0, count := 1, sub := 0, stride2 := 0, reset := 0, fields := [FAB_PEER_STAT.STATE, FAB_PEER_STAT.CACHED, FAB_PEER_STAT.PORT, FAB_PEER_STAT.EPOCH, FAB_PEER_STAT.W_KIB, FAB_PEER_STAT.UNACKED] }
  , { name := "FAB_PORT", base := 0x1000100, stride := 8, count := 16, sub := 0, stride2 := 0, reset := 0, fields := [FAB_PORT.ENABLE, FAB_PORT.STATE, FAB_PORT.MTU] }
  , { name := "FAB_PORT_MAC", base := 0x1000180, stride := 8, count := 16, sub := 0, stride2 := 0, reset := 0, fields := [FAB_PORT_MAC.MAC] }
  , { name := "FAB_PORT_GW", base := 0x1000200, stride := 8, count := 16, sub := 0, stride2 := 0, reset := 0, fields := [FAB_PORT_GW.GW] }
  , { name := "FAB_CNT", base := 0x1001000, stride := 8, count := 14, sub := 0, stride2 := 0, reset := 0, fields := [FAB_CNT.COUNT] }
  , { name := "FAB_SAL_DEVNUM", base := 0x13C0000, stride := 0, count := 1, sub := 0, stride2 := 0, reset := 0, fields := [FAB_SAL_DEVNUM.DEVNUM] }
  , { name := "FAB_SAL_LOCK", base := 0x13C0008, stride := 0, count := 1, sub := 0, stride2 := 0, reset := 0, fields := [FAB_SAL_LOCK.LOCKED] }
  , { name := "FAB_SAL_RKT_CFG", base := 0x13C0010, stride := 0, count := 1, sub := 0, stride2 := 0, reset := 0xA0000, fields := [FAB_SAL_RKT_CFG.REGION, FAB_SAL_RKT_CFG.LOG2N, FAB_SAL_RKT_CFG.ENABLE] }
  , { name := "FAB_SAL_DENIED", base := 0x13C0018, stride := 0, count := 1, sub := 0, stride2 := 0, reset := 0, fields := [FAB_SAL_DENIED.COUNT] }
  , { name := "FAB_SAL_RKT_MISS", base := 0x13C0020, stride := 0, count := 1, sub := 0, stride2 := 0, reset := 0, fields := [FAB_SAL_RKT_MISS.COUNT] }
  , { name := "FAB_SAL_FTN", base := 0x13C0800, stride := 8, count := 256, sub := 0, stride2 := 0, reset := 0, fields := [FAB_SAL_FTN.FTN] }
  , { name := "FAB_SAL_PD", base := 0x13D0000, stride := 8, count := 4096, sub := 0, stride2 := 0, reset := 0, fields := [FAB_SAL_PD.VALID, FAB_SAL_PD.GLADE, FAB_SAL_PD.USERS] } ]

/-- The registers of block OPT (R21). -/
def regTableOPT : List Reg :=
  [ { name := "OPT_LANE", base := 0x1400000, stride := 8, count := 50, sub := 0, stride2 := 0, reset := 0, fields := [OPT_LANE.STATE, OPT_LANE.SPARED, OPT_LANE.PARTNER, OPT_LANE.IN_USE] }
  , { name := "OPT_TILE", base := 0x1400200, stride := 8, count := 4, sub := 0, stride2 := 0, reset := 0, fields := [OPT_TILE.LIGHT0, OPT_TILE.LIGHT1, OPT_TILE.REFCLK_OK] }
  , { name := "OPT_FEC_CORR", base := 0x1400400, stride := 8, count := 50, sub := 0, stride2 := 0, reset := 0, fields := [OPT_FEC_CORR.COUNT] }
  , { name := "OPT_FEC_UNCORR", base := 0x1400600, stride := 8, count := 50, sub := 0, stride2 := 0, reset := 0, fields := [OPT_FEC_UNCORR.COUNT] } ]

/-- The registers of block SCH (R21). -/
def regTableSCH : List Reg :=
  [ { name := "SCH_PORT_CFG", base := 0x1600000, stride := 8, count := 16, sub := 0, stride2 := 0, reset := 0x54, fields := [SCH_PORT_CFG.OVERHEAD] }
  , { name := "SCH_PORT_STAT", base := 0x1600080, stride := 8, count := 16, sub := 0, stride2 := 0, reset := 0x200000000061A80, fields := [SCH_PORT_STAT.AVAIL, SCH_PORT_STAT.MIN_DEMAND, SCH_PORT_STAT.SCALE] }
  , { name := "SCH_STATUS", base := 0x1600100, stride := 0, count := 1, sub := 0, stride2 := 0, reset := 0, fields := [SCH_STATUS.BIND_REFUSED] }
  , { name := "SCH_GLADE_A", base := 0x1601000, stride := 0x10, count := 256, sub := 0, stride2 := 0, reset := 0x10000000000, fields := [SCH_GLADE_A.MIN, SCH_GLADE_A.MAX, SCH_GLADE_A.WEIGHT, SCH_GLADE_A.LAT_US] }
  , { name := "SCH_GLADE_B", base := 0x1601008, stride := 0x10, count := 256, sub := 0, stride2 := 0, reset := 0x1000040000, fields := [SCH_GLADE_B.CAP, SCH_GLADE_B.POLICER, SCH_GLADE_B.POL_EN, SCH_GLADE_B.DWEIGHT] }
  , { name := "SCH_INST_A", base := 0x1610000, stride := 0x10, count := 4096, sub := 0, stride2 := 0, reset := 0x10000000000, fields := [SCH_INST_A.MIN, SCH_INST_A.MAX, SCH_INST_A.WEIGHT, SCH_INST_A.LAT_US] }
  , { name := "SCH_INST_B", base := 0x1610008, stride := 0x10, count := 4096, sub := 0, stride2 := 0, reset := 0x1000040000, fields := [SCH_INST_B.CAP, SCH_INST_B.POLICER, SCH_INST_B.POL_EN, SCH_INST_B.DWEIGHT] }
  , { name := "SCH_POL_A", base := 0x1620000, stride := 0x20, count := 1024, sub := 0, stride2 := 0, reset := 0, fields := [SCH_POL_A.TWO_RATE, SCH_POL_A.AWARE, SCH_POL_A.YELLOW_ACT, SCH_POL_A.RED_ACT, SCH_POL_A.GLADE, SCH_POL_A.CIR, SCH_POL_A.PIR] }
  , { name := "SCH_POL_B", base := 0x1620008, stride := 0x20, count := 1024, sub := 0, stride2 := 0, reset := 0, fields := [SCH_POL_B.CBS, SCH_POL_B.EBS_PBS] }
  , { name := "SCH_POL_CNT", base := 0x1630000, stride := 8, count := 3072, sub := 0, stride2 := 0, reset := 0, fields := [SCH_POL_CNT.COUNT] }
  , { name := "SCH_GLADE_BYTES", base := 0x1638000, stride := 8, count := 256, sub := 0, stride2 := 0, reset := 0, fields := [SCH_GLADE_BYTES.COUNT] }
  , { name := "SCH_FLOW", base := 0x1640000, stride := 8, count := 65536, sub := 0, stride2 := 0, reset := 1, fields := [SCH_FLOW.WEIGHT] }
  , { name := "SCH_FLOW_S", base := 0x16C0000, stride := 8, count := 8192, sub := 0, stride2 := 0, reset := 1, fields := [SCH_FLOW_S.WEIGHT] } ]

/-- The registers of block HEP (R21). -/
def regTableHEP : List Reg :=
  [ { name := "HEP_PORT_STAT", base := 0x1800000, stride := 8, count := 2, sub := 0, stride2 := 0, reset := 0, fields := [HEP_PORT_STAT.LINK_UP, HEP_PORT_STAT.SPEED, HEP_PORT_STAT.WIDTH, HEP_PORT_STAT.FLIT, HEP_PORT_STAT.ROLE, HEP_PORT_STAT.BME, HEP_PORT_STAT.FLR_BUSY, HEP_PORT_STAT.ATS_EN, HEP_PORT_STAT.TAGW] }
  , { name := "HEP_CPL_TO_CFG", base := 0x1800010, stride := 8, count := 2, sub := 0, stride2 := 0, reset := 0x6B6C000D6D800, fields := [HEP_CPL_TO_CFG.RANGE, HEP_CPL_TO_CFG.UPPER_US, HEP_CPL_TO_CFG.QUAR_US] }
  , { name := "HEP_TAG_STAT", base := 0x1800020, stride := 8, count := 2, sub := 0, stride2 := 0, reset := 0, fields := [HEP_TAG_STAT.OUTSTANDING, HEP_TAG_STAT.QUARANTINED] }
  , { name := "HEP_PORT_CFG", base := 0x1800030, stride := 8, count := 2, sub := 0, stride2 := 0, reset := 0x3000, fields := [HEP_PORT_CFG.MAX_OUT, HEP_PORT_CFG.RO_EN] }
  , { name := "HEP_CFG", base := 0x1800040, stride := 0, count := 1, sub := 0, stride2 := 0, reset := 0, fields := [HEP_CFG.MED_PORT] }
  , { name := "HEP_CNT", base := 0x1800100, stride := 8, count := 16, sub := 0, stride2 := 0, reset := 0, fields := [HEP_CNT.COUNT] }
  , { name := "HEP_EVR_BASE", base := 0x1840000, stride := 0x40, count := 64, sub := 0, stride2 := 0, reset := 0, fields := [HEP_EVR_BASE.LOC, HEP_EVR_BASE.ADDR] }
  , { name := "HEP_EVR_CFG", base := 0x1840008, stride := 0x40, count := 64, sub := 0, stride2 := 0, reset := 0xC, fields := [HEP_EVR_CFG.ENABLE, HEP_EVR_CFG.LOG2SIZE, HEP_EVR_CFG.PORT, HEP_EVR_CFG.USE_PASID, HEP_EVR_CFG.PASID, HEP_EVR_CFG.GLADE_FILT, HEP_EVR_CFG.GLADE, HEP_EVR_CFG.INST_FILT, HEP_EVR_CFG.INST, HEP_EVR_CFG.VECTOR] }
  , { name := "HEP_EVR_HEAD", base := 0x1840010, stride := 0x40, count := 64, sub := 0, stride2 := 0, reset := 0, fields := [HEP_EVR_HEAD.INDEX] }
  , { name := "HEP_EVR_TAIL", base := 0x1840018, stride := 0x40, count := 64, sub := 0, stride2 := 0, reset := 0, fields := [HEP_EVR_TAIL.INDEX] }
  , { name := "HEP_EVR_WB", base := 0x1840020, stride := 0x40, count := 64, sub := 0, stride2 := 0, reset := 0, fields := [HEP_EVR_WB.WB_EN, HEP_EVR_WB.ADDR] }
  , { name := "HEP_EVR_MOD", base := 0x1840028, stride := 0x40, count := 64, sub := 0, stride2 := 0, reset := 0, fields := [HEP_EVR_MOD.HOLDOFF_US] }
  , { name := "HEP_EVR_DROP", base := 0x1840030, stride := 0x40, count := 64, sub := 0, stride2 := 0, reset := 0, fields := [HEP_EVR_DROP.COUNT] }
  , { name := "HEP_EVR_UNMATCHED", base := 0x1841000, stride := 0, count := 1, sub := 0, stride2 := 0, reset := 0, fields := [HEP_EVR_UNMATCHED.COUNT] }
  , { name := "HEP_WIN_A", base := 0x19C0000, stride := 0x10, count := 256, sub := 0, stride2 := 0, reset := 0, fields := [HEP_WIN_A.VALID, HEP_WIN_A.RD, HEP_WIN_A.WR, HEP_WIN_A.PORT_A, HEP_WIN_A.PORT_B, HEP_WIN_A.GLADE, HEP_WIN_A.RKEY, HEP_WIN_A.LIMIT] }
  , { name := "HEP_WIN_B", base := 0x19C0008, stride := 0x10, count := 256, sub := 0, stride2 := 0, reset := 0, fields := [HEP_WIN_B.TARGET, HEP_WIN_B.TARGET_HI] }
  , { name := "HEP_WIN_STATUS", base := 0x19D0000, stride := 0, count := 1, sub := 0, stride2 := 0, reset := 0, fields := [HEP_WIN_STATUS.REFUSED, HEP_WIN_STATUS.LAST_REFUSED] }
  , { name := "HEP_WIN_FENCE", base := 0x19D0008, stride := 0, count := 1, sub := 0, stride2 := 0, reset := 0, fields := [HEP_WIN_FENCE.WINDOW, HEP_WIN_FENCE.START, HEP_WIN_FENCE.BUSY] } ]

/-- The registers of block GLD (R21). -/
def regTableGLD : List Reg :=
  [ { name := "GLD_SQ_BASE", base := 0x1A00000, stride := 0, count := 1, sub := 0, stride2 := 0, reset := 0, fields := [GLD_SQ_BASE.LOC, GLD_SQ_BASE.ADDR] }
  , { name := "GLD_SQ_CBASE", base := 0x1A00008, stride := 0, count := 1, sub := 0, stride2 := 0, reset := 0, fields := [GLD_SQ_CBASE.LOC, GLD_SQ_CBASE.ADDR] }
  , { name := "GLD_SQ_CTRL", base := 0x1A00010, stride := 0, count := 1, sub := 0, stride2 := 0, reset := 8, fields := [GLD_SQ_CTRL.ENABLE, GLD_SQ_CTRL.LOG2SIZE, GLD_SQ_CTRL.VECTOR] }
  , { name := "GLD_SQ_TAIL", base := 0x1A00018, stride := 0, count := 1, sub := 0, stride2 := 0, reset := 0, fields := [GLD_SQ_TAIL.TAIL] }
  , { name := "GLD_SQ_STATUS", base := 0x1A00020, stride := 0, count := 1, sub := 0, stride2 := 0, reset := 0x1000, fields := [GLD_SQ_STATUS.HEAD, GLD_SQ_STATUS.PHASE, GLD_SQ_STATUS.TAIL_REFUSED, GLD_SQ_STATUS.LAST_STATUS] }
  , { name := "GLD_POOL_A", base := 0x1A00040, stride := 0, count := 1, sub := 0, stride2 := 0, reset := 0, fields := [GLD_POOL_A.INSTANCES, GLD_POOL_A.TILES, GLD_POOL_A.CORES, GLD_POOL_A.DRAM, GLD_POOL_A.OVERCOMMIT] }
  , { name := "GLD_POOL_B", base := 0x1A00048, stride := 0, count := 1, sub := 0, stride2 := 0, reset := 0, fields := [GLD_POOL_B.CTX, GLD_POOL_B.KEYS, GLD_POOL_B.STQ] }
  , { name := "GLD_DEFAULT_A", base := 0x1A00060, stride := 0, count := 1, sub := 0, stride2 := 0, reset := 0, fields := [GLD_DEFAULT_A.INSTANCES, GLD_DEFAULT_A.TILES, GLD_DEFAULT_A.CORES, GLD_DEFAULT_A.DRAM] }
  , { name := "GLD_DEFAULT_B", base := 0x1A00068, stride := 0, count := 1, sub := 0, stride2 := 0, reset := 0, fields := [GLD_DEFAULT_B.CTX, GLD_DEFAULT_B.KEYS, GLD_DEFAULT_B.STQ] }
  , { name := "GLD_QUOTA_A", base := 0x1A01000, stride := 0x20, count := 256, sub := 0, stride2 := 0, reset := 0, fields := [GLD_QUOTA_A.INSTANCES, GLD_QUOTA_A.TILES, GLD_QUOTA_A.CORES, GLD_QUOTA_A.DRAM, GLD_QUOTA_A.EXISTS] }
  , { name := "GLD_QUOTA_B", base := 0x1A01008, stride := 0x20, count := 256, sub := 0, stride2 := 0, reset := 0, fields := [GLD_QUOTA_B.CTX, GLD_QUOTA_B.KEYS, GLD_QUOTA_B.STQ] }
  , { name := "GLD_USE_A", base := 0x1A01010, stride := 0x20, count := 256, sub := 0, stride2 := 0, reset := 0, fields := [GLD_USE_A.INSTANCES, GLD_USE_A.TILES, GLD_USE_A.CORES, GLD_USE_A.DRAM] }
  , { name := "GLD_USE_B", base := 0x1A01018, stride := 0x20, count := 256, sub := 0, stride2 := 0, reset := 0, fields := [GLD_USE_B.CTX, GLD_USE_B.KEYS, GLD_USE_B.STQ] }
  , { name := "GLD_INST", base := 0x1A10000, stride := 8, count := 4096, sub := 0, stride2 := 0, reset := 0, fields := [GLD_INST.VALID, GLD_INST.PORT, GLD_INST.PASID_EN, GLD_INST.GLADE, GLD_INST.PASID, GLD_INST.GEN, GLD_INST.RESETTING, GLD_INST.STQ] }
  , { name := "GLD_STALE_CNT", base := 0x1A20000, stride := 0, count := 1, sub := 0, stride2 := 0, reset := 0, fields := [GLD_STALE_CNT.COUNT] }
  , { name := "GLD_DB_DROP", base := 0x1A20008, stride := 0, count := 1, sub := 0, stride2 := 0, reset := 0, fields := [GLD_DB_DROP.COUNT] } ]

/-- The registers of block STQ (R21). -/
def regTableSTQ : List Reg :=
  [ { name := "STQ_CFG", base := 0x1C00000, stride := 0, count := 1, sub := 0, stride2 := 0, reset := 0x641388, fields := [STQ_CFG.SVC_TIMEOUT_MS, STQ_CFG.DRAIN_MS] }
  , { name := "STQ_STATUS", base := 0x1C00008, stride := 0, count := 1, sub := 0, stride2 := 0, reset := 0, fields := [STQ_STATUS.QUEUES, STQ_STATUS.VOL_REFUSED, STQ_STATUS.STAGE_REFUSED] }
  , { name := "STQ_GLADE_A", base := 0x1C01000, stride := 0x10, count := 256, sub := 0, stride2 := 0, reset := 0, fields := [STQ_GLADE_A.ENABLE, STQ_GLADE_A.STAGE_RGN, STQ_GLADE_A.STAGE_KEY] }
  , { name := "STQ_GLADE_B", base := 0x1C01008, stride := 0x10, count := 256, sub := 0, stride2 := 0, reset := 0, fields := [STQ_GLADE_B.REPLY_Q, STQ_GLADE_B.SLOTS, STQ_GLADE_B.SLOTS_BUSY] }
  , { name := "STQ_VOL_A", base := 0x1C10000, stride := 0x20, count := 4096, sub := 0, stride2 := 0, reset := 0, fields := [STQ_VOL_A.VALID, STQ_VOL_A.BACKEND, STQ_VOL_A.BS, STQ_VOL_A.READ_ONLY, STQ_VOL_A.ENCRYPT, STQ_VOL_A.GLADE, STQ_VOL_A.KEY_SLOT, STQ_VOL_A.DEVNUM] }
  , { name := "STQ_VOL_B", base := 0x1C10008, stride := 0x20, count := 4096, sub := 0, stride2 := 0, reset := 0, fields := [STQ_VOL_B.TARGET, STQ_VOL_B.SVOL] }
  , { name := "STQ_VOL_C", base := 0x1C10010, stride := 0x20, count := 4096, sub := 0, stride2 := 0, reset := 0, fields := [STQ_VOL_C.CAPACITY] }
  , { name := "STQ_VOL_D", base := 0x1C10018, stride := 0x20, count := 4096, sub := 0, stride2 := 0, reset := 0, fields := [STQ_VOL_D.TWEAK_BASE] }
  , { name := "STQ_Q", base := 0x1C40000, stride := 8, count := 8192, sub := 0, stride2 := 0, reset := 0, fields := [STQ_Q.VALID, STQ_Q.ADMIN, STQ_Q.STATE, STQ_Q.CLUSTER, STQ_Q.OWNER, STQ_Q.BUSY_TAGS] }
  , { name := "STQ_CNT", base := 0x1C60000, stride := 8, count := 8, sub := 0, stride2 := 0, reset := 0, fields := [STQ_CNT.COUNT] } ]

/-- The registers of block SEC (R21). -/
def regTableSEC : List Reg :=
  [ { name := "SEC_STATUS", base := 0x1E00000, stride := 0, count := 1, sub := 0, stride2 := 0, reset := 0, fields := [SEC_STATUS.IDENTITY_OK, SEC_STATUS.OWNER_KEYS, SEC_STATUS.OWNER_BAD, SEC_STATUS.DEBUG_MGMT] }
  , { name := "SEC_IDENT_PUB", base := 0x1E00100, stride := 8, count := 17, sub := 0, stride2 := 0, reset := 0, fields := [SEC_IDENT_PUB.BYTES] }
  , { name := "SEC_IDENT_CERT", base := 0x1E00200, stride := 8, count := 17, sub := 0, stride2 := 0, reset := 0, fields := [SEC_IDENT_CERT.BYTES] }
  , { name := "SEC_ROLLBACK", base := 0x1E00300, stride := 0, count := 1, sub := 0, stride2 := 0, reset := 0, fields := [SEC_ROLLBACK.MIN_SVN, SEC_ROLLBACK.BASIS, SEC_ROLLBACK.ADVANCE, SEC_ROLLBACK.ADV_STATUS] }
  , { name := "SEC_ATT_CTRL", base := 0x1E00400, stride := 0, count := 1, sub := 0, stride2 := 0, reset := 0, fields := [SEC_ATT_CTRL.GLADE, SEC_ATT_CTRL.START, SEC_ATT_CTRL.BUSY, SEC_ATT_CTRL.STATUS] }
  , { name := "SEC_ATT_NONCE", base := 0x1E00440, stride := 8, count := 8, sub := 0, stride2 := 0, reset := 0, fields := [SEC_ATT_NONCE.BYTES] }
  , { name := "SEC_ATT_REPORT", base := 0x1E00800, stride := 8, count := 64, sub := 0, stride2 := 0, reset := 0, fields := [SEC_ATT_REPORT.BYTES] }
  , { name := "SEC_GLADE_MEAS", base := 0x1E04000, stride := 8, count := 2048, sub := 0, stride2 := 0, reset := 0, fields := [SEC_GLADE_MEAS.BYTES] }
  , { name := "SEC_KEY_DATA", base := 0x1E10000, stride := 8, count := 17, sub := 0, stride2 := 0, reset := 0, fields := [SEC_KEY_DATA.BYTES] }
  , { name := "SEC_KEY_CMD", base := 0x1E10100, stride := 0, count := 1, sub := 0, stride2 := 0, reset := 0, fields := [SEC_KEY_CMD.OP, SEC_KEY_CMD.TYPE, SEC_KEY_CMD.GLADE, SEC_KEY_CMD.SLOT, SEC_KEY_CMD.KEK, SEC_KEY_CMD.START, SEC_KEY_CMD.BUSY, SEC_KEY_CMD.STATUS] }
  , { name := "SEC_KEY_SLOT", base := 0x1E20000, stride := 8, count := 65536, sub := 0, stride2 := 0, reset := 0, fields := [SEC_KEY_SLOT.TYPE, SEC_KEY_SLOT.GLADE] }
  , { name := "SEC_FAB_GRP_A", base := 0x1EA0000, stride := 0x10, count := 64, sub := 0, stride2 := 0, reset := 0, fields := [SEC_FAB_GRP_A.LO, SEC_FAB_GRP_A.HI, SEC_FAB_GRP_A.VALID, SEC_FAB_GRP_A.TX_SEL] }
  , { name := "SEC_FAB_GRP_B", base := 0x1EA0008, stride := 0x10, count := 64, sub := 0, stride2 := 0, reset := 0, fields := [SEC_FAB_GRP_B.SLOT0, SEC_FAB_GRP_B.SLOT1] }
  , { name := "SEC_SEAL_LOCK", base := 0x1EC0000, stride := 0, count := 1, sub := 0, stride2 := 0, reset := 0, fields := [SEC_SEAL_LOCK.TOKEN, SEC_SEAL_LOCK.RELEASE, SEC_SEAL_LOCK.HELD] }
  , { name := "SEC_SEAL_KEY", base := 0x1EC0010, stride := 8, count := 4, sub := 0, stride2 := 0, reset := 0, fields := [SEC_SEAL_KEY.BYTES] }
  , { name := "SEC_SEAL_CTRL", base := 0x1EC0040, stride := 0, count := 1, sub := 0, stride2 := 0, reset := 0, fields := [SEC_SEAL_CTRL.SLOT, SEC_SEAL_CTRL.MODE, SEC_SEAL_CTRL.MORE, SEC_SEAL_CTRL.REPLAY, SEC_SEAL_CTRL.LEN, SEC_SEAL_CTRL.START, SEC_SEAL_CTRL.BUSY, SEC_SEAL_CTRL.STATUS, SEC_SEAL_CTRL.MATCH, SEC_SEAL_CTRL.TOKEN] }
  , { name := "SEC_SEAL_CTR", base := 0x1EC0048, stride := 0, count := 1, sub := 0, stride2 := 0, reset := 0, fields := [SEC_SEAL_CTR.VALUE] }
  , { name := "SEC_SEAL_TAG", base := 0x1EC0050, stride := 8, count := 2, sub := 0, stride2 := 0, reset := 0, fields := [SEC_SEAL_TAG.VALUE] }
  , { name := "SEC_SEAL_SLOTCTR", base := 0x1EC0080, stride := 8, count := 16, sub := 0, stride2 := 0, reset := 0, fields := [SEC_SEAL_SLOTCTR.VALUE] }
  , { name := "SEC_SEAL_WATER", base := 0x1EC0100, stride := 8, count := 16, sub := 0, stride2 := 0, reset := 0, fields := [SEC_SEAL_WATER.VALUE] }
  , { name := "SEC_DEBUG", base := 0x1EE0000, stride := 0, count := 1, sub := 0, stride2 := 0, reset := 0, fields := [SEC_DEBUG.MGMT_OK, SEC_DEBUG.GLADE_OK, SEC_DEBUG.LOCK] } ]

/-- The registers of block CKP (R21). -/
def regTableCKP : List Reg :=
  [ { name := "CKP_CFG", base := 0x2000000, stride := 0, count := 1, sub := 0, stride2 := 0, reset := 0x1F4, fields := [CKP_CFG.COPY_GBPS] }
  , { name := "CKP_STATUS", base := 0x2000008, stride := 0, count := 1, sub := 0, stride2 := 0, reset := 0, fields := [CKP_STATUS.GRP_REFUSED] }
  , { name := "CKP_GRP_A", base := 0x2001000, stride := 0x10, count := 16, sub := 0, stride2 := 0, reset := 0x40000000, fields := [CKP_GRP_A.VALID, CKP_GRP_A.GLADE, CKP_GRP_A.QUEUE, CKP_GRP_A.MEMBERS, CKP_GRP_A.PARITY, CKP_GRP_A.SELF, CKP_GRP_A.RESERVE, CKP_GRP_A.SEAL_SLOT] }
  , { name := "CKP_GRP_B", base := 0x2001008, stride := 0x10, count := 16, sub := 0, stride2 := 0, reset := 0, fields := [CKP_GRP_B.JOB, CKP_GRP_B.PUSH_MIB] }
  , { name := "CKP_MEMBER", base := 0x2002000, stride := 8, count := 512, sub := 0, stride2 := 0, reset := 0, fields := [CKP_MEMBER.DEVNUM, CKP_MEMBER.RKEY] }
  , { name := "CKP_RING_A", base := 0x2004000, stride := 0x10, count := 32, sub := 0, stride2 := 0, reset := 0, fields := [CKP_RING_A.STATE, CKP_RING_A.UNCOPIED] }
  , { name := "CKP_RING_STEP", base := 0x2004008, stride := 0x10, count := 32, sub := 0, stride2 := 0, reset := 0, fields := [CKP_RING_STEP.STEP] }
  , { name := "CKP_CNT", base := 0x2005000, stride := 8, count := 8, sub := 0, stride2 := 0, reset := 0, fields := [CKP_CNT.COUNT] } ]

/-- The registers of block TWN (R21). -/
def regTableTWN : List Reg :=
  [ { name := "TWN_CFG", base := 0x2200000, stride := 0, count := 1, sub := 0, stride2 := 0, reset := 0, fields := [TWN_CFG.ENABLE, TWN_CFG.WITNESSES, TWN_CFG.FAB_DEAD_MS, TWN_CFG.GRANT_MS, TWN_CFG.TWIN_DEV, TWN_CFG.KEY_SLOT] }
  , { name := "TWN_LOCK", base := 0x2200008, stride := 0, count := 1, sub := 0, stride2 := 0, reset := 0, fields := [TWN_LOCK.LOCKED] }
  , { name := "TWN_STATUS", base := 0x2200010, stride := 0, count := 1, sub := 0, stride2 := 0, reset := 0, fields := [TWN_STATUS.STATE, TWN_STATUS.PORT0_UP, TWN_STATUS.PORT1_UP, TWN_STATUS.FAB_ALIVE, TWN_STATUS.EPOCH_WRONG, TWN_STATUS.GRANTS, TWN_STATUS.TWIN_STATE, TWN_STATUS.PAIR_EPOCH] }
  , { name := "TWN_CTRL", base := 0x2200018, stride := 0, count := 1, sub := 0, stride2 := 0, reset := 0, fields := [TWN_CTRL.EPOCH, TWN_CTRL.PAIR] }
  , { name := "TWN_WIT_ADDR", base := 0x2200020, stride := 8, count := 3, sub := 0, stride2 := 0, reset := 0, fields := [TWN_WIT_ADDR.ADDR] }
  , { name := "TWN_WIT_KEY", base := 0x2200040, stride := 8, count := 3, sub := 0, stride2 := 0, reset := 0, fields := [TWN_WIT_KEY.KEY] }
  , { name := "TWN_SVC", base := 0x2200100, stride := 0, count := 1, sub := 0, stride2 := 0, reset := 0, fields := [TWN_SVC.UNIT, TWN_SVC.ACTION, TWN_SVC.FORCE, TWN_SVC.START, TWN_SVC.BUSY, TWN_SVC.RESULT] }
  , { name := "TWN_CNT", base := 0x2201000, stride := 8, count := 8, sub := 0, stride2 := 0, reset := 0, fields := [TWN_CNT.COUNT] } ]

/-- The registers of block TLM (R21). -/
def regTableTLM : List Reg :=
  [ { name := "TLM_TIME", base := 0x2400000, stride := 0, count := 1, sub := 0, stride2 := 0, reset := 0, fields := [TLM_TIME.NS] }
  , { name := "TLM_CTR_CMD", base := 0x2400008, stride := 0, count := 1, sub := 0, stride2 := 0, reset := 0, fields := [TLM_CTR_CMD.OFFSET, TLM_CTR_CMD.OP, TLM_CTR_CMD.START, TLM_CTR_CMD.BUSY, TLM_CTR_CMD.OVF, TLM_CTR_CMD.NOT_COUNTER] }
  , { name := "TLM_OVF_SUM", base := 0x2400010, stride := 0, count := 1, sub := 0, stride2 := 0, reset := 0, fields := [TLM_OVF_SUM.BLOCKS] }
  , { name := "TLM_STR_BASE", base := 0x2401000, stride := 0x40, count := 8, sub := 0, stride2 := 0, reset := 0, fields := [TLM_STR_BASE.LOC, TLM_STR_BASE.ADDR] }
  , { name := "TLM_STR_CFG", base := 0x2401008, stride := 0x40, count := 8, sub := 0, stride2 := 0, reset := 0x801F408, fields := [TLM_STR_CFG.ENABLE, TLM_STR_CFG.LOG2SIZE, TLM_STR_CFG.PORT, TLM_STR_CFG.PERIOD_US, TLM_STR_CFG.NCTR, TLM_STR_CFG.VECTOR] }
  , { name := "TLM_STR_HEAD", base := 0x2401010, stride := 0x40, count := 8, sub := 0, stride2 := 0, reset := 0, fields := [TLM_STR_HEAD.VALUE] }
  , { name := "TLM_STR_TAIL", base := 0x2401018, stride := 0x40, count := 8, sub := 0, stride2 := 0, reset := 0, fields := [TLM_STR_TAIL.VALUE] }
  , { name := "TLM_STR_DROP", base := 0x2401020, stride := 0x40, count := 8, sub := 0, stride2 := 0, reset := 0, fields := [TLM_STR_DROP.VALUE] }
  , { name := "TLM_STR_SEL", base := 0x2402000, stride := 8, count := 256, sub := 0, stride2 := 0, reset := 0, fields := [TLM_STR_SEL.OFFSET] }
  , { name := "TLM_MTR_BASE", base := 0x2403000, stride := 0, count := 1, sub := 0, stride2 := 0, reset := 0, fields := [TLM_MTR_BASE.LOC, TLM_MTR_BASE.ADDR] }
  , { name := "TLM_MTR_CFG", base := 0x2403008, stride := 0, count := 1, sub := 0, stride2 := 0, reset := 0x1E0C, fields := [TLM_MTR_CFG.ENABLE, TLM_MTR_CFG.LOG2SIZE, TLM_MTR_CFG.PORT, TLM_MTR_CFG.INTERVAL_S, TLM_MTR_CFG.VECTOR] }
  , { name := "TLM_MTR_HEAD", base := 0x2403010, stride := 0, count := 1, sub := 0, stride2 := 0, reset := 0, fields := [TLM_MTR_HEAD.INDEX] }
  , { name := "TLM_MTR_TAIL", base := 0x2403018, stride := 0, count := 1, sub := 0, stride2 := 0, reset := 0, fields := [TLM_MTR_TAIL.INDEX] }
  , { name := "TLM_MTR_GLADE", base := 0x2403400, stride := 8, count := 256, sub := 0, stride2 := 0, reset := 0, fields := [TLM_MTR_GLADE.EN, TLM_MTR_GLADE.HELD] } ]

/-- The registers of block CPU (R21). -/
def regTableCPU : List Reg :=
  [ { name := "CPU_MGMT", base := 0x2600000, stride := 0, count := 1, sub := 0, stride2 := 0, reset := 6, fields := [CPU_MGMT.ACTIVE, CPU_MGMT.PAIR0_OK, CPU_MGMT.PAIR1_OK] }
  , { name := "CPU_CORE", base := 0x2601000, stride := 8, count := 272, sub := 0, stride2 := 0, reset := 0, fields := [CPU_CORE.ROLE, CPU_CORE.GLADE, CPU_CORE.SLOT, CPU_CORE.STATE, CPU_CORE.RESTARTS, CPU_CORE.SPARE] }
  , { name := "CPU_OFL_A", base := 0x2602000, stride := 0x10, count := 64, sub := 0, stride2 := 0, reset := 0, fields := [CPU_OFL_A.STATE, CPU_OFL_A.GLADE, CPU_OFL_A.CORES, CPU_OFL_A.CLUSTER_MASK, CPU_OFL_A.FAULT_CTR, CPU_OFL_A.FAULT_EN] }
  , { name := "CPU_OFL_B", base := 0x2602008, stride := 0x10, count := 64, sub := 0, stride2 := 0, reset := 0, fields := [CPU_OFL_B.ADDR, CPU_OFL_B.LEN] }
  , { name := "CPU_OFL_CMD", base := 0x2603000, stride := 0, count := 1, sub := 0, stride2 := 0, reset := 0, fields := [CPU_OFL_CMD.OP, CPU_OFL_CMD.SLOT, CPU_OFL_CMD.START, CPU_OFL_CMD.BUSY, CPU_OFL_CMD.STATUS] }
  , { name := "CPU_CNT", base := 0x2604000, stride := 8, count := 4, sub := 0, stride2 := 0, reset := 0, fields := [CPU_CNT.COUNT] } ]

/-- The registers of block TRL (R21). -/
def regTableTRL : List Reg :=
  [ { name := "TRL_STATUS", base := 0x2800000, stride := 0, count := 1, sub := 0, stride2 := 0, reset := 0, fields := [TRL_STATUS.LOCK, TRL_STATUS.CHAL_VALID, TRL_STATUS.AUTH, TRL_STATUS.GLADE, TRL_STATUS.ERR] }
  , { name := "TRL_AUTH_CTRL", base := 0x2800008, stride := 0, count := 1, sub := 0, stride2 := 0, reset := 0, fields := [TRL_AUTH_CTRL.CHALLENGE, TRL_AUTH_CTRL.SUBMIT, TRL_AUTH_CTRL.LOCK] }
  , { name := "TRL_AUTH_CHAL", base := 0x2800040, stride := 8, count := 8, sub := 0, stride2 := 0, reset := 0, fields := [TRL_AUTH_CHAL.BYTES] }
  , { name := "TRL_AUTH_RESP", base := 0x2800080, stride := 8, count := 21, sub := 0, stride2 := 0, reset := 0, fields := [TRL_AUTH_RESP.BYTES] }
  , { name := "TRL_CORE_SEL", base := 0x2800200, stride := 0, count := 1, sub := 0, stride2 := 0, reset := 0, fields := [TRL_CORE_SEL.UNIT] }
  , { name := "TRL_CORE_CTRL", base := 0x2800208, stride := 0, count := 1, sub := 0, stride2 := 0, reset := 0, fields := [TRL_CORE_CTRL.HALT, TRL_CORE_CTRL.RESUME, TRL_CORE_CTRL.STEP, TRL_CORE_CTRL.HALTED, TRL_CORE_CTRL.REASON, TRL_CORE_CTRL.WHICH] }
  , { name := "TRL_CORE_REG", base := 0x2800210, stride := 0, count := 1, sub := 0, stride2 := 0, reset := 0, fields := [TRL_CORE_REG.DATA, TRL_CORE_REG.NUM, TRL_CORE_REG.SR, TRL_CORE_REG.GO, TRL_CORE_REG.WRITE] }
  , { name := "TRL_BP", base := 0x2800240, stride := 8, count := 8, sub := 0, stride2 := 0, reset := 0, fields := [TRL_BP.EN, TRL_BP.ADDR] }
  , { name := "TRL_WP", base := 0x2800280, stride := 8, count := 4, sub := 0, stride2 := 0, reset := 0, fields := [TRL_WP.EN, TRL_WP.KIND, TRL_WP.LOG2, TRL_WP.ADDR] }
  , { name := "TRL_MEM_ADDR", base := 0x2800300, stride := 0, count := 1, sub := 0, stride2 := 0, reset := 0, fields := [TRL_MEM_ADDR.ADDR, TRL_MEM_ADDR.LOCAL, TRL_MEM_ADDR.INC] }
  , { name := "TRL_MEM_DATA", base := 0x2800308, stride := 0, count := 1, sub := 0, stride2 := 0, reset := 0, fields := [TRL_MEM_DATA.DATA] } ]

/-- Every register of the 64 MiB register space that has a table of its own. -/
def regTable : List Reg :=
  regTableGLB ++ regTableBOOT ++ regTableCLK ++ regTablePWR ++ regTableMEM ++ regTableTILE ++ regTableUST ++ regTableFAB ++ regTableOPT ++ regTableSCH ++ regTableHEP ++ regTableGLD ++ regTableSTQ ++ regTableSEC ++ regTableCKP ++ regTableTWN ++ regTableTLM ++ regTableCPU ++ regTableTRL

end Sys2Proof.Machine
end

