-- ==== Sys2Proof/Machine/NetTypes.lean ====
section
/-! DEFINITION. The kinds of data of the Understory and of the fabric: links, groups, collectives in progress, peers. -/
namespace Sys2Proof.Machine

open Sys2Proof

/-- What an Understory link's peer has announced of a group (R169). -/
structure PeerGroup where
  group : Nat
  members : Nat
  tree : Bool
  gen : Nat
  self : Nat
  deriving DecidableEq, Repr

/-- A frame of a group that waits to be sent on a link (R166, R167). -/
structure UstWaiting where
  type : Nat
  group : Nat
  src : Nat
  dst : Nat
  gen : Nat
  opseq : Nat
  offset : Nat
  payload : List Byte
  deriving DecidableEq, Repr

/-- The state of an Understory link that no register shows (R166, R167): the next sequence number in each direction, the
frames kept for replay, and what the peer has announced. -/
structure UstLink where
  tx : Nat := 0
  rx : Nat := 0
  /-- The last 64 frames sent, and how many of the newest of them are not yet acknowledged. -/
  kept : List (List Byte) := []
  unacked : Nat := 0
  /-- Frames that wait because 64 are not yet acknowledged, in order of arrival, and the group of the data frame sent last. -/
  waiting : List UstWaiting := []
  lastGroup : Nat := 63
  reported : Bool := false
  groups : List PeerGroup := []
  deriving DecidableEq, Repr

/-- What members compare of an operation (R176). -/
structure CollSig where
  op : Nat
  len : Nat
  dtype : Nat
  redop : Nat
  root : Nat
  deriving DecidableEq, Repr

/-- The collective a group runs (R174 to R178). -/
structure Coll where
  qid : Nat
  entry : Nat
  opseq : Nat
  sig : CollSig
  src : Nat
  dst : Nat
  /-- Members known to have issued it. -/
  arrived : List Nat
  /-- Local time at which this member issued it. -/
  since : Nat
  /-- Every member has issued it and data may flow. -/
  flowing : Bool := false
  /-- Partial sums by piece, as 32-bit words, and how many terms each holds. -/
  parts : Tab (List Nat) := []
  got : Tab Nat := []
  /-- Pieces written to DST, and the first status of a write that was not SUCCESS. -/
  done : List Nat := []
  status : Nat := 0
  deriving DecidableEq, Repr

/-- A frame of an operation that this member has not issued, or not started, yet. -/
inductive EarlyFrame where
  | arrive (opseq member : Nat) (sig : CollSig)
  | reduce (opseq offset : Nat) (words : List Nat)
  | bcast (link opseq offset : Nat) (bytes : List Byte)
  | abort (opseq : Nat)
  deriving DecidableEq, Repr

/-- The state of an Understory group that no register shows. -/
structure UstGroup where
  opseq : Nat := 0
  cur : Option Coll := none
  early : List EarlyFrame := []
  /-- Remote posts not yet acknowledged: queue identifier, ring entry, target member (R174). -/
  posts : List (Nat × Nat × Nat) := []
  /-- The last operation, if it ended with UST_MISMATCH: queue identifier, ring entry, OPSEQ (R181). -/
  mismatch : Option (Nat × Nat × Nat) := none
  deriving DecidableEq, Repr

/-! ### The fabric (R185 to R256) -/

/-- The flows of the scheduler (R243). `device` carries the device's own operations (witness grants, twin messages). -/
inductive Flow where
  | queue (t : Nat)
  | storage (q : Nat)
  | ckp (q : Nat)
  | window (glade port : Nat)
  | response (glade : Nat)
  | device
  deriving DecidableEq, Repr

/-- What an operation sent to another device belongs to: a fetched command of a queue (by its ring entry), an access
through a BAR4 window (with its number, its offset and its requester's tag), a witness grant, or a ring's shards. `gone` is a
command of a reset queue, with its instance and its stamp: the response will be discarded (R236, R288). -/
inductive Owner where
  | cmd (qid entry : Nat)
  | gone (inst stamp : Nat)
  | window (port win id offset tag : Nat) (write : Bool)
  | witness (i : Nat)
  | ring (ri tag : Nat)
  deriving DecidableEq, Repr

/-- A reliable packet, waiting or sent (R215 to R217). `src` is the memory its payload is read from each time it is sent,
and `data` a payload of its own (R222). -/
structure Pkt where
  type : Nat
  first : Bool
  last : Bool
  ftn : Nat
  addr : Nat
  rkey : Nat
  msg : Nat
  moff : Nat
  aux : Nat
  opv : Nat
  src : Option (Nat × Nat)
  data : List Byte
  flow : Flow
  glade : Nat
  inst : Nat
  owner : Option Owner
  /-- The index of the registration that covers the memory it reads (R191). -/
  reg : Option Nat := none
  /-- READ_RESP not yet sent: the bytes and the status that it read before a later operation wrote there (R202). -/
  snap : Option (List Byte × Nat) := none
  psn : Option Nat := none
  /-- Waiting to be sent again. -/
  resend : Bool := false
  /-- Metered at the head of its flow (R250): 0 passes, 1 demoted, 2 held. -/
  action : Option Nat := none
  /-- The policers that have metered it and the colours they gave: 0 green, 1 yellow, 2 red. -/
  colours : List (Nat × Nat) := []
  /-- The policer that holds it. -/
  heldBy : Option Nat := none
  /-- Local time at which it became eligible at the head of its flow (R253). -/
  since : Option Nat := none
  /-- The checkpoint message, or the volume blocks, that the operation of which it is the last packet carries (R358). -/
  out : Option Output := none
  deriving DecidableEq, Repr

/-- An operation that this device has begun and whose response has not arrived (R217). -/
structure SalOp where
  msg : Nat
  owner : Owner
  kind : Nat
  glade : Nat
  laddr : Nat
  len : Nat
  status : Nat
  data : List Byte
  /-- A packet of it has been sent. -/
  sent : Bool := false
  /-- The index of the registration that covers its local buffer (R191). -/
  reg : Option Nat := none
  /-- A window read: the parts of its data that are uncorrectable, as places and lengths (R270). -/
  bad : List (Nat × Nat) := []
  deriving DecidableEq, Repr

/-- An operation of a peer whose packets are being received: its first failure, and, for a SEND, its receive queue, its
buffer with the ring entry it came from (`took`: a buffer has been consumed) and the registration that covers it, the bytes written, and, for a storage reply, its
glade and its bytes (R306). -/
structure RxOp where
  msg : Nat
  status : Nat := 0
  qid : Nat := 0
  buf : Option (Nat × Nat) := none
  entry : Nat := 0
  took : Bool := false
  reg : Option Nat := none
  got : Nat := 0
  reply : Option Nat := none
  data : List Byte := []
  deriving DecidableEq, Repr

/-- A packet received, as its header and payload give it, kept while its context is fetched (R229). -/
structure RxPkt where
  type : Nat
  port : Nat
  src : Nat
  epoch : Nat
  psn : Nat
  first : Bool
  last : Bool
  ackreq : Bool
  ce : Bool
  ece : Bool
  apsn : Nat
  ts : Nat
  tse : Nat
  ftn : Nat
  addr : Nat
  rkey : Nat
  msg : Nat
  moff : Nat
  aux : Nat
  opv : Nat
  bytes : List Byte
  fresh : Bool := false
  deriving DecidableEq, Repr

/-- A peer context (R220). `state` is coded as FAB_PEER_STAT codes it (R240). -/
structure Peer where
  state : Nat := 0
  epoch : Nat := 0
  /-- Local port of the path, 16 when no port is UP. -/
  port : Nat := 16
  pathGen : Nat := 0
  nextPsn : Nat := 0
  /-- Lowest unacknowledged PSN. -/
  low : Nat := 0
  /-- The in-order point E. -/
  expect : Nat := 0
  nextMsg : Nat := 0
  xseq : Nat := 0
  /-- The congestion window in bytes, and the window in progress (R231): its end, its bytes acknowledged, those with ECE,
  and its smallest round-trip sample. -/
  win : Nat := 0
  winEnd : Nat := 0
  winAcked : Nat := 0
  winEce : Nat := 0
  winMin : Option Nat := none
  /-- The smoothed round-trip time in ns; the spec gives no formula for it (log entry 14: a free value, safe). -/
  srtt : Nat := 0
  /-- Epoch proposed by the HELLO in flight, and the packets sent under it (R218). -/
  proposal : Nat := 0
  hseq : Nat := 0
  /-- Consecutive expiries of the retransmission timer (R226). -/
  expiries : Nat := 0
  unacked : List Pkt := []
  ops : List SalOp := []
  rx : List RxOp := []
  /-- The in-order point for which a SEQ NAK has been sent (R223). -/
  nakAt : Option Nat := none
  /-- PSN at which sending again after a SEQ NAK last began: at most once per round trip (R225). -/
  seqFrom : Option Nat := none
  /-- Packets applied and not acknowledged, whether one of them had CE, TS of the last that advanced APSN. -/
  unackedRx : Nat := 0
  oweEce : Bool := false
  tse : Nat := 0
  /-- A NOT_READY pause runs (R225), and the PSN refused. -/
  paused : Bool := false
  refusedPsn : Option Nat := none
  /-- The operation number of a refused SEND whose time is up while the answer to its last packet is awaited (R200). -/
  expired : Option Nat := none
  /-- HOLDOFF runs (R226). -/
  holdoff : Bool := false
  /-- Packets held while the context is fetched, oldest first (R229). -/
  missed : List RxPkt := []
  deriving DecidableEq, Repr

/-- A control packet waiting at a port (R245). `fields` are the EPOCH, PSN, the ADDR and AUX fields and FRESH. -/
structure Ctl where
  device : Nat
  type : Nat
  epoch : Nat
  psn : Nat
  addr : Nat
  aux : Nat
  fresh : Bool
  ece : Bool
  deriving DecidableEq, Repr

/-- What a context-store entry holds (R227, R228): a peer's context, a queue's, a storage command tag's or a decode stream's. -/
inductive CtxKey where
  | peer (device : Nat)
  | queue (qid : Nat)
  | tag (qid tag : Nat)
  | stream (context : Nat)
  deriving DecidableEq, Repr

/-- The fabric state that no register shows, besides the peers. -/
structure Fab where
  /-- Packets not yet sent, by flow, in flow order: the target device and the packet. -/
  flows : List (Flow × List (Nat × Pkt)) := []
  /-- Response packets not yet sent, in arrival order (R245). -/
  responses : List (Nat × Pkt) := []
  /-- Control packets, by port. -/
  control : Tab (List Ctl) := []
  /-- The cached contexts of each quadrant, least recently used first (R228). -/
  cache : Tab (List CtxKey) := []
  /-- The number of the next BAR4 access. -/
  nextAccess : Nat := 0
  /-- The number that the access must be below for a window fence to wait for it (R208). -/
  fenceAt : Nat := 0
  /-- The window that the fence waits for. -/
  fenceWin : Nat := 0
  /-- SENDs to this device itself that found no buffer: queue identifier and ring entry (R186, R200). -/
  selfRefused : List (Nat × Nat) := []
  /-- Messages of rate-limited events: tag failures by port, miss-buffer drops by quadrant, since the last event. -/
  authFails : Tab Nat := []
  missDrops : Tab Nat := []
  /-- Reply buffers posted by the device on each glade's REPLY_Q that have been used (R306). -/
  replies : Tab Nat := []
  /-- The retrains in progress (R235): lanes. -/
  retrain : List Nat := []
  /-- Lanes onto whose fibres a spare is being switched (R235). -/
  sparing : List Nat := []
  /-- Laser inputs lost during optical bring-up, whose loss is reported once the tile is up (R41). -/
  lightOwed : List Nat := []
  deriving DecidableEq, Repr

/-- A scheduler node at a port (R247): its credits in units of 1/8000 byte, the time they were last brought up to date,
its deficit, its effective minimum when scaled, whether it qualified in this interval, the shortfalls last reported and
the worst wait of the interval in ns. -/
structure SchNode where
  minC : Int := 0
  maxC : Int := 0
  time : Nat := 0
  deficit : Nat := 0
  eff : Option Nat := none
  qual : Bool := false
  shortMin : Nat := 0
  shortLat : Nat := 0
  worst : Nat := 0
  deriving DecidableEq, Repr

/-- A policer's buckets in units of 1/8000 byte (R249): Tc, and Te or Tp, and the time they were last filled. -/
structure Bucket where
  tc : Nat := 0
  te : Nat := 0
  time : Nat := 0
  deriving DecidableEq, Repr

/-- The scheduler's state that no register shows. -/
structure Sched where
  /-- Nodes, at 8192 port + g for glade g and 8192 port + 4096 + i for instance i. -/
  nodes : Tab SchNode := []
  /-- Deficits of flows in bytes, at 2^20 port + flow code. -/
  deficits : Tab Nat := []
  /-- Round-robin positions: the last served of each list of each port. -/
  last : Tab Nat := []
  buckets : Tab Bucket := []
  /-- Counted bytes of control and response packets of each port in this interval (R252). -/
  ahead : Tab Nat := []
  deriving DecidableEq, Repr

end Sys2Proof.Machine
end

