-- ==== Sys2Proof/Machine/SysTypes.lean ====
section
/-! DEFINITION. The kinds of data of storage, security, the control processors and the rest of the device. -/
namespace Sys2Proof.Machine

open Sys2Proof

/-! ### Storage queues (R296 to R318) -/

/-- A volume's fields as a command found them when it was fetched (R304). -/
structure Vol where
  num : Nat := 0
  glade : Nat := 0
  local_ : Bool := false
  big : Bool := false
  readOnly : Bool := false
  encrypt : Bool := false
  key : Nat := 0
  dev : Nat := 0
  target : Nat := 0
  svol : Nat := 0
  capacity : Nat := 0
  tweak : Nat := 0
  deriving DecidableEq, Repr

/-- A storage tag (R298): the ring entry of the command that holds it, its use count, and the state of the command: its
volume, its data segments, its slot, whether a volume message is out, the fence it waits for, and for a FLUSH the tags it
covers, the volumes whose messages are out and its first failure. -/
structure StqTag where
  entry : Option Nat := none
  uses : Nat := 0
  vol : Vol := {}
  segs : List (Nat × Nat) := []
  slot : Option Nat := none
  waited : Bool := false
  sent : Bool := false
  /-- Regions and the write sequence that must be applied at the twin. -/
  fences : List (Nat × Nat) := []
  covered : List (Nat × Nat) := []
  flushing : Bool := false
  flushVols : List Nat := []
  flushed : List Nat := []
  status : Nat := 0
  deriving DecidableEq, Repr

/-- A staging slot that is not free: the request it is held for, or a quarantine (R307). -/
structure StqSlot where
  slot : Nat
  queue : Nat
  tag : Nat
  uses : Nat
  quarantined : Bool
  deriving DecidableEq, Repr

/-- A failed command in an instance's error log (R312). -/
structure StqError where
  time : Nat
  qid : Nat
  status : Nat
  tag : Nat
  lba : Nat
  volume : Nat
  opcode : Nat
  result : Nat
  deriving DecidableEq, Repr

/-- What storage keeps for an instance (R311, R312): its features, its error log, newest first, the time of its last
message and the vectors that wait for the holdoff. -/
structure StqInst where
  holdoff : Nat := 0
  raise : Bool := false
  errors : List StqError := []
  lastMsg : Option Nat := none
  heldVectors : List Nat := []
  deriving DecidableEq, Repr

/-- The storage queues' state that no register shows. -/
structure Stq where
  /-- Tags, at 32 queue + tag. -/
  tags : Tab StqTag := []
  /-- Slots that are not free, by glade. -/
  slots : Tab (List StqSlot) := []
  /-- Volumes with writes of a queue that succeeded and have not been flushed since. -/
  dirty : Tab (List Nat) := []
  insts : Tab StqInst := []
  /-- Statistics of volumes, at 4096 glade + volume: blocks read, blocks written, commands, failures. -/
  stats : Tab (List Nat) := []
  deriving DecidableEq, Repr

/-! ### Firmware (R417 to R423) -/

/-- The firmware's state that no register shows. -/
structure Fw where
  /-- Bytes of a partial image written into the store so far, and whether its last piece has come (R313). -/
  next : Nat := 0
  short : Bool := false
  /-- The running image, kept by the management complex. -/
  running : List Byte := []
  /-- An image being fetched by LOAD: its length and the port it comes through (R62). -/
  loading : Option (Nat × Nat) := none
  /-- An image that LOAD has verified runs, and has not declared itself ready. -/
  started : Bool := false
  /-- The image being committed, as the store held it, and the handover image that activation starts. -/
  staged : List Byte := []
  /-- The FW_COMMIT being verified or activated: queue, ring entry and ACTION. -/
  commit : Option (Nat × Nat × Nat) := none
  /-- The command that started the activation in progress has been completed. -/
  told : Bool := false
  /-- Local time at which QUIESCE began. -/
  pauseAt : Nat := 0
  /-- An emergency has deferred the activation. -/
  deferred : Bool := false
  deriving DecidableEq, Repr

/-! ### Bring-up (R45 to R68) -/

/-- A control operation aimed at a unit agent, held while its agents move to the alternate controller (R13): a service command,
a march test on request, or a grove reset. -/
inductive HeldCtl where
  | svc (action unit : Nat) (force : Bool)
  | march (unit mode : Nat)
  | grove (g : Nat)
  deriving DecidableEq, Repr

/-- A BAR0 write to the registers of a unit for which a spare is being brought in (R15), or whose grove is in reset (R451): the unit,
or 0x10000 and the grove, the port, the offset, whether it is 64 bits wide, and the word. -/
structure HeldReg where
  unit : Nat
  port : Nat
  off : Nat
  wide : Bool
  word : Nat
  deriving DecidableEq, Repr

/-- The state of bring-up and of repair that no register shows. -/
structure Boot where
  /-- The verified image copy in use (R53), held in the management complex. -/
  image : List Byte := []
  /-- It is signed by an owner key (R322). -/
  byOwner : Bool := false
  /-- Spare enablement policies for tiles, worker cores and optical lanes (R59). -/
  tilePolicy : Nat := 0
  corePolicy : Nat := 0
  lanePolicy : Nat := 0
  /-- Records of the repair log that fit a slot, and those kept only until the next power-on reset (R58). -/
  log : List (List Byte) := []
  extra : List (List Byte) := []
  /-- Sequence and number of the current log slot; slot 1 when there is none, so that slot 0 is written next. -/
  logSeq : Nat := 0
  logSlot : Nat := 1
  /-- A write-back is in progress (R58): its slot, its bytes and how many records it holds. -/
  writing : Option (Nat × List Byte × Nat) := none
  /-- Causes and units for which RES_SERVICE_DUE has been raised (R373). -/
  dueRaised : List (Nat × Nat) := []
  /-- Region controllers recorded as failed (R372). -/
  ctrlFailed : List Nat := []
  /-- Units that failed, and cannot be a spare or be brought back but by TWN_SVC: physical unit identifiers. -/
  failed : List Nat := []
  /-- Units that have passed a march test since they were taken out (R375), and the spares being brought in: the
  logical unit and, for a return, the physical unit. -/
  marchPassed : List Nat := []
  bringing : List (Nat × Option Nat) := []
  /-- The on-request march test in progress: unit and mode (R61). -/
  march : Option (Nat × Nat) := none
  /-- Region controllers whose agents are moving (R13). -/
  moving : List Nat := []
  /-- Control operations held for agents that move, oldest first (R13). -/
  heldCtl : List HeldCtl := []
  /-- BAR0 writes held for spares that come in, or for groves in reset, oldest first (R15, R451). -/
  heldRegs : List HeldReg := []
  /-- Writes held for scratchpads whose tiles' spares come in, oldest first: address and bytes (R15). -/
  heldPad : List (Nat × List Byte) := []
  /-- The start in progress, or the last one, followed a warm device reset (R60, R65). -/
  warmStart : Bool := false
  /-- The warm device reset is waiting for DRAM to drain, or for self-refresh entry (R85): 0 no, 1 drain, 2 entry. -/
  warm : Nat := 0
  /-- Clusters and quadrant shared units taken out of service, or stopped: unit identifiers (R375, R448). -/
  outUnits : List Nat := []
  /-- The start-up march test of this start has been run as the options say; faults were found at start. -/
  foundFaults : Bool := false
  /-- A repair set is applied, and outlives warm device resets (R65). -/
  repaired : Bool := false
  /-- DRAM contents have survived the warm device reset so far (R86). -/
  kept : Bool := false
  /-- The device stays as it is until PWRGD next rises: 0 no, 1 a sagging rail or a stopped SYSCLK_25 (R33, R35), 2 a strap,
  a missing SYSCLK_25 or AUX_PWRGD low when PWRGD rose (R31, R35, R37), 3 a thermal trip (R39). -/
  dead : Nat := 0
  deriving DecidableEq, Repr

/-- The levels on the signals that the device reads or drives (R36): true for high, or for a clock present. -/
structure Pins where
  aux : Bool := true
  pwr : Bool := true
  /-- SYS_RST_N is low. -/
  sysRst : Bool := false
  /-- Ports whose PERST_x_N is low, and ports whose PERST_x_N rose within 100 ms of PWRGD (R31). -/
  perst : List Nat := [0, 1]
  early : List Nat := []
  /-- Host and optical reference clocks that are absent. -/
  hclkLost : List Nat := []
  oclkLost : List Nat := []
  /-- Laser inputs that are dark (R28). -/
  dark : List Nat := []
  /-- THERMTRIP_N is pulled low. -/
  trip : Bool := false
  /-- Straps as sampled (R37). -/
  strapTest : Bool := false
  strapSlow : Bool := false
  deriving DecidableEq, Repr

/-! ### Control processors (R390 to R413, R458 to R466) -/

/-- The registers of a worker core, or of the management cores (R395, R401). -/
structure Core where
  pc : Nat := 0
  gp : Tab Nat := []
  pl : Nat := 3
  ie : Bool := false
  ppl : Nat := 0
  pie : Bool := false
  tip : Bool := false
  tvec : Nat := 0
  tpc : Nat := 0
  tcause : Nat := 0
  tval : Nat := 0
  df : Nat := 0
  tcmp : Nat := 0
  apt : Tab Nat := []
  lpr : Nat := 0
  /-- Local time at which the watchdog was last restarted; while the core is halted, how long the watchdog had run. -/
  wdog : Nat := 0
  /-- The core waits in WFI. -/
  wfi : Bool := false
  /-- Local times of the soft crashes of the last second (R410). -/
  soft : List Nat := []
  /-- The core is being reset and reloaded after a soft crash. -/
  restarting : Bool := false
  deriving DecidableEq, Repr

/-- What the Trail port keeps for a core (R460): halted, why, and its breakpoint and watchpoint words. -/
structure Debug where
  halted : Bool := false
  reason : Nat := 0
  which : Nat := 0
  /-- It executes one instruction and halts again. -/
  stepping : Bool := false
  /-- It has been let go at its PC, so that a breakpoint there does not stop it again. -/
  pass : Bool := false
  /-- A watchpoint has matched, and the core halts before its next instruction. -/
  hit : Option Nat := none
  bp : Tab Nat := []
  wp : Tab Nat := []
  deriving DecidableEq, Repr

/-- An access of TRL_MEM_DATA (R462): the word to write, the address, whether it is in local memory, the core, and the
answer once it is done. -/
structure TrailJob where
  write : Option Nat
  addr : Nat
  onCore : Bool
  core : Nat
  result : Option Nat := none
  deriving DecidableEq, Repr

/-- The control processors' state that no register shows. -/
structure Cpu where
  /-- Worker core 16 c + j of cluster c, and at 256 the management cores: the active pair's state, of which the standby
  pair holds a copy (R412). -/
  cores : Tab Core := []
  /-- Local memories: byte `a` of worker core k at 0x40000 k + a, of the management cores at 0x4000000 + a (R392). -/
  mem : Tab Byte := []
  /-- Cluster buffers: byte `a` of cluster c at 0x400000 c + a. -/
  cbuf : Tab Byte := []
  /-- Debugging, by worker core, and at 256 and 257 the management pairs. -/
  probes : Tab Debug := []
  /-- The offload operation in progress: OP and slot. -/
  ofl : Option (Nat × Nat) := none
  /-- ENTRY of the program of each slot (R406). -/
  entry : Tab Nat := []
  /-- The Trail memory access in progress or done. -/
  job : Option TrailJob := none
  /-- Firmware runs on the management cores. -/
  mgmtOn : Bool := false
  /-- A management failover is in progress (R412). -/
  failover : Bool := false
  /-- The instruction of the test access port (R464), and whether it holds the device in warm device reset (R466). -/
  tap : Nat := 1
  tapHold : Bool := false
  deriving DecidableEq, Repr

/-! ### Power and telemetry (R427, R438 to R441) -/

/-- Power control's state that no register shows: the last 1,000 samples of package power in W, newest first (R427), and a
write of PWR_LIMIT held during an activation (R431). -/
structure Pwr where
  samples : List Nat := []
  heldLimit : Option Nat := none
  /-- A hardware cap has been in force for so many samples of the current ms. -/
  capTicks : Nat := 0
  deriving DecidableEq, Repr

/-- A sampled stream (R438): samples since ENABLE was set, and samples missed since the last record. -/
structure Stream8 where
  num : Nat := 0
  missed : Nat := 0
  deriving DecidableEq, Repr

/-- A metering record before it is written (R439): interval, fields, fields saturated, and its flag bits. -/
structure MeterRec where
  start : Nat
  stop : Nat
  fields : List Nat
  flags : Nat
  deriving DecidableEq, Repr

/-- Metering of a glade (R439, R440): where its interval began, the hardware counts since then, the totals of intervals that
have ended and wait for firmware to write them, the records held, and whether a warm device reset has lost counts. -/
structure Meter where
  start : Nat := 0
  counts : List Nat := []
  ended : List MeterRec := []
  held : List MeterRec := []
  restart : Bool := false
  deriving DecidableEq, Repr

/-- Telemetry's state that no register shows. -/
structure Tlm where
  streams : Tab Stream8 := []
  meters : Tab Meter := []
  deriving DecidableEq, Repr

end Sys2Proof.Machine
end

