-- ==== Sys2Proof/Machine/State.lean ====
section
/-! DEFINITION. The state of the T9, the reasons it can stop for, and the state right after power-on reset. Choices and
readings of the model: log entries 5 to 8 and 10. -/
namespace Sys2Proof.Machine

open Sys2Proof

/-- The reasons the block stops: none. The spec gives every command an effect in every state, and an access that it turns
away is answered with a status. -/
inductive Fault where
  deriving DecidableEq, Repr

/-- The reasons a command is refused by the model. -/
inductive Refusal where
  /-- Raised by an arm of `exec` that has no meaning yet. Safe: the machine stops. -/
  | notModelled (mnemonic : String)
  deriving DecidableEq, Repr

/-- The state of the T9. -/
structure State where
  /-- The register space (R21): every register whose word differs from its reset word, by offset. -/
  regs : Tab Word := []
  /-- The bytes of DRAM and of the scratchpad aggregate by internal address (R19). -/
  mem : List Host.Cell := []
  /-- The DRAM stacks' own state. -/
  dram : Dram := {}
  /-- The two host ports' functions. -/
  ports : Tab HostPort := []
  /-- Every queue, by queue identifier (R172); the set-up queue is entry 0. -/
  queues : Tab Queue := []
  /-- The matrix tiles, by logical index. -/
  tiles : Tab Tile := []
  /-- Pending waits on sync counters and completion counts (R171). -/
  waits : List Wait := []
  /-- The rings of the growth-ring groups, ring r of group g at 2g + r. -/
  rings : Tab CkpRing := []
  /-- Messages of ring groups that came before the ring they belong to, by group: member, step, message. -/
  ckpEarly : Tab (List (Nat × Nat × CkpMsg)) := []
  /-- The twin pair's own state. -/
  twin : Twin := {}
  /-- The security block's own state. -/
  sec : Sec := {}
  /-- Statistic counters, by register offset, that hold their overflow bit (R435). -/
  overflow : List Nat := []
  /-- What each event ring keeps besides its registers. -/
  evr : Tab EvrRing := []
  /-- Pools, by number, that are overcommitted and whose GLD_POOL_SHRUNK has been raised (R283). -/
  shrunk : List Nat := []
  /-- Open decode streams, by context number (R148). -/
  streams : Tab Stream := []
  /-- ATTEND commands in progress, by queue identifier (R153, R154). -/
  attends : Tab Attend := []
  /-- The queue each engine picked last among equals (R118, R142), by engine. -/
  picked : Tab Nat := []
  /-- Understory links, by index. -/
  ustLinks : Tab UstLink := []
  /-- Understory groups, by index. -/
  ustGroups : Tab UstGroup := []
  /-- Peer contexts, by device number (R220). -/
  peers : Tab Peer := []
  /-- The fabric's own state. -/
  fab : Fab := {}
  /-- The scheduler's own state. -/
  sched : Sched := {}
  /-- Operations of storage commands, rings and witness grants that have ended and are to be told: owner, status, data. -/
  ended : List (Owner × Nat × List Byte) := []
  /-- The storage queues' own state. -/
  stq : Stq := {}
  /-- The firmware's own state. -/
  fw : Fw := {}
  /-- The state of bring-up. -/
  boot : Boot := {}
  /-- The signals of the package. -/
  pins : Pins := {}
  /-- The control processors' own state. -/
  cpu : Cpu := {}
  /-- Power control's own state. -/
  pwr : Pwr := {}
  /-- Telemetry's own state. -/
  tlm : Tlm := {}
  /-- Raised event records not yet written to their rings, oldest first (R275). -/
  events : List Raised := []
  /-- The local time of the last event of a kind that is raised at most once per 1 ms, by kind and source. -/
  lastEvent : Tab Nat := []
  /-- What the device has sent to the outside, oldest first. -/
  out : List Output := []
  /-- The model's own counter of free values: how many the run has drawn so far. -/
  fresh : Nat := 0
  /-- Commands waiting, first in, first out. -/
  pending : List Instr := []
  deriving DecidableEq, Repr

/-- The machine right after a power-on reset. -/
def State.reset : State := {}

end Sys2Proof.Machine
end

