-- ==== Sys2Proof/Machine/Ops.lean ====
section
/-! DEFINITION. The named operations that every meaning is built from: registers, memory, free values, statistic counters,
event records and outputs. Choices and readings of the model: log entries 5, 6 and 8. -/
namespace Sys2Proof.Machine

open Sys2Proof

/-- What a command answers. -/
abbrev Out := Host.Outcome State Fault Refusal

/-- The completion status codes shared by every queue (R10). -/
def St.success : Nat := 0x00
def St.abortedQueueReset : Nat := 0x01
def St.abortedInstanceReset : Nat := 0x02
def St.abortedHostAccessOff : Nat := 0x03
def St.hostReadTimeout : Nat := 0x04
def St.coreFaultRetryable : Nat := 0x05
def St.protectionFault : Nat := 0x06
def St.badDescriptor : Nat := 0x07
def St.mediumError : Nat := 0x08
def St.peerUnreachable : Nat := 0x09
def St.deferredEmergency : Nat := 0x0A
def St.staleDuplicate : Nat := 0x0B
def St.resourceExhausted : Nat := 0x0C
def St.activationInProgress : Nat := 0x0D
def St.twinDegraded : Nat := 0x0E
def St.integrityFail : Nat := 0x0F
def St.notSupported : Nat := 0x10
def St.epochMismatch : Nat := 0x11

/-! ### Registers (R6, R7, R22) -/

/-- The offset of entry `i` of the register a field belongs to. -/
def Fld.addr (f : Fld) (i : Nat) : Nat :=
  if f.sub = 0 then f.base + f.stride * i else f.base + f.stride2 * (i / f.sub) + f.stride * (i % f.sub)

/-- The offset of entry `i` of a register. -/
def Reg.addr (r : Reg) (i : Nat) : Nat :=
  if r.sub = 0 then r.base + r.stride * i else r.base + r.stride2 * (i / r.sub) + r.stride * (i % r.sub)

/-- The entry of a register that lies at an offset. -/
def Reg.index (r : Reg) (off : Nat) : Option Nat :=
  if off < r.base then none
  else
    let x := off - r.base
    if r.sub = 0 then
      if r.stride = 0 then (if x = 0 then some 0 else none)
      else if x % r.stride = 0 && x / r.stride < r.count then some (x / r.stride) else none
    else
      let lo := x % r.stride2
      if lo % r.stride = 0 && lo / r.stride < r.sub && (x / r.stride2) * r.sub + lo / r.stride < r.count then
        some ((x / r.stride2) * r.sub + lo / r.stride)
      else none

/-- The register blocks in the row order of R21. -/
inductive Blk where
  | glb | boot | clk | pwr | mem | tile | ust | fab | opt | sch | hep | gld | stq | sec | ckp | twn | tlm | cpu | trl
  deriving DecidableEq, Repr

/-- The block that holds an offset of the register space, if one does (R21). -/
def blockOf (off : Nat) : Option Blk :=
  if off < 0x0100000 then some .glb
  else if off < 0x0200000 then some .boot
  else if off < 0x0300000 then some .clk
  else if off < 0x0400000 then some .pwr
  else if off < 0x0800000 then some .mem
  else if off < 0x0C00000 then some .tile
  else if off < 0x1000000 then some .ust
  else if off < 0x1400000 then some .fab
  else if off < 0x1600000 then some .opt
  else if off < 0x1800000 then some .sch
  else if off < 0x1A00000 then some .hep
  else if off < 0x1C00000 then some .gld
  else if off < 0x1E00000 then some .stq
  else if off < 0x2000000 then some .sec
  else if off < 0x2200000 then some .ckp
  else if off < 0x2400000 then some .twn
  else if off < 0x2600000 then some .tlm
  else if off < 0x2800000 then some .cpu
  else if off < 0x2A00000 then some .trl
  else none

/-- The number of a block in the row order of R21, from 0. -/
def Blk.number : Blk → Nat
  | .glb => 0 | .boot => 1 | .clk => 2 | .pwr => 3 | .mem => 4 | .tile => 5 | .ust => 6 | .fab => 7 | .opt => 8
  | .sch => 9 | .hep => 10 | .gld => 11 | .stq => 12 | .sec => 13 | .ckp => 14 | .twn => 15 | .tlm => 16
  | .cpu => 17 | .trl => 18

/-- The registers of a block. -/
def Blk.regs : Blk → List Reg
  | .glb => regTableGLB | .boot => regTableBOOT | .clk => regTableCLK | .pwr => regTablePWR | .mem => regTableMEM
  | .tile => regTableTILE | .ust => regTableUST | .fab => regTableFAB | .opt => regTableOPT | .sch => regTableSCH
  | .hep => regTableHEP | .gld => regTableGLD | .stq => regTableSTQ | .sec => regTableSEC | .ckp => regTableCKP
  | .twn => regTableTWN | .tlm => regTableTLM | .cpu => regTableCPU | .trl => regTableTRL

/-- The register of a list that holds an offset. -/
def findIn : List Reg → Nat → Option Reg
  | [], _ => none
  | r :: t, off => if (Reg.index r off).isSome then some r else findIn t off

/-- The register at an offset of the register space, if the spec gives one there. -/
def findReg (off : Nat) : Option Reg :=
  match blockOf off with
  | some b => findIn b.regs off
  | none => none

/-- The word a register holds at power-on reset (R7); an offset with no register reads as zero. -/
def resetAt (off : Nat) : Word :=
  match findReg off with
  | some r => BitVec.ofNat 64 r.reset
  | none => 0

/-- The word of the register at an offset. -/
def State.reg (s : State) (off : Nat) : Word := Tab.getD resetAt s.regs off

/-- The state with the register at an offset holding a word. -/
def State.setReg (s : State) (off : Nat) (v : Word) : State :=
  { s with regs := Tab.setD resetAt s.regs off v }

/-- The value of field `f` of register entry `i`. -/
def State.rd (s : State) (f : Fld) (i : Nat := 0) : Nat := bitsOf (s.reg (f.addr i)).toNat f.lsb f.width

/-- The state with field `f` of register entry `i` holding the low bits of `v`. -/
def State.wr (s : State) (f : Fld) (i v : Nat) : State :=
  s.setReg (f.addr i) (BitVec.ofNat 64 (putBits (s.reg (f.addr i)).toNat f.lsb f.width v))

/-- Whether field `f` of register entry `i` is not zero. -/
def State.flag (s : State) (f : Fld) (i : Nat := 0) : Bool := s.rd f i != 0

/-- The state with several fields of register entry `i` written. -/
def State.wrs (s : State) (i : Nat) (l : List (Fld × Nat)) : State := l.foldl (fun s p => s.wr p.1 i p.2) s

/-- The register of field `f`, entry `i`, back at its reset word. -/
def State.resetReg (s : State) (f : Fld) (i : Nat := 0) : State := s.setReg (f.addr i) (resetAt (f.addr i))

/-- Every register whose offset fails a test back at its reset word. -/
def State.resetRegsBut (s : State) (keep : Nat → Bool) : State :=
  { s with regs := s.regs.filter fun p => keep p.1 }

/-- The local time counter, in ns (R437). -/
def State.now (s : State) : Nat := s.rd TLM_TIME.NS

/-! ### Free values -/

/-- A fresh free 64-bit word, and the state that has drawn it. -/
def State.freeWord (s : State) : Word × State := (Config.freeWord s.fresh, { s with fresh := s.fresh + 1 })

/-- A fresh free bit, and the state that has drawn it. -/
def State.freeBit (s : State) : Bool × State := (Config.freeBit s.fresh, { s with fresh := s.fresh + 1 })

/-- `n` fresh free bytes, and the state that has drawn them. -/
def State.freeBytes (s : State) (n : Nat) : List Byte × State :=
  ((List.range n).map fun i => Config.freeByte (s.fresh + i), { s with fresh := s.fresh + n })

/-- A list in a free order: "added in some order" (R113), "in the order in which they arrive" (R112). `k` counts the free
words drawn. -/
def shuffle {α : Type} : Nat → Nat → List α → List α
  | 0, _, l => l
  | fuel + 1, k, l =>
    if l.isEmpty then []
    else
      let i := (Config.freeWord k).toNat % l.length
      ((l.drop i).take 1) ++ shuffle fuel (k + 1) (l.take i ++ l.drop (i + 1))

/-- A list in a fresh free order, and the state that has drawn it. -/
def State.shuffled {α : Type} (s : State) (l : List α) : List α × State :=
  (shuffle l.length s.fresh l, { s with fresh := s.fresh + l.length })

/-! ### Memory -/

/-- What a byte of memory reads as when nothing has written it: zero (DESIGN CHOICE, unsafe: log entry 6). -/
def memDefault : Byte := 0

/-- One byte of memory at an internal address. -/
def State.byte (s : State) (a : Nat) : Byte := Tab.get memDefault s.mem a

/-- The state with one byte of memory written. -/
def State.setByte (s : State) (a : Nat) (b : Byte) : State := { s with mem := Tab.set memDefault s.mem a b }

/-- `n` bytes of memory from an internal address. -/
def State.bytes (s : State) (a n : Nat) : List Byte := (List.range n).map fun i => s.byte (a + i)

/-- The entries of a list of bytes from an address on: one for each byte that is not what an unlisted address reads as. -/
def Mem.cells : Nat → List Byte → List Host.Cell
  | _, [] => []
  | a, b :: t => if b = memDefault then Mem.cells (a + 1) t else (a, b) :: Mem.cells (a + 1) t

/-- The entries below an address. -/
def Mem.lower : List Host.Cell → Nat → List Host.Cell
  | [], _ => []
  | (x, b) :: t, a => if x < a then (x, b) :: Mem.lower t a else Mem.lower t a

/-- The entries from an address on. -/
def Mem.upper : List Host.Cell → Nat → List Host.Cell
  | [], _ => []
  | (x, b) :: t, a => if x < a then Mem.upper t a else (x, b) :: Mem.upper t a

/-- Memory with a list of bytes written from an address on. -/
def Mem.store (m : List Host.Cell) (a : Nat) (l : List Byte) : List Host.Cell :=
  Mem.lower m a ++ Mem.cells a l ++ Mem.upper m (a + l.length)

/-- The state with a list of bytes written from an address on. -/
def State.store (s : State) (a : Nat) (l : List Byte) : State := { s with mem := Mem.store s.mem a l }

/-- The state with `n` bytes from an address on holding data that the spec leaves undefined: fresh free bytes. -/
def State.scramble (s : State) (a n : Nat) : State :=
  let r := s.freeBytes n
  r.2.store a r.1

/-- Memory is in its canonical form. -/
def Memory.wf (m : List Host.Cell) : Bool := Tab.wf (fun _ => memDefault) m

/-- The register space is in its canonical form. -/
def Regs.wf (r : Tab Word) : Bool := Tab.wf resetAt r

/-! ### Unit identifiers (R17) -/

/-- The unit identifier of a class and an index. -/
def unitId (cls idx : Nat) : Nat := 0x1000 * cls + idx % 0x1000

/-! ### Event records (R273 to R276) -/

/-- Whether event ring `r` is in force and its filters pass a record (R275). -/
def ringTakes (s : State) (r glade inst : Nat) : Bool :=
  s.flag HEP_EVR_CFG.ENABLE r
    && (!s.flag HEP_EVR_CFG.GLADE_FILT r || s.rd HEP_EVR_CFG.GLADE r == glade)
    && (!s.flag HEP_EVR_CFG.INST_FILT r || s.rd HEP_EVR_CFG.INST r == inst)

/-- The rings a record raised now is due for (R276). -/
def ringsFor (s : State) (glade inst : Nat) : List Nat := below 64 fun r => ringTakes s r glade inst

/-- Queue a record for its rings, or discard it and count it in HEP_EVR_UNMATCHED (R275). The answer's second part says
whether that counter has just saturated. -/
def raiseCore (s : State) (e : EventRec) : State × Bool :=
  match ringsFor s e.glade e.inst with
  | [] =>
    let v := s.rd HEP_EVR_UNMATCHED.COUNT
    if v < 0xFFFFFFFFFFFFFFFF then (s.wr HEP_EVR_UNMATCHED.COUNT 0 (v + 1), false)
    else (s, !s.overflow.contains (HEP_EVR_UNMATCHED.COUNT.addr 0))
  | due => ({ s with events := s.events ++ [{ event := e, due := due }] }, false)

/-- The record of a statistic counter that has saturated (R435, R443). -/
def saturatedRec (s : State) (off : Nat) : EventRec :=
  { type := 0x1401, source := unitId 0 0, glade := 0, inst := 0, status := 0, gen := 0, time := s.now, payload := off }

/-- Set a statistic counter's overflow bit and its block's bit in TLM_OVF_SUM (R435). -/
def setOverflow (s : State) (off : Nat) : State :=
  let s := { s with overflow := off :: s.overflow }
  match blockOf off with
  | some b => s.wr TLM_OVF_SUM.BLOCKS 0 (Nat.lor (s.rd TLM_OVF_SUM.BLOCKS) (2 ^ b.number))
  | none => s

/-- Raise an event record (R273): stamped with the local time and, for an instance, its generation. -/
def State.raise (s : State) (type source glade inst status payload : Nat) : State :=
  let gen := if inst = 0 then 0 else s.rd GLD_INST.GEN inst
  let e : EventRec :=
    { type := type, source := source, glade := glade, inst := inst, status := status, gen := gen, time := s.now,
      payload := payload % 2 ^ 64 }
  match raiseCore s e with
  | (s, false) => s
  | (s, true) =>
    let off := HEP_EVR_UNMATCHED.COUNT.addr 0
    (raiseCore (setOverflow s off) (saturatedRec s off)).1

/-- Raise an event that concerns no glade, no instance and no operation. -/
def State.raiseUnit (s : State) (type source payload : Nat) : State := s.raise type source 0 0 0 payload

/-- Whether a rate-limited event of this key may be raised now: at most once per 1 ms. -/
def State.mayRaise (s : State) (key : Nat) : Bool :=
  match Tab.find s.lastEvent key with
  | none => true
  | some t => 1000000 + t ≤ s.now

/-- Note that the rate-limited event of this key has been raised now. -/
def State.noteRaised (s : State) (key : Nat) : State := { s with lastEvent := Tab.put s.lastEvent key s.now }

/-- Increment a statistic counter by `n` (R435): it saturates, sets its overflow bit once and raises one event. -/
def State.bump (s : State) (f : Fld) (i : Nat := 0) (n : Nat := 1) : State :=
  let v := s.rd f i
  if v + n ≤ 0xFFFFFFFFFFFFFFFF then s.wr f i (v + n)
  else
    let s := s.wr f i 0xFFFFFFFFFFFFFFFF
    if s.overflow.contains (f.addr i) then s
    else (raiseCore (setOverflow s (f.addr i)) (saturatedRec s (f.addr i))).1

/-- Increment a small count field that saturates at all ones, with no flag and no event (R434). -/
def State.bumpSmall (s : State) (f : Fld) (i : Nat := 0) (n : Nat := 1) : State :=
  s.wr f i (satAdd f.width (s.rd f i) n)

/-! ### Metering counts (R439) -/

/-- What metering keeps of a glade. -/
def State.meter (s : State) (g : Nat) : Meter := Tab.get {} s.tlm.meters g

/-- The state with a glade's metering replaced, and the records it holds shown. -/
def State.setMeter (s : State) (g : Nat) (m : Meter) : State :=
  let s := { s with tlm := { s.tlm with meters := Tab.set {} s.tlm.meters g m } }
  s.wr TLM_MTR_GLADE.HELD g m.held.length

/-- A list of twelve counts with `n` added to count `f`. -/
def addCount (l : List Nat) (f n : Nat) : List Nat :=
  (List.range 12).map fun i => (l.drop i).headD 0 + (if i = f then n else 0)

/-- Count `n` towards field `f` of a glade's metering record, while metering is enabled for it. -/
def State.meterAdd (s : State) (g f n : Nat) : State :=
  if n ≠ 0 && s.flag TLM_MTR_GLADE.EN g then s.setMeter g { s.meter g with counts := addCount (s.meter g).counts f n } else s

/-! ### Writes of registers in NO_IMAGE (R54) -/

/-- No image has verified (R54): BAR0 reaches the BOOT and GLB blocks only. -/
def State.noImage (s : State) : Bool := s.rd BOOT_STATE.STATE == 9

/-- What a BAR0 write to a block other than BOOT and GLB does: in NO_IMAGE it is dropped (R54). -/
def unlessNoImage (s : State) (o : Out) : Out := if s.noImage then .next s else o

/-! ### Registers of a tile (R15, R16) -/

/-- Set flags of GLB_REG_ERR: FIRST_OFFSET takes the offset of an access that finds every flag 0. After every flag has been
cleared it keeps the old offset until then (log entry 32). -/
def flagAccess (s : State) (off : Nat) (l : List Fld) : State :=
  let clear := !s.flag GLB_REG_ERR.MISALIGNED && !s.flag GLB_REG_ERR.BAD_SIZE && !s.flag GLB_REG_ERR.UNMAPPED
    && !s.flag GLB_REG_ERR.OUT_OF_SVC
  let s := if clear && !l.isEmpty then s.wr GLB_REG_ERR.FIRST_OFFSET 0 off else s
  s.wrs 0 (l.map fun f => (f, 1))

/-- A spare is being brought in for a unit, or the unit is being returned. -/
def bringing (s : State) (unit : Nat) : Bool := s.boot.bringing.any fun b => b.1 == unit

/-- Hold a BAR0 write to a unit's registers until its spare is in service (R15). -/
def holdReg (s : State) (h : HeldReg) : State := { s with boot := { s.boot with heldRegs := s.boot.heldRegs ++ [h] } }

/-! ### Outputs -/

/-- The state that has sent something to the outside. -/
def State.emit (s : State) (o : Output) : State := { s with out := s.out ++ [o] }

end Sys2Proof.Machine
end

