-- ==== Sys2Proof/Machine/HostOps.lean ====
section
/-! DEFINITION. Host access through a port: whether it is allowed, writes to host memory, MSI-X messages, tags. Choices and
readings of the model: log entries 10 and 26. -/
namespace Sys2Proof.Machine

open Sys2Proof

/-- The function of a host port: 0 is A, 1 is B. -/
def State.port (s : State) (p : Nat) : HostPort := Tab.get {} s.ports p

/-- The state with a port's function replaced, and its tag registers showing it (R280). -/
def State.setPort (s : State) (p : Nat) (h : HostPort) : State :=
  let s := { s with ports := Tab.set {} s.ports p h }
  let s := s.wr HEP_TAG_STAT.OUTSTANDING p (h.outstanding.filter fun r => !r.old).length
  s.wr HEP_TAG_STAT.QUARANTINED p h.quarantine.length

/-- The mediator port, used for device-level requests (R280). -/
def State.medPort (s : State) : Nat := s.rd HEP_CFG.MED_PORT

/-- Whether the device may issue requests through a port: Bus Master Enable set and no reset in progress (R268, R269). -/
def State.masterOn (s : State) (p : Nat) : Bool :=
  s.flag HEP_PORT_STAT.BME p && !s.flag HEP_PORT_STAT.FLR_BUSY p && !(s.port p).inReset

/-- The home port of an instance. -/
def State.homePort (s : State) (inst : Nat) : Nat :=
  if inst = 0 then s.medPort else s.rd GLD_INST.PORT inst

/-- The PASID an instance's host accesses carry (R287). -/
def State.pasidOf (s : State) (inst : Nat) : Option Nat :=
  if inst ≠ 0 && s.flag GLD_INST.PASID_EN inst then some (s.rd GLD_INST.PASID inst) else none

/-- Whether an instance's operations may reach the host now (R268, R287). -/
def State.hostOn (s : State) (inst : Nat) : Bool :=
  let p := s.homePort inst
  s.masterOn p && ((s.pasidOf inst).isNone || (s.port p).pasidEn)

/-- Whether the translation of a write fails (R262). The device learns that of a posted write only where it asks for the translation
first, with ATS enabled; what the host then answers no command brings, so it is free (log entry 26, safe). -/
def State.hostRefuses (s : State) (p : Nat) : Bool × State := if s.flag HEP_PORT_STAT.ATS_EN p then s.freeBit else (false, s)

/-- Whether data writes through a port carry Relaxed Ordering (R265). -/
def dataRelaxed (s : State) (p : Nat) : Bool := (s.port p).relaxed && s.flag HEP_PORT_CFG.RO_EN p

/-- Write bytes to host memory through a port, poisoned or not, and count what goes out poisoned (R270). The answer is the status of
the write: PROTECTION_FAULT where its translation fails (R262). -/
def State.portWrite (s : State) (p : Nat) (pasid : Option Nat) (addr : Nat) (l : List Byte) (poisoned relaxed : Bool) :
    State × Nat :=
  let r := s.hostRefuses p
  if r.1 then (r.2, St.protectionFault)
  else
    let s := r.2.emit (.hostWrite p pasid addr l poisoned relaxed)
    (if poisoned then s.bump HEP_CNT.COUNT (8 * p + 3) else s, St.success)

/-- Write data to host memory for an instance, with the status of the write (R262, R265, R268). -/
def State.instWrite (s : State) (inst addr : Nat) (l : List Byte) (poisoned : Bool := false) : State × Nat :=
  if s.hostOn inst then s.portWrite (s.homePort inst) (s.pasidOf inst) addr l poisoned (dataRelaxed s (s.homePort inst))
  else (s, St.abortedHostAccessOff)

/-- Write an entry to host memory for an instance: it never carries Relaxed Ordering, and one that cannot be written is lost (R262, R265,
R268). -/
def State.hostWrite (s : State) (inst addr : Nat) (l : List Byte) : State :=
  if s.hostOn inst then (s.portWrite (s.homePort inst) (s.pasidOf inst) addr l false false).1 else s

/-- A vector of a port's function falls due (R272): one message is sent, or its pending bit is set. -/
def State.msix (s : State) (p v : Nat) : State :=
  let h := s.port p
  if h.msixEn && !h.msixMask && h.unmasked.contains v && s.masterOn p then s.emit (.msix p v)
  else if h.pba.contains v then s
  else s.setPort p { h with pba := v :: h.pba }

/-- Whether a pending vector's cause has been removed (R272). -/
def State.msixOpen (s : State) (p v : Nat) : Bool :=
  let h := s.port p
  h.msixEn && !h.msixMask && h.unmasked.contains v && s.masterOn p

/-- Send one message for each pending vector whose cause has been removed, lowest first, and clear its bit (R272). -/
def State.msixDrain (s : State) (p : Nat) : State :=
  (sortNat (s.port p).pba).foldl
    (fun s v =>
      if s.msixOpen p v then
        let s := s.setPort p { s.port p with pba := (s.port p).pba.filter (· != v) }
        s.emit (.msix p v)
      else s) s

/-- Log an error in a port's AER (R261, R271): the first uncorrectable one fills the header log, and an advisory one of non-fatal
severity is an Advisory Non-Fatal Error too. -/
def State.logAer (s : State) (p : Nat) (e : AerErr) : State :=
  let h := s.port p
  let l := if e.isAdvisory && !h.fatal.contains e then [e, .advisory] else [e]
  let r := if !e.correctable && h.aer.all AerErr.correctable then s.freeBytes 32 else (h.hdrLog, s)
  r.2.setPort p { h with aer := (l.filter fun x => !h.aer.contains x) ++ h.aer, hdrLog := r.1 }

/-- Completion statuses of a PCIe read. -/
def Cpl.success : Nat := 0
def Cpl.unsupported : Nat := 1
def Cpl.abort : Nat := 4

/-- Answer a host request with Unsupported Request (R263, R271). A posted request gets no completion. -/
def unsupported (s : State) (p tag : Nat) (posted : Bool) : State :=
  let s := (s.logAer p .unsupportedRequest).bump HEP_CNT.COUNT (8 * p + 4)
  if posted then s else s.emit (.completion p tag Cpl.unsupported [] false)

/-- The number of tags of the enabled width (R264). -/
def tagPool (s : State) (p : Nat) : Nat :=
  match s.rd HEP_PORT_STAT.TAGW p with
  | 0 => 256
  | 1 => 1024
  | _ => 16384

/-- The most requests a port may have outstanding (R264, R280). -/
def tagLimit (s : State) (p : Nat) : Nat :=
  let m := s.rd HEP_PORT_CFG.MAX_OUT p
  let m := if m = 0 then 1 else min m 4096
  min m (match s.rd HEP_PORT_STAT.TAGW p with
    | 0 => 128
    | 1 => 512
    | _ => 4096)

/-- The free tag a port takes next, the one that has been free longest, and the function without it (R264). -/
def takeTag (s : State) (p : Nat) : Option (Nat × HostPort) :=
  let h := s.port p
  if h.nextTag < tagPool s p then some (h.nextTag, { h with nextTag := h.nextTag + 1 })
  else
    match h.freed.find? (· < tagPool s p) with
    | some t => some (t, { h with freed := h.freed.filter (· != t) })
    | none => none

/-- Whether a port may issue one more request: below its limit, and with a free tag (R264). -/
def tagReady (s : State) (p : Nat) : Bool := (s.port p).outstanding.length < tagLimit s p && (takeTag s p).isSome

/-- Issue a request: it takes a tag if the limit and the pool allow, and otherwise it waits (R264). -/
def State.hostRequest (s : State) (p : Nat) (r : HostReq) : State :=
  let h := s.port p
  if s.masterOn p && h.outstanding.length < tagLimit s p then
    match takeTag s p with
    | some (t, h) =>
      let s := s.setPort p { h with outstanding := h.outstanding ++ [{ r with tag := t }] }
      s.emit (.hostRead p t r.pasid r.addr r.len)
    | none => s.setPort p { h with waiting := h.waiting ++ [r] }
  else s.setPort p { h with waiting := h.waiting ++ [r] }

/-- The pieces a read is split into: none larger than the maximum request size, none across a 4 KiB boundary (R264). -/
def splitRead (mrrs : Nat) : Nat → Nat → Nat → List (Nat × Nat)
  | 0, _, _ => []
  | fuel + 1, addr, len =>
    if len = 0 then []
    else
      let n := min len (min (max mrrs 1) (4096 - addr % 4096))
      (addr, n) :: splitRead mrrs fuel (addr + n) (len - n)

/-- A tag is free again and is the last to be used (R264). -/
def HostPort.giveTag (h : HostPort) (t : Nat) : HostPort := { h with freed := h.freed ++ [t] }

/-- A request has timed out (R266): its tag is quarantined, and, unless it is silent (R268), the error is logged, counted and
raised. -/
def State.cplTimeout (s : State) (p tag addr : Nat) (silent : Bool) : State :=
  let h := s.port p
  let s := s.setPort p { h with quarantine := h.quarantine ++ [tag] }
  let s := s.bump HEP_CNT.COUNT (8 * p)
  if silent then s
  else
    let s := s.logAer p .completionTimeout
    s.raiseUnit 0x0C01 (unitId 0x9 p) (tag + 2 ^ 16 * (addr % 2 ^ 64 / 2 ^ 16))

/-- A poisoned completion has come (R270). -/
def State.poisonRx (s : State) (p tag addr : Nat) : State :=
  let s := (s.logAer p .poisonedTlp).bump HEP_CNT.COUNT (8 * p + 2)
  s.raiseUnit 0x0C06 (unitId 0x9 p) (tag + 2 ^ 16 * (addr % 2 ^ 64 / 2 ^ 16))

/-- One request whose answer is at hand: it takes a tag, goes out, and its answer frees the tag or quarantines it (R264,
R266, R270). Nothing is issued while host access is off; while the limit or the tags let none be issued the commands that read host
memory wait (`tagReady`). -/
def State.hostReadOne (s : State) (p : Nat) (pasid : Option Nat) (addr len : Nat) (reply : HostReply) : State :=
  if !(s.masterOn p && tagReady s p) then s
  else
    match takeTag s p with
    | none => s
    | some (t, h) =>
      let s := (s.setPort p h).emit (.hostRead p t pasid addr len)
      match reply with
      | .timeout => s.cplTimeout p t addr false
      | .poisoned => (s.setPort p ((s.port p).giveTag t)).poisonRx p t addr
      | _ => s.setPort p ((s.port p).giveTag t)

/-- A read of host memory whose answer is at hand, in its requests (R264): one after the other, so an answer that is no data, which
fails the operation, is the answer to the first, and the others are never issued (R266). -/
def State.hostRead (s : State) (p : Nat) (pasid : Option Nat) (addr len : Nat) (reply : HostReply) : State :=
  match splitRead (s.port p).mrrs (len + 1) addr len with
  | [] => s
  | (a, n) :: rest =>
    let s := s.hostReadOne p pasid a n reply
    if reply.isData then rest.foldl (fun s r => s.hostReadOne p pasid r.1 r.2 reply) s else s

/-- Whether an instance's next read of host memory need not wait for a tag (R264). -/
def State.instReady (s : State) (inst : Nat) : Bool := !s.hostOn inst || tagReady s (s.homePort inst)

/-- A read of host memory on behalf of an instance, whose answer is at hand. -/
def State.instRead (s : State) (inst addr len : Nat) (reply : HostReply) : State :=
  if s.hostOn inst then s.hostRead (s.homePort inst) (s.pasidOf inst) addr len reply else s

end Sys2Proof.Machine
end

