-- ==== Sys2Proof/Machine/DramMap.lean ====
section
/-! DEFINITION. Where an address lands in DRAM, which codewords cannot be read, and the memory region table. Choices and
readings of the model: log entry 27. -/
namespace Sys2Proof.Machine

open Sys2Proof

/-- T, the top of DRAM in MiB (R70). -/
def State.topMib (s : State) : Nat := s.rd MEM_STATUS.TOP_MIB

/-- The top of DRAM as an address. -/
def State.top (s : State) : Nat := 0x100000 * s.topMib

/-- L, the size of each quadrant-local part in GiB (R70). -/
def State.localGib (s : State) : Nat := s.rd MEM_LAYOUT.LOCAL_GIB

/-- Whether a bank, numbered 8 ch + bank, is retired: a MEM_RETIRE entry with STATE 2 (R81). -/
def State.bankRetired (s : State) (b : Nat) : Bool :=
  (List.range 8).any fun i =>
    s.rd MEM_RETIRE.STATE i == 2 && s.rd MEM_RETIRE.CHANNEL i * 8 + s.rd MEM_RETIRE.BANK i == b

/-- The healthy banks of a channel in ascending order (R71). -/
def healthyBanks (s : State) (ch : Nat) : List Nat := below 8 fun b => !s.bankRetired (8 * ch + b)

/-- A channel's global capacity in 4 KiB pages (R71). -/
def capPages (s : State) (ch : Nat) : Nat := 81920 * (healthyBanks s ch).length - 16384 * s.localGib

/-- A rising list without repeats. -/
def dedup : List Nat → List Nat
  | [] => []
  | [x] => [x]
  | x :: y :: t => if x = y then dedup (y :: t) else x :: dedup (y :: t)

/-- The distinct values of cap, rising (R71). -/
def capValues (s : State) : List Nat := dedup (sortNat ((List.range 64).map (capPages s)))

/-- The channel and the channel page of a page of the global part, tier by tier (R71): `before` is the previous distinct
value of cap, `page` counts from the tier's first page. -/
def tierOf (s : State) : List Nat → Nat → Nat → Option (Nat × Nat)
  | [], _, _ => none
  | v :: t, before, page =>
    let chans := below 64 fun ch => v ≤ capPages s ch
    let depth := v - before
    if page < depth * chans.length then
      (chans[page % chans.length]?).map fun ch => (ch, 16384 * s.localGib + before + page / chans.length)
    else tierOf s t v (page - depth * chans.length)

/-- The end of the global part (R70). -/
def globalTop (s : State) : Nat := 0x100000 * (s.topMib - 4096 * s.localGib)

/-- The channel and channel page of an address below T (R71). -/
def channelOf (s : State) (a : Nat) : Option (Nat × Nat) :=
  if s.top ≤ a then none
  else if a < globalTop s then tierOf s (capValues s) 0 (a / 4096)
  else
    let gib := 0x40000000 * s.localGib
    let q := (a - globalTop s) / gib
    let l := (a - globalTop s - q * gib) / 4096
    some (16 * q + l % 16, l / 16)

/-- The channel, bank and row of an address below T (R71). -/
def mapAddr (s : State) (a : Nat) : Option (Nat × Nat × Nat) :=
  match channelOf s a with
  | none => none
  | some (ch, cpage) =>
    ((healthyBanks s ch)[cpage / 81920]?).map fun b => (ch, b, cpage % 81920)

/-- The quadrant of a channel (R69). -/
def quadOfChannel (ch : Nat) : Nat := ch / 16

/-- Whether the codeword at an address is out of reach: in a fenced bank (R80), in a lost quadrant (R83) or in a channel
that has left service (R448). -/
def cwLost (s : State) (a : Nat) : Bool :=
  if s.dram.fenced.isEmpty && s.dram.lostQuads.isEmpty && s.dram.lostChans.isEmpty then false
  else match mapAddr s a with
  | some (ch, b, _) =>
    s.dram.fenced.contains (8 * ch + b) || s.dram.lostQuads.contains (quadOfChannel ch) || s.dram.lostChans.contains ch
  | none => false

/-- The address of the codeword that holds an address (R73). -/
def cwOf (a : Nat) : Nat := a / 64 * 64

/-- The codewords that a range of bytes touches. -/
def cwsOf (a n : Nat) : List Nat :=
  if n = 0 then [] else (List.range ((a + n - 1) / 64 - a / 64 + 1)).map fun i => (a / 64 + i) * 64

/-- Whether the codeword at an address cannot be delivered as good data (R76, R80, R83). -/
def cwBad (s : State) (cw : Nat) : Bool :=
  cw < s.top && (s.dram.poison.contains cw || s.dram.bad.contains cw || cwLost s cw)

/-- Whether any codeword of a range of DRAM cannot be delivered as good data. -/
def State.memBad (s : State) (a n : Nat) : Bool := (cwsOf a n).any (cwBad s)

/-! ### Regions and scratchpads (R87, R14, R19) -/

/-- Base address of a region. -/
def rgnBase (s : State) (i : Nat) : Nat := 0x200000 * s.rd MEM_RGN_A.BASE i

/-- Length of a region in bytes. -/
def rgnLen (s : State) (i : Nat) : Nat := 0x200000 * s.rd MEM_RGN_B.SIZE i

/-- Whether the whole of a range lies in a region (whether or not the region is valid). -/
def inRgn (s : State) (i a n : Nat) : Bool := rgnBase s i ≤ a && a + n ≤ rgnBase s i + rgnLen s i

/-- The valid region that contains the whole of a range (R87). -/
def State.region (s : State) (a n : Nat) : Option Nat :=
  leastBelow 1024 fun i => s.flag MEM_RGN_A.VALID i && inRgn s i a n

/-- The glade of the region that contains an address, or 0 when no region does (R92). -/
def State.gladeAt (s : State) (a : Nat) : Nat :=
  match s.region a 1 with
  | some i => s.rd MEM_RGN_A.GLADE i
  | none => 0

/-- Whether a region is closed to everything but the device's own use: the registration table (R190), the backing of the
context store (R227) or the firmware store (R418), once enabled. -/
def rgnClosed (s : State) (i : Nat) : Bool :=
  (s.flag FAB_SAL_RKT_CFG.ENABLE && s.rd FAB_SAL_RKT_CFG.REGION == i)
    || (s.flag FAB_CTX_CFG.ENABLE && !s.flag FAB_CTX_CFG.LOC && s.rd FAB_CTX_CFG.REGION == i)
    || (s.flag PWR_FW_STORE.ENABLE && s.rd PWR_FW_STORE.REGION == i)

/-- Whether a range reaches into a region that is closed. -/
def State.closedAt (s : State) (a n : Nat) : Bool :=
  match s.region a n with
  | some i => rgnClosed s i
  | none => false

/-- Base of the scratchpad aggregate (R19). -/
def scratchBase : Nat := 0x4000000000

/-- Bytes of one scratchpad. -/
def scratchLen : Nat := 0x200000

/-- The logical tile whose scratchpad holds an internal address, if one does (R14). -/
def tileAt (a : Nat) : Option Nat :=
  if scratchBase ≤ a && a < scratchBase + 64 * scratchLen then some (a / scratchLen % 64) else none

/-- Whether a logical tile is out of service (R16). -/
def State.tileOut (s : State) (n : Nat) : Bool := bitOf (s.rd GLB_TILE_MAP.OUT_OF_SERVICE (n / 16)) (n % 16)

/-- The physical tile that serves a logical tile. -/
def tilePhys (s : State) (n : Nat) : Nat :=
  if s.flag GLB_TILE_MAP.IN_USE (n / 16) && s.rd GLB_TILE_MAP.REPLACES (n / 16) == n then 64 + n / 16 else n

/-- The grove of the tile that serves a logical tile (R445). -/
def tileGrove (s : State) (n : Nat) : Nat := if tilePhys s n < 64 then 25 + n / 4 else 41 + n / 16

/-- For what a BAR0 write to the block of logical tile `n` is held: a spare that is being brought in (R15), or the reset of the
tile's grove (R451), whose number then stands above the unit identifiers. -/
def tileHold (s : State) (n : Nat) : Option Nat :=
  if bringing s (unitId 0x3 n) then some (unitId 0x3 n)
  else if s.rd CLK_GROVE.STATE (tileGrove s n) = 1 then some (0x10000 + tileGrove s n)
  else none

/-- A BAR0 write of the word `v` at an offset in the block of logical tile `n`, given what it does: it is dropped in NO_IMAGE
(R54), dropped and flagged when the tile is out of service (R16), and held as `tileHold` says (R15, R451). -/
def onTile (s : State) (n off v : Nat) (o : Out) : Out :=
  if s.noImage then .next s
  else if s.tileOut n then .next (flagAccess s off [GLB_REG_ERR.OUT_OF_SVC])
  else
    match tileHold s n with
    | some u => .next (holdReg s { unit := u, port := 2, off := off, wide := true, word := v })
    | none => o

/-- A write reaches the scratchpad of a tile whose spare is being brought in: it is held until the map has changed (R15). -/
def padHeld (s : State) (a : Nat) : Bool :=
  match tileAt a with
  | some t => bringing s (unitId 0x3 t)
  | none => false

/-- Whether a range is one that a glade's engines may reach (R20, R87, R130): wholly inside one valid region of the glade
or inside the scratchpad of one in-service tile assigned to it. -/
def State.gladeReach (s : State) (glade a n : Nat) : Bool :=
  match tileAt a with
  | some t =>
    a + n ≤ scratchBase + scratchLen * (t + 1) && !s.tileOut t && s.flag TILE_CFG.ASSIGNED t
      && s.rd TILE_CFG.GLADE t == glade
  | none =>
    match s.region a n with
    | some i => s.rd MEM_RGN_A.GLADE i == glade && !rgnClosed s i
    | none => false

/-! ### Uncorrectable codewords (R76, R80, R92) -/

/-- The standard payload of a MEM event (R92). -/
def memPayload (cw n low bank : Nat) : Nat := cw % 2 ^ 40 + 2 ^ 40 * n + 2 ^ 48 * low + 2 ^ 56 * bank

/-- Raise a MEM event of a channel about an address (R92). -/
def memRaise (s : State) (type ch a payload : Nat) : State := s.raise type (unitId 0x5 ch) (s.gladeAt a) 0 0 payload

/-- A bank, numbered 8 ch + bank, is found faulty (R80). -/
def bankFaulty (s : State) (b : Nat) : State :=
  if s.dram.faulty.contains b || s.dram.fenced.contains b then s
  else { s with dram := { s.dram with faulty := s.dram.faulty ++ [b] } }

/-- An uncorrectable codeword has been read (R76, R80, R92): counted and reported; the second distinct row of a bank within
1 s makes the bank faulty. -/
def uncorrectable (s : State) (ch bank row cw low : Nat) : State :=
  let b := 8 * ch + bank
  let s := s.bump MEM_UE_CNT.COUNT ch
  let s := memRaise s 0x0402 ch cw (memPayload cw 0xFF low bank)
  let recent := (Tab.get [] s.dram.ueRows b).filter fun e => decide (s.now < 1000000000 + e.1)
  let bad := if s.dram.bad.contains cw then s.dram.bad else cw :: s.dram.bad
  let s := { s with dram := { s.dram with bad := bad, ueRows := Tab.set [] s.dram.ueRows b ((s.now, row) :: recent) } }
  if recent.any fun e => e.2 != row then bankFaulty s b else s

/-- Any command reads a codeword that is known to be uncorrectable (R80, R92): it is counted and reported as such a read,
with a free symbol position (log entry 40, safe). A poison marker and a codeword out of reach report nothing (R76, R80). -/
def noteCw (s : State) (cw : Nat) : State :=
  if s.dram.bad.contains cw && !s.dram.poison.contains cw && !cwLost s cw then
    match mapAddr s cw with
    | some (ch, bank, row) =>
      let low := s.freeWord
      uncorrectable low.2 ch bank row cw (low.1.toNat % 72)
    | none => s
  else s

/-- Any command has read a range of DRAM. -/
def State.noteRead (s : State) (a n : Nat) : State := (cwsOf a n).foldl noteCw s

/-- A command has read a range of DRAM with a status. -/
def State.noteStatus (s : State) (status a n : Nat) : State := if status = St.mediumError then s.noteRead a n else s

/-- Whether a range lies wholly in one valid DRAM region of a glade. -/
def State.inGladeRgn (s : State) (glade a n : Nat) : Bool :=
  match s.region a n with
  | some i => s.rd MEM_RGN_A.GLADE i == glade && !rgnClosed s i
  | none => false

end Sys2Proof.Machine
end

