-- ==== Sys2Proof/Machine/Queues.lean ====
section
/-! DEFINITION. Queues of every class behind one view: their fields, the commands fetched from them, the completions due on
them, sync counters and the waits on both. Choices and readings of the model: log entry 9. -/
namespace Sys2Proof.Machine

open Sys2Proof

/-- Class of a queue identifier (R172). -/
def qcls (qid : Nat) : Nat := qid / 0x100000

/-- Index of a queue identifier (R172). -/
def qidx (qid : Nat) : Nat := qid % 0x100000

/-- The queue identifier of a class and an index (R172). -/
def mkQid (cls idx : Nat) : Nat := 0x100000 * cls + idx

/-- A queue state as TILE_QSTATUS and STQ_Q code it (R139). -/
def QState.code : QState → Nat
  | .disabled => 0 | .active => 1 | .halted => 2 | .resetting => 3

/-- The queue state of a code. -/
def QState.ofCode : Nat → QState
  | 1 => .active | 2 => .halted | 3 => .resetting | _ => .disabled

/-- The queue of an identifier: a tile queue and the set-up queue are read from their registers. -/
def State.queue (s : State) (qid : Nat) : Queue :=
  let r := Tab.get {} s.queues qid
  match qcls qid with
  | 0 =>
    { r with
      valid := true, inst := 0, host := s.flag GLD_SQ_BASE.LOC, log2 := s.rd GLD_SQ_CTRL.LOG2SIZE,
      vector := s.rd GLD_SQ_CTRL.VECTOR, base := s.rd GLD_SQ_BASE.ADDR * 64, cbase := s.rd GLD_SQ_CBASE.ADDR * 64,
      head := s.rd GLD_SQ_STATUS.HEAD, tail := s.rd GLD_SQ_TAIL.TAIL,
      state := if s.flag GLD_SQ_CTRL.ENABLE then .active else .disabled,
      phase := s.flag GLD_SQ_STATUS.PHASE, refused := s.flag GLD_SQ_STATUS.TAIL_REFUSED,
      last := s.rd GLD_SQ_STATUS.LAST_STATUS }
  | 1 =>
    let i := qidx qid
    { r with
      valid := i < 512, inst := s.rd TILE_QCTRL.OWNER i, host := s.flag TILE_QBASE.LOC i,
      log2 := s.rd TILE_QCTRL.LOG2SIZE i, prio := s.rd TILE_QCTRL.PRIO i, vector := s.rd TILE_QCTRL.VECTOR i,
      base := s.rd TILE_QBASE.ADDR i * 64, cbase := s.rd TILE_QCBASE.ADDR i * 64, home := i / 8,
      head := s.rd TILE_QSTATUS.HEAD i, tail := s.rd TILE_QSTATUS.TAIL i,
      state := QState.ofCode (s.rd TILE_QSTATUS.STATE i), phase := s.flag TILE_QSTATUS.PHASE i,
      refused := s.flag TILE_QSTATUS.TAIL_REFUSED i, last := s.rd TILE_QSTATUS.LAST_STATUS i,
      count := s.rd TILE_QDONE.COUNT i }
  | _ => r

/-- Entries of a ring. -/
def Queue.size (q : Queue) : Nat := 2 ^ q.log2

/-- Commands waiting in the ring: (tail - head) modulo its size (R117). While a reset is in progress these are the commands that
were in the ring when it began (R136). -/
def Queue.waiting (q : Queue) : Nat :=
  ((if q.state = .resetting then q.resetTail else q.tail) + q.size - q.head % q.size) % q.size

/-- A queue whose reset begins: its commands complete with a status. -/
def Queue.reset (q : Queue) (status : Nat) : Queue := { q with state := .resetting, abort := status, resetTail := q.tail }

/-- What the model keeps of a queue whose other fields are registers. -/
def Queue.own (q : Queue) : Queue :=
  { wpos := q.wpos, cmds := q.cmds, due := q.due, abort := q.abort, resetTail := q.resetTail }

/-- The state with a queue replaced; a tile queue's and the set-up queue's fields go to their registers, and a storage
queue's to its STQ_Q view (R318). Only the queues that exist have registers. -/
def State.setQueue (s : State) (qid : Nat) (q : Queue) : State :=
  match qcls qid with
  | 0 =>
    let s := { s with queues := Tab.set {} s.queues qid q.own }
    s.wrs 0 [(GLD_SQ_STATUS.HEAD, q.head), (GLD_SQ_STATUS.PHASE, b2n q.phase),
      (GLD_SQ_STATUS.TAIL_REFUSED, b2n q.refused), (GLD_SQ_STATUS.LAST_STATUS, q.last), (GLD_SQ_TAIL.TAIL, q.tail)]
  | 1 =>
    let i := qidx qid
    let s := { s with queues := Tab.set {} s.queues qid q.own }
    if i < 512 then
      s.wrs i [(TILE_QSTATUS.HEAD, q.head), (TILE_QSTATUS.TAIL, q.tail), (TILE_QSTATUS.STATE, q.state.code),
        (TILE_QSTATUS.PHASE, b2n q.phase), (TILE_QSTATUS.TAIL_REFUSED, b2n q.refused),
        (TILE_QSTATUS.LAST_STATUS, q.last), (TILE_QDONE.COUNT, q.count)]
    else s
  | 5 =>
    let i := qidx qid
    let s := { s with queues := Tab.set {} s.queues qid q }
    if i < 8192 then
      s.wrs i [(STQ_Q.VALID, b2n q.valid), (STQ_Q.ADMIN, b2n q.kind), (STQ_Q.STATE, q.state.code),
        (STQ_Q.CLUSTER, q.home), (STQ_Q.OWNER, q.inst), (STQ_Q.BUSY_TAGS, q.cmds.length + q.due.length)]
    else s
  | _ => { s with queues := Tab.set {} s.queues qid q }

/-- The number of queues of a class that a device can hold (R172, R282). -/
def classSize : Nat → Nat
  | 1 => 512 | 2 => 256 | 3 => 256 | 4 => 65536 | 5 => 8192 | 6 => 256 | _ => 0

/-- Whether an identifier names a queue that exists (R172). -/
def State.queueExists (s : State) (qid : Nat) : Bool :=
  qidx qid < classSize (qcls qid) && (s.queue qid).valid

/-- The glade of an instance; instance 0 belongs to glade 0 (R281). -/
def State.gladeOf (s : State) (inst : Nat) : Nat := if inst = 0 then 0 else s.rd GLD_INST.GLADE inst

/-- The current generation of an instance (R287). -/
def State.genOf (s : State) (inst : Nat) : Nat := s.rd GLD_INST.GEN inst

/-- The glade a queue's commands run for. -/
def State.queueGlade (s : State) (qid : Nat) : Nat := s.gladeOf (s.queue qid).inst

/-- The command with the interrupt flag and the post of its FLAGS: tile and set-up commands have no POST flag (R119,
R143, R285). -/
def Cmd.intr (c : Cmd) : Bool := bitOf (leAt c.bytes 1 1) 0

/-- The sync counter a command posts when its entry is written, if it has POST (R143). -/
def Cmd.post (cls : Nat) (c : Cmd) : Option Nat :=
  if 2 ≤ cls && bitOf (leAt c.bytes 1 1) 2 then some (leAt c.bytes 14 2) else none

/-- The tag of a command. -/
def Cmd.tag (c : Cmd) : Nat := leAt c.bytes 4 4

/-- Whether a class stops when a command fails (R121, R195): storage, checkpoint and set-up queues do not. -/
def haltsOnFailure (cls : Nat) : Bool := cls == 1 || cls == 2 || cls == 3 || cls == 4

/-- The command fetched from a ring entry. -/
def Queue.cmdAt (q : Queue) (entry : Nat) : Option Cmd := q.cmds.find? (·.entry == entry)

/-- The oldest fetched command. -/
def Queue.first (q : Queue) : Option Cmd := q.cmds.head?

/-- How far back from the head a fetched ring entry lies: larger is older. -/
def Queue.age (q : Queue) (entry : Nat) : Nat := (q.head + 2 * q.size - 1 - entry) % q.size

/-- Put a completion among those due: in ring order on a transport queue (R195), in order of completion elsewhere. -/
def Queue.putDue (q : Queue) (cls : Nat) (d : Done) : List Done :=
  if cls = 4 then (q.due.filter fun x => q.age d.entry < q.age x.entry) ++ [d] ++ (q.due.filter fun x => q.age x.entry ≤ q.age d.entry)
  else q.due ++ [d]

/-- End a fetched command (R120): it leaves the queue's work, its completion becomes due, and a failure halts a queue of
a class that halts, and a tile queue whose ENABLE has been cleared becomes DISABLED (R121, R136). `mid` is bytes 8 to 11 of
the entry. A receive buffer's entry holds the bytes written in place of a tag (R201): none here. -/
def State.complete (s : State) (qid : Nat) (c : Cmd) (status mid : Nat) : State :=
  let q := s.queue qid
  let recv := qcls qid == 4 && q.kind
  let d : Done :=
    { word0 := if recv then 0 else c.tag, status := status, mid := mid, stamp := c.stamp, entry := c.entry,
      intr := !recv && c.intr, post := if recv then none else c.post (qcls qid) }
  let st :=
    if q.state = .active then
      if qcls qid = 1 && !s.flag TILE_QCTRL.ENABLE (qidx qid) then QState.disabled
      else if status ≠ St.success && haltsOnFailure (qcls qid) && !recv then QState.halted
      else q.state
    else q.state
  let s := s.setQueue qid
    { q with cmds := q.cmds.filter (·.entry != c.entry), due := q.putDue (qcls qid) d, state := st, last := status }
  if c.waiting then { s with waits := s.waits.filter fun w => w.who != .queue qid } else s

/-- Replace the fetched command of a ring entry. -/
def State.setCmd (s : State) (qid : Nat) (c : Cmd) : State :=
  let q := s.queue qid
  s.setQueue qid { q with cmds := q.cmds.map fun x => if x.entry == c.entry then c else x }

/-- Whether a wait with this target is satisfied by this value: the signed 64-bit difference is at least zero (R171). -/
def satisfied (value target : Nat) : Bool := (2 ^ 64 + value - target % 2 ^ 64) % 2 ^ 64 < 2 ^ 63

/-! ### Growth rings: what any unit's work may end (R354, R355, R359) -/

/-- The ring `ri` = 2g + r. -/
def State.ring (s : State) (ri : Nat) : CkpRing := Tab.get {} s.rings ri

/-- The state with a ring replaced, and its uncopied count showing it (R369). -/
def State.setRing (s : State) (ri : Nat) (x : CkpRing) : State :=
  let s := { s with rings := Tab.set {} s.rings ri x }
  s.wr CKP_RING_A.UNCOPIED ri x.todo.length

/-- The step of a ring. -/
def ringStep (s : State) (ri : Nat) : Nat := s.rd CKP_RING_STEP.STEP ri

/-- The number of members of a ring's group, its own number, its parity shards. -/
def ringN (s : State) (ri : Nat) : Nat := s.rd CKP_GRP_A.MEMBERS (ri / 2)
def ringSelf (s : State) (ri : Nat) : Nat := s.rd CKP_GRP_A.SELF (ri / 2)
def ringP (s : State) (ri : Nat) : Nat := s.rd CKP_GRP_A.PARITY (ri / 2)

/-- Tell another member of a group something about a ring. -/
def tell (s : State) (ri dest : Nat) (m : CkpMsg) : State := s.emit (.member (ri / 2) dest (ringStep s ri) m)

/-- Tell every other member. -/
def tellAll (s : State) (ri : Nat) (m : CkpMsg) : State :=
  (below (ringN s ri) (· != ringSelf s ri)).foldl (fun s k => tell s ri k m) s

/-- The source unit of a group's events: class 0x2 with the cluster of its queue (R368). -/
def ckpSource (s : State) (g : Nat) : Nat := unitId 0x2 (s.queue (mkQid 6 (s.rd CKP_GRP_A.QUEUE g))).home

/-- Raise an event of a group: its glade, and the owner of its queue (R368). -/
def ckpRaise (s : State) (g type status payload : Nat) : State :=
  s.raise type (ckpSource s g) (s.rd CKP_GRP_A.GLADE g) (s.queue (mkQid 6 (s.rd CKP_GRP_A.QUEUE g))).inst status payload

/-- The owner of a hash among `n` members (R357). -/
def hashOwner (n : Nat) (h : List Byte) : Nat := leAt h 0 2 % max n 1

/-- A hash this member owns. -/
def noteSeen (s : State) (ri : Nat) (h : CkpHash) : State :=
  let x := s.ring ri
  s.setRing ri { x with seen := x.seen ++ [h] }

/-- Whether firmware has stopped fetching for an activation: QUIESCE, HANDOVER, RESUME and FALLBACK (R420, R421). -/
def fetchPaused (s : State) : Bool := 3 ≤ s.rd PWR_ACT.STATE && s.rd PWR_ACT.STATE ≤ 6

/-- Deduplication begins: this member sends each of its hashes to its owner (R357), once no activation pauses it (R366). -/
def sendHashes (s : State) (ri : Nat) : State :=
  let x := s.ring ri
  if fetchPaused s || x.hashed then s
  else
    x.hashes.foldl
      (fun s h =>
        let o := hashOwner (ringN s ri) h.hash
        if o = ringSelf s ri then noteSeen s ri h else tell s ri o (.hash h.item h.granule h.hash))
      (s.setRing ri { x with hashed := true })

/-- Every member has captured: the ring is STAGING (R357, R359). -/
def ringStaging (s : State) (ri : Nat) : State :=
  if s.rd CKP_RING_A.STATE ri = 2 && (List.range (ringN s ri)).all ((s.ring ri).captured.contains ·) then
    sendHashes (s.wr CKP_RING_A.STATE ri 3) ri
  else s

/-- When every item of this member has been captured, its CAPTURE completes and the members are told (R349). -/
def ringSettle (s : State) (ri : Nat) : State :=
  let x := s.ring ri
  if s.rd CKP_RING_A.STATE ri = 2 && x.items.all (·.captured) && !x.captured.contains (ringSelf s ri) then
    let s := s.setRing ri { x with capture := none, captured := x.captured ++ [ringSelf s ri] }
    let s :=
      match x.capture with
      | some (qid, e) =>
        match (s.queue qid).cmdAt e with
        | some c => s.complete qid c St.success (ringStep s ri % 2 ^ 32)
        | none => s
      | none => s
    ringStaging (tellAll s ri .captured) ri
  else s

/-- An item has been captured: it is marked and CKP_REGION_CAPTURED is raised (R354, R355). -/
def markCaptured (s : State) (ri item : Nat) : State :=
  let x := s.ring ri
  match x.items[item]? with
  | none => s
  | some i =>
    let s := s.setRing ri { x with items := setAt x.items item { i with captured := true } }
    ckpRaise s (ri / 2) 0x1002 0 (item % 64 + i.id * 256)

/-- Granules of an item. -/
def CkpItem.granules (i : CkpItem) : Nat := ceilDiv i.len 65536

/-- The internal address of the reserve of a ring's group. -/
def reserveBase (s : State) (ri : Nat) : Nat := rgnBase s (s.rd CKP_GRP_A.RESERVE (ri / 2))

/-- The push area of a group: its internal address and its length (R346). -/
def pushBase (s : State) (ri : Nat) : Nat := 0x4000000 + reserveBase s ri
def pushLen (s : State) (ri : Nat) : Nat := 0x100000 * s.rd CKP_GRP_B.PUSH_MIB (ri / 2)

/-- End a command of a ring. -/
def endRingCmd (s : State) (p : Option (Nat × Nat)) (status result : Nat) : State :=
  match p with
  | some (qid, e) =>
    match (s.queue qid).cmdAt e with
    | some c => s.complete qid c status result
    | none => s
  | none => s

/-- A ring is abandoned on this member (R359, R366): its holds and its reserve are released, CKP_ABANDONED is raised and
counted, and the commands in progress complete with `mine`. The event names the member that caused it and `status`. -/
def dropRing (s : State) (ri member status mine : Nat) : State :=
  let x := s.ring ri
  let s := s.setRing ri {}
  let s := s.wr CKP_RING_A.STATE ri 7
  let s := s.bump CKP_CNT.COUNT 7
  let s := ckpRaise s (ri / 2) 0x1005 status (ringStep s ri % 2 ^ 32 + 2 ^ 32 * (member % 32) + 2 ^ 37 * (status % 256))
  let s := endRingCmd s x.capture mine 0
  endRingCmd s (x.drain.map fun d => (d.qid, d.entry)) mine 0

/-- This member abandons a ring, and tells every other member. -/
def abandonRing (s : State) (ri status : Nat) : State :=
  dropRing (tellAll s ri (.abandoned status)) ri (ringSelf s ri) status status

/-- Note the hash of a captured granule (R357). -/
def hashGranule (s : State) (ri item g : Nat) (l : List Byte) : State :=
  let h : CkpHash := { member := ringSelf s ri, item := item, granule := g, hash := Config.sha512t256 l }
  s.setRing ri { s.ring ri with hashes := (s.ring ri).hashes ++ [h] }

/-- Capture a pushed item where it lies in the push area (R351, R355): its granules are hashed, and an uncorrectable codeword
abandons the ring (R366). -/
def capturePushed (s : State) (ri item : Nat) : State :=
  match (s.ring ri).items[item]? with
  | none => s
  | some i =>
    let at_ := pushBase s ri + i.addr
    if s.memBad at_ i.len then abandonRing (s.noteRead at_ i.len) ri St.mediumError
    else
      let s := (List.range i.granules).foldl
        (fun s g => hashGranule s ri item g (bytesAt (s.bytes (at_ + 65536 * g) (min 65536 (i.len - 65536 * g))) 0 65536)) s
      markCaptured s ri item

/-- The kind 3 items of a ring whose DONE_CTR has advanced by at least 1 since the trigger (R355). -/
def pushedItems (s : State) (ri : Nat) : List Nat :=
  let x := s.ring ri
  if s.rd CKP_RING_A.STATE ri = 2 then
    below x.items.length fun k =>
      match x.items[k]? with
      | some i =>
        i.kind == 3 && !i.captured && decide (1 ≤ signedOf 64 (2 ^ 64 + s.rd UST_CTR.VALUE i.doneCtr - i.atTrigger))
      | none => false
  else []

/-- Take note of the pushed items that count as captured. -/
def ckpPush (s : State) : State :=
  (s.rings.filter fun r => r.1 < 32).foldl
    (fun s r =>
      match pushedItems s r.1 with
      | [] => s
      | l => ringSettle (l.foldl (fun s k => capturePushed s r.1 k) s) r.1) s

/-! ### Sync counters (R170, R171) -/

/-- Whether a counter lies in a block granted to a glade (R170). -/
def State.ctrGranted (s : State) (c glade : Nat) : Bool :=
  c < 65536 && s.flag UST_CTR_BLK.GRANTED (c / 256) && s.rd UST_CTR_BLK.GLADE (c / 256) == glade

/-- The value of a sync counter. -/
def State.ctr (s : State) (c : Nat) : Nat := s.rd UST_CTR.VALUE c

/-- The grove of the Understory engine, which holds the sync counters, is STOPPED (R445, R448). -/
def State.ustStopped (s : State) : Bool := s.rd CLK_GROVE.STATE 6 == 2

/-- Add to a sync counter, modulo 2^64 (R170); a pushed item of a growth ring may count as captured by it (R355). -/
def State.addCtr (s : State) (c n : Nat) : State :=
  if s.ustStopped then s else ckpPush (s.wr UST_CTR.VALUE c ((s.ctr c + n) % 2 ^ 64))

/-- Post to a counter on behalf of a glade: nothing changes unless its block is granted to the glade (R170). -/
def State.post (s : State) (glade c n : Nat) : State := if s.ctrGranted c glade then s.addCtr c n else s

/-- The value a wait looks at (R171, R172). -/
def State.waitValue (s : State) : WaitOn → Nat
  | .counter c => s.ctr c
  | .count q => (s.queue q).count

/-- Whether a glade may wait on what it names (R170, R172). -/
def State.mayWait (s : State) (glade : Nat) : WaitOn → Bool
  | .counter c => s.ctrGranted c glade
  | .count q => s.queueExists q && s.queueGlade q == glade

/-- Record a pending wait. -/
def State.addWait (s : State) (w : Wait) : State := { s with waits := s.waits ++ [w] }

/-- Remove the wait of a waiter. -/
def State.dropWait (s : State) (w : Waiter) : State := { s with waits := s.waits.filter fun x => x.who != w }

end Sys2Proof.Machine
end

