-- ==== Sys2Proof/Machine/TwinFrame.lean ====
section
/-! DEFINITION. Frames of the twin link (R377): building and sending them, and sending mirrored writes. Choices and readings
of the model: log entries 13 and 21. -/
namespace Sys2Proof.Machine

open Sys2Proof

/-- The pair states (R381). -/
def Pair.unpaired : Nat := 0
def Pair.pairing : Nat := 1
def Pair.paired : Nat := 2
def Pair.degraded : Nat := 3
def Pair.suspect : Nat := 4
def Pair.takenOver : Nat := 5
def Pair.displaced : Nat := 6
def Pair.isolated : Nat := 7

/-- This device's Saloa device number. -/
def State.devNum (s : State) : Nat := s.rd FAB_SAL_DEVNUM.DEVNUM

/-- The pair state (R381). -/
def State.pair (s : State) : Nat := s.rd TWN_STATUS.STATE

/-- Whether the twin-link key slot holds a type-1 key of glade 0 (R378). -/
def State.twinKeyed (s : State) : Bool :=
  let k := s.rd TWN_CFG.KEY_SLOT
  s.rd SEC_KEY_SLOT.TYPE k == 1 && s.rd SEC_KEY_SLOT.GLADE k == 0

/-- The twin-link key. -/
def State.twinKey (s : State) : List Byte := Tab.get [] s.sec.keys (s.rd TWN_CFG.KEY_SLOT)

/-- The nonce of a twin frame: SRC_DEV, PAIR_EPOCH and COUNT concatenated, big-endian. -/
def twinNonce (dev epoch count : Nat) : List Byte := toBe 2 dev ++ toBe 2 epoch ++ toBe 8 count

/-- The 32-byte twin header, big-endian (R377). -/
def twinHeader (type state dev epoch len count addr aux : Nat) : List Byte :=
  toBe 1 type ++ toBe 1 state ++ toBe 2 dev ++ toBe 2 epoch ++ toBe 2 len ++ toBe 8 count ++ toBe 8 addr ++ toBe 8 aux

/-- The Ethernet header of a twin frame sent by a device on a twin port. -/
def twinEth (dev port : Nat) : List Byte :=
  [0x01, 0x80, 0xC2, 0x00, 0x00, 0x0E, 0x02, 0x00, 0x00] ++ toBe 2 dev ++ toBe 1 port ++ [0x88, 0xB5]

/-- Whether a twin port is up (R389). -/
def State.twinPortUp (s : State) (t : Nat) : Bool :=
  if t = 0 then s.flag TWN_STATUS.PORT0_UP else s.flag TWN_STATUS.PORT1_UP

/-- Send one frame on a twin port; the frame takes a fresh COUNT. With no key in KEY_SLOT nothing is sent (R378). -/
def State.twinSend (s : State) (port type addr aux : Nat) (payload : List Byte) : State :=
  if s.twinKeyed then
    let epoch := s.rd TWN_STATUS.PAIR_EPOCH
    let hdr := twinHeader type s.pair s.devNum epoch payload.length s.twin.count addr aux
    let sealed := Config.gcmSeal s.twinKey (twinNonce s.devNum epoch s.twin.count) hdr payload
    let s := { s with twin := { s.twin with count := s.twin.count + 1 } }
    s.emit (.twinFrame port (twinEth s.devNum port ++ hdr ++ sealed))
  else s

/-- Whether the quadrant of a twin port is lost (R11, R376): port 0 joins the crossbar of quadrant 1, port 1 that of 2. -/
def twinQuadLost (s : State) (t : Nat) : Bool := s.dram.lostQuads.contains (t + 1)

/-- Whether a twin port is enabled, both its lanes are up and its quadrant is not lost (R233, R376). -/
def twinLanesUp (s : State) (t : Nat) : Bool :=
  s.flag TWN_CFG.ENABLE && s.rd OPT_LANE.STATE (32 + 2 * t) == 2 && s.rd OPT_LANE.STATE (33 + 2 * t) == 2 && !twinQuadLost s t

/-- The twin port that carries writes: port 0 while it is up, else port 1; a port that retrains leaves them to the other
(R386). -/
def State.twinDataPort (s : State) : Nat := if s.twinPortUp 0 && (twinLanesUp s 0 || !s.twinPortUp 1) then 0 else 1

/-- Send a mirror or resync write, or send it again (R377). -/
def State.twinWriteSend (s : State) (w : TwinWrite) : State :=
  s.twinSend s.twinDataPort w.type w.addr w.region (toLe 8 w.seq ++ w.bytes)

/-- Queue and send a write of whole codewords to the twin under the next write sequence number. -/
def State.twinWriteNew (s : State) (type region addr : Nat) (l : List Byte) : State :=
  let w : TwinWrite := { seq := s.twin.nextSeq, type := type, region := region, addr := addr, bytes := l }
  let s := { s with twin := { s.twin with nextSeq := s.twin.nextSeq + 1, unacked := s.twin.unacked ++ [w] } }
  let s := if type = 2 then s.bump TWN_CNT.COUNT 3 else s
  s.twinWriteSend w

/-- Bytes of mirrored data not yet acknowledged. -/
def State.mirrorBytes (s : State) : Nat :=
  sumNat ((s.twin.unacked.filter fun w => w.type == 2).map (·.bytes.length))

/-- The twin address of a local address of a mirrored region (R88). -/
def twinAddr (s : State) (region a : Nat) : Nat := 0x200000 * s.rd MEM_RGN_B.TWIN_BASE region + (a - rgnBase s region)

/-- The pieces, of at most 8 KiB, in which a range of codewords goes to the twin. -/
def twinPieces (first count : Nat) : List (Nat × Nat) :=
  (List.range (ceilDiv count 128)).map fun i => (first + 8192 * i, min 8192 ((count - i * 128) * 64))

/-- What of a piece can be sent as good data (R76): all of it, or its good codewords one by one. -/
def goodPieces (s : State) (p : Nat × Nat) : List (Nat × Nat) :=
  if s.memBad p.1 p.2 then ((cwsOf p.1 p.2).filter fun cw => !cwBad s cw).map fun cw => (cw, 64) else [p]

/-- Send the codewords that a range touches to the twin, as they now read (R88). A codeword that cannot be read as good data is
not sent: the link has no mark for it (R76; log entry 21). -/
def State.mirrorRange (s : State) (type region a n : Nat) : State :=
  if n = 0 then s
  else
    ((twinPieces (cwOf a) (cwsOf a n).length).flatMap (goodPieces s)).foldl
      (fun s p => s.twinWriteNew type region (twinAddr s region p.1) (s.bytes p.1 p.2)) s

end Sys2Proof.Machine
end

