-- ==== Sys2Proof/Machine/Capture.lean ====
section
/-! DEFINITION. Stores to DRAM by codeword, copy-before-write capture of growth rings, and writes by any requester. Choices
and readings of the model: log entry 17. -/
namespace Sys2Proof.Machine

open Sys2Proof

/-- The part of a write that falls in one codeword: where it begins and its bytes. -/
def cwPart (a : Nat) (l : List Byte) (cw : Nat) : Nat × List Byte :=
  let lo := max a cw
  let hi := min (a + l.length) (cw + 64)
  (lo, (l.drop (lo - a)).take (hi - lo))

/-- Write the part of a write that falls in one codeword (R75, R76, R80): a codeword out of reach stores nothing; a
partial write into an uncorrectable codeword stores a poison marker; a full write replaces it. The second part of the
answer says whether the write completes with MEDIUM_ERROR. -/
def putCw (s : State) (a : Nat) (l : List Byte) (cw : Nat) : State × Bool :=
  let p := cwPart a l cw
  if cw < s.top then
    if cwLost s cw then (s, true)
    else if p.2.length = 64 then
      let d := { s.dram with poison := s.dram.poison.filter (· != cw), bad := s.dram.bad.filter (· != cw) }
      (({ s with dram := d }).store p.1 p.2, false)
    else if s.dram.poison.contains cw || s.dram.bad.contains cw then
      let d := { s.dram with
        poison := if s.dram.poison.contains cw then s.dram.poison else cw :: s.dram.poison,
        bad := s.dram.bad.filter (· != cw) }
      ({ s with dram := d }, true)
    else (s.store p.1 p.2, false)
  else (s.store p.1 p.2, false)

/-- Store a list of bytes codeword by codeword: the state, and whether any codeword gave MEDIUM_ERROR. -/
def State.putMem (s : State) (a : Nat) (l : List Byte) : State × Bool :=
  (cwsOf a l.length).foldl
    (fun (acc : State × Bool) cw =>
      let r := putCw acc.1 a l cw
      (r.1, acc.2 || r.2)) (s, false)

/-! ### Growth rings: capture (R354) -/

/-- The place of a granule among the captures of a ring: items of kinds 1 and 2 in order, then granules. -/
def granulePlace (items : List CkpItem) (item g : Nat) : Nat :=
  sumNat ((items.take item).map fun i => if i.kind = 3 then 0 else i.granules) + g

/-- The 64 KiB blocks of the reserve that hold captures and shards. -/
def ringSpace (s : State) (ri : Nat) : Nat :=
  (rgnLen s (s.rd CKP_GRP_A.RESERVE (ri / 2)) - (0x4000000 + pushLen s ri)) / 65536

/-- The internal address of block `k` of a ring: the ring space is used in a circle. -/
def ringBlock (s : State) (ri k : Nat) : Nat :=
  pushBase s ri + pushLen s ri + 65536 * (((s.ring ri).base + k) % max (ringSpace s ri) 1)

/-- Blocks of the reserve that a ring holds. -/
def ringHeld (s : State) (ri : Nat) : Nat :=
  let st := s.rd CKP_RING_A.STATE ri
  if 1 ≤ st && st ≤ 5 then (s.ring ri).caps + (s.ring ri).shards.length else 0

/-- The bytes a granule of a kind 1 item captures, padded with zeros to 64 KiB (R351). -/
def granuleBytes (s : State) (i : CkpItem) (g : Nat) : List Byte :=
  let n := min 65536 (i.len - 65536 * g)
  s.bytes (i.addr + 65536 * g) n ++ List.replicate (65536 - n) 0

/-- An item has been captured: DONE_CTR is posted and CKP_REGION_CAPTURED is raised (R354). -/
def itemCaptured (s : State) (ri item : Nat) : State :=
  match (s.ring ri).items[item]? with
  | none => s
  | some i =>
    let s := markCaptured s ri item
    let s := if i.doneEn then s.post (s.rd CKP_GRP_A.GLADE (ri / 2)) i.doneCtr 1 else s
    ringSettle s ri

/-! ### What becomes of a write (R15, R88, R190, R384) -/

/-- The most mirrored data that may wait for the twin: 4 MiB (R88). -/
def mirrorLimit : Nat := 0x400000

/-- Whether writes to a mirrored region are sent to the twin now (R88, R90): a STALE region is mirrored again while it is being
copied back. -/
def mirrors (s : State) (i : Nat) : Bool :=
  s.flag MEM_RGN_A.MIRROR i && (!s.flag MEM_RGN_A.STALE i || s.dram.resync.contains i) && s.pair == Pair.paired

/-- What happens to a write at a place. -/
inductive WriteRule where
  | go
  | wait
  | refuse (status : Nat)
  deriving DecidableEq, Repr

/-- What happens to a write by any requester but the twin's stream and the device's own tables: closed regions (R190, R227,
R418), MIRROR_TARGET regions (R88), and the pair state's rule for mirrored regions (R384). A mirrored write is held in SUSPECT,
while 4 MiB of mirrored data wait, and while an earlier write of the region is held. A write to a scratchpad is held while its
tile's spare is being brought in (R15). -/
def writeRule (s : State) (a n : Nat) : WriteRule :=
  match s.region a n with
  | none => if padHeld s a then .wait else .go
  | some i =>
    if rgnClosed s i then .refuse St.protectionFault
    else if s.flag MEM_RGN_A.MIRROR_TARGET i && s.pair ≠ Pair.takenOver then .refuse St.protectionFault
    else if !s.flag MEM_RGN_A.MIRROR i then .go
    else if s.pair = Pair.displaced then .refuse St.protectionFault
    else if s.pair = Pair.isolated then .refuse St.peerUnreachable
    else if s.pair = Pair.suspect then .wait
    else if mirrors s i && (mirrorLimit < s.mirrorBytes + n || s.dram.mirrorHeld.any (·.region == i)) then .wait
    else .go

/-- Send to the twin what a write has stored in a mirrored region. -/
def mirrorStored (s : State) (a n : Nat) : State :=
  match s.region a n with
  | some i => if mirrors s i then s.mirrorRange 2 i a n else s
  | none => s

/-- A write that must wait is held (R15, R88, R384). -/
def holdWrite (s : State) (a : Nat) (l : List Byte) : State :=
  if padHeld s a then { s with boot := { s.boot with heldPad := s.boot.heldPad ++ [(a, l)] } }
  else if s.pair = Pair.suspect then { s with twin := { s.twin with held := s.twin.held ++ [(a, l)] } }
  else
    { s with dram := { s.dram with
        mirrorHeld := s.dram.mirrorHeld ++ [{ region := (s.region a l.length).getD 0, addr := a, bytes := l }] } }

/-- Place the bytes of a captured granule in the reserve and note its hash (R354, R357). The reserve is a region like any
other: where it takes no write the ring is abandoned (R366), and where it is mirrored the granule goes to the twin (R88). -/
def placeGranule (s : State) (ri item g : Nat) (l : List Byte) : State :=
  let a := ringBlock s ri (granulePlace (s.ring ri).items item g)
  match writeRule s a l.length with
  | .go => hashGranule (mirrorStored (s.putMem a l).1 a l.length) ri item g l
  | .wait => hashGranule (holdWrite s a l) ri item g l
  | .refuse st => abandonRing s ri st

/-- Copy one uncopied granule into the reserve (R354); an uncorrectable codeword abandons the ring (R366). -/
def copyGranule (s : State) (ri item g : Nat) : State :=
  let x := s.ring ri
  match x.items[item]? with
  | none => s
  | some i =>
    if s.memBad (i.addr + 65536 * g) (min 65536 (i.len - 65536 * g)) then
      abandonRing (s.noteRead (i.addr + 65536 * g) (min 65536 (i.len - 65536 * g))) ri St.mediumError
    else
      let s := placeGranule s ri item g (granuleBytes s i g)
      let x := s.ring ri
      let s := s.setRing ri { x with todo := x.todo.filter (· != (item, g)) }
      let s := s.bump CKP_CNT.COUNT 0
      if (s.ring ri).todo.any (·.1 == item) then s else itemCaptured s ri item

/-- Whether a write touches an uncopied granule of an item. -/
def touches (items : List CkpItem) (p : Nat × Nat) (a n : Nat) : Bool :=
  match items[p.1]? with
  | none => false
  | some i => a < i.addr + 65536 * (p.2 + 1) && i.addr + 65536 * p.2 < a + n

/-- The uncopied granules that a write reaches, by ring. -/
def uncopiedHit (s : State) (a n : Nat) : List (Nat × Nat × Nat) :=
  s.rings.flatMap fun r => (r.2.todo.filter fun p => touches r.2.items p a n).map fun p => (r.1, p.1, p.2)

/-- Copy first every uncopied granule that a write reaches, counting each hold (R354). -/
def captureBefore (s : State) (a n : Nat) : State :=
  (uncopiedHit s a n).foldl
    (fun s h => if (s.ring h.1).todo.contains h.2 then copyGranule (s.bump CKP_CNT.COUNT 1) h.1 h.2.1 h.2.2 else s) s

/-! ### Writes by any requester (R87, R88, R384) -/

/-- Apply a write whose place has been checked: capture first, then store, then mirror. The answer is a status. -/
def applyWrite (s : State) (a : Nat) (l : List Byte) : State × Nat :=
  let s := captureBefore s a l.length
  let r := s.putMem a l
  (mirrorStored r.1 a l.length, if r.2 then St.mediumError else St.success)

/-- A write by any requester but the twin's stream (R87, R88, R384). A held write answers SUCCESS, since it is not failed: where
a requester waits for the answer, `orHold` leaves the requester's command as it was. -/
def State.writeMem (s : State) (a : Nat) (l : List Byte) : State × Nat :=
  match writeRule s a l.length with
  | .go => applyWrite s a l
  | .wait => (holdWrite s a l, St.success)
  | .refuse st => (s, st)

/-- Writes that are held by the mirror rules or for a spare. -/
def State.heldWrites (s : State) : Nat := s.dram.mirrorHeld.length + s.twin.held.length + s.boot.heldPad.length

/-- The state after a command of a requester, `t`, unless one of its writes had to be held (R15, R88, R384): then the requester waits
with the whole command, and nothing has happened yet (log entry 27). -/
def orHold (s t : State) : State := if t.heldWrites ≤ s.heldWrites then t else s

/-- The outcome of a requester's command that waits as `orHold` says. -/
def outHold (s : State) : Out → Out
  | .next t => .next (orHold s t)
  | o => o

/-- A write whose status the writer does not look at. -/
def State.write (s : State) (a : Nat) (l : List Byte) : State := (s.writeMem a l).1

/-- A write by a glade's engine: it must stay within what the glade may reach (R20, R87). -/
def State.gladeWrite (s : State) (glade a : Nat) (l : List Byte) : State × Nat :=
  if s.gladeReach glade a l.length then s.writeMem a l else (s, St.protectionFault)

/-- A read by a glade's engine: the bytes and the status (R20, R76, R87). -/
def State.gladeRead (s : State) (glade a n : Nat) : List Byte × Nat :=
  if s.gladeReach glade a n then
    if s.memBad a n then ([], St.mediumError) else (s.bytes a n, St.success)
  else ([], St.protectionFault)

/-- Write bytes of an instance's ring either to host memory or to device memory. A ring in device memory lies in a valid region of the
glade (R117, R284): what would land outside one is lost (log entry 9, DESIGN CHOICE). -/
def State.locWrite (s : State) (inst : Nat) (host : Bool) (a : Nat) (l : List Byte) : State :=
  if host then s.hostWrite inst a l else if s.inGladeRgn (s.gladeOf inst) a l.length then s.write a l else s

/-- Release held writes, oldest first, to the rule of the state as it now is. -/
def releaseWrites (s : State) (l : List (Nat × List Byte)) : State := l.foldl (fun s w => s.write w.1 w.2) s

/-! ### Accesses held in a channel controller (R79, R88, R91) -/

/-- Whether a row is being copied to a spare row, so that accesses to it are held (R79). -/
def rowHeld (s : State) (ch bank row : Nat) : Bool :=
  s.dram.sparing.any fun j => j.bank == 8 * ch + bank && j.row == row

/-- Answer a requester with a codeword or with MEDIUM_ERROR. -/
def answerCw (s : State) (cw : Nat) (good : Bool) : State :=
  if good then s.emit (.answer St.success (s.bytes cw 64)) else s.emit (.answer St.mediumError [])

/-- Hold an access in the channel controller. -/
def holdAccess (s : State) (h : HeldMem) : State := { s with dram := { s.dram with held := s.dram.held ++ [h] } }

/-- A write of part of a codeword or of all of it, and its answer. One that the mirror rules hold (R88, R384) is held and
answered when it is made. -/
def writeCw (s : State) (a : Nat) (l : List Byte) : State :=
  match writeRule s a l.length with
  | .wait => holdAccess s { addr := a, len := l.length, write := some l }
  | _ =>
    let r := s.writeMem a l
    r.1.emit (.answer r.2 [])

/-- An access held during a row copy goes on in the spare row (R79, R91). -/
def releaseAccess (s : State) (h : HeldMem) : State :=
  match h.write with
  | some l => writeCw s h.addr l
  | none => answerCw (s.noteRead h.addr h.len) (cwOf h.addr) (!s.memBad h.addr h.len)

/-- The place of an access is not in a row that is being copied. -/
def rowFree (s : State) (h : HeldMem) : Bool :=
  match mapAddr s (cwOf h.addr) with
  | some (ch, bank, row) => !rowHeld s ch bank row
  | none => true

/-- The writes held by the mirror rules alone are tried again, oldest first (R88, R384). -/
def retryHeld (s : State) : State :=
  let mine := s.dram.held.filter (rowFree s)
  mine.foldl releaseAccess { s with dram := { s.dram with held := s.dram.held.filter fun h => !rowFree s h } }

end Sys2Proof.Machine
end

