-- ==== Sys2Proof/Machine/EventRings.lean ====
section
/-! DEFINITION. Event rings (R273 to R276): records as bytes, room, writing, dropping, the owed overflow record. Choices and
readings of the model: log entry 9. -/
namespace Sys2Proof.Machine

open Sys2Proof

/-- An event record as the 32 bytes of R273. -/
def EventRec.bytes (e : EventRec) : List Byte :=
  toLe 2 e.type ++ toLe 2 e.source ++ toLe 1 e.glade ++ toLe 2 (e.inst % 4096) ++ toLe 1 e.status ++ toLe 2 e.gen
    ++ toLe 6 0 ++ toLe 8 e.time ++ toLe 8 e.payload

/-- What ring `r` keeps besides its registers. -/
def State.evrOf (s : State) (r : Nat) : EvrRing := Tab.get {} s.evr r

/-- The state with ring `r`'s own part replaced. -/
def State.setEvr (s : State) (r : Nat) (x : EvrRing) : State := { s with evr := Tab.set {} s.evr r x }

/-- Records of a ring (R275). -/
def evrSize (s : State) (r : Nat) : Nat := 2 ^ s.rd HEP_EVR_CFG.LOG2SIZE r

/-- Room for records: a ring is full when TAIL + 1 equals HEAD, modulo its size (R276). -/
def evrRoom (s : State) (r : Nat) : Nat :=
  let n := evrSize s r
  (s.rd HEP_EVR_HEAD.INDEX r + 2 * n - s.rd HEP_EVR_TAIL.INDEX r - 1) % n

/-- Whether a ring's memory can be written now: a ring in host memory needs host access through its home port, with PASID
Enable when it tags its writes (R268, R276). -/
def evrReach (s : State) (r : Nat) : Bool :=
  if s.flag HEP_EVR_BASE.LOC r then
    let p := s.rd HEP_EVR_CFG.PORT r
    s.masterOn p && (!s.flag HEP_EVR_CFG.USE_PASID r || (s.port p).pasidEn)
  else true

/-- The PASID of a ring's writes. -/
def evrPasid (s : State) (r : Nat) : Option Nat :=
  if s.flag HEP_EVR_CFG.USE_PASID r then some (s.rd HEP_EVR_CFG.PASID r) else none

/-- Write bytes in a ring's own space. -/
def evrStore (s : State) (r a : Nat) (l : List Byte) : State :=
  if s.flag HEP_EVR_BASE.LOC r then s.emit (.hostWrite (s.rd HEP_EVR_CFG.PORT r) (evrPasid s r) a l false false)
  else s.write a l

/-- Put one record at TAIL and advance TAIL. -/
def evrPut (s : State) (r : Nat) (e : EventRec) : State :=
  let t := s.rd HEP_EVR_TAIL.INDEX r
  let s := evrStore s r (s.rd HEP_EVR_BASE.ADDR r * 64 + 32 * t) e.bytes
  s.wr HEP_EVR_TAIL.INDEX r ((t + 1) % evrSize s r)

/-- The overflow record a ring owes (R276, R277). -/
def overflowRec (s : State) (r : Nat) : EventRec :=
  { type := 0x0C07, source := unitId 0x9 (s.rd HEP_EVR_CFG.PORT r), glade := 0, inst := 0, status := 0, gen := 0,
    time := s.now, payload := r + 2 ^ 32 * min (s.evrOf r).owed 0xFFFFFFFF }

/-- A due record of a ring is dropped, counted and owed (R276). -/
def evrDrop (s : State) (r : Nat) : State :=
  let s := s.bump HEP_EVR_DROP.COUNT r
  s.setEvr r { s.evrOf r with owed := (s.evrOf r).owed + 1 }

/-- Write TAIL back and send the ring's vector, or note that a message waits for the holdoff (R275). -/
def evrNotify (s : State) (r : Nat) : State :=
  let s :=
    if s.flag HEP_EVR_WB.WB_EN r then
      evrStore s r (s.rd HEP_EVR_WB.ADDR r * 8) (toLe 8 (s.rd HEP_EVR_TAIL.INDEX r))
    else s
  let x := s.evrOf r
  let hold := s.rd HEP_EVR_MOD.HOLDOFF_US r * 1000
  let free :=
    match x.lastMsg with
    | none => true
    | some t => t + hold ≤ s.now
  if free then
    let s := s.msix (s.rd HEP_EVR_CFG.PORT r) (s.rd HEP_EVR_CFG.VECTOR r)
    s.setEvr r { s.evrOf r with lastMsg := some s.now, held := false }
  else s.setEvr r { x with held := true }

/-- Whether the host refuses a write of a ring, which is then a lost record (R275). -/
def evrRefused (s : State) (r : Nat) : Bool × State :=
  if s.flag HEP_EVR_BASE.LOC r then s.hostRefuses (s.rd HEP_EVR_CFG.PORT r) else (false, s)

/-- Write the owed overflow record, if one is owed and there is room for two records (R276). -/
def evrPayOwed (s : State) (r : Nat) : State :=
  if (s.evrOf r).owed ≠ 0 && s.flag HEP_EVR_CFG.ENABLE r && evrReach s r && 2 ≤ evrRoom s r then
    let x := evrRefused s r
    if x.1 then x.2
    else
      let s := evrPut x.2 r (overflowRec x.2 r)
      s.setEvr r { s.evrOf r with owed := 0 }
  else s

/-- Write a due record to one ring, or drop it (R275, R276). -/
def evrWrite (s : State) (e : EventRec) (r : Nat) : State :=
  if s.flag HEP_EVR_CFG.ENABLE r && evrReach s r then
    let s := evrPayOwed s r
    if (s.evrOf r).owed = 0 && 1 ≤ evrRoom s r then
      let x := evrRefused s r
      if x.1 then evrDrop x.2 r else evrNotify (evrPut x.2 r e) r
    else evrDrop s r
  else evrDrop s r

/-- Disable a ring: records already due for it and not yet written are dropped and counted (R276, R278). -/
def evrDisable (s : State) (r : Nat) : State :=
  let n := (s.events.filter fun x => x.due.contains r).length
  let kept : List Raised := s.events.map fun x => ⟨x.event, x.due.filter (· != r)⟩
  let s := { s with events := kept.filter fun x => !x.due.isEmpty }
  let s := s.wr HEP_EVR_CFG.ENABLE r 0
  (List.range n).foldl (fun s _ => evrDrop s r) s

/-- Put a ring in force (R275, R280): HEAD and TAIL are set to 0 and an owed record is written first. -/
def evrEnable (s : State) (r : Nat) : State :=
  let s := (s.wr HEP_EVR_HEAD.INDEX r 0).wr HEP_EVR_TAIL.INDEX r 0
  let s := s.wr HEP_EVR_CFG.ENABLE r 1
  let owed := (s.evrOf r).owed
  let s := evrPayOwed s r
  if owed ≠ 0 && (s.evrOf r).owed = 0 then evrNotify s r else s

/-- The consumer of a ring reports its progress (R275). -/
def evrHead (s : State) (r h : Nat) : State :=
  let s := s.wr HEP_EVR_HEAD.INDEX r h
  let owed := (s.evrOf r).owed
  let s := evrPayOwed s r
  if owed ≠ 0 && (s.evrOf r).owed = 0 then evrNotify s r else s

end Sys2Proof.Machine
end

