-- ==== Sys2Proof/Machine/Entries.lean ====
section
/-! DEFINITION. Ring entries of queues: fetching the bytes of a command, writing a completion entry (R120, R145, R279).
Choices and readings of the model: log entries 9 and 19. -/
namespace Sys2Proof.Machine

open Sys2Proof

/-- Bytes of a ring entry: 64, or 16 for the buffer descriptors of a receive queue (R200). -/
def entrySize (qid : Nat) (q : Queue) : Nat := if qcls qid = 4 && q.kind then 16 else 64

/-- The address of a ring entry's command. -/
def Queue.cmdAddr (q : Queue) (qid entry : Nat) : Nat := q.base + entrySize qid q * entry

/-- The status of a host reply that is no data (R266, R270). -/
def replyStatus : HostReply → Nat
  | .data _ => St.success
  | .timeout => St.hostReadTimeout
  | .poisoned => St.mediumError
  | .refused => St.protectionFault

/-- Whether a queue's completion ring lies in host memory: a tile queue's and the set-up queue's have a LOC of their own (R117,
R284). -/
def State.entryHost (s : State) (qid : Nat) : Bool :=
  match qcls qid with
  | 0 => s.flag GLD_SQ_CBASE.LOC
  | 1 => s.flag TILE_QCBASE.LOC (qidx qid)
  | _ => (s.queue qid).host

/-- The bytes of the next command of a queue and the status of fetching them: from device memory of the queue's glade, or
from host memory, whose answer is `reply` (R117, R284). -/
def fetchBytes (s : State) (qid : Nat) (reply : HostReply) : List Byte × Nat :=
  let q := s.queue qid
  if q.host then
    if s.hostOn q.inst then
      match reply with
      | .data l => (bytesAt l 0 (entrySize qid q), St.success)
      | r => (List.replicate 64 0, replyStatus r)
    else (List.replicate 64 0, St.abortedHostAccessOff)
  else
    let r := s.gladeRead (s.queueGlade qid) (q.cmdAddr qid q.head) (entrySize qid q)
    (if r.2 = St.success then r.1 else List.replicate 64 0, r.2)

/-- The queue head that a completion entry tells: the head after its command, and on a storage queue the fetch head when
the entry is written (R120, R145, R302). -/
def entryHead (qid : Nat) (q : Queue) (d : Done) : Nat := if qcls qid = 5 then q.head else (d.entry + 1) % q.size

/-- The 16 bytes of a completion entry (R120, R145). -/
def entryBytes (qid : Nat) (q : Queue) (d : Done) : List Byte :=
  toLe 4 d.word0 ++ toLe 1 d.status ++ toLe 1 (b2n q.phase) ++ toLe 2 (entryHead qid q d) ++ toLe 4 d.mid
    ++ toLe 2 d.stamp ++ toLe 2 0

/-- The port on which a queue's MSI-X vector is sent (R280). -/
def State.queuePort (s : State) (qid : Nat) : Nat := s.homePort (s.queue qid).inst

/-- Whether a completion's stamp is the instance's current generation (R288). -/
def stampOk (s : State) (qid : Nat) (d : Done) : Bool := d.stamp == s.genOf (s.queue qid).inst

/-- Send a queue's message: a storage queue's waits for its instance's holdoff (R311). -/
def State.queueMsix (s : State) (qid : Nat) : State :=
  let q := s.queue qid
  if qcls qid = 5 then
    let x := Tab.get {} s.stq.insts q.inst
    let free := match x.lastMsg with
      | none => true
      | some t => t + x.holdoff * 1000 ≤ s.now
    let put := fun (s : State) (y : StqInst) => { s with stq := { s.stq with insts := Tab.set {} s.stq.insts q.inst y } }
    if x.holdoff = 0 then s.msix (s.queuePort qid) q.vector
    else if free then put (s.msix (s.queuePort qid) q.vector) { x with lastMsg := some s.now }
    else if x.heldVectors.contains q.vector then s
    else put s { x with heldVectors := x.heldVectors ++ [q.vector] }
  else s.msix (s.queuePort qid) q.vector

/-! ### Who is told of a SEND (R199, R217) -/

/-- A response packet without memory behind it (R217). -/
def plainResp (type msg status glade : Nat) (l : List Byte) : Pkt :=
  { type := type, first := true, last := true, ftn := 0, addr := 0, rkey := 0, msg := msg, moff := 0, aux := status,
    opv := 0, src := none, data := l, flow := .response glade, glade := glade, inst := 0, owner := none }

/-- Put a response packet in line (R245). -/
def enqueueResponse (s : State) (d : Nat) (p : Pkt) : State :=
  { s with fab := { s.fab with responses := s.fab.responses ++ [(d, p)] } }

/-- Tell the sender of a message how it has ended: an OP_RESP to a peer, or the completion of a command of this device. -/
def State.tell (s : State) : Tell → State
  | .peer d msg status glade => enqueueResponse s d (plainResp 0x0A msg status glade [])
  | .cmd qid entry status result =>
    match (s.queue qid).cmdAt entry with
    | some c => s.complete qid c status result
    | none => s

/-- The status that a sender is told where the receive entry is never written, since the receiver's instance was reset first: the
spec names none (log entry 14, DESIGN CHOICE). -/
def Tell.lost : Tell → Tell
  | .peer d msg _ glade => .peer d msg St.abortedInstanceReset glade
  | .cmd qid entry _ _ => .cmd qid entry St.abortedInstanceReset 0

/-- Tell the sender of a due entry, if it has one. -/
def tellSender (s : State) (t : Option Tell) : State :=
  match t with
  | some t => s.tell t
  | none => s

/-- Attach to a due entry of a receive queue the sender who is told once it is written. -/
def tellWhenWritten (s : State) (qid entry : Nat) (t : Tell) : State :=
  let q := s.queue qid
  s.setQueue qid { q with due := q.due.map fun d => if d.entry == entry && d.tell.isNone then { d with tell := some t } else d }

/-- Forget the senders that a test picks: nobody waits for their answer any more. -/
def dropTells (s : State) (pick : Tell → Bool) : State :=
  s.queues.foldl
    (fun s q =>
      if q.2.due.any fun d => (d.tell.map pick).getD false then
        let x := s.queue q.1
        s.setQueue q.1 { x with due := x.due.map fun d => if (d.tell.map pick).getD false then { d with tell := none } else d }
      else s) s

/-- Write the oldest due completion of a queue (R120): the entry, the completion count, the interrupt, the post. An entry
whose stamp is stale is discarded and counted (R288). The sender of a received message is told then (R199). -/
def State.writeEntry (s : State) (qid : Nat) : State :=
  let q := s.queue qid
  match q.due with
  | [] => s
  | d :: rest =>
    if stampOk s qid d then
      let s := s.locWrite q.inst (s.entryHost qid) (q.cbase + 16 * q.wpos) (entryBytes qid q d)
      let w := (q.wpos + 1) % q.size
      let q := s.queue qid
      let s := s.setQueue qid
        { q with due := rest, wpos := w, phase := if w = 0 then !q.phase else q.phase,
                 count := (q.count + 1) % 2 ^ 64 }
      let s := if d.intr then s.queueMsix qid else s
      let s :=
        match d.post with
        | some c => s.post (s.queueGlade qid) c 1
        | none => s
      tellSender s d.tell
    else tellSender ((s.bump GLD_STALE_CNT.COUNT).setQueue qid { q with due := rest }) (d.tell.map Tell.lost)

/-- Write every due completion of a queue, oldest first. -/
def State.writeEntries (s : State) (qid : Nat) : State :=
  (s.queue qid).due.foldl (fun s _ => s.writeEntry qid) s

/-- Complete every fetched command of a queue with one status. -/
def State.completeAll (s : State) (qid status mid : Nat) : State :=
  (s.queue qid).cmds.foldl (fun s c => s.complete qid c status mid) s

/-- Complete the command at the head of a ring without running it. Its tag is read from its entry; a tag in host memory is the
host's own data, so a free value stands for it (log entry 19, safe). -/
def completeQueued (s : State) (qid status mid : Nat) : State :=
  let q := s.queue qid
  let r : List Byte × State := if q.host then s.freeBytes 64 else (s.bytes (q.cmdAddr qid q.head) (entrySize qid q), s)
  let c : Cmd := { bytes := r.1, entry := q.head, stamp := r.2.genOf q.inst, started := false, waiting := false }
  let s := r.2.setQueue qid { q with head := (q.head + 1) % q.size, cmds := q.cmds ++ [c] }
  s.complete qid c status mid

/-- Complete every queued command of a ring without running it (R135, R136). -/
def completeRing (s : State) (qid status mid : Nat) : State :=
  (List.range (s.queue qid).waiting).foldl (fun s _ => completeQueued s qid status mid) s

/-- A queue's rings start again: head and tail 0, PHASE 1, the count 0 (R121, R139). -/
def restartRings (s : State) (qid : Nat) : State :=
  s.setQueue qid { s.queue qid with head := 0, tail := 0, phase := true, count := 0, wpos := 0, abort := 0, resetTail := 0 }

/-- Record a new tail (R117): a value outside the ring is ignored and sets TAIL_REFUSED. -/
def recordTail (s : State) (qid tail : Nat) : State :=
  let q := s.queue qid
  if tail < q.size then s.setQueue qid { q with tail := tail } else s.setQueue qid { q with refused := true }

end Sys2Proof.Machine
end

