-- ==== Sys2Proof/Machine/Pools.lean ====
section
/-! DEFINITION. Pools and quotas of the glades (R282, R283). Choices and readings of the model: log entry 19. -/
namespace Sys2Proof.Machine

open Sys2Proof

/-- The pools in the row order of R282 (R294). -/
inductive Pool where
  | instances | tiles | cores | dram | ctx | keys | stq
  deriving DecidableEq, Repr

/-- Number of a pool (R294). -/
def Pool.number : Pool → Nat
  | .instances => 0 | .tiles => 1 | .cores => 2 | .dram => 3 | .ctx => 4 | .keys => 5 | .stq => 6

/-- Every pool. -/
def Pool.all : List Pool := [.instances, .tiles, .cores, .dram, .ctx, .keys, .stq]

/-- The quota field of a pool. -/
def Pool.quota : Pool → Fld
  | .instances => GLD_QUOTA_A.INSTANCES | .tiles => GLD_QUOTA_A.TILES | .cores => GLD_QUOTA_A.CORES
  | .dram => GLD_QUOTA_A.DRAM | .ctx => GLD_QUOTA_B.CTX | .keys => GLD_QUOTA_B.KEYS | .stq => GLD_QUOTA_B.STQ

/-- The use field of a pool. -/
def Pool.use : Pool → Fld
  | .instances => GLD_USE_A.INSTANCES | .tiles => GLD_USE_A.TILES | .cores => GLD_USE_A.CORES
  | .dram => GLD_USE_A.DRAM | .ctx => GLD_USE_B.CTX | .keys => GLD_USE_B.KEYS | .stq => GLD_USE_B.STQ

/-- The free field of a pool. -/
def Pool.freeFld : Pool → Fld
  | .instances => GLD_POOL_A.INSTANCES | .tiles => GLD_POOL_A.TILES | .cores => GLD_POOL_A.CORES
  | .dram => GLD_POOL_A.DRAM | .ctx => GLD_POOL_B.CTX | .keys => GLD_POOL_B.KEYS | .stq => GLD_POOL_B.STQ

/-- Worker cores of the offload pool: logical cores 4 to 15 of each cluster that are in service (R391). -/
def poolCores (s : State) : Nat :=
  (below 256 fun k => 4 ≤ k % 16 && !bitOf (s.rd GLB_CORE_MAP.OUT_OF_SERVICE (k / 16)) (k % 16)).length

/-- The size of a pool (R282). -/
def poolSize (s : State) : Pool → Nat
  | .instances => 4096
  | .tiles => s.rd GLB_UNITS.TILES_IN_SERVICE
  | .cores => poolCores s
  | .dram => s.topMib / 2
  | .ctx => 262144 - s.rd FAB_CTX_CFG.PEER_RESERVE
  | .keys => 65536
  | .stq => 8192

/-- A glade's use of a pool. -/
def poolUse (s : State) (p : Pool) (g : Nat) : Nat := s.rd p.use g

/-- A glade's quota of a pool. -/
def poolQuota (s : State) (p : Pool) (g : Nat) : Nat := s.rd p.quota g

/-- What the quotas and glade 0's use claim of a pool. -/
def poolClaim (s : State) (p : Pool) : Nat := poolUse s p 0 + sumNat ((List.range 255).map fun g => poolQuota s p (g + 1))

/-- What all glades use of a pool. -/
def poolUsed (s : State) (p : Pool) : Nat := sumNat ((List.range 256).map fun g => poolUse s p g)

/-- The pools whose quotas no longer fit (R283). -/
def overPools (s : State) : List Pool := Pool.all.filter fun p => poolSize s p < poolClaim s p

/-- What is left of a pool for glade 0 and for new quotas. -/
def poolFree (s : State) (p : Pool) : Nat := poolSize s p - poolClaim s p

/-- Show the pools in GLD_POOL_A and GLD_POOL_B, set OVERCOMMIT, and raise GLD_POOL_SHRUNK for each pool that no longer
fits and did before (R283, R294). -/
def refreshPools (s : State) : State :=
  let tight := overPools s
  let s := Pool.all.foldl (fun s p => s.wr p.freeFld 0 (poolFree s p)) s
  let s := s.wr GLD_POOL_A.OVERCOMMIT 0 (b2n !tight.isEmpty)
  let fresh := tight.filter fun p => !s.shrunk.contains p.number
  let s := { s with shrunk := tight.map Pool.number }
  fresh.foldl (fun s p => s.raiseUnit 0x0D02 (unitId 0 0) p.number) s

/-- Whether a glade may take `n` more of a pool: glade 0 from what is left, another glade within its quota while the pool
has that many (R282, R283). -/
def mayTake (s : State) (p : Pool) (g n : Nat) : Bool :=
  if g = 0 then n ≤ poolFree s p
  else poolUse s p g + n ≤ poolQuota s p g && poolUsed s p + n ≤ poolSize s p

/-- The state in which a glade has taken `n` more of a pool. -/
def take (s : State) (p : Pool) (g n : Nat) : State := refreshPools (s.wr p.use g (poolUse s p g + n))

/-- The state in which a glade has given `n` of a pool back. -/
def give (s : State) (p : Pool) (g n : Nat) : State := refreshPools (s.wr p.use g (poolUse s p g - n))

/-- Whether a glade exists (R281). -/
def State.gladeExists (s : State) (g : Nat) : Bool := s.flag GLD_QUOTA_A.EXISTS g

/-- Whether contexts may be taken at all: the context store is in force (R227). -/
def mayTakeCtx (s : State) (g n : Nat) : Bool := s.flag FAB_CTX_CFG.ENABLE && mayTake s .ctx g n

end Sys2Proof.Machine
end

