-- ==== Sys2Proof/Machine/Security.lean ====
section
/-! DEFINITION. Security, keys and the seal engine (R319 to R344). Choices and readings of the model: log entry 45. -/
namespace Sys2Proof.Machine

open Sys2Proof

/-! ### Identity -/

/-- Whether the identity is not reconstructed (R56). -/
def State.noIdentity (s : State) : Bool := s.flag BOOT_STATUS.IDENTITY_FAIL || !s.flag SEC_STATUS.IDENTITY_OK

/-- The identity secret key (R56). -/
def State.idKey (s : State) : List Byte := Config.identityKey s.sec.helper

/-- The 8 bytes of the device serial number (R261): zero without an identity. -/
def State.serial (s : State) : List Byte :=
  if s.noIdentity then List.replicate 8 0 else (Config.sha512 (Config.publicKey s.idKey)).take 8

/-- The key identifier of a public key (R320). -/
def keyIdent (k : List Byte) : List Byte := (Config.sha512 k).take 32

/-- The words of an array of 64-bit fields as bytes. -/
def State.wordBytes (s : State) (f : Fld) (i n : Nat) : List Byte :=
  (List.range n).flatMap fun j => toLe 8 (s.rd f (i + j))

/-- The state with bytes written to an array of 64-bit fields. -/
def State.setWords (s : State) (f : Fld) (i n : Nat) (l : List Byte) : State :=
  (List.range n).foldl (fun s j => s.wr f (i + j) (leAt l (8 * j) 8)) s

/-! ### The key store (R330 to R333) -/

/-- Whether a slot is free. -/
def slotFree (s : State) (k : Nat) : Bool := s.rd SEC_KEY_SLOT.TYPE k == 0

/-- Whether a valid volume names a slot. -/
def volumeNames (s : State) (k : Nat) : Bool :=
  (List.range 4096).any fun v =>
    s.flag STQ_VOL_A.VALID v && s.flag STQ_VOL_A.ENCRYPT v && s.rd STQ_VOL_A.KEY_SLOT v == k

/-- Whether a valid fabric key group names a slot. -/
def groupNames (s : State) (k : Nat) : Bool :=
  (List.range 64).any fun g =>
    s.flag SEC_FAB_GRP_A.VALID g && (s.rd SEC_FAB_GRP_B.SLOT0 g == k || s.rd SEC_FAB_GRP_B.SLOT1 g == k)

/-- Zero a slot and free it (R331). -/
def eraseSlot (s : State) (k : Nat) : State :=
  if slotFree s k then s
  else
    let g := s.rd SEC_KEY_SLOT.GLADE k
    let s := { s with sec := { s.sec with keys := Tab.set [] s.sec.keys k [] } }
    give (s.wrs k [(SEC_KEY_SLOT.TYPE, 0), (SEC_KEY_SLOT.GLADE, 0)]) .keys g 1

/-- The slots that hold a key of a glade. -/
def gladeSlots (s : State) (g : Nat) : List Nat :=
  (s.sec.keys.filter fun k => s.rd SEC_KEY_SLOT.GLADE k.1 == g && !slotFree s k.1).map (·.1)

/-- Erase every slot of a glade (R333, R340). -/
def eraseGladeKeys (s : State) (g : Nat) : State := (gladeSlots s g).foldl eraseSlot s

/-- Erase the whole key store (R319, R340). -/
def eraseAllKeys (s : State) : State := (s.sec.keys.map (·.1)).foldl eraseSlot s

/-- Bytes of a key of a type (R330). -/
def keyBytes : Nat → Nat
  | 2 => 64
  | _ => 32

/-- Load a key into a slot, or the status that refuses it (R330, R331): occupied, bad field, quota. -/
def loadKey (s : State) (k : KeyOp) (type : Nat) (key : List Byte) : State × Nat :=
  if !slotFree s k.slot then (s, 0x09)
  else if type = 0 || (type = 1 && k.glade ≠ 0) || (k.glade ≠ 0 && !s.gladeExists k.glade)
      || (type = 2 && key.take 32 = (key.drop 32).take 32) then (s, 0x03)
  else if !mayTake s .keys k.glade 1 then (s, 0x04)
  else
    let s := { s with sec := { s.sec with keys := Tab.set [] s.sec.keys k.slot (key.take (keyBytes type)) } }
    (take (s.wrs k.slot [(SEC_KEY_SLOT.TYPE, type), (SEC_KEY_SLOT.GLADE, k.glade)]) .keys k.glade 1, 0x02)

/-- The effect of LOAD_PLAIN. -/
def plainEffect (s : State) (k : KeyOp) : State × Nat := loadKey s k k.type (k.data.take (keyBytes k.type))

/-- The effect of LOAD_WRAPPED: KEK must hold a type 3 key of the same glade. -/
def wrappedEffect (s : State) (k : KeyOp) : State × Nat :=
  if !slotFree s k.slot then (s, 0x09)
  else if s.rd SEC_KEY_SLOT.TYPE k.kek ≠ 3 then (s, 0x03)
  else if s.rd SEC_KEY_SLOT.GLADE k.kek ≠ k.glade then (s, 0x05)
  else
    match Config.keyUnwrap (Tab.get [] s.sec.keys k.kek) (k.data.take (keyBytes k.type + 8)) with
    | some key => loadKey s k k.type key
    | none => (s, 0x06)

/-- The key-encryption key of R332. -/
def ecdhKey (s : State) (k : KeyOp) (z : List Byte) : List Byte :=
  (Config.sha512 (toBe 4 1 ++ z ++ s.serial ++ toLe 4 k.slot ++ toLe 1 k.glade)).take 32

/-- The effect of ECDH_KEK. -/
def ecdhEffect (s : State) (k : KeyOp) : State × Nat :=
  if s.noIdentity || s.flag SEC_STATUS.DEBUG_MGMT then (s, 0x07)
  else if !slotFree s k.slot then (s, 0x09)
  else
    match Config.ecdh s.idKey (k.data.take 133) with
    | some z => loadKey s k 3 (ecdhKey s k z)
    | none => (s, 0x03)

/-- The effect of ERASE: a slot in use or of another glade is refused. -/
def eraseEffect (s : State) (k : KeyOp) : State × Nat :=
  if slotFree s k.slot then (s, 0x02)
  else if s.rd SEC_KEY_SLOT.GLADE k.slot ≠ k.glade then (s, 0x05)
  else if volumeNames s k.slot || groupNames s k.slot then (s, 0x08)
  else (eraseSlot s k.slot, 0x02)

/-- The effect of a key command. -/
def keyEffect (s : State) (k : KeyOp) : State × Nat :=
  match k.op with
  | 1 => plainEffect s k
  | 2 => wrappedEffect s k
  | 3 => ecdhEffect s k
  | 4 => eraseEffect s k
  | _ => (s, 0x03)

/-- A key command ends (R331, R342): its effect and status, BUSY cleared, SEC_KEY_DATA cleared. -/
def keyEnd (s : State) : State :=
  match s.sec.keyOp with
  | none => s
  | some k =>
    let r := keyEffect s k
    let s := { r.1 with sec := { r.1.sec with keyOp := none } }
    let s := s.setWords SEC_KEY_DATA.BYTES 0 17 []
    s.wrs 0 [(SEC_KEY_CMD.BUSY, 0), (SEC_KEY_CMD.STATUS, r.2)]

/-- The security block's grove is STOPPED: its operations are refused (R448). -/
def secStopped (s : State) : Bool := s.rd CLK_GROVE.STATE 2 == 2

/-- Hold a write of START until the activation has ended (R421). -/
def holdStart (s : State) (h : HeldStart) : State := { s with sec := { s.sec with heldStarts := s.sec.heldStarts ++ [h] } }

/-- A write of SEC_KEY_CMD with START: the fields are stored, and unless BUSY the command begins. -/
def keyStart (s : State) (op type glade slot kek : Nat) : State :=
  let s := s.wrs 0 [(SEC_KEY_CMD.OP, op), (SEC_KEY_CMD.TYPE, type), (SEC_KEY_CMD.GLADE, glade), (SEC_KEY_CMD.SLOT, slot),
    (SEC_KEY_CMD.KEK, kek)]
  if fetchPaused s then holdStart s (.key op type glade slot kek)
  else if s.flag SEC_KEY_CMD.BUSY then s
  else if secStopped s then (s.setWords SEC_KEY_DATA.BYTES 0 17 []).wr SEC_KEY_CMD.STATUS 0 0x03
  else
    let k : KeyOp :=
      { op := op, type := type, glade := glade, slot := slot, kek := kek,
        data := (s.wordBytes SEC_KEY_DATA.BYTES 0 17).take 133 }
    let s := { s with sec := { s.sec with keyOp := some k } }
    s.wrs 0 [(SEC_KEY_CMD.BUSY, 1), (SEC_KEY_CMD.STATUS, 0x01)]

/-- LOAD_PLAIN is started (R331). -/
def execLoadPlain (type : BitVec 2) (glade : BitVec 8) (slot : BitVec 16) (s : State) : Out := unlessNoImage s <|
  .next (keyStart s 1 type.toNat glade.toNat slot.toNat (s.rd SEC_KEY_CMD.KEK))

/-- LOAD_WRAPPED is started (R331). -/
def execLoadWrapped (type : BitVec 2) (glade : BitVec 8) (slot kek : BitVec 16) (s : State) : Out := unlessNoImage s <|
  .next (keyStart s 2 type.toNat glade.toNat slot.toNat kek.toNat)

/-- ECDH_KEK is started (R332). -/
def execEcdhKek (glade : BitVec 8) (slot : BitVec 16) (s : State) : Out := unlessNoImage s <|
  .next (keyStart s 3 3 glade.toNat slot.toNat (s.rd SEC_KEY_CMD.KEK))

/-- ERASE is started (R331). -/
def execErase (glade : BitVec 8) (slot : BitVec 16) (s : State) : Out := unlessNoImage s <|
  .next (keyStart s 4 (s.rd SEC_KEY_CMD.TYPE) glade.toNat slot.toNat (s.rd SEC_KEY_CMD.KEK))

/-- The key command in progress ends. -/
def execKeyCmdDone (s : State) : Out := .next (keyEnd s)

/-! ### Attestation (R327 to R329) -/

/-- Bytes of the running image's security trailer (R323). -/
def State.trailer (s : State) : List Byte := s.fw.running.drop (s.fw.running.length - 416)

/-- The security version number of the running firmware. -/
def State.runSvn (s : State) : Nat := leAt s.trailer 4 4

/-- The version of the running firmware. -/
def State.runVersion (s : State) : Nat := leAt s.trailer 8 4

/-- The report of R328 before its signature. -/
def reportBody (s : State) (g : Nat) (nonce : List Byte) : List Byte :=
  let flags := b2n (s.flag SEC_STATUS.DEBUG_MGMT) + 2 * b2n (s.sec.debugged.contains g)
    + 4 * s.rd SEC_ROLLBACK.BASIS + 8 * b2n s.boot.byOwner
  [0x57, 0x58, 0x41, 0x54] ++ toLe 2 1 ++ toLe 2 0x4160 ++ toLe 1 0xA1 ++ toLe 1 flags ++ toLe 1 g ++ toLe 1 0
    ++ toLe 4 (s.rd BOOT_IMAGE.GENERATION) ++ s.serial ++ toLe 4 s.runSvn ++ toLe 4 s.runVersion
    ++ toLe 4 (s.rd SEC_ROLLBACK.MIN_SVN) ++ toLe 4 0 ++ toLe 8 s.now ++ bytesAt nonce 0 64
    ++ bytesAt (Config.sha512 s.boot.image) 0 64 ++ bytesAt (Config.sha512 s.fw.running) 0 64
    ++ s.wordBytes SEC_GLADE_MEAS.BYTES (8 * g) 8 ++ bytesAt s.boot.image 24 32 ++ List.replicate 44 0

/-- The whole report. -/
def report (s : State) (g : Nat) (nonce : List Byte) : List Byte :=
  let b := reportBody s g nonce
  b ++ bytesAt (Config.ecdsaSign s.idKey b) 0 132

/-- A write of SEC_ATT_CTRL with START (R327): a START while BUSY is ignored. -/
def attStart (s : State) (g : Nat) : State :=
  let s := s.wr SEC_ATT_CTRL.GLADE 0 g
  if fetchPaused s then holdStart s (.att g)
  else if s.flag SEC_ATT_CTRL.BUSY then s
  else if secStopped s then s.wr SEC_ATT_CTRL.STATUS 0 0x03
  else if s.noIdentity then s.wr SEC_ATT_CTRL.STATUS 0 0x07
  else if !s.gladeExists g then s.wr SEC_ATT_CTRL.STATUS 0 0x03
  else
    let s := { s with sec := { s.sec with att := some (g, s.wordBytes SEC_ATT_NONCE.BYTES 0 8) } }
    s.wr SEC_ATT_CTRL.BUSY 0 1

/-- SEC_ATT_CTRL START begins a report of a glade. -/
def execAttestStart (g : BitVec 8) (s : State) : Out := unlessNoImage s <| .next (attStart s g.toNat)

/-- The report is signed and written, and BUSY clears. -/
def execAttestDone (s : State) : Out :=
  match s.sec.att with
  | none => .next s
  | some (g, nonce) =>
    let s := s.setWords SEC_ATT_REPORT.BYTES 0 64 (report s g nonce)
    let s := { s with sec := { s.sec with att := none } }
    .next (s.wrs 0 [(SEC_ATT_CTRL.BUSY, 0), (SEC_ATT_CTRL.STATUS, 0x02)])

/-- A glade's measurement takes in the digest of an offload program (R329). -/
def extendMeasurement (s : State) (g : Nat) (d : List Byte) : State :=
  s.setWords SEC_GLADE_MEAS.BYTES (8 * g) 8 (Config.sha512 (s.wordBytes SEC_GLADE_MEAS.BYTES (8 * g) 8 ++ d))

/-! ### Anti-rollback (R324, R325, R341) -/

/-- SEC_ROLLBACK.ADVANCE: refused while LOADING or activating, and when no flash counter is in force. -/
def execRollbackAdvance (s : State) : Out := unlessNoImage s <|
  if s.rd SEC_ROLLBACK.ADV_STATUS = 0x01 then .next s
  else if s.rd BOOT_STATE.STATE = 7 || fetchPaused s || !s.flag SEC_ROLLBACK.BASIS || s.fw.running = []
      || secStopped s || s.rd CLK_GROVE.STATE 3 = 2 then
    .next (s.wr SEC_ROLLBACK.ADV_STATUS 0 0x03)
  else .next (s.wr SEC_ROLLBACK.ADV_STATUS 0 0x01)

/-- The flash counter equals the running SVN. -/
def execAdvanceDone (s : State) : Out :=
  if s.rd SEC_ROLLBACK.ADV_STATUS = 0x01 then
    let v := max (s.rd SEC_ROLLBACK.MIN_SVN) s.runSvn
    let s := s.wrs 0 [(SEC_ROLLBACK.MIN_SVN, v), (SEC_ROLLBACK.ADV_STATUS, 0x02)]
    .next (s.raiseUnit 0x0F04 (unitId 0xC 0) v)
  else .next s

/-! ### Fabric key groups (R334) -/

/-- A write to SEC_FAB_GRP_A: TX_SEL always; the other fields only while VALID is 0; VALID needs both slots of type 1. -/
def fabGrpA (s : State) (k v : Nat) : State :=
  let s := s.wr SEC_FAB_GRP_A.TX_SEL k (bitsOf v 33 1)
  if s.flag SEC_FAB_GRP_A.VALID k then s.wr SEC_FAB_GRP_A.VALID k (bitsOf v 32 1)
  else
    let s := s.wrs k [(SEC_FAB_GRP_A.LO, bitsOf v 0 16), (SEC_FAB_GRP_A.HI, bitsOf v 16 16)]
    let ok := fun x => s.rd SEC_KEY_SLOT.TYPE x == 1 && s.rd SEC_KEY_SLOT.GLADE x == 0
    if bitOf v 32 && ok (s.rd SEC_FAB_GRP_B.SLOT0 k) && ok (s.rd SEC_FAB_GRP_B.SLOT1 k) then
      s.wr SEC_FAB_GRP_A.VALID k 1
    else s

/-- A write to SEC_FAB_GRP_B: ignored while the group is valid. -/
def fabGrpB (s : State) (k v : Nat) : State :=
  if s.flag SEC_FAB_GRP_A.VALID k then s
  else s.wrs k [(SEC_FAB_GRP_B.SLOT0, bitsOf v 0 16), (SEC_FAB_GRP_B.SLOT1, bitsOf v 16 16)]

/-- A write to SEC_FAB_GRP_A (`b` false) or SEC_FAB_GRP_B (`b` true). -/
def execFabKeyGroupWrite (k : Fin 64) (b : Bool) (v : BitVec 64) (s : State) : Out := unlessNoImage s <|
  .next (if b then fabGrpB s k v.toNat else fabGrpA s k v.toNat)

/-! ### The seal engine (R335 to R338) -/

/-- The lock is released: the key and the message buffer are cleared, and no message stays open (R336). -/
def sealRelease (s : State) : State :=
  let s := { s with sec := { s.sec with sealMsg := [], sealMgmt := false, sealRun := none } }
  let s := s.setWords SEC_SEAL_KEY.BYTES 0 4 []
  s.wrs 0 [(SEC_SEAL_LOCK.HELD, 0), (SEC_SEAL_LOCK.TOKEN, 0)]

/-- The lock is taken from its holder, and the event is raised (R336, R341). -/
def sealExpire (s : State) : State :=
  (sealRelease s).raiseUnit 0x0F03 (unitId 0xC 1) (s.rd SEC_SEAL_LOCK.TOKEN)

/-- A write of a nonzero token while HELD is 0 takes the lock, for the mediator or the management complex (`mgmt`). -/
def execSealLockTake (token : BitVec 16) (mgmt : Bool) (s : State) : Out := unlessNoImage s <|
  if s.flag SEC_SEAL_LOCK.HELD || token = 0 then .next s
  else
    let s := { s with sec := { s.sec with sealMgmt := mgmt } }
    .next (s.wrs 0 [(SEC_SEAL_LOCK.HELD, 1), (SEC_SEAL_LOCK.TOKEN, token.toNat)])

/-- RELEASE with the holder's token frees the lock. -/
def execSealLockRelease (token : BitVec 16) (s : State) : Out := unlessNoImage s <|
  if s.flag SEC_SEAL_LOCK.HELD && s.rd SEC_SEAL_LOCK.TOKEN = token.toNat then .next (sealRelease s) else .next s

/-- 10 ms have passed with the lock held, no START and the engine not BUSY. -/
def execSealLockExpire (s : State) : Out :=
  if s.flag SEC_SEAL_LOCK.HELD && !s.flag SEC_SEAL_CTRL.BUSY then .next (sealExpire s) else .next s

/-- An aligned 64-bit write of message bytes. -/
def execSealMsgWrite (i : Fin 512) (v : BitVec 64) (s : State) : Out := unlessNoImage s <|
  .next { s with sec := { s.sec with sealMsg := Tab.set 0 s.sec.sealMsg i v.toNat } }

/-- The first bytes of the message buffer. -/
def sealMessage (s : State) (len : Nat) : List Byte :=
  ((List.range 512).flatMap fun i => toLe 8 (Tab.get 0 s.sec.sealMsg i)).take len

/-- The key of a seal slot (R335): none when the slot is empty or unavailable to the caller. -/
def sealKey (s : State) (slot : Nat) (mgmt : Bool) : Option (List Byte) :=
  if slot = 0 then
    if mgmt && !s.noIdentity && !s.flag SEC_STATUS.DEBUG_MGMT then some (Config.sealRootKey s.sec.helper) else none
  else
    match Tab.get [] s.sec.sealKeys slot with
    | [] => none
    | k => some k

/-- The fields of a write of SEC_SEAL_CTRL with START, and whether it is ignored because the engine is BUSY. -/
def sealFields (s : State) (mode token slot len : Nat) (more replay : Bool) : State × Bool :=
  (s.wrs 0 [(SEC_SEAL_CTRL.MODE, mode), (SEC_SEAL_CTRL.TOKEN, token), (SEC_SEAL_CTRL.SLOT, slot), (SEC_SEAL_CTRL.LEN, len),
    (SEC_SEAL_CTRL.MORE, b2n more), (SEC_SEAL_CTRL.REPLAY, b2n replay)], s.flag SEC_SEAL_CTRL.BUSY)

/-- Whether a token is the holder's. -/
def sealHolder (s : State) (token : Nat) : Bool := s.flag SEC_SEAL_LOCK.HELD && s.rd SEC_SEAL_LOCK.TOKEN == token

/-- A START is refused with a status. -/
def sealRefuse (s : State) (status : Nat) : State := s.wr SEC_SEAL_CTRL.STATUS 0 status

/-- A START without the holder's token changes nothing but STATUS (R338); one while BUSY is ignored. -/
def sealTurnedAway (s : State) (token : Nat) : Bool := !s.flag SEC_SEAL_CTRL.BUSY && !sealHolder s token

/-- The engine begins an operation. -/
def sealBegin (s : State) (o : SealOp) : State :=
  let s := { s with sec := { s.sec with sealOp := some o, sealRun := none } }
  s.wrs 0 [(SEC_SEAL_CTRL.BUSY, 1), (SEC_SEAL_CTRL.STATUS, 0x01)]

/-- The MAC so far of the message that a chunk of a mode and slot continues, if one is open. -/
def sealOpen (s : State) (mode slot : Nat) : Option (List Byte) :=
  match s.sec.sealRun with
  | some r => if r.mode = mode && r.slot = slot then some r.bytes else none
  | none => none

/-- Start a SEAL chunk (R337). -/
def sealStart (s : State) (slot len : Nat) (more mgmt : Bool) : State :=
  if len = 0 || 4096 < len || secStopped s then sealRefuse s 0x03
  else
    match sealKey s slot mgmt with
    | none => sealRefuse s 0x07
    | some _ =>
      match sealOpen s 1 slot with
      | some b => sealBegin s { mode := 1, slot := slot, more := more, replay := false, bytes := b ++ sealMessage s len }
      | none =>
        let c := s.rd SEC_SEAL_SLOTCTR.VALUE slot
        if c = 0xFFFFFFFFFFFFFFFF then sealRefuse s 0x05
        else
          let s := (s.wr SEC_SEAL_SLOTCTR.VALUE slot (c + 1)).wr SEC_SEAL_CTR.VALUE 0 (c + 1)
          sealBegin s
            { mode := 1, slot := slot, more := more, replay := false, bytes := toLe 8 (c + 1) ++ sealMessage s len }

/-- Mode SEAL. `mgmt` says that the management complex writes the register. -/
def execSeal (token : BitVec 16) (slot : Fin 16) (len : BitVec 13) (more mgmt : Bool) (s : State) : Out := unlessNoImage s <|
  if sealTurnedAway s token.toNat then .next (sealRefuse s 0x04)
  else
    let r := sealFields s 1 token.toNat slot len.toNat more (s.flag SEC_SEAL_CTRL.REPLAY)
    if r.2 then .next r.1
    else .next (sealStart r.1 slot len.toNat more mgmt)

/-- Start a VERIFY chunk (R338). -/
def verifyStart (s : State) (slot len : Nat) (more replay mgmt : Bool) : State :=
  if len = 0 || 4096 < len || secStopped s then sealRefuse s 0x03
  else
    match sealKey s slot mgmt with
    | none => sealRefuse s 0x07
    | some _ =>
      let first := (sealOpen s 2 slot).getD (toLe 8 (s.rd SEC_SEAL_CTR.VALUE))
      sealBegin s { mode := 2, slot := slot, more := more, replay := replay, bytes := first ++ sealMessage s len }

/-- Mode VERIFY. -/
def execSealVerify (token : BitVec 16) (slot : Fin 16) (len : BitVec 13) (more replay mgmt : Bool) (s : State) : Out := unlessNoImage s <|
  if sealTurnedAway s token.toNat then .next (sealRefuse s 0x04)
  else
    let r := sealFields s 2 token.toNat slot len.toNat more replay
    if r.2 then .next r.1
    else .next (verifyStart r.1 slot len.toNat more replay mgmt)

/-- Mode LOADKEY: slots 1 to 15. -/
def execLoadkey (token : BitVec 16) (slot : Fin 16) (s : State) : Out := unlessNoImage s <|
  if sealTurnedAway s token.toNat then .next (sealRefuse s 0x04)
  else
    let r := sealFields s 3 token.toNat slot (s.rd SEC_SEAL_CTRL.LEN) (s.flag SEC_SEAL_CTRL.MORE) (s.flag SEC_SEAL_CTRL.REPLAY)
    if r.2 then .next r.1
    else if slot = 0 || secStopped r.1 then .next (sealRefuse r.1 0x03)
    else
      .next (sealBegin r.1
        { mode := 3, slot := slot, more := false, replay := false, bytes := r.1.wordBytes SEC_SEAL_KEY.BYTES 0 4 })

/-- The MAC of an operation under its slot's key. -/
def sealMac (s : State) (o : SealOp) : List Byte :=
  let k := if o.slot = 0 then Config.sealRootKey s.sec.helper else Tab.get [] s.sec.sealKeys o.slot
  bytesAt (Config.cmac k o.bytes) 0 16

/-- A VERIFY ends: whether it matches, the replay check, the watermark. -/
def verifyEnd (s : State) (o : SealOp) : State :=
  let ctr := leAt o.bytes 0 8
  if sealMac s o ≠ s.wordBytes SEC_SEAL_TAG.VALUE 0 2 then
    s.wrs 0 [(SEC_SEAL_CTRL.STATUS, 0x02), (SEC_SEAL_CTRL.MATCH, 0)]
  else if s.rd SEC_SEAL_WATER.VALUE o.slot < ctr then
    let s := s.wr SEC_SEAL_WATER.VALUE o.slot ctr
    s.wrs 0 [(SEC_SEAL_CTRL.STATUS, 0x02), (SEC_SEAL_CTRL.MATCH, 1)]
  else if o.replay then s.wrs 0 [(SEC_SEAL_CTRL.STATUS, 0x06), (SEC_SEAL_CTRL.MATCH, 0)]
  else s.wrs 0 [(SEC_SEAL_CTRL.STATUS, 0x02), (SEC_SEAL_CTRL.MATCH, 1)]

/-- The operation in progress ends and BUSY clears (R342). -/
def execSealChunkDone (s : State) : Out :=
  match s.sec.sealOp with
  | none => .next s
  | some o =>
    let s := { s with sec := { s.sec with sealOp := none } }
    let s := s.wr SEC_SEAL_CTRL.BUSY 0 0
    if o.mode = 3 then
      let s := { s with sec := { s.sec with sealKeys := Tab.set [] s.sec.sealKeys o.slot o.bytes } }
      .next (s.wr SEC_SEAL_CTRL.STATUS 0 0x02)
    else if o.more then
      let s := { s with sec := { s.sec with sealRun := some o } }
      .next (s.wr SEC_SEAL_CTRL.STATUS 0 0x02)
    else if o.mode = 1 then
      let s := s.setWords SEC_SEAL_TAG.VALUE 0 2 (sealMac s o)
      .next (s.wr SEC_SEAL_CTRL.STATUS 0 0x02)
    else .next (verifyEnd s o)

/-! ### Debug authentication (R339, R340, R458) -/

/-- Setting SEC_DEBUG.LOCK fixes the RWL fields of the block. -/
def execSecDebugLockSet (s : State) : Out := unlessNoImage s <| .next (s.wr SEC_DEBUG.LOCK 0 1)

/-- CHALLENGE: a fresh challenge, unless challenges are being refused. -/
def execChallenge (s : State) : Out :=
  if s.rd TRL_STATUS.AUTH = 3 || secStopped s then .next s
  else
    let r := s.freeBytes 64
    .next ((r.2.setWords TRL_AUTH_CHAL.BYTES 0 8 r.1).wr TRL_STATUS.CHAL_VALID 0 1)

/-- A response is refused: the eighth in a row makes the device refuse challenges, and SEC_DEBUG_FAIL is raised (R339). -/
def debugRefused (s : State) : State :=
  let n := s.sec.failures + 1
  let s := { s with sec := { s.sec with failures := n } }
  if n < 8 then s.wr TRL_STATUS.AUTH 0 2
  else (s.wrs 0 [(TRL_STATUS.AUTH, 3), (TRL_STATUS.CHAL_VALID, 0)]).raiseUnit 0x0F02 (unitId 0xC 0) n

/-- SUBMIT: the challenge is used up and the response is checked; one with no challenge to answer fails. A SUBMIT during a
check or while challenges are refused only clears the response. -/
def execSubmit (s : State) : Out :=
  let resp := s.wordBytes TRL_AUTH_RESP.BYTES 0 21
  let chal := s.wordBytes TRL_AUTH_CHAL.BYTES 0 8
  let valid := s.flag TRL_STATUS.CHAL_VALID
  let s := s.setWords TRL_AUTH_RESP.BYTES 0 21 []
  if secStopped s then .next (s.wrs 0 [(TRL_STATUS.CHAL_VALID, 0), (TRL_STATUS.AUTH, 2)])
  else if s.rd TRL_STATUS.AUTH = 1 || s.rd TRL_STATUS.AUTH = 3 then .next s
  else if valid then
    let s := { s with sec := { s.sec with debugOp := some (chal, resp) } }
    .next (s.wrs 0 [(TRL_STATUS.CHAL_VALID, 0), (TRL_STATUS.AUTH, 1)])
  else .next (debugRefused s)

/-- The public key that a debug response may be signed with: the root key, or an owner key with the debug bit. -/
def debugSigner (s : State) (ident : List Byte) : Option (List Byte) :=
  if ident = keyIdent Config.vendorRootKey then some Config.vendorRootKey
  else (s.sec.owners.find? fun k => keyIdent k.1 = ident && bitOf k.2 1).map (·.1)

/-- Whether SEC_DEBUG permits a scope. -/
def scopePermitted (s : State) (scope : Nat) : Bool :=
  scope < 512 && (if bitOf scope 8 then s.flag SEC_DEBUG.MGMT_OK else s.flag SEC_DEBUG.GLADE_OK)

/-- Whether a response answers a challenge (R339, R458). -/
def debugOk (s : State) (chal resp : List Byte) : Bool :=
  let ident := bytesAt resp 4 32
  scopePermitted s (leAt resp 0 4)
    && (match debugSigner s ident with
        | some k => Config.ecdsaVerify k (chal ++ s.serial ++ bytesAt resp 0 4 ++ ident) (bytesAt resp 36 132)
        | none => false)

/-- An unlock takes effect (R340). -/
def debugUnlock (s : State) (scope : Nat) : State :=
  if bitOf scope 8 then
    let s := eraseAllKeys (keyEnd s)
    let s := { s with sec := { s.sec with sealKeys := [] } }
    s.wrs 0 [(SEC_STATUS.DEBUG_MGMT, 1)] |>.wrs 0 [(TRL_STATUS.LOCK, 2), (TRL_STATUS.GLADE, scope % 256)]
  else
    let g := scope % 256
    let s := eraseGladeKeys s g
    let s := { s with sec := { s.sec with debugged := if s.sec.debugged.contains g then s.sec.debugged else g :: s.sec.debugged } }
    s.wrs 0 [(TRL_STATUS.LOCK, 1), (TRL_STATUS.GLADE, g)]

/-- The check of a response ends: an unlock in its scope, or a refusal, the eighth in a row refusing challenges. -/
def execDebugResponseChecked (s : State) : Out :=
  match s.sec.debugOp with
  | none => .next s
  | some (chal, resp) =>
    let s := { s with sec := { s.sec with debugOp := none } }
    if debugOk s chal resp then
      let scope := leAt resp 0 4
      let s := debugUnlock { s with sec := { s.sec with failures := 0 } } scope
      .next ((s.wr TRL_STATUS.AUTH 0 0).raiseUnit 0x0F01 (unitId 0xC 0) scope)
    else .next (debugRefused s)

/-- The 1 s refusal of challenges ends. -/
def execDebugRefusalExpire (s : State) : Out :=
  if s.rd TRL_STATUS.AUTH = 3 then
    .next ({ s with sec := { s.sec with failures := 0 } }.wr TRL_STATUS.AUTH 0 0)
  else .next s

end Sys2Proof.Machine
end

