-- ==== Sys2Proof/Machine/Operands.lean ====
section
/-! DEFINITION. Numbers and number formats of the matrix tiles (R97 to R99): exact values, decoding of elements, packing of
elements narrower than a byte, block scales, the operand pairs of the array (R100) and the arithmetic control word (R109).
Choices and readings of the model: log entry 12. -/
namespace Sys2Proof.Machine

open Sys2Proof

/-- An exact value: NaN, an infinity with its sign, or `±m * 2^e`; zero keeps its sign. -/
inductive Num where
  | nan
  | inf (neg : Bool)
  | fin (neg : Bool) (m : Nat) (e : Int)
  deriving DecidableEq, Repr

/-- The value of an integer times `2^e`. -/
def Num.ofInt (i : Int) (e : Int := 0) : Num := .fin (decide (i < 0)) i.natAbs e

/-- Positive zero. -/
def Num.zero : Num := .fin false 0 0

/-- Whether a value is a NaN. -/
def Num.isNan : Num → Bool
  | .nan => true
  | _ => false

/-- Whether a value is a zero of either sign. -/
def Num.isZero : Num → Bool
  | .fin _ m _ => m == 0
  | _ => false

/-- The value with its sign turned. -/
def Num.negate : Num → Num
  | .nan => .nan
  | .inf n => .inf (!n)
  | .fin n m e => .fin (!n) m e

/-- The value with its sign cleared. -/
def Num.magnitude : Num → Num
  | .nan => .nan
  | .inf _ => .inf false
  | .fin _ m e => .fin false m e

/-- The value times `2^k`. -/
def Num.scale (k : Int) : Num → Num
  | .fin n m e => .fin n m (e + k)
  | x => x

/-- The signed integer of a finite value at exponent `q`, for `q` not above its own exponent. -/
def Num.atExp (q : Int) : Num → Int
  | .fin n m e => if n then -((m * 2 ^ (e - q).toNat : Nat) : Int) else ((m * 2 ^ (e - q).toNat : Nat) : Int)
  | _ => 0

/-- The exponent of a finite value. -/
def Num.exp : Num → Int
  | .fin _ _ e => e
  | _ => 0

/-- Whether one finite value or infinity is below another. -/
def Num.lt : Num → Num → Bool
  | .nan, _ => false
  | _, .nan => false
  | .inf a, .inf b => a && !b
  | .inf a, .fin _ _ _ => a
  | .fin _ _ _, .inf b => !b
  | x, y => decide (x.atExp (min x.exp y.exp) < y.atExp (min x.exp y.exp))

/-- Format codes (R97). -/
def Fmt.int8 : Nat := 0x0
def Fmt.int4 : Nat := 0x1
def Fmt.e4m3 : Nat := 0x2
def Fmt.e5m2 : Nat := 0x3
def Fmt.bf16 : Nat := 0x4
def Fmt.fp32 : Nat := 0x5
def Fmt.mxfp4 : Nat := 0x6
def Fmt.mxe2m3 : Nat := 0x7
def Fmt.mxe3m2 : Nat := 0x8
def Fmt.mxint8 : Nat := 0x9
def Fmt.int32 : Nat := 0xA

/-- Whether a format code is not reserved. -/
def fmtKnown (f : Nat) : Bool := f ≤ 0xA

/-- Whether a format is a microscaling format. -/
def fmtMx (f : Nat) : Bool := 6 ≤ f && f ≤ 9

/-- Whether a format is an integer format. -/
def fmtInt (f : Nat) : Bool := f == 0 || f == 1 || f == 0xA

/-- Whether a format is FP8, BF16 or FP32. -/
def fmtFloat (f : Nat) : Bool := 2 ≤ f && f ≤ 5

/-- Bits per element (R97). -/
def fmtBits (f : Nat) : Nat :=
  match f with
  | 0x0 => 8 | 0x1 => 4 | 0x2 => 8 | 0x3 => 8 | 0x4 => 16 | 0x5 => 32 | 0x6 => 4 | 0x7 => 6 | 0x8 => 6 | 0x9 => 8
  | 0xA => 32 | _ => 8

/-- Exponent bits, mantissa bits and bias of a floating format or element (R97). -/
def fmtFields (f : Nat) : Nat × Nat × Nat :=
  match f with
  | 0x2 => (4, 3, 7) | 0x3 => (5, 2, 15) | 0x4 => (8, 7, 127) | 0x5 => (8, 23, 127)
  | 0x6 => (2, 1, 1) | 0x7 => (2, 3, 1) | 0x8 => (3, 2, 3) | _ => (8, 23, 127)

/-- Bytes of `n` packed elements (R99). -/
def fmtBytes (f n : Nat) : Nat := (n * fmtBits f + 7) / 8

/-- A floating element: its sign, exponent and mantissa fields, with no special values. -/
def decodeFloat (eb mb bias x : Nat) : Num :=
  let neg := bitOf x (eb + mb)
  let ex := bitsOf x mb eb
  let man := bitsOf x 0 mb
  if ex = 0 then .fin neg man (1 - (bias : Int) - mb)
  else .fin neg (2 ^ mb + man) ((ex : Int) - bias - mb)

/-- The value of one element (R97, R98). -/
def decodeElem (f x : Nat) : Num :=
  match f with
  | 0x0 => .ofInt (signedOf 8 x)
  | 0x1 => .ofInt (signedOf 4 x)
  | 0xA => .ofInt (signedOf 32 x)
  | 0x9 => .ofInt (signedOf 8 x) (-6)
  | 0x2 => if x % 128 = 127 then .nan else decodeFloat 4 3 7 x
  | _ =>
    let (eb, mb, bias) := fmtFields f
    if fmtFloat f && bitsOf x mb eb == 2 ^ eb - 1 then
      if bitsOf x 0 mb = 0 then .inf (bitOf x (eb + mb)) else .nan
    else decodeFloat eb mb bias x

/-- Element `i` of a packed plane (R99): little-endian in units of a byte, or of 3 bytes for 6-bit elements. -/
def rawElem (f : Nat) (l : List Byte) (i : Nat) : Nat :=
  let b := fmtBits f
  bitsOf (leAt l (i * b / 8) 4) (i * b % 8) b

/-- The elements of a packed plane. -/
def rawElems (f : Nat) (l : List Byte) (n : Nat) : List Nat := (List.range n).map (rawElem f l)

/-- Pack elements into bytes (R99). -/
def packElems (f : Nat) (xs : List Nat) : List Byte :=
  toLe (fmtBytes f xs.length) (xs.foldr (fun x acc => x % 2 ^ fmtBits f + 2 ^ fmtBits f * acc) 0)

/-- The exponent of a block scale, or none for 0xFF (R98). -/
def scaleExp (b : Nat) : Option Int := if b = 0xFF then none else some ((b : Int) - 127)

/-- The operand pairs the array accepts (R100). -/
def pairOk (w a : Nat) : Bool :=
  match w with
  | 0x0 => a == 0x0
  | 0x1 => a == 0x0 || a == 0x1
  | 0x2 | 0x3 | 0x9 | 0x7 | 0x8 => a == 0x2 || a == 0x3 || a == 0x9
  | 0x6 => a == 0x2 || a == 0x3 || a == 0x9 || a == 0x6
  | 0x4 => a == 0x4
  | _ => false

/-- Whether a format may be operand A (R100). -/
def weightOk (w : Nat) : Bool := w ≤ 4 || (6 ≤ w && w ≤ 9)

/-- K positions of a dense weight block of a format (R95). -/
def denseK (w : Nat) : Nat :=
  match fmtBits w with
  | 4 => 64
  | 16 => 16
  | _ => 32

/-- K span of a weight block: a sparse one covers twice the dense span (R108). -/
def spanK (w : Nat) (sparse : Bool) : Nat := if sparse then 2 * denseK w else denseK w

/-- K positions per group: 16 for BF16, else 32 (R101). -/
def groupK (w : Nat) : Nat := if w = 0x4 then 16 else 32

/-- The arithmetic control word (R109). -/
structure Acw where
  wfmt : Nat
  afmt : Nat
  ofmt : Nat
  sr : Bool
  sat : Bool
  sparse : Bool
  acc : Bool
  deriving DecidableEq, Repr

/-- The control word of a tile instruction: bits [31:16] (R124). -/
def acwOf (w : Nat) : Acw :=
  { wfmt := bitsOf w 16 4, afmt := bitsOf w 20 4, ofmt := bitsOf w 24 4, sr := bitOf w 28, sat := bitOf w 29,
    sparse := bitOf w 30, acc := bitOf w 31 }

end Sys2Proof.Machine
end

