-- ==== Sys2Proof/Machine/Flags.lean ====
section
/-! DEFINITION. The arithmetic of the array and the vector unit with its flags: exact products and sums, rounding to nearest
even and stochastic rounding (R104, R105), conversions with their overflow, underflow and special cases (R106, R107), the
group and accumulation roundings of the array (R101 to R103). A set of flags is the word of TILE_ARITH_FLAGS (R114). Choices
and readings of the model: log entry 12. -/
namespace Sys2Proof.Machine

open Sys2Proof

/-- The bits of TILE_ARITH_FLAGS (R114). -/
def Fl.invalid : Nat := 1
def Fl.overflow : Nat := 2
def Fl.underflow : Nat := 4
def Fl.intSat : Nat := 8
def Fl.scaleNan : Nat := 16

/-- The union of two sets of flags. -/
def Fl.or (a b : Nat) : Nat := Nat.lor a b

/-- The stochastic rounding draw for output element `e` (R105). -/
def srDraw (seed seq e : Nat) : Nat :=
  let m := 2 ^ 64
  let counter := 2 ^ 32 * (seq % 2 ^ 32) + e / 4
  let x := Nat.xor seed ((0x9E3779B97F4A7C15 * counter) % m)
  let x := (0xBF58476D1CE4E5B9 * Nat.xor x (x / 2 ^ 30)) % m
  let x := (0x94D049BB133111EB * Nat.xor x (x / 2 ^ 27)) % m
  let x := Nat.xor x (x / 2 ^ 31)
  bitsOf x (16 * (e % 4)) 16

/-- Round the magnitude `m * 2^e` to a whole multiple of `2^q` (R104): to nearest with ties to even, or, with a draw,
away from zero exactly when the first 16 discarded bits plus the draw reach 65,536. -/
def roundAt (draw : Option Nat) (m : Nat) (e q : Int) : Nat :=
  if q ≤ e then m * 2 ^ (e - q).toNat
  else
    let d := (q - e).toNat
    let k := m / 2 ^ d
    let r := m % 2 ^ d
    match draw with
    | none => if 2 ^ d < 2 * r || (2 * r == 2 ^ d && k % 2 == 1) then k + 1 else k
    | some x => if 65536 ≤ 65536 * r / 2 ^ d + x then k + 1 else k

/-- The exponent of the highest set bit of a positive magnitude. -/
def topExp (m : Nat) (e : Int) : Int := e + Nat.log2 m

/-- The largest encoding of a floating format without its sign (R97, R106). -/
def maxRaw (f : Nat) : Nat :=
  match f with
  | 0x2 => 0x7E | 0x3 => 0x7B | 0x4 => 0x7F7F | 0x5 => 0x7F7FFFFF
  | 0x6 => 0x7 | 0x7 => 0x1F | 0x8 => 0x1F | _ => 0x7F

/-- The encoding of a magnitude rounded for a floating format, without its sign; it may be beyond the largest. -/
def floatRaw (draw : Option Nat) (f m : Nat) (e : Int) : Nat :=
  let (_, mb, bias) := fmtFields f
  let q := max (topExp m e - mb) (1 - (bias : Int) - mb)
  let k := roundAt draw m e q
  -- a multiple k of 2^q: with q at its least the exponent field is k / 2^mb, else one more for each step of q
  k + ((q - (1 - (bias : Int) - mb)).toNat) * 2 ^ mb

/-- The sign bit of a format. -/
def signBit (f : Nat) (neg : Bool) : Nat := if neg then 2 ^ (fmtBits f - 1) else 0

/-- The NaN a conversion writes (R106). -/
def nanRaw (f : Nat) : Nat :=
  match f with
  | 0x2 => 0x7F | 0x3 => 0x7F | 0x4 => 0x7FC0 | _ => 0x7FC00000

/-- Conversion to FP32, BF16 or FP8 (R104, R106): the encoding and the flags. -/
def toFloat (draw : Option Nat) (sat : Bool) (f : Nat) : Num → Nat × Nat
  | .nan => (nanRaw f, 0)
  | .inf n =>
    if sat then (signBit f n + maxRaw f, 0)
    else if f = Fmt.e4m3 then (nanRaw f, Fl.invalid)
    else (signBit f n + maxRaw f + 1, 0)
  | .fin n m e =>
    if m = 0 then (signBit f n, 0)
    else
      let r := floatRaw draw f m e
      if maxRaw f < r then
        if sat then (signBit f n + maxRaw f, Fl.overflow)
        else if f = Fmt.e4m3 then (nanRaw f, Fl.or Fl.overflow Fl.invalid)
        else (signBit f n + maxRaw f + 1, Fl.overflow)
      else (signBit f n + r, if r = 0 then Fl.underflow else 0)

/-- Conversion to an integer of `w` bits (R106): clamped to its range whatever SAT is. -/
def toIntFmt (draw : Option Nat) (w : Nat) : Num → Nat × Nat
  | .nan => (0, Fl.invalid)
  | .inf n => (if n then 2 ^ (w - 1) else 2 ^ (w - 1) - 1, Fl.invalid)
  | .fin n m e =>
    let k := roundAt draw m e 0
    if n then if 2 ^ (w - 1) < k then (2 ^ (w - 1), Fl.overflow) else ((2 ^ w - k) % 2 ^ w, 0)
    else if 2 ^ (w - 1) - 1 < k then (2 ^ (w - 1) - 1, Fl.overflow) else (k, 0)

/-- Conversion to any format that is not microscaling. -/
def toPlain (draw : Option Nat) (sat : Bool) (f : Nat) (x : Num) : Nat × Nat :=
  if fmtInt f then toIntFmt draw (fmtBits f) x else toFloat draw sat f x

/-! ### Microscaling blocks (R107) -/

/-- emax of a microscaling format (R107). -/
def mxEmax (f : Nat) : Int :=
  match f with
  | 0x6 => 2 | 0x7 => 2 | 0x8 => 4 | _ => 0

/-- One element of a block, divided by the scale, rounded and clamped; and whether a nonzero value became zero. -/
def mxElem (draw : Option Nat) (f : Nat) (sc : Int) : Num → Nat × Bool
  | .fin n m e =>
    if f = Fmt.mxint8 then
      let k := min (roundAt draw m (e - sc) (-6)) 127
      (if n then (256 - k) % 256 else k, m ≠ 0 && k == 0)
    else
      let r := if m = 0 then 0 else min (floatRaw draw f m (e - sc)) (maxRaw f)
      (signBit f n + r, m ≠ 0 && r == 0)
  | _ => (0, false)

/-- floor(log2 amax) of a block, if a value of it is not zero. -/
def blockTop : List Num → Option Int
  | [] => none
  | .fin _ m e :: t =>
    if m = 0 then blockTop t
    else
      match blockTop t with
      | none => some (topExp m e)
      | some x => some (max x (topExp m e))
  | _ :: t => blockTop t

/-- Whether a value is a NaN or an infinity. -/
def Num.special : Num → Bool
  | .fin _ _ _ => false
  | _ => true

/-- Write one microscaling block (R107): the scale byte, the elements and the flags. `draw i` is element `i`'s draw. -/
def toBlock (draw : Nat → Option Nat) (f : Nat) (xs : List Num) : Nat × List Nat × Nat :=
  if xs.any Num.special then (0xFF, xs.map fun _ => 0, Fl.invalid)
  else
    match blockTop xs with
    | none => (0, xs.map fun _ => 0, 0)
    | some t =>
      let x := t - mxEmax f
      let sc := max (-127) (min 127 x)
      let els := xs.zipIdx.map fun p => mxElem (draw p.2) f sc p.1
      ((sc + 127).toNat, els.map (·.1), if x < -127 && els.any (·.2) then Fl.underflow else 0)

/-! ### Exact products and sums (R101, R103) -/

/-- The exact product of two values, and INVALID for infinity times zero. -/
def mulNum : Num → Num → Num × Nat
  | .nan, _ => (.nan, 0)
  | _, .nan => (.nan, 0)
  | .inf a, .inf b => (.inf (a != b), 0)
  | .inf a, .fin b m _ => if m = 0 then (.nan, Fl.invalid) else (.inf (a != b), 0)
  | .fin a m _, .inf b => if m = 0 then (.nan, Fl.invalid) else (.inf (a != b), 0)
  | .fin a m e, .fin b n g => (.fin (a != b) (m * n) (e + g), 0)

/-- The least exponent of the finite values of a list. -/
def minExp : List Num → Option Int
  | [] => none
  | x :: t =>
    match minExp t with
    | none => some x.exp
    | some q => some (min x.exp q)

/-- The sign of a value. -/
def Num.sign : Num → Bool
  | .nan => false
  | .inf n => n
  | .fin n _ _ => n

/-- The exact sum of the values of a list (R101, R103): opposite infinities give NaN with INVALID, and an exact zero is
+0 unless every term is -0. -/
def sumNum (xs : List Num) : Num × Nat :=
  if xs.any Num.isNan then (.nan, 0)
  else
    let p := xs.any fun x => x == .inf false
    let n := xs.any fun x => x == .inf true
    if p && n then (.nan, Fl.invalid)
    else if p then (.inf false, 0)
    else if n then (.inf true, 0)
    else
      let q := (minExp xs).getD 0
      let t := xs.foldl (fun acc x => acc + x.atExp q) (0 : Int)
      if t = 0 then (.fin (!xs.isEmpty && xs.all Num.sign) 0 0, 0) else (.ofInt t q, 0)

/-- Round a value once to FP32, to nearest even (R101, R111): the word and the flags. -/
def roundF32 (x : Num) : Nat × Nat := toFloat none false Fmt.fp32 x

/-- The value of an FP32 word. -/
def ofF32 (w : Nat) : Num := decodeElem Fmt.fp32 w

/-! ### FP32 operations on words, each correctly rounded (R111) -/

/-- Sum of two FP32 words. -/
def fadd (a b : Nat) : Nat := (roundF32 (sumNum [ofF32 a, ofF32 b]).1).1

/-- Difference of two FP32 words. -/
def fsub (a b : Nat) : Nat := (roundF32 (sumNum [ofF32 a, (ofF32 b).negate]).1).1

/-- Product of two FP32 words. -/
def fmul (a b : Nat) : Nat := (roundF32 (mulNum (ofF32 a) (ofF32 b)).1).1

/-! ### The array (R101 to R103) -/

/-- Add a group's terms to an FP32 accumulator. `scale` is the exponent of the product of the two block scales, or none
when one of them is 0xFF; `acc` is none when the accumulator holds no term. -/
def groupAdd (scale : Option Int) (terms : List (Num × Num)) (acc : Option Nat) : Nat × Nat :=
  let g : Nat × Nat :=
    match scale with
    | none => (nanRaw Fmt.fp32, Fl.scaleNan)
    | some k =>
      let ps := terms.map fun p => mulNum p.1 p.2
      let t := sumNum (ps.map (·.1))
      let r := roundF32 (t.1.scale k)
      (r.1, Fl.or (ps.foldl (fun f p => Fl.or f p.2) 0) (Fl.or t.2 r.2))
  match acc with
  | none => g
  | some a =>
    let t := sumNum [ofF32 a, ofF32 g.1]
    let r := roundF32 t.1
    (r.1, Fl.or g.2 (Fl.or t.2 r.2))

/-- Add an exact integer sum to an INT32 accumulator, saturating at the bound it passes (R102). -/
def intAdd (sum : Int) (acc : Option Nat) : Nat × Nat :=
  let t := sum + (match acc with
    | none => 0
    | some a => signedOf 32 a)
  if (2 ^ 31 : Int) - 1 < t then (2 ^ 31 - 1, Fl.intSat)
  else if t < -(2 ^ 31 : Int) then (2 ^ 31, Fl.intSat)
  else (wordOf 32 t, 0)

end Sys2Proof.Machine
end

