-- ==== Sys2Proof/Machine/Transcend.lean ====
section
/-! DEFINITION. The operations of the vector unit that the spec gives by an accuracy (R111): the result is a free word that
is taken when it meets the accuracy, and the correctly rounded result otherwise. Exact values are approximated far beyond
FP32 by integer arithmetic; log entry 12 says how. -/
namespace Sys2Proof.Machine

open Sys2Proof

/-- One step of a bitwise square root: bit `i` of the root is set if its square does not pass `n`. -/
def sqrtBits (n : Nat) : Nat → Nat → Nat
  | 0, r => r
  | i + 1, r =>
    let c := r + 2 ^ i
    sqrtBits n i (if c * c ≤ n then c else r)

/-- The integer square root. -/
def isqrt (n : Nat) : Nat := sqrtBits n (Nat.log2 n / 2 + 1) 0

/-- ln 2 and log2 e times 2^192. -/
def ln2Fix : Nat := 4350955369971217654477563090224794165364344896676135745069
def log2eFix : Nat := 9055943544797870567083544809312461607371518589544137143473

/-- The sum of y^k / k! from term `k` on, in units of 2^-192. -/
def expTerms (y : Nat) : Nat → Nat → Nat → Nat
  | 0, _, _ => 0
  | fuel + 1, k, t => t + expTerms y fuel (k + 1) (t * y / 2 ^ 192 / (k + 1))

/-- 2 to the power `x / 2^192`: a mantissa and an exponent. Arguments far outside FP32's range are clamped. -/
def pow2Fix (x : Int) : Nat × Int :=
  let x := max (-400 * 2 ^ 192) (min x (400 * 2 ^ 192))
  let n := x / 2 ^ 192
  let f := (x - n * 2 ^ 192).toNat
  (expTerms (f * ln2Fix / 2 ^ 192) 60 0 (2 ^ 192), n - 192)

/-- The bits of log2 of `v / 2^192`, for v from 2^192 up to 2^193. -/
def log2Bits : Nat → Nat → Nat → Nat
  | 0, _, acc => acc
  | fuel + 1, v, acc =>
    let w := v * v / 2 ^ 192
    if 2 ^ 193 ≤ w then log2Bits fuel (w / 2) (2 * acc + 1) else log2Bits fuel w (2 * acc)

/-- log2 of a positive magnitude, in units of 2^-120. -/
def log2Fix (m : Nat) (e : Int) : Int :=
  (e + Nat.log2 m) * 2 ^ 120 + (log2Bits 120 (m * 2 ^ 192 / 2 ^ Nat.log2 m) 0 : Nat)

/-- A finite value in units of 2^-192. -/
def fix192 (neg : Bool) (m : Nat) (e : Int) : Int :=
  let a : Nat := if -192 ≤ e then m * 2 ^ (e + 192).toNat else m / 2 ^ (-192 - e).toNat
  if neg then -(a : Int) else a

/-- The value of e^x: a mantissa and an exponent. -/
def expFix (neg : Bool) (m : Nat) (e : Int) : Nat × Int :=
  pow2Fix (fix192 neg (m * log2eFix) (e - 192))

/-- The value of a function of a finite operand, for VOP codes 0x0B to 0x12, where the spec states a result; none where it
states none (a root of a negative number, a pole). -/
def vectorExact (op : Nat) (neg : Bool) (m : Nat) (e : Int) : Option Num :=
  match op with
  | 0x0B =>
    if m = 0 then some (.fin neg 0 0)
    else if neg then none
    else
      let odd := e % 2
      let e2 := (e - odd) / 2
      some (.fin false (isqrt (m * 2 ^ odd.toNat * 2 ^ 200)) (e2 - 100))
  | 0x0C => if m = 0 then none else some (.fin neg (2 ^ 220 / m) (-e - 220))
  | 0x0D =>
    if m = 0 || neg then none
    else
      let odd := e % 2
      let e2 := (e - odd) / 2
      some (.fin false (isqrt (2 ^ 300 / (m * 2 ^ odd.toNat))) (-e2 - 150))
  | 0x0E =>
    let r := pow2Fix (fix192 neg m e)
    some (.fin false r.1 r.2)
  | 0x0F => if m = 0 || neg then none else some (.ofInt (log2Fix m e) (-120))
  | 0x10 =>
    let r := expFix neg m e
    some (.fin false r.1 r.2)
  | 0x11 =>
    -- (1 - u) / (1 + u) with u = e^(-2|x|), in units of 2^-192
    let r := expFix true m (e + 1)
    let u := (fix192 false r.1 r.2).toNat
    some (.fin neg ((2 ^ 192 - u) * 2 ^ 192 / (2 ^ 192 + u)) (-192))
  | _ =>
    -- 1 / (1 + u) with u = e^(-|x|), or u / (1 + u) for a negative operand
    let r := expFix true m e
    let u := (fix192 false r.1 r.2).toNat
    some (.fin false ((if neg then u else 2 ^ 192) * 2 ^ 192 / (2 ^ 192 + u)) (-192))

/-- The largest error the spec allows at a value (R111), in units of `2^q`. -/
def allowedError (op : Nat) (t : Num) : Nat × Int :=
  let ulp : Int :=
    match t with
    | .fin _ m e => if m = 0 then -149 else max (topExp m e - 23) (-149)
    | _ => -149
  match op with
  | 0x0B | 0x0C => (1, ulp)
  | 0x0D | 0x0E | 0x0F => (2, ulp)
  | 0x10 => (3, ulp)
  | _ => (1, -22)

/-- Whether an FP32 word meets the accuracy at a value. -/
def meetsAccuracy (op : Nat) (t : Num) (w : Nat) : Bool :=
  match ofF32 w with
  | .fin n m e =>
    let d := (sumNum [.fin n m e, t.negate]).1.magnitude
    let b := allowedError op t
    !Num.lt (.fin false b.1 b.2) d
  | _ => false

/-- The FP32 result of VOP codes 0x0B to 0x12 on an FP32 operand: the word and the flags (R111). -/
def vectorFunction (op x : Nat) : Nat × Nat :=
  let free := (Config.vectorResult op (BitVec.ofNat 32 x)).toNat
  let open_ : Nat × Nat := (free, if (ofF32 free).isNan then Fl.invalid else 0)
  match ofF32 x with
  | .nan => (nanRaw Fmt.fp32, 0)
  | .inf _ => open_
  | .fin n m e =>
    match vectorExact op n m e with
    | none => open_
    | some t => if meetsAccuracy op t free then (free, 0) else roundF32 t

end Sys2Proof.Machine
end

