-- ==== Sys2Proof/Machine/TileOps.lean ====
section
/-! DEFINITION. The operations every tile command and tile instruction is built from: scalar registers, the scratchpad,
streams in flight, the end of a command and a fault (R122 to R124, R131, R134). Choices and readings of the model: log entry
42. -/
namespace Sys2Proof.Machine

open Sys2Proof

/-- Logical tile `n`. -/
def State.tile (s : State) (n : Nat) : Tile := Tab.get {} s.tiles n

/-- The state with a tile replaced. -/
def State.setTile (s : State) (n : Nat) (t : Tile) : State := { s with tiles := Tab.set {} s.tiles n t }

/-- Tile fault codes (R134). -/
def Tf.op : Nat := 0x0001
def Tf.field : Nat := 0x0002
def Tf.format : Nat := 0x0003
def Tf.rows : Nat := 0x0004
def Tf.sparse : Nat := 0x0010
def Tf.block : Nat := 0x0011
def Tf.stream : Nat := 0x0012
def Tf.pad : Nat := 0x0013
def Tf.scratch : Nat := 0x0020
def Tf.region : Nat := 0x0030
def Tf.otherPad : Nat := 0x0031
def Tf.grant : Nat := 0x0032
def Tf.medium : Nat := 0x0040
def Tf.watchdog : Nat := 0x0050
def Tf.lost : Nat := 0x0060
def Tf.feature : Nat := 0x0070

/-- The completion status of a fault code (R134). -/
def faultStatus (f : Nat) : Nat :=
  if f < 0x10 then St.badDescriptor
  else if f < 0x20 then 0x80
  else if f < 0x30 then 0x81
  else if f < 0x40 then St.protectionFault
  else if f < 0x50 then St.mediumError
  else if f < 0x60 then 0x82
  else if f < 0x70 then 0x83
  else St.notSupported

/-- The glade of a tile. -/
def State.tileGlade (s : State) (n : Nat) : Nat := s.rd TILE_CFG.GLADE n

/-- Scalar register `x` of a tile; S0 reads as zero (R122). -/
def Tile.sreg (t : Tile) (x : Nat) : Nat := if x = 0 then 0 else Tab.get 0 t.sregs x

/-- The tile with scalar register `x` written; a write of S0 is discarded (R122). -/
def Tile.setSreg (t : Tile) (x v : Nat) : Tile :=
  if x = 0 then t else { t with sregs := Tab.set 0 t.sregs x (v % 2 ^ 64) }

/-- A stream slot of a tile. -/
def Tile.slot (t : Tile) (k : Nat) : Slot := Tab.get {} t.slots k

/-- The tile with a stream slot replaced. -/
def Tile.setSlot (t : Tile) (k : Nat) (x : Slot) : Tile := { t with slots := Tab.set {} t.slots k x }

/-- Whether a stream slot is busy. -/
def Tile.busy (t : Tile) (k : Nat) : Bool := (t.slot k).flight.isSome

/-- Whether any slot of a mask is busy. -/
def Tile.anyBusy (t : Tile) (mask : Nat) : Bool := (List.range 4).any fun k => bitOf mask k && t.busy k

/-- The first status that finished streams of a mask have left for the program, or 0 (R131). -/
def Tile.slotErr (t : Tile) (mask : Nat) : Nat :=
  (List.range 4).foldl (fun a k => if a = 0 && bitOf mask k then (t.slot k).err else a) 0

/-- The tile with the statuses of a mask's slots seen. -/
def Tile.clearErr (t : Tile) (mask : Nat) : Tile :=
  (List.range 4).foldl (fun t k => if bitOf mask k then t.setSlot k { t.slot k with err := 0 } else t) t

/-- The internal address of byte `a` of a tile's scratchpad (R19). -/
def padAddr (n a : Nat) : Nat := scratchBase + scratchLen * n + a

/-- The effective address of a scratchpad operand field (R124). -/
def spoAddr (t : Tile) (spo : Nat) : Nat := (t.sreg (bitsOf spo 0 4) + bitsOf spo 4 21) % 2 ^ 64

/-- Whether a scratchpad access passes its end (R124). -/
def padOut (a n : Nat) : Bool := scratchLen < a + n

/-! ### What a stream writes (R130, R131) -/

/-- One 64-byte chunk of a stream's source: zeros if its codeword is uncorrectable (R131). -/
def srcChunk (s : State) (a : Nat) : List Byte × Bool :=
  if s.memBad a 64 then (List.replicate 64 0, true) else (s.bytes a 64, false)

/-- The output of a COPY stream, and whether a chunk was uncorrectable. -/
def copyOut (s : State) (a : Nat) : Nat → List Byte × Bool
  | 0 => ([], false)
  | k + 1 =>
    let c := srcChunk s a
    let r := copyOut s (a + 64) k
    (c.1 ++ r.1, c.2 || r.2)

/-- The output of `k` chunks under the masks `h` of a header, from output chunk `i` of the header on: the output, the
address after the last data chunk, and whether a chunk was uncorrectable. -/
def maskOut (s : State) (h : Nat) : Nat → Nat → Nat → List Byte × Nat × Bool
  | 0, _, a => ([], a, false)
  | k + 1, i, a =>
    if bitOf h i then
      let c := srcChunk s a
      let r := maskOut s h k (i + 1) (a + 64)
      (c.1 ++ r.1, r.2.1, c.2 || r.2.2)
    else
      let r := maskOut s h k (i + 1) a
      (List.replicate 64 0 ++ r.1, r.2.1, r.2.2)

/-- The output of a ZERO_MASK stream of `k` chunks: one header for each 512 chunks (R130). -/
def zeroMaskOut (s : State) : Nat → Nat → Nat → List Byte × Nat × Bool × Bool
  | 0, a, _ => ([], a, false, false)
  | fuel + 1, a, k =>
    if k = 0 then ([], a, false, false)
    else
      let h := srcChunk s a
      let n := min k 512
      let beyond := leNat h.1 / 2 ^ n ≠ 0
      let r := maskOut s (leNat h.1) n 0 (a + 64)
      let t := zeroMaskOut s fuel r.2.1 (k - n)
      (r.1 ++ t.1, t.2.1, h.2 || r.2.2 || t.2.2.1, beyond || t.2.2.2)

/-- The output of a stream and whether a chunk was uncorrectable. -/
def Flight.output (f : Flight) (s : State) : List Byte × Bool :=
  if f.out then (f.data, false)
  else if f.zeroMask then
    let r := zeroMaskOut s 64 f.addr (f.len / 64)
    (r.1, r.2.2.1)
  else copyOut s f.addr (f.len / 64)

/-- The bytes of memory a stream reads. -/
def Flight.reads (f : Flight) (s : State) : Nat :=
  if f.zeroMask then (zeroMaskOut s 64 f.addr (f.len / 64)).2.1 - f.addr else f.len

/-! ### The scratchpad as a program sees it (R123) -/

/-- The streams into a tile's scratchpad that are in flight over a range. -/
def flightsOver (t : Tile) (a n : Nat) : List Flight :=
  ((List.range 4).filterMap fun k => (t.slot k).flight).filter fun f =>
    !f.out && a < f.spad + f.len && f.spad < a + n

/-- Bytes of a tile's scratchpad as one of its instructions reads them: where a stream is in flight over a byte, the byte
is old or new, and nothing says which (R123: a mixture of old and new bytes). -/
def padRead (s : State) (n a len : Nat) : List Byte × State :=
  match flightsOver (s.tile n) a len with
  | [] => (s.bytes (padAddr n a) len, s)
  | fs =>
    let outs := fs.map fun f => (f.spad, (f.output s).1)
    let one := fun i =>
      outs.foldl
        (fun (b : Byte) o =>
          if o.1 ≤ a + i && a + i < o.1 + o.2.length && Config.freeBit (s.fresh + i) then
            (o.2.drop (a + i - o.1)).headD b
          else b) (s.byte (padAddr n (a + i)))
    ((List.range len).map one, { s with fresh := s.fresh + len })

/-- Write bytes into a tile's scratchpad. -/
def padWrite (s : State) (n a : Nat) (l : List Byte) : State := s.store (padAddr n a) l

/-! ### Streams: cancelling (R134, R136) -/

/-- Cancel the stream of a slot: the chunks written so far, a number that nothing fixes, keep their effect. -/
def cancelSlot (s : State) (n k : Nat) : State :=
  match ((s.tile n).slot k).flight with
  | none => s.setTile n ((s.tile n).setSlot k {})
  | some f =>
    let r := s.freeWord
    let done := r.1.toNat % (f.len / 64 + 1) * 64
    let l := ((f.output s).1).take done
    let s := if f.out then r.2.write f.addr l else padWrite r.2 n f.spad l
    s.setTile n ((s.tile n).setSlot k {})

/-- Cancel every stream of a tile. -/
def cancelSlots (s : State) (n : Nat) : State := (List.range 4).foldl (fun s k => cancelSlot s n k) s

/-! ### The end of a running command -/

/-- The tile stops its program: streams cancelled, waits dropped, the sequencer idle. -/
def stopProgram (s : State) (n : Nat) : State :=
  let s := cancelSlots s n
  let s := s.setTile n { s.tile n with run := none }
  let s := s.dropWait (.tile n)
  s.wr TILE_STATE.SEQ n 0

/-- The event of a failed tile command (R138). -/
def raiseFault (s : State) (n q fault pc tag : Nat) : State :=
  s.raise 0x0601 (unitId 0x3 n) (s.tileGlade n) (s.rd TILE_QCTRL.OWNER (8 * n + q)) (faultStatus fault)
    (pc + 2 ^ 12 * q + 2 ^ 16 * fault + 2 ^ 32 * tag)

/-- Complete a tile command with a fault (R134). -/
def failCommand (s : State) (i : Nat) (c : Cmd) (fault pc : Nat) : State :=
  let s := s.complete (mkQid 1 i) c (faultStatus fault) (fault + 2 ^ 16 * pc)
  raiseFault s (i / 8) (i % 8) fault pc c.tag

/-- The running program stops at a fault (R134). -/
def tileFault (s : State) (n fault : Nat) : State :=
  let t := s.tile n
  match t.run with
  | none => s
  | some q =>
    let s := stopProgram s n
    match (s.queue (mkQid 1 (8 * n + q))).first with
    | some c => failCommand s (8 * n + q) c fault t.pc
    | none => s

/-- A program counter that passes 4,095 without a jump faults (R125, R134). -/
def tileAdvance (s : State) (n : Nat) : State :=
  let t := s.tile n
  if t.pc = 4095 then tileFault s n Tf.rows
  else (s.setTile n { t with pc := t.pc + 1 }).wr TILE_STATE.SEQ n 1

/-- The program goes on at a target. -/
def tileJump (s : State) (n target : Nat) : State :=
  (s.setTile n { s.tile n with pc := target }).wr TILE_STATE.SEQ n 1

/-- The program waits in WAITC, WAITQ or SWAIT (TILE_STATE.SEQ 2, R139). -/
def tileWait (s : State) (n : Nat) : State := s.wr TILE_STATE.SEQ n 2

/-- The program waits at another instruction, which the register shows as running (TILE_STATE.SEQ 1, R139). -/
def tileStall (s : State) (n : Nat) : State := s.wr TILE_STATE.SEQ n 1

/-- Whether a stream of a tile is the oldest in flight: a tile's streams are served in issue order (R131). -/
def Tile.oldest (t : Tile) (f : Flight) : Bool :=
  (List.range 4).all fun k =>
    match (t.slot k).flight with
    | some g => f.order ≤ g.order
    | none => true

/-- Whether any stream in flight reads or writes a range of the tile's own scratchpad (R123). -/
def Tile.streamOver (t : Tile) (a n : Nat) : Bool :=
  (List.range 4).any fun k =>
    match (t.slot k).flight with
    | some f => f.spad < a + n && a < f.spad + f.len
    | none => false

/-- The tile with a stream begun in a slot. -/
def Tile.begin (t : Tile) (k : Nat) (f : Flight) : Tile :=
  { t.setSlot k { t.slot k with flight := some { f with order := t.issued } } with issued := t.issued + 1 }

/-! ### Issue of an instruction -/

/-- The listed OP values (R125). -/
def tileOps : List Nat :=
  [0x00, 0x01, 0x02, 0x03, 0x04, 0x08, 0x09, 0x10, 0x11, 0x12, 0x20, 0x21, 0x22, 0x30, 0x40, 0x41, 0x42, 0x43, 0x44]

/-- The instruction a running tile issues next; none while it runs no program or waits on a counter. -/
def tileWord (s : State) (n : Nat) : Option Nat :=
  let t := s.tile n
  if t.run.isSome && !s.tileOut n && !(s.waits.any fun w => w.who == .tile n) then
    some (Tab.get 0 t.prog t.pc).toNat
  else none

/-- A test of an instruction and the fault code it gives when it fails. -/
abbrev Check := Bool × Nat

/-- The lowest fault code among the tests that fail (R134). -/
def lowestFault (l : List Check) : Option Nat :=
  l.foldl
    (fun a c =>
      if c.1 then a
      else
        match a with
        | none => some c.2
        | some x => some (min x c.2)) none

/-- Issue an instruction: an OP that is not listed faults, a word of another instruction issues nothing, and the first
fault stops the program; otherwise the instruction has its effect (R125, R134). -/
def tileIssue (s : State) (n op : Nat) (checks : Tile → Nat → List Check) (body : State → Nat → State) : State :=
  match tileWord s n with
  | none => s
  | some w =>
    if bitsOf w 0 8 = op then
      let s := s.wr TILE_STATE.PC n (s.tile n).pc
      match lowestFault (checks (s.tile n) w) with
      | some f => tileFault s n f
      | none => body s w
    else if tileOps.contains (bitsOf w 0 8) then s
    else tileFault (s.wr TILE_STATE.PC n (s.tile n).pc) n Tf.op

/-- A field of an instruction is zero (R8, R125). -/
def zeroField (w lsb width : Nat) : Check := (bitsOf w lsb width == 0, Tf.field)

/-- Bits [127:lsb] of an instruction are zero. -/
def zeroFrom (w lsb : Nat) : Check := (w / 2 ^ lsb == 0, Tf.field)

/-- A scratchpad access lies inside it (R124). -/
def inPad (a n : Nat) : Check := (!padOut a n, Tf.scratch)

/-- The agreed features (R64). -/
def State.feature (s : State) (b : Nat) : Bool := bitOf (s.rd BOOT_FEAT_AGREED.FEATURES) b

/-- SR and SPARSE need agreed features 10 and 11 (R110). -/
def featureChecks (s : State) (sr sparse : Bool) : List Check :=
  [(!sr || s.feature 10, Tf.feature), (!sparse || s.feature 11, Tf.feature)]

/-- Set arithmetic flags (R114). -/
def setFlags (s : State) (n fl : Nat) : State :=
  let f := TILE_ARITH_FLAGS.INVALID
  s.setReg (f.addr n) (BitVec.ofNat 64 (Nat.lor (s.reg (f.addr n)).toNat fl))

/-- TILE_SR_SEQ advances after an instruction with SR (R105). -/
def srAdvance (s : State) (n : Nat) (sr : Bool) : State :=
  if sr then s.wr TILE_SR_SEQ.SEQ n ((s.rd TILE_SR_SEQ.SEQ n + 1) % 2 ^ 32) else s

/-- The draw for output element `e` of an instruction of a tile (R105). -/
def tileDraw (s : State) (n : Nat) (sr : Bool) (e : Nat) : Option Nat :=
  if sr then some (srDraw (s.rd TILE_SR_SEED.SEED n) (s.rd TILE_SR_SEQ.SEQ n) e) else none

/-- A write of TILE_SR_SEED sets TILE_SR_SEQ to 0 (R105). -/
def seedWrite (s : State) (n v : Nat) : State := (s.wr TILE_SR_SEED.SEED n v).wr TILE_SR_SEQ.SEQ n 0

end Sys2Proof.Machine
end

