-- ==== Sys2Proof/Machine/Saloa.lean ====
section
/-! DEFINITION. The Saloa memory space: global addresses, protection domains, registrations and the key check (R185 to R193).
Choices and readings of the model: log entries 14 and 18. -/
namespace Sys2Proof.Machine

open Sys2Proof

/-- Status codes of transport queues (R198). -/
def Sal.truncated : Nat := 0x80
def Sal.remoteAccess : Nat := 0x81

/-- Device number of a global address (R185). -/
def globalDev (a : Nat) : Nat := bitsOf a 40 16

/-- Offset of a global address (R185). -/
def globalOff (a : Nat) : Nat := a % 2 ^ 40

/-- Whether bits [63:56] of a global address are zero (R185). -/
def globalOk (a : Nat) : Bool := a < 2 ^ 56

/-- Whether a range of offsets is decoded and outside register space (R19, R20). -/
def offsetDecoded (a n : Nat) : Bool :=
  a + n ≤ 0x2800000000 || (scratchBase ≤ a && a + n ≤ scratchBase + 64 * scratchLen)

/-- The fabric tenant number of a glade (R189). -/
def State.ftn (s : State) (g : Nat) : Nat := s.rd FAB_SAL_FTN.FTN g

/-! ### The registration table (R190) -/

/-- Entries of the registration table. -/
def rktSize (s : State) : Nat := 2 ^ s.rd FAB_SAL_RKT_CFG.LOG2N

/-- Address of an entry of the registration table. -/
def rktAddr (s : State) (i : Nat) : Nat := rgnBase s (s.rd FAB_SAL_RKT_CFG.REGION) + 32 * i

/-- A registration as its table entry holds it (R190). -/
structure RegEntry where
  base : Nat
  length : Nat
  pd : Nat
  rights : Nat
  gen : Nat
  valid : Bool
  glade : Nat
  deriving DecidableEq, Repr

/-- Entry `i` of the registration table. -/
def State.regEntry (s : State) (i : Nat) : RegEntry :=
  let l := s.bytes (rktAddr s i) 32
  { base := leAt l 0 8, length := leAt l 8 8, pd := leAt l 16 2, rights := leAt l 18 1, gen := leAt l 19 1,
    valid := bitOf (leAt l 20 1) 0, glade := leAt l 21 1 }

/-- The 32 bytes of a registration (R190). -/
def RegEntry.bytes (e : RegEntry) : List Byte :=
  toLe 8 e.base ++ toLe 8 e.length ++ toLe 2 e.pd ++ toLe 1 e.rights ++ toLe 1 e.gen ++ toLe 1 (b2n e.valid)
    ++ toLe 1 e.glade ++ toLe 10 0

/-- The state with an entry of the registration table written by the device itself. -/
def State.setRegEntry (s : State) (i : Nat) (e : RegEntry) : State := (s.putMem (rktAddr s i) e.bytes).1

/-- The key of a registration (R192). -/
def keyOf (i gen : Nat) : Nat := i * 256 + gen

/-- Index of a key. -/
def keyIndex (k : Nat) : Nat := bitsOf k 8 20

/-- Generation of a key. -/
def keyGen (k : Nat) : Nat := k % 256

/-- Rights (R190): the bit of RIGHTS that an operation needs. -/
def Rt.read : Nat := 0
def Rt.write : Nat := 1
def Rt.atomic : Nat := 2
def Rt.localWrite : Nat := 3

/-- The first check of R192 that a key fails, 1 to 6, or 0 when every check passes. `pd` is the queue's domain for a local
key; `need` the right the operation needs, if any. With no table in force no entry is VALID. -/
def keyCheck (s : State) (key ftn : Nat) (pd need : Option Nat) (a n : Nat) : Nat :=
  let i := keyIndex key
  let e := s.regEntry i
  if key ≥ 2 ^ 28 || rktSize s ≤ i then 1
  else if !s.flag FAB_SAL_RKT_CFG.ENABLE || !e.valid || e.gen ≠ keyGen key then 2
  else if ftn ≠ s.ftn e.glade || ftn = 0 then 3
  else if (match pd with
      | some d => e.pd != d
      | none => false) then 4
  else if (match need with
      | some r => !bitOf e.rights r
      | none => false) then 5
  else if a < e.base || e.base + e.length < a + n then 6
  else 0

/-- The status at the initiator of a remote key check (R192, R468). -/
def remoteStatus (k : Nat) : Nat :=
  if k = 0 then St.success else if k = 2 then St.epochMismatch else Sal.remoteAccess

/-- The status of a local key check (R192). -/
def localStatus (k : Nat) : Nat :=
  if k = 0 then St.success else if k = 1 then St.badDescriptor else if k = 2 then St.epochMismatch
  else St.protectionFault

/-- A key of a rate-limited event: a kind and a source. -/
def rateKey (kind src : Nat) : Nat := 0x100000 * kind + src

/-- Count a refused remote key check and raise SAL_REMOTE_DENIED, at most once per 1 ms for each source device (R192,
R209). -/
def remoteDenied (s : State) (quad dev ftn check : Nat) : State :=
  let s := s.bump FAB_SAL_DENIED.COUNT
  if s.mayRaise (rateKey 2 dev) then
    (s.noteRaised (rateKey 2 dev)).raiseUnit 0x0902 (unitId 0xB (4 + quad)) (dev + 2 ^ 16 * ftn + 2 ^ 32 * check)
  else s

/-- Whether a range may be registered for a glade (R191): inside one valid region of it, or inside the scratchpad of one
in-service tile assigned to it. -/
def mayRegister (s : State) (glade a n : Nat) : Bool := s.gladeReach glade a n

/-- The lowest free index of the registration table (R285). -/
def freeReg (s : State) : Option Nat := leastBelow (rktSize s) fun i => !(s.regEntry i).valid

/-- Count a user of a protection domain. -/
def pdUse (s : State) (pd : Nat) : State := s.wr FAB_SAL_PD.USERS pd (s.rd FAB_SAL_PD.USERS pd + 1)

/-- Release a user of a protection domain. -/
def pdRelease (s : State) (pd : Nat) : State := s.wr FAB_SAL_PD.USERS pd (s.rd FAB_SAL_PD.USERS pd - 1)

/-- Clear a registration's VALID and add 1 to its generation (R191). -/
def removeReg (s : State) (i : Nat) : State :=
  let e := s.regEntry i
  if e.valid then pdRelease (s.setRegEntry i { e with valid := false, gen := (e.gen + 1) % 256 }) e.pd else s

/-- Whether an access that passed the check of a registration may still be going on (R191, R222): a packet that reads it and is
not yet acknowledged, a READ or an atomic whose result is to land in it, or a message that is arriving in it. -/
def regBusy (s : State) (i : Nat) : Bool :=
  s.fab.flows.any (fun f => f.2.any fun p => p.2.reg == some i)
    || s.peers.any fun d =>
      d.2.unacked.any (fun p => p.reg == some i) || d.2.ops.any (fun o => o.reg == some i) || d.2.rx.any fun o => o.reg == some i

/-- A lookup of a key in force misses the registration cache or hits it (R193). The spec gives the cache no size and no
replacement rule, so which one is free (log entry 14); a miss is counted (R208). -/
def noteLookup (s : State) (key : Nat) : State :=
  if key < 2 ^ 28 && keyIndex key < rktSize s && s.flag FAB_SAL_RKT_CFG.ENABLE then
    let b := s.freeBit
    if b.1 then b.2.bump FAB_SAL_RKT_MISS.COUNT else b.2
  else s

/-- The indices of the valid registrations that lie wholly or partly in a range. -/
def regsIn (s : State) (a n : Nat) : List Nat :=
  if s.flag FAB_SAL_RKT_CFG.ENABLE then
    below (rktSize s) fun i =>
      let e := s.regEntry i
      e.valid && e.base < a + n && a < e.base + e.length
  else []

/-- Remove every registration that reaches into a range (R210). -/
def removeRegsIn (s : State) (a n : Nat) : State := (regsIn s a n).foldl removeReg s

/-- Whether any registration is VALID (R208). -/
def anyReg (s : State) : Bool := (leastBelow (rktSize s) fun i => (s.regEntry i).valid).isSome

/-- Whether a glade has a window, a transport queue or a registration (R208). -/
def gladeFabricUse (s : State) (g : Nat) : Bool :=
  ((List.range 256).any fun i => s.flag HEP_WIN_A.VALID i && s.rd HEP_WIN_A.GLADE i == g)
    || (s.queues.any fun q => q.2.valid && qcls q.1 == 4 && s.gladeOf q.2.inst == g)
    || (s.flag FAB_SAL_RKT_CFG.ENABLE
        && (leastBelow (rktSize s) fun i => (s.regEntry i).valid && (s.regEntry i).glade == g).isSome)

/-- An 8-byte atomic of a glade at a DRAM address (R75, R197): the old value and the status. `f` gives the new value. -/
def gladeAtomic (s : State) (glade a : Nat) (f : Nat → Nat) : State × Nat × Nat :=
  if (tileAt a).isSome then (s, 0, St.notSupported)
  else
    let r := s.gladeRead glade a 8
    if r.2 = St.success then
      let old := leNat r.1
      let w := s.gladeWrite glade a (toLe 8 (f old))
      (w.1, old, w.2)
    else (s.noteStatus r.2 a 8, 0, r.2)

/-! ### Register writes of this chapter (R188 to R190, R208) -/

/-- A write to FAB_SAL_RKT_CFG. -/
def rktWrite (s : State) (v : Nat) : State :=
  let on := s.flag FAB_SAL_RKT_CFG.ENABLE
  let s :=
    if on || s.flag FAB_SAL_LOCK.LOCKED then s
    else s.wrs 0 [(FAB_SAL_RKT_CFG.REGION, bitsOf v 0 10), (FAB_SAL_RKT_CFG.LOG2N, bitsOf v 16 5)]
  if bitOf v 24 then
    let r := s.rd FAB_SAL_RKT_CFG.REGION
    let n := s.rd FAB_SAL_RKT_CFG.LOG2N
    if 10 ≤ n && n ≤ 20 && s.flag MEM_RGN_A.VALID r && 32 * 2 ^ n ≤ rgnLen s r then s.wr FAB_SAL_RKT_CFG.ENABLE 0 1
    else s
  else if on && !anyReg s then s.wr FAB_SAL_RKT_CFG.ENABLE 0 0
  else s

/-- A write of FAB_SAL_RKT_CFG puts the registration table in force, or is refused. -/
def execRktEnable (v : BitVec 64) (s : State) : Out := unlessNoImage s <| .next (rktWrite s v.toNat)

/-- A write to FAB_SAL_PD (R188, R208): GLADE is ignored while VALID is 1, and clearing VALID while USERS is nonzero. -/
def execPdWrite (p : Fin 4096) (v : BitVec 64) (s : State) : Out := unlessNoImage s <|
  let s := if s.flag FAB_SAL_PD.VALID p then s else s.wr FAB_SAL_PD.GLADE p (bitsOf v.toNat 8 8)
  if bitOf v.toNat 0 then .next (s.wr FAB_SAL_PD.VALID p 1)
  else if s.rd FAB_SAL_PD.USERS p = 0 then .next (s.wr FAB_SAL_PD.VALID p 0)
  else .next s

/-- A write to FAB_SAL_FTN sets a glade's tenant number unless the glade has windows, queues or registrations. -/
def execFtnWrite (g : Fin 256) (v : BitVec 16) (s : State) : Out := unlessNoImage s <|
  if gladeFabricUse s g then .next s else .next (s.wr FAB_SAL_FTN.FTN g v.toNat)

/-- Setting FAB_SAL_LOCK.LOCKED. -/
def execFabSalLockSet (s : State) : Out := unlessNoImage s <| .next (s.wr FAB_SAL_LOCK.LOCKED 0 1)

end Sys2Proof.Machine
end

