-- ==== Sys2Proof/Machine/Transport.lean ====
section
/-! DEFINITION. The fabric transport (R211 to R231): peer contexts and their cache, frames, epochs, acknowledgements, the
congestion window, and operations sent to other devices. Choices and readings of the model: log entry 14. -/
namespace Sys2Proof.Machine

open Sys2Proof

/-- Packet types (R217). -/
def Pt.write : Nat := 0x01
def Pt.writePost : Nat := 0x02
def Pt.readReq : Nat := 0x03
def Pt.fadd : Nat := 0x04
def Pt.cas : Nat := 0x05
def Pt.send : Nat := 0x06
def Pt.readResp : Nat := 0x08
def Pt.atomicResp : Nat := 0x09
def Pt.opResp : Nat := 0x0A
def Pt.ack : Nat := 0x10
def Pt.nak : Nat := 0x11
def Pt.probe : Nat := 0x12
def Pt.hello : Nat := 0x20
def Pt.helloAck : Nat := 0x21

/-- States of a peer context (R220, R240). -/
def Ps.none : Nat := 0
def Ps.opening : Nat := 1
def Ps.open_ : Nat := 2
def Ps.quiescing : Nat := 3
def Ps.unreachable : Nat := 4

/-- A peer context. -/
def State.peer (s : State) (d : Nat) : Peer := Tab.get {} s.peers d

/-! ### The context store's cache (R228, R240) -/

/-- The port a path to a device starts from (R219). -/
def homePortOf (s : State) (d : Nat) : Nat := (s.devNum + d) % 16

/-- The home quadrant of a peer context (R228). -/
def peerQuad (s : State) (d : Nat) : Nat :=
  let p := (s.peer d).port
  if p < 16 then p / 4 else homePortOf s d / 4

/-- Whether a response for a device waits to be sent. -/
def respPending (s : State) (d : Nat) : Bool :=
  s.fab.responses.any (·.1 == d)
    || s.fab.flows.any fun f =>
      (match f.1 with
       | .response _ => true
       | _ => false) && f.2.any (·.1 == d)

/-- Whether a cached context may be evicted (R228): no packet for it waits in the miss buffer, no command runs on it, and nothing a
peer was sent is unacknowledged or is a pending response. -/
def evictable (s : State) : CtxKey → Bool
  | .peer d => (s.peer d).missed.isEmpty && (s.peer d).unacked.isEmpty && !respPending s d
  | .queue q => (s.queue q).cmds.isEmpty
  | .tag q t => (Tab.get {} s.stq.tags (32 * qidx q + t)).entry.isNone
  | .stream c => (Tab.get {} s.streams c).busy.isNone

/-- The home quadrant of a context (R228): of a peer's port, and otherwise of the cluster or slice. The spec names no cluster of a
transport or a collective queue: the model spreads them by their numbers (log entry 14, DESIGN CHOICE). -/
def ctxHome (s : State) : CtxKey → Nat
  | .peer d => peerQuad s d
  | .queue q => if qcls q = 4 then homePortOf s (qidx q) / 4 else if qcls q = 3 then qidx q % 4 else (s.queue q).home / 4
  | .tag q _ => (s.queue q).home / 4
  | .stream c => (Tab.get {} s.streams c).slice / 4

/-- The cached contexts of a quadrant, least recently used first. -/
def State.cached (s : State) (q : Nat) : List CtxKey := Tab.get [] s.fab.cache q

/-- Whether a peer's context is in its quadrant's cache. -/
def peerCached (s : State) (d : Nat) : Bool := (s.cached (peerQuad s d)).contains (.peer d)

/-- Bytes that a held packet takes: its header, payload and tag. -/
def RxPkt.size (p : RxPkt) : Nat := 88 + p.bytes.length

/-- Bytes held in a quadrant's miss buffer. -/
def missBytes (s : State) (q : Nat) : Nat :=
  sumNat (s.peers.map fun d => if peerQuad s d.1 = q then sumNat (d.2.missed.map (·.size)) else 0)

/-- Show a quadrant's cache in FAB_CTX_USE (R240). -/
def refreshCtx (s : State) (q : Nat) : State :=
  let l := s.cached q
  s.wrs q [(FAB_CTX_USE.CACHED, l.length), (FAB_CTX_USE.BUSY, (l.filter fun k => !evictable s k).length),
    (FAB_CTX_USE.MISS_BYTES, missBytes s q)]

/-- Show the selected peer in FAB_PEER_STAT (R240). -/
def refreshPeerStat (s : State) : State :=
  let d := s.rd FAB_PEER_SEL.DEVICE
  let x := s.peer d
  s.wrs 0 [(FAB_PEER_STAT.STATE, x.state), (FAB_PEER_STAT.CACHED, b2n (peerCached s d)), (FAB_PEER_STAT.PORT, x.port % 16),
    (FAB_PEER_STAT.EPOCH, x.epoch), (FAB_PEER_STAT.W_KIB, x.win / 1024), (FAB_PEER_STAT.UNACKED, x.unacked.length)]

/-- The state with a peer context replaced, and its registers showing it. -/
def State.setPeer (s : State) (d : Nat) (x : Peer) : State :=
  let s := { s with peers := Tab.set {} s.peers d x }
  let s := refreshCtx s (peerQuad s d)
  if s.rd FAB_PEER_SEL.DEVICE = d then refreshPeerStat s else s

/-- Entries of a quadrant's cache (R211). -/
def cacheSize : Nat := 4096

/-- Whether a context can be brought into a quadrant's cache now: there is room or an evictable entry (R229). -/
def mayCache (s : State) (q : Nat) : Bool := (s.cached q).length < cacheSize || (s.cached q).any (evictable s)

/-- Whether a context is in its home quadrant's cache. -/
def ctxCached (s : State) (k : CtxKey) : Bool := (s.cached (ctxHome s k)).contains k

/-- Whether a context can be used now: it is cached, or there is room to fetch it (R229) and, from host memory, a tag for the request
(R264). -/
def ctxReady (s : State) (k : CtxKey) : Bool :=
  ctxCached s k || (mayCache s (ctxHome s k)
    && (!s.flag FAB_CTX_CFG.LOC || !s.masterOn s.medPort || tagReady s s.medPort))

/-- The state with a quadrant's cache replaced, and its registers showing it. -/
def setCache (s : State) (q : Nat) (l : List CtxKey) : State :=
  refreshPeerStat (refreshCtx { s with fab := { s.fab with cache := Tab.set [] s.fab.cache q l } } q)

/-- Where a context lies in the backing table (R227). The spec does not say which number a context gets, so its place is free (log
entry 14, safe). -/
def ctxPlace (s : State) : Nat × State :=
  let n := s.freeWord
  (256 * (n.1.toNat % 262144), n.2)

/-- A context is read from the backing table (R228): from host memory by a request of the mediator's port without a PASID. -/
def ctxFetch (s : State) : State :=
  if s.flag FAB_CTX_CFG.LOC then
    let p := ctxPlace s
    p.2.hostReadOne s.medPort none (0x10000 * s.rd FAB_CTX_HOST.ADDR + p.1) 256 (.data [])
  else s

/-- A context that leaves the cache is written back, if it has changed (R228). Whether it has, and the bytes of a context, which the
spec does not lay out, are free (log entry 14, safe). -/
def ctxWriteBack (s : State) : State :=
  let changed := s.freeBit
  if changed.1 then
    let p := ctxPlace changed.2
    let l := p.2.freeBytes 256
    if s.flag FAB_CTX_CFG.LOC then
      if s.masterOn s.medPort then
        l.2.emit (.hostWrite s.medPort none (0x10000 * s.rd FAB_CTX_HOST.ADDR + p.1) l.1 false (dataRelaxed s s.medPort))
      else l.2
    else (l.2.putMem (rgnBase s (s.rd FAB_CTX_CFG.REGION) + p.1) l.1).1
  else changed.2

/-- Put a context at the end of its quadrant's cache, as the most recently used; the least recently used evictable entry makes room
for one that is not there, and without room nothing changes (R228, R229). -/
def placeCtx (s : State) (k : CtxKey) : State :=
  let q := ctxHome s k
  let l := s.cached q
  if l.contains k then setCache s q (l.filter (· != k) ++ [k])
  else if l.length < cacheSize then setCache s q (l ++ [k])
  else
    match l.find? (evictable s) with
    | some v => setCache (ctxWriteBack s) q (l.filter (· != v) ++ [k])
    | none => s

/-- Use a context: it is fetched unless it is cached (R228). -/
def touchCtx (s : State) (k : CtxKey) : State :=
  if ctxCached s k then placeCtx s k
  else if mayCache s (ctxHome s k) then placeCtx (ctxFetch s) k
  else s

/-- A context ceases to exist, and leaves the cache. -/
def dropCtx (s : State) (gone : CtxKey → Bool) : State :=
  (List.range 4).foldl
    (fun s q => if (s.cached q).any gone then setCache s q ((s.cached q).filter fun k => !gone k) else s) s

/-- Peer contexts in existence (R227). -/
def peerCount (s : State) : Nat := (s.peers.filter fun d => d.2.state != Ps.none).length

/-- Contexts that glades use. -/
def ctxUsed (s : State) : Nat := poolUsed s .ctx

/-- Whether a peer context can be created (R227). -/
def mayCreatePeer (s : State) : Bool :=
  s.flag FAB_CTX_CFG.ENABLE && peerCount s < s.rd FAB_CTX_CFG.PEER_RESERVE && peerCount s + ctxUsed s < 262144

/-! ### Keys (R218, R334) -/

/-- The lowest-numbered valid key group whose range holds a device number (R334). -/
def fabGroup (s : State) (d : Nat) : Option Nat :=
  leastBelow 64 fun k => s.flag SEC_FAB_GRP_A.VALID k && s.rd SEC_FAB_GRP_A.LO k ≤ d && d ≤ s.rd SEC_FAB_GRP_A.HI k

/-- Whether a peer has keys. -/
def fabKeyed (s : State) (d : Nat) : Bool := (fabGroup s d).isSome

/-- KSEL and the key a device sends under to a peer (R218, R334). -/
def txKey (s : State) (d : Nat) : Nat × List Byte :=
  match fabGroup s d with
  | some k =>
    let sel := s.rd SEC_FAB_GRP_A.TX_SEL k
    (sel, Tab.get [] s.sec.keys (if sel = 0 then s.rd SEC_FAB_GRP_B.SLOT0 k else s.rd SEC_FAB_GRP_B.SLOT1 k))
  | none => (0, [])

/-! ### Frames (R212 to R216) -/

/-- The address of port `p` of device `d`, as a number (R213). -/
def portAddr (s : State) (d p : Nat) : Nat :=
  let low := 16 * d + p
  if s.flag FAB_CFG.IPV6 then
    let base := 2 ^ 64 * s.rd FAB_IP_BASE.BASE 1 + s.rd FAB_IP_BASE.BASE 0
    2 ^ 20 * (base / 2 ^ 20) + low
  else 2 ^ 20 * bitsOf (s.rd FAB_IP_BASE.BASE 0) 20 12 + low

/-- The sum of a list of bytes as 16-bit big-endian words. -/
def wordSum : List Byte → Nat
  | [] => 0
  | [a] => a.toNat * 256
  | a :: b :: t => a.toNat * 256 + b.toNat + wordSum t

/-- Fold a sum to 16 bits, ones' complement. -/
def foldSum (n : Nat) : Nat :=
  let a := n % 65536 + n / 65536
  let a := a % 65536 + a / 65536
  a % 65536 + a / 65536

/-- The internet checksum of a list of bytes. -/
def inetChecksum (l : List Byte) : Nat := 65535 - foldSum (wordSum l)

/-- Entropy of a path (R212). -/
def pathEnt (src dst gen : Nat) : Nat := (40503 * src + dst + 4099 * gen) % 16384

/-- The Ethernet, IP and UDP headers of a packet of `n` bytes after UDP, and the packet (R212). -/
def fabFrame (s : State) (p d gen : Nat) (l : List Byte) : List Byte :=
  let own := s.devNum
  let ent := pathEnt own d gen
  let ulen := 8 + l.length
  let udp := fun c => toBe 2 (0xC000 + ent) ++ toBe 2 (s.rd FAB_CFG.UDP_PORT) ++ toBe 2 ulen ++ toBe 2 c
  let v6 := s.flag FAB_CFG.IPV6
  let an := if v6 then 16 else 4
  let addrs := toBe an (portAddr s own p) ++ toBe an (portAddr s d p)
  let pseudo := addrs ++ (if v6 then toBe 4 ulen ++ toBe 4 17 else toBe 2 17 ++ toBe 2 ulen)
  let c := inetChecksum (pseudo ++ udp 0 ++ l)
  let udp := udp (if c = 0 then 0xFFFF else c)
  let tc := s.rd FAB_CFG.DSCP * 4 + 2
  let ip4 := fun c =>
    toBe 1 0x45 ++ toBe 1 tc ++ toBe 2 (20 + ulen) ++ toBe 2 0 ++ toBe 2 0x4000 ++ toBe 1 (s.rd FAB_CFG.HOP_LIMIT)
      ++ toBe 1 17 ++ toBe 2 c ++ addrs
  let ip :=
    if v6 then
      toBe 4 (6 * 2 ^ 28 + 2 ^ 20 * tc + ent) ++ toBe 2 ulen ++ toBe 1 17 ++ toBe 1 (s.rd FAB_CFG.HOP_LIMIT) ++ addrs
    else ip4 (inetChecksum (ip4 0))
  let tag :=
    if s.flag FAB_CFG.VLAN_EN then toBe 2 0x8100 ++ toBe 2 (8192 * s.rd FAB_CFG.PCP + s.rd FAB_CFG.VID) else []
  toBe 6 (s.rd FAB_PORT_GW.GW p) ++ toBe 6 (s.rd FAB_PORT_MAC.MAC p) ++ tag
    ++ toBe 2 (if v6 then 0x86DD else 0x0800) ++ ip ++ udp ++ l

/-- Bytes of payload of a full packet (R214). -/
def fullPayload (s : State) (p : Nat) : Nat :=
  (s.rd FAB_PORT.MTU p - (if s.flag FAB_CFG.IPV6 then 40 else 20) - 8 - 72 - 16) / 64 * 64

/-- The Ethernet frame length of a packet with a payload, FCS included (R246). -/
def frameLen (s : State) (payload : Nat) : Nat :=
  14 + (if s.flag FAB_CFG.VLAN_EN then 4 else 0) + (if s.flag FAB_CFG.IPV6 then 40 else 20) + 8 + 72 + payload + 16 + 4

/-- TS of a packet sent now: bits [33:2] of the local time counter (R215). -/
def State.ts (s : State) : Nat := bitsOf s.now 2 32

/-- The 72-byte header (R215, R216). -/
def salHeader (type flags src dst epoch ftn psn apsn xseq plen ts tse addr rkey msg moff aux opv : Nat) : List Byte :=
  toBe 1 1 ++ toBe 1 type ++ toBe 2 flags ++ toBe 2 src ++ toBe 2 dst ++ toBe 2 epoch ++ toBe 2 ftn ++ toBe 6 psn
    ++ toBe 6 apsn ++ toBe 6 xseq ++ toBe 2 plen ++ toBe 4 ts ++ toBe 4 tse ++ toBe 8 addr ++ toBe 4 rkey ++ toBe 4 msg
    ++ toBe 4 moff ++ toBe 4 aux ++ toBe 8 opv

/-- The 96-bit nonce of a packet (R218). -/
def salNonce (src dst epoch xseq : Nat) : List Byte := toBe 2 src ++ toBe 2 dst ++ toBe 2 epoch ++ toBe 6 xseq

/-- Put a packet on the wire at a port: it takes the next XSEQ of its context under its epoch, the current one or the one a HELLO
proposes (R218); a device with no context has none, and a free value stands for it. Every packet acknowledges what has been applied (R224). -/
def transmit (s : State) (p d type flags epoch ftn psn addr rkey msg moff aux opv : Nat) (l : List Byte) : State :=
  let live := (s.peer d).state != Ps.none
  let s := if live then touchCtx s (.peer d) else s
  let x := s.peer d
  let f := s.freeWord
  let next := x.state = Ps.opening && epoch = x.proposal
  let xseq := if !live then f.1.toNat % 2 ^ 48 else if next then x.hseq else x.xseq
  let s := if live then s else f.2
  let k := txKey s d
  let flags := flags + 1024 * k.1 + (if x.oweEce && live then 4096 else 0)
  let h := salHeader type flags s.devNum d epoch ftn psn x.expect xseq l.length s.ts x.tse addr rkey msg moff aux opv
  let sealed := Config.gcmSeal k.2 (salNonce s.devNum d epoch xseq) h l
  let s := s.emit (.packet p d (fabFrame s p d x.pathGen (h ++ sealed)))
  let s := s.bump FAB_CNT.COUNT 0
  if live then
    let st := if x.xseq + 1 = 2 ^ 47 && x.state = Ps.open_ then Ps.quiescing else x.state
    s.setPeer d { x with
      xseq := if next then x.xseq else x.xseq + 1, hseq := if next then x.hseq + 1 else x.hseq, unackedRx := 0,
      oweEce := false, state := st }
  else s

/-! ### Control packets -/

/-- Put a control packet at its port's head of line (R245). With no port UP for the device it goes nowhere. -/
def sendCtl (s : State) (p : Nat) (c : Ctl) : State :=
  if p < 16 then
    { s with fab := { s.fab with control := Tab.set [] s.fab.control p (Tab.get [] s.fab.control p ++ [c]) } }
  else s

/-- Send an ACK to a device (R224): the packets it covers count as acknowledged. -/
def sendAck (s : State) (d : Nat) : State :=
  let x := s.peer d
  let s := if x.port < 16 then s.setPeer d { x with unackedRx := 0 } else s
  sendCtl s x.port { device := d, type := Pt.ack, epoch := x.epoch, psn := x.nextPsn, addr := 0, aux := 0, fresh := false,
                     ece := x.oweEce }

/-- Send a NAK on a port (R225): its code, the PSN refused and the hint in µs. -/
def sendNak (s : State) (p d epoch psn code hint : Nat) : State :=
  let s := if code = 2 then s.bump FAB_CNT.COUNT 5 else if code = 3 then s.bump FAB_CNT.COUNT 6 else s
  sendCtl s p { device := d, type := Pt.nak, epoch := epoch, psn := (s.peer d).nextPsn, addr := psn, aux := code + 2 ^ 16 * hint,
                fresh := false, ece := false }

/-! ### Paths (R219) -/

/-- The first UP port from `p` on, modulo 16; 16 when none is UP. -/
def firstUp (s : State) (p : Nat) : Nat :=
  match ((List.range 16).map fun i => (p + i) % 16).find? fun i => s.rd FAB_PORT.STATE i == 3 with
  | some i => i
  | none => 16

/-- Every unacknowledged packet of a context from a PSN on waits to be sent again. -/
def Peer.resendFrom (x : Peer) (psn : Nat) : Peer :=
  { x with unacked := x.unacked.map fun p =>
      if (2 ^ 48 + p.psn.getD 0 - psn) % 2 ^ 48 < 2 ^ 47 then { p with resend := true, action := none, since := none } else p }

/-- Move a context to the next UP port and send what is unacknowledged again there (R219, R236). One that moves quadrant goes
through the backing table (R228). -/
def movePath (s : State) (d : Nat) : State :=
  let x := s.peer d
  let old := x.port
  let new := firstUp s (if old < 16 then old + 1 else homePortOf s d)
  let mine := (Tab.get [] s.fab.control old).filter (·.device == d)
  let rest := (Tab.get [] s.fab.control old).filter (·.device != d)
  let s := { s with fab := { s.fab with control := Tab.set [] s.fab.control old rest } }
  let s := if ctxCached s (.peer d) && new / 4 ≠ peerQuad s d then dropCtx (ctxWriteBack s) (· == .peer d) else s
  let s := s.setPeer d ({ x with port := new, pathGen := (x.pathGen + 1) % 16 }.resendFrom x.low)
  mine.foldl (fun s c => sendCtl s new c) s

/-- Move every context whose path is on a port that has left UP (R219). -/
def leavePort (s : State) (p : Nat) : State :=
  s.peers.foldl (fun s d => if d.2.state ≠ Ps.none && (s.peer d.1).port = p then movePath s d.1 else s) s

/-- Give contexts without a path one, now that a port is UP. -/
def joinPort (s : State) : State :=
  s.peers.foldl (fun s d => if d.2.state ≠ Ps.none && (s.peer d.1).port = 16 then movePath s d.1 else s) s

/-! ### Operations -/

/-- Raise SAL_WINDOW_FAULT, at most once per 1 ms per window (R209, R468). -/
def windowFault (s : State) (port win offset status : Nat) (write : Bool) : State :=
  if s.mayRaise (rateKey 1 win) then
    (s.noteRaised (rateKey 1 win)).raise 0x0901 (unitId 0x9 port) (s.rd HEP_WIN_A.GLADE win) 0 0
      (win + b2n write * 2 ^ 8 + 2 ^ 16 * status + 2 ^ 24 * (offset % 2 ^ 40))
  else s

/-- The completions of a read, each of at most the port's maximum payload size (R205): one that carries a byte of an uncorrectable
codeword is poisoned, and the others are normal (R270). `bad` says which places of the data are uncorrectable. -/
def sendCompletions (s : State) (port tag : Nat) (l : List Byte) (bad : List (Nat × Nat)) : State :=
  let size := max (s.port port).mps 64
  (List.range (max 1 (ceilDiv l.length size))).foldl
    (fun s k =>
      let part := bytesAt l (size * k) (min size (l.length - size * k))
      let poisoned := bad.any fun b => b.1 < size * k + part.length && size * k < b.1 + b.2
      let s := if poisoned then s.bump HEP_CNT.COUNT (8 * port + 3) else s
      s.emit (.completion port tag Cpl.success part poisoned)) s

/-- The end of a window access (R205): data, poisoned where they come from an uncorrectable codeword, or Completer Abort and an
event. -/
def endWindow (s : State) (port win offset tag : Nat) (write : Bool) (status : Nat) (l : List Byte) (bad : List (Nat × Nat)) :
    State :=
  if status = St.success || (status = St.mediumError && !write) then if write then s else sendCompletions s port tag l bad
  else
    let s := windowFault s port win offset status write
    if write then s
    else ((s.bump HEP_CNT.COUNT (8 * port + 5)).logAer port .completerAbort).emit (.completion port tag Cpl.abort [] false)

/-- The data of a read up to a place: what has not come is uncorrectable, and free bytes stand for it (R270). -/
def padBad (s : State) (o : SalOp) (n : Nat) : State × SalOp :=
  if o.data.length < n then
    let r := s.freeBytes (n - o.data.length)
    (r.2, { o with data := o.data ++ r.1, bad := o.bad ++ [(o.data.length, n - o.data.length)] })
  else (s, o)

/-- Tell an operation's owner that it has ended: a transport command completes, a window access is answered, and the other
owners are told by `ended`. -/
def endOp (s : State) (o : SalOp) (status : Nat) : State :=
  match o.owner with
  | .cmd qid entry =>
    if qcls qid = 4 then
      match (s.queue qid).cmdAt entry with
      | some c => s.complete qid c status (if status = St.success then o.len else 0)
      | none => s
    else { s with ended := s.ended ++ [(o.owner, status, o.data)] }
  | .window port win _ off tag write =>
    let r := if status = St.mediumError && !write then padBad s o o.len else (s, o)
    endWindow r.1 port win off tag write status r.2.data r.2.bad
  | .gone _ _ => s
  | _ => { s with ended := s.ended ++ [(o.owner, status, o.data)] }

/-- Remove packets that fail a test from every flow. -/
def keepPackets (s : State) (keep : Nat → Pkt → Bool) : State :=
  let fl := s.fab.flows.map fun f => (f.1, f.2.filter fun p => keep p.1 p.2)
  { s with fab := { s.fab with flows := fl.filter fun f => !f.2.isEmpty } }

/-- End every operation of a peer that a test picks, dropping its packets that are not yet sent. -/
def endOps (s : State) (d : Nat) (pick : SalOp → Bool) (status : Nat) : State :=
  let x := s.peer d
  let gone := x.ops.filter pick
  let s := s.setPeer d { x with ops := x.ops.filter fun o => !pick o }
  let s := keepPackets s fun e p => !(e == d && p.owner.isSome && gone.any fun o => o.msg == p.msg)
  gone.foldl (fun s o => endOp s o status) s

/-- Drop every response to a peer that is not yet sent or still owed, with its read responses. -/
def dropResponses (s : State) (d : Nat) : State :=
  let s := dropTells s fun t => match t with
    | .peer e _ _ _ => e == d
    | .cmd .. => false
  let s := keepPackets s fun e p => !(e == d && p.owner.isNone)
  { s with fab := { s.fab with responses := s.fab.responses.filter (·.1 != d) } }

/-- Whether an operation still has an owner to tell. -/
def SalOp.live (o : SalOp) : Bool :=
  match o.owner with
  | .gone _ _ => false
  | _ => true

/-- The epoch after another, skipping 0 (R221). -/
def nextEpoch (e : Nat) : Nat := if (e + 1) % 65536 = 0 then 1 else (e + 1) % 65536

/-- The first congestion window in bytes (R231). -/
def firstWin (s : State) (p : Nat) : Nat :=
  max (fullPayload s p) (1024 * min (s.rd FAB_CC.INIT_KIB) (s.rd FAB_CC.MAX_KIB))

/-- Drop the control packets to a device that are not yet sent: they were made under an epoch that is over, or are the HELLO that lost
(R218, R221). -/
def dropControl (s : State) (d : Nat) : State :=
  { s with fab := { s.fab with control :=
      (s.fab.control.map fun c => (c.1, c.2.filter fun k => k.device != d)).filter fun c => !c.2.isEmpty } }

/-- Adopt an epoch (R221): operations that had packets sent complete with EPOCH_MISMATCH, FAB_PEER_EPOCH is raised for
them, and both directions start a new sequence. `psn` is the peer's first PSN. -/
def adoptEpoch (s : State) (d epoch psn : Nat) (fresh : Bool) : State :=
  let had := (s.peer d).ops.any fun o => o.sent && o.live
  let s := dropControl (dropResponses (endOps s d (·.sent) St.epochMismatch) d) d
  let x := s.peer d
  let s := s.setPeer d
    { x with
      state := Ps.open_, epoch := epoch, low := x.nextPsn, expect := psn, xseq := if epoch = x.proposal then x.hseq else 0,
      unacked := [], rx := [], win := firstWin s x.port, winEnd := x.nextPsn, winAcked := 0, winEce := 0, winMin := none,
      expiries := 0, nakAt := none, seqFrom := none, unackedRx := 0, oweEce := false, tse := 0, paused := false,
      refusedPsn := none, expired := none, holdoff := false, missed := [] }
  if had then
    s.raiseUnit 0x0A02 (unitId 0xB (4 + peerQuad s d)) (d + 2 ^ 16 * epoch + 2 ^ 32 * b2n fresh)
  else s

/-- Send a HELLO that proposes an epoch (R220, R221): the context is OPENING. The packets under a proposal are counted from 0, and on
from where they were if it has been proposed before, so that no nonce is used twice (R218). -/
def sendHello (s : State) (d epoch : Nat) (fresh : Bool) : State :=
  let x := s.peer d
  let s := s.setPeer d { x with
    state := Ps.opening, proposal := epoch, hseq := if epoch = x.proposal then x.hseq else 0, unacked := [], holdoff := false }
  sendCtl s x.port { device := d, type := Pt.hello, epoch := epoch, psn := x.nextPsn, addr := 0, aux := 0, fresh := fresh,
                     ece := false }

/-- Create a peer context with its path and its first window (R219, R220, R231). -/
def createPeer (s : State) (d : Nat) : State :=
  let p := firstUp s (homePortOf s d)
  placeCtx (s.setPeer d { ({} : Peer) with state := Ps.opening, port := p, win := firstWin s p }) (.peer d)

/-- Make a context ready for an operation that names its device, or give the status that ends it (R220, R226, R239). -/
def reachPeer (s : State) (d : Nat) : State × Nat :=
  if !fabKeyed s d then
    (s.raiseUnit 0x0A01 (unitId 0xB (4 + peerQuad s d)) (2 ^ 16 + d), St.peerUnreachable)
  else
    match (s.peer d).state with
    | 0 =>
      if mayCreatePeer s then (sendHello (createPeer s d) d 1 true, St.success) else (s, St.resourceExhausted)
    | 4 =>
      if (s.peer d).holdoff then (s, St.peerUnreachable)
      else (sendHello s d (nextEpoch (s.peer d).epoch) false, St.success)
    | _ => (s, St.success)

/-- Put packets at the end of a flow. -/
def enqueue (s : State) (d : Nat) (f : Flow) (l : List Pkt) : State :=
  let had := s.fab.flows.any (·.1 == f)
  let fl :=
    if had then s.fab.flows.map fun x => if x.1 == f then (x.1, x.2 ++ l.map fun p => (d, p)) else x
    else s.fab.flows ++ [(f, l.map fun p => (d, p))]
  { s with fab := { s.fab with flows := fl } }

/-- The pieces of an operation of `n` bytes: offsets and lengths, one empty piece when `n` is 0 (R214). -/
def pieces (size n : Nat) : List (Nat × Nat) :=
  if n = 0 then [(0, 0)]
  else
    let k := max size 64
    (List.range (ceilDiv n k)).map fun i => (i * k, min k (n - i * k))

/-- What an operation asks of the transport. -/
structure OpReq where
  dev : Nat
  owner : Owner
  kind : Nat
  flow : Flow
  glade : Nat
  inst : Nat
  ftn : Nat
  /-- Local address read from or written to. -/
  laddr : Nat
  len : Nat
  /-- Data sent from no memory: volume messages. -/
  data : List Byte := []
  off : Nat
  rkey : Nat
  aux : Nat
  opv : Nat
  /-- The registration that covers the local buffer (R191). -/
  reg : Option Nat := none
  /-- What the operation carries for a checkpoint (R358). -/
  out : Option Output := none
  deriving DecidableEq, Repr

/-- The packets of an operation (R214, R216, R217). -/
def OpReq.packets (r : OpReq) (size msg : Nat) : List Pkt :=
  let carries := r.kind = Pt.write || r.kind = Pt.writePost || r.kind = Pt.send
  let ps := if carries then pieces size r.len else [(0, 0)]
  ps.map fun p =>
    { type := r.kind, first := p.1 == 0, last := !carries || p.1 + p.2 == r.len, ftn := r.ftn,
      addr := if r.kind = Pt.send then 0 else r.off + p.1, rkey := r.rkey, msg := msg, moff := p.1,
      aux := if r.kind = Pt.readReq then r.len else r.aux, opv := r.opv,
      src := if carries && r.data.isEmpty && p.2 != 0 then some (r.laddr + p.1, p.2) else none,
      data := if carries then (r.data.drop p.1).take p.2 else r.data, flow := r.flow, glade := r.glade, inst := r.inst,
      owner := some r.owner, reg := if carries then r.reg else none,
      out := if !carries || p.1 + p.2 == r.len then r.out else none }

/-- Begin an operation on another device (R217, R220): its packets join its flow, or it ends at once. -/
def startOp (s : State) (r : OpReq) : State :=
  let q := reachPeer s r.dev
  let s := q.1
  let x := s.peer r.dev
  let o : SalOp :=
    { msg := x.nextMsg, owner := r.owner, kind := r.kind, glade := r.glade, laddr := r.laddr, len := r.len, status := 0,
      data := [], reg := if r.kind = Pt.readReq || r.kind = Pt.fadd || r.kind = Pt.cas then r.reg else none }
  if q.2 ≠ St.success then endOp s o q.2
  else
    let size := fullPayload s (if x.port < 16 then x.port else homePortOf s r.dev)
    let s := s.setPeer r.dev { x with nextMsg := (x.nextMsg + 1) % 2 ^ 32, ops := x.ops ++ [o] }
    enqueue s r.dev r.flow (r.packets size x.nextMsg)

/-- A context is declared unreachable (R226): its operations complete with PEER_UNREACHABLE and the event is raised. -/
def peerLost (s : State) (d : Nat) : State :=
  let s := dropResponses (endOps s d (fun _ => true) St.peerUnreachable) d
  let x := s.peer d
  let s := s.setPeer d
    { x with state := Ps.unreachable, holdoff := true, unacked := [], rx := [], paused := false, refusedPsn := none,
             expired := none, expiries := 0, missed := [] }
  s.raiseUnit 0x0A01 (unitId 0xB (4 + peerQuad s d)) d

/-- The response to a command of a reset queue has come: it is discarded, and counted where the generation has advanced
(R236, R288). -/
def discardResponse (s : State) (o : SalOp) : State :=
  match o.owner with
  | .gone i g => if s.genOf i = g then s else s.bump GLD_STALE_CNT.COUNT
  | _ => s

/-- Forget the operations of a queue that are in progress: packets not yet sent are discarded, packets sent stay in their
sequence, and the responses will be discarded (R236, R254). -/
def forgetQueue (s : State) (qid : Nat) : State :=
  let mine := fun (o : Option Owner) =>
    match o with
    | some (.cmd q _) => q == qid
    | _ => false
  let i := (s.queue qid).inst
  let orphan := fun (o : SalOp) =>
    match o.owner with
    | .cmd q e =>
      if q = qid then { o with owner := .gone i ((((s.queue qid).cmdAt e).map (·.stamp)).getD (s.genOf i)), reg := none } else o
    | _ => o
  let s := keepPackets s fun _ p => !mine p.owner
  let s := dropTells s fun t => match t with
    | .cmd q _ _ _ => q == qid
    | .peer .. => false
  s.peers.foldl
    (fun s d => let x := s.peer d.1
      s.setPeer d.1 { x with ops := (x.ops.filter fun o => o.sent || !mine (some o.owner)).map orphan }) s

/-! ### Acknowledgements and the congestion window (R224, R231) -/

/-- The signed 48-bit difference of two PSNs. -/
def psnDiff (a b : Nat) : Int := signedOf 48 (2 ^ 48 + a - b % 2 ^ 48)

/-- Payload bytes of a packet. -/
def Pkt.plen (p : Pkt) : Nat :=
  match p.src with
  | some (_, n) => n
  | none => p.data.length

/-- The window after one window's acknowledgements (R231), in bytes, rounded down. -/
def nextWin (s : State) (x : Peer) : Nat :=
  let w :=
    if x.winEce ≠ 0 then x.win * (2 * x.winAcked - x.winEce) / (2 * x.winAcked)
    else if (match x.winMin with
        | some m => decide (s.rd FAB_CC.TARGET_NS < m)
        | none => false) then x.win * 7 / 8
    else x.win + 1024 * s.rd FAB_CC.AI_KIB
  max (fullPayload s (x.port % 16)) (min w (1024 * s.rd FAB_CC.MAX_KIB))

/-- Take an APSN from a peer (R224, R226, R231): packets below it are acknowledged, the timer returns to its first value,
and the window is updated once per window. `sample` is a TSE that gives a round-trip time. -/
def takeApsn (s : State) (d apsn : Nat) (ece : Bool) (sample : Option Nat) : State :=
  let x := s.peer d
  if 0 < psnDiff apsn x.low && psnDiff apsn x.nextPsn ≤ 0 then
    let gone := x.unacked.filter fun p => psnDiff (p.psn.getD 0) apsn < 0
    let n := sumNat (gone.map Pkt.plen)
    let rtt := sample.map fun t => (2 ^ 32 + s.ts - t) % 2 ^ 32 * 4
    let f := s.freeWord
    let s := if rtt.isSome then f.2 else s
    let x :=
      { x with
        low := apsn, unacked := x.unacked.filter fun p => 0 ≤ psnDiff (p.psn.getD 0) apsn, expiries := 0,
        winAcked := x.winAcked + n, winEce := x.winEce + (if ece then n else 0),
        winMin := (match rtt, x.winMin with
          | some r, some m => some (min r m)
          | some r, none => some r
          | none, m => m),
        srtt := if rtt.isSome then f.1.toNat else x.srtt,
        refusedPsn := (match x.refusedPsn with
          | some p => if psnDiff p apsn < 0 then none else some p
          | none => none),
        seqFrom := none }
    let x :=
      if 0 < psnDiff apsn x.winEnd then
        { x with win := nextWin s x, winEnd := x.nextPsn, winAcked := 0, winEce := 0, winMin := none }
      else x
    let s := s.setPeer d x
    let s :=
      if s.rd TWN_CFG.TWIN_DEV = d && s.flag TWN_CFG.ENABLE then { s with twin := { s.twin with lastAnswer := some s.now } }
      else s
    if x.state = Ps.quiescing && x.unacked.isEmpty then sendHello s d (nextEpoch x.epoch) false else s
  else s

end Sys2Proof.Machine
end

