-- ==== Sys2Proof/Machine/KvCache.lean ====
section
/-! DEFINITION. Streams of the decode engine: contexts and handles, the paged KV cache, the start and the end of a decode
command (R141 to R151, R162). Choices and readings of the model: log entry 43. -/
namespace Sys2Proof.Machine

open Sys2Proof

/-- Decode status codes (R146). -/
def Dec.pageMissing : Nat := 0x80
def Dec.readOnly : Nat := 0x81
def Dec.full : Nat := 0x82
def Dec.sequence : Nat := 0x83
def Dec.tileLost : Nat := 0x84
def Dec.noCandidate : Nat := 0x85

/-- The queue identifier of decode queue `q` (R172). -/
def decQid (q : Nat) : Nat := mkQid 2 q

/-- A stream context. -/
def State.stream (s : State) (c : Nat) : Stream := Tab.get {} s.streams c

/-- The state with a stream context replaced. -/
def State.setStream (s : State) (c : Nat) (x : Stream) : State := { s with streams := Tab.set {} s.streams c x }

/-- The context number of a handle (R148). -/
def handleCtx (h : Nat) : Nat := h % 2 ^ 18

/-- The generation of a handle (R148). -/
def handleGen (h : Nat) : Nat := bitsOf h 18 8

/-- The handle of a context (R148). -/
def handleOf (c : Nat) (x : Stream) : Nat := c + 2 ^ 18 * x.gen

/-- The layer a decode command names, for its event (R162). -/
def layerOf (l : List Byte) : Nat := if leAt l 0 1 = 3 || leAt l 0 1 = 4 then leAt l 24 2 else 0

/-- The event of a failed decode command (R162). -/
def decFault (s : State) (qid : Nat) (c : Cmd) (status : Nat) : State :=
  let q := s.queue qid
  s.raise 0x0701 (unitId 0x2 q.home) (s.gladeOf q.inst) q.inst status
    (leAt c.bytes 0 1 + status * 2 ^ 8 + 2 ^ 16 * layerOf c.bytes + 2 ^ 32 * c.tag)

/-- Whether a status is one of the ABORTED codes. -/
def isAborted (status : Nat) : Bool := status == 1 || status == 2 || status == 3

/-- Release the stream that a queue's command runs on. -/
def freeStream (s : State) (qid : Nat) : State :=
  match s.streams.find? fun p => p.2.busy == some qid with
  | some (c, x) => s.setStream c { x with busy := none }
  | none => s

/-- End a decode command: RESULT is 0 when the status is not SUCCESS, and DEC_CMD_FAULT is raised (R145, R162). -/
def decEnd (s : State) (qid : Nat) (c : Cmd) (status result : Nat) : State :=
  let s := freeStream s qid
  let s := s.complete qid c status (if status = St.success then result % 2 ^ 32 else 0)
  if status = St.success || isAborted status then s else decFault s qid c status

/-- Whether the bytes of a command not listed for its opcode are zero and its fields lie in their ranges (R143, R144). -/
def decFieldsOk (l : List Byte) : Bool :=
  let common := leAt l 1 1 < 8 && zeroAt l 2 2
    && (bitOf (leAt l 1 1) 1 || (zeroAt l 12 2 && zeroAt l 16 8)) && (bitOf (leAt l 1 1) 2 || zeroAt l 14 2)
    && leAt l 8 4 < 2 ^ 26
  let count := fun o => 1 ≤ leAt l o 1 && leAt l o 1 ≤ 16
  common &&
    match leAt l 0 1 with
    | 1 => zeroAt l 8 4 && zeroAt l 32 32
    | 2 => zeroAt l 24 40
    | 3 => count 26 && zeroAt l 27 5 && zeroAt l 40 24
    | 4 =>
      count 26 && leAt l 27 1 < 2 && (leAt l 28 1 == 2 || leAt l 28 1 == 4 || leAt l 28 1 == 5) && zeroAt l 29 3
        && leAt l 48 8 != 0 && zeroAt l 56 8
    | 5 =>
      count 24 && zeroAt l 25 7 && leAt l 32 1 == 0xFF
        && ((List.range 16).all fun i =>
          i == 0 || (if i < leAt l 24 1 then leAt l (32 + i) 1 < i else leAt l (32 + i) 1 == 0))
        && zeroAt l 56 8
    | 6 =>
      leAt l 24 1 < 3 && count 25 && leAt l 26 2 ≤ 1024 && zeroAt l 34 1 && (leAt l 35 1 == 4 || leAt l 35 1 == 5)
        && 1 ≤ leAt l 36 4 && leAt l 36 4 ≤ (if leAt l 24 1 = 2 then 65536 else 1048576) && zeroAt l 60 4
        && (match ofF32 (leAt l 28 4) with
            | .fin n m _ => !n || m == 0
            | _ => false)
    | 7 => zeroAt l 24 8 && zeroAt l 40 24
    | 8 => count 24 && zeroAt l 25 39
    | 9 => zeroAt l 28 36
    | _ => false

/-- Whether the agreed features allow a decode command (R147). -/
def decFeature (s : State) (l : List Byte) : Bool :=
  s.feature 0
    && (s.feature 1 || !(leAt l 0 1 == 5 || leAt l 0 1 == 7 || (leAt l 0 1 == 4 && bitOf (leAt l 27 1) 0)))

/-- Whether the counters that PREWAIT and POST name are granted to a glade (R143). -/
def preGranted (s : State) (glade : Nat) (l : List Byte) : Bool :=
  (!bitOf (leAt l 1 1) 1 || s.ctrGranted (leAt l 12 2) glade)
    && (!bitOf (leAt l 1 1) 2 || s.ctrGranted (leAt l 14 2) glade)

/-- Let a fetched command with PREWAIT wait for its counter, if the counter has not reached the target (R143). -/
def preWait (s : State) (qid : Nat) (c : Cmd) : State :=
  if bitOf (leAt c.bytes 1 1) 1 && !satisfied (s.ctr (leAt c.bytes 12 2)) (leAt c.bytes 16 8) then
    (s.setCmd qid { c with waiting := true }).addWait
      { who := .queue qid, on := .counter (leAt c.bytes 12 2), target := leAt c.bytes 16 8 }
  else s

/-- What is wrong with a decode command before it starts, as a status (R143, R144, R147). -/
def decRefusal (s : State) (glade : Nat) (l : List Byte) : Nat :=
  if !decFieldsOk l then St.badDescriptor
  else if !decFeature s l then St.notSupported
  else if !preGranted s glade l then St.protectionFault
  else St.success

/-- The pick among queues of one engine (R142): the highest PRIO, and round-robin within that PRIO. -/
def pickAmong (s : State) (engine : Nat) (ready : List Nat) : Option Nat :=
  let top := ready.foldl (fun m q => max m (s.queue q).prio) 0
  let best := ready.filter fun q => (s.queue q).prio == top
  let last := Tab.get 0 s.picked (4 * engine + top)
  match best.filter (last < ·) with
  | q :: _ => some q
  | [] => best.head?

/-- Note the pick of an engine at the queue's PRIO. -/
def notePick (s : State) (engine qid : Nat) : State :=
  { s with picked := Tab.set 0 s.picked (4 * engine + (s.queue qid).prio) qid }

/-- Whether a decode queue has a command ready to start: fetched, its PREWAIT over, its stream free (R142, R143). -/
def decStartable (s : State) (qid : Nat) : Bool :=
  match (s.queue qid).first with
  | some c =>
    !c.started && !c.waiting
      && (leAt c.bytes 0 1 == 1
        || (let k := handleCtx (leAt c.bytes 8 4)
            (s.stream k).busy.isNone && (!(s.stream k).valid || ctxReady s (.stream k))))
  | none => false

/-- The queues of a slice that have a command ready to start. -/
def sliceStarts (s : State) (slice : Nat) : List Nat :=
  ((List.range 256).map decQid).filter fun qid => (s.queue qid).home == slice && decStartable s qid

/-- Whether it is a decode queue's turn to start its command (R142). Picks to start rotate on their own, beside those to
fetch. -/
def decTurn (s : State) (qid : Nat) : Bool :=
  pickAmong s (16 + (s.queue qid).home) (sliceStarts s (s.queue qid).home) == some qid

/-- Note that a decode queue's command starts: it uses the context of its stream (R228). -/
def decStart (s : State) (qid : Nat) : State :=
  let s := notePick s (16 + (s.queue qid).home) qid
  match (s.queue qid).first with
  | some c =>
    let k := handleCtx (leAt c.bytes 8 4)
    if leAt c.bytes 0 1 ≠ 1 && (s.stream k).valid then touchCtx s (.stream k) else s
  | none => s

/-- The fetched command of a decode queue that may start now, if its opcode is `op`. -/
def decCmd (s : State) (q op : Nat) : Option Cmd :=
  match (s.queue (decQid q)).first with
  | some c => if leAt c.bytes 0 1 = op && decStartable s (decQid q) && decTurn s (decQid q) then some c else none
  | none => none

/-- What is wrong with the handle of a command, as a status (R148). -/
def handleStatus (s : State) (glade h : Nat) : Nat :=
  let x := s.stream (handleCtx h)
  if !x.valid || x.gen ≠ handleGen h then St.epochMismatch
  else if x.glade ≠ glade then St.protectionFault
  else St.success

/-- Run a command of one opcode on its stream (R142, R148), which is free: a bad handle ends it, and otherwise the body gives the
state, the status and RESULT. -/
def onStream (s : State) (q op : Nat) (body : State → Cmd → Nat → Stream → State × Nat × Nat) : State :=
  match decCmd s q op with
  | none => s
  | some c =>
    let qid := decQid q
    let s := decStart s qid
    let h := leAt c.bytes 8 4
    let st := handleStatus s (s.queueGlade qid) h
    if st ≠ St.success then decEnd s qid c st 0
    else
      let r := body s c (handleCtx h) (s.stream (handleCtx h))
      decEnd r.1 qid c r.2.1 r.2.2

/-- Whether an address of a command is 64-byte aligned and its range lies in one valid DRAM region of the glade (R144). -/
def decAddrOk (s : State) (glade a n : Nat) : Bool := a % 64 == 0 && s.inGladeRgn glade a n

/-! ### The paged KV cache (R150, R151) -/

/-- Bytes of an element of a stream's KV format. -/
def Stream.b (x : Stream) : Nat := fmtBits x.kvFmt / 8

/-- Bytes of one position's keys of one head. -/
def Stream.posBytes (x : Stream) : Nat := x.dim * x.b

/-- Positions per page (R150). -/
def Stream.perPage (x : Stream) : Nat := 32768 / x.posBytes

/-- Pages per layer and head (R150). -/
def Stream.ppl (x : Stream) : Nat := x.maxLen / x.perPage

/-- Address of a page-table entry (R150). -/
def Stream.entryAddr (x : Stream) (layer head page : Nat) : Nat :=
  x.table + 4 * ((layer * x.heads + head) * x.ppl + page)

/-- A page-table entry as a command reads it (R151): its frame address, or the status that ends the command. An entry in force
whose reserved bits are not zero is outside its stated values (R8). -/
def pageFor (s : State) (x : Stream) (write : Bool) (layer head page : Nat) : Nat × Nat :=
  let a := x.entryAddr layer head page
  if s.memBad a 4 then (0, St.mediumError)
  else
    let e := leNat (s.bytes a 4)
    let f := 0x10000 * bitsOf e 0 22
    if !bitOf e 31 then (f, Dec.pageMissing)
    else if bitsOf e 22 8 ≠ 0 then (f, St.badDescriptor)
    else if write && bitOf e 30 then (f, Dec.readOnly)
    else if !s.inGladeRgn x.glade f 0x10000 then (f, St.protectionFault)
    else (f, St.success)

/-- Where the key of a position lies in its page; its value lies 0x8000 further (R150). -/
def Stream.keyOff (x : Stream) (pos : Nat) : Nat := pos % x.perPage * x.posBytes

/-- The status of a list of statuses that a command reports: page missing first, then read-only, then the others. -/
def worstPage (l : List Nat) : Nat :=
  if l.contains Dec.pageMissing then Dec.pageMissing
  else if l.contains Dec.readOnly then Dec.readOnly
  else (l.find? (· ≠ St.success)).getD St.success

/-- Positions and heads in the order of SRC (R151). -/
def posHeads (x : Stream) (first count : Nat) : List (Nat × Nat) :=
  (List.range count).flatMap fun i => (List.range x.heads).map fun h => (first + i, h)

/-- The contexts of a slice's quadrant, in an order that nothing fixes, and the first free one (R148). -/
def freeContext (s : State) (slice : Nat) : Option Nat :=
  let start := (Config.freeWord s.fresh).toNat % 65536
  (leastBelow 65536 fun i => !(s.stream (65536 * (slice / 4) + (start + i) % 65536)).valid).map fun i =>
    65536 * (slice / 4) + (start + i) % 65536

/-- The stream a descriptor describes (R149). -/
def streamOf (l : List Byte) : Stream :=
  { kvFmt := leAt l 1 1, qFmt := leAt l 2 1, dprio := leAt l 3 1, layers := leAt l 4 2, heads := leAt l 6 1,
    group := leAt l 7 1, dim := leAt l 8 2, maxLen := leAt l 12 4, len := leAt l 16 4, scale := leAt l 20 4,
    table := leAt l 24 8, seed := leAt l 32 8, window := leAt l 40 4 }

/-- The Valid values column of the descriptor (R149). -/
def descriptorOk (l : List Byte) : Bool :=
  let x := streamOf l
  leAt l 0 1 == 1 && (x.kvFmt == 2 || x.kvFmt == 3 || x.kvFmt == 4)
    && (if x.kvFmt = 4 then x.qFmt == 4 else x.qFmt == 2 || x.qFmt == 3)
    && x.dprio < 4 && 1 ≤ x.layers && x.layers ≤ 256 && 1 ≤ x.heads && x.heads ≤ 64 && 1 ≤ x.group && x.group ≤ 16
    && (x.dim == 64 || x.dim == 128 || x.dim == 256) && zeroAt l 10 2
    && 1 ≤ x.maxLen && x.maxLen ≤ 1048576 && x.maxLen % x.perPage == 0 && x.len ≤ x.maxLen
    && (match ofF32 x.scale with
        | .fin n m _ => !n && m != 0
        | _ => false)
    && x.window % 0x10000 == 0 && x.window ≤ 0x1C0000 && zeroAt l 44 212

/-- Bytes of a stream's page table. -/
def Stream.tableBytes (x : Stream) : Nat := 4 * (x.layers * x.heads * x.ppl)

/-- Close a stream: its context is released and its handle generation advances (R148). -/
def closeStream (s : State) (c : Nat) : State :=
  let x := s.stream c
  let s := dropCtx (s.setStream c { gen := (x.gen + 1) % 256 }) (· == .stream c)
  give s .ctx x.glade 1

/-- The queues of a slice that have a command ready to fetch. -/
def sliceReady (s : State) (slice : Nat) : List Nat :=
  ((List.range 256).map decQid).filter fun qid =>
    let q := s.queue qid
    q.valid && q.home == slice && q.state == .active && q.cmds.isEmpty && q.waiting != 0

/-- Whether a decode queue's next command may be fetched. -/
def decMayFetch (s : State) (qid : Nat) : Bool :=
  let q := s.queue qid
  q.valid && q.waiting != 0
    && (q.state == .resetting
      || (q.state == .active && q.cmds.isEmpty && pickAmong s q.home (sliceReady s q.home) == some qid))

/-- A command without its POST: one whose counters are not granted does nothing but complete (R143). -/
def Cmd.noPost (c : Cmd) : Cmd := { c with bytes := setAt c.bytes 1 (BitVec.ofNat 8 (putBits (leAt c.bytes 1 1) 2 1 0)) }

/-- A command fetched from a decode queue (R143, R144, R147). -/
def decFetched (s : State) (qid : Nat) (l : List Byte) (status : Nat) : State :=
  let q := s.queue qid
  let c : Cmd := { bytes := l, entry := q.head, stamp := s.genOf q.inst, started := false, waiting := false }
  let s := s.setQueue qid { q with head := (q.head + 1) % q.size, cmds := q.cmds ++ [c] }
  let s := notePick s q.home qid
  if q.state ≠ .active then s.complete qid c q.abort 0
  else if status ≠ St.success then decEnd s qid c status 0
  else
    let r := decRefusal s (s.queueGlade qid) l
    if r ≠ St.success then decEnd s qid (if preGranted s (s.queueGlade qid) l then c else c.noPost) r 0 else preWait s qid c

end Sys2Proof.Machine
end

