-- ==== Sys2Proof/Machine/Scheduler.lean ====
section
/-! DEFINITION. The port schedulers (R242 to R256): flows, eligibility, credits, policers, the decision, the interval. Choices
and readings of the model: log entry 15. -/
namespace Sys2Proof.Machine

open Sys2Proof

/-- A number for each flow, which orders them. -/
def Flow.code : Flow → Nat
  | .queue t => t
  | .storage q => 0x10000 + q
  | .ckp q => 0x20000 + q
  | .window g p => 0x30000 + 2 * g + p
  | .response g => 0x40000 + g
  | .device => 0x50000

/-- Whether a packet is a response that goes ahead of all data (R245). -/
def Pkt.ahead (p : Pkt) : Bool := p.type == Pt.opResp || p.type == Pt.atomicResp

/-- The counted length of a packet of a port (R246). -/
def counted (s : State) (port payload : Nat) : Nat :=
  max 1 (frameLen s payload + s.rd SCH_PORT_CFG.OVERHEAD port - 64)

/-- The instance node a packet belongs to: none for the direct flows of a glade, and none once the instance is gone
(R243, R254). Instance 0, which is always there, has a node as any other. -/
def Pkt.node (s : State) (p : Pkt) : Option Nat :=
  match p.flow with
  | .queue _ | .storage _ | .ckp _ => if p.inst = 0 || s.flag GLD_INST.VALID p.inst then some p.inst else none
  | _ => none

/-- Packets of a peer that wait to be sent again, oldest first. -/
def Peer.resends (x : Peer) : List Pkt := x.unacked.filter (·.resend)

/-- Peers whose path is on a port. -/
def peersAt (s : State) (p : Nat) : List (Nat × Peer) := s.peers.filter fun d => d.2.state != Ps.none && d.2.port == p

/-- The flows that hold a packet at a port, in the order of their codes. -/
def flowsAt (s : State) (p : Nat) : List Flow :=
  let again := (peersAt s p).flatMap fun d => (d.2.resends.filter fun k => !k.ahead).map (·.flow)
  let fresh := (s.fab.flows.filter fun f => f.2.any fun k => (s.peer k.1).port == p).map (·.1)
  let all := again ++ fresh
  let codes := dedup (sortNat (all.map Flow.code))
  codes.filterMap fun c => all.find? fun f => f.code == c

/-- The packet at the head of a flow at a port: retransmissions before packets not yet sent (R243). -/
def headOf (s : State) (p : Nat) (f : Flow) : Option (Nat × Pkt) :=
  let again := (peersAt s p).filterMap fun d =>
    (d.2.resends.find? fun k => k.flow == f && !k.ahead).map fun k => (d.1, k)
  match again with
  | h :: _ => some h
  | [] =>
    match s.fab.flows.find? (·.1 == f) with
    | some x => x.2.find? fun k => (s.peer k.1).port == p
    | none => none

/-- Replace the packet at the head of a flow at a port. -/
def setHead (s : State) (p : Nat) (f : Flow) (g : Pkt → Pkt) : State :=
  match headOf s p f with
  | none => s
  | some (d, k) =>
    if k.psn.isSome then
      let x := s.peer d
      s.setPeer d { x with unacked := x.unacked.map fun y => if y.psn == k.psn then g y else y }
    else
      let fl := s.fab.flows.map fun y =>
        if y.1 == f then
          (y.1, (y.2.takeWhile fun z => (s.peer z.1).port != p) ++ ((y.2.dropWhile fun z => (s.peer z.1).port != p).take 1).map
            (fun z => (z.1, g z.2)) ++ (y.2.dropWhile fun z => (s.peer z.1).port != p).drop 1)
        else y
      { s with fab := { s.fab with flows := fl } }

/-- Bytes of a peer on their way: unacknowledged and not waiting to be sent again (R222). -/
def inFlight (x : Peer) : Nat := sumNat ((x.unacked.filter fun k => !k.resend).map Pkt.plen)

/-- The number of a window access that a packet carries, with its host port. -/
def Pkt.access (p : Pkt) : Option (Nat × Nat) :=
  match p.owner with
  | some (.window port _ id _ _ _) => some (port, id)
  | _ => none

/-- Whether an earlier access through the same host port to the same device is still to be sent (R206). -/
def accessBlocked (s : State) (d : Nat) (k : Pkt) : Bool :=
  match k.access with
  | none => false
  | some (port, id) => s.fab.flows.any fun f => f.2.any fun y =>
      y.1 == d && (match y.2.access with
        | some (q, i) => q == port && decide (i < id)
        | none => false)

/-- Whether a packet may be sent to its peer now (R220, R222, R225, R231, R247): the context is OPEN, or QUIESCING for a
packet sent before; no pause; room in the window and among the 4,096 packets; retransmissions of the peer first; and the context
is cached or can be fetched (R229). -/
def peerReady (s : State) (d : Nat) (k : Pkt) : Bool :=
  let x := s.peer d
  let room := inFlight x == 0 || inFlight x + k.plen ≤ x.win
  fabKeyed s d && !x.paused && room && ctxReady s (.peer d)
    && (if k.psn.isSome then
          (x.state == Ps.open_ || x.state == Ps.quiescing) && (x.resends.head?.map (·.psn)) == some k.psn
        else x.state == Ps.open_ && x.resends.isEmpty && x.unacked.length < 4096 && !accessBlocked s d k)

/-- Whether a head packet may be sent when the order of R248 reaches it: its peer is ready and no policer holds it. -/
def sendable (s : State) (d : Nat) (k : Pkt) : Bool := peerReady s d k && k.action != some 2

/-- Whether a head packet is eligible (R247): no policer demotes it either. -/
def eligible (s : State) (d : Nat) (k : Pkt) : Bool := peerReady s d k && k.action == some 0

/-! ### Policers (R249, R250) -/

/-- A policer's buckets brought up to now. -/
def filled (s : State) (k : Nat) : Bucket :=
  let b := Tab.get {} s.sched.buckets k
  let dt := s.now - b.time
  let cbs := 8000 * s.rd SCH_POL_B.CBS k
  let ebs := 8000 * s.rd SCH_POL_B.EBS_PBS k
  if s.flag SCH_POL_A.TWO_RATE k then
    { tc := min (b.tc + s.rd SCH_POL_A.CIR k * dt) cbs, te := min (b.te + s.rd SCH_POL_A.PIR k * dt) ebs, time := s.now }
  else
    let all := b.tc + s.rd SCH_POL_A.CIR k * dt
    { tc := min all cbs, te := min (b.te + (all - cbs)) ebs, time := s.now }

/-- The colour a policer gives a packet of `n` counted bytes with an input colour, and its buckets after (RFC 2697, RFC
2698): a red packet takes no tokens. -/
def colourOf (s : State) (k n input : Nat) : Nat × Bucket :=
  let b := filled s k
  let c := if s.flag SCH_POL_A.AWARE k then input else 0
  let need := 8000 * n
  if s.flag SCH_POL_A.TWO_RATE k then
    if c = 2 || b.te < need then (2, b)
    else if c = 1 || b.tc < need then (1, { b with te := b.te - need })
    else (0, { b with te := b.te - need, tc := b.tc - need })
  else
    if c = 0 && need ≤ b.tc then (0, { b with tc := b.tc - need })
    else if c ≠ 2 && need ≤ b.te then (1, { b with te := b.te - need })
    else (2, b)

/-- What a policer's action fields do with a colour (R250): 0 pass, 1 demote, 2 hold. -/
def colourAction (s : State) (k c : Nat) : Nat :=
  match c with
  | 0 => 0
  | 1 => s.rd SCH_POL_A.YELLOW_ACT k
  | _ => min 2 (s.rd SCH_POL_A.RED_ACT k)

/-- The state with a policer's buckets replaced. -/
def setBucket (s : State) (k : Nat) (b : Bucket) : State :=
  { s with sched := { s.sched with buckets := Tab.set {} s.sched.buckets k b } }

/-- One policer meters a packet: the colour, the action, and the packet's record of it. Red bytes are counted once. -/
def policed (s : State) (k n : Nat) (p : Pkt) (input : Nat) : State × Pkt × Nat :=
  let r := colourOf s k n input
  let s := setBucket s k r.2
  let seen := p.colours.contains (k, 2)
  let s := if r.1 = 2 && !seen then s.bump SCH_POL_CNT.COUNT (3 * k + 2) n else s
  let colours := (p.colours.filter fun x => x.1 != k) ++ [(k, r.1)]
  let act := colourAction s k r.1
  (s, { p with colours := colours, action := some act, heldBy := if act = 2 then some k else none }, r.1)

/-- The policers a packet meets: its instance's, then its glade's (R250). -/
def policersOf (s : State) (p : Pkt) : List Nat :=
  let i :=
    match p.node s with
    | some i => if s.flag SCH_INST_B.POL_EN i then [s.rd SCH_INST_B.POLICER i] else []
    | none => []
  i ++ (if s.flag SCH_GLADE_B.POL_EN p.glade then [s.rd SCH_GLADE_B.POLICER p.glade] else [])

/-- Meter a packet that has reached the head of its flow (R250): the final colour decides. -/
def meter (s : State) (port : Nat) (p : Pkt) : State × Pkt :=
  let n := counted s port p.plen
  let r := (policersOf s p).foldl
    (fun (a : State × Pkt × Nat) k => policed a.1 k n a.2.1 a.2.2) (s, { p with action := some 0, heldBy := none }, 0)
  (r.1, r.2.1)

/-- Meter every head packet of a port that has not been metered, and note when it became eligible. -/
def meterHeads (s : State) (port : Nat) : State :=
  (flowsAt s port).foldl
    (fun s f =>
      match headOf s port f with
      | some (d, k) =>
        let r := if k.action.isNone then meter s port k else (s, k)
        let k := r.2
        let s := setHead r.1 port f fun _ => k
        if k.since.isNone && eligible s d k then setHead s port f fun _ => { k with since := some s.now } else s
      | none => s) s

/-- The input colour of a packet that a policer meters again (R250): what its instance's policer gave it, for its glade's
policer, and green for its instance's. -/
def heldInput (s : State) (k : Nat) (p : Pkt) : Nat :=
  match policersOf s p with
  | [i, g] => if g = k && i ≠ k then ((p.colours.find? (·.1 == i)).map (·.2)).getD 0 else 0
  | _ => 0

/-- A policer meters again the packets it holds, where they would now be yellow or green (R250). -/
def releaseHeld (s : State) (k : Nat) : State :=
  (List.range 16).foldl
    (fun s port => (flowsAt s port).foldl
      (fun s f =>
        match headOf s port f with
        | some (_, p) =>
          if p.heldBy = some k then
            let n := counted s port p.plen
            let input := heldInput s k p
            if (colourOf s k n input).1 = 2 then s
            else
              let r := policed s k n p input
              setHead r.1 port f fun _ => r.2.1
          else s
        | none => s) s) s

/-- A held packet is metered again. -/
def execPolicerRelease (k : Fin 1024) (s : State) : Out := .next (releaseHeld s k)

/-- A policer's buckets set full (R249). -/
def fullBucket (s : State) (k : Nat) : State :=
  setBucket s k { tc := 8000 * s.rd SCH_POL_B.CBS k, te := 8000 * s.rd SCH_POL_B.EBS_PBS k, time := s.now }

/-- The indices of a register array that hold something other than their reset word. -/
def listed (s : State) (base stride count : Nat) : List Nat :=
  s.regs.filterMap fun r =>
    if base ≤ r.1 && r.1 < base + stride * count && (r.1 - base) % stride = 0 then some ((r.1 - base) / stride) else none

/-- Whether any node binds a policer. -/
def policerBound (s : State) (k : Nat) : Bool :=
  ((listed s 0x1601008 16 256).any fun g => s.flag SCH_GLADE_B.POL_EN g && s.rd SCH_GLADE_B.POLICER g == k)
    || (listed s 0x1610008 16 4096).any fun i => s.flag SCH_INST_B.POL_EN i && s.rd SCH_INST_B.POLICER i == k

/-- A policer that has been written meters again the packets that it holds, and no other policer does (R250, R254). -/
def remeterHeld (s : State) (k : Nat) : State :=
  (List.range 16).foldl
    (fun s port => (flowsAt s port).foldl
      (fun s f =>
        match headOf s port f with
        | some (_, p) =>
          if p.heldBy = some k then
            let r := policed s k (counted s port p.plen) p (heldInput s k p)
            setHead r.1 port f fun _ => r.2.1
          else s
        | none => s) s) s

/-- A write to SCH_POL_A (`b` false) or SCH_POL_B of a policer: its buckets are set full and held packets are metered
again (R249, R254). -/
def execPolicerWrite (k : Fin 1024) (b : Bool) (v : BitVec 64) (s : State) : Out := unlessNoImage s <|
  let w := v.toNat
  let s :=
    if b then s.wrs k [(SCH_POL_B.CBS, bitsOf w 0 24), (SCH_POL_B.EBS_PBS, bitsOf w 24 24)]
    else
      let s := if policerBound s k then s else s.wr SCH_POL_A.GLADE k (bitsOf w 8 8)
      s.wrs k [(SCH_POL_A.TWO_RATE, bitsOf w 0 1), (SCH_POL_A.AWARE, bitsOf w 1 1), (SCH_POL_A.YELLOW_ACT, bitsOf w 2 1),
        (SCH_POL_A.RED_ACT, bitsOf w 3 2), (SCH_POL_A.CIR, bitsOf w 16 20), (SCH_POL_A.PIR, bitsOf w 36 20)]
  .next (remeterHeld (fullBucket s k) k)

/-! ### Credits (R247) -/

/-- The place of a node's record: glade `g`, or instance `i`, at a port. -/
def gNode (port g : Nat) : Nat := 8192 * port + g
def iNode (port i : Nat) : Nat := 8192 * port + (4096 + i)

/-- A node's record. A node without one has no credits, and accrues from now. -/
def State.node (s : State) (k : Nat) : SchNode := Tab.get { time := s.now } s.sched.nodes k

/-- The state with a node's record replaced. -/
def State.setNode (s : State) (k : Nat) (x : SchNode) : State :=
  { s with sched := { s.sched with nodes := Tab.set {} s.sched.nodes k x } }

/-- MIN, MAX and CAP of a node's configuration as they are used (R247, R257). -/
def nodeMax (s : State) (k : Nat) : Nat :=
  let n := k % 8192
  if n < 4096 then s.rd SCH_GLADE_A.MAX n else s.rd SCH_INST_A.MAX (n - 4096)

def nodeMin (s : State) (k : Nat) : Nat :=
  let n := k % 8192
  let m := min 400000 (if n < 4096 then s.rd SCH_GLADE_A.MIN n else s.rd SCH_INST_A.MIN (n - 4096))
  if nodeMax s k = 0 then m else min m (nodeMax s k)

def nodeCap (s : State) (k : Nat) : Int :=
  let n := k % 8192
  ((max 10240 (if n < 4096 then s.rd SCH_GLADE_B.CAP n else s.rd SCH_INST_B.CAP (n - 4096)) * 8000 : Nat) : Int)

/-- A credit over a time, in units of 1/8000 byte, for a rate in Mb/s (R247). -/
def accrue (active : Bool) (c : Int) (rate dt : Nat) (cap : Int) : Int :=
  let up := c + ((rate * dt : Nat) : Int)
  if active then min up cap else if c < 0 then min up 0 else 0

/-- A node's credits brought up to now; a node with nothing to send has no deficit. -/
def accrueNode (s : State) (k : Nat) (active backlog : Bool) : State :=
  let x := s.node k
  let dt := s.now - x.time
  let eff := match x.eff with
    | some e => min e (nodeMin s k)
    | none => nodeMin s k
  let minC := if nodeMin s k = 0 then 0 else accrue active x.minC eff dt (nodeCap s k)
  let maxC := if nodeMax s k = 0 then 0 else accrue active x.maxC (nodeMax s k) dt (nodeCap s k)
  s.setNode k { x with minC := minC, maxC := maxC, time := s.now, deficit := if backlog then x.deficit else 0 }

/-- A head packet at a port that may be sent. -/
structure Cand where
  flow : Flow
  dev : Nat
  pkt : Pkt
  glade : Nat
  inst : Option Nat
  demoted : Bool
  need : Nat
  deriving DecidableEq, Repr

/-- The heads of a port that may be sent. -/
def candsAt (s : State) (port : Nat) : List Cand :=
  (flowsAt s port).filterMap fun f =>
    match headOf s port f with
    | some (d, k) =>
      if sendable s d k then
        some { flow := f, dev := d, pkt := k, glade := k.glade, inst := k.node s, demoted := k.action == some 1,
               need := counted s port k.plen }
      else none
    | none => none

/-- The nodes of a port whose subtrees hold a packet of a list. -/
def nodesOf (port : Nat) (l : List Cand) : List Nat :=
  (dedup (sortNat (l.map (·.glade)))).map (gNode port) ++ (dedup (sortNat (l.filterMap (·.inst)))).map (iNode port)

/-- Bring every node of a port up to now: those with a record and those with a packet to send. A node whose packets are all
demoted is not waiting (R247). -/
def accruePort (s : State) (port : Nat) (l : List Cand) : State :=
  let waiting := nodesOf port (l.filter fun c => !c.demoted)
  let backlog := nodesOf port l
  let idle := (s.sched.nodes.map (·.1)).filter fun k => k / 8192 == port && !backlog.contains k
  let s := idle.foldl (fun s k => accrueNode s k false false) s
  backlog.foldl (fun s k => accrueNode s k (waiting.contains k) true) s

/-- A node's minimum credit lets it be served first. -/
def minOk (s : State) (k : Nat) : Bool := nodeMin s k != 0 && 0 ≤ (s.node k).minC

/-- A node's maximum credit lets it be served. -/
def maxOk (s : State) (k : Nat) : Bool := nodeMax s k == 0 || 0 ≤ (s.node k).maxC

/-! ### Round robin -/

/-- The last served of a list of a port. -/
def lastOf (s : State) (port list : Nat) : Nat := Tab.get 0 s.sched.last (0x10000 * port + list)

/-- Note the last served of a list. -/
def noteLast (s : State) (port list x : Nat) : State :=
  { s with sched := { s.sched with last := Tab.set 0 s.sched.last (0x10000 * port + list) x } }

/-- A rising list rotated so that it begins after the last served; with `keep` it begins at it. -/
def rotated (l : List Nat) (last : Nat) (keep : Bool) : List Nat :=
  let ahead := fun x => if keep then last ≤ x else last < x
  l.filter ahead ++ l.filter fun x => !ahead x

/-- Deficit round-robin (R248): the front item is the one being served; one whose deficit does not cover its packet gives
way to the next, which gains its quantum. Items are number, quantum, need and deficit; the answer is the item served and
the deficits after. -/
def drr : Nat → List (Nat × Nat × Nat × Nat) → Option (Nat × List (Nat × Nat))
  | 0, _ => none
  | _, [] => none
  | fuel + 1, (i, q, need, d) :: t =>
    if need ≤ d then some (i, (i, d - need) :: t.map fun x => (x.1, x.2.2.2))
    else
      match t ++ [(i, q, need, d)] with
      | [] => none
      | (j, q', n', d') :: r => drr fuel ((j, q', n', d' + q') :: r)

/-- Choose by deficit round-robin among items, starting at the last served. -/
def drrPick (items : List (Nat × Nat × Nat × Nat)) (last : Nat) : Option (Nat × List (Nat × Nat)) :=
  let order := rotated (items.map (·.1)) last true
  let l := order.filterMap fun i => items.find? (·.1 == i)
  let l :=
    match l with
    | (i, q, n, d) :: t => if i = last then (i, q, n, d) :: t else (i, q, n, d + q) :: t
    | [] => []
  drr (16 * l.length + 1) l

/-- Quantum of a weight (R248). -/
def quantum (w : Nat) : Nat := 1024 * max 1 w

/-- The weight of a flow (R243). -/
def flowWeight (s : State) : Flow → Nat
  | .queue t => s.rd SCH_FLOW.WEIGHT t
  | .storage q => s.rd SCH_FLOW_S.WEIGHT q
  | .ckp _ => 1
  | .window g _ => s.rd SCH_GLADE_B.DWEIGHT g
  | .response g => s.rd SCH_GLADE_B.DWEIGHT g
  | .device => s.rd SCH_GLADE_B.DWEIGHT 0

/-- A flow's deficit at a port. -/
def flowDeficit (s : State) (port : Nat) (f : Flow) : Nat := Tab.get 0 s.sched.deficits (0x100000 * port + f.code)

/-- The state with a flow's deficit set. -/
def setFlowDeficit (s : State) (port code d : Nat) : State :=
  { s with sched := { s.sched with deficits := Tab.set 0 s.sched.deficits (0x100000 * port + code) d } }

/-- The rising list of a function's values over candidates. -/
def valuesOf (l : List Cand) (f : Cand → Option Nat) : List Nat := dedup (sortNat (l.filterMap f))

/-- An instance picks among its flows by deficit round-robin. -/
def pickFlow (s : State) (port i : Nat) (l : List Cand) : Option (Cand × State) :=
  let mine := l.filter fun c => c.inst == some i
  let items := mine.map fun c => (c.flow.code, quantum (flowWeight s c.flow), c.need, flowDeficit s port c.flow)
  match drrPick items (lastOf s port (2048 + i)) with
  | some (code, ds) =>
    let s := ds.foldl (fun s d => setFlowDeficit s port d.1 d.2) s
    (mine.find? fun c => c.flow.code == code).map fun c => (c, noteLast s port (2048 + i) code)
  | none => none

/-- What an item of a glade's second rule would send next, its number and its quantum. Instances are numbered by their
number, direct flows by 2^20 and their code. -/
def gladeItems (s : State) (port : Nat) (l : List Cand) : List (Nat × Nat × Nat × Nat) :=
  let insts := (valuesOf l (·.inst)).filter fun i => maxOk s (iNode port i)
  let a := insts.filterMap fun i =>
    (pickFlow s port i l).map fun r =>
      (i, quantum (s.rd SCH_INST_A.WEIGHT i), r.1.need, (s.node (iNode port i)).deficit)
  let b := (l.filter fun c => c.inst.isNone).map fun c =>
    (0x100000 + c.flow.code, quantum (flowWeight s c.flow), c.need, flowDeficit s port c.flow)
  a ++ b

/-- A glade picks among its instances and its direct flows (R248): instances whose minimum credit is at least 0 first,
round-robin, and the others by deficit round-robin. -/
def pickInGlade (s : State) (port g : Nat) (l : List Cand) : Option (Cand × State) :=
  let mine := l.filter fun c => c.glade == g
  let first := (valuesOf mine (·.inst)).filter fun i => minOk s (iNode port i) && maxOk s (iNode port i)
  match rotated first (lastOf s port (256 + 4 * g)) false with
  | i :: _ => (pickFlow s port i mine).map fun r => (r.1, noteLast r.2 port (256 + 4 * g) i)
  | [] =>
    match drrPick (gladeItems s port mine) (lastOf s port (257 + 4 * g)) with
    | some (k, ds) =>
      let s := ds.foldl
        (fun s d =>
          if d.1 < 0x100000 then s.setNode (iNode port d.1) { s.node (iNode port d.1) with deficit := d.2 }
          else setFlowDeficit s port (d.1 - 0x100000) d.2) s
      let s := noteLast s port (257 + 4 * g) k
      if k < 0x100000 then pickFlow s port k mine
      else (mine.find? fun c => c.inst.isNone && 0x100000 + c.flow.code == k).map fun c => (c, s)
    | none => none

/-- The glades of step 3 of R248. -/
def stepThree (s : State) (port : Nat) (l : List Cand) : List Nat :=
  (valuesOf l fun c => if c.demoted then none else some c.glade).filter fun g =>
    minOk s (gNode port g) && maxOk s (gNode port g)

/-- The glades of step 4 of R248. -/
def stepFour (s : State) (port : Nat) (l : List Cand) : List Nat :=
  (valuesOf l fun c => if c.demoted then none else some c.glade).filter fun g =>
    s.rd SCH_GLADE_A.LAT_US g != 0 && maxOk s (gNode port g)

/-- Whether a packet's instance may send: its maximum credit is at least 0. -/
def instOpen (s : State) (port : Nat) (c : Cand) : Bool :=
  match c.inst with
  | some i => maxOk s (iNode port i)
  | none => true

/-- Steps 3 to 5 of R248: the packet chosen. A glade takes part with the packets whose instances may send. -/
def pickData (s : State) (port : Nat) (l : List Cand) : Option (Cand × State) :=
  let l := l.filter (instOpen s port)
  let plain := l.filter fun c => !c.demoted
  match rotated (stepThree s port l) (lastOf s port 0) false with
  | g :: _ => (pickInGlade s port g plain).map fun r => (r.1, noteLast r.2 port 0 g)
  | [] =>
    match rotated (stepFour s port l) (lastOf s port 1) false with
    | g :: _ => (pickInGlade s port g plain).map fun r => (r.1, noteLast r.2 port 1 g)
    | [] =>
      let glades := (valuesOf l fun c => some c.glade).filter fun g => maxOk s (gNode port g)
      let items := glades.filterMap fun g =>
        (pickInGlade s port g l).map fun r =>
          (g, quantum (s.rd SCH_GLADE_A.WEIGHT g), r.1.need, (s.node (gNode port g)).deficit)
      match drrPick items (lastOf s port 2) with
      | some (g, ds) =>
        let s := ds.foldl
          (fun s d => s.setNode (gNode port d.1) { s.node (gNode port d.1) with deficit := d.2 }) s
        pickInGlade (noteLast s port 2 g) port g l
      | none => none

/-! ### Sending -/

/-- Charge a node for counted bytes (R247). -/
def chargeNode (s : State) (k n : Nat) : State :=
  let x := s.node k
  let c : Int := ((n * 8000 : Nat) : Int)
  s.setNode k { x with minC := if nodeMin s k = 0 then 0 else x.minC - c, maxC := if nodeMax s k = 0 then 0 else x.maxC - c }

/-- Count bytes of control and response packets of a port (R252). -/
def countAhead (s : State) (port n : Nat) : State :=
  { s with sched := { s.sched with ahead := Tab.set 0 s.sched.ahead port (Tab.get 0 s.sched.ahead port + n) } }

/-- Send a control packet of a port. A context that is QUIESCING after it, with nothing unacknowledged, sends its HELLO
(R220). -/
def sendControl (s : State) (port : Nat) (c : Ctl) : State :=
  let s := transmit s port c.device c.type (if c.fresh then 0x200 else 0) c.epoch 0 c.psn c.addr 0 0 0 c.aux 0 []
  let s := countAhead s port (counted s port 0)
  let x := s.peer c.device
  if x.state = Ps.quiescing && x.unacked.isEmpty then sendHello s c.device (nextEpoch x.epoch) false else s

/-- The bytes a packet carries now, and its status: memory is read each time it is sent (R222), and a read response whose
data is uncorrectable, or out of its glade's reach by now (R210), carries a status and no data. What an earlier operation read
before a later one wrote there is kept (R202). -/
def pktPayload (s : State) (k : Pkt) : List Byte × Nat :=
  match k.src, k.snap with
  | some (a, n), none =>
    if k.type = Pt.readResp then
      let r := s.gladeRead k.glade a n
      (r.1, if r.2 = St.success then k.aux else r.2)
    else (s.bytes a n, k.aux)
  | some _, some r => r
  | none, _ => (k.data, k.aux)

/-- The status of reading the local memory that a request packet carries (R16, R76, R210). -/
def sourceStatus (s : State) (k : Pkt) : Nat :=
  match k.src with
  | some (a, n) => if k.type = Pt.readResp then St.success else (s.gladeRead k.glade a n).2
  | none => St.success

/-- Reading a packet's source counts the uncorrectable codewords it meets (R92). -/
def noteSource (s : State) (k : Pkt) : State :=
  match k.src with
  | some (a, n) => s.noteRead a n
  | none => s

/-- What is sent again for a packet whose source can no longer be read: the sequence needs the packet, its bytes are free, and its
operation ends with the status of the read (log entry 14). -/
def sendUnread (s : State) (d : Nat) (k : Pkt) : State × List Byte :=
  let st := sourceStatus s k
  if st = St.success then (s, (pktPayload s k).1)
  else
    let x := s.peer d
    let ops := x.ops.map fun o => if k.owner.isSome && o.msg == k.msg && o.status == 0 then { o with status := st } else o
    let r := (s.setPeer d { x with ops := ops }).freeBytes k.plen
    (r.2, r.1)

/-- Send a reliable packet (R217, R222, R224): a packet not yet sent takes the next PSN of its context and stays
unacknowledged; one sent before carries RETX. -/
def sendReliable (s : State) (port d : Nat) (k : Pkt) : State :=
  let x := s.peer d
  let again := k.psn.isSome
  let psn := k.psn.getD x.nextPsn
  let k := { k with psn := some psn, resend := false, action := none, colours := [], heldBy := none, since := none }
  let ops := x.ops.map fun o => if k.owner.isSome && o.msg == k.msg then { o with sent := true } else o
  let x :=
    if again then { x with ops := ops, unacked := x.unacked.map fun y => if y.psn == some psn then k else y }
    else { x with ops := ops, unacked := x.unacked ++ [{ k with snap := none }], nextPsn := (psn + 1) % 2 ^ 48 }
  let s := s.setPeer d x
  let status := (pktPayload s k).2
  let r := sendUnread (noteSource s k) d k
  let s := r.1
  let flags := 0x8000 * b2n k.first + 0x4000 * b2n k.last + 0x2000 * b2n (k.last || psn % 16 == 15) + 0x800 * b2n again
  let s := transmit s port d k.type flags x.epoch k.ftn psn k.addr k.rkey k.msg k.moff status k.opv r.2
  if again then s.bump FAB_CNT.COUNT 2
  else match k.out with
    | some o => s.emit o
    | none => s

/-- Count and charge what a glade has sent. -/
def chargeGlade (s : State) (port : Nat) (k : Pkt) (n : Nat) : State :=
  let s := (s.bump SCH_GLADE_BYTES.COUNT k.glade n).meterAdd k.glade 4 n
  let s := chargeNode s (gNode port k.glade) n
  match k.node s with
  | some i => chargeNode s (iNode port i) n
  | none => s

/-- Take a packet that is not yet sent out of its flow. -/
def takeFresh (s : State) (port : Nat) (f : Flow) : State :=
  let fl := s.fab.flows.map fun y =>
    if y.1 == f then
      (y.1, (y.2.takeWhile fun z => (s.peer z.1).port != port) ++ (y.2.dropWhile fun z => (s.peer z.1).port != port).drop 1)
    else y
  { s with fab := { s.fab with flows := fl.filter fun y => !y.2.isEmpty } }

/-- The first response packet of a port that may be sent: packets to send again, then those waiting, in arrival order. -/
def nextResponse (s : State) (port : Nat) : Option (Nat × Pkt) :=
  let again := (peersAt s port).filterMap fun d =>
    match d.2.resends with
    | k :: _ => if k.ahead && peerReady s d.1 k then some (d.1, k) else none
    | [] => none
  match again with
  | h :: _ => some h
  | [] => s.fab.responses.find? fun r => (s.peer r.1).port == port && peerReady s r.1 r.2

/-- Send a response packet (R245): it is charged to the responding glade and held by nothing. -/
def sendResponse (s : State) (port d : Nat) (k : Pkt) : State :=
  let s := { s with fab := { s.fab with responses := s.fab.responses.erase (d, k) } }
  let n := counted s port k.plen
  let s := sendReliable s port d k
  chargeGlade (countAhead s port n) port k n

/-- Send a data packet chosen by the scheduler, with its charges, its policers' counts and its wait (R247, R250, R253). A command
whose local memory can no longer be read ends instead, and nothing more of it is sent (R210). -/
def sendData (s : State) (port : Nat) (c : Cand) : State :=
  if c.pkt.psn.isNone && sourceStatus s c.pkt ≠ St.success then
    endOps (noteSource s c.pkt) c.dev (fun o => o.live && o.msg == c.pkt.msg) (sourceStatus s c.pkt)
  else
  let s := if c.pkt.psn.isSome then s else takeFresh s port c.flow
  let s := c.pkt.colours.foldl (fun s x => if x.2 < 2 then s.bump SCH_POL_CNT.COUNT (3 * x.1 + x.2) c.need else s) s
  let k := gNode port c.glade
  let wait := s.now - c.pkt.since.getD s.now
  let s := s.setNode k { s.node k with worst := max (s.node k).worst wait }
  chargeGlade (sendReliable s port c.dev c.pkt) port c.pkt c.need

/-- Note the nodes that have a packet eligible for step 3 in this interval (R252). -/
def noteQual (s : State) (port : Nat) (l : List Cand) : State :=
  l.foldl
    (fun s c =>
      if c.demoted then s
      else
        let s := s.setNode (gNode port c.glade) { s.node (gNode port c.glade) with qual := true }
        match c.inst with
        | some i => s.setNode (iNode port i) { s.node (iNode port i) with qual := true }
        | none => s) s

/-- Bring a port's tree up to now: head packets are metered, the credits of the time since then accrue by what each node holds, and
the nodes with an eligible packet are noted (R247, R250, R252, R253). -/
def schedUpdate (s : State) (port : Nat) : State :=
  let s := meterHeads s port
  noteQual (accruePort s port (candsAt s port)) port (candsAt s port)

/-- The deficits of the flows of a port that hold no packet there are forgotten (R248). -/
def dropDeficits (s : State) (port : Nat) : State :=
  let live := (flowsAt s port).map Flow.code
  let kept := s.sched.deficits.filter fun d => d.1 / 0x100000 != port || live.contains (d.1 % 0x100000)
  { s with sched := { s.sched with deficits := kept } }

/-- What a tick does to the scheduler of each port that is UP: credits accrue for the time that has gone by. -/
def schedTick (s : State) : State :=
  (List.range 16).foldl (fun s p => if s.rd FAB_PORT.STATE p = 3 then dropDeficits (schedUpdate s p) p else s) s

/-- At a packet boundary the port sends the first packet that the order of R248 gives. -/
def decide_ (s : State) (port : Nat) : State :=
  if s.rd FAB_PORT.STATE port ≠ 3 then s
  else
    let s := dropDeficits (schedUpdate s port) port
    let l := candsAt s port
    let waiting := Tab.get [] s.fab.control port
    match waiting.find? fun c => (s.peer c.device).state == Ps.none || ctxReady s (.peer c.device) with
    | some c =>
      sendControl { s with fab := { s.fab with control := Tab.set [] s.fab.control port (waiting.erase c) } } port c
    | none =>
      match nextResponse s port with
      | some (d, k) => sendResponse s port d k
      | none =>
        match pickData s port l with
        | some (c, s) => sendData s port c
        | none => s

/-- A scheduler's decision. -/
def execSchedulerDecision (p : Fin 16) (s : State) : Out := .next (decide_ s p)

/-! ### The interval (R252, R253) -/

/-- Raise GUARANTEE_SHORTFALL for a node (R256). -/
def shortfall (s : State) (port kind : Nat) (inst : Option Nat) (glade bound amount : Nat) : State :=
  s.raise 0x0B01 (unitId 0x6 port) glade (inst.getD 0) 0
    (kind + b2n inst.isSome * 2 + bound % 2 ^ 20 * 2 ^ 8 + 2 ^ 28 * min amount 0xFFFFF)

/-- Report a node's shortfall of one kind in the interval that ends, and its end (R253). -/
def reportNode (s : State) (port : Nat) (inst : Option Nat) (glade : Nat) : State :=
  let k := match inst with
    | some i => iNode port i
    | none => gNode port glade
  let x := s.node k
  let m := nodeMin s k
  let low := match x.eff with
    | some e => m - e
    | none => 0
  let s := if low ≠ 0 || x.shortMin ≠ 0 then shortfall s port 0 inst glade m low else s
  let lat := if inst.isSome then 0 else s.rd SCH_GLADE_A.LAT_US glade
  let excess := if lat = 0 then 0 else ceilDiv (x.worst - lat * 1000) 1000
  let s := if excess ≠ 0 || x.shortLat ≠ 0 then shortfall s port 1 inst glade lat excess else s
  s.setNode k { s.node k with shortMin := low, shortLat := excess, worst := 0 }

/-- The effective minimums of a set of nodes against what is available to them: scaled pro rata when their demand is more
(R252). -/
def scaleNodes (s : State) (nodes : List Nat) (avail demand : Nat) : State :=
  nodes.foldl
    (fun s k =>
      let e := if avail < demand then some (nodeMin s k * avail / demand) else none
      s.setNode k { s.node k with eff := e, qual := false }) s

/-- The minimum a node is held to now. -/
def nodeEff (s : State) (k : Nat) : Nat :=
  match (s.node k).eff with
  | some e => e
  | none => nodeMin s k

/-- One port's evaluation at the end of an interval. A port that is not UP reports no shortfall (R254). -/
def evalPort (s : State) (port : Nat) : State :=
  let known := fun lo n => (s.sched.nodes.map (·.1)).filterMap fun k =>
    if 8192 * port + lo ≤ k && k < 8192 * port + lo + n then some (k - 8192 * port - lo) else none
  let glades := dedup (sortNat (listed s 0x1601000 16 256 ++ known 0 256))
  let insts := dedup (sortNat (listed s 0x1610000 16 4096 ++ known 4096 4096))
  let up := s.rd FAB_PORT.STATE port = 3
  let s := if up then glades.foldl (fun s g => reportNode s port none g) s else s
  let s := if up then insts.foldl (fun s i => reportNode s port (some i) (s.gladeOf i)) s else s
  let ahead := Tab.get 0 s.sched.ahead port
  let avail := 400000 - 8000 * ahead / 1048576
  let demandOf := fun (l : List Nat) => sumNat ((l.filter fun k => (s.node k).qual).map (nodeMin s))
  let gs := glades.map (gNode port)
  let demand := demandOf gs
  let parts := glades.map fun g =>
    let mine := (insts.filter fun i => s.gladeOf i == g).map (iNode port)
    (g, mine, demandOf mine)
  let s := s.wrs port [(SCH_PORT_STAT.AVAIL, avail), (SCH_PORT_STAT.MIN_DEMAND, demand),
    (SCH_PORT_STAT.SCALE, if avail < demand then 1024 * avail / demand else 1024)]
  let s := scaleNodes s gs avail demand
  let s := parts.foldl (fun s x => scaleNodes s x.2.1 (nodeEff s (gNode port x.1)) x.2.2) s
  let clear := s.sched.nodes.map fun n => if n.1 / 8192 = port then (n.1, { n.2 with qual := false }) else n
  { s with sched := { s.sched with nodes := clear.filter (fun n => n.2 != { time := n.2.time }), ahead := Tab.set 0 s.sched.ahead port 0 } }

/-- The end of an evaluation interval, on every port. -/
def execSchedInterval (s : State) : Out := .next ((List.range 16).foldl evalPort s)

/-- Any shortfall open for a port that leaves UP ends with an amount-0 event, and nothing of the interval is reported for it
(R254). -/
def endShortfalls (s : State) (port : Nat) : State :=
  s.sched.nodes.foldl
    (fun s n =>
      if n.1 / 8192 = port then
        let g := n.1 % 8192
        let inst := if g < 4096 then none else some (g - 4096)
        let glade := if g < 4096 then g else s.gladeOf (g - 4096)
        let s := if n.2.shortMin ≠ 0 then shortfall s port 0 inst glade (nodeMin s n.1) 0 else s
        let s := if n.2.shortLat ≠ 0 then shortfall s port 1 inst glade (s.rd SCH_GLADE_A.LAT_US glade) 0 else s
        s.setNode n.1 { s.node n.1 with shortMin := 0, shortLat := 0, eff := none, worst := 0, qual := false }
      else s) s

/-- A glade reset sets its credits to 0 and its policers' buckets full, on every port (R254). -/
def schGladeReset (s : State) (g : Nat) : State :=
  let s := (List.range 16).foldl
    (fun s port => s.setNode (gNode port g) { s.node (gNode port g) with minC := 0, maxC := 0, time := s.now }) s
  (List.range 1024).foldl (fun s k => if s.rd SCH_POL_A.GLADE k = g then fullBucket s k else s) s

/-! ### Register writes (R249, R254, R257) -/

/-- Credits above a new CAP are cut to CAP (R254). -/
def cutCredits (s : State) (n : Nat) : State :=
  (List.range 16).foldl
    (fun s port =>
      let k := 8192 * port + n
      let x := s.node k
      s.setNode k { x with minC := min x.minC (nodeCap s k), maxC := min x.maxC (nodeCap s k) }) s

/-- A write to SCH_GLADE_B or SCH_INST_B: POL_EN of a policer of another glade is refused (R249). -/
def nodeB (s : State) (inst : Bool) (n v : Nat) : State :=
  let k := bitsOf v 24 10
  let glade := if inst then s.gladeOf n else n
  let ok := s.rd SCH_POL_A.GLADE k == glade
  let en := bitOf v 34 && ok
  let s :=
    if inst then
      s.wrs n [(SCH_INST_B.CAP, bitsOf v 0 24), (SCH_INST_B.POLICER, k), (SCH_INST_B.POL_EN, b2n en)]
    else
      s.wrs n [(SCH_GLADE_B.CAP, bitsOf v 0 24), (SCH_GLADE_B.POLICER, k), (SCH_GLADE_B.POL_EN, b2n en),
        (SCH_GLADE_B.DWEIGHT, bitsOf v 36 8)]
  let s := if bitOf v 34 && !ok then s.wr SCH_STATUS.BIND_REFUSED 0 1 else s
  cutCredits s (if inst then 4096 + n else n)

/-- A write to SCH_GLADE_A or SCH_INST_A. -/
def nodeA (s : State) (inst : Bool) (n v : Nat) : State :=
  if inst then
    s.wrs n [(SCH_INST_A.MIN, bitsOf v 0 20), (SCH_INST_A.MAX, bitsOf v 20 20), (SCH_INST_A.WEIGHT, bitsOf v 40 8)]
  else
    s.wrs n [(SCH_GLADE_A.MIN, bitsOf v 0 20), (SCH_GLADE_A.MAX, bitsOf v 20 20), (SCH_GLADE_A.WEIGHT, bitsOf v 40 8),
      (SCH_GLADE_A.LAT_US, bitsOf v 48 8)]

/-- A write to a node's register A, or B, of a glade or an instance: it applies from the next decision. A write to register
B that sets POL_EN is POLICER_BIND. -/
def execSchNodeWrite (inst : Bool) (n : Fin 4096) (b : Bool) (v : BitVec 64) (s : State) : Out := unlessNoImage s <|
  if !inst && 256 ≤ n.val then .next s
  else if b then .next (nodeB s inst n v.toNat) else .next (nodeA s inst n v.toNat)

/-- Setting POL_EN binds a policer to a node, or is refused. -/
def execPolicerBind (inst : Bool) (n : Fin 4096) (v : BitVec 64) (s : State) : Out := unlessNoImage s <|
  if !inst && 256 ≤ n.val then .next s else .next (nodeB s inst n (Nat.lor v.toNat (2 ^ 34)))

end Sys2Proof.Machine
end

