-- ==== Sys2Proof/Machine/SaloaQueues.lean ====
section
/-! DEFINITION. Transport queues (R194 to R203): fetching, checking and starting commands, accesses at a target, sends and
posted buffers. Choices and readings of the model: log entry 14. -/
namespace Sys2Proof.Machine

open Sys2Proof

/-- The queue identifier of transport queue `t` (R230). -/
def salQid (t : Nat) : Nat := mkQid 4 t

/-! ### Accesses at a target (R192, R197) -/

/-- A remote key check with its counter and event: the status, and the glade of the registration. -/
def targetCheck (s : State) (src ftn key need a n : Nat) : State × Nat × Nat :=
  let k := keyCheck s key ftn none (some need) a n
  let s := noteLookup s key
  let s := if k = 0 then s else remoteDenied s (peerQuad s src) src ftn k
  (s, remoteStatus k, (s.regEntry (keyIndex key)).glade)

/-- A WRITE's bytes at the target: the status. -/
def targetWrite (s : State) (src ftn key a : Nat) (l : List Byte) : State × Nat :=
  let r := targetCheck s src ftn key Rt.write a l.length
  if r.2.1 = St.success then r.1.gladeWrite r.2.2 a l else (r.1, r.2.1)

/-- A WRITE_POST's post at the target (R197): refused unless the counter's block is granted to the registration's glade. -/
def targetPost (s : State) (key rctr rinc : Nat) : State × Nat :=
  if s.ustStopped then (s, St.peerUnreachable)
  else if s.ctrGranted rctr (s.regEntry (keyIndex key)).glade then (s.addCtr rctr rinc, St.success) else (s, Sal.remoteAccess)

/-- Whether `n` bytes at the target can be read: the status. -/
def targetReadable (s : State) (src ftn key a n : Nat) : State × Nat :=
  let r := targetCheck s src ftn key Rt.read a n
  if r.2.1 ≠ St.success then (r.1, r.2.1)
  else
    let st := (r.1.gladeRead r.2.2 a n).2
    (r.1.noteStatus st a n, st)

/-- An atomic at the target: the state, the old value, the status. `cas` is the compare and swap values, else an addend. -/
def targetAtomic (s : State) (src ftn key a opv : Nat) (cas : Option Nat) : State × Nat × Nat :=
  let r := targetCheck s src ftn key Rt.atomic a 8
  if r.2.1 ≠ St.success then (r.1, 0, r.2.1)
  else
    gladeAtomic r.1 r.2.2 a fun old =>
      match cas with
      | some swap => if old = opv then swap else old
      | none => (old + opv) % 2 ^ 64

/-! ### Posted buffers (R200, R201) -/

/-- The buffer a SEND would consume from a receive queue: fetched, or read from a ring in device memory. -/
def takeBuffer (s : State) (qid : Nat) : Option (Cmd × State) :=
  let q := s.queue qid
  let s := touchCtx s (.queue qid)
  match q.cmds.find? fun c => !c.started with
  | some c => some (c, s.setCmd qid { c with started := true })
  | none =>
    if q.state = .active && !q.host && q.waiting ≠ 0 then
      let r := fetchBytes s qid (.data [])
      if r.2 = St.success then
        let c : Cmd := { bytes := r.1, entry := q.head, stamp := s.genOf q.inst, started := true, waiting := false }
        some (c, s.setQueue qid { q with head := (q.head + 1) % q.size, cmds := q.cmds ++ [c] })
      else none
    else none

/-- The status of a buffer descriptor: its capacity, its key, LOCAL_WRITE and its domain (R188, R200). -/
def bufferStatus (s : State) (qid : Nat) (c : Cmd) : Nat :=
  let cap := leAt c.bytes 12 4
  if cap = 0 || 1048576 < cap then St.badDescriptor
  else
    localStatus (keyCheck s (leAt c.bytes 8 4) (s.ftn (s.queueGlade qid)) (some (s.queue qid).pd) (some Rt.localWrite)
      (leAt c.bytes 0 8) cap)

/-- Write the receive completion of a buffer (R201): bytes written, status, sender's device and tenant number. -/
def recvDone (s : State) (qid entry written status src ftn : Nat) : State :=
  match (s.queue qid).cmdAt entry with
  | none => s
  | some c =>
    let s := s.complete qid c status (src + 65536 * ftn)
    let q := s.queue qid
    s.setQueue qid { q with due := q.due.map fun d => if d.entry == entry then { d with word0 := written } else d }

/-- Whether a SEND may go to a queue: a receive queue of a glade with the sender's tenant number (R201). -/
def sendAllowed (s : State) (qid ftn : Nat) : Bool :=
  let q := s.queue qid
  s.queueExists qid && qcls qid == 4 && q.kind && ftn != 0 && s.ftn (s.queueGlade qid) == ftn

/-- Deliver a whole message to a receive queue of this device: none when it finds no buffer. The answer is the status and the
ring entry of the buffer it has consumed, if any. -/
def deliver (s : State) (qid src ftn : Nat) (l : List Byte) : Option (State × Nat × Option Nat) :=
  if !sendAllowed s qid ftn then some (s, Sal.remoteAccess, none)
  else
    match takeBuffer s qid with
    | none => none
    | some (c, s) =>
      let st := bufferStatus s qid c
      let s := noteLookup s (leAt c.bytes 8 4)
      if st ≠ St.success then some (recvDone s qid c.entry 0 st src ftn, Sal.remoteAccess, some c.entry)
      else
        let cap := leAt c.bytes 12 4
        let n := min cap l.length
        let w := s.gladeWrite (s.queueGlade qid) (leAt c.bytes 0 8) (l.take n)
        let st := if w.2 ≠ St.success then w.2 else if cap < l.length then Sal.truncated else St.success
        some (recvDone w.1 qid c.entry n st src ftn, st, some c.entry)

/-! ### Initiator commands (R195 to R197) -/

/-- Whether the fields of an initiator command are within their stated values (R196, R197). -/
def salFieldsOk (l : List Byte) : Bool :=
  let len := leAt l 44 4
  let opa := leAt l 48 8
  let opb := leAt l 56 8
  leAt l 1 1 < 16 && zeroAt l 2 2
    && (bitOf (leAt l 1 1) 1 || (zeroAt l 12 2 && zeroAt l 16 8)) && (bitOf (leAt l 1 1) 2 || zeroAt l 14 2)
    && globalOk (leAt l 32 8)
    && (match leAt l 0 1 with
        | 1 => 1 ≤ len && len ≤ 2 ^ 30 && opa == 0 && opb == 0
        | 2 => 1 ≤ len && len ≤ 2 ^ 30 && opa < 65536
        | 3 => 1 ≤ len && len ≤ 2 ^ 30 && opa == 0 && opb == 0
        | 4 => len == 8 && opb == 0 && leAt l 32 8 % 8 == 0 && leAt l 24 8 % 8 == 0
        | 5 => len == 8 && leAt l 32 8 % 8 == 0 && leAt l 24 8 % 8 == 0
        | 6 => len ≤ 1048576 && opa < 2 ^ 20 && opb == 0 && zeroAt l 40 4 && globalOff (leAt l 32 8) == 0
        | _ => false)

/-- The command of an initiator queue that may start now, if its opcode is `op` (R195): the first not started, no earlier
one unfinished when it has FENCE. -/
def salCmd (s : State) (t op : Nat) : Option Cmd :=
  let q := s.queue (salQid t)
  if q.valid && !q.kind && q.state = .active then
    match q.cmds.find? fun c => !c.started with
    | some c =>
      if leAt c.bytes 0 1 = op && !c.waiting && (!bitOf (leAt c.bytes 1 1) 3 || q.cmds.head? = some c) then some c else none
    | none => none
  else none

/-- The status of an initiator command's own checks (R185, R188, R189, R192, R197). -/
def salLocal (s : State) (t : Nat) (l : List Byte) : Nat :=
  let qid := salQid t
  let op := leAt l 0 1
  let glade := s.queueGlade qid
  let ftn := s.ftn glade
  let len := leAt l 44 4
  let writes := op = 3 || op = 4 || op = 5
  let off := globalOff (leAt l 32 8)
  if ftn = 0 then St.protectionFault
  else
    let k :=
      if len = 0 then 0
      else keyCheck s (leAt l 8 4) ftn (some (s.queue qid).pd) (if writes then some Rt.localWrite else none) (leAt l 24 8) len
    if k ≠ 0 then localStatus k
    else if op ≠ 6 && !offsetDecoded off len then St.protectionFault
    else if (op = 4 || op = 5) && (tileAt off).isSome then St.notSupported
    else if !writes && len ≠ 0 then (s.gladeRead glade (leAt l 24 8) len).2
    else St.success

/-- Complete an initiator command: RESULT is LEN when it succeeds. -/
def salEnd (s : State) (t : Nat) (c : Cmd) (status : Nat) : State :=
  s.complete (salQid t) c status (if status = St.success then leAt c.bytes 44 4 else 0)

/-- The request that a command makes of the transport. -/
def salReq (s : State) (t : Nat) (c : Cmd) : OpReq :=
  let l := c.bytes
  let op := leAt l 0 1
  let glade := s.queueGlade (salQid t)
  { dev := globalDev (leAt l 32 8), owner := .cmd (salQid t) c.entry, kind := op, flow := .queue t, glade := glade,
    inst := (s.queue (salQid t)).inst, ftn := s.ftn glade, laddr := leAt l 24 8, len := leAt l 44 4,
    data := if op = 5 then toLe 8 (leAt l 56 8) else [], off := globalOff (leAt l 32 8), rkey := leAt l 40 4,
    aux := if op = 2 || op = 6 then leAt l 48 8 % 2 ^ 32 else 0,
    reg := if leAt l 44 4 = 0 then none else some (keyIndex (leAt l 8 4)),
    opv := if op = 2 then leAt l 56 8 else if op = 4 || op = 5 then leAt l 48 8 else 0 }

/-- Run a command that its own checks have passed: `own` serves it when its target is this device (R186), and otherwise
the transport carries it. -/
def salRun (s : State) (t op : Nat) (own : State → Cmd → State) : State :=
  match salCmd s t op with
  | none => s
  | some c =>
    let st := salLocal s t c.bytes
    let c' := { c with started := true }
    let s := if leAt c.bytes 44 4 = 0 then s else noteLookup s (leAt c.bytes 8 4)
    let s := s.noteStatus st (leAt c.bytes 24 8) (leAt c.bytes 44 4)
    if st ≠ St.success then salEnd s t c st
    else if globalDev (leAt c.bytes 32 8) = s.devNum then own s c
    else startOp (s.setCmd (salQid t) c') (salReq s t c')

/-- A command's local bytes. -/
def salBytes (s : State) (c : Cmd) : List Byte := s.bytes (leAt c.bytes 24 8) (leAt c.bytes 44 4)

/-- The tenant number of a queue. -/
def salFtn (s : State) (t : Nat) : Nat := s.ftn (s.queueGlade (salQid t))

/-- WRITE copies LEN bytes from LADDR to RADDR (R197). -/
def execWrite (t : Fin 65536) (s : State) : Out :=
  .next (orHold s <| salRun s t 1 fun s c =>
    let r := targetWrite s s.devNum (salFtn s t) (leAt c.bytes 40 4) (globalOff (leAt c.bytes 32 8)) (salBytes s c)
    salEnd r.1 t c r.2)

/-- WRITE_POST writes and then adds RINC to a counter of the target (R197). -/
def execWritePost (t : Fin 65536) (s : State) : Out :=
  .next (orHold s <| salRun s t 2 fun s c =>
    let r := targetWrite s s.devNum (salFtn s t) (leAt c.bytes 40 4) (globalOff (leAt c.bytes 32 8)) (salBytes s c)
    if r.2 ≠ St.success then salEnd r.1 t c r.2
    else
      let p := targetPost r.1 (leAt c.bytes 40 4) (leAt c.bytes 48 2) (leAt c.bytes 56 8)
      salEnd p.1 t c p.2)

/-- Write data at a command's LADDR: the status. -/
def salLand (s : State) (t : Nat) (c : Cmd) (off : Nat) (l : List Byte) : State × Nat :=
  s.gladeWrite (s.queueGlade (salQid t)) (leAt c.bytes 24 8 + off) l

/-- READ copies LEN bytes from RADDR to LADDR (R197). -/
def execRead (t : Fin 65536) (s : State) : Out :=
  .next (orHold s <| salRun s t 3 fun s c =>
    let a := globalOff (leAt c.bytes 32 8)
    let n := leAt c.bytes 44 4
    let r := targetReadable s s.devNum (salFtn s t) (leAt c.bytes 40 4) a n
    if r.2 ≠ St.success then salEnd r.1 t c r.2
    else
      let w := salLand r.1 t c 0 (r.1.bytes a n)
      salEnd w.1 t c w.2)

/-- The end of an atomic served on this device: the old value goes to LADDR. -/
def salAtomicEnd (t : Nat) (c : Cmd) (r : State × Nat × Nat) : State :=
  if r.2.2 ≠ St.success then salEnd r.1 t c r.2.2
  else
    let w := salLand r.1 t c 0 (toLe 8 r.2.1)
    salEnd w.1 t c w.2

/-- FADD adds OPA to the 64-bit value at RADDR (R197). -/
def execFadd (t : Fin 65536) (s : State) : Out :=
  .next (orHold s <| salRun s t 4 fun s c =>
    salAtomicEnd t c (targetAtomic s s.devNum (salFtn s t) (leAt c.bytes 40 4) (globalOff (leAt c.bytes 32 8))
      (leAt c.bytes 48 8) none))

/-- CAS writes OPB at RADDR if the value there equals OPA (R197). -/
def execCas (t : Fin 65536) (s : State) : Out :=
  .next (orHold s <| salRun s t 5 fun s c =>
    salAtomicEnd t c (targetAtomic s s.devNum (salFtn s t) (leAt c.bytes 40 4) (globalOff (leAt c.bytes 32 8))
      (leAt c.bytes 48 8) (some (leAt c.bytes 56 8))))

/-- Withdraw a refused SEND from a peer's sequence (R200, R222): the target has applied no packet from the refused one on,
so its packets leave the sequence and the packets behind them take PSNs again from there. -/
def withdrawSend (s : State) (d psn msg : Nat) : State :=
  let x := s.peer d
  let kept := x.unacked.filter fun p => psnDiff (p.psn.getD 0) psn < 0
  let later := x.unacked.filter fun p => 0 ≤ psnDiff (p.psn.getD 0) psn && p.msg != msg
  let again := later.map fun p => { p with psn := none, resend := false, action := none, since := none }
  let s := s.setPeer d
    { x with unacked := kept, nextPsn := psn, refusedPsn := none, expired := none, ops := x.ops.filter fun o => o.msg != msg }
  let s := keepPackets s fun e p => !(e == d && p.owner.isSome && p.msg == msg)
  again.reverse.foldl
    (fun s p =>
      if p.ahead then { s with fab := { s.fab with responses := (d, p) :: s.fab.responses } }
      else
        let s := if s.fab.flows.any (·.1 == p.flow) then s else enqueue s d p.flow []
        let fl := s.fab.flows.map fun f => if f.1 == p.flow then (f.1, (d, p) :: f.2) else f
        { s with fab := { s.fab with flows := fl } }) s

/-- The SEND of a queue that a target has refused for want of a buffer: the peer and the refused packet. -/
def refusedSend (s : State) (qid : Nat) : Option (Nat × Pkt) :=
  s.peers.findSome? fun d =>
    match d.2.refusedPsn with
    | none => none
    | some psn =>
      match d.2.unacked.find? fun p => p.psn == some psn with
      | some p =>
        match p.owner with
        | some (.cmd q _) => if q = qid && p.type = Pt.send then some (d.1, p) else none
        | _ => none
      | none => none

/-- A refused SEND has run out of time: its packets are withdrawn, and its command, if it is still there, completes with
RESOURCE_EXHAUSTED (R200). -/
def giveUpSend (s : State) (d : Nat) (p : Pkt) : State :=
  let live := (s.peer d).ops.any fun o => o.live && o.msg == p.msg
  let s := withdrawSend s d (p.psn.getD 0) p.msg
  match p.owner with
  | some (.cmd qid e) =>
    match (s.queue qid).cmdAt e with
    | some c => if live then s.complete qid c St.resourceExhausted 0 else s
    | none => s
  | _ => s

/-- 1 to 2 ms after the first not-ready answer a SEND completes with RESOURCE_EXHAUSTED (R200). One that has been sent again and not
answered may have been applied: its answer decides (log entry 14, DESIGN CHOICE). -/
def execSendRetryExpire (t : Fin 65536) (s : State) : Out :=
  let qid := salQid t
  match s.fab.selfRefused.find? (·.1 == qid) with
  | some k =>
    let s := { s with fab := { s.fab with selfRefused := s.fab.selfRefused.filter (· != k) } }
    match (s.queue qid).cmdAt k.2 with
    | some c => .next (salEnd s t c St.resourceExhausted)
    | none => .next s
  | none =>
    match refusedSend s qid with
    | some (d, p) =>
      if p.resend then .next (giveUpSend s d p) else .next (s.setPeer d { s.peer d with expired := some p.msg })
    | none => .next s

/-! ### Fetch and abort -/

/-- Whether a transport queue's next entry may be fetched (R195): an initiator queue's once every fetched command has
started, at most 64 in flight. -/
def salMayFetch (s : State) (qid : Nat) : Bool :=
  let q := s.queue qid
  q.valid && q.waiting != 0
    && (q.state == .resetting
      || (q.state == .active && (q.kind || q.cmds.all fun c => c.started) && q.cmds.length < 64))

/-- An entry fetched from a transport queue: a command checked for its fields and its counters (R143, R196), or a buffer. -/
def salFetched (s : State) (qid : Nat) (l : List Byte) (status : Nat) : State :=
  let q := s.queue qid
  let c : Cmd := { bytes := l, entry := q.head, stamp := s.genOf q.inst, started := false, waiting := false }
  let s := s.setQueue qid { q with head := (q.head + 1) % q.size, cmds := q.cmds ++ [c] }
  if q.state ≠ .active then s.complete qid c q.abort 0
  else if status ≠ St.success then s.complete qid c status 0
  else if q.kind then s
  else if !salFieldsOk l then s.complete qid c St.badDescriptor 0
  else if !preGranted s (s.queueGlade qid) l then s.complete qid c St.protectionFault 0
  else preWait s qid c

/-- End every fetched command of a transport queue with a status (R210, R236). -/
def salAbort (s : State) (qid status : Nat) : State :=
  let s := forgetQueue s qid
  let s := { s with fab := { s.fab with selfRefused := s.fab.selfRefused.filter (·.1 != qid) } }
  s.completeAll qid status 0

end Sys2Proof.Machine
end

