-- ==== Sys2Proof/Machine/Storage.lean ====
section
/-! DEFINITION. Storage queues (R296 to R317): tags, volumes, staging, durability, admin commands. Choices and readings of the
model: log entry 16. -/
namespace Sys2Proof.Machine

open Sys2Proof

/-- Status codes of storage queues (R303). -/
def Sq.lbaRange : Nat := 0x80
def Sq.noVolume : Nat := 0x81
def Sq.writeProtect : Nat := 0x82
def Sq.backendFail : Nat := 0x83
def Sq.fwSequence : Nat := 0x84
def Sq.fwRollback : Nat := 0x85

/-- The queue identifier of storage queue `q` (R297). -/
def stqQid (q : Nat) : Nat := mkQid 5 q

/-- A tag of a queue. -/
def State.stqTag (s : State) (q t : Nat) : StqTag := Tab.get {} s.stq.tags (32 * q + t)

/-- The state with a tag replaced. -/
def State.setTag (s : State) (q t : Nat) (x : StqTag) : State :=
  { s with stq := { s.stq with tags := Tab.set {} s.stq.tags (32 * q + t) x } }

/-- Whether a tag is in use: it is held until its completion entry is written (R298). -/
def tagBusy (s : State) (q t : Nat) : Bool :=
  match (s.stqTag q t).entry with
  | none => false
  | some e =>
    let x := s.queue (stqQid q)
    x.cmds.any (·.entry == e) || x.due.any (·.entry == e)

/-- The tag that holds a ring entry's command. -/
def tagOf (s : State) (q entry : Nat) : Option Nat :=
  leastBelow 32 fun t => (s.stqTag q t).entry == some entry && tagBusy s q t

/-- What storage keeps for an instance. -/
def State.stqInst (s : State) (i : Nat) : StqInst := Tab.get {} s.stq.insts i

/-- The state with an instance's part replaced. -/
def State.setStqInst (s : State) (i : Nat) (x : StqInst) : State :=
  { s with stq := { s.stq with insts := Tab.set {} s.stq.insts i x } }

/-! ### Volumes (R304, R305) -/

/-- A volume as its registers give it. -/
def volOf (s : State) (v : Nat) : Vol :=
  { num := v, glade := s.rd STQ_VOL_A.GLADE v, local_ := s.flag STQ_VOL_A.BACKEND v, big := s.flag STQ_VOL_A.BS v,
    readOnly := s.flag STQ_VOL_A.READ_ONLY v, encrypt := s.flag STQ_VOL_A.ENCRYPT v, key := s.rd STQ_VOL_A.KEY_SLOT v,
    dev := s.rd STQ_VOL_A.DEVNUM v, target := s.rd STQ_VOL_B.TARGET v, svol := s.rd STQ_VOL_B.SVOL v,
    capacity := s.rd STQ_VOL_C.CAPACITY v, tweak := s.rd STQ_VOL_D.TWEAK_BASE v }

/-- Block size of a volume. -/
def Vol.bs (v : Vol) : Nat := if v.big then 4096 else 512

/-- Region of a device-DRAM volume. -/
def Vol.region (v : Vol) : Nat := v.target % 1024

/-- Address of a block of a device-DRAM volume (R305). -/
def Vol.addr (s : State) (v : Vol) (n : Nat) : Nat := rgnBase s v.region + n * v.bs

/-- Encrypt the blocks of write data (R305). -/
def sealBlocks (s : State) (v : Vol) (lba : Nat) (l : List Byte) : List Byte :=
  if v.encrypt then
    (List.range (l.length / v.bs)).flatMap fun i =>
      Config.xtsEncrypt (Tab.get [] s.sec.keys v.key) ((v.tweak + lba + i) % 2 ^ 64) (bytesAt l (i * v.bs) v.bs)
  else l

/-- Decrypt the blocks of read data; a block of zeros is a deallocated block and reads as zeros (R305). -/
def openBlocks (s : State) (v : Vol) (lba : Nat) (l : List Byte) : List Byte :=
  if v.encrypt then
    (List.range (l.length / v.bs)).flatMap fun i =>
      let b := bytesAt l (i * v.bs) v.bs
      if b.all (· == 0) then b
      else Config.xtsDecrypt (Tab.get [] s.sec.keys v.key) ((v.tweak + lba + i) % 2 ^ 64) b
  else l

/-- Add to a glade's statistics on a volume (R312), each saturating. -/
def volStat (s : State) (g : Nat) (v : Vol) (k n : Nat) : State :=
  let key := 4096 * g + v.num % 4096
  let l := Tab.get [0, 0, 0, 0] s.stq.stats key
  let l := setAt l k (satAdd 64 (l.getD k 0) n)
  let s := { s with stq := { s.stq with stats := Tab.set [0, 0, 0, 0] s.stq.stats key l } }
  if k < 2 then s.meterAdd g (6 + k) (n * v.bs) else s

/-! ### Staging (R306, R307) -/

/-- Show a glade's slots in STQ_GLADE_B. -/
def State.setSlots (s : State) (g : Nat) (l : List StqSlot) : State :=
  let s := { s with stq := { s.stq with slots := Tab.set [] s.stq.slots g l } }
  s.wr STQ_GLADE_B.SLOTS_BUSY g l.length

/-- The slots of a glade that are not free. -/
def State.slotsOf (s : State) (g : Nat) : List StqSlot := Tab.get [] s.stq.slots g

/-- The lowest free slot of a glade. -/
def freeSlot (s : State) (g : Nat) : Option Nat :=
  leastBelow (s.rd STQ_GLADE_B.SLOTS g) fun k => (s.slotsOf g).all fun x => x.slot != k

/-- The internal address of a slot. -/
def slotAddr (s : State) (g k : Nat) : Nat := rgnBase s (s.rd STQ_GLADE_A.STAGE_RGN g) + 0x100000 * (k + 1)

/-- Free the slot held for a request. -/
def releaseSlot (s : State) (g q t uses : Nat) : State :=
  s.setSlots g ((s.slotsOf g).filter fun x => !(x.queue == q && x.tag == t && x.uses == uses))

/-- Put the slot held for a request in quarantine (R307). -/
def quarantineSlot (s : State) (g q t uses : Nat) : State :=
  s.setSlots g ((s.slotsOf g).map fun x =>
    if x.queue == q && x.tag == t && x.uses == uses then { x with quarantined := true } else x)

/-- A quarantined slot becomes free after twice SVC_TIMEOUT_MS (R307). -/
def execSlotQuarantineExpire (g : Fin 256) (slot : BitVec 16) (s : State) : Out :=
  .next (s.setSlots g ((s.slotsOf g).filter fun x => !(x.slot == slot.toNat && x.quarantined)))

/-- The registration a staging key must name (R306): VALID, of the glade, covering exactly the region, with the three
rights. -/
def stageKeyOk (s : State) (g key rgn : Nat) : Bool :=
  let e := s.regEntry (keyIndex key)
  key < 2 ^ 28 && keyIndex key < rktSize s && s.flag FAB_SAL_RKT_CFG.ENABLE && e.valid && e.gen == keyGen key && e.glade == g
    && e.base == rgnBase s rgn && e.length == rgnLen s rgn && bitOf e.rights Rt.read && bitOf e.rights Rt.write
    && bitOf e.rights Rt.localWrite

/-- A write of STQ_GLADE_A with its ENABLE: staging is put in force, refused or ended (R306, R315). `b` is STQ_GLADE_B's
REPLY_Q, written with it while ENABLE is 0. -/
def execStagingEnable (g : Fin 256) (v : BitVec 64) (b : BitVec 16) (s : State) : Out := unlessNoImage s <|
  let w := v.toNat
  let on := s.flag STQ_GLADE_A.ENABLE g
  let s :=
    if on then s
    else s.wrs g [(STQ_GLADE_A.STAGE_RGN, bitsOf w 1 10), (STQ_GLADE_A.STAGE_KEY, bitsOf w 32 32),
      (STQ_GLADE_B.REPLY_Q, b.toNat)]
  if bitOf w 0 then
    if on then .next s
    else
      let r := s.rd STQ_GLADE_A.STAGE_RGN g
      let qid := salQid (s.rd STQ_GLADE_B.REPLY_Q g)
      let ok := s.flag MEM_RGN_A.VALID r && s.rd MEM_RGN_A.GLADE r == g.val && 0x200000 ≤ rgnLen s r
        && stageKeyOk s g (s.rd STQ_GLADE_A.STAGE_KEY g) r
        && s.queueExists qid && (s.queue qid).kind && s.queueGlade qid == g.val
      if ok then
        .next ((s.wrs g [(STQ_GLADE_A.ENABLE, 1), (STQ_GLADE_B.SLOTS, rgnLen s r / 0x100000 - 1)]).setSlots g (s.slotsOf g))
      else .next (s.wr STQ_STATUS.STAGE_REFUSED 0 1)
  else .next (s.wr STQ_GLADE_A.ENABLE g 0)

/-! ### Mirror fences (R89, R91) -/

/-- What a fence on a region answers now: none while it waits. A STALE region, and every pair state but PAIRED, gives
TWIN_DEGRADED (R89, R384). -/
def fenceStatus (s : State) (region seq : Nat) : Option Nat :=
  if !s.flag MEM_RGN_A.MIRROR region then some St.success
  else if s.flag MEM_RGN_A.STALE region || s.pair ≠ Pair.paired then some St.twinDegraded
  else if s.twin.unacked.any fun w => w.type == 2 && w.region == region && w.seq ≤ seq then none
  else some St.success

/-- The last write sequence number given out: what a fence begun now must see applied. -/
def fenceSeq (s : State) : Nat := s.twin.nextSeq - 1

/-! ### Completion -/

/-- The state with a queue's volumes that have unflushed writes. -/
def State.setDirty (s : State) (q : Nat) (l : List Nat) : State :=
  { s with stq := { s.stq with dirty := Tab.set [] s.stq.dirty q l } }

/-- Volumes of a queue with unflushed writes. -/
def State.dirtyOf (s : State) (q : Nat) : List Nat := Tab.get [] s.stq.dirty q

/-- Log a failed command and raise STQ_CMD_ERROR if its instance asked for it; ABORTED codes are excluded (R311, R312,
R317). -/
def stqFail (s : State) (q : Nat) (c : Cmd) (status result : Nat) : State :=
  let qid := stqQid q
  let i := (s.queue qid).inst
  let x := s.stqInst i
  let op := leAt c.bytes 0 1
  let e : StqError :=
    { time := s.now, qid := qid, status := status, tag := c.tag, lba := leAt c.bytes 24 8, volume := leAt c.bytes 8 2,
      opcode := op, result := result }
  let s := s.setStqInst i { x with errors := (e :: x.errors).take 64 }
  let s := s.bump STQ_CNT.COUNT 7
  let aborted := status = 1 || status = 2 || status = 3
  if x.raise && !aborted then
    s.raise 0x0E01 (unitId 0x2 (s.queue qid).home) (s.gladeOf i) i status (q + 2 ^ 16 * c.tag + 2 ^ 48 * op)
  else s

/-- End a storage command (R302): its tag's work is over, its slot is free or in quarantine, and its completion is due. -/
def stqFinish (s : State) (q entry status result : Nat) : State :=
  let qid := stqQid q
  match (s.queue qid).cmdAt entry, tagOf s q entry with
  | some c, some t =>
    let x := s.stqTag q t
    let op := leAt c.bytes 0 1
    let s := if x.sent then quarantineSlot s x.vol.glade q t x.uses else releaseSlot s x.vol.glade q t x.uses
    let s := s.setTag q t { entry := some entry, uses := x.uses }
    let s := s.bump STQ_CNT.COUNT 0
    let g := s.queueGlade qid
    let counts := (op = 1 || op = 2 || op = 4) && leAt c.bytes 8 2 < 4096
    let n := leAt c.bytes 32 4
    let dirty := fun (s : State) => s.setDirty q (x.vol.num :: (s.dirtyOf q).filter (· != x.vol.num))
    let s := if counts then volStat s g x.vol 2 1 else s
    let s := if op = 3 && status ≠ St.success then s.setDirty q (x.flushed ++ (s.dirtyOf q).filter fun v => !x.flushed.contains v) else s
    let s :=
      if status = St.success || status = St.twinDegraded then
        match op with
        | 1 => volStat (s.bump STQ_CNT.COUNT 1 n) g x.vol 0 n
        | 2 => dirty (volStat (s.bump STQ_CNT.COUNT 2 n) g x.vol 1 n)
        | 3 => s.bump STQ_CNT.COUNT 3
        | 4 => dirty s
        | _ => s
      else
        let s := stqFail s q c status result
        if counts then volStat s g x.vol 3 1 else s
    s.complete qid c status result
  | some c, none => s.complete qid c status result
  | none, _ => s

/-! ### Volume messages (R307) -/

/-- The bytes of a volume message. -/
def volMessage (op fua svol lba nblk req gen seq addr key : Nat) : List Byte :=
  toLe 1 op ++ toLe 1 fua ++ toLe 2 0 ++ toLe 4 svol ++ toLe 8 lba ++ toLe 4 nblk ++ toLe 4 req ++ toLe 2 gen ++ toLe 2 0
    ++ toLe 4 seq ++ toLe 8 addr ++ toLe 4 key ++ toLe 20 0

/-- Send a volume message for a tag: by Saloa SEND, or to a receive queue of this device. A failure is told by `ended`. -/
def sendVolume (s : State) (q t entry : Nat) (v : Vol) (op fua lba nblk : Nat) (slot : Option Nat) : State :=
  let qid := stqQid q
  let i := (s.queue qid).inst
  let x := s.stqTag q t
  let own := Owner.cmd qid entry
  let addr := match slot with
    | some k => 2 ^ 40 * s.devNum + slotAddr s v.glade k
    | none => 0
  let l := volMessage op fua v.svol lba nblk (t + q * 32) (s.genOf i) (x.uses % 2 ^ 32) addr
    (s.rd STQ_GLADE_A.STAGE_KEY v.glade)
  let ftn := s.ftn v.glade
  let s := s.setTag q t { x with sent := x.sent || ftn != 0 }
  if ftn = 0 then { s with ended := s.ended ++ [(own, St.protectionFault, [])] }
  else if v.dev = s.devNum then
    match deliver s (salQid v.target) s.devNum ftn l with
    | some (s, st, _) => { s with ended := s.ended ++ [(own, st, [])] }
    | none => { s with ended := s.ended ++ [(own, St.resourceExhausted, [])] }
  else
    startOp s
      { dev := v.dev, owner := own, kind := Pt.send, flow := .storage q, glade := v.glade, inst := i, ftn := ftn, laddr := 0,
        len := 64, data := l, off := 0, rkey := 0, aux := v.target, opv := 0 }

/-! ### FLUSH and fences (R308, R309) -/

/-- Whether a tag's command is still the one it was and has not completed. -/
def stillRuns (s : State) (q : Nat) (p : Nat × Nat) : Bool :=
  let x := s.stqTag q p.1
  x.uses == p.2 && (match x.entry with
    | some e => (s.queue (stqQid q)).cmds.any (·.entry == e)
    | none => false)

/-- Make durable what a FLUSH covers: one message to each remote volume, and a fence for each device-DRAM volume. Writes that
complete from here on are left for the next FLUSH, and a FLUSH that fails leaves what it covered to the next (R309). -/
def flushStart (s : State) (q t entry : Nat) (x : StqTag) (named : Nat) : State :=
  let vols := (s.dirtyOf q).filter fun v => named == 0xFFFF || v == named
  let remote := vols.filter fun v => !(volOf s v).local_
  let here := vols.filter fun v => (volOf s v).local_
  let s := s.setTag q t
    { x with flushing := true, flushVols := remote, flushed := vols,
             fences := here.map fun v => ((volOf s v).region, fenceSeq s) }
  let s := s.setDirty q ((s.dirtyOf q).filter fun v => !vols.contains v)
  remote.foldl (fun s v => sendVolume s q t entry (volOf s v) 3 0 0 0 none) s

/-- Take a waiting tag as far as it can go: a FLUSH whose covered commands are over, a command whose fences are answered. -/
def stqStep (s : State) (q t : Nat) : State :=
  let x := s.stqTag q t
  match x.entry with
  | none => s
  | some e =>
    match (s.queue (stqQid q)).cmdAt e with
    | none => s
    | some c =>
      if !c.started then s
      else
        let op := leAt c.bytes 0 1
        let s :=
          if op = 3 && !x.flushing && !x.covered.any (stillRuns s q) then flushStart s q t e x (leAt c.bytes 8 2) else s
        let x := s.stqTag q t
        let ends := x.fences.map fun f => fenceStatus s f.1 f.2
        let ready := if op = 3 then x.flushing && x.flushVols.isEmpty else !x.fences.isEmpty
        if ready && ends.all Option.isSome then
          let st :=
            if x.status ≠ St.success then x.status
            else if ends.any (· == some St.twinDegraded) then St.twinDegraded
            else St.success
          let s := s.setTag q t { s.stqTag q t with sent := false }
          stqFinish s q e st (if op ≠ 3 && st = St.success then leAt c.bytes 32 4 else 0)
        else s

/-- Take every waiting tag of a queue as far as it can go. -/
def stqKick (s : State) (q : Nat) : State := (List.range 32).foldl (fun s t => stqStep s q t) s

/-- End a storage command, and let the flushes that waited for it go on. -/
def stqEnd (s : State) (q entry status result : Nat) : State := stqKick (stqFinish s q entry status result) q

/-- Storage commands that wait on fences go on where the fences are answered. -/
def stqFences (s : State) : State :=
  (s.stq.tags.filter fun x => !x.2.fences.isEmpty).foldl (fun s x => stqStep s (x.1 / 32) (x.1 % 32)) s

/-- STQ_SERVICE_TIMEOUT for the message that a tag has sent last (R307, R317). -/
def serviceLost (s : State) (q t status : Nat) : State :=
  let x := s.stqTag q t
  let i := (s.queue (stqQid q)).inst
  let v := if x.flushing then volOf s (x.flushVols.headD 0) else x.vol
  s.raise 0x0E02 (unitId 0x2 (s.queue (stqQid q)).home) (s.gladeOf i) i status (v.dev + 2 ^ 16 * v.num)

/-- A volume message could not be delivered: as for a message without a reply the event is raised, the command ends, with
the transport's status, and its slot is quarantined (R307); a FLUSH keeps its first failure. A code that only transport queues
define never appears on a storage queue (R11): PEER_UNREACHABLE, which a message without a reply gives, stands for it (log entry 16,
DESIGN CHOICE). -/
def stqSendEnded (s : State) (qid entry status : Nat) : State :=
  let q := qidx qid
  if status = St.success then s
  else
    match tagOf s q entry with
    | none => s
    | some t =>
      let status := if status < 0x80 then status else St.peerUnreachable
      let s := serviceLost s q t status
      let x := s.stqTag q t
      if x.flushing then
        let s := s.setTag q t { x with flushVols := [], status := if x.status = 0 then status else x.status }
        stqKick s q
      else stqEnd s q entry status 0

/-- Tell storage commands of their messages that have ended. -/
def stqSettle (s : State) : State :=
  let isMine := fun (e : Owner × Nat × List Byte) =>
    match e.1 with
    | .cmd qid _ => qcls qid == 5
    | _ => false
  let mine := s.ended.filter isMine
  let s := { s with ended := s.ended.filter fun e => !isMine e }
  mine.foldl
    (fun s e =>
      match e.1 with
      | .cmd qid entry => stqSendEnded s qid entry e.2.1
      | _ => s) s

/-! ### Data -/

/-- Data segments of a command: its one buffer, or its segment list, checked against R300. -/
def segments (l : List Byte) (bytes : Nat) (list : List Byte) : Option (List (Nat × Nat)) :=
  if bitOf (leAt l 1 1) 4 then
    let n := leAt l 48 2
    let segs := (List.range n).map fun i => (leAt list (16 * i) 8, leAt list (16 * i + 8) 4)
    let ok := ((List.range n).all fun i => leAt list (16 * i) 8 % 64 == 0 && leAt list (16 * i + 8) 4 % 512 == 0
      && zeroAt list (16 * i + 12) 4) && sumNat (segs.map (·.2)) == bytes
    if ok then some segs else none
  else some [(leAt l 40 8, bytes)]

/-- The segment list of a command and the status of reading it: from device memory, or as the host answers. -/
def listBytes (s : State) (qid : Nat) (l : List Byte) (reply : HostReply) : List Byte × Nat :=
  if !bitOf (leAt l 1 1) 4 then ([], St.success)
  else if bitOf (leAt l 1 1) 5 then
    if s.inGladeRgn (s.queueGlade qid) (leAt l 40 8) (16 * leAt l 48 2) then
      s.gladeRead (s.queueGlade qid) (leAt l 40 8) (16 * leAt l 48 2)
    else ([], St.protectionFault)
  else if !s.hostOn (s.queue qid).inst then ([], St.abortedHostAccessOff)
  else
    match reply with
    | .data b => (b, St.success)
    | r => ([], replyStatus r)

/-- Whether a command's segment list, or a WRITE's data, lies in host memory and waits for a tag (R264). -/
def listWaits (s : State) (qid : Nat) (l : List Byte) : Bool :=
  bitOf (leAt l 1 1) 4 && !bitOf (leAt l 1 1) 5 && !s.instReady (s.queue qid).inst
def dataWaits (s : State) (qid : Nat) (l : List Byte) : Bool := !bitOf (leAt l 1 1) 5 && !s.instReady (s.queue qid).inst

/-- What reading a segment list does: at the port, or to the count of uncorrectable codewords (R92). -/
def listRead (s : State) (qid : Nat) (l : List Byte) (reply : HostReply) : State :=
  if bitOf (leAt l 1 1) 4 && !bitOf (leAt l 1 1) 5 then
    s.instRead (s.queue qid).inst (leAt l 40 8) (16 * leAt l 48 2) reply
  else s.noteStatus (listBytes s qid l reply).2 (leAt l 40 8) (16 * leAt l 48 2)

/-- What reading a WRITE's data does: at the port, or to the count of uncorrectable codewords (R92). -/
def dataRead (s : State) (qid : Nat) (l : List Byte) (segs : List (Nat × Nat)) (reply : HostReply) : State :=
  if bitOf (leAt l 1 1) 5 then
    segs.foldl (fun s g => if s.inGladeRgn (s.queueGlade qid) g.1 g.2 then s.noteRead g.1 g.2 else s) s
  else
    match segs with
    | [] => s
    | g :: rest =>
      let s := s.instRead (s.queue qid).inst g.1 g.2 reply
      if reply.isData then rest.foldl (fun s r => s.instRead (s.queue qid).inst r.1 r.2 reply) s else s

/-- Write read data to a command's segments: the status. -/
def scatter (s : State) (qid : Nat) (dloc : Bool) : List (Nat × Nat) → List Byte → State × Nat
  | [], _ => (s, St.success)
  | (a, n) :: t, l =>
    let d := l.take n
    if d.isEmpty then (s, St.success)
    else if dloc then
      if s.inGladeRgn (s.queueGlade qid) a d.length then
        let w := s.writeMem a d
        if w.2 = St.success then scatter w.1 qid dloc t (l.drop n) else w
      else (s, St.protectionFault)
    else
      let w := s.instWrite (s.queue qid).inst a d
      if w.2 = St.success then scatter w.1 qid dloc t (l.drop n) else w

/-- The parts of a command's segments from a byte on. -/
def segsFrom : List (Nat × Nat) → Nat → List (Nat × Nat)
  | [], _ => []
  | (a, n) :: t, k => if k < n then (a + k, n - k) :: t else segsFrom t (k - n)

/-- The first block of a READ that failed on uncorrectable codewords: its posted writes go out poisoned, with free bytes (R270). Data
that goes to device memory ends before it. -/
def poisonBlock (s : State) (qid : Nat) (l : List Byte) (segs : List (Nat × Nat)) (k bs : Nat) : State :=
  if bitOf (leAt l 1 1) 5 then s
  else
    ((segsFrom segs k).foldl
      (fun (acc : State × Nat) g =>
        let n := min g.2 acc.2
        if n = 0 then acc
        else
          let d := acc.1.freeBytes n
          ((d.2.instWrite (s.queue qid).inst g.1 d.1 true).1, acc.2 - n)) (s, bs)).1

/-- Deliver the first blocks of a READ: the status of the delivery. -/
def deliverRead (s : State) (qid : Nat) (l : List Byte) (segs : List (Nat × Nat)) (d : List Byte) : State × Nat :=
  let dloc := bitOf (leAt l 1 1) 5
  if !dloc && !s.hostOn (s.queue qid).inst then (s, St.abortedHostAccessOff) else scatter s qid dloc segs d

/-- The data of a WRITE from its segments and the status of reading it. -/
def gather (s : State) (qid : Nat) (l : List Byte) (segs : List (Nat × Nat)) (reply : HostReply) : List Byte × Nat :=
  if bitOf (leAt l 1 1) 5 then
    let rs := segs.map fun g =>
      if s.inGladeRgn (s.queueGlade qid) g.1 g.2 then s.gladeRead (s.queueGlade qid) g.1 g.2 else ([], St.protectionFault)
    match rs.find? fun r => r.2 != St.success with
    | some r => r
    | none => (rs.flatMap (·.1), St.success)
  else if !s.hostOn (s.queue qid).inst then ([], St.abortedHostAccessOff)
  else
    match reply with
    | .data b => (bytesAt b 0 (sumNat (segs.map (·.2))), St.success)
    | r => ([], replyStatus r)

/-! ### Checks (R300, R301, R311) -/

/-- The admin opcodes' own fields (R311); bytes that an opcode does not list are zero, as in a set-up command (R8). -/
def adminFieldsOk (l : List Byte) : Bool :=
  match leAt l 0 1 with
  | 0x81 => leAt l 24 1 < 3 && zeroAt l 25 15 && zeroAt l 48 16
  | 0x82 =>
    1 ≤ leAt l 24 1 && leAt l 24 1 ≤ 3 && 4 ≤ leAt l 32 4 && leAt l 32 4 ≤ 4096 && leAt l 32 4 % 4 == 0
      && zeroAt l 25 7 && zeroAt l 36 4 && zeroAt l 48 16
  | 0x83 => (leAt l 24 1 == 1 || leAt l 24 1 == 2) && zeroAt l 25 39
  | 0x84 =>
    ((leAt l 24 1 == 1 && leAt l 48 4 < 65536) || (leAt l 24 1 == 2 && leAt l 48 4 < 2)) && zeroAt l 25 23 && zeroAt l 52 12
  | 0x85 => 4096 ≤ leAt l 36 4 && leAt l 36 4 ≤ 0x100000 && zeroAt l 24 8 && zeroAt l 48 16
  | 0x86 => leAt l 24 1 < 2 && zeroAt l 25 39
  | 0x87 => true
  | 0x88 => true
  | _ => false

/-- Whether a storage command's fields are within their stated values. -/
def stqFieldsOk (s : State) (admin : Bool) (l : List Byte) : Bool :=
  let f := leAt l 1 1
  let op := leAt l 0 1
  let common := zeroAt l 2 2 && zeroAt l 10 2 && (bitOf f 1 || (zeroAt l 12 2 && zeroAt l 16 8))
    && (bitOf f 2 || zeroAt l 14 2)
  let volOk := leAt l 8 2 < 4096
  let bs := if s.flag STQ_VOL_A.BS (leAt l 8 2) then 4096 else 512
  if admin then common && f < 8 && volOk && adminFieldsOk l
  else
    let list := bitOf f 4
    let noData := zeroAt l 40 8 && zeroAt l 48 2 && !list && !bitOf f 5
    common && f < 64 && leAt l 24 8 < 2 ^ 48 && zeroAt l 36 4 && zeroAt l 50 14
      && (match op with
          | 1 | 2 =>
            volOk && 1 ≤ leAt l 32 4 && leAt l 32 4 * bs ≤ 0x100000
              && (if list then 1 ≤ leAt l 48 2 && leAt l 48 2 ≤ 256 && leAt l 40 8 % 16 == 0
                  else zeroAt l 48 2 && leAt l 40 8 % 64 == 0)
          | 3 => (volOk || leAt l 8 2 == 0xFFFF) && !bitOf f 3 && zeroAt l 24 8 && zeroAt l 32 4 && noData
          | 4 => volOk && 1 ≤ leAt l 32 4 && noData
          | _ => false)

/-- What is wrong with the volume of an I/O command, as a status (R301, R303). -/
def volStatus (s : State) (glade : Nat) (l : List Byte) : Nat :=
  let op := leAt l 0 1
  let v := volOf s (leAt l 8 2)
  if op = 3 && leAt l 8 2 = 0xFFFF then St.success
  else if !s.flag STQ_VOL_A.VALID (leAt l 8 2) then Sq.noVolume
  else if v.glade ≠ glade || (op ≠ 3 && v.local_ && rgnClosed s v.region) then St.protectionFault
  else if op ≠ 3 && v.capacity < leAt l 24 8 + leAt l 32 4 then Sq.lbaRange
  else if (op = 2 || op = 4) && v.readOnly then Sq.writeProtect
  else St.success

/-! ### Fetch -/

/-- Whether a storage queue's next command may be fetched (R298): a tag is free, every fetched command has started, and no
activation has stopped fetching. -/
def stqMayFetch (s : State) (qid : Nat) : Bool :=
  let q := s.queue qid
  q.valid && q.waiting != 0
    && !(q.cmds.any (·.entry == q.head) || q.due.any (·.entry == q.head))
    && q.state == .active && !fetchPaused s && q.cmds.all (·.started)
    && (leastBelow 32 fun t => !tagBusy s (qidx qid) t).isSome

/-- A command fetched from a storage queue takes a tag and is checked; a FLUSH notes what it covers (R298, R300, R309). -/
def stqFetched (s : State) (qid : Nat) (l : List Byte) (status : Nat) : State :=
  let qi := qidx qid
  let q := s.queue qid
  let c : Cmd := { bytes := l, entry := q.head, stamp := s.genOf q.inst, started := false, waiting := false }
  match leastBelow 32 fun t => !tagBusy s qi t with
  | none => s
  | some t =>
    let vol :=
      if leAt l 0 1 = 3 then { volOf s (leAt l 8 2 % 4096) with glade := s.gladeOf q.inst } else volOf s (leAt l 8 2 % 4096)
    let covered := (List.range 32).filterMap fun k =>
      let x := s.stqTag qi k
      match x.entry with
      | some e =>
        match q.cmdAt e with
        | some d =>
          let w := leAt d.bytes 0 1 == 2 || leAt d.bytes 0 1 == 4
          if w && (leAt l 8 2 == 0xFFFF || x.vol.num == leAt l 8 2) then some (k, x.uses) else none
        | none => none
      | none => none
    let s := s.setQueue qid { q with head := (q.head + 1) % q.size, cmds := q.cmds ++ [c] }
    let s := s.setTag qi t
      { entry := some c.entry, uses := (s.stqTag qi t).uses + 1, vol := vol,
        covered := if leAt l 0 1 = 3 && !q.kind then covered else [] }
    let s := touchCtx s (.tag qid t)
    let s := s.setQueue qid (s.queue qid)
    if status ≠ St.success then stqEnd s qi c.entry status 0
    else if !stqFieldsOk s q.kind l then stqEnd s qi c.entry St.badDescriptor 0
    else if !preGranted s (s.gladeOf q.inst) l then stqEnd s qi c.entry St.protectionFault 0
    else
      let v := if q.kind then St.success else volStatus s (s.gladeOf q.inst) l
      if v ≠ St.success then stqEnd s qi c.entry v 0 else preWait s qid c

/-- The storage command that may start now, if its opcode is `op`, with its tag. -/
def stqCmd (s : State) (q op : Nat) : Option (Cmd × Nat) :=
  let x := s.queue (stqQid q)
  match x.cmds.find? fun c => !c.started with
  | some c =>
    if leAt c.bytes 0 1 = op && !c.waiting && x.state = .active then (tagOf s q c.entry).map fun t => (c, t) else none
  | none => none

/-- Mark a command started. -/
def stqStarted (s : State) (q : Nat) (c : Cmd) : State := s.setCmd (stqQid q) { c with started := true }

/-- Take a slot for a command to a remote volume (R306): none while no slot is free, which is counted once. -/
def takeSlot (s : State) (q t : Nat) : State × Option Nat :=
  let x := s.stqTag q t
  match freeSlot s x.vol.glade with
  | some k =>
    let h : StqSlot := { slot := k, queue := q, tag := t, uses := x.uses, quarantined := false }
    ((s.setSlots x.vol.glade (s.slotsOf x.vol.glade ++ [h])).setTag q t { x with slot := some k }, some k)
  | none => (if x.waited then s else (s.bump STQ_CNT.COUNT 6).setTag q t { x with waited := true }, none)

/-- Blocks that can be read from device memory before the first uncorrectable one. -/
def goodBlocks (s : State) (v : Vol) (lba n : Nat) : Nat :=
  (leastBelow n fun i => s.memBad (v.addr s (lba + i)) v.bs).getD n

/-- READ reads NBLK blocks to its data buffer (R301, R302, R305 to R307). `list` is the host's answer for its segment
list. -/
def execStqRead (q : Fin 8192) (list : HostReply) (s : State) : Out := outHold s <|
  match stqCmd s q 1 with
  | none => .next s
  | some (c, t) =>
    let qid := stqQid q
    let l := c.bytes
    if listWaits s qid l then .next s else
    let v := (s.stqTag q t).vol
    let lba := leAt l 24 8
    let n := leAt l 32 4
    let r := listBytes s qid l list
    let s := listRead s qid l list
    if r.2 ≠ St.success then .next (stqEnd s q c.entry r.2 0)
    else
      match segments l (n * v.bs) r.1 with
      | none => .next (stqEnd s q c.entry St.badDescriptor 0)
      | some segs =>
        if v.local_ then
          let good := goodBlocks s v lba n
          let d := openBlocks s v lba (s.bytes (v.addr s lba) (good * v.bs))
          let w := deliverRead s qid l segs d
          if w.2 ≠ St.success then .next (stqEnd w.1 q c.entry w.2 0)
          else if good < n then
            let s := poisonBlock (w.1.noteRead (v.addr s (lba + good)) v.bs) qid l segs (good * v.bs) v.bs
            .next (stqEnd s q c.entry St.mediumError good)
          else .next (stqEnd w.1 q c.entry St.success n)
        else if !s.flag STQ_GLADE_A.ENABLE v.glade then .next (stqEnd s q c.entry St.peerUnreachable 0)
        else
          match takeSlot s q t with
          | (s, none) => .next s
          | (s, some k) =>
            let s := stqStarted (s.setTag q t { s.stqTag q t with segs := segs }) q c
            .next (stqSettle (sendVolume s q t c.entry v 1 0 lba n (some k)))

/-- Wait for the fence of a FUA command on a mirrored device-DRAM volume, or end it at once (R308). -/
def stqDurable (s : State) (q t : Nat) (c : Cmd) (v : Vol) (n : Nat) : State :=
  if bitOf (leAt c.bytes 1 1) 3 && s.flag MEM_RGN_A.MIRROR v.region then
    let s := stqStarted (s.setTag q t { s.stqTag q t with fences := [(v.region, fenceSeq s)] }) q c
    stqStep s q t
  else stqEnd s q c.entry St.success n

/-- Write blocks of a device-DRAM volume; each is applied whole. -/
def putBlocks (s : State) (v : Vol) (lba : Nat) (l : List Byte) : State × Nat :=
  (List.range (l.length / v.bs)).foldl
    (fun (a : State × Nat) i =>
      if a.2 ≠ St.success then a
      else a.1.writeMem (v.addr a.1 (lba + i)) (bytesAt l (i * v.bs) v.bs)) (s, St.success)

/-- WRITE writes NBLK blocks from its data buffer (R301, R305 to R308). `list` and `data` are the host's answers for its
segment list and its data. -/
def execStqWrite (q : Fin 8192) (list data : HostReply) (s : State) : Out := outHold s <|
  match stqCmd s q 2 with
  | none => .next s
  | some (c, t) =>
    let qid := stqQid q
    let l := c.bytes
    let v := (s.stqTag q t).vol
    let lba := leAt l 24 8
    let n := leAt l 32 4
    if listWaits s qid l || dataWaits s qid l then .next s else
    let r := listBytes s qid l list
    let s := listRead s qid l list
    if r.2 ≠ St.success then .next (stqEnd s q c.entry r.2 0)
    else
      match segments l (n * v.bs) r.1 with
      | none => .next (stqEnd s q c.entry St.badDescriptor 0)
      | some segs =>
        let d := gather s qid l segs data
        let s := dataRead s qid l segs data
        if d.2 ≠ St.success then .next (stqEnd s q c.entry d.2 0)
        else if v.local_ then
          let w := putBlocks s v lba (sealBlocks s v lba d.1)
          if w.2 ≠ St.success then .next (stqEnd w.1 q c.entry w.2 0) else .next (stqDurable w.1 q t c v n)
        else if !s.flag STQ_GLADE_A.ENABLE v.glade then .next (stqEnd s q c.entry St.peerUnreachable 0)
        else
          match takeSlot s q t with
          | (s, none) => .next s
          | (s, some k) =>
            let w := s.writeMem (slotAddr s v.glade k) (sealBlocks s v lba d.1)
            let s := w.1
            if w.2 ≠ St.success then .next (stqEnd s q c.entry w.2 0) else
            let s := stqStarted (s.setTag q t { s.stqTag q t with segs := segs }) q c
            .next (stqSettle (sendVolume s q t c.entry v 2 (b2n (bitOf (leAt l 1 1) 3)) lba n (some k)))

/-- FLUSH waits for the writes it covers and makes them durable (R309). -/
def execFlush (q : Fin 8192) (s : State) : Out :=
  match stqCmd s q 3 with
  | none => .next s
  | some (c, t) => .next (stqSettle (stqStep (stqStarted s q c) q t))

/-- DEALLOCATE makes blocks read as zeros (R301, R305). -/
def execDeallocate (q : Fin 8192) (s : State) : Out := outHold s <|
  match stqCmd s q 4 with
  | none => .next s
  | some (c, t) =>
    let l := c.bytes
    let v := (s.stqTag q t).vol
    let lba := leAt l 24 8
    let n := leAt l 32 4
    if v.local_ then
      let w := putBlocks s v lba (List.replicate (n * v.bs) 0)
      if w.2 ≠ St.success then .next (stqEnd w.1 q c.entry w.2 0) else .next (stqDurable w.1 q t c v n)
    else if !s.flag STQ_GLADE_A.ENABLE v.glade then .next (stqEnd s q c.entry St.peerUnreachable 0)
    else
      .next (stqSettle (sendVolume (stqStarted s q c) q t c.entry v 4 (b2n (bitOf (leAt l 1 1) 3)) lba n none))

/-! ### Replies and timeouts (R307) -/

/-- Whether a glade's staging takes replies: it is enabled, or messages sent before it was disabled await theirs (R315). -/
def stagingLive (s : State) (g : Nat) : Bool :=
  s.flag STQ_GLADE_A.ENABLE g || s.stq.tags.any fun x => x.2.sent && x.2.vol.glade == g

/-- The glade whose staging takes its replies on a transport queue. -/
def replyGlade (s : State) (t : Nat) : Option Nat :=
  leastBelow 256 fun g => s.rd STQ_GLADE_B.REPLY_Q g == t && stagingLive s g

/-- A service's reply (R307): matched by REQ and SEQ, or discarded; a discarded one still frees the slot kept for it, and
one of an older generation is counted as stale too (R288). -/
def stqReply (s : State) (g : Nat) (m : List Byte) : State :=
  let req := leAt m 20 4
  let t := req % 32
  let q := bitsOf req 5 13
  let seq := leAt m 28 4
  let x := s.stqTag q t
  let qid := stqQid q
  let live := req < 2 ^ 18 && leAt m 0 1 == 0x81 && x.sent && x.uses % 2 ^ 32 == seq && x.vol.glade == g
  let entry := x.entry.getD 0
  match (if live && x.entry.isSome then (s.queue qid).cmdAt entry else none) with
  | none =>
    let s := s.setSlots g ((s.slotsOf g).filter fun k => !(k.queue == q && k.tag == t && k.uses % 2 ^ 32 == seq))
    let s := s.bump STQ_CNT.COUNT 5
    if req < 2 ^ 18 && (s.queue qid).valid && leAt m 24 2 ≠ s.genOf (s.queue qid).inst then s.bump GLD_STALE_CNT.COUNT else s
  | some c =>
    if leAt m 24 2 ≠ s.genOf (s.queue qid).inst then s.bump GLD_STALE_CNT.COUNT
    else
      let st := leAt m 2 1
      let end_ := if st = 0 then St.success else if st = St.mediumError then St.mediumError else Sq.backendFail
      let n := leAt c.bytes 32 4
      let lba := leAt c.bytes 24 8
      if x.flushing then
        let left := match x.flushVols.find? fun v => s.rd STQ_VOL_B.SVOL v == leAt m 4 4 with
          | some v => x.flushVols.erase v
          | none => x.flushVols
        let s := s.setTag q t { x with flushVols := left, status := if x.status = 0 then end_ else x.status }
        stqKick s q
      else
        let s := s.setTag q t { x with sent := false }
        if leAt c.bytes 0 1 = 1 then
          let told := if end_ = St.success then n else if end_ = St.mediumError then min n (leAt m 16 4) else 0
          let a := slotAddr s g (x.slot.getD 0)
          let good := (leastBelow told fun i => s.memBad (a + i * x.vol.bs) x.vol.bs).getD told
          let end_ := if good < told then St.mediumError else end_
          let s := if good < told then s.noteRead (a + good * x.vol.bs) x.vol.bs else s
          let d := openBlocks s x.vol lba (s.bytes a (good * x.vol.bs))
          let w := deliverRead s qid c.bytes x.segs d
          let w := if w.2 = St.success && good < told then
              (poisonBlock w.1 qid c.bytes x.segs (good * x.vol.bs) x.vol.bs, w.2) else w
          if w.2 ≠ St.success then stqEnd w.1 q entry w.2 0
          else if end_ = St.success then stqEnd w.1 q entry end_ n
          else stqEnd w.1 q entry end_ (if end_ = St.mediumError then good else 0)
        else stqEnd s q entry end_ (if end_ = St.success then n else 0)

/-- A message arrives on a glade's REPLY_Q: it goes to the next of the device's own reply buffers, and is a reply. -/
def stqReceive (s : State) (g : Nat) (l : List Byte) : State :=
  let k := Tab.get 0 s.fab.replies g
  let s := { s with fab := { s.fab with replies := Tab.set 0 s.fab.replies g ((k + 1) % 16384) } }
  let m := bytesAt l 0 64
  stqReply (s.write (rgnBase s (s.rd STQ_GLADE_A.STAGE_RGN g) + 64 * k) m) g m

/-- No reply within SVC_TIMEOUT_MS (R307). -/
def execServiceTimeout (q : Fin 8192) (t : Fin 32) (s : State) : Out :=
  let x := s.stqTag q t
  match x.entry with
  | none => .next s
  | some e =>
    if x.sent && ((s.queue (stqQid q)).cmdAt e).isSome then
      .next (stqEnd (serviceLost (s.bump STQ_CNT.COUNT 4) q t St.peerUnreachable) q e St.peerUnreachable 0)
    else .next s

/-- End every fetched command of a storage queue with a status (R314). -/
def stqAbort (s : State) (qid status : Nat) : State :=
  let s := forgetQueue s qid
  ((s.queue qid).cmds.map (·.entry)).foldl (fun s e => stqFinish s (qidx qid) e status 0) s

/-- Storage commands still running DRAIN_MS after the stop complete with ACTIVATION_IN_PROGRESS (R314). -/
def execActivationDrainTimeout (s : State) : Out :=
  if s.rd PWR_ACT.STATE = 3 then
    .next ((s.queues.filter fun q => qcls q.1 == 5).foldl
      (fun s q => (q.2.cmds.map (·.entry)).foldl
        (fun s e =>
          if (match s.fw.commit with
              | some (cq, ce, _) => cq == q.1 && ce == e
              | none => false) then s
          else stqFinish s (qidx q.1) e St.activationInProgress 0) s) s)
  else .next s

/-- The holdoff of an instance's storage messages ends (R311): one message for each vector that waits. -/
def execStqMsixHoldoffExpire (i : Fin 4096) (s : State) : Out :=
  let x := s.stqInst i
  if x.heldVectors.isEmpty then .next s
  else
    let s := s.setStqInst i { x with heldVectors := [], lastMsg := some s.now }
    .next (x.heldVectors.foldl (fun s v => s.msix (s.homePort i) v) s)

/-! ### Volumes' registers (R304, R318) -/

/-- Whether a volume may be put in force (R304). -/
def volOk (s : State) (v : Nat) : Bool :=
  let x := volOf s v
  s.gladeExists x.glade
    && (!x.encrypt || (s.rd SEC_KEY_SLOT.TYPE x.key == 2 && s.rd SEC_KEY_SLOT.GLADE x.key == x.glade))
    && (if x.local_ then
          s.feature 7 && s.flag MEM_RGN_A.VALID x.region && s.rd MEM_RGN_A.GLADE x.region == x.glade
            && x.capacity * x.bs ≤ rgnLen s x.region
        else s.flag STQ_GLADE_A.ENABLE x.glade)
    && 1 ≤ x.capacity

/-- Setting VALID on a volume, with the other fields of STQ_VOL_A written. -/
def execVolumeValidSet (v : Fin 4096) (w : BitVec 64) (s : State) : Out := unlessNoImage s <|
  if s.flag STQ_VOL_A.VALID v then .next s
  else
    let n := w.toNat
    let s := s.wrs v [(STQ_VOL_A.BACKEND, bitsOf n 1 1), (STQ_VOL_A.BS, bitsOf n 2 1), (STQ_VOL_A.READ_ONLY, bitsOf n 3 1),
      (STQ_VOL_A.ENCRYPT, bitsOf n 4 1), (STQ_VOL_A.GLADE, bitsOf n 8 8), (STQ_VOL_A.KEY_SLOT, bitsOf n 16 16),
      (STQ_VOL_A.DEVNUM, bitsOf n 32 16)]
    if volOk s v then .next (s.wr STQ_VOL_A.VALID v 1) else .next (s.wr STQ_STATUS.VOL_REFUSED 0 1)

/-- Clearing VALID on a volume: commands fetched later complete with STQ_NO_VOLUME. -/
def execVolumeValidClear (v : Fin 4096) (s : State) : Out := unlessNoImage s <| .next (s.wr STQ_VOL_A.VALID v 0)

/-- Clear the volumes that a region backs, raising STQ_VOLUME_LOST for each (R304). -/
def loseVolumes (s : State) (region : Nat) : State :=
  (listed s 0x1C10000 32 4096).foldl
    (fun s v =>
      if s.flag STQ_VOL_A.VALID v && s.flag STQ_VOL_A.BACKEND v && (volOf s v).region = region then
        (s.wr STQ_VOL_A.VALID v 0).raise 0x0E03 (unitId 0 0) (s.rd STQ_VOL_A.GLADE v) 0 0 (v + 2 ^ 12 * region)
      else s) s

/-! ### Admin commands (R311, R312) -/

/-- The admin command that may start now, if its opcode is `op`. -/
def adminCmd (s : State) (q op : Nat) : Option Cmd :=
  if (s.queue (stqQid q)).kind then (stqCmd s q op).map (·.1) else none

/-- Write an admin command's data at its DPTR in host memory (R262, R268). -/
def adminData (s : State) (q : Nat) (c : Cmd) (l : List Byte) (result : Nat) : State :=
  let i := (s.queue (stqQid q)).inst
  let w := s.instWrite i (leAt c.bytes 40 8) l
  stqEnd w.1 q c.entry w.2 (if w.2 = St.success then result else 0)

/-- Valid volumes of a glade, rising. -/
def gladeVolumes (s : State) (g : Nat) : List Nat :=
  (listed s 0x1C10000 32 4096).filter fun v => s.flag STQ_VOL_A.VALID v && s.rd STQ_VOL_A.GLADE v == g

/-- A list of bytes padded with zeros to a length. -/
def padTo (n : Nat) (l : List Byte) : List Byte := bytesAt l 0 n

/-- IDENTIFY writes device, volume or volume-list data (R312). -/
def execIdentify (q : Fin 8192) (s : State) : Out :=
  match adminCmd s q 0x81 with
  | none => .next s
  | some c =>
    let g := s.queueGlade (stqQid q)
    let v := leAt c.bytes 8 2
    match leAt c.bytes 24 1 with
    | 0 =>
      .next (adminData s q c (padTo 4096
        (toLe 2 0x4160 ++ toLe 1 0xA1 ++ toLe 1 0
          ++ toLe 4 (65536 * s.rd BOOT_IFVER.DEV_MAJOR + s.rd BOOT_IFVER.DEV_MINOR) ++ toLe 4 1048576 ++ toLe 2 32
          ++ toLe 2 64 ++ toLe 2 (gladeVolumes s g).length)) 0)
    | 1 =>
      let x := volOf s v
      if !s.flag STQ_VOL_A.VALID v then .next (stqEnd s q c.entry Sq.noVolume 0)
      else if x.glade ≠ g then .next (stqEnd s q c.entry St.protectionFault 0)
      else
        .next (adminData s q c (padTo 4096
          (toLe 8 x.capacity ++ toLe 4 x.bs ++ toLe 1 (b2n x.readOnly + 2 * b2n x.encrypt + 4 * b2n x.local_))) 0)
    | _ => .next (adminData s q c (padTo 4096 ((gladeVolumes s g).flatMap (toLe 2))) 0)

/-- An error log entry as 32 bytes (R312). -/
def StqError.bytes (e : StqError) : List Byte :=
  toLe 8 e.time ++ toLe 3 e.qid ++ toLe 1 e.status ++ toLe 4 e.tag ++ toLe 8 e.lba ++ toLe 2 e.volume ++ toLe 1 e.opcode
    ++ toLe 1 0 ++ toLe 4 e.result

/-- The state code of GET_LOG 3: none, downloading, staged, activating (R312). -/
def fwLogState (s : State) : Nat :=
  match s.rd PWR_ACT.STATE with
  | 1 => 2
  | 2 => 2
  | 3 | 4 | 5 | 6 => 3
  | _ => if s.fw.next = 0 then 0 else 1

/-- GET_LOG returns the error log, a volume's statistics, or the firmware log (R312). -/
def execGetLog (q : Fin 8192) (s : State) : Out :=
  match adminCmd s q 0x82 with
  | none => .next s
  | some c =>
    let qid := stqQid q
    let g := s.queueGlade qid
    let n := leAt c.bytes 32 4
    let v := leAt c.bytes 8 2
    match leAt c.bytes 24 1 with
    | 1 =>
      let l := ((s.stqInst (s.queue qid).inst).errors.take 64).flatMap StqError.bytes
      .next (adminData s q c (l.take n) (min n l.length))
    | 2 =>
      if !s.flag STQ_VOL_A.VALID v then .next (stqEnd s q c.entry Sq.noVolume 0)
      else if s.rd STQ_VOL_A.GLADE v ≠ g then .next (stqEnd s q c.entry St.protectionFault 0)
      else
        let l := (Tab.get [0, 0, 0, 0] s.stq.stats (4096 * g + v)).flatMap (toLe 8)
        .next (adminData s q c (l.take n) (min n l.length))
    | _ =>
      let l := toLe 4 (s.rd PWR_ACT_VER.RUN_VERSION) ++ toLe 4 (s.rd PWR_ACT_VER.STAGED_VERSION) ++ toLe 1 (fwLogState s)
        ++ toLe 3 0
      .next (adminData s q c (l.take n) (min n l.length))

/-- The value of an instance's feature (R311). -/
def featureValue (x : StqInst) (fid : Nat) : Nat := if fid = 1 then x.holdoff else b2n x.raise

/-- GET_FEATURE returns a feature's value. -/
def execGetFeature (q : Fin 8192) (s : State) : Out :=
  match adminCmd s q 0x83 with
  | none => .next s
  | some c =>
    .next (stqEnd s q c.entry St.success (featureValue (s.stqInst (s.queue (stqQid q)).inst) (leAt c.bytes 24 1)))

/-- SET_FEATURE sets a feature's value, and returns the value in force. -/
def execSetFeature (q : Fin 8192) (s : State) : Out :=
  match adminCmd s q 0x84 with
  | none => .next s
  | some c =>
    let i := (s.queue (stqQid q)).inst
    let x := s.stqInst i
    let v := leAt c.bytes 48 4
    let x := if leAt c.bytes 24 1 = 1 then { x with holdoff := v } else { x with raise := v != 0 }
    .next (stqEnd (s.setStqInst i x) q c.entry St.success (featureValue x (leAt c.bytes 24 1)))

end Sys2Proof.Machine
end

