-- ==== Sys2Proof/Machine/GrowthRings.lean ====
section
/-! DEFINITION. Growth rings: checkpoint and restore (R345 to R369). Choices and readings of the model: log entry 17. -/
namespace Sys2Proof.Machine

open Sys2Proof

/-- Status codes of checkpoint queues (R350). -/
def Ck.stepMissed : Nat := 0x80
def Ck.abandoned : Nat := 0x81
def Ck.noRing : Nat := 0x82
def Ck.areaSmall : Nat := 0x83
def Ck.areaRange : Nat := 0x84

/-- States of a ring (R359). -/
def Rs.armed : Nat := 1
def Rs.capturing : Nat := 2
def Rs.staging : Nat := 3
def Rs.staged : Nat := 4
def Rs.draining : Nat := 5
def Rs.sealed : Nat := 6
def Rs.abandoned : Nat := 7

/-- The queue identifier of checkpoint queue `q` (R347). -/
def ckpQid (q : Nat) : Nat := mkQid 6 q

/-- The state of a ring. -/
def ringState (s : State) (ri : Nat) : Nat := s.rd CKP_RING_A.STATE ri

/-- Data shards per stripe (R346). -/
def ringK (s : State) (ri : Nat) : Nat := ringN s ri - ringP s ri

/-! ### Ring groups (R346) -/

/-- Whether a group's fields allow VALID. -/
def groupOk (s : State) (g : Nat) : Bool :=
  let glade := s.rd CKP_GRP_A.GLADE g
  let q := ckpQid (s.rd CKP_GRP_A.QUEUE g)
  let n := s.rd CKP_GRP_A.MEMBERS g
  let p := s.rd CKP_GRP_A.PARITY g
  let self := s.rd CKP_GRP_A.SELF g
  let rgn := s.rd CKP_GRP_A.RESERVE g
  let slot := s.rd CKP_GRP_A.SEAL_SLOT g
  s.gladeExists glade && s.queueExists q && s.queueGlade q == glade
    && s.flag MEM_RGN_A.VALID rgn && s.rd MEM_RGN_A.GLADE rgn == glade
    && decide (0x4000000 + 0x100000 * s.rd CKP_GRP_B.PUSH_MIB g ≤ rgnLen s rgn)
    && decide (1 ≤ slot) && decide (2 ≤ n) && decide (n ≤ 32) && (p == 1 || p == 2) && decide (p + 1 ≤ n) && decide (self < n)
    && s.rd CKP_MEMBER.DEVNUM (32 * g + self) == s.devNum

/-- A write to CKP_GRP_A: while VALID is 1 only VALID can change; setting it is checked. -/
def ckpGrpWrite (s : State) (g v : Nat) : State :=
  let on := s.flag CKP_GRP_A.VALID g
  let s :=
    if on then s
    else s.wrs g [(CKP_GRP_A.GLADE, bitsOf v 8 8), (CKP_GRP_A.QUEUE, bitsOf v 16 8), (CKP_GRP_A.MEMBERS, bitsOf v 24 6),
      (CKP_GRP_A.PARITY, bitsOf v 30 2), (CKP_GRP_A.SELF, bitsOf v 32 5), (CKP_GRP_A.RESERVE, bitsOf v 40 10),
      (CKP_GRP_A.SEAL_SLOT, bitsOf v 50 4)]
  if bitOf v 0 then
    if on then s
    else if groupOk s g then s.wr CKP_GRP_A.VALID g 1
    else s.wr CKP_STATUS.GRP_REFUSED 0 1
  else s.wr CKP_GRP_A.VALID g 0

/-- A write of CKP_GRP_A with VALID. -/
def execRingGroupValidSet (g : Fin 16) (v : BitVec 64) (s : State) : Out := unlessNoImage s <| .next (ckpGrpWrite s g v.toNat)

/-! ### Commands (R347 to R349) -/

/-- Whether the fields of a checkpoint command are within their stated values. -/
def ckpFieldsOk (l : List Byte) : Bool :=
  let f := leAt l 1 1
  decide (f < 8) && decide (leAt l 2 1 < 16) && zeroAt l 3 1 && zeroAt l 8 4
    && (bitOf f 1 || (zeroAt l 12 2 && zeroAt l 16 8)) && (bitOf f 2 || zeroAt l 14 2)
    && (match leAt l 0 1 with
        | 1 => decide (leAt l 24 1 ≤ 1) && zeroAt l 25 1 && decide (1 ≤ leAt l 30 1) && decide (leAt l 30 1 ≤ 64)
            && zeroAt l 31 1 && leAt l 32 8 % 64 == 0
            && (if leAt l 24 1 = 0 then zeroAt l 48 8 else zeroAt l 40 8)
        | 2 => zeroAt l 34 6 && zeroAt l 56 8
        | 3 => decide (1 ≤ leAt l 24 1) && decide (leAt l 24 1 ≤ 4) && decide (1 ≤ leAt l 25 1) && decide (leAt l 25 1 ≤ 64)
            && zeroAt l 26 6 && zeroAt l 34 6
        | 4 => zeroAt l 32 32
        | _ => false)

/-- Whether a checkpoint queue's next command may be fetched: at most 4 are in flight, started in ring order. -/
def ckpMayFetch (s : State) (qid : Nat) : Bool :=
  let q := s.queue qid
  q.valid && q.waiting != 0
    && (q.state == .resetting
      || (q.state == .active && !fetchPaused s && q.cmds.all (·.started) && decide (q.cmds.length < 4)))

/-- A command fetched from a checkpoint queue. -/
def ckpFetched (s : State) (qid : Nat) (l : List Byte) (status : Nat) : State :=
  let q := s.queue qid
  let g := leAt l 2 1
  let c : Cmd := { bytes := l, entry := q.head, stamp := s.genOf q.inst, started := false, waiting := false }
  let s := s.setQueue qid { q with head := (q.head + 1) % q.size, cmds := q.cmds ++ [c] }
  if q.state ≠ .active then s.complete qid c q.abort 0
  else if status ≠ St.success then s.complete qid c status 0
  else if !ckpFieldsOk l || !s.flag CKP_GRP_A.VALID g || s.rd CKP_GRP_A.QUEUE g ≠ qidx qid then
    s.complete qid c St.badDescriptor 0
  else if !preGranted s (s.gladeOf q.inst) l then s.complete qid c St.protectionFault 0
  else preWait s qid c

/-- The command of a checkpoint queue that may start now, if its opcode is `op`. -/
def ckpCmd (s : State) (q op : Nat) : Option Cmd :=
  match (s.queue (ckpQid q)).cmds.find? fun c => !c.started with
  | some c => if leAt c.bytes 0 1 = op && !c.waiting then some c else none
  | none => none

/-! ### Capture items (R351) -/

/-- A capture item from its 32 bytes. -/
def itemOf (l : List Byte) : CkpItem :=
  let f := leAt l 1 1
  { kind := leAt l 0 1, port := b2n (bitOf f 0), usePasid := bitOf f 1, doneEn := bitOf f 2, doneCtr := leAt l 2 2,
    id := leAt l 4 4, addr := leAt l 8 8, len := leAt l 16 8, pasid := leAt l 24 4, captured := false, atTrigger := 0 }

/-- The 32 bytes of a capture item. -/
def CkpItem.bytes (i : CkpItem) : List Byte :=
  toLe 1 i.kind ++ toLe 1 (i.port + 2 * b2n i.usePasid + 4 * b2n i.doneEn) ++ toLe 2 i.doneCtr ++ toLe 4 i.id
    ++ toLe 8 i.addr ++ toLe 8 i.len ++ toLe 4 i.pasid ++ toLe 4 0

/-- Whether the fields of an item are within their stated values. -/
def itemFieldsOk (s : State) (g : Nat) (l : List Byte) : Bool :=
  let i := itemOf l
  decide (leAt l 1 1 < 8) && zeroAt l 28 4 && decide (1 ≤ i.len) && decide (i.len ≤ 2 ^ 36)
    && (if i.usePasid then decide (i.pasid < 2 ^ 20) else i.pasid == 0)
    && (match i.kind with
        | 1 => i.addr % 65536 == 0 && i.len % 65536 == 0
        | 2 => i.addr % 4096 == 0 && i.len % 4096 == 0
        | 3 => i.addr % 4096 == 0 && i.len % 4096 == 0 && i.doneEn
            && decide (i.addr + i.len ≤ 0x100000 * s.rd CKP_GRP_B.PUSH_MIB g)
        | _ => false)

/-- Whether a kind 2 item may be reached through its port (R355). -/
def pullAllowed (s : State) (glade : Nat) (i : CkpItem) : Bool :=
  if s.flag HEP_PORT_STAT.ROLE i.port then !i.usePasid
  else
    i.usePasid && (List.range 4096).any fun k =>
      k != 0 && s.flag GLD_INST.VALID k && s.rd GLD_INST.GLADE k == glade && s.rd GLD_INST.PORT k == i.port
        && s.flag GLD_INST.PASID_EN k && s.rd GLD_INST.PASID k == i.pasid

/-- Whether an item may be named by a glade at all: its region, its port, its counter (R349, R351, R355). -/
def itemAllowed (s : State) (glade : Nat) (i : CkpItem) : Bool :=
  (!i.doneEn || s.ctrGranted i.doneCtr glade)
    && (match i.kind with
        | 1 => s.inGladeRgn glade i.addr i.len
        | 2 => pullAllowed s glade i
        | _ => true)

/-- Whether a kind 1 item overlaps one of another ring still capturing on this device (R354). -/
def overlapsCapture (s : State) (i : CkpItem) : Bool :=
  i.kind == 1 && s.rings.any fun r =>
    (ringState s r.1 == Rs.armed || ringState s r.1 == Rs.capturing)
      && r.2.items.any fun j => j.kind == 1 && decide (i.addr < j.addr + j.len) && decide (j.addr < i.addr + i.len)

/-- The items of a list in device memory, or the status of reading and checking them. -/
def readItems (s : State) (g a n : Nat) : List CkpItem × Nat :=
  let glade := s.rd CKP_GRP_A.GLADE g
  if !s.inGladeRgn glade a (32 * n) then ([], St.protectionFault)
  else
    let r := s.gladeRead glade a (32 * n)
    if r.2 ≠ St.success then ([], r.2)
    else
      let raw := (List.range n).map fun k => bytesAt r.1 (32 * k) 32
      let items := raw.map itemOf
      if !raw.all (itemFieldsOk s g) then ([], St.badDescriptor)
      else if !items.all (itemAllowed s glade) then ([], St.protectionFault)
      else (items, St.success)

/-! ### The step of a ring (R352) -/

/-- The signed difference of a counter and a step. -/
def stepDiff (ctr step : Nat) : Int := signedOf 64 (2 ^ 64 + ctr - step % 2 ^ 64)

/-! ### Staging (R357, R358) -/

/-- The number of stripes of owners below `o`. -/
def stripesBelow (x : CkpRing) (o : Nat) : Nat := sumNat ((List.range o).map fun k => Tab.get 0 x.counts k)

/-- Every shard this member is to hold is in place: the other members are told (R358). -/
def checkPlaced (s : State) (ri : Nat) : State :=
  let x := s.ring ri
  let n := ringN s ri
  let self := ringSelf s ri
  if x.deduped && !x.placed.contains self && (List.range n).all (fun k => (Tab.find x.counts k).isSome)
      && x.shards.length = stripesBelow x n then
    tellAll (s.setRing ri { x with placed := x.placed ++ [self] }) ri .placed
  else s

/-- Begin an operation of a ring in its checkpoint queue's flow (R243, R358): `l` are its bytes, and `out` is what they carry. What this
device serves itself crosses no port. The place written to in a member's reserve is no interface (R346): a free address (log
entry 17). -/
def ringOp (s : State) (ri tag dev kind key aux : Nat) (l : List Byte) (out : Output) : State :=
  let g := ri / 2
  let glade := s.rd CKP_GRP_A.GLADE g
  let q := s.rd CKP_GRP_A.QUEUE g
  if dev = s.devNum then s.emit out
  else
    let a := s.freeWord
    startOp a.2
      { dev := dev, owner := .ring ri tag, kind := kind, flow := .ckp q, glade := glade, inst := (s.queue (mkQid 6 q)).inst,
        ftn := s.ftn glade, laddr := 0, len := l.length, data := l, off := a.1.toNat % 2 ^ 40, rkey := key, aux := aux, opv := 0,
        out := some out }

/-- Send bytes of a ring to another member, by WRITE under the key of the group's member table (R346, R358). -/
def tellData (s : State) (ri dest : Nat) (l : List Byte) (m : CkpMsg) : State :=
  let k := 32 * (ri / 2) + dest
  ringOp s ri dest (s.rd CKP_MEMBER.DEVNUM k) Pt.write (s.rd CKP_MEMBER.RKEY k) 0 l (.member (ri / 2) dest (ringStep s ri) m)

/-- Place a shard of a stripe of an owner in the reserve; where the reserve takes no write the ring is abandoned (R366). -/
def placeShard (s : State) (ri owner stripe : Nat) (l : List Byte) : State :=
  let x := s.ring ri
  if x.shards.contains (owner, stripe) then s
  else
    let w := s.writeMem (ringBlock s ri (x.caps + x.shards.length)) (bytesAt l 0 65536)
    if w.2 = St.protectionFault || w.2 = St.peerUnreachable then abandonRing w.1 ri w.2
    else
      let x := w.1.ring ri
      checkPlaced (w.1.setRing ri { x with shards := x.shards ++ [(owner, stripe)] }) ri

/-- The shards of a stripe: its data shards, P, and Q when there are two parity shards (R358). -/
def stripeShards (k p : Nat) (data : List (List Byte)) : List (List Byte) :=
  let d := (List.range k).map fun j => data.getD j (List.replicate 65536 0)
  let par := d.foldl gfAdd (List.replicate 65536 0)
  let q := ((List.range k).zip d).foldl (fun acc x => gfAdd acc (gfScale (gfPow2 x.1) x.2)) (List.replicate 65536 0)
  d ++ (if p = 2 then [par, q] else [par])

/-- Stripe a full set of winners: compute the parity, note the hashes and send every shard to its holder (R358). -/
def sendStripe (s : State) (ri t : Nat) : State :=
  let x := s.ring ri
  let n := ringN s ri
  let k := ringK s ri
  let self := ringSelf s ri
  let pos := (List.range k).map (t * k + ·)
  let have_ := pos.filter (· < x.owned.length)
  if have_.isEmpty || !(have_.all fun i => (Tab.find x.got i).isSome) then s
  else
    let shards := stripeShards k (ringP s ri) (have_.map fun i => Tab.get [] x.got i)
    let got := x.got.filter fun e => !pos.contains e.1
    let s := s.setRing ri { x with got := got, shardHash := Tab.put x.shardHash t (shards.map Config.sha512t256) }
    ((List.range n).zip shards).foldl
      (fun s e =>
        let holder := (self + 1 + t + e.1) % max n 1
        if holder = self then placeShard s ri self t e.2
        else (tellData s ri holder e.2 (.shard t e.1 e.2)).bump CKP_CNT.COUNT 3) s

/-- The bytes of a winner have come to its owner. -/
def gotWinner (s : State) (ri member item granule : Nat) (l : List Byte) : State :=
  let x := s.ring ri
  match (List.range x.owned.length).find? fun i => x.owned[i]? == some (member, item, granule) with
  | some i =>
    let s := s.setRing ri { x with got := Tab.put x.got i (bytesAt l 0 65536) }
    sendStripe s ri (i / max (ringK s ri) 1)
  | none => s

/-- The captured bytes of a granule of this member: those of a pushed item lie in the push area. -/
def capturedBytes (s : State) (ri item granule : Nat) : List Byte :=
  match (s.ring ri).items[item]? with
  | some i =>
    if i.kind = 3 then
      bytesAt (s.bytes (pushBase s ri + i.addr + 65536 * granule) (min 65536 (i.len - 65536 * granule))) 0 65536
    else s.bytes (ringBlock s ri (granulePlace (s.ring ri).items item granule)) 65536
  | none => []

/-- A granule of this member learns its reference; a winner's bytes go to its owner. -/
def noteRef (s : State) (ri : Nat) (r : CkpRef) (winner : Bool) : State :=
  let x := s.ring ri
  let s := s.setRing ri { x with refs := x.refs ++ [r] }
  if winner then
    let l := capturedBytes s ri r.item r.granule
    if r.owner = ringSelf s ri then gotWinner s ri r.owner r.item r.granule l
    else tellData s ri r.owner l (.granule r.item r.granule l)
  else s

/-- Whether a hash comes before another among equals: the lowest member, then the lowest granule (R357). -/
def hashWins (a b : CkpHash) : Bool :=
  decide (a.member < b.member)
    || (a.member == b.member && (decide (a.item < b.item) || (a.item == b.item && decide (a.granule ≤ b.granule))))

/-- The order of winners: item, then granule (R358); members break ties. -/
def winnerBefore (a b : CkpHash) : Bool :=
  decide (a.item < b.item)
    || (a.item == b.item && (decide (a.granule < b.granule) || (a.granule == b.granule && decide (a.member ≤ b.member))))

/-- Insert a winner in order. -/
def insertWinner (h : CkpHash) : List CkpHash → List CkpHash
  | [] => [h]
  | x :: t => if winnerBefore h x then h :: x :: t else x :: insertWinner h t

/-- The winners among hashes, in order. -/
def winnersOf (l : List CkpHash) : List CkpHash :=
  (l.filter fun h => l.all fun o => o.hash != h.hash || hashWins h o).foldr insertWinner []

/-- Deduplication ends (R357): winners are chosen, stripe counts are told, and every granule learns its reference. -/
def dedupEnd (s : State) (ri : Nat) : State :=
  let x := s.ring ri
  let k := max (ringK s ri) 1
  let self := ringSelf s ri
  let w := winnersOf x.seen
  let stripes := ceilDiv w.length k
  let s := s.setRing ri
    { x with deduped := true, owned := w.map fun h => (h.member, h.item, h.granule), counts := Tab.put x.counts self stripes }
  let s := s.bump CKP_CNT.COUNT 2 (x.seen.length - w.length)
  let s := tellAll s ri (.stripes stripes)
  let s := x.seen.foldl
    (fun s h =>
      match (List.range w.length).find? fun i => (w[i]?).map (·.hash) == some h.hash with
      | some i =>
        let win := w[i]? == some h
        if h.member = self then
          noteRef s ri { item := h.item, granule := h.granule, owner := self, shard := i % k, stripe := i / k } win
        else tell s ri h.member (.reference h.item h.granule self (i % k) (i / k) win)
      | none => s) s
  checkPlaced s ri

/-! ### Drain (R360 to R363) -/

/-- The reference entry of a granule (R362): none known reads as zero. -/
def refOf (x : CkpRing) (item granule : Nat) : Nat :=
  match x.refs.find? fun r => r.item = item && r.granule = granule with
  | some r => r.owner + r.shard * 2 ^ 5 + 2 ^ 10 * (r.stripe % 2 ^ 32)
  | none => 0

/-- The granules of a list of items in item order: item and granule. -/
def granuleList (items : List CkpItem) : List (Nat × Nat) :=
  ((List.range items.length).zip items).flatMap fun p =>
    (List.range p.2.granules).map fun g => (p.1, g)

/-- This member's manifest part (R362). -/
def memberPart (s : State) (ri : Nat) : List Byte :=
  let x := s.ring ri
  let gs := granuleList x.items
  let hashAt := fun (p : Nat × Nat) =>
    match x.hashes.find? fun h => h.item = p.1 && h.granule = p.2 with
    | some h => bytesAt h.hash 0 32
    | none => List.replicate 32 0
  [0x47, 0x52, 0x4D, 0x50] ++ toLe 2 1 ++ toLe 1 (ringSelf s ri) ++ toLe 1 0 ++ toLe 4 (s.rd CKP_GRP_B.JOB (ri / 2))
    ++ toLe 4 x.items.length ++ toLe 8 (ringStep s ri) ++ toLe 4 (Tab.get 0 x.counts (ringSelf s ri)) ++ toLe 4 0
    ++ toLe 8 gs.length ++ List.replicate 24 0 ++ x.items.flatMap CkpItem.bytes
    ++ gs.flatMap (fun p => hashAt p ++ toLe 8 (refOf x p.1 p.2))
    ++ (List.range (Tab.get 0 x.counts (ringSelf s ri))).flatMap fun t =>
      (List.range (ringN s ri)).flatMap fun j => bytesAt ((Tab.get [] x.shardHash t).getD j []) 0 32

/-- A length padded to 4 KiB. -/
def pad4k (n : Nat) : Nat := 4096 * ceilDiv n 4096

/-- The length of a region of an area of `a` bytes (R360). -/
def regionLen (a n : Nat) : Nat := 65536 * ((a / 65536 - 1) / n)

/-- The members whose parts region `m` holds, in order. -/
def partOrder (n p m : Nat) : List Nat := (List.range (p + 1)).map fun i => (m + n - i % n) % n

/-- The tag of a ring's operation that carries blocks to its volume; a member's number is the tag of what it is sent. -/
def volTag : Nat := 32

/-- Send a FUA WRITE of a ring to the service of a remote volume (R307, R360): at most 1 MiB, the length of a slot. R307 gives a
checkpoint queue no REQ and no slot, so those fields are free (log entry 17). -/
def sendBlocks (s : State) (ri : Nat) (v : Vol) (lba : Nat) (l : List Byte) : State :=
  let r := s.freeBytes 16
  let q := mkQid 6 (s.rd CKP_GRP_A.QUEUE (ri / 2))
  let m := volMessage 2 1 v.svol lba (l.length / v.bs) (leAt r.1 0 4) (s.genOf (s.queue q).inst) (leAt r.1 4 4) (leAt r.1 8 8)
    (s.rd STQ_GLADE_A.STAGE_KEY v.glade)
  ringOp r.2 ri volTag v.dev Pt.send 0 v.target m (.volume v.num lba l)

/-- Write bytes of a ring at a byte offset of a volume: applied to a device-DRAM volume, and sent to the service of a remote one.
The answer is a status. -/
def volumeWrite (s : State) (ri : Nat) (v : Vol) (off : Nat) (l : List Byte) : State × Nat :=
  let lba := off / v.bs
  let l := sealBlocks s v lba l
  if v.local_ then s.writeMem (v.addr s lba) l
  else
    ((pieces 1048576 l.length).foldl (fun s p => sendBlocks s ri v (lba + p.1 / v.bs) ((l.drop p.1).take p.2)) s, St.success)

/-- End a DRAIN of this member: the ring returns to STAGED with a failure's status (R359). -/
def failDrain (s : State) (ri status : Nat) : State :=
  let x := s.ring ri
  if ringState s ri = Rs.draining then
    let s := s.setRing ri { x with drain := none, durable := [], parts := [] }
    endRingCmd (s.wr CKP_RING_A.STATE ri Rs.staged) (x.drain.map fun d => (d.qid, d.entry)) status 0
  else s

/-- Write this member's region: every shard at its rank, then the copies of the parts. The answer is a status. -/
def writeRegion (s : State) (ri : Nat) (d : CkpDrain) : State × Nat :=
  let x := s.ring ri
  let v := volOf s d.volume
  let n := ringN s ri
  let self := ringSelf s ri
  let at_ := 65536 + d.area * v.bs + self * regionLen (d.ablks * v.bs) n
  let r := ((List.range x.shards.length).zip x.shards).foldl
    (fun (acc : State × Nat) e =>
      if acc.2 ≠ St.success then acc
      else
        let a := ringBlock acc.1 ri (x.caps + e.1)
        if acc.1.memBad a 65536 then (acc.1.noteRead a 65536, St.mediumError)
        else
          let w := volumeWrite acc.1 ri v (at_ + 65536 * (stripesBelow x e.2.1 + e.2.2)) (acc.1.bytes a 65536)
          ((w.1.bump CKP_CNT.COUNT 4).meterAdd (s.rd CKP_GRP_A.GLADE (ri / 2)) 10 65536, w.2)) (s, St.success)
  let start := at_ + 65536 * stripesBelow x n
  ((partOrder n (ringP s ri) self).foldl
    (fun (acc : (State × Nat) × Nat) m =>
      let l := (Tab.get (0, []) x.parts m).2
      if acc.1.2 ≠ St.success || l.isEmpty then acc
      else (volumeWrite acc.1.1 ri v acc.2 (bytesAt l 0 (pad4k l.length)), acc.2 + pad4k l.length)) (r, start)).1

/-- Go on with a drain once the parts this member's region holds have come (R360). -/
def drainStep (s : State) (ri : Nat) : State :=
  let x := s.ring ri
  match x.drain with
  | none => s
  | some d =>
    let n := ringN s ri
    let self := ringSelf s ri
    let order := (partOrder n (ringP s ri) self).filter fun m => !x.absent.contains m
    if x.durable.contains self || fetchPaused s || !(order.all fun m => (Tab.find x.parts m).isSome) then s
    else
      let v := volOf s d.volume
      let need := 65536 * stripesBelow x n + sumNat (order.map fun m => pad4k (Tab.get (0, []) x.parts m).2.length)
      if regionLen (d.ablks * v.bs) n < need then
        failDrain (tellAll s ri (.drainFailed Ck.areaSmall)) ri Ck.areaSmall
      else
        let w := writeRegion s ri d
        if w.2 ≠ St.success then failDrain w.1 ri w.2
        else if v.local_ then
          let x := w.1.ring ri
          tellAll (w.1.setRing ri { x with durable := x.durable ++ [self] }) ri .durable
        else w.1

/-- The ring is SEALED (R363): the DRAIN completes, and CKP_SEALED is raised. -/
def ringSealed (s : State) (ri : Nat) : State :=
  let d := (s.ring ri).drain
  let s := (s.setRing ri {}).wr CKP_RING_A.STATE ri Rs.sealed
  let s := endRingCmd s (d.map fun d => (d.qid, d.entry)) St.success 0
  ckpRaise s (ri / 2) 0x1004 0 (ringStep s ri)

/-- The root before its seal: bytes 0 to 4,055 (R361). -/
def rootBody (s : State) (ri : Nat) (d : CkpDrain) : List Byte :=
  let x := s.ring ri
  let g := ri / 2
  let n := ringN s ri
  let member := fun m =>
    let part := (Tab.get (0, []) x.parts m).2
    toLe 2 (s.rd CKP_MEMBER.DEVNUM (32 * g + m)) ++ toLe 1 (b2n (x.durable.contains m)) ++ toLe 1 0
      ++ toLe 4 (Tab.get 0 x.counts m) ++ toLe 4 (pad4k part.length / 4096) ++ toLe 4 0
      ++ (if part.isEmpty then List.replicate 32 0 else bytesAt (Config.sha512t256 (bytesAt part 0 (pad4k part.length))) 0 32)
  bytesAt ([0x47, 0x52, 0x52, 0x54] ++ toLe 2 1 ++ toLe 1 n ++ toLe 1 (ringP s ri) ++ toLe 4 (s.rd CKP_GRP_B.JOB g) ++ toLe 4 0
    ++ toLe 8 (ringStep s ri) ++ toLe 8 (d.ablks * (volOf s d.volume).bs) ++ List.replicate 32 0
    ++ (List.range n).flatMap member) 0 4056

/-- The seal of a root under the group's seal slot (R337, R361): the counter and the tag. -/
def rootTag (s : State) (g ctr : Nat) (body : List Byte) : List Byte :=
  bytesAt (Config.cmac (Tab.get [] s.sec.sealKeys (s.rd CKP_GRP_A.SEAL_SLOT g)) (toLe 8 ctr ++ body)) 0 16

/-- What the firmware's use of the seal engine for a root leaves in its registers (R336, R337, R363): the counter and the tag,
a token of its own, which is free (log entry 17, safe), and the lock released. -/
def sealUsed (s : State) (slot ctr : Nat) (tag : List Byte) : State :=
  let r := s.freeBytes 2
  let s := r.2.setWords SEC_SEAL_TAG.VALUE 0 2 tag
  sealRelease (s.wrs 0 [(SEC_SEAL_CTR.VALUE, ctr), (SEC_SEAL_CTRL.SLOT, slot), (SEC_SEAL_CTRL.MODE, 1), (SEC_SEAL_CTRL.MORE, 0),
    (SEC_SEAL_CTRL.LEN, 4056), (SEC_SEAL_CTRL.TOKEN, leAt r.1 0 2), (SEC_SEAL_CTRL.STATUS, 0x02)])

/-- The root writer builds, seals and writes the root (R363). The root of a remote volume is durable once its service has answered,
which this member's own write path then tells. -/
def writeRoot (s : State) (ri : Nat) (d : CkpDrain) : State :=
  let g := ri / 2
  let slot := s.rd CKP_GRP_A.SEAL_SLOT g
  let c := s.rd SEC_SEAL_SLOTCTR.VALUE slot
  if (Tab.get [] s.sec.sealKeys slot).isEmpty || c = 0xFFFFFFFFFFFFFFFF then failDrain s ri St.integrityFail
  else
    let body := rootBody s ri d
    let s := s.wr SEC_SEAL_SLOTCTR.VALUE slot (c + 1)
    let root := body ++ toLe 8 (c + 1) ++ rootTag s g (c + 1) body ++ List.replicate 16 0
    let v := volOf s d.volume
    let w := volumeWrite s ri v (d.area * v.bs) root
    let s := sealUsed w.1 slot (c + 1) (rootTag w.1 g (c + 1) body)
    if w.2 ≠ St.success then failDrain s ri w.2
    else if v.local_ then ringSealed (tellAll s ri .sealed) ri
    else s.setRing ri { s.ring ri with drain := (s.ring ri).drain.map fun d => { d with rooted := true } }

/-! ### Messages between members -/

/-- A member can no longer be reached (R366). -/
def memberLost (s : State) (ri m : Nat) : State :=
  let x := s.ring ri
  let st := ringState s ri
  let told := tellAll s ri (.abandoned St.peerUnreachable)
  if st = Rs.armed || st = Rs.capturing || st = Rs.staging then dropRing told ri m St.peerUnreachable St.peerUnreachable
  else if (st = Rs.staged || st = Rs.draining) && !x.absent.contains m then
    if ringP s ri < x.absent.length + 1 then dropRing told ri m St.peerUnreachable St.peerUnreachable
    else drainStep (s.setRing ri { x with absent := x.absent ++ [m] }) ri
  else s

/-- Tell the rings of their operations that have ended: a member that one could not be carried to is lost (R366), and a volume that
one could not be carried to fails the drain (R359). -/
def ckpSettle (s : State) : State :=
  let mine := fun (e : Owner × Nat × List Byte) => match e.1 with
    | .ring .. => true
    | _ => false
  (s.ended.filter mine).foldl
    (fun s e => match e.1 with
      | .ring ri tag =>
        if e.2.1 = St.success then s else if tag = volTag then failDrain s ri e.2.1 else memberLost s ri tag
      | _ => s) { s with ended := s.ended.filter fun e => !mine e }

/-- What a message about a ring whose step is known does. -/
def ringMessage (s : State) (ri m : Nat) (msg : CkpMsg) : State :=
  let x := s.ring ri
  let st := ringState s ri
  match msg with
  | .step => s
  | .vote _ => s
  | .captured => if x.captured.contains m then s else ringStaging (s.setRing ri { x with captured := x.captured ++ [m] }) ri
  | .hash i g h => noteSeen s ri { member := m, item := i, granule := g, hash := h }
  | .reference i g o j t w => noteRef s ri { item := i, granule := g, owner := o, shard := j, stripe := t } w
  | .granule i g l => gotWinner s ri m i g l
  | .stripes c => checkPlaced (s.setRing ri { x with counts := Tab.put x.counts m c }) ri
  | .shard t _ l => placeShard s ri m t l
  | .placed => if x.placed.contains m then s else s.setRing ri { x with placed := x.placed ++ [m] }
  | .part c l => drainStep (s.setRing ri { x with parts := Tab.put x.parts m (c, l) }) ri
  | .durable => if x.durable.contains m then s else s.setRing ri { x with durable := x.durable ++ [m] }
  | .sealed =>
    if st ≠ Rs.draining then s
    else if m ≠ ringSelf s ri then ringSealed s ri
    else if x.drain.any (·.rooted) then ringSealed (tellAll s ri .sealed) ri
    else s
  | .abandoned status => dropRing s ri m status Ck.abandoned
  | .drainFailed status => failDrain s ri status
  | .lost => memberLost s ri m

/-- Messages of a group that wait for their ring. -/
def State.early (s : State) (g : Nat) : List (Nat × Nat × CkpMsg) := Tab.get [] s.ckpEarly g

/-- The state with a group's waiting messages replaced. -/
def State.setEarly (s : State) (g : Nat) (l : List (Nat × Nat × CkpMsg)) : State :=
  { s with ckpEarly := Tab.set [] s.ckpEarly g l }

/-- Whether a ring is in force with its step known: from ARMED to DRAINING. -/
def ringLive (s : State) (ri : Nat) : Bool :=
  (s.ring ri).stepKnown && decide (1 ≤ ringState s ri) && decide (ringState s ri ≤ 5)

/-- The messages that came before the ring take effect. -/
def replayEarly (s : State) (ri : Nat) : State :=
  let l := s.early (ri / 2)
  let mine := l.filter fun e => e.2.1 = ringStep s ri && e.2.2 != .step
  let s := s.setEarly (ri / 2) (l.filter fun e => !(e.2.1 = ringStep s ri && e.2.2 != .step))
  mine.foldl (fun s e => if ringLive s ri then ringMessage s ri e.1 e.2.2 else s) s

/-- A member knows the step of a ring (R352). -/
def learnStep (s : State) (ri step : Nat) : State :=
  let x := s.ring ri
  let s := (s.setRing ri { x with stepKnown := true, timer := none }).wr CKP_RING_STEP.STEP ri step
  if 0 < stepDiff (s.ctr x.stepCtr) step then abandonRing s ri Ck.stepMissed else replayEarly s ri

/-- The ring of a group that waits for its step. -/
def waitingRing (s : State) (g : Nat) : Option Nat :=
  [2 * g, 2 * g + 1].find? fun ri => ringState s ri = Rs.armed && !(s.ring ri).stepKnown

/-- A message arrives from a member about the ring of a step. -/
def memberMessage (s : State) (g m step : Nat) (msg : CkpMsg) : State :=
  match [2 * g, 2 * g + 1].find? fun ri => ringLive s ri && ringStep s ri == step with
  | some ri => ringMessage s ri m msg
  | none =>
    match msg, waitingRing s g with
    | .step, some ri => if m = 0 then learnStep s ri step else s
    | .abandoned status, some ri => dropRing s ri m status Ck.abandoned
    | .lost, some ri => memberLost s ri m
    | .vote _, _ => s
    | _, _ =>
      if [2 * g, 2 * g + 1].any fun ri => ringStep s ri == step && decide (6 ≤ ringState s ri) then s
      else s.setEarly g (s.early g ++ [(m, step, msg)])

/-- Whether a message is work of deduplication, striping or drain, which an activation pauses (R366). -/
def ckpPaused : CkpMsg → Bool
  | .hash .. | .reference .. | .granule .. | .stripes _ | .shard .. | .part .. => true
  | .step | .vote _ | .captured | .placed | .durable | .sealed | .abandoned _ | .drainFailed _ | .lost => false

/-- A message of another member, or of this member's own write path, arrives for a valid group. -/
def execCkpMemberMessage (g : Fin 16) (member : Fin 32) (step : BitVec 64) (m : CkpMsg) (s : State) : Out := outHold s <|
  if s.flag CKP_GRP_A.VALID g && member.val < s.rd CKP_GRP_A.MEMBERS g then
    if fetchPaused s && ckpPaused m then .next (s.setEarly g (s.early g ++ [(member.val, step.toNat, m)]))
    else .next (ckpSettle (memberMessage s g member step.toNat m))
  else .next s

/-- The pause of an activation has ended: deduplication, striping and drain go on (R366). -/
def ckpResume (s : State) : State :=
  if fetchPaused s then s
  else
    (below 32 fun ri => ringLive s ri).foldl
      (fun s ri =>
        let s := if ringState s ri = Rs.staging then sendHashes s ri else s
        drainStep (replayEarly s ri) ri) s

/-! ### The commands -/

/-- The slot a new CAPTURE of a group takes (R356): none while a ring of the group is ARMED to STAGING, or no slot can be
reused. -/
def freeRing (s : State) (g : Nat) : Option Nat :=
  let busy := fun ri => decide (1 ≤ ringState s ri) && decide (ringState s ri ≤ 3)
  let free := fun ri => ringState s ri == 0 || decide (6 ≤ ringState s ri)
  if busy (2 * g) || busy (2 * g + 1) then none else [2 * g, 2 * g + 1].find? free

/-- What is wrong with a CAPTURE at its start, as a status, with its items. -/
def captureStatus (s : State) (l : List Byte) : List CkpItem × Nat :=
  let g := leAt l 2 1
  let glade := s.rd CKP_GRP_A.GLADE g
  let timer0 := leAt l 24 1 = 1 && s.rd CKP_GRP_A.SELF g = 0
  let r := readItems s g (leAt l 32 8) (leAt l 30 1)
  if !(if timer0 then decide (1 ≤ leAt l 48 4) && decide (1 ≤ leAt l 52 4) else zeroAt l 48 8) then ([], St.badDescriptor)
  else if !(s.ctrGranted (leAt l 26 2) glade && s.ctrGranted (leAt l 28 2) glade) then ([], St.protectionFault)
  else if r.2 ≠ St.success then r
  else if r.1.any (overlapsCapture s) then ([], St.badDescriptor)
  else if (freeRing s g).isNone then ([], St.resourceExhausted)
  else r

/-- CAPTURE arms a ring of its group (R349, R352, R359). -/
def execCapture (q : Fin 256) (s : State) : Out :=
  match ckpCmd s q 1 with
  | none => .next s
  | some c =>
    let l := c.bytes
    let g := leAt l 2 1
    let r := captureStatus s l
    let s := s.noteStatus r.2 (leAt l 32 8) (32 * leAt l 30 1)
    match freeRing s g with
    | none => .next (s.complete (ckpQid q) c (if r.2 = St.success then St.resourceExhausted else r.2) 0)
    | some ri =>
      if r.2 ≠ St.success then .next (s.complete (ckpQid q) c r.2 0)
      else
        let s := s.setCmd (ckpQid q) { c with started := true }
        let timer := if leAt l 24 1 = 1 && s.rd CKP_GRP_A.SELF g = 0 then some (leAt l 48 4, leAt l 52 4) else none
        let s := s.setRing ri
          { capture := some (ckpQid q, c.entry), items := r.1, stepCtr := leAt l 26 2, trigCtr := leAt l 28 2,
            cmax := leAt l 56 8, timer := timer }
        let s := (s.wr CKP_RING_A.STATE ri Rs.armed).wr CKP_RING_STEP.STEP ri 0
        if leAt l 24 1 = 0 then .next (learnStep s ri (leAt l 40 8))
        else if timer.isSome then .next s
        else
          match (s.early g).find? fun e => e.1 = 0 && e.2.2 == .step with
          | some e => .next (learnStep (s.setEarly g ((s.early g).filter (· != e))) ri e.2.1)
          | none => .next s

/-- Member 0's timer expires (R352): the step is told to every member. -/
def execCkpTimerExpire (g : Fin 16) (r : Fin 2) (s : State) : Out :=
  let ri := 2 * g.val + r.val
  match (s.ring ri).timer with
  | some (_, lead) =>
    let step := (s.ctr (s.ring ri).stepCtr + lead) % 2 ^ 64
    let s := tellAll (s.wr CKP_RING_STEP.STEP ri step) ri .step
    .next (learnStep s ri step)
  | none => .next s

/-- Blocks of the captures of a list of items. -/
def captureBlocks (items : List CkpItem) : Nat := granulePlace items items.length 0

/-- Blocks that R356 asks for at the trigger. -/
def blocksNeeded (s : State) (ri : Nat) : Nat :=
  captureBlocks (s.ring ri).items + ringN s ri * ceilDiv (s.ring ri).cmax (65536 * max (ringK s ri) 1)

/-- The granules of kind 1 items in ascending address order (R353, R354). -/
def kind1Granules (items : List CkpItem) : List (Nat × Nat) :=
  let l := ((List.range items.length).zip items).filter fun p => p.2.kind = 1
  let sorted := l.foldr
    (fun p acc => (acc.filter fun o => o.2.addr < p.2.addr) ++ [p] ++ (acc.filter fun o => p.2.addr ≤ o.2.addr)) []
  sorted.flatMap fun p => (List.range p.2.granules).map fun g => (p.1, g)

/-- The reads of a kind 2 item (R264, R355). -/
def pullPieces (s : State) (k : Nat) (i : CkpItem) : List (Nat × Nat × Nat) :=
  (splitRead (s.port i.port).mrrs (i.len / 4096 * 32 + 1) i.addr i.len).map fun p => (k, p.1 - i.addr, p.2)

/-- Issue the reads of the kind 2 items of a ring. -/
def issuePulls (s : State) (ri : Nat) : State :=
  let x := s.ring ri
  x.pull.foldl
    (fun s p =>
      match x.items[p.1]? with
      | some i =>
        s.hostRequest i.port
          { tag := 0, addr := i.addr + p.2.1, len := p.2.2, owner := x.capture, dropped := false,
            pasid := if i.usePasid then some i.pasid else none }
      | none => s) s

/-- The step counter reaches the ring's step (R353, R356). -/
def execCkpTrigger (g : Fin 16) (r : Fin 2) (s : State) : Out :=
  let ri := 2 * g.val + r.val
  let x := s.ring ri
  if ringState s ri = Rs.armed && x.stepKnown && decide (0 ≤ stepDiff (s.ctr x.stepCtr) (ringStep s ri)) then
    let other := if r.val = 0 then 2 * g.val + 1 else 2 * g.val
    if ringSpace s ri < blocksNeeded s ri + ringHeld s other then .next (abandonRing s ri St.resourceExhausted)
    else
      let base := if ringHeld s other = 0 then 0 else ((s.ring other).base + ringHeld s other) % max (ringSpace s ri) 1
      let items := x.items.map fun i => { i with atTrigger := if i.doneEn then s.ctr i.doneCtr else 0 }
      let pull := ((List.range items.length).zip items).flatMap fun p => if p.2.kind = 2 then pullPieces s p.1 p.2 else []
      let s := s.setRing ri
        { x with items := items, todo := kind1Granules items, pull := pull, base := base, caps := captureBlocks items }
      let s := s.wr CKP_RING_A.STATE ri Rs.capturing
      let s := s.post (s.rd CKP_GRP_A.GLADE g) x.trigCtr 1
      let s := ckpRaise s g 0x1001 0 (ringStep s ri)
      .next (issuePulls s ri)
  else .next s

/-- Data of a pulled item lands in the reserve (R355); a finished granule is hashed and a finished item is captured. -/
def pullLanded (s : State) (ri port addr : Nat) (l : List Byte) : State :=
  let x := s.ring ri
  let hit := x.pull.find? fun p =>
    match x.items[p.1]? with
    | some i => i.port == port && i.addr + p.2.1 == addr && p.2.2 == l.length
    | none => false
  match hit with
  | none => s
  | some p =>
    let blk := fun (s : State) g => ringBlock s ri (granulePlace x.items p.1 g)
    let g := p.2.1 / 65536
    let w := s.writeMem (blk s g + p.2.1 % 65536) l
    let s := w.1
    let left := (s.ring ri).pull.erase p
    let s := s.setRing ri { s.ring ri with pull := left }
    if w.2 = St.protectionFault || w.2 = St.peerUnreachable then abandonRing s ri w.2
    else if left.any fun o => o.1 == p.1 && o.2.1 / 65536 == g then s
    else
      let n := min 65536 ((x.items[p.1]?.map (·.len)).getD 0 - 65536 * g)
      let s := s.write (blk s g + n) (List.replicate (65536 - n) 0)
      let s := hashGranule s ri p.1 g (s.bytes (blk s g) 65536)
      if left.any fun o => o.1 == p.1 then s else itemCaptured s ri p.1

/-- The ring whose CAPTURE is a command of a checkpoint queue. -/
def ringOfCmd (s : State) (qid entry : Nat) : Option Nat :=
  (s.rings.find? fun r => r.2.capture == some (qid, entry)).map (·.1)

/-- The background copy captures the next granule (R354); pushed items that count as captured are noticed. -/
def execCopyGranule (g : Fin 16) (r : Fin 2) (s : State) : Out := outHold s <|
  let ri := 2 * g.val + r.val
  match (s.ring ri).todo with
  | p :: _ => .next (copyGranule s ri p.1 p.2)
  | [] => .next (ckpPush s)

/-- Deduplication ends and striping starts. -/
def execCkpDedupDone (g : Fin 16) (r : Fin 2) (s : State) : Out := outHold s <|
  let ri := 2 * g.val + r.val
  if ringState s ri = Rs.staging && !(s.ring ri).deduped && !fetchPaused s then .next (ckpSettle (dedupEnd s ri)) else .next s

/-- Every shard is in place: the capture copies are freed and the ring is STAGED. -/
def execCkpStaged (g : Fin 16) (r : Fin 2) (s : State) : Out :=
  let ri := 2 * g.val + r.val
  let x := s.ring ri
  if ringState s ri = Rs.staging && (List.range (ringN s ri)).all (x.placed.contains ·) then
    let s := s.setRing ri { x with base := (x.base + x.caps) % max (ringSpace s ri) 1, caps := 0 }
    let s := s.wr CKP_RING_A.STATE ri Rs.staged
    .next (ckpRaise s g 0x1003 0 (ringStep s ri))
  else .next s

/-- What is wrong with a command's volume and one area, as a status (R349). -/
def areaStatus (s : State) (g volume area ablks : Nat) : Nat :=
  let v := volOf s volume
  if 4096 ≤ volume || !s.flag STQ_VOL_A.VALID volume then St.badDescriptor
  else if v.glade ≠ s.rd CKP_GRP_A.GLADE g || (v.local_ && rgnClosed s v.region) then St.protectionFault
  else if v.capacity < area + ablks then Ck.areaRange
  else if !v.local_ && !s.flag STQ_GLADE_A.ENABLE v.glade then St.resourceExhausted
  else St.success

/-- The ring of a group with a step in a state. -/
def ringAt (s : State) (g step st : Nat) : Option Nat :=
  [2 * g, 2 * g + 1].find? fun ri => ringState s ri == st && ringStep s ri == step

/-- DRAIN begins to write a STAGED ring to its area (R360). -/
def execCkpDrain (q : Fin 256) (s : State) : Out := outHold s <|
  match ckpCmd s q 2 with
  | none => .next s
  | some c =>
    let l := c.bytes
    let g := leAt l 2 1
    match ringAt s g (leAt l 24 8) Rs.staged with
    | none => .next (s.complete (ckpQid q) c St.badDescriptor 0)
    | some ri =>
      let st := areaStatus s g (leAt l 32 2) (leAt l 40 8) (leAt l 48 8)
      if st ≠ St.success then .next (s.complete (ckpQid q) c st 0)
      else
        let s := s.setCmd (ckpQid q) { c with started := true }
        let x := s.ring ri
        let part := memberPart s ri
        let count := Tab.get 0 x.counts (ringSelf s ri)
        let d : CkpDrain :=
          { qid := ckpQid q, entry := c.entry, volume := leAt l 32 2, area := leAt l 40 8, ablks := leAt l 48 8 }
        let s := s.setRing ri { x with drain := some d, parts := Tab.put x.parts (ringSelf s ri) (count, part) }
        let s := s.wr CKP_RING_A.STATE ri Rs.draining
        let others := below (ringN s ri) (· != ringSelf s ri)
        .next (ckpSettle (drainStep (others.foldl (fun s k => tellData s ri k part (.part count part)) s) ri))

/-- The lowest-numbered member that can still be reached (R363). -/
def rootWriter (s : State) (ri : Nat) : Option Nat := leastBelow (ringN s ri) fun m => !(s.ring ri).absent.contains m

/-- The root writer seals and writes the root, once every present member's region is durable and the seal lock is free. -/
def execCkpRootSealed (g : Fin 16) (r : Fin 2) (s : State) : Out := outHold s <|
  let ri := 2 * g.val + r.val
  let x := s.ring ri
  match x.drain with
  | none => .next s
  | some d =>
    if (List.range (ringN s ri)).all (fun m => x.durable.contains m || x.absent.contains m)
        && rootWriter s ri = some (ringSelf s ri) && !fetchPaused s && !d.rooted
        && !s.flag SEC_SEAL_LOCK.HELD && !s.flag SEC_SEAL_CTRL.BUSY then .next (ckpSettle (writeRoot s ri d))
    else .next s

/-- ABANDON abandons a ring that is not yet STAGED, on every member (R349). -/
def execAbandon (q : Fin 256) (s : State) : Out :=
  match ckpCmd s q 4 with
  | none => .next s
  | some c =>
    let g := leAt c.bytes 2 1
    match [2 * g, 2 * g + 1].find? fun ri =>
        ringStep s ri == leAt c.bytes 24 8 && decide (1 ≤ ringState s ri) && decide (ringState s ri ≤ 3) with
    | none => .next (s.complete (ckpQid q) c St.badDescriptor 0)
    | some ri => .next ((abandonRing s ri Ck.abandoned).complete (ckpQid q) c St.success 0)

/-! ### Restore (R364, R365) -/

/-- An area of a RESTORE: its volume, its first block, its length in blocks, and what the outside says it holds when the
volume is remote. -/
structure CkpArea where
  vol : Vol
  area : Nat
  ablks : Nat
  bytes : List Byte
  deriving DecidableEq, Repr

/-- `n` bytes at a byte offset of an area: none when the read fails. -/
def areaRead (s : State) (a : CkpArea) (off n : Nat) : Option (List Byte) :=
  let lba := a.area + off / a.vol.bs
  if a.vol.local_ then
    if s.memBad (a.vol.addr s lba) n then none else some (openBlocks s a.vol lba (s.bytes (a.vol.addr s lba) n))
  else if off + n ≤ a.bytes.length then some (openBlocks s a.vol lba (bytesAt a.bytes off n))
  else none

/-- A root that qualifies: its area, its bytes. -/
def rootOf (s : State) (ri : Nat) (a : CkpArea) : Option (List Byte) :=
  match areaRead s a 0 4096 with
  | none => none
  | some l =>
    let g := ri / 2
    if bytesAt l 0 4 = [0x47, 0x52, 0x52, 0x54] && leAt l 4 2 = 1 && leAt l 6 1 = ringN s ri && leAt l 7 1 = ringP s ri
        && leAt l 8 4 = s.rd CKP_GRP_B.JOB g && !(Tab.get [] s.sec.sealKeys (s.rd CKP_GRP_A.SEAL_SLOT g)).isEmpty
        && rootTag s g (leAt l 4056 8) (bytesAt l 0 4056) = bytesAt l 4064 16 then some l
    else none

/-- Fields of a root's member entry: present, stripe count, part length in 4 KiB units, hash. -/
def rootMember (root : List Byte) (m : Nat) : Bool × Nat × Nat × List Byte :=
  let o := 64 + 48 * m
  (bitOf (leAt root (o + 2) 1) 0, leAt root (o + 4) 4, leAt root (o + 8) 4, bytesAt root (o + 16) 32)

/-- Stripe counts of the owners below `o` in a root. -/
def rootRank (root : List Byte) (o : Nat) : Nat := sumNat ((List.range o).map fun m => (rootMember root m).2.1)

/-- A copy of member `m`'s part that matches its root hash, from the regions that hold copies of it. -/
def partFrom (s : State) (root : List Byte) (a : CkpArea) (n p m : Nat) : Option (List Byte) :=
  let e := rootMember root m
  let r := regionLen (leAt root 24 8) n
  (List.range (p + 1)).findSome? fun i =>
    let x := (m + i) % max n 1
    if !(rootMember root x).1 then none
    else
      let before := sumNat (((partOrder n p x).take i).map fun o => 4096 * (rootMember root o).2.2.1)
      match areaRead s a (65536 + x * r + 65536 * rootRank root n + before) (4096 * e.2.2.1) with
      | some l => if Config.sha512t256 l = e.2.2.2 then some l else none
      | none => none

/-- Shard `j` of a stripe of an owner: its bytes if its hash matches the owner's stripe table, else the reason. -/
def shardFrom (s : State) (root : List Byte) (a : CkpArea) (n owner stripe j : Nat) (part : List Byte) :
    Option (List Byte) × Nat :=
  let r := regionLen (leAt root 24 8) n
  let holder := (owner + 1 + stripe + j) % max n 1
  let base := 64 + 32 * leAt part 12 4 + 40 * leAt part 32 8
  if !(rootMember root holder).1 then (none, 2)
  else
    match areaRead s a (65536 + holder * r + 65536 * (rootRank root owner + stripe)) 65536 with
    | none => (none, 2)
    | some l => if Config.sha512t256 l = bytesAt part (base + 32 * (n * stripe + j)) 32 then (some l, 0) else (none, 1)

/-- Data shard `j` of a stripe rebuilt from the shards that are good (R358): from P, from Q, or from both. -/
def rebuild (k : Nat) (good : List (Option (List Byte))) (j : Nat) : Option (List Byte) :=
  let get := fun i => (good.getD i none).getD []
  let bad := (List.range k).filter fun i => (good.getD i none).isNone
  let sum := fun (w : Nat → Nat) =>
    (List.range k).foldl (fun acc i => if bad.contains i then acc else gfAdd acc (gfScale (w i) (get i)))
      (List.replicate 65536 0)
  let pOk := (good.getD k none).isSome
  let qOk := (good.getD (k + 1) none).isSome
  match good.getD j none with
  | some l => some l
  | none =>
    match bad with
    | [_] =>
      if pOk then some (gfAdd (get k) (sum fun _ => 1))
      else if qOk then some (gfScale (gfInv (gfPow2 j)) (gfAdd (get (k + 1)) (sum gfPow2)))
      else none
    | [a, b] =>
      if pOk && qOk then
        let p' := gfAdd (get k) (sum fun _ => 1)
        let q' := gfAdd (get (k + 1)) (sum gfPow2)
        let db := gfScale (gfInv (Nat.xor (gfPow2 a) (gfPow2 b))) (gfAdd q' (gfScale (gfPow2 a) p'))
        some (if j = b then db else gfAdd p' db)
      else none
    | _ => none

/-- A report entry (R365): the step, the owner, the shard index, the reason, the stripe. -/
def reportEntry (step owner shard reason stripe : Nat) : List Byte :=
  toLe 8 step ++ toLe 1 owner ++ toLe 1 shard ++ toLe 2 reason ++ toLe 4 stripe

/-- What a root holds for this member: whether it can be restored, its part, the shards of the stripes its items reference
(with their owner, stripe and content or reason), and the report entries. -/
structure RootView where
  ok : Bool
  part : List Byte
  stripes : List ((Nat × Nat) × List (Option (List Byte) × Nat))
  entries : List (List Byte)
  ignored : Nat
  deriving DecidableEq, Repr

/-- Items and their lengths of a part. -/
def partItems (part : List Byte) : List CkpItem :=
  (List.range (leAt part 12 4)).map fun k => itemOf (bytesAt part (64 + 32 * k) 32)

/-- Examine a root for this member (R364). -/
def viewRoot (s : State) (ri : Nat) (root : List Byte) (a : CkpArea) (items : List CkpItem) : RootView :=
  let n := ringN s ri
  let p := ringP s ri
  let self := ringSelf s ri
  let step := leAt root 16 8
  let present := below n fun m => (rootMember root m).1
  let parts := present.map fun m => (m, partFrom s root a n p m)
  let lost := (parts.filter fun e => e.2.isNone).map (·.1)
  let partOf := fun m => ((parts.find? fun e => e.1 = m).bind (·.2)).getD []
  let mine := partOf self
  let names := fun (l : List CkpItem) => l.map fun i => (i.id, i.len)
  let match_ := (names (partItems mine)).isPerm (names items)
  let cnt := leAt mine 32 8
  let refs := dedupPairs ((List.range cnt).map fun i =>
    let v := leAt mine (64 + 32 * leAt mine 12 4 + 40 * i + 32) 8
    (bitsOf v 0 5, bitsOf v 10 32))
  let stripes := refs.map fun o =>
    (o, (List.range n).map fun j => shardFrom s root a n o.1 o.2 j (partOf o.1))
  let short := stripes.any fun e => (e.2.filter fun x => x.1.isSome).length < n - p
  let bad := stripes.flatMap fun e =>
    ((List.range n).zip e.2).filterMap fun x =>
      if x.2.1.isSome then none else some (reportEntry step e.1.1 x.1 x.2.2 e.1.2)
  { ok := lost.isEmpty && !mine.isEmpty && match_ && !short, part := mine, stripes := stripes,
    entries := (lost.map fun m => reportEntry step m 0 3 0) ++ (if match_ then [] else [reportEntry step self 0 4 0]) ++ bad,
    ignored := bad.length }
where
  /-- The distinct members of a list of pairs. -/
  dedupPairs : List (Nat × Nat) → List (Nat × Nat)
    | [] => []
    | x :: t => x :: (dedupPairs t).filter (· != x)

/-- Write a granule of a restored item where LIST places it: the status. -/
def placeRestored (s : State) (ri : Nat) (i : CkpItem) (g : Nat) (l : List Byte) : State × Nat :=
  let n := min 65536 (i.len - 65536 * g)
  let l := l.take n
  match i.kind with
  | 1 => s.writeMem (i.addr + 65536 * g) l
  | 2 =>
    if s.masterOn i.port && (!i.usePasid || (s.port i.port).pasidEn) then
      s.portWrite i.port (if i.usePasid then some i.pasid else none) (i.addr + 65536 * g) l false (dataRelaxed s i.port)
    else (s, St.abortedHostAccessOff)
  | _ => s.writeMem (pushBase s ri + i.addr + 65536 * g) l

/-- Write every item of this member from a root, rebuilding shards where needed (R364): the state, the status, the report
entries of rebuilt shards. -/
def restoreItems (s : State) (ri : Nat) (root : List Byte) (v : RootView) (items : List CkpItem) :
    State × Nat × List (List Byte) :=
  let k := ringK s ri
  let step := leAt root 16 8
  let src := partItems v.part
  let gs := granuleList src
  let r := ((List.range gs.length).zip gs).foldl
    (fun (acc : State × Nat × List (List Byte)) e =>
      if acc.2.1 ≠ St.success then acc
      else
        let ref := leAt v.part (64 + 32 * src.length + 40 * e.1 + 32) 8
        let owner := bitsOf ref 0 5
        let j := bitsOf ref 5 5
        let t := bitsOf ref 10 32
        let shards := ((v.stripes.find? fun x => x.1 = (owner, t)).map (·.2)).getD []
        let good := shards.map (·.1)
        let rebuilt := (good.getD j none).isNone
        let note := reportEntry step owner j 0x10 t
        let new := rebuilt && !acc.2.2.contains note
        let dest := (src[e.2.1]?).bind fun i => restoreTarget src items e.2.1 i
        match rebuild k good j, dest with
        | some l, some d =>
          let w := placeRestored acc.1 ri d e.2.2 l
          (if new then w.1.bump CKP_CNT.COUNT 5 else w.1, w.2, if new then acc.2.2 ++ [note] else acc.2.2)
        | _, _ => acc) (s, St.success, [])
  r
where
  /-- The destination of item `n` of a part: the item of LIST with its label and length, the same one among equals. -/
  restoreTarget (src items : List CkpItem) (n : Nat) (i : CkpItem) : Option CkpItem :=
    let same := fun (o : CkpItem) => o.id == i.id && o.len == i.len
    ((items.filter same).drop ((src.take n).filter same).length).head?

/-- Bytes of a report (R365). -/
def reportBytes (step : Nat) (entries : List (List Byte)) : List Byte :=
  let n := min entries.length 4095
  toLe 8 step ++ toLe 4 n ++ toLe 4 (min (entries.length - n) 0xFFFFFFFF) ++ (entries.take n).flatMap id

/-- Insert a root in order of step, newest first. -/
def insertRoot (r : CkpArea × List Byte) : List (CkpArea × List Byte) → List (CkpArea × List Byte)
  | [] => [r]
  | x :: t => if leAt x.2 16 8 < leAt r.2 16 8 then r :: x :: t else x :: insertRoot r t

/-- Try roots in order: the state, the status, the result, and the report so far. -/
def tryRoots (ri : Nat) (items : List CkpItem) (agreed : List Nat) :
    List (CkpArea × List Byte) → State → List (List Byte) → State × Nat × Nat × List (List Byte)
  | [], s, rep => (s, Ck.noRing, 2 ^ 64 - 1, rep)
  | (a, root) :: t, s, rep =>
    let step := leAt root 16 8
    let v := viewRoot s ri root a items
    let s := (below (ringN s ri) (· != ringSelf s ri)).foldl
      (fun s k => s.emit (.member (ri / 2) k step (.vote v.ok))) s
    let s := s.bump CKP_CNT.COUNT 6 v.ignored
    if v.ok && agreed.contains step then
      let w := restoreItems s ri root v items
      (w.1, w.2.1, step, rep ++ v.entries ++ w.2.2)
    else
      let s := ckpRaise s (ri / 2) 0x1006 0 (step % 2 ^ 32 + 2 ^ 32 * min v.ignored 0xFFFF)
      tryRoots ri items agreed t s (rep ++ v.entries)

/-- The areas of a RESTORE and the status of reading them. -/
def readAreas (s : State) (l : List Byte) (areas : List (List Byte)) : List CkpArea × Nat :=
  let g := leAt l 2 1
  let n := leAt l 24 1
  let glade := s.rd CKP_GRP_A.GLADE g
  let a := leAt l 40 8
  if !s.inGladeRgn glade a (16 * n) then ([], St.protectionFault)
  else
    let r := s.gladeRead glade a (16 * n)
    if r.2 ≠ St.success then ([], r.2)
    else
      let list : List CkpArea := (List.range n).map fun k =>
        { vol := volOf s (leAt l 32 2), area := leAt r.1 (16 * k) 8, ablks := leAt r.1 (16 * k + 8) 8,
          bytes := areas.getD k [] }
      match list.find? fun x => areaStatus s g (leAt l 32 2) x.area x.ablks ≠ St.success with
      | some x => ([], areaStatus s g (leAt l 32 2) x.area x.ablks)
      | none => (list, St.success)

/-- A matching VERIFY raises its slot's watermark (R338, R364). -/
def verified (s : State) (slot ctr : Nat) : State :=
  if s.rd SEC_SEAL_WATER.VALUE slot < ctr then s.wr SEC_SEAL_WATER.VALUE slot ctr else s

/-- A RESTORE reads its areas: each uncorrectable codeword known there is counted once (R92, log entry 40). -/
def noteAreas (s : State) (l : List CkpArea) : State :=
  l.foldl (fun s a => if a.vol.local_ then s.noteRead (a.vol.addr s a.area) (a.ablks * a.vol.bs) else s) s

/-- RESTORE (R364). `areas` is what the areas of a remote volume hold; `agreed` the steps that every other member can
restore. -/
def execRestore (q : Fin 256) (areas : List (List (BitVec 8))) (agreed : List (BitVec 64)) (s : State) : Out := outHold s <|
  match ckpCmd s q 3 with
  | none => .next s
  | some c =>
    let l := c.bytes
    let g := leAt l 2 1
    let glade := s.rd CKP_GRP_A.GLADE g
    let it := readItems s g (leAt l 48 8) (leAt l 25 1)
    let ar := readAreas s l areas
    let rep := leAt l 56 8
    let st :=
      if it.2 ≠ St.success then it.2
      else if ar.2 ≠ St.success then ar.2
      else if !s.inGladeRgn glade rep 65536 then St.protectionFault
      else St.success
    let s := (s.noteStatus it.2 (leAt l 48 8) (32 * leAt l 25 1)).noteStatus ar.2 (leAt l 40 8) (16 * leAt l 24 1)
    if st ≠ St.success then .next (s.complete (ckpQid q) c st 0)
    else
      let s := noteAreas s ar.1
      let ri := 2 * g
      let roots := (ar.1.filterMap fun a => (rootOf s ri a).map fun r => (a, r)).foldr insertRoot []
      let t := tryRoots ri it.1 (agreed.map (·.toNat)) roots s []
      let s := t.1.write rep (reportBytes (if t.2.1 = St.success then t.2.2.1 else 2 ^ 64 - 1) t.2.2.2)
      let s := roots.foldl (fun s r => verified s (s.rd CKP_GRP_A.SEAL_SLOT g) (leAt r.2 4056 8)) s
      .next (s.complete (ckpQid q) c t.2.1 (if t.2.1 = St.success then t.2.2.1 % 2 ^ 32 else 0))

/-! ### What other events do to rings (R366) -/

/-- The rings of the groups of a checkpoint queue. -/
def ringsOfQueue (s : State) (q : Nat) : List Nat :=
  below 32 fun ri => s.flag CKP_GRP_A.VALID (ri / 2) && s.rd CKP_GRP_A.QUEUE (ri / 2) == q

/-- Forget the traffic of a checkpoint queue: packets not yet sent are discarded, and those sent stay in their sequence (R254). -/
def forgetRings (s : State) (q : Nat) : State :=
  let mine := fun (o : SalOp) => match o.owner with
    | .ring ri _ => s.rd CKP_GRP_A.QUEUE (ri / 2) == q
    | _ => false
  let s := keepPackets s fun _ p => p.flow != .ckp q
  s.peers.foldl
    (fun s d => s.setPeer d.1 { s.peer d.1 with ops := (s.peer d.1).ops.filter fun o => o.sent || !mine o }) s

/-- The work of a checkpoint queue ends with a status: a CAPTURE in progress abandons its ring, a DRAINING ring returns to
STAGED; with `all`, as on a core fault, every ring before STAGED is abandoned. Packets of its flow that are not yet sent are
discarded (R254). -/
def ckpAbort (s : State) (qid status : Nat) (all : Bool := false) : State :=
  let s := (ringsOfQueue s (qidx qid)).foldl
    (fun s ri =>
      let st := ringState s ri
      if (1 ≤ st && st ≤ 3) && (all || (s.ring ri).capture.isSome) then abandonRing s ri status
      else if st = Rs.draining then failDrain s ri status
      else s) s
  (forgetRings s (qidx qid)).completeAll qid status 0

/-- A region loses VALID: a ring that is ARMED or CAPTURING with an item in it is abandoned. -/
def ckpRegionLost (s : State) (rgn : Nat) : State :=
  (below 32 fun ri =>
      1 ≤ ringState s ri && ringState s ri ≤ 2
        && ((s.ring ri).items.any fun i =>
          (i.kind == 1 && inRgn s rgn i.addr i.len) || (i.kind == 3 && s.rd CKP_GRP_A.RESERVE (ri / 2) == rgn))).foldl
    (fun s ri => abandonRing s ri St.protectionFault) s

/-- A device can no longer be reached: the rings of the groups it is a member of take note. -/
def ckpDeviceLost (s : State) (dev : Nat) : State :=
  (below 32 fun ri => s.flag CKP_GRP_A.VALID (ri / 2) && 1 ≤ ringState s ri && ringState s ri ≤ 5).foldl
    (fun s ri =>
      match leastBelow (ringN s ri) fun m => m != ringSelf s ri && s.rd CKP_MEMBER.DEVNUM (32 * (ri / 2) + m) == dev with
      | some m => memberLost s ri m
      | none => s) s

/-- A read for a pulled item fails (R355): the ring is abandoned with its status. -/
def pullFailed (s : State) (qid entry status : Nat) : State :=
  match ringOfCmd s qid entry with
  | some ri => abandonRing s ri status
  | none => s

end Sys2Proof.Machine
end

