-- ==== Sys2Proof/Machine/Twin.lean ====
section
/-! DEFINITION. The twin pair (R376 to R385, R88 to R90): frames, verdicts, grants, the pair state and mirrored regions.
Choices and readings of the model: log entries 13 and 21. -/
namespace Sys2Proof.Machine

open Sys2Proof

/-! ### Mirrored regions (R89, R90) -/

/-- The valid mirrored regions. -/
def mirrorRegions (s : State) : List Nat := below 1024 fun i => s.flag MEM_RGN_A.VALID i && s.flag MEM_RGN_A.MIRROR i

/-- A mirrored region becomes STALE (R90): the event is raised, a copy in progress stops, and writes held for the twin go
ahead. -/
def markStale (s : State) (i : Nat) : State :=
  let d := { s.dram with resync := s.dram.resync.filter (· != i),
                         mirrorHeld := s.dram.mirrorHeld.filter fun w => w.region != i }
  let held := s.dram.mirrorHeld.filter fun w => w.region == i
  let s := { s with dram := d }
  let s :=
    if s.flag MEM_RGN_A.STALE i then s
    else (s.wr MEM_RGN_A.STALE i 1).raise 0x0409 (unitId 0 0) (s.rd MEM_RGN_A.GLADE i) 0 0 i
  held.foldl (fun s w => (applyWrite s w.addr w.bytes).1) s

/-- Whether a piece of a copy is on its way to the twin. -/
def copyFlying (s : State) (i : Nat) : Bool := s.twin.unacked.any fun w => w.type == 4 && w.region == i

/-- Bytes of a region that are still to be copied to the twin. -/
def copyLeft (s : State) (i : Nat) : Nat := rgnLen s i - Tab.get 0 s.dram.copied i

/-- Send the next 8 KiB of a region that is being copied, once the piece before has been acknowledged (R90); pieces that hold no
good codeword send nothing, and the one after them goes. -/
def copyNext (s : State) (i : Nat) : Nat → State
  | 0 => s
  | fuel + 1 =>
    if copyFlying s i || copyLeft s i = 0 then s
    else
      let at_ := Tab.get 0 s.dram.copied i
      let n := min 8192 (copyLeft s i)
      let s := { s with dram := { s.dram with copied := Tab.set 0 s.dram.copied i (at_ + n) } }
      copyNext (s.mirrorRange 4 i (rgnBase s i + at_) n) i fuel

/-- Go on with every copy whose piece has been acknowledged. -/
def copiesGoOn (s : State) : State := s.dram.resync.foldl (fun s i => copyNext s i 16) s

/-- Begin to copy a STALE region back to a healthy twin (R90). -/
def startResync (s : State) (i : Nat) : State :=
  if s.flag MEM_RGN_A.STALE i && !s.dram.resync.contains i && !s.dram.noTarget.contains i then
    let d := { s.dram with resync := s.dram.resync ++ [i], copied := Tab.set 0 s.dram.copied i 0 }
    copyNext { s with dram := d } i 16
  else s

/-- The copy of a region is complete once the twin has acknowledged all of it: STALE clears (R90). Pieces with nothing good in
them may still be passed over here. -/
def execMirrorResyncDone (r : Fin 1024) (s : State) : Out :=
  if s.dram.resync.contains r && !copyFlying s r && copyLeft s r ≠ 0 then .next (copyNext s r 16)
  else if s.dram.resync.contains r && !copyFlying s r then
    let s := { s with dram := { s.dram with resync := s.dram.resync.filter (· != r.val) } }
    let s := s.wr MEM_RGN_A.STALE r 0
    .next (s.raise 0x040A (unitId 0 0) (s.rd MEM_RGN_A.GLADE r) 0 0 r)
  else .next s

/-- The end of a mirror fence. -/
def fenceEnd (s : State) (status : Nat) : State :=
  let s := { s with dram := { s.dram with fence := none } }
  s.wrs 0 [(MEM_MIRROR_FENCE.BUSY, 0), (MEM_MIRROR_FENCE.STATUS, status)]

/-- MEM_MIRROR_FENCE START (R89): ignored while BUSY; a region that is not valid or not mirrored gives BAD_DESCRIPTOR, and
a STALE one TWIN_DEGRADED at once. -/
def execMirrorFenceStart (r : Fin 1024) (s : State) : Out := unlessNoImage s <|
  let busy := s.flag MEM_MIRROR_FENCE.BUSY
  let s := s.wr MEM_MIRROR_FENCE.REGION 0 r
  if busy then .next s
  else if !(s.flag MEM_RGN_A.VALID r && s.flag MEM_RGN_A.MIRROR r) then
    .next (s.wr MEM_MIRROR_FENCE.STATUS 0 St.badDescriptor)
  else
    let s := { s with dram := { s.dram with fence := some (r.val, fenceSeq s) } }
    match fenceStatus s r (fenceSeq s) with
    | some st => .next (if st = St.twinDegraded then fenceEnd s st else s.wr MEM_MIRROR_FENCE.BUSY 0 1)
    | none => .next (s.wr MEM_MIRROR_FENCE.BUSY 0 1)

/-- A mirror fence completes when its writes have been applied at the twin, or its region is STALE. -/
def execMirrorFenceDone (s : State) : Out :=
  match s.dram.fence with
  | none => .next s
  | some (r, seq) =>
    match fenceStatus s r seq with
    | some st => .next (fenceEnd s st)
    | none => .next s

/-! ### The pair state (R381, R384, R388) -/

/-- Whether the pair state lets local writes to mirrored regions go ahead unmirrored, so that the regions are STALE. -/
def staleIn (st : Nat) : Bool :=
  st == Pair.unpaired || st == Pair.pairing || st == Pair.degraded || st == Pair.takenOver

/-- The pair state changes: TWN_STATE is raised, mirrored regions become STALE or are copied back, and on leaving SUSPECT
the held writes are released to the rule of the new state. -/
def setPair (s : State) (new : Nat) : State :=
  let old := s.pair
  if old = new then s
  else
    let s := s.wr TWN_STATUS.STATE 0 new
    let s := s.raiseUnit 0x1104 (unitId 0 0)
      (new + old * 8 + s.rd TWN_STATUS.GRANTS * 64 + s.rd TWN_STATUS.PAIR_EPOCH * 256)
    let s := { s with twin := { s.twin with waiting := if new = Pair.suspect then s.twin.waiting else false } }
    let s := if staleIn new then (mirrorRegions s).foldl markStale s else s
    let s := if new = Pair.paired then (mirrorRegions s).foldl startResync s else s
    if old = Pair.suspect then
      let held := s.dram.mirrorHeld.map (fun w => (w.addr, w.bytes)) ++ s.twin.held
      let s := { s with twin := { s.twin with held := [] }, dram := { s.dram with mirrorHeld := [] } }
      stqFences (retryHeld (releaseWrites s held))
    else stqFences s

/-- Whether the twin link is alive: a port is not down (R379). -/
def twinLinkAlive (s : State) : Bool := s.twinPortUp 0 || s.twinPortUp 1

/-- Show the grants won. -/
def showGrants (s : State) : State := s.wr TWN_STATUS.GRANTS 0 s.twin.won.length

/-- A majority of the witnesses (R382): none with no witness. -/
def twinMajority (s : State) (l : List Nat) : Bool :=
  match s.rd TWN_CFG.WITNESSES with
  | 1 => decide (1 ≤ l.length)
  | 3 => decide (2 ≤ l.length)
  | _ => false

/-- A grant word (R382). -/
def grantWord (held dev epoch : Nat) : Nat := dev + 2 ^ 16 * epoch + 2 ^ 32 * held

/-- A later epoch by signed 16-bit difference. -/
def laterEpoch (a e : Nat) : Bool := decide (0 < signedOf 16 (65536 + a - e))

/-- What a witness's old value decides (R382, R383). A swap that took place, and a word that already names this device,
are won. -/
def grantOutcome (s : State) (w old : Nat) : State :=
  let e := s.rd TWN_STATUS.PAIR_EPOCH
  if (s.pair ≠ Pair.suspect && s.pair ≠ Pair.isolated) || s.twin.waiting then s
  else if laterEpoch (bitsOf old 16 16) e then setPair s Pair.displaced
  else
    let add := fun (l : List Nat) => if l.contains w then l else l ++ [w]
    let t := s.twin
    let t :=
      if old = grantWord 0 0 e || old = grantWord 1 s.devNum e then { t with won := add t.won }
      else if old = grantWord 1 (s.rd TWN_CFG.TWIN_DEV) e then { t with lost := add t.lost }
      else t
    let s := showGrants { s with twin := t }
    if twinMajority s t.won then { s with twin := { s.twin with waiting := true } }
    else if twinMajority s t.lost && s.pair = Pair.suspect then setPair s Pair.displaced
    else s

/-- Send the CAS to one witness (R382), on an internal stream of glade 0; one on this device itself is served at once. -/
def sendGrant (s : State) (w : Nat) : State :=
  let a := s.rd TWN_WIT_ADDR.ADDR w
  let key := s.rd TWN_WIT_KEY.KEY w
  let e := s.rd TWN_STATUS.PAIR_EPOCH
  let swap := grantWord 1 s.devNum e
  if globalDev a = s.devNum then
    let r := targetAtomic s s.devNum (s.ftn 0) key (globalOff a) (grantWord 0 0 e) (some swap)
    if r.2.2 = St.success then grantOutcome r.1 w r.2.1 else r.1
  else
    startOp s
      { dev := globalDev a, owner := .witness w, kind := Pt.cas, flow := .device, glade := 0, inst := 0, ftn := s.ftn 0,
        laddr := 0, len := 8, data := toLe 8 swap, off := globalOff a, rkey := key, aux := 0, opv := grantWord 0 0 e }

/-- An attempt to win the grants. -/
def attemptGrants (s : State) : State :=
  let s := showGrants { s with twin := { s.twin with won := [], lost := [], waiting := false } }
  let s := s.bump TWN_CNT.COUNT 6
  let n := s.rd TWN_CFG.WITNESSES
  if n = 1 || n = 3 then (List.range n).foldl sendGrant s else s

/-- Tell the pair of the grant operations that have ended. -/
def twinSettle (s : State) : State :=
  let mine := s.ended.filter fun e => match e.1 with
    | .witness _ => true
    | _ => false
  let rest := s.ended.filter fun e => match e.1 with
    | .witness _ => false
    | _ => true
  mine.foldl
    (fun s e =>
      match e.1 with
      | .witness w => if e.2.1 = St.success then grantOutcome s w (leNat e.2.2) else s
      | _ => s) { s with ended := rest }

/-- The device suspects the loss of its twin: grants are sought (R382). -/
def enterSuspect (s : State) : State := twinSettle (attemptGrants (setPair s Pair.suspect))

/-- Both verdicts are drawn together (R381): the link is dead, and the fabric path shows the twin alive or dead. -/
def linkDead (s : State) : State :=
  if s.pair = Pair.paired then
    if s.flag TWN_STATUS.FAB_ALIVE then setPair s Pair.degraded else enterSuspect s
  else s

/-- Enter PAIRING under an epoch (R381): the frame count starts again under a new epoch, and both streams of writes begin
anew. -/
def enterPairing (s : State) (epoch : Nat) : State :=
  let count := if s.rd TWN_STATUS.PAIR_EPOCH = epoch then s.twin.count else 0
  let held := s.twin.held
  let s := { s with twin := { ({} : Twin) with count := count, lastAnswer := s.twin.lastAnswer, held := held } }
  setPair (showGrants (s.wr TWN_STATUS.PAIR_EPOCH 0 epoch)) Pair.pairing

/-! ### Frames (R377, R379) -/

/-- The twin's acknowledgement of the last write applied in order: writes up to it are done, and held writes and fences go
on. -/
def takeAck (s : State) (n : Nat) : State :=
  let before := s.twin.unacked.length
  let left := s.twin.unacked.filter fun w => decide (n < w.seq)
  if n < s.twin.nextSeq && left.length < before then
    let s := { s with twin := { s.twin with unacked := left } }
    let held := s.dram.mirrorHeld
    let s := { s with dram := { s.dram with mirrorHeld := [] } }
    stqFences (copiesGoOn (retryHeld (held.foldl (fun s w => s.write w.addr w.bytes) s)))
  else s

/-- A frame is received, by a port that TWN_CFG.ENABLE enables (R376): dropped and counted when its tag fails; otherwise its port is not down, and a DEGRADED pair whose
twin sent it is PAIRED again. The second part says whether the frame comes from the twin under the pair epoch. -/
def twinReceive (s : State) (f : TwinFrame) : State × Bool :=
  if !s.flag TWN_CFG.ENABLE || twinQuadLost s f.port then (s, false)
  else if !s.twinKeyed || !f.authentic then (s.bump TWN_CNT.COUNT 2, false)
  else
    let s := if f.port = 0 then s.wr TWN_STATUS.PORT0_UP 0 1 else s.wr TWN_STATUS.PORT1_UP 0 1
    let mine := f.src.toNat == s.rd TWN_CFG.TWIN_DEV && f.epoch.toNat == s.rd TWN_STATUS.PAIR_EPOCH
    (if mine && s.pair = Pair.degraded then setPair s Pair.paired else s, mine)

/-- What a HEARTBEAT of the twin does to the pair state (R381, R383, R386). -/
def heartbeatState (s : State) (f : TwinFrame) (mine : Bool) : State :=
  if s.twin.waiting || s.pair = Pair.takenOver || s.pair = Pair.unpaired then s
  else if s.pair = Pair.pairing && !mine then s
  else if f.state.toNat = Pair.takenOver then setPair s Pair.displaced
  else if mine && (s.pair = Pair.pairing || s.pair = Pair.suspect || s.pair = Pair.isolated) then setPair s Pair.paired
  else s

/-- A HEARTBEAT is received. -/
def execHeartbeat (f : TwinFrame) (s : State) : Out :=
  let heard := s.twinKeyed && f.authentic && !twinQuadLost s f.port && s.flag TWN_CFG.ENABLE
  let r := twinReceive s f
  let s := r.1
  if !heard || s.pair = Pair.unpaired then .next s
  else
    let s := s.bump TWN_CNT.COUNT 1
    if f.src.toNat ≠ s.rd TWN_CFG.TWIN_DEV then .next s
    else
      let s := s.wr TWN_STATUS.TWIN_STATE 0 f.state.toNat
      let s := if r.2 then s else s.wr TWN_STATUS.EPOCH_WRONG 0 1
      let s := if r.2 then takeAck s f.aux.toNat else s
      .next (heartbeatState s f r.2)

/-- Send a MIRROR_ACK: the last write applied in order. -/
def sendMirrorAck (s : State) : State :=
  let s := { s with twin := { s.twin with toAck := 0 } }
  s.twinSend s.twinDataPort 3 0 s.twin.applied []

/-- Whether the range of a twin's write lies in a region that takes the twin's stream (R88, R384). -/
def targetRegion (s : State) (a n : Nat) : Bool :=
  s.pair ≠ Pair.displaced && s.pair ≠ Pair.takenOver
    && (match s.region a n with
        | some i => s.flag MEM_RGN_A.MIRROR_TARGET i && !rgnClosed s i
        | none => false)

/-- A write of the twin's stream: applied when it is the next in order (R377), and acknowledged after every 16. -/
def twinWrite (s : State) (f : TwinFrame) : State :=
  let n := f.bytes.length
  let a := f.addr.toNat
  if n < 64 || 8192 < n || n % 64 ≠ 0 || a % 64 ≠ 0 then s
  else
    let s :=
      if f.seq.toNat = s.twin.applied + 1 && targetRegion s a n then
        let s := (applyWrite s a f.bytes).1
        { s with twin := { s.twin with applied := f.seq.toNat, toAck := s.twin.toAck + 1 } }
      else if f.seq.toNat ≤ s.twin.applied then { s with twin := { s.twin with toAck := s.twin.toAck + 1 } }
      else s
    if 16 ≤ s.twin.toAck then sendMirrorAck s else s

/-- A MIRROR_WRITE is received. -/
def execMirrorWrite (f : TwinFrame) (s : State) : Out :=
  let r := twinReceive s f
  .next (if r.2 then twinWrite r.1 f else r.1)

/-- A RESYNC_WRITE is received. -/
def execResyncWrite (f : TwinFrame) (s : State) : Out :=
  let r := twinReceive s f
  .next (if r.2 then twinWrite r.1 f else r.1)

/-- A MIRROR_ACK is received. -/
def execMirrorAck (f : TwinFrame) (s : State) : Out :=
  let r := twinReceive s f
  .next (if r.2 then takeAck r.1 f.aux.toNat else r.1)

/-- 2 µs after the oldest write not yet acknowledged, a MIRROR_ACK is sent. -/
def execMirrorAckTimer (s : State) : Out := .next (if s.twin.toAck = 0 then s else sendMirrorAck s)

/-- An acknowledgement has not advanced for 20 µs: everything from the first write not yet acknowledged is sent again. -/
def execMirrorRetransmitTimer (s : State) : Out :=
  if twinLinkAlive s then
    .next (s.twin.unacked.foldl
      (fun s w => (if w.type = 2 then s.bump TWN_CNT.COUNT 4 else s).twinWriteSend w) s)
  else .next s

/-- Every 100 µs a twin port sends a HEARTBEAT (R379): in no state but UNPAIRED, and with its lanes up. -/
def execTwinHeartbeatTick (t : Fin 2) (s : State) : Out :=
  if s.pair ≠ Pair.unpaired && twinLanesUp s t && s.twinKeyed then
    .next ((s.twinSend t 1 s.now s.twin.applied []).bump TWN_CNT.COUNT 0)
  else .next s

/-- A twin port is down, and with both down the link is dead (R379). -/
def twinPortDown (s : State) (t : Nat) : State :=
  let was := twinLinkAlive s
  let s := if t = 0 then s.wr TWN_STATUS.PORT0_UP 0 0 else s.wr TWN_STATUS.PORT1_UP 0 0
  if was && !twinLinkAlive s then linkDead s else s

/-- No verified frame on a port for 300 µs: it is down. -/
def execTwinPortTimeout (t : Fin 2) (s : State) : Out := .next (twinPortDown s t)

/-- The fabric verdict at a probe time (R380). -/
def fabricVerdict (s : State) : Bool :=
  match s.twin.lastAnswer with
  | some t => decide (s.now ≤ t + 1000000 * s.rd TWN_CFG.FAB_DEAD_MS)
  | none => false

/-- Every 250 µs the fabric verdict is checked and a PROBE is sent on the twin's context. -/
def execTwinProbeTick (s : State) : Out :=
  if s.pair = Pair.unpaired then .next s
  else
    let was := s.flag TWN_STATUS.FAB_ALIVE
    let alive := fabricVerdict s
    let s := s.wr TWN_STATUS.FAB_ALIVE 0 (b2n alive)
    let s := if was ≠ alive && twinLinkAlive s then s.raiseUnit 0x1105 (unitId 0 0) (b2n alive) else s
    let s := if !alive && (s.pair = Pair.degraded || (s.pair = Pair.paired && !twinLinkAlive s)) then enterSuspect s else s
    let s := if s.twin.probeOut then s.bump TWN_CNT.COUNT 5 else s
    let d := s.rd TWN_CFG.TWIN_DEV
    let r := reachPeer s d
    if r.2 ≠ St.success then .next r.1
    else
      let x := r.1.peer d
      if x.state ≠ Ps.open_ && x.state ≠ Ps.quiescing then .next { r.1 with twin := { r.1.twin with probeOut := false } }
      else .next (sendCtl { r.1 with twin := { r.1.twin with probeOut := true } } x.port
        { device := d, type := Pt.probe, epoch := x.epoch, psn := x.nextPsn, addr := 0, aux := 0, fresh := false,
          ece := x.oweEce })

/-- GRANT_MS passes in SUSPECT without a decision. -/
def execGrantTimeout (s : State) : Out :=
  if s.pair = Pair.suspect && !s.twin.waiting then .next (setPair s Pair.isolated) else .next s

/-- An ISOLATED device tries again to win the grants every GRANT_MS. -/
def execIsolatedRetryTick (s : State) : Out :=
  if s.pair = Pair.isolated && !s.twin.waiting then .next (twinSettle (attemptGrants s)) else .next s

/-- 1 ms after a majority is won the device takes over, whatever it has heard since (R383). -/
def execTakeoverWaitExpire (s : State) : Out :=
  if s.twin.waiting then .next (setPair s Pair.takenOver) else .next s

/-- TWN_CTRL.PAIR (R381): ignored in PAIRED, DEGRADED and SUSPECT, with epoch 0, and with WITNESSES 2. -/
def pairWrite (s : State) (epoch : Nat) : State :=
  let s := s.wr TWN_CTRL.EPOCH 0 epoch
  let st := s.pair
  if st = Pair.paired || st = Pair.degraded || st = Pair.suspect || epoch = 0 || s.rd TWN_CFG.WITNESSES = 2 then s
  else enterPairing s epoch

/-- TWN_CTRL.PAIR is written with an epoch. -/
def execPair (epoch : BitVec 16) (s : State) : Out := unlessNoImage s <| .next (pairWrite s epoch.toNat)

/-- Setting TWN_LOCK.LOCKED fixes the RWL fields of the block. -/
def execTwnLockSet (s : State) : Out := unlessNoImage s <| .next (s.wr TWN_LOCK.LOCKED 0 1)

/-- ENABLE has been cleared: the pair state is UNPAIRED (R381). -/
def twinDisabled (s : State) : State := setPair s Pair.unpaired

/-- REPAIR has ended with ENABLE set: the device enters PAIRING with epoch 1 (R381). -/
def twinStart (s : State) : State :=
  if s.flag TWN_CFG.ENABLE && s.rd TWN_CFG.WITNESSES ≠ 2 && s.pair = Pair.unpaired then enterPairing s 1 else s

end Sys2Proof.Machine
end

