-- ==== Sys2Proof/Machine/FabricReceive.lean ====
section
/-! DEFINITION. Receiving Saloa packets (R212 to R231): acceptance, order, operations at the target, responses,
acknowledgements, epochs, timers, and the SEND command, which may end at a reply queue of this device. Choices and readings of
the model: log entry 14. -/
namespace Sys2Proof.Machine

open Sys2Proof

/-- SEND delivers its bytes to the next buffer of a receive queue (R200); one to this device that finds no buffer is tried
again until SEND_RETRY_EXPIRE. It completes once its receive entry is written (R199). A storage reply goes to the device's own buffers (R306). -/
def execSend (t : Fin 65536) (s : State) : Out :=
  .next (orHold s <| salRun s t 6 fun s c =>
    let key := (salQid t, c.entry)
    let rest := s.fab.selfRefused.filter (· != key)
    let r := leAt c.bytes 48 8
    match (if sendAllowed s (salQid r) (salFtn s t) then replyGlade s r else none) with
    | some g => salEnd (stqReceive s g (salBytes s c)) t c St.success
    | none =>
      match deliver s (salQid r) s.devNum (salFtn s t) (salBytes s c) with
      | some (s, st, entry) =>
        let s := { s with fab := { s.fab with selfRefused := rest } }
        match entry with
        | some e =>
          tellWhenWritten (s.setCmd (salQid t) { c with started := true }) (salQid r) e
            (.cmd (salQid t) c.entry st (if st = St.success then leAt c.bytes 44 4 else 0))
        | none => salEnd s t c st
      | none => { s with fab := { s.fab with selfRefused := rest ++ [key] } })

/-- Tell every owner of what has ended: storage commands, growth rings, and the witnesses' grants. -/
def settleEnded (s : State) : State := twinSettle (ckpSettle (stqSettle s))

/-! ### Acceptance (R212, R215, R218) -/

/-- Raise FAB_AUTH_FAIL, at most once per 1 ms for each port (R239). -/
def authFail (s : State) (p src : Nat) : State :=
  let s := s.bump FAB_CNT.COUNT 7
  let n := Tab.get 0 s.fab.authFails p + 1
  if s.mayRaise (rateKey 3 p) then
    let s := { s with fab := { s.fab with authFails := Tab.set 0 s.fab.authFails p 0 } }
    (s.noteRaised (rateKey 3 p)).raiseUnit 0x0A08 (unitId 0x6 p) (src + 2 ^ 16 * min n 0xFFFF)
  else { s with fab := { s.fab with authFails := Tab.set 0 s.fab.authFails p n } }

/-- Whether a port accepts a frame's Ethernet header (R212): for its own address, or for an address that `also` allows, with exactly
one tag that carries VID when VLAN_EN is 1, and none otherwise. -/
def ethAccepted (s : State) (p : Nat) (e : EthHead) (also : Nat → Bool) : Bool :=
  (e.dst.toNat == s.rd FAB_PORT_MAC.MAC p || also e.dst.toNat)
    && e.tags.map (·.toNat) == (if s.flag FAB_CFG.VLAN_EN then [s.rd FAB_CFG.VID] else [])

/-- Whether a port accepts the headers of a packet (R212). -/
def frameAccepted (s : State) (p : Nat) (f : FrameHead) : Bool :=
  ethAccepted s p f.eth (fun _ => false) && f.v6 == s.flag FAB_CFG.IPV6 && f.proto.toNat == 17
    && (f.v6 || (f.ihl.toNat == 5 && !f.mf && f.frag.toNat == 0 && f.ipSum)) && f.dst.toNat == portAddr s s.devNum p
    && f.udpPort.toNat == s.rd FAB_CFG.UDP_PORT && f.udpSum

/-- Whether a port takes a packet, and the state that has counted it: on a port that is UP, in a frame that it accepts, of version
1, for this device, with keys, and with a tag that verifies. -/
def acceptPacket (s : State) (h : SalHeader) : State × Bool :=
  if s.rd FAB_PORT.STATE h.port ≠ 3 then (s, false)
  else if !frameAccepted s h.port h.frame then (s.bump FAB_CNT.COUNT 11, false)
  else if h.version ≠ 1 || h.dst.toNat ≠ s.devNum then (s.bump FAB_CNT.COUNT 11, false)
  else if !h.authentic || !fabKeyed s h.src.toNat then (authFail s h.port h.src.toNat, false)
  else
    let s := s.bump FAB_CNT.COUNT 1
    (if h.ce then s.bump FAB_CNT.COUNT 8 else s, true)

/-- Whether a packet's epoch is the current one of its context. -/
def epochCurrent (s : State) (src epoch : Nat) : Bool :=
  (s.peer src).state != Ps.none && epoch != 0 && (s.peer src).epoch == epoch

/-! ### Operations at the target -/

/-- The size of a response packet's payload for a peer. -/
def respSize (s : State) (d : Nat) : Nat :=
  let p := (s.peer d).port
  fullPayload s (if p < 16 then p else homePortOf s d)

/-- The operation that a packet belongs to: begun by FIRST, and otherwise the one in progress. -/
def rxOf (s : State) (p : RxPkt) : RxOp :=
  if p.first then { msg := p.msg }
  else ((s.peer p.src).rx.find? (·.msg == p.msg)).getD { msg := p.msg, status := St.badDescriptor }

/-- Keep an operation in progress, or end it with its OP_RESP after its last packet (R217). -/
def rxKeep (s : State) (p : RxPkt) (o : RxOp) (glade : Nat) : State :=
  let x := s.peer p.src
  let rest := x.rx.filter (·.msg != p.msg)
  if p.last then
    enqueueResponse (s.setPeer p.src { x with rx := rest }) p.src (plainResp Pt.opResp p.msg o.status glade [])
  else s.setPeer p.src { x with rx := rest ++ [o] }

/-- The first failure of an operation. -/
def RxOp.note (o : RxOp) (status : Nat) : RxOp := if o.status = 0 then { o with status := status } else o

/-- The glade of the registration of a key, for a packet that passed its check. -/
def keyGlade (s : State) (key status : Nat) : Nat := if status = St.success then (s.regEntry (keyIndex key)).glade else 0

/-- Before a later operation of a device writes to memory, what its earlier READs still have to read there is read (R202). -/
def readsFirst (s : State) (d a n : Nat) : State :=
  let late := fun (k : Pkt) =>
    k.type == Pt.readResp && k.snap.isNone && (match k.src with
      | some (b, m) => decide (b < a + n) && decide (a < b + m)
      | none => false)
  let fl := s.fab.flows.map fun f =>
    (f.1, f.2.map fun y => if y.1 == d && late y.2 then (y.1, { y.2 with snap := some (pktPayload s y.2) }) else y)
  { s with fab := { s.fab with flows := fl } }

/-- Apply a WRITE or WRITE_POST packet; the post comes after the operation's last write (R197, R202). -/
def rxWrite (s : State) (p : RxPkt) : State :=
  let r := targetWrite (readsFirst s p.src p.addr p.bytes.length) p.src p.ftn p.rkey p.addr p.bytes
  let s := r.1
  let o := (rxOf s p).note r.2
  let post : State × RxOp :=
    if p.type = Pt.writePost && p.last && o.status = 0 then
      let q := targetPost s p.rkey (p.aux % 65536) p.opv
      (q.1, o.note q.2)
    else (s, o)
  let g := keyGlade s p.rkey r.2
  rxKeep (if r.2 = St.success then post.1.meterAdd g 5 p.bytes.length else post.1) p post.2 g

/-- Answer a READ_REQ with READ_RESP packets that read memory each time they are sent, or with one that holds a status. -/
def rxRead (s : State) (p : RxPkt) : State :=
  let r := targetReadable s p.src p.ftn p.rkey p.addr p.aux
  let s := r.1
  let glade := keyGlade s p.rkey r.2
  if r.2 ≠ St.success then enqueue s p.src (.response 0) [plainResp Pt.readResp p.msg r.2 0 []]
  else
    enqueue s p.src (.response glade) ((pieces (respSize s p.src) p.aux).map fun k =>
      { plainResp Pt.readResp p.msg St.success glade [] with
        first := k.1 == 0, last := k.1 + k.2 == p.aux, moff := k.1,
        src := if k.2 = 0 then none else some (p.addr + k.1, k.2), reg := some (keyIndex p.rkey) })

/-- Perform a FADD or CAS; its response keeps the old value (R222). A response without one carries free bytes (log entry 14,
safe). -/
def rxAtomic (s : State) (p : RxPkt) : State :=
  let r := targetAtomic (readsFirst s p.src p.addr 8) p.src p.ftn p.rkey p.addr p.opv (if p.type = Pt.cas then some (leAt p.bytes 0 8) else none)
  let glade := keyGlade r.1 p.rkey r.2.2
  let d := if r.2.2 = St.success then (toLe 8 r.2.1, r.1) else r.1.freeBytes 8
  enqueueResponse d.2 p.src (plainResp Pt.atomicResp p.msg r.2.2 glade d.1)

/-- The first packet of a SEND: its queue is checked and it takes the buffer at the head; none when there is no buffer. -/
def rxSendFirst (s : State) (p : RxPkt) : Option (State × RxOp) :=
  let qid := salQid (p.aux % 2 ^ 20)
  let o : RxOp := { msg := p.msg, qid := qid }
  if !sendAllowed s qid p.ftn then some (s, o.note Sal.remoteAccess)
  else
    match replyGlade s (p.aux % 2 ^ 20) with
    | some g => some (s, { o with reply := some g })
    | none =>
      match takeBuffer s qid with
      | none => none
      | some (c, s) =>
        let st := bufferStatus s qid c
        let s := noteLookup s (leAt c.bytes 8 4)
        if st ≠ St.success then
          some (recvDone s qid c.entry 0 st p.src p.ftn, { o.note Sal.remoteAccess with took := true, entry := c.entry })
        else
          some (s, { o with buf := some (leAt c.bytes 0 8, leAt c.bytes 12 4), entry := c.entry, took := true,
                            reg := some (keyIndex (leAt c.bytes 8 4)) })

/-- Keep a SEND in progress, or end it after its last packet: its OP_RESP follows the writing of its receive entry (R199). -/
def rxSendKeep (s : State) (p : RxPkt) (o : RxOp) (glade : Nat) : State :=
  if p.last && o.took && (s.queue o.qid).due.any (fun d => d.entry == o.entry && d.tell.isNone) then
    let x := s.peer p.src
    tellWhenWritten (s.setPeer p.src { x with rx := x.rx.filter (·.msg != p.msg) }) o.qid o.entry
      (.peer p.src p.msg o.status glade)
  else rxKeep s p o glade

/-- A SEND packet's bytes go to its buffer; after the last the receive entry falls due (R200, R201). -/
def rxSendData (s : State) (p : RxPkt) (o : RxOp) : State :=
  match o.reply, o.buf with
  | some g, _ =>
    let o := { o with data := o.data ++ p.bytes }
    rxKeep (if p.last then stqReceive s g o.data else s) p o g
  | none, some (a, cap) =>
    let glade := s.queueGlade o.qid
    let n := min p.bytes.length (cap - p.moff)
    let w := (readsFirst s p.src (a + p.moff) n).gladeWrite glade (a + p.moff) (p.bytes.take n)
    let o := if n = 0 then o else o.note w.2
    let s := (if n = 0 then s else w.1).meterAdd glade 5 p.bytes.length
    let o := { o with got := o.got + n }
    let o := if cap < p.moff + p.bytes.length then o.note Sal.truncated else o
    rxSendKeep (if p.last then recvDone s o.qid o.entry o.got o.status p.src p.ftn else s) p o glade
  | none, none => rxSendKeep s p o 0

/-- An operation of this device that a response names. -/
def opOf (s : State) (p : RxPkt) (kinds : List Nat) : Option SalOp :=
  (s.peer p.src).ops.find? fun o => o.msg == p.msg && kinds.contains o.kind

/-- Change an operation. -/
def setOp (s : State) (d : Nat) (o : SalOp) : State :=
  let x := s.peer d
  s.setPeer d { x with ops := x.ops.map fun y => if y.msg == o.msg then o else y }

/-- An operation has ended with a response: it leaves its context and its owner is told. -/
def opEnd (s : State) (d : Nat) (o : SalOp) : State :=
  let x := s.peer d
  discardResponse (endOp (s.setPeer d { x with ops := x.ops.filter fun y => y.msg != o.msg }) o o.status) o

/-- Data of a response land at LADDR for a transport command, and otherwise stay with the operation; what a window read has not
got by then is uncorrectable (R270). -/
def opData (s : State) (o : SalOp) (off : Nat) (l : List Byte) : State × SalOp :=
  match o.owner with
  | .cmd qid _ =>
    if qcls qid = 4 then
      let w := s.gladeWrite o.glade (o.laddr + off) l
      (w.1, if o.status = 0 then { o with status := w.2 } else o)
    else (s, { o with data := o.data ++ l })
  | .gone _ _ => (s, o)
  | .window .. =>
    let r := padBad s o off
    (r.1, { r.2 with data := r.2.data ++ l })
  | _ => (s, { o with data := o.data ++ l })

/-- The status that a response of a peer gives its operation. A code that a transport queue does not define never appears in its
completions (R11): PROTECTION_FAULT stands for one that a peer sends all the same (log entry 14, DESIGN CHOICE). -/
def peerCode (st : Nat) : Nat :=
  if st ≤ St.epochMismatch || st = Sal.truncated || st = Sal.remoteAccess then st else St.protectionFault

/-- Take a READ_RESP, ATOMIC_RESP or OP_RESP; one that names no operation is discarded. -/
def rxResponse (s : State) (p : RxPkt) : State :=
  let kinds :=
    if p.type = Pt.readResp then [Pt.readReq]
    else if p.type = Pt.atomicResp then [Pt.fadd, Pt.cas]
    else [Pt.write, Pt.writePost, Pt.send]
  match opOf s p kinds with
  | none => s
  | some o =>
    let st := peerCode (p.aux % 256)
    let o := if o.status = 0 then { o with status := st } else o
    let r := if st = St.success && !p.bytes.isEmpty && p.type ≠ Pt.opResp then opData s o p.moff p.bytes else (s, o)
    if p.last || p.type ≠ Pt.readResp then opEnd r.1 p.src r.2 else setOp r.1 p.src r.2

/-- Apply the packet at the in-order point; none when it is not consumed (R223). -/
def rxApply (s : State) (p : RxPkt) : Option State :=
  if p.type = Pt.write || p.type = Pt.writePost then some (rxWrite s p)
  else if p.type = Pt.readReq then some (rxRead s p)
  else if p.type = Pt.fadd || p.type = Pt.cas then some (rxAtomic s p)
  else if p.type = Pt.send then
    if p.first then (rxSendFirst s p).map fun r => rxSendData r.1 p r.2
    else some (rxSendData s p (rxOf s p))
  else some (rxResponse s p)

/-! ### Order (R223, R224) -/

/-- A reliable packet whose context is at hand (R221, R223). -/
def rxProcess (s : State) (p : RxPkt) : State :=
  let d := p.src
  if !epochCurrent s d p.epoch then sendNak s p.port d (s.peer d).epoch p.psn 2 0
  else
    let s := takeApsn s d p.apsn p.ece none
    let x := s.peer d
    let diff := psnDiff p.psn x.expect
    if diff < 0 then sendAck (s.bump FAB_CNT.COUNT 3) d
    else if 0 < diff then
      let s := s.bump FAB_CNT.COUNT 4
      if x.nakAt = some x.expect then s
      else sendNak (s.setPeer d { x with nakAt := some x.expect }) x.port d x.epoch p.psn 1 0
    else
      match rxApply s p with
      | none => sendNak s x.port d x.epoch p.psn 3 50
      | some s =>
        let x := s.peer d
        let x := { x with expect := (p.psn + 1) % 2 ^ 48, nakAt := none, tse := p.ts, unackedRx := x.unackedRx + 1,
                          oweEce := x.oweEce || p.ce }
        let s := s.setPeer d x
        if p.ackreq || 16 ≤ x.unackedRx then sendAck s d else s

/-! ### Packets that take no PSN (R217, R221, R224, R225) -/

/-- An ACK under the current epoch: APSN, a round-trip sample, and the answer to the twin's PROBE (R224, R231, R380). -/
def rxAck (s : State) (p : RxPkt) : State :=
  if epochCurrent s p.src p.epoch then
    let s := takeApsn s p.src p.apsn p.ece (if p.tse = 0 then none else some p.tse)
    if s.twin.probeOut && s.rd TWN_CFG.TWIN_DEV = p.src then
      { s with twin := { s.twin with probeOut := false, lastAnswer := some s.now } }
    else s
  else s

/-- An epoch NAK (R221): epoch 0 shows a peer that has restarted, and another epoch one that has moved on. The FRESH HELLO to a
restarted peer proposes the next epoch, since an epoch never uses a nonce again (R218; log entry 14, DEDUCED). -/
def rxEpochNak (s : State) (d epoch : Nat) : State :=
  let x := s.peer d
  if x.state = Ps.none || x.state = Ps.opening || x.state = Ps.unreachable then s
  else if epoch = 0 then
    let had := x.ops.any fun o => o.sent && o.live
    let next := nextEpoch x.epoch
    let s := dropResponses (endOps s d (·.sent) St.epochMismatch) d
    let s := if had then s.raiseUnit 0x0A02 (unitId 0xB (4 + peerQuad s d)) (2 ^ 32 + 2 ^ 16 * next + d) else s
    sendHello s d next true
  else if epoch = x.epoch then s
  else sendHello s d (nextEpoch (if laterEpoch epoch x.epoch then epoch else x.epoch)) false

/-- A NAK received (R225). -/
def rxNak (s : State) (p : RxPkt) : State :=
  let d := p.src
  let code := p.aux % 256
  if code = 2 then rxEpochNak s d p.epoch
  else if !epochCurrent s d p.epoch then s
  else
    let s := takeApsn s d p.apsn p.ece none
    let x := s.peer d
    if code = 1 then
      if x.seqFrom = some x.low then s else s.setPeer d ({ x with seqFrom := some x.low }.resendFrom x.low)
    else if code = 3 then
      let psn := p.addr % 2 ^ 48
      match x.unacked.find? fun k => k.psn == some psn with
      | some k =>
        let s := s.setPeer d ({ x with paused := true, refusedPsn := some psn }.resendFrom psn)
        if x.expired = some k.msg then giveUpSend s d k else s
      | none => s
    else s

/-- A PROBE received is answered by an ACK. -/
def rxProbe (s : State) (p : RxPkt) : State :=
  if epochCurrent s p.src p.epoch then sendAck (takeApsn s p.src p.apsn p.ece none) p.src else s

/-- A HELLO received (R220, R221): the epoch adopted, and the answer. -/
def rxHello (s : State) (h : RxPkt) : State :=
  let d := h.src
  let p := h.epoch
  let x := s.peer d
  if p = 0 then s
  else if x.state = Ps.none && (!mayCreatePeer s || !mayCache s (peerQuad s d)) then s
  else if x.state = Ps.opening && d < s.devNum then s
  else
    let s := if x.state = Ps.none then createPeer s d else s
    let e := if x.epoch = 0 || laterEpoch p x.epoch then p else nextEpoch x.epoch
    let s := adoptEpoch s d e h.psn h.fresh
    let y := s.peer d
    sendCtl s y.port { device := d, type := Pt.helloAck, epoch := e, psn := y.nextPsn, addr := 0, aux := 0, fresh := false,
                       ece := false }

/-- A HELLO_ACK received: the context becomes OPEN under the epoch it carries. -/
def rxHelloAck (s : State) (p : RxPkt) : State :=
  if (s.peer p.src).state = Ps.opening && p.epoch ≠ 0 then
    adoptEpoch s p.src p.epoch p.psn p.fresh
  else s

/-- A packet of an accepted frame whose context is at hand. -/
def rxAny (s : State) (p : RxPkt) : State :=
  if p.type < Pt.ack then rxProcess s p
  else if p.type = Pt.ack then rxAck s p
  else if p.type = Pt.nak then rxNak s p
  else if p.type = Pt.probe then rxProbe s p
  else if p.type = Pt.hello then rxHello s p
  else rxHelloAck s p

/-! ### The miss buffer (R228, R229) -/

/-- The NOT_READY hint of a full miss buffer, in µs (R229). -/
def missHint (s : State) : Nat := if s.flag FAB_CTX_CFG.LOC then 7 else 2

/-- A packet beyond the miss buffer's limits is dropped (R229): a NOT_READY NAK, and FAB_MISS_OVERFLOW at most once per
1 ms for each quadrant. -/
def missDrop (s : State) (p : RxPkt) : State :=
  let q := peerQuad s p.src
  let s := s.bump FAB_CNT.COUNT 10
  let e := (s.peer p.src).epoch
  let s := if e = 0 then s else sendNak s p.port p.src e p.psn 3 (missHint s)
  let n := Tab.get 0 s.fab.missDrops q + 1
  if s.mayRaise (rateKey 4 q) then
    let s := { s with fab := { s.fab with missDrops := Tab.set 0 s.fab.missDrops q 0 } }
    (s.noteRaised (rateKey 4 q)).raiseUnit 0x0A07 (unitId 0xB (4 + q)) (p.src + 2 ^ 16 * min n 0xFFFF)
  else { s with fab := { s.fab with missDrops := Tab.set 0 s.fab.missDrops q n } }

/-- A packet of an accepted frame (R221, R228, R229): with no context a reliable packet is answered with an epoch NAK and a
HELLO opens one; a packet is held while its context is not cached, and is otherwise processed. -/
def rxPacket (s : State) (p : RxPkt) : State :=
  let x := s.peer p.src
  if x.state = Ps.none then
    if p.type < Pt.ack then sendNak s p.port p.src 0 p.psn 2 0 else if p.type = Pt.hello then rxHello s p else s
  else if !peerCached s p.src || !x.missed.isEmpty then
    let s := if x.missed.isEmpty then s.bump FAB_CNT.COUNT 9 else s
    if x.missed.length < 32 && missBytes s (peerQuad s p.src) + p.size ≤ 0x800000 then
      s.setPeer p.src { x with missed := x.missed ++ [p] }
    else missDrop s p
  else rxAny (touchCtx s (.peer p.src)) p

/-- The packet of a header and its payload. -/
def mkRx (type : Nat) (h : SalHeader) (l : List Byte) : RxPkt :=
  { type := type, port := h.port, src := h.src.toNat, epoch := h.epoch.toNat, psn := h.psn.toNat, first := h.first,
    last := h.last, ackreq := h.ackreq, ce := h.ce, ece := h.ece, apsn := h.apsn.toNat, ts := h.ts.toNat,
    tse := h.tse.toNat, ftn := h.ftn.toNat, addr := h.addr.toNat, rkey := h.rkey.toNat, msg := h.msg.toNat,
    moff := h.moff.toNat, aux := h.aux.toNat, opv := h.opv.toNat, bytes := l, fresh := h.fresh }

/-- Receive a packet. One whose write must be held (R88, R384) is not applied, and its sender sends it again (log entry 27). -/
def receive (s : State) (type : Nat) (h : SalHeader) (l : List Byte) : State :=
  let r := acceptPacket s h
  if r.2 then orHold r.1 (settleEnded (rxPacket r.1 (mkRx type h l))) else r.1

/-- A WRITE packet. -/
def execPktWrite (h : SalHeader) (data : List Byte) (s : State) : Out := .next (receive s Pt.write h data)

/-- A WRITE_POST packet. -/
def execPktWritePost (h : SalHeader) (data : List Byte) (s : State) : Out := .next (receive s Pt.writePost h data)

/-- A READ_REQ packet. -/
def execReadReq (h : SalHeader) (s : State) : Out := .next (receive s Pt.readReq h [])

/-- A FADD packet. -/
def execPktFadd (h : SalHeader) (s : State) : Out := .next (receive s Pt.fadd h [])

/-- A CAS packet, with its 8-byte swap value. -/
def execPktCas (h : SalHeader) (swap : BitVec 64) (s : State) : Out := .next (receive s Pt.cas h (toLe 8 swap.toNat))

/-- A SEND packet. -/
def execPktSend (h : SalHeader) (data : List Byte) (s : State) : Out := .next (receive s Pt.send h data)

/-- A READ_RESP packet. -/
def execReadResp (h : SalHeader) (data : List Byte) (s : State) : Out := .next (receive s Pt.readResp h data)

/-- An ATOMIC_RESP packet, with its 8-byte old value. -/
def execAtomicResp (h : SalHeader) (old : BitVec 64) (s : State) : Out :=
  .next (receive s Pt.atomicResp h (toLe 8 old.toNat))

/-- An OP_RESP packet. -/
def execOpResp (h : SalHeader) (s : State) : Out := .next (receive s Pt.opResp h [])

/-- An ACK packet. -/
def execAck (h : SalHeader) (s : State) : Out := .next (receive s Pt.ack h [])

/-- A NAK packet. -/
def execNak (h : SalHeader) (s : State) : Out := .next (receive s Pt.nak h [])

/-- A PROBE packet. -/
def execProbe (h : SalHeader) (s : State) : Out := .next (receive s Pt.probe h [])

/-- A HELLO packet. -/
def execHello (h : SalHeader) (s : State) : Out := .next (receive s Pt.hello h [])

/-- A HELLO_ACK packet. -/
def execHelloAck (h : SalHeader) (s : State) : Out := .next (receive s Pt.helloAck h [])

/-! ### Address resolution and other frames (R212) -/

/-- The Ethernet header of a frame the port's hardware answers with. -/
def ethHead (s : State) (p : Nat) (dst type : Nat) : List Byte :=
  let tag := if s.flag FAB_CFG.VLAN_EN then toBe 2 0x8100 ++ toBe 2 (8192 * s.rd FAB_CFG.PCP + s.rd FAB_CFG.VID) else []
  toBe 6 dst ++ toBe 6 (s.rd FAB_PORT_MAC.MAC p) ++ tag ++ toBe 2 type

/-- An ARP request for the port's address is answered, and any other is dropped and counted. Its frame is for the port, or broadcast
(R212). -/
def execArpRequest (p : Fin 16) (ask : EthAsk) (ip target : BitVec 32) (s : State) : Out :=
  if s.rd FAB_PORT.STATE p ≠ 3 then .next s
  else if !ethAccepted s p ask.eth (· == 0xFFFFFFFFFFFF) || s.flag FAB_CFG.IPV6 || target.toNat ≠ portAddr s s.devNum p then
    .next (s.bump FAB_CNT.COUNT 11)
  else
    .next (s.emit (.ethFrame p (ethHead s p ask.mac.toNat 0x0806 ++ toBe 2 1 ++ toBe 2 0x0800 ++ toBe 1 6 ++ toBe 1 4 ++ toBe 2 2
      ++ toBe 6 (s.rd FAB_PORT_MAC.MAC p) ++ toBe 4 target.toNat ++ toBe 6 ask.mac.toNat ++ toBe 4 ip.toNat)))

/-- A neighbour advertisement for the port's address (RFC 4861). -/
def neighbourAdvert (s : State) (p : Nat) (mac src : Nat) : List Byte :=
  let own := portAddr s s.devNum p
  let dst := if src = 0 then 0xFF02 * 2 ^ 112 + 1 else src
  let to_ := if src = 0 then 0x333300000001 else mac
  let icmp := fun c => toBe 1 136 ++ toBe 1 0 ++ toBe 2 c ++ toBe 4 ((if src = 0 then 0x20000000 else 0x60000000))
    ++ toBe 16 own ++ toBe 1 2 ++ toBe 1 1 ++ toBe 6 (s.rd FAB_PORT_MAC.MAC p)
  let c := inetChecksum (toBe 16 own ++ toBe 16 dst ++ toBe 4 32 ++ toBe 4 58 ++ icmp 0)
  ethHead s p to_ 0x86DD ++ toBe 4 (6 * 2 ^ 28) ++ toBe 2 32 ++ toBe 1 58 ++ toBe 1 255 ++ toBe 16 own ++ toBe 16 dst ++ icmp c

/-- An IPv6 neighbour solicitation for the port's address is answered, and any other is dropped and counted. Its frame is for the port,
or for the multicast address that RFC 4861 gives its target (log entry 14, PRESUMED). -/
def execNeighbourSolicitation (p : Fin 16) (ask : EthAsk) (src target : BitVec 128) (s : State) : Out :=
  if s.rd FAB_PORT.STATE p ≠ 3 then .next s
  else if !ethAccepted s p ask.eth (· == 0x3333FF000000 + target.toNat % 0x1000000) || !s.flag FAB_CFG.IPV6 || target.toNat ≠ portAddr s s.devNum p then
    .next (s.bump FAB_CNT.COUNT 11)
  else .next (s.emit (.ethFrame p (neighbourAdvert s p ask.mac.toNat src.toNat)))

/-- A frame the port does not accept is counted: 0 any other, 1 PAUSE or priority flow control, 2 a bad FCS (R232, R240). -/
def execEthFrameDrop (p : Fin 16) (kind : Fin 3) (s : State) : Out :=
  if s.rd FAB_PORT.STATE p ≠ 3 then .next s else .next (s.bump FAB_CNT.COUNT (11 + kind.val))

/-! ### Timers (R224 to R226, R229) -/

/-- 2 µs after the oldest unacknowledged packet was applied, an ACK is sent. -/
def execAckTimerExpire (d : BitVec 16) (s : State) : Out :=
  if (s.peer d.toNat).unackedRx = 0 then .next s else .next (sendAck s d.toNat)

/-- The retransmission timer expires: everything unacknowledged is sent again, W falls to one packet, and after three in a
row the path moves (R219, R226). -/
def execRtoExpire (d : BitVec 16) (s : State) : Out :=
  let d := d.toNat
  let x := s.peer d
  if x.unacked.isEmpty then .next s
  else
    let n := x.expiries + 1
    let s := s.setPeer d ({ x with expiries := n, win := fullPayload s (x.port % 16) }.resendFrom x.low)
    .next (if n % 3 = 0 then movePath s d else s)

/-- TIMEOUT passes without progress: the context is UNREACHABLE (R226). -/
def execPeerTimeout (d : BitVec 16) (s : State) : Out :=
  let d := d.toNat
  let x := s.peer d
  if x.state = Ps.opening || ((x.state = Ps.open_ || x.state = Ps.quiescing) && !x.unacked.isEmpty) then
    .next (settleEnded (ckpDeviceLost (peerLost s d) d))
  else .next s

/-- HOLDOFF passes: a command may open the context again. -/
def execHoldoffExpire (d : BitVec 16) (s : State) : Out :=
  let x := s.peer d.toNat
  if x.holdoff then .next (s.setPeer d.toNat { x with holdoff := false }) else .next s

/-- A NOT_READY pause ends: the refused packet and those after it may be sent again. -/
def execNotReadyPauseExpire (d : BitVec 16) (s : State) : Out :=
  let x := s.peer d.toNat
  if x.paused then .next (s.setPeer d.toNat { x with paused := false }) else .next s

/-- The packets held for a context are processed in order once it is fetched (R229). With the backing table in host memory
and host access off the fetch fails, and they are dropped with a NOT_READY (R236). -/
def execContextFetchDone (d : BitVec 16) (s : State) : Out :=
  let s₀ := s
  let d := d.toNat
  let x := s.peer d
  if x.missed.isEmpty || x.state = Ps.none then .next s
  else if s.flag FAB_CTX_CFG.LOC && !s.masterOn s.medPort then
    let s := s.setPeer d { x with missed := [] }
    .next (if x.epoch = 0 then s else x.missed.foldl (fun s p => sendNak s p.port d x.epoch p.psn 3 7) s)
  else if !ctxReady s (.peer d) then .next s
  else
    let s := (touchCtx s (.peer d)).setPeer d { x with missed := [] }
    .next (orHold s₀ (settleEnded (x.missed.foldl rxAny s)))

/-! ### The context store's settings (R227, R240) -/

/-- Whether any context exists. -/
def anyContext (s : State) : Bool := 0 < peerCount s + ctxUsed s

/-- A write to FAB_CTX_CFG. -/
def ctxCfgWrite (s : State) (v : Nat) : State :=
  let reserve := bitsOf v 12 17
  let s :=
    if s.flag FAB_LOCK.LOCKED then s
    else
      let s := s.wrs 0 [(FAB_CTX_CFG.LOC, bitsOf v 0 1), (FAB_CTX_CFG.REGION, bitsOf v 2 10)]
      if reserve < peerCount s || 65536 < reserve then s else refreshPools (s.wr FAB_CTX_CFG.PEER_RESERVE 0 reserve)
  if bitOf v 1 then
    let r := s.rd FAB_CTX_CFG.REGION
    let ok :=
      if s.flag FAB_CTX_CFG.LOC then s.rd FAB_CTX_HOST.ADDR != 0
      else s.flag MEM_RGN_A.VALID r && 0x4000000 ≤ rgnLen s r
    if s.flag FAB_CTX_CFG.ENABLE || ok then s.wr FAB_CTX_CFG.ENABLE 0 1 else s
  else if anyContext s then s
  else s.wr FAB_CTX_CFG.ENABLE 0 0

/-- A write of FAB_CTX_CFG. -/
def execCtxStoreCfgWrite (v : BitVec 64) (s : State) : Out := unlessNoImage s <| .next (ctxCfgWrite s v.toNat)

end Sys2Proof.Machine
end

