-- ==== Sys2Proof/Machine/Images.lean ====
section
/-! DEFINITION. Firmware images: their trailer, their structure, their sections (R323, R324, R417). Choices and readings of
the model: log entry 25. -/
namespace Sys2Proof.Machine

open Sys2Proof

/-- The security trailer of an image: its last 416 bytes. -/
def trailerOf (img : List Byte) : List Byte := img.drop (img.length - 416)

/-- The trailer's magic, usage and two signatures are good (R323). -/
def trailerOk (img : List Byte) : Bool :=
  let t := trailerOf img
  416 ≤ img.length && leAt t 0 4 == 0x52545746 && leAt t 12 4 == 1 && zeroAt t 149 3
    && Config.ecdsaVerify Config.vendorRootKey (bytesAt t 12 140) (bytesAt t 152 132)
    && Config.ecdsaVerify (bytesAt t 16 133) (img.take (img.length - 132)) (bytesAt t 284 132)

/-- The image's SVN lies below MIN_SVN while the flash provides a counter (R324). -/
def imageOld (s : State) (img : List Byte) : Bool :=
  s.flag SEC_ROLLBACK.BASIS && leAt (trailerOf img) 4 4 < s.rd SEC_ROLLBACK.MIN_SVN

/-- Two ranges of bytes do not meet. -/
def apart (a b : Nat × Nat) : Bool := a.1 + a.2 ≤ b.1 || b.1 + b.2 ≤ a.1

/-- The ranges of a list are apart from each other. -/
def allApart : List (Nat × Nat) → Bool
  | [] => true
  | a :: t => t.all (apart a) && allApart t

/-- The directory entries of an image: type, offset, length (R417). -/
def fwSections (img : List Byte) : List (Nat × Nat × Nat) :=
  (List.range (leAt img 6 2)).map fun k => (leAt img (64 + 16 * k) 2, leAt img (68 + 16 * k) 4, leAt img (72 + 16 * k) 4)

/-- The image's header and directory hold their stated values, and no section meets anything else (R417). -/
def imageShape (img : List Byte) : Bool :=
  let n := leAt img 6 2
  let l := fwSections img
  leAt img 0 4 == 0x4D495746 && leAt img 4 2 == 1 && 1 ≤ n && n ≤ 16 && leAt img 8 4 == img.length
    && img.length % 8 == 0 && 4096 ≤ img.length && img.length ≤ 0x4000000 && leAt img 38 2 == 0x4160
    && leAt img 40 1 == 0xA1 && zeroAt img 41 23
    && ((List.range n).all fun k => zeroAt img (66 + 16 * k) 2 && zeroAt img (76 + 16 * k) 4)
    && (l.all fun x => 1 ≤ x.1 && x.1 ≤ 3 && x.2.1 % 64 == 0 && x.2.1 + x.2.2 ≤ img.length - 416
        && 64 + 16 * n ≤ x.2.1)
    && allApart (l.map (·.2))

/-- The bytes of an image's sections of a type, in directory order. -/
def sectionBytes (img : List Byte) (type : Nat) : List Byte :=
  ((fwSections img).filter fun x => x.1 == type).flatMap fun x => bytesAt img x.2.1 x.2.2

end Sys2Proof.Machine
end

