-- ==== Sys2Proof/Machine/CoreOps.lean ====
section
/-! DEFINITION. Worker cores and management cores: registers, local memory, their view in CPU_CORE, starting and stopping them
(R390 to R395, R408, R409, R416). Choices and readings of the model: log entry 23. -/
namespace Sys2Proof.Machine

open Sys2Proof

/-- The number under which the management cores' registers are held. -/
def mgmtKey : Nat := 256

/-- The registers of a core. -/
def State.core (s : State) (k : Nat) : Core := Tab.get {} s.cpu.cores k

/-- The state with a core's registers replaced. -/
def State.setCore (s : State) (k : Nat) (c : Core) : State :=
  { s with cpu := { s.cpu with cores := Tab.set {} s.cpu.cores k c } }

/-- The CPU_CORE entry of a worker core (R416). -/
def coreEntry (k : Nat) : Nat := 17 * (k / 16) + k % 16

/-- The role of a worker core: 0 firmware, 1 pool free, 2 pool assigned, 3 out of service. -/
def coreRole (s : State) (k : Nat) : Nat := s.rd CPU_CORE.ROLE (coreEntry k)

/-- Whether a core runs firmware when it is in service (R390): a management core, or worker core 0 to 3 of a cluster. -/
def firmwareCore (k : Nat) : Bool := 256 ≤ k || k % 16 < 4

/-- The privilege level at which a core takes its traps (R395). -/
def handlerLevel (k : Nat) : Nat := if firmwareCore k then 3 else 1

/-- The active management pair. -/
def activePair (s : State) : Nat := s.rd CPU_MGMT.ACTIVE

/-- Whether a management pair is in service. -/
def mgmtOk (s : State) (p : Nat) : Bool := if p = 0 then s.flag CPU_MGMT.PAIR0_OK else s.flag CPU_MGMT.PAIR1_OK

/-- The unit identifier of a core (R17). -/
def coreUnit (s : State) (k : Nat) : Nat :=
  if 256 ≤ k then unitId 0x0 (activePair s + 1) else unitId 0x4 (k / 16 * 32 + k % 16)

/-- The number under which a core's debugging is held. -/
def debugKey (s : State) (k : Nat) : Nat := if 256 ≤ k then 256 + activePair s else k

/-- What the Trail port keeps for a core. -/
def State.debugOf (s : State) (d : Nat) : Debug := Tab.get {} s.cpu.probes d

/-- The state with a core's debugging replaced. -/
def State.setDebug (s : State) (d : Nat) (x : Debug) : State :=
  { s with cpu := { s.cpu with probes := Tab.set {} s.cpu.probes d x } }

/-- Show a worker core's state (R416). -/
def showCore (s : State) (k st : Nat) : State := if k < 256 then s.wr CPU_CORE.STATE (coreEntry k) st else s

/-- The state CPU_CORE shows of a running core: halted by the debugger, waiting, or running. -/
def liveState (s : State) (k : Nat) : Nat :=
  if (s.debugOf (debugKey s k)).halted then 3
  else if (s.core k).wfi || (s.waits.any fun w => w.who == .core k) then 2
  else 1

/-- Whether a core executes instructions now. -/
def coreRuns (s : State) (k : Nat) : Bool :=
  let d := s.debugOf (debugKey s k)
  if k < 256 then s.rd CPU_CORE.STATE (coreEntry k) == 1 && coreRole s k != 3 && d.hit.isNone
  else
    s.cpu.mgmtOn && !s.cpu.failover && mgmtOk s (activePair s) && !d.halted && d.hit.isNone && !(s.core k).wfi
      && !(s.waits.any fun w => w.who == .core k)

/-! ### Local memory (R392) -/

/-- Bytes of a core's local memory. -/
def localSize (k : Nat) : Nat := if k < 256 then 0x40000 else 0x100000

/-- Where a core's local memory is held. -/
def localBase (k : Nat) : Nat := 0x40000 * k

/-- Bytes of local memory. -/
def localBytes (s : State) (k a n : Nat) : List Byte :=
  (List.range n).map fun i => Tab.get memDefault s.cpu.mem (localBase k + a + i)

/-- Write bytes of local memory. -/
def localStore (s : State) (k a : Nat) (l : List Byte) : State :=
  { s with cpu := { s.cpu with mem := Mem.store s.cpu.mem (localBase k + a) l } }

/-- A core's local memory becomes zero. -/
def localZero (s : State) (k : Nat) : State :=
  { s with cpu := { s.cpu with
      mem := Mem.lower s.cpu.mem (localBase k) ++ Mem.upper s.cpu.mem (localBase k + localSize k) } }

/-! ### Firmware on cores (R421, the management complex's copy of R410) -/

/-- A firmware core starts with an image's code. The spec gives neither the place of the code in local memory nor the address
at which it starts: both are free (log entry 23, safe). -/
def startFirmware (s : State) (k : Nat) (code : List Byte) : State :=
  let a := s.freeWord
  let b := a.2.freeWord
  let place := a.1.toNat % localSize k
  let s := localStore b.2 k place (code.take (localSize k - place))
  let s := s.dropWait (.core k)
  let s := s.setCore k { pc := b.1.toNat % 2 ^ 31 * 2, wdog := s.now, soft := (s.core k).soft }
  showCore s k 1

/-- Firmware cores of the device that are in service. -/
def firmwareCores (s : State) : List Nat := below 256 fun k => firmwareCore k && coreRole s k == 0

/-- An image starts on both management pairs and on every firmware worker core (R421). -/
def startImage (s : State) (img : List Byte) : State :=
  let s := { s with cpu := { s.cpu with mgmtOn := true } }
  let s := startFirmware s mgmtKey (sectionBytes img 1)
  (firmwareCores s).foldl (fun s k => startFirmware s k (sectionBytes img 2)) s

/-- The firmware on every core stops. -/
def stopImage (s : State) : State :=
  let s := { s with cpu := { s.cpu with mgmtOn := false } }
  let s := s.dropWait (.core mgmtKey)
  (firmwareCores s).foldl (fun s k => (showCore s k 0).dropWait (.core k)) s

/-- The cluster whose firmware cores serve the storage and checkpoint queues of a cluster, if any does (R391). -/
def servingCluster (s : State) (c : Nat) : Option Nat :=
  let live := fun c => (List.range 4).any fun j => coreRole s (16 * c + j) == 0
  if live c then some c else if live ((c + 1) % 16) then some ((c + 1) % 16) else none

/-- Whether firmware fetches commands of set-up, storage, checkpoint and offload queues now: no activation stops it
(R421), a management pair is in service (R412), and the active pair is neither halted (R461) nor changing over. -/
def controlFetch (s : State) : Bool :=
  let d := s.debugOf (256 + activePair s)
  !fetchPaused s && mgmtOk s (activePair s) && !d.halted && !d.stepping && !s.cpu.failover

/-! ### Program slots (R406 to R411) -/

/-- The cores of a program slot, in ascending order. -/
def slotCores (s : State) (slot : Nat) : List Nat :=
  below 256 fun k => !firmwareCore k && coreRole s k == 2 && s.rd CPU_CORE.SLOT (coreEntry k) == slot

/-- The glade a core's program runs for (R393). -/
def coreGlade (s : State) (k : Nat) : Nat := if firmwareCore k then 0 else s.rd CPU_CORE.GLADE (coreEntry k)

/-- Every core of a slot stops at an instruction boundary, and its waits are abandoned (R407). A core that a debugger has
halted stays halted. -/
def slotHalt (s : State) (slot : Nat) : State :=
  (slotCores s slot).foldl (fun s k => (showCore (s.setCore k { s.core k with wfi := false }) k 3).dropWait (.core k)) s

/-- A program fault on a core of a running slot: the whole slot stops (R411). -/
def slotFault (s : State) (k tcause : Nat) : State :=
  let slot := s.rd CPU_CORE.SLOT (coreEntry k)
  if s.rd CPU_OFL_A.STATE slot = 2 then
    let g := s.rd CPU_OFL_A.GLADE slot
    let s := (slotHalt s slot).wr CPU_OFL_A.STATE slot 4
    let s := if s.flag CPU_OFL_A.FAULT_EN slot then s.post g (s.rd CPU_OFL_A.FAULT_CTR slot) 1 else s
    let s := s.bump CPU_CNT.COUNT 1
    s.raise 0x1202 (coreUnit s k) g 0 0 (slot + tcause % 2 ^ 32 * 2 ^ 8)
  else s

end Sys2Proof.Machine
end

