-- ==== Sys2Proof/Machine/RegWrite.lean ====
section
/-! DEFINITION. What a write does to the fields of a register: the access codes and the lock bits of the blocks (R6). Choices
and readings of the model: log entry 32. -/
namespace Sys2Proof.Machine

open Sys2Proof

/-- Whether the lock bit of the block that holds an offset is set. -/
def lockedAt (s : State) (off : Nat) : Bool :=
  match blockOf off with
  | some .clk => s.flag CLK_LOCK.LOCKED
  | some .pwr => s.flag PWR_LOCK.LOCKED
  | some .ust => s.flag UST_LOCK.LOCKED
  | some .fab => if 0x13C0000 ≤ off then s.flag FAB_SAL_LOCK.LOCKED else s.flag FAB_LOCK.LOCKED
  | some .sec => s.flag SEC_DEBUG.LOCK
  | some .twn => s.flag TWN_LOCK.LOCKED
  | _ => false

/-- What a field holds after a write of `v` to it, when it held `old` (R6). A WO field triggers what its register
describes and holds nothing. -/
def Fld.after (f : Fld) (locked : Bool) (old v : Nat) : Nat :=
  match f.acc with
  | .rw => v % 2 ^ f.width
  | .rwl => if locked then old else v % 2 ^ f.width
  | .w1c => Nat.land old (2 ^ f.width - 1 - v % 2 ^ f.width)
  | .w1s => Nat.lor old (v % 2 ^ f.width)
  | .ro => old
  | .wo => old

/-- The part of a register word that a field takes. -/
def Fld.of (f : Fld) (v : Nat) : Nat := bitsOf v f.lsb f.width

/-- A write of the word `v` to some fields of register entry `i` (R6). -/
def State.writeFields (s : State) (l : List Fld) (i v : Nat) : State :=
  l.foldl (fun s f => s.wr f i (f.after (lockedAt s (f.addr i)) (s.rd f i) (f.of v))) s

/-- What a read of the register space returns inside the device (R6, R21): WO and reserved fields read as zero, and an
offset with no register reads as zero. -/
def State.readReg (s : State) (off : Nat) : Nat :=
  match findReg off with
  | some r =>
    match r.index off with
    | some i => r.fields.foldl (fun v f => if f.acc = .wo then v else putBits v f.lsb f.width (s.rd f i)) 0
    | none => 0
  | none => 0

/-! ### Flags of BAR0 accesses (R24) -/

end Sys2Proof.Machine
end

