-- ==== Sys2Proof/Machine/Telemetry.lean ====
section
/-! DEFINITION. Telemetry: clearing statistic counters, sampled streams, metering records and their ring (R434 to R444).
Choices and readings of the model: log entries 1 and 24. -/
namespace Sys2Proof.Machine

open Sys2Proof

/-! ### Statistic counters (R434 to R436) -/

/-- The registers that are statistic counters. -/
def statCounters : List Fld :=
  [CLK_XTO_CNT.COUNT, CLK_MERGE_CNT.COUNT, PWR_CNT.COUNT, MEM_CE_CNT.COUNT, MEM_UE_CNT.COUNT, TILE_DMA_WAIT.CYCLES,
   UST_LANE_CRC.COUNT, UST_LANE_REPLAY.COUNT, UST_DROP.COUNT, FAB_CNT.COUNT, FAB_SAL_DENIED.COUNT, FAB_SAL_RKT_MISS.COUNT,
   OPT_FEC_CORR.COUNT, OPT_FEC_UNCORR.COUNT, SCH_POL_CNT.COUNT, SCH_GLADE_BYTES.COUNT, HEP_CNT.COUNT, HEP_EVR_DROP.COUNT,
   HEP_EVR_UNMATCHED.COUNT, GLD_STALE_CNT.COUNT, GLD_DB_DROP.COUNT, STQ_CNT.COUNT, CKP_CNT.COUNT, TWN_CNT.COUNT,
   TLM_STR_DROP.VALUE, CPU_CNT.COUNT]

/-- Whether an offset names a statistic counter. -/
def isCounter (off : Nat) : Bool :=
  match findReg off with
  | some r => statCounters.any fun f => f.base == r.base
  | none => false

/-- The overflow summary shows the blocks that hold an overflow bit (R435). -/
def showOverflow (s : State) : State :=
  s.wr TLM_OVF_SUM.BLOCKS 0
    ((List.range 19).foldl
      (fun m b => if s.overflow.any fun o => (blockOf o).map Blk.number == some b then m + 2 ^ b else m) 0)

/-- A statistic counter and its overflow bit become 0 (R436). -/
def clearCounter (s : State) (off : Nat) : State :=
  showOverflow { s.setReg off 0 with overflow := s.overflow.filter (· != off) }

/-- The statistic counters of a block that are not 0. -/
def busyCounters (s : State) (b : Option Blk) : List Nat :=
  (s.regs.map (·.1)).filter fun o => blockOf o == b && isCounter o

/-- A command of TLM_CTR_CMD: OP 1 QUERY, 2 CLEAR, 3 CLEAR_BLOCK. -/
def counterCmd (s : State) (op off : Nat) : State :=
  let s := s.wrs 0 [(TLM_CTR_CMD.OFFSET, off / 8), (TLM_CTR_CMD.OP, op), (TLM_CTR_CMD.OVF, 0), (TLM_CTR_CMD.NOT_COUNTER, 0)]
  if isCounter off then
    match op with
    | 1 => s.wr TLM_CTR_CMD.OVF 0 (b2n (s.overflow.contains off))
    | 2 => clearCounter s off
    | 3 => (busyCounters s (blockOf off)).foldl clearCounter s
    | _ => s
  else s.wr TLM_CTR_CMD.NOT_COUNTER 0 1

/-- QUERY; the offset is in units of 8 bytes, as the register takes it. -/
def execQuery (off : BitVec 23) (s : State) : Out := unlessNoImage s <| .next (counterCmd s 1 (8 * off.toNat))

/-- CLEAR. -/
def execClear (off : BitVec 23) (s : State) : Out := unlessNoImage s <| .next (counterCmd s 2 (8 * off.toNat))

/-- CLEAR_BLOCK. -/
def execClearBlock (off : BitVec 23) (s : State) : Out := unlessNoImage s <| .next (counterCmd s 3 (8 * off.toNat))

/-! ### Rings of telemetry (R438, R440) -/

/-- Whether a ring's base and size are valid (R275): in host memory it does not run past 2^64 - 1; in device DRAM it lies in
one valid region that is not closed. -/
def ringPlaced (s : State) (host : Bool) (base len : Nat) : Bool :=
  if host then base + len ≤ 2 ^ 64
  else
    match s.region base len with
    | some i => !rgnClosed s i
    | none => false

/-- Whether a port is HOST (R258). -/
def portHost (s : State) (p : Nat) : Bool := !s.flag HEP_PORT_STAT.ROLE p

/-- Records written to a ring of device-level work, without a PASID. They are taken as event records, which never carry Relaxed Ordering
(R265; log entry 26, DEDUCED). -/
def teleStore (s : State) (host : Bool) (p a : Nat) (l : List Byte) : State :=
  if host then s.emit (.hostWrite p none a l false false) else s.write a l

/-! ### Sampled streams (R438) -/

/-- Records of a stream's ring. -/
def strSize (s : State) (k : Nat) : Nat := 2 ^ s.rd TLM_STR_CFG.LOG2SIZE k

/-- Whether a stream's settings may be put in force. -/
def strOk (s : State) (k : Nat) : Bool :=
  let l := s.rd TLM_STR_CFG.LOG2SIZE k
  let p := s.rd TLM_STR_CFG.PERIOD_US k
  let n := s.rd TLM_STR_CFG.NCTR k
  4 ≤ l && l ≤ 16 && 10 ≤ p && p ≤ 1000000 && 1 ≤ n && n ≤ 28 && portHost s (s.rd TLM_STR_CFG.PORT k)
    && ringPlaced s (s.flag TLM_STR_BASE.LOC k) (s.rd TLM_STR_BASE.ADDR k * 64) (256 * strSize s k)

/-- A write to TLM_STR_CFG: its fields ignore it while ENABLE is 1, and setting ENABLE starts the stream or is refused. -/
def strCfgWrite (s : State) (k v : Nat) : State :=
  let on := s.flag TLM_STR_CFG.ENABLE k
  let s := if on then s else
    s.writeFields [TLM_STR_CFG.LOG2SIZE, TLM_STR_CFG.PORT, TLM_STR_CFG.PERIOD_US, TLM_STR_CFG.NCTR, TLM_STR_CFG.VECTOR] k v
  if !bitOf v 0 then s.wr TLM_STR_CFG.ENABLE k 0
  else if on then s
  else if strOk s k then
    let s := { s with tlm := { s.tlm with streams := Tab.set {} s.tlm.streams k {} } }
    ((s.wr TLM_STR_CFG.ENABLE k 1).wr TLM_STR_HEAD.VALUE k 0).wr TLM_STR_TAIL.VALUE k 0
  else s

/-- Setting TLM_STR_CFG.ENABLE. -/
def execTlmStreamEnable (k : Fin 8) (v : Word) (s : State) : Out := unlessNoImage s <| .next (strCfgWrite s k v.toNat)

/-! ### What registers read as (R16, R21, R261, R438, R457) -/

/-- What half a vector's entry reads as. -/
def msixTableRead (s : State) (p k : Nat) (high : Bool) : Nat :=
  let h := s.port p
  let e := Tab.get (0, 0) h.table k
  if high then e.2 + 2 ^ 32 * b2n (!h.unmasked.contains k) else e.1

/-- The port, the vector and the half of its MSI-X entry at an offset. -/
def msixAt (off : Nat) : Option (Nat × Nat × Bool) :=
  let p := off / 0x10000 - 0x181
  let x := off % 0x10000
  if 0x1810000 ≤ off && p < 2 && x < 0x8000 then some (p, x / 16, x / 8 % 2 == 1) else none

/-- The port and the first vector of the eight bytes of its pending bits at an offset (R261, R272): vector v is bit v of the PBA. -/
def pbaAt (off : Nat) : Option (Nat × Nat) :=
  let p := off / 0x10000 - 0x181
  let x := off % 0x10000
  if 0x1810000 ≤ off && p < 2 && 0x8000 ≤ x && x < 0x8100 then some (p, 64 * ((x - 0x8000) / 8)) else none

/-- What 64 pending bits read as. -/
def pbaRead (s : State) (p v : Nat) : Nat :=
  (List.range 64).foldl (fun a k => a + 2 ^ k * b2n ((s.port p).pba.contains (v + k))) 0

/-- What an aligned 8-byte read inside the device returns. What the context store's caches hold is counted when FAB_CTX_USE and
FAB_PEER_STAT are read (R240). -/
def regRead (s : State) (off : Nat) : Nat :=
  match msixAt off with
  | some (p, k, high) => msixTableRead s p k high
  | none =>
    match pbaAt off with
    | some (p, v) => pbaRead s p v
    | none =>
    if 0x1000040 ≤ off && off < 0x1000060 then (refreshCtx s ((off - 0x1000040) / 8)).readReg off
    else if off = 0x1000068 then (refreshPeerStat s).readReg off
    else s.readReg off

/-- The logical tile whose register block holds an offset. -/
def tileOfOffset (off : Nat) : Option Nat :=
  if 0x800000 ≤ off && off < 0xC00000 then some (off / 0x10000 - 0x80) else none

/-- Whether an offset lies in the register block of a logical tile that is out of service. -/
def offsetOut (s : State) (off : Nat) : Bool :=
  match tileOfOffset off with
  | some n => s.tileOut n
  | none => false

/-- What an aligned 8-byte read through BAR0 returns: the block of a tile that is out of service reads as all ones but for
TILE_STATE, and of the TRL block only TRL_STATUS is shown. In NO_IMAGE every block but BOOT and GLB reads as all ones (R54). -/
def bar0Read (s : State) (off : Nat) : Nat :=
  if s.noImage && 0x200000 ≤ off && off < 0x2A00000 then 2 ^ 64 - 1
  else if offsetOut s off && off % 0x10000 ≠ 0 then 2 ^ 64 - 1
  else if blockOf off = some .trl && off ≠ TRL_STATUS.LOCK.base then 0
  else regRead s off

/-- What a register reads as when it is sampled: the reserved range gives all ones. -/
def sampleReg (s : State) (off : Nat) : Nat := if 0x2A00000 ≤ off then 2 ^ 64 - 1 else bar0Read s off

/-- The offsets a stream samples. -/
def strOffsets (s : State) (k : Nat) : List Nat :=
  (List.range (s.rd TLM_STR_CFG.NCTR k)).map fun j => s.rd TLM_STR_SEL.OFFSET (32 * k + j) / 8 * 8

/-- The 256 bytes of a stream's record (R438). Both local times are the time of the sample. -/
def strRecord (s : State) (k : Nat) : List Byte :=
  let x := Tab.get {} s.tlm.streams k
  let l := strOffsets s k
  let flags := b2n (x.missed != 0) + 2 * b2n (l.any (0x2A00000 ≤ ·))
  bytesAt (toLe 1 k ++ toLe 1 l.length ++ toLe 2 flags ++ toLe 4 (min x.missed 0xFFFFFFFF) ++ toLe 8 x.num ++ toLe 8 s.now
    ++ toLe 8 s.now ++ l.flatMap fun o => toLe 8 (sampleReg s o)) 0 256

/-- A stream samples its registers: its record is written, or, when the ring has no room or cannot be reached, missed. -/
def execStreamSample (k : Fin 8) (s : State) : Out :=
  if s.flag TLM_STR_CFG.ENABLE k then
    let x := Tab.get {} s.tlm.streams k.val
    let put := fun (s : State) (y : Stream8) => { s with tlm := { s.tlm with streams := Tab.set {} s.tlm.streams k.val y } }
    let p := s.rd TLM_STR_CFG.PORT k
    let host := s.flag TLM_STR_BASE.LOC k
    let t := s.rd TLM_STR_TAIL.VALUE k
    let n := strSize s k
    if (t + 1) % n = s.rd TLM_STR_HEAD.VALUE k % n || (host && !s.masterOn p) then
      .next (put (s.bump TLM_STR_DROP.VALUE k) { num := x.num + 1, missed := x.missed + 1 })
    else
      let s := teleStore s host p (s.rd TLM_STR_BASE.ADDR k * 64 + 256 * t) (strRecord s k)
      let s := (s.wr TLM_STR_TAIL.VALUE k ((t + 1) % n)).msix p (s.rd TLM_STR_CFG.VECTOR k)
      .next (put s { num := x.num + 1, missed := 0 })
  else .next s

/-! ### Metering (R439 to R441) -/

/-- Glades whose metering is enabled, rising. -/
def meterGlades (s : State) : List Nat :=
  ((s.regs.filter fun p => 0x2403400 ≤ p.1 && p.1 < 0x2403C00).map fun p => (p.1 - 0x2403400) / 8).filter
    fun g => s.flag TLM_MTR_GLADE.EN g

/-- A tile runs, or waits in, a command or a decode item (R439). -/
def tileAtWork (s : State) (n : Nat) (t : Tile) : Bool :=
  t.run.isSome || !t.items.isEmpty || (List.range 8).any fun q => !(s.queue (mkQid 1 (8 * n + q))).cmds.isEmpty

/-- Units in a glade's use now that metering integrates over time, by field (R439): tiles at work, cores of running slots,
MiB of valid regions, context-store entries, key slots. -/
def meterRates (s : State) (g : Nat) : List (Nat × Nat) :=
  [(0, (s.tiles.filter fun t => tileAtWork s t.1 t.2 && s.flag TILE_CFG.ASSIGNED t.1
        && s.rd TILE_CFG.GLADE t.1 == g).length),
   (1, (below 256 fun k => coreRole s k == 2 && s.rd CPU_CORE.GLADE (coreEntry k) == g
        && s.rd CPU_OFL_A.STATE (s.rd CPU_CORE.SLOT (coreEntry k)) == 2).length),
   (2, sumNat ((below 1024 fun i => s.flag MEM_RGN_A.VALID i && s.rd MEM_RGN_A.GLADE i == g).map
        fun i => 2 * s.rd MEM_RGN_B.SIZE i)),
   (9, poolUse s .ctx g),
   (11, poolUse s .keys g)]

/-- What one unit of a field is counted in: tile-ns and core-ns, MiB-ns, entry-ns and key-ns, else the unit itself. -/
def meterUnit (f : Nat) : Nat :=
  match f with
  | 0 => 1000
  | 1 => 1000
  | 2 => 1000000000
  | 9 => 1000000000
  | 11 => 1000000000
  | _ => 1

/-- `n` ns of a glade's use pass. -/
def meterTick (s : State) (n g : Nat) : State :=
  (meterRates s g).foldl (fun s r => s.meterAdd g r.1 (n * r.2)) s

/-- The largest number a metering field holds (R441). -/
def meterMax : Nat := 9999999999999999

/-- A number as 16 packed-decimal digits, or all nines when it does not fit (R404, R439, R441). -/
def packed16 (v : Nat) : Nat :=
  let v := min v meterMax
  (List.range 16).foldl (fun w d => w + v / 10 ^ d % 10 * 16 ^ d) 0

/-- The 128 bytes of a metering record (R439). -/
def MeterRec.bytes (r : MeterRec) (g : Nat) : List Byte :=
  let sat := (List.range 12).foldl (fun m i => if meterMax < r.fields.getD i 0 then m + 2 ^ i else m) 0
  toLe 4 0x4752544D ++ toLe 1 1 ++ toLe 1 g ++ toLe 2 sat ++ toLe 1 r.flags ++ toLe 7 0 ++ toLe 8 r.start ++ toLe 8 r.stop
    ++ (List.range 12).flatMap fun i => toLe 8 (packed16 (r.fields.getD i 0))

/-- A record merged into the newest held one: fields are added, and a saturated field stays saturated. -/
def MeterRec.merge (a b : MeterRec) : MeterRec :=
  { start := a.start, stop := b.stop,
    fields := (List.range 12).map fun i => min (a.fields.getD i 0) (meterMax + 1) + min (b.fields.getD i 0) (meterMax + 1),
    flags := Nat.lor (Nat.lor a.flags b.flags) 1 }

/-- A glade's interval ends at `stop`: its record, and the glade's counts starting again with what is left over. -/
def meterCut (s : State) (g stop flags : Nat) : MeterRec × State :=
  let m := s.meter g
  let count := fun i => m.counts.getD i 0
  ({ start := m.start, stop := stop, fields := (List.range 12).map fun i => count i / meterUnit i,
     flags := flags + 2 * b2n m.restart },
   s.setMeter g { m with
     start := stop, restart := false, counts := (List.range 12).map fun i => count i % meterUnit i })

/-- A glade's interval ends now: its totals wait for firmware. -/
def mtrClose (s : State) (g : Nat) : State :=
  let c := meterCut s g s.now 0
  c.2.setMeter g { c.2.meter g with ended := (c.2.meter g).ended ++ [c.1] }

/-- The length of an interval in ns. -/
def intervalNs (s : State) : Nat := 1000000000 * s.rd TLM_MTR_CFG.INTERVAL_S

/-- 4 ns pass (R437): the local time counter advances, metering integrates what is in use, and an interval ends at each
multiple of its length (R439). In standby, and while a sagged rail or a stopped clock holds the device in reset, nothing counts
(R29, R33). -/
def tick (s : State) : State :=
  if !s.pins.aux || !s.pins.pwr || s.boot.dead = 1 then s
  else
    let s := (meterGlades s).foldl (fun s g => meterTick s 4 g) (s.wr TLM_TIME.NS 0 (4 + s.now))
    if intervalNs s ≠ 0 && s.now % intervalNs s = 0 then (meterGlades s).foldl mtrClose s else s

/-- Records of the metering ring. -/
def mtrSize (s : State) : Nat := 2 ^ s.rd TLM_MTR_CFG.LOG2SIZE

/-- Whether a record can be written to the metering ring now. -/
def mtrRoom (s : State) : Bool :=
  s.flag TLM_MTR_CFG.ENABLE
    && (s.rd TLM_MTR_TAIL.INDEX + 1) % mtrSize s != s.rd TLM_MTR_HEAD.INDEX % mtrSize s
    && (!s.flag TLM_MTR_BASE.LOC || s.masterOn (s.rd TLM_MTR_CFG.PORT))

/-- Write one record to the metering ring and send its vector. -/
def mtrPut (s : State) (g : Nat) (r : MeterRec) : State :=
  let t := s.rd TLM_MTR_TAIL.INDEX
  let p := s.rd TLM_MTR_CFG.PORT
  let s := teleStore s (s.flag TLM_MTR_BASE.LOC) p (s.rd TLM_MTR_BASE.ADDR * 64 + 128 * t) (r.bytes g)
  (s.wr TLM_MTR_TAIL.INDEX 0 ((t + 1) % mtrSize s)).msix p (s.rd TLM_MTR_CFG.VECTOR)

/-- Hold a record (R440): up to 4 a glade, and then it is merged into the newest held one. TLM_MTR_HELD is raised when a
glade begins holding records. -/
def mtrHold (s : State) (g : Nat) (r : MeterRec) : State :=
  let m := s.meter g
  let held := if m.held.length < 4 then m.held ++ [r]
    else m.held.take 3 ++ (m.held.drop 3).map fun x => x.merge r
  let s := s.setMeter g { m with held := held }
  if m.held.isEmpty then s.raise 0x1402 (unitId 0 0) g 0 0 held.length else s

/-- Write a glade's held records while there is room, oldest first. -/
def mtrFlush (s : State) (g : Nat) : State :=
  (List.range (s.meter g).held.length).foldl
    (fun s _ =>
      match (s.meter g).held with
      | r :: rest => if mtrRoom s then (mtrPut s g r).setMeter g { (mtrPut s g r).meter g with held := rest } else s
      | [] => s) s

/-- Write every held record while there is room, in glade order. -/
def mtrFlushAll (s : State) : State := (s.tlm.meters.map (·.1)).foldl mtrFlush s

/-- A record of a glade is due: it is written after those held, or held. -/
def mtrRecord (s : State) (g : Nat) (r : MeterRec) : State :=
  let s := mtrFlush s g
  if (s.meter g).held.isEmpty && mtrRoom s then mtrPut s g r else mtrHold s g r

/-- Firmware writes the record of a glade's oldest interval that has ended. -/
def mtrNext (s : State) (g : Nat) : State :=
  match (s.meter g).ended with
  | r :: rest => mtrRecord (s.setMeter g { s.meter g with ended := rest }) g r
  | [] => s

/-- A write to TLM_MTR_CFG: its fields ignore it while ENABLE is 1, and setting ENABLE puts the ring in force or is
refused. -/
def mtrCfgWrite (s : State) (v : Nat) : State :=
  let on := s.flag TLM_MTR_CFG.ENABLE
  let s := if on then s else
    s.writeFields [TLM_MTR_CFG.LOG2SIZE, TLM_MTR_CFG.PORT, TLM_MTR_CFG.INTERVAL_S, TLM_MTR_CFG.VECTOR] 0 v
  let l := s.rd TLM_MTR_CFG.LOG2SIZE
  let n := s.rd TLM_MTR_CFG.INTERVAL_S
  let good := 6 ≤ l && l ≤ 16 && 1 ≤ n && n ≤ 3600 && portHost s (s.rd TLM_MTR_CFG.PORT)
    && ringPlaced s (s.flag TLM_MTR_BASE.LOC) (s.rd TLM_MTR_BASE.ADDR * 64) (128 * mtrSize s)
  if !bitOf v 0 then s.wr TLM_MTR_CFG.ENABLE 0 0
  else if on then s
  else if good then mtrFlushAll (((s.wr TLM_MTR_CFG.ENABLE 0 1).wr TLM_MTR_HEAD.INDEX 0 0).wr TLM_MTR_TAIL.INDEX 0 0)
  else s

/-- Setting TLM_MTR_CFG.ENABLE. -/
def execMeterRingEnable (v : Word) (s : State) : Out := unlessNoImage s <| .next (mtrCfgWrite s v.toNat)

/-- A write to TLM_MTR_GLADE: a glade's first interval begins when EN is set. -/
def mtrGladeWrite (s : State) (g v : Nat) : State :=
  let on := s.flag TLM_MTR_GLADE.EN g
  let s := s.wr TLM_MTR_GLADE.EN g v
  if !on && bitOf v 0 then s.setMeter g { s.meter g with start := s.now, counts := [], ended := [] } else s

/-- The end of the oldest interval whose records are still to be written. -/
def mtrDue (s : State) : Option Nat :=
  (meterGlades s).foldl
    (fun m g =>
      match (s.meter g).ended, m with
      | r :: _, some t => some (min r.stop t)
      | r :: _, none => some r.stop
      | [], m => m) none

/-- Firmware writes the records of the oldest interval that has ended, in glade order (R439); a pause only delays them
(R442). -/
def execMeteringInterval (s : State) : Out :=
  match mtrDue s with
  | some stop =>
    if controlFetch s then
      .next ((meterGlades s).foldl (fun s g => if (s.meter g).ended.head?.any (·.stop == stop) then mtrNext s g else s) s)
    else .next s
  | none => .next s

/-- The last record of a glade that is destroyed, after those of its intervals that have ended (R442). -/
def mtrFinal (s : State) (g : Nat) : State :=
  if s.flag TLM_MTR_GLADE.EN g then
    let s := (List.range (s.meter g).ended.length).foldl (fun s _ => mtrNext s g) s
    let c := meterCut s g s.now 4
    (mtrRecord c.2 g c.1).wr TLM_MTR_GLADE.EN g 0
  else s

end Sys2Proof.Machine
end

