-- ==== Sys2Proof/Machine/TileCommands.lean ====
section
/-! DEFINITION. Tile commands and tile queues (R116 to R121, R133 to R136, R139). Choices and readings of the model: log entry
42. -/
namespace Sys2Proof.Machine

open Sys2Proof

/-- The queue identifier of tile queue `i` (R172). -/
def tileQid (i : Nat) : Nat := mkQid 1 i

/-- The end of the DRAM address space with no bank retired (R69, R70). -/
def dramEnd : Nat := 0x2800000000

/-- The fault of a tile command whose fields are outside their stated values (R119): an unlisted opcode or a bad field. -/
def tileFieldFault (l : List Byte) : Option Nat :=
  let op := leAt l 0 1
  let common := leAt l 1 1 < 2 && zeroAt l 2 2
  let ok :=
    match op with
    | 1 => common && leAt l 8 2 < 4096 && zeroAt l 10 6
    | 2 =>
      common && 1 ≤ leAt l 10 2 && leAt l 8 2 < 4096 && leAt l 8 2 + leAt l 10 2 ≤ 4096 && zeroAt l 12 4
        && leAt l 16 8 % 16 == 0 && leAt l 16 8 < dramEnd && zeroAt l 24 40
    | 3 =>
      common && leAt l 8 1 < 2 && zeroAt l 9 3
        && (if leAt l 8 1 = 0 then leAt l 12 4 < 65536 else leAt l 12 4 < 2 ^ 24) && zeroAt l 24 40
    | 4 => common && zeroAt l 8 4 && leAt l 12 4 < 65536 && zeroAt l 24 40
    | _ => false
  if ok then none else some Tf.field

/-- The fetched, not yet started command of a tile queue, if its opcode is `op`. -/
def tileCmd (s : State) (i op : Nat) : Option Cmd :=
  match (s.queue (tileQid i)).first with
  | some c => if leAt c.bytes 0 1 = op && !c.started && !c.waiting then some c else none
  | none => none

/-- RUN loads S1 to S6 from the command, zeroes S7 to S15, and starts the program at its entry PC (R122). -/
def execRun (i : Fin 512) (s : State) : Out :=
  match tileCmd s i 1 with
  | some c =>
    let n := i.val / 8
    if (s.tile n).run.isSome || s.tileOut n then .next s
    else
      let s := s.setCmd (tileQid i) { c with started := true }
      let t :=
        { s.tile n with pc := leAt c.bytes 8 2, sregs := [], wreg := none, slots := [], issued := 0, run := some (i % 8) }
      let t := (List.range 6).foldl (fun (t : Tile) k => t.setSreg (k + 1) (leAt c.bytes (16 + 8 * k) 8)) t
      .next ((s.setTile n t).wrs n [(TILE_STATE.SEQ, 1), (TILE_STATE.QUEUE, i % 8)])
  | none => .next s

/-- LOAD copies instructions from DRAM into program memory; it waits while a running program of another queue is about
to issue from the destination. -/
def execTileLoad (i : Fin 512) (s : State) : Out :=
  match tileCmd s i 2 with
  | some c =>
    let n := i.val / 8
    let t := s.tile n
    let pc := leAt c.bytes 8 2
    let count := leAt c.bytes 10 2
    let src := leAt c.bytes 16 8
    if t.run.isSome && pc ≤ t.pc && t.pc < pc + count then .next s
    else if !s.inGladeRgn (s.tileGlade n) src (16 * count) then .next (failCommand s i c Tf.region 0)
    else if s.memBad src (16 * count) then .next (failCommand (s.noteRead src (16 * count)) i c Tf.medium 0)
    else
      let prog := (List.range count).foldl
        (fun p k => Tab.set 0 p (pc + k) (BitVec.ofNat 128 (leNat (s.bytes (src + 16 * k) 16)))) t.prog
      .next ((s.setTile n { t with prog := prog }).complete (tileQid i) c St.success 0)
  | none => .next s

/-- What a tile WAIT command names (R119). -/
def waitOnOf (l : List Byte) : WaitOn := if leAt l 8 1 = 0 then .counter (leAt l 12 4) else .count (leAt l 12 4)

/-- WAIT completes when its counter or completion count has reached its target; until then it occupies its queue only. -/
def execTileCmdWait (i : Fin 512) (s : State) : Out :=
  match tileCmd s i 3 with
  | some c =>
    let on := waitOnOf c.bytes
    if !s.mayWait (s.tileGlade (i / 8)) on then .next (failCommand s i c Tf.grant 0)
    else if s.ustStopped && leAt c.bytes 8 1 = 0 then .next (s.complete (tileQid i) c St.peerUnreachable 0)
    else if satisfied (s.waitValue on) (leAt c.bytes 16 8) then .next (s.complete (tileQid i) c St.success 0)
    else
      .next ((s.setCmd (tileQid i) { c with started := true, waiting := true }).addWait
        { who := .queue (tileQid i), on := on, target := leAt c.bytes 16 8 })
  | none => .next s

/-- POST adds its increment to a sync counter. -/
def execTileCmdPost (i : Fin 512) (s : State) : Out :=
  match tileCmd s i 4 with
  | some c =>
    let ctr := leAt c.bytes 12 4
    if s.ustStopped then .next (s.complete (tileQid i) c St.peerUnreachable 0)
    else if s.ctrGranted ctr (s.tileGlade (i / 8)) then
      .next ((s.addCtr ctr (leAt c.bytes 16 8)).complete (tileQid i) c St.success 0)
    else .next (failCommand s i c Tf.grant 0)
  | none => .next s

/-- A RUN command's watchdog reaches TILE_WDOG.LIMIT: the program stops with TILE_WATCHDOG, a wait abandoned (R134, R136). -/
def execTileWatchdogExpire (n : Fin 64) (s : State) : Out :=
  if (s.tile n).run.isSome && s.rd TILE_WDOG.LIMIT n != 0 then .next (tileFault s n Tf.watchdog) else .next s

/-- A DMA access to a scratchpad has waited 65,536 cycles: the event is raised and the access keeps waiting (R133). -/
def execTileDmaStarved (n : Fin 64) (a : BitVec 21) (s : State) : Out :=
  .next (s.raise 0x0602 (unitId 0x3 n) (s.tileGlade n) 0 0 a.toNat)

/-- A write to TILE_SR_SEED sets the seed, and TILE_SR_SEQ to 0 (R105). -/
def execSrSeedWrite (n : Fin 64) (v : BitVec 64) (s : State) : Out :=
  onTile s n (TILE_SR_SEED.SEED.addr n) v.toNat <| .next (seedWrite s n v.toNat)

/-- Whether a tile queue may be enabled with these fields (R116, R139): its owner is an instance of the tile's glade, the
tile is assigned and in service, and the size is 4 to 12. -/
def mayEnable (s : State) (i log2 owner : Nat) : Bool :=
  let n := i / 8
  s.flag TILE_CFG.ASSIGNED n && 4 ≤ log2 && log2 ≤ 12 && s.flag GLD_INST.VALID owner
    && s.gladeOf owner == s.tileGlade n

/-- Write the fields of TILE_QCTRL that ENABLE does not hold (R139). -/
def qctrlFields (s : State) (i v : Nat) : State :=
  s.wrs i [(TILE_QCTRL.LOG2SIZE, bitsOf v 1 4), (TILE_QCTRL.PRIO, bitsOf v 5 2), (TILE_QCTRL.OWNER, bitsOf v 8 12),
    (TILE_QCTRL.VECTOR, bitsOf v 20 11)]

/-- Put a tile queue in force (R121): ACTIVE, its completion ring at entry 0 and PHASE 1 (R120). A queue that is being reset
stays RESETTING until the reset ends, and then becomes ACTIVE. -/
def tileEnable (s : State) (i : Nat) : State :=
  let s := s.wr TILE_QCTRL.ENABLE i 1
  if (s.queue (tileQid i)).state = .resetting then s
  else s.setQueue (tileQid i) { s.queue (tileQid i) with state := .active, phase := true, wpos := 0, abort := 0 }

/-- Setting ENABLE with the other fields of the word written: the queue becomes ACTIVE if its owner is an instance of the
tile's glade, and otherwise ENABLE stays 0. -/
def execTileQueueEnable (i : Fin 512) (v : BitVec 64) (s : State) : Out :=
  onTile s (i / 8) (TILE_QCTRL.ENABLE.addr i) v.toNat <|
  if s.flag TILE_QCTRL.ENABLE i then .next s
  else
    let s := qctrlFields s i v.toNat
    if mayEnable s i (s.rd TILE_QCTRL.LOG2SIZE i) (s.rd TILE_QCTRL.OWNER i) then .next (tileEnable s i) else .next s

/-- Clearing ENABLE: the queue is DISABLED at once, or once its running command completes (R121, R136). -/
def tileDisable (s : State) (i : Nat) : State :=
  let s := s.wr TILE_QCTRL.ENABLE i 0
  let q := s.queue (tileQid i)
  if q.cmds.isEmpty && q.state ≠ .resetting then s.setQueue (tileQid i) { q with state := .disabled } else s

/-- The word of TILE_QCTRL with one bit replaced. -/
def qctrlWith (s : State) (i lsb v : Nat) : Nat := putBits (s.reg (TILE_QCTRL.ENABLE.addr i)).toNat lsb 1 v

/-- Clearing TILE_QCTRL.ENABLE. -/
def execTileQueueDisable (i : Fin 512) (s : State) : Out :=
  onTile s (i / 8) (TILE_QCTRL.ENABLE.addr i) (qctrlWith s i 0 0) <| .next (tileDisable s i)

/-- Start a queue reset of a tile queue (R121, R136): the program stops, and every fetched command completes with the
status; queued ones complete as they are fetched. -/
def tileQueueReset (s : State) (i status : Nat) : State :=
  let q := s.queue (tileQid i)
  if q.state = .resetting then s
  else
    let s := s.setQueue (tileQid i) (q.reset status)
    let s := if (s.tile (i / 8)).run = some (i % 8) then stopProgram s (i / 8) else s
    s.completeAll (tileQid i) status 0

/-- TILE_QCTRL.RESET starts a queue reset. -/
def execTileQueueReset (i : Fin 512) (s : State) : Out :=
  onTile s (i / 8) (TILE_QCTRL.ENABLE.addr i) (qctrlWith s i 31 1) <|
  .next (tileQueueReset s i St.abortedQueueReset)

/-- RESUME of a tile queue: HALTED to ACTIVE, ignored in other states and while the tile is out of service (R139). -/
def tileResume (s : State) (i : Nat) : State :=
  let q := s.queue (tileQid i)
  if q.state = .halted && !s.tileOut (i / 8) then s.setQueue (tileQid i) { q with state := .active, abort := 0 } else s

/-- TILE_QCTRL.RESUME. -/
def execTileQueueResume (i : Fin 512) (s : State) : Out :=
  onTile s (i / 8) (TILE_QCTRL.ENABLE.addr i) (qctrlWith s i 32 1) <| .next (tileResume s i)

/-- The queues of a tile that have a command ready to start (R118). -/
def tileReady (s : State) (n : Nat) : List Nat :=
  below 8 fun q =>
    let x := s.queue (tileQid (8 * n + q))
    x.state == .active && x.cmds.isEmpty && x.waiting != 0

/-- The sequencer is at a command boundary: no RUN, LOAD or POST of the tile is in progress (R118, R119). -/
def tileBoundary (s : State) (n : Nat) : Bool :=
  (s.tile n).run.isNone
    && (List.range 8).all fun q => (s.queue (tileQid (8 * n + q))).cmds.all fun c => c.waiting || leAt c.bytes 0 1 == 3

/-- The highest priority among a tile's decode items (R154). -/
def itemPrio (l : List Item) : Nat := l.foldl (fun m i => max m i.prio) 0

/-- The decode item a tile takes next: the oldest of the highest priority (R154). -/
def nextItem (l : List Item) : Option Item := l.find? fun i => i.prio == itemPrio l

/-- The priority of a tile's source: queue 0 to 7, or 8 for its decode items (R118, R154). -/
def sourcePrio (s : State) (n k : Nat) : Nat :=
  if k < 8 then s.rd TILE_QCTRL.PRIO (8 * n + k) else itemPrio (s.tile n).items

/-- The source the sequencer picks: the highest priority, and round-robin among the sources of that priority; source 8 is the
tile's decode items (R118, R154). -/
def tilePick (s : State) (n : Nat) : Option Nat :=
  let ready := tileReady s n ++ (if (s.tile n).items.isEmpty then [] else [8])
  let top := ready.foldl (fun m k => max m (sourcePrio s n k)) 0
  let best := ready.filter fun k => sourcePrio s n k == top
  let order := (List.range 9).map fun k => (Tab.get 8 (s.tile n).lastQueue top + 1 + k) % 9
  order.find? fun k => best.contains k

/-- The tile with the pick of a source noted at its priority. -/
def Tile.picked (t : Tile) (prio k : Nat) : Tile := { t with lastQueue := Tab.set 8 t.lastQueue prio k }

/-- Whether a tile queue's next command may be fetched: picked at a command boundary, or a reset completes it (R118,
R136). -/
def tileMayFetch (s : State) (i : Nat) : Bool :=
  let q := s.queue (tileQid i)
  q.waiting != 0
    && (q.state == .resetting
      || (q.state == .active && tileBoundary s (i / 8) && tilePick s (i / 8) == some (i % 8)))

/-- A command fetched from a tile queue: completed at once by a reset or a lost tile, refused for its fields, or ready to
start (R119, R135 to R137). `l` is the command and `status` that of the fetch. -/
def tileFetched (s : State) (i : Nat) (l : List Byte) (status : Nat) : State :=
  let q := s.queue (tileQid i)
  let c : Cmd := { bytes := l, entry := q.head, stamp := s.genOf q.inst, started := false, waiting := false }
  let s := s.setQueue (tileQid i) { q with head := (q.head + 1) % q.size, cmds := q.cmds ++ [c] }
  let s := s.setTile (i / 8) ((s.tile (i / 8)).picked (sourcePrio s (i / 8) (i % 8)) (i % 8))
  if q.state ≠ .active then s.complete (tileQid i) c q.abort (if q.abort = 0x83 then Tf.lost else 0)
  else if status ≠ St.success then s.complete (tileQid i) c status 0
  else
    match tileFieldFault l with
    | some f => failCommand s i c f 0
    | none => s

end Sys2Proof.Machine
end

