-- ==== Sys2Proof/Machine/Activation.lean ====
section
/-! DEFINITION. The states of a firmware activation and the clock fractions that follow them (R420 to R429). Choices and
readings of the model: log entry 25. -/
namespace Sys2Proof.Machine

open Sys2Proof

/-- The activation enters a state, and FW_ACTIVATION says so (R432). -/
def setAct (s : State) (new : Nat) : State :=
  let old := s.rd PWR_ACT.STATE
  if old = new then s
  else
    let s := s.wr PWR_ACT.STATE 0 new
    s.raiseUnit 0x1303 (unitId 0 0)
      (new + old * 2 ^ 3 + s.rd PWR_ACT.LAST_RESULT * 2 ^ 8 + 2 ^ 16 * s.rd PWR_ACT.PAUSE_MS
        + 2 ^ 32 * s.rd PWR_ACT_VER.STAGED_VERSION)

/-- The control level (R428). -/
def controlLevel (s : State) : Nat :=
  if s.flag PWR_STATUS.HW_LIMIT then max 2 (s.rd PWR_STATUS.LEVEL) else s.rd PWR_STATUS.LEVEL

/-- The caps on tiles, worker cores and DRAM, in sixteenths (R424, R427). -/
def hwCaps (s : State) : Nat × Nat × Nat :=
  match controlLevel s with
  | 0 => (16, 16, 16)
  | 1 => (16, 16, 16)
  | 2 => (8, 8, 12)
  | _ => (4, 4, 8)

/-- The fractions in force: the lower of the request and the cap (R425). -/
def showClocks (s : State) : State :=
  let c := hwCaps s
  s.wrs 0 [(PWR_CLK.TILE_EFF, min (s.rd PWR_CLK.TILE_REQ) c.1), (PWR_CLK.CORE_EFF, min (s.rd PWR_CLK.CORE_REQ) c.2.1),
    (PWR_CLK.DRAM_EFF, min (s.rd PWR_CLK.DRAM_REQ) c.2.2)]

/-! ### The thermal ladder (R424, R426) -/

/-- What a sensor reads, in 0.125 °C: a failed one reads as THROTTLE_C. -/
def tempOf (s : State) (i : Nat) : Nat :=
  if s.flag PWR_SENSOR.FAULT i then 8 * s.rd PWR_THERM_CFG.THROTTLE_C else s.rd PWR_SENSOR.TEMP i

/-- The hottest sensor, the lowest numbered of equals. -/
def hotSensor (s : State) : Nat := (List.range 16).foldl (fun h i => if tempOf s h < tempOf s i then i else h) 0

/-- The level that a reading gives, once the image's thresholds are in force. -/
def levelOf (s : State) (t : Nat) : Nat :=
  if s.rd PWR_THERM_CFG.EMERG_C = 0 then 0
  else if 8 * s.rd PWR_THERM_CFG.EMERG_C ≤ t then 3
  else if 8 * s.rd PWR_THERM_CFG.THROTTLE_C ≤ t then 2
  else if 8 * s.rd PWR_THERM_CFG.WARN_C ≤ t then 1
  else 0

/-- Show what the sensors read. -/
def showTemps (s : State) : State :=
  let s := (List.range 16).foldl
    (fun s i => if s.flag PWR_SENSOR.FAULT i then s.wr PWR_SENSOR.TEMP i (tempOf s i) else s) s
  s.wrs 0 [(PWR_STATUS.HOT_SENSOR, hotSensor s), (PWR_STATUS.TMAX, tempOf s (hotSensor s))]

/-- PWR_THERM_LEVEL (R432). -/
def thermEvent (s : State) (sensor new old : Nat) (failed : Bool) : State :=
  s.raiseUnit 0x1301 (unitId 0xD (sensor + 1)) (new + old * 4 + b2n failed * 16 + tempOf s sensor * 2 ^ 8)

/-- The level changes, with its caps; entries are counted. -/
def setLevel (s : State) (new : Nat) : State :=
  let old := s.rd PWR_STATUS.LEVEL
  let s := showClocks (s.wr PWR_STATUS.LEVEL 0 new)
  if old < new then s.bump PWR_CNT.COUNT (new - 1) else s

/-- The level rises to what the readings give, if that is higher. -/
def raiseLevel (s : State) : State :=
  let s := showTemps s
  let old := s.rd PWR_STATUS.LEVEL
  let new := levelOf s (s.rd PWR_STATUS.TMAX)
  if old < new then thermEvent (setLevel s new) (hotSensor s) new old false else s

/-- The requests fall to the defaults, and the loops stop (R421, R429). -/
def defaultClocks (s : State) : State :=
  showClocks (s.wrs 0 [(PWR_CLK.TILE_REQ, s.rd PWR_HW_CFG.DEF_TILE), (PWR_CLK.CORE_REQ, s.rd PWR_HW_CFG.DEF_CORE),
    (PWR_CLK.DRAM_REQ, s.rd PWR_HW_CFG.DEF_DRAM), (PWR_CLK.LOOP, 0)])

/-- A write to PWR_LIMIT (R433): fields outside their values are ignored. -/
def limitApply (s : State) (v : Nat) : State :=
  let w := bitsOf v 0 9
  let t := bitsOf v 16 8
  let s := if 100 ≤ w && w ≤ 450 then s.wr PWR_LIMIT.LIMIT_W 0 w else s
  if 60 ≤ t && t ≤ s.rd PWR_THERM_CFG.WARN_C then s.wr PWR_LIMIT.TARGET_C 0 t else s

/-- The loops run again, with a write of PWR_LIMIT that was held (R431), when no activation and no halt of the management
cores stops them. -/
def resumeLoops (s : State) : State :=
  if controlFetch s then
    let s :=
      match s.pwr.heldLimit with
      | some v => limitApply { s with pwr := { s.pwr with heldLimit := none } } v
      | none => s
    s.wr PWR_CLK.LOOP 0 (b2n (s.rd BOOT_STATE.STATE == 8 && s.cpu.mgmtOn))
  else s

/-- The handover fails (R422): the old image is started again. -/
def fallback (s : State) (result : Nat) : State :=
  if s.rd PWR_ACT.STATE = 4 then
    let s := (s.wr PWR_ACT.LAST_RESULT 0 result).bump PWR_CNT.COUNT 5
    setAct (startImage (stopImage s) s.fw.running) 6
  else s

end Sys2Proof.Machine
end

