-- ==== Sys2Proof/Machine/DecodeEngine.lean ====
section
/-! DEFINITION. Commands of the decode engine: streams, KV pages, attention, trees, sampling and verification (R144 to R160).
Choices and readings of the model: log entry 43. -/
namespace Sys2Proof.Machine

open Sys2Proof

/-- OPEN copies a stream descriptor into a context and returns a handle (R148, R149). -/
def execOpenCmd (q : Fin 256) (s : State) : Out :=
  match decCmd s q 1 with
  | none => .next s
  | some c =>
    let qid := decQid q
    let s := decStart s qid
    let own := s.queue qid
    let glade := s.queueGlade qid
    let a := leAt c.bytes 24 8
    if !decAddrOk s glade a 256 then .next (decEnd s qid c St.protectionFault 0)
    else if s.memBad a 256 then .next (decEnd (s.noteRead a 256) qid c St.mediumError 0)
    else
      let l := s.bytes a 256
      let x := streamOf l
      if !descriptorOk l || !s.inGladeRgn glade x.table x.tableBytes then .next (decEnd s qid c St.badDescriptor 0)
      else if !mayTakeCtx s glade 1 then .next (decEnd s qid c St.resourceExhausted 0)
      else
        match freeContext s own.home with
        | none => .next (decEnd s qid c St.resourceExhausted 0)
        | some k =>
          let x := { x with valid := true, gen := (s.stream k).gen, inst := own.inst, glade := glade, slice := own.home }
          let s := placeCtx (take ({ s with fresh := s.fresh + 1 }.setStream k x) .ctx glade 1) (.stream k)
          .next (decEnd s qid c St.success (handleOf k x))

/-- CLOSE closes a stream and advances its handle generation. -/
def execClose (q : Fin 256) (s : State) : Out :=
  .next (onStream s q 2 fun s _ k _ => (closeStream s k, St.success, 0))

/-- The pages of the positions of a command, one entry for each position and head in order. -/
def pagesFor (s : State) (x : Stream) (layer first count : Nat) : List (Nat × Nat) :=
  (posHeads x first count).map fun p => pageFor s x true layer p.2 (p.1 / x.perPage)

/-- A copy of K and V of one position and head, from an address to one in a page; V lies `half` after K at the source and 0x8000
after it in the page. -/
structure KvCopy where
  from_ : Nat
  half : Nat
  to_ : Nat
  n : Nat
  deriving DecidableEq, Repr

/-- Do copies in order until one fails: the first status that is not SUCCESS (R151, R156). -/
def kvCopies (s : State) (l : List KvCopy) : State × Nat :=
  l.foldl
    (fun (acc : State × Nat) (e : KvCopy) =>
      let s := acc.1
      if acc.2 ≠ St.success then acc
      else if s.memBad e.from_ e.n then (s.noteRead e.from_ e.n, St.mediumError)
      else if s.memBad (e.from_ + e.half) e.n then (s.noteRead (e.from_ + e.half) e.n, St.mediumError)
      else
        let k := s.writeMem e.to_ (s.bytes e.from_ e.n)
        let v := k.1.writeMem (0x8000 + e.to_) (s.bytes (e.from_ + e.half) e.n)
        (v.1, if k.2 ≠ St.success then k.2 else v.2)) (s, St.success)

/-- The copies of an APPEND_KV, through the pages it has checked. -/
def appendCopies (x : Stream) (count src : Nat) (pages : List (Nat × Nat)) : List KvCopy :=
  (posHeads x x.len count).zipIdx.map fun p =>
    { from_ := src + p.2 * 2 * x.posBytes, half := x.posBytes, to_ := (pages[p.2]?.getD (0, 0)).1 + x.keyOff p.1.1,
      n := x.posBytes }

/-- APPEND_KV writes K and V for COUNT positions after checking their page-table entries (R151). -/
def execAppendKv (q : Fin 256) (s : State) : Out :=
  .next (orHold s (onStream s q 3 fun s c _ x =>
    let layer := leAt c.bytes 24 2
    let count := leAt c.bytes 26 1
    let src := leAt c.bytes 32 8
    let n := count * x.heads * 2 * x.posBytes
    if x.layers ≤ layer then (s, St.badDescriptor, 0)
    else if !decAddrOk s x.glade src n then (s, St.protectionFault, 0)
    else if x.maxLen < x.len + count then (s, Dec.full, 0)
    else
      let pages := pagesFor s x layer x.len count
      let bad := worstPage (pages.map (·.2))
      if bad ≠ St.success then (s, bad, 0)
      else if s.memBad src n then (s.noteRead src n, St.mediumError, 0)
      else
        let r := kvCopies s (appendCopies x count src pages)
        (r.1, r.2, 0)))

/-! ### Attention (R152 to R154) -/

/-- Whether node `a` is node `i` or an ancestor of it (R152). -/
def isAncestor (parents : List Nat) : Nat → Nat → Nat → Bool
  | 0, _, _ => false
  | fuel + 1, a, i => a == i || (i != 0 && isAncestor parents fuel a (parents[i]?.getD 0))

/-- Whether query position `i` sees a position (R152). -/
def sees (x : Stream) (tree : Bool) (i pos : Nat) : Bool :=
  pos < x.len ||
    (if tree then
      match x.tree with
      | some t => isAncestor t.parents 17 (pos - x.len) i
      | none => false
     else pos ≤ x.len + i)

/-- Query heads of a stream. -/
def Stream.qHeads (x : Stream) : Nat := x.heads * x.group

/-- Elements of a plane at an address. -/
def elemsAt (s : State) (f a n : Nat) : List Num := laneNumsOf f (s.bytes a (fmtBytes f n)) n
where
  /-- Element values of a packed plane. -/
  laneNumsOf (f : Nat) (l : List Byte) (n : Nat) : List Num := (rawElems f l n).map (decodeElem f)

/-- The FP32 sum of products of two lists under R101: groups of `g` in order, each rounded once, then added. -/
def dotGroups (g : Nat) : Nat → List (Option (Num × Num)) → Option Nat → Nat
  | 0, _, acc => acc.getD 0
  | fuel + 1, l, acc =>
    if l.isEmpty then acc.getD 0
    else
      let terms := (l.take g).filterMap id
      let acc := if terms.isEmpty then acc else some (groupAdd (some 0) terms acc).1
      dotGroups g fuel (l.drop g) acc

/-- The positions of a page that a query position sees. -/
def seenIn (x : Stream) (tree : Bool) (i page last : Nat) : List Nat :=
  ((List.range x.perPage).map (page * x.perPage + ·)).filter fun p => p < last && sees x tree i p

/-- The result of one page for one query position and head (R153): m_p, l_p and acc_p, with the state that has drawn the
order of the sum. -/
def pageResult (s : State) (x : Stream) (frame : Nat) (qv : List Num) (seen : List Nat) (page : Nat) :
    Option Merge × State :=
  if seen.isEmpty then (none, s)
  else
    let g := groupK x.kvFmt
    let prob := if x.kvFmt = Fmt.bf16 then Fmt.bf16 else Fmt.e4m3
    let scores := seen.map fun p =>
      let kv := elemsAt s x.kvFmt (frame + x.keyOff p) x.dim
      fmul x.scale (dotGroups g x.dim ((qv.zip kv).map some) none)
    let m := (roundF32 (scores.foldl (fun (a : Num) w => pickNum' a (ofF32 w)) (.inf true))).1
    let ws := scores.map fun w => (vectorFunction 0x10 (fsub w m)).1
    let r := s.shuffled ws
    let l := (r.1.drop 1).foldl fadd (r.1.headD 0)
    let probs := ws.map fun w => decodeElem prob (toFloat none true prob (ofF32 w)).1
    let acc := (List.range x.dim).map fun d =>
      let col := (List.range x.perPage).map fun o =>
        match (seen.zip probs).find? fun p => p.1 == page * x.perPage + o with
        | some p => some (p.2, (elemsAt s x.kvFmt (0x8000 + frame + x.keyOff p.1 + d * x.b) 1).headD .zero)
        | none => none
      dotGroups g x.perPage col none
    (some { m := m, l := l, acc := acc }, r.2)
where
  /-- The larger of two values; NaN if either is. -/
  pickNum' (a b : Num) : Num := if a.isNan || b.isNan then .nan else if Num.lt a b then b else a

/-- e^(a - b) of two FP32 words. -/
def expDiff (a b : Nat) : Nat := (vectorFunction 0x10 (fsub a b)).1

/-- The larger of two FP32 words; NaN if either is. -/
def fmax (a b : Nat) : Nat :=
  if (ofF32 a).isNan || (ofF32 b).isNan then nanRaw Fmt.fp32 else if Num.lt (ofF32 a) (ofF32 b) then b else a

/-- Merge a page result into the results so far, in the order of arrival (R153). -/
def mergeParts : Option Merge → Option Merge → Option Merge
  | none, y => y
  | x, none => x
  | some a, some b =>
    let m := fmax a.m b.m
    let ea := expDiff a.m m
    let eb := expDiff b.m m
    some { m := m, l := fadd (fmul a.l ea) (fmul b.l eb),
           acc := (a.acc.zip b.acc).map fun p => fadd (fmul p.1 ea) (fmul p.2 eb) }

/-- The output elements of one merged result (R153): acc times 1 / l, converted to OUT_FMT with SAT. -/
def mergeOut (fmt dim : Nat) : Option Merge → List Nat
  | none => List.replicate dim 0
  | some a =>
    let r := (vectorFunction 0x0C a.l).1
    a.acc.map fun w => (toFloat none true fmt (ofF32 (fmul w r))).1

/-- Drop every item of a queue's command from the tiles. -/
def dropItems (s : State) (qid : Nat) : State :=
  { s with tiles := s.tiles.map fun p => (p.1, { p.2 with items := p.2.items.filter fun i => i.qid != qid }) }

/-- An ATTEND that ends without its result: OUT may be partly written, and nothing says with what or how far, so its bytes are
free where OUT takes a write (R152, R160). -/
def attendFail (s : State) (qid status : Nat) : State :=
  let a := Tab.get {} s.attends qid
  let x := s.stream a.ctx
  let s := dropItems { s with attends := Tab.set {} s.attends qid {} } qid
  let l := s.freeBytes (fmtBytes a.fmt (a.count * x.qHeads * x.dim))
  let s := l.2.write a.out l.1
  match (s.queue qid).first with
  | some c => decEnd s qid c status 0
  | none => s

/-- ATTEND divides attention for COUNT positions into items across TILE_MASK. -/
def execAttend (q : Fin 256) (s : State) : Out :=
  match decCmd s q 4 with
  | none => .next s
  | some c =>
    let qid := decQid q
    let s := decStart s qid
    let h := leAt c.bytes 8 4
    let st := handleStatus s (s.queueGlade qid) h
    let x := s.stream (handleCtx h)
    let count := leAt c.bytes 26 1
    let tree := bitOf (leAt c.bytes 27 1) 0
    let mask := leAt c.bytes 48 8
    let tiles := below 64 (bitOf mask)
    let qn := count * x.qHeads * x.dim
    let a : Attend :=
      { ctx := handleCtx h, layer := leAt c.bytes 24 2, count := count, tree := tree, fmt := leAt c.bytes 28 1,
        q := leAt c.bytes 32 8, out := leAt c.bytes 40 8, mask := mask, left := 0, parts := [] }
    if st ≠ St.success then .next (decEnd s qid c st 0)
    else if x.layers ≤ a.layer || 96 * 1024 < x.group * count * x.dim * x.b then
      .next (decEnd s qid c St.badDescriptor 0)
    else if tree && (match x.tree with
        | some t => t.tokens.length != count
        | none => true) then .next (decEnd s qid c Dec.sequence 0)
    else if x.maxLen < x.len + count then .next (decEnd s qid c Dec.full 0)
    else if tiles.any fun n => !(s.flag TILE_CFG.ASSIGNED n && s.tileGlade n == x.glade) then
      .next (decEnd s qid c St.protectionFault 0)
    else if tiles.any s.tileOut then .next (decEnd s qid c Dec.tileLost 0)
    else if !decAddrOk s x.glade a.q (fmtBytes x.qFmt qn) || !decAddrOk s x.glade a.out (fmtBytes a.fmt qn) then
      .next (decEnd s qid c St.protectionFault 0)
    else if s.memBad a.q (fmtBytes x.qFmt qn) then
      .next (decEnd (s.noteRead a.q (fmtBytes x.qFmt qn)) qid c St.mediumError 0)
    else
      let pages := ceilDiv (x.len + count) x.perPage
      let items := (List.range x.heads).flatMap fun hd => (List.range pages).map fun p => (hd, p)
      let s := s.setCmd qid { c with started := true }
      let s := s.setStream a.ctx { x with busy := some qid }
      let a := { a with left := items.length, parts := List.replicate (count * x.qHeads) none }
      let s := { s with attends := Tab.set {} s.attends qid a }
      .next (items.zipIdx.foldl
        (fun s p =>
          let n := tiles[p.2 % tiles.length]?.getD 0
          let t := s.tile n
          let i : Item := { qid := qid, head := p.1.1, page := p.1.2, prio := x.dprio }
          s.setTile n { t with items := t.items ++ [i] }) s)

/-- A tile takes a decode item between commands and computes one page of attention in its window; the last item of a
command writes OUT and completes it (R153, R154). -/
def execAttendItem (n : Fin 64) (s : State) : Out :=
  match nextItem (s.tile n).items with
  | none => .next s
  | some i =>
    if !tileBoundary s n || tilePick s n ≠ some 8 then .next s
    else
      let a := Tab.get {} s.attends i.qid
      let x := s.stream a.ctx
      let start := s
      let s := s.setTile n { (s.tile n).picked i.prio 8 with items := (s.tile n).items.erase i }
      let pg := pageFor s x false a.layer i.head i.page
      let bad :=
        if pg.2 ≠ St.success then pg.2 else if s.memBad pg.1 0x10000 then St.mediumError else St.success
      let s := s.scramble (padAddr n x.window) 0x40000
      if bad ≠ St.success then
        let seen := if pg.2 = St.success then s.noteRead pg.1 0x10000 else s.noteStatus bad (x.entryAddr a.layer i.head i.page) 4
        .next (attendFail seen i.qid bad)
      else
        let step := fun (acc : List (Option Merge) × State) (k : Nat) =>
          let pos := k / x.qHeads
          let g := k % x.qHeads
          if g / x.group = i.head then
            let qv := elemsAt s x.qFmt (a.q + fmtBytes x.qFmt (k * x.dim)) x.dim
            let r := pageResult acc.2 x pg.1 qv (seenIn x a.tree pos i.page (x.len + a.count)) i.page
            (setAt acc.1 k (mergeParts (acc.1[k]?.getD none) r.1), r.2)
          else acc
        let r := (List.range (a.count * x.qHeads)).foldl step (a.parts, s)
        let s := r.2
        if a.left ≤ 1 then
          let out := packElems a.fmt (r.1.flatMap (mergeOut a.fmt x.dim))
          let w := { s with attends := Tab.set {} s.attends i.qid {} }.writeMem a.out out
          match (w.1.queue i.qid).first with
          | some c => .next (orHold start (decEnd w.1 i.qid c w.2 0))
          | none => .next (orHold start w.1)
        else .next { s with attends := Tab.set {} s.attends i.qid { a with left := a.left - 1, parts := r.1 } }

/-! ### Trees and length (R155, R156) -/

/-- SET_TREE sets the stream's candidate tree and copies its tokens. -/
def execSetTree (q : Fin 256) (s : State) : Out :=
  .next (onStream s q 5 fun s c k x =>
    let n := leAt c.bytes 24 1
    let a := leAt c.bytes 48 8
    if x.tree.isSome then (s, Dec.sequence, 0)
    else if !decAddrOk s x.glade a (4 * n) then (s, St.protectionFault, 0)
    else if s.memBad a (4 * n) then (s.noteRead a (4 * n), St.mediumError, 0)
    else
      let t : Tree :=
        { parents := (List.range n).map fun i => leAt c.bytes (32 + i) 1,
          tokens := (List.range n).map fun i => leNat (s.bytes (a + 4 * i) 4) }
      (s.setStream k { x with tree := some t, samples := none }, St.success, 0))

/-- COMMIT adds COUNT to LEN. -/
def execCommit (q : Fin 256) (s : State) : Out :=
  .next (onStream s q 8 fun s c k x =>
    let n := leAt c.bytes 24 1
    if x.tree.isSome then (s, Dec.sequence, 0)
    else if x.maxLen < x.len + n then (s, Dec.full, 0)
    else ((s.setStream k { x with len := x.len + n }).meterAdd x.glade 8 n, St.success, x.len + n))

/-- TRUNCATE sets LEN to NEW_LEN and discards any tree; with NEW_LEN equal to LEN it changes nothing and tells LEN (R144). -/
def execTruncate (q : Fin 256) (s : State) : Out :=
  .next (onStream s q 9 fun s c k x =>
    let n := leAt c.bytes 24 4
    if x.len < n then (s, St.badDescriptor, 0)
    else if n = x.len then (s, St.success, x.len)
    else (s.setStream k { x with len := n, tree := none, samples := none }, St.success, n))

/-- The accepted path of a tree (R156): from node `u` on, the lowest-numbered child whose token the sample names. -/
def treePath (t : Tree) (samples : List Nat) : Nat → Nat → List Nat
  | 0, _ => []
  | fuel + 1, u =>
    match (List.range t.parents.length).find? fun c =>
      u < c && t.parents[c]? == some u && t.tokens[c]? == samples[u]? with
    | some c => c :: treePath t samples fuel c
    | none => []

/-- The path that VERIFY accepts and the tokens it emits. -/
def acceptedPath (t : Tree) (samples : List Nat) : List Nat := 0 :: treePath t samples 17 0
def emittedTokens (t : Tree) (samples : List Nat) : List Nat :=
  let path := acceptedPath t samples
  (path.drop 1).map (fun u => t.tokens[u]?.getD 0) ++ [samples[path.getLastD 0]?.getD 0]

/-- The copies that compact a path, each with the status of its two page-table entries, which are read here and once only
(R151, R156). -/
def compactCopies (s : State) (x : Stream) (path : List Nat) : List (KvCopy × Nat) :=
  (path.zipIdx.filter fun p => p.1 != p.2).flatMap fun mv =>
    (List.range x.layers).flatMap fun ly =>
      (List.range x.heads).map fun hd =>
        let src := pageFor s x false ly hd ((x.len + mv.1) / x.perPage)
        let dst := pageFor s x true ly hd ((x.len + mv.2) / x.perPage)
        ({ from_ := src.1 + x.keyOff (x.len + mv.1), half := 0x8000, to_ := dst.1 + x.keyOff (x.len + mv.2), n := x.posBytes },
          worstPage [src.2, dst.2])

/-- VERIFY accepts the longest matching path, compacts K and V, and advances LEN. -/
def execVerify (q : Fin 256) (s : State) : Out :=
  .next (orHold s (onStream s q 7 fun s c k x =>
    let out := leAt c.bytes 32 8
    match x.tree, x.samples with
    | some t, some samples =>
      let path := acceptedPath t samples
      let copies := compactCopies s x path
      let worst := worstPage (copies.map (·.2))
      if !decAddrOk s x.glade out (4 * path.length) then (s, St.protectionFault, 0)
      else if x.maxLen < x.len + path.length then (s, Dec.full, 0)
      else if worst ≠ St.success then (s, worst, 0)
      else
        let r := kvCopies s (copies.map (·.1))
        if r.2 ≠ St.success then (r.1, r.2, 0)
        else
          let w := r.1.writeMem out ((emittedTokens t samples).flatMap (toLe 4))
          if w.2 ≠ St.success then (w.1, w.2, 0)
          else
            let s := w.1.setStream k { x with len := x.len + path.length, tree := none, samples := none }
            (s.meterAdd x.glade 8 path.length, St.success, path.length + 2 ^ 16 * (path.foldl (fun m u => m + 2 ^ u) 0))
    | _, _ => (s, Dec.sequence, 0)))

/-! ### Sampling (R157 to R159) -/

/-- The draw for a position (R158): 24 bits of a fraction. -/
def sampleDraw (seed n : Nat) : Nat :=
  let m := 2 ^ 64
  let x := Nat.xor seed ((0x9E3779B97F4A7C15 * n) % m)
  let x := (0xBF58476D1CE4E5B9 * Nat.xor x (x / 2 ^ 30)) % m
  let x := (0x94D049BB133111EB * Nat.xor x (x / 2 ^ 27)) % m
  let x := Nat.xor x (x / 2 ^ 31)
  x / 2 ^ 40

/-- A logit as sampling reads it: NaN as -infinity, +infinity as the largest finite FP32 value (R157). -/
def logit (x : Num) : Num :=
  match x with
  | .nan => .inf true
  | .inf false => ofF32 (maxRaw Fmt.fp32)
  | y => y

/-- Whether one candidate stands before another: value descending, then index ascending. -/
def candBefore (a b : Num × Nat) : Bool := Num.lt b.1 a.1 || (!Num.lt a.1 b.1 && a.2 < b.2)

/-- Insert a candidate into an ordered list of at most `k`. -/
def insertCand (a : Num × Nat) : List (Num × Nat) → List (Num × Nat)
  | [] => [a]
  | b :: t => if candBefore a b then a :: b :: t else b :: insertCand a t

/-- The `k` largest candidates in order, those of -infinity dropped. -/
def topK (k : Nat) (l : List (Num × Nat)) : List (Num × Nat) :=
  l.foldl (fun acc a => if a.1 == .inf true then acc else (insertCand a acc).take k) []

/-- The FP32 quotient of two words within the accuracy of R111 (R140). -/
def fdiv (a b : Nat) : Nat :=
  match ofF32 a, ofF32 b with
  | .fin n m e, .fin n' m' e' =>
    if m' = 0 then (Config.vectorDivide (BitVec.ofNat 32 a) (BitVec.ofNat 32 b)).toNat
    else
      let t := Num.fin (n != n') (2 ^ 120 * m / m') (e - e' - 120)
      let w := (Config.vectorDivide (BitVec.ofNat 32 a) (BitVec.ofNat 32 b)).toNat
      if meetsAccuracy 0x0C t w then w else (roundF32 t).1
  | _, _ => (Config.vectorDivide (BitVec.ofNat 32 a) (BitVec.ofNat 32 b)).toNat

/-- The running FP32 sums of a list, in order. -/
def runningSums : List Nat → Option Nat → List Nat
  | [], _ => []
  | w :: t, acc =>
    let c := match acc with
      | none => w
      | some a => fadd a w
    c :: runningSums t (some c)

/-- Draw a token from ordered candidates (R157): `u` is the draw's 24 bits. -/
def drawToken (temp topP u : Nat) (cand : List (Num × Nat)) : Nat :=
  match cand with
  | [] => 0
  | first :: _ =>
    if (ofF32 temp).isZero then first.2
    else
      let zs := cand.map fun c => fdiv (roundF32 c.1).1 temp
      let z0 := zs.headD 0
      let cum := runningSums (zs.map fun z => expDiff z z0) none
      let last := cum.getLastD 0
      let p := (roundF32 (.fin false (topP + 1) (-16))).1
      let reaches := fun (c lim : Nat) => !Num.lt (ofF32 c) (ofF32 lim)
      let n := ((List.range cum.length).find? fun j => reaches (cum[j]?.getD 0) (fmul p last)).getD (cum.length - 1) + 1
      let lim := fmul (roundF32 (.fin false u (-24))).1 (cum[n - 1]?.getD 0)
      let j := ((List.range n).find? fun j => Num.lt (ofF32 lim) (ofF32 (cum[j]?.getD 0))).getD (n - 1)
      ((cand[j]?).map (·.2)).getD 0

/-- K of a SAMPLE command (R157). -/
def sampleK (l : List Byte) : Nat := if leAt l 26 2 = 0 then 1024 else leAt l 26 2

/-- The candidates of position `i` of a FULL or PARTIAL SAMPLE, from its logits. -/
def logitCands (s : State) (l : List Byte) (i : Nat) : List (Num × Nat) :=
  let f := leAt l 35 1
  let n := leAt l 36 4
  let vs := elemsAt s f (leAt l 40 8 + i * fmtBytes f n) n
  topK (sampleK l) (vs.zipIdx.map fun v => (logit v.1, v.2))

/-- The entries of position `i` of a MERGE SAMPLE, the highest value kept for each token index (R159). -/
def mergeCands (s : State) (l : List Byte) (i : Nat) : List (Num × Nat) :=
  let n := leAt l 36 4
  let es := (List.range n).map fun j =>
    let a := leAt l 40 8 + 8 * (i * n + j)
    (logit (ofF32 (leNat (s.bytes a 4))), leNat (s.bytes (a + 4) 4))
  let best := es.filter fun e => !es.any fun x => x.2 == e.2 && Num.lt e.1 x.1
  let one := best.zipIdx.filterMap fun e => if (best.take e.2).any (·.2 == e.1.2) then none else some e.1
  topK (sampleK l) one

/-- The depth of a node of a tree (R155). -/
def nodeDepth (parents : List Nat) : Nat → Nat → Nat
  | 0, _ => 0
  | fuel + 1, i => if i = 0 then 0 else 1 + nodeDepth parents fuel (parents[i]?.getD 0)

/-- The position of sample `i` (R158). -/
def samplePos (x : Stream) (i : Nat) : Nat :=
  match x.tree with
  | some t => x.len + nodeDepth t.parents 17 i + 1
  | none => x.len + i + 1

/-- The tests that every SAMPLE shares: the tree's count and the addresses. -/
def sampleStatus (s : State) (x : Stream) (l : List Byte) (srcLen outLen : Nat) : Nat :=
  if (match x.tree with
      | some t => t.tokens.length != leAt l 25 1
      | none => false) then Dec.sequence
  else if !decAddrOk s x.glade (leAt l 40 8) srcLen || !decAddrOk s x.glade (leAt l 48 8) outLen then St.protectionFault
  else if s.memBad (leAt l 40 8) srcLen then St.mediumError
  else St.success

/-- The state after a SAMPLE's tests: a read of bad data is noted. -/
def sampleNote (s : State) (l : List Byte) (st srcLen : Nat) : State := s.noteStatus st (leAt l 40 8) srcLen

/-- The tokens drawn from the candidates of each position (R157, R158). -/
def drawTokens (x : Stream) (l : List Byte) (base : Nat) (cands : List (List (Num × Nat))) : List Nat :=
  cands.zipIdx.map fun c =>
    (drawToken (leAt l 28 4) (leAt l 32 2) (sampleDraw x.seed (samplePos x c.2)) c.1 + base) % 2 ^ 32

/-- Draw COUNT tokens from their candidates, write them to OUT and record them (R157, R159). -/
def sampleTokens (s : State) (k : Nat) (x : Stream) (l : List Byte) (base : Nat) (cands : List (List (Num × Nat))) :
    State × Nat × Nat :=
  if cands.any List.isEmpty then (s, Dec.noCandidate, 0)
  else
    let toks := drawTokens x l base cands
    let w := s.writeMem (leAt l 48 8) (toks.flatMap (toLe 4))
    if w.2 ≠ St.success then (w.1, w.2, 0)
    else (w.1.setStream k { x with samples := some toks }, St.success, if leAt l 25 1 = 1 then toks.headD 0 else 0)

/-- Run a SAMPLE of one mode: a command of another mode is not taken. -/
def onSample (s : State) (q mode : Nat) (body : State → Cmd → Nat → Stream → State × Nat × Nat) : State :=
  match decCmd s q 6 with
  | some c => if leAt c.bytes 24 1 = mode then onStream s q 6 body else s
  | none => s

/-- SAMPLE in FULL mode draws tokens from logits with top-k, top-p and temperature. -/
def execSampleFull (q : Fin 256) (s : State) : Out :=
  .next (orHold s (onSample s q 0 fun s c k x =>
    let l := c.bytes
    let n := leAt l 25 1
    let srcLen := n * fmtBytes (leAt l 35 1) (leAt l 36 4)
    let st := sampleStatus s x l srcLen (4 * n)
    if st ≠ St.success then (sampleNote s l st srcLen, st, 0)
    else sampleTokens s k x l (leAt l 56 4) ((List.range n).map (logitCands s l))))

/-- One entry of a PARTIAL list (R159). -/
def partialEntry (base : Nat) (c : Num × Nat) : List Byte := toLe 4 (roundF32 c.1).1 ++ toLe 4 ((c.2 + base) % 2 ^ 32)

/-- What a PARTIAL SAMPLE writes to OUT. -/
def partialOut (s : State) (l : List Byte) : List Byte :=
  (List.range (leAt l 25 1)).flatMap fun i =>
    let es := (logitCands s l i).map (partialEntry (leAt l 56 4))
    (es ++ List.replicate (sampleK l - es.length) (toLe 4 0xFF800000 ++ toLe 4 0xFFFFFFFF)).flatten

/-- SAMPLE in PARTIAL mode writes the ordered top-K candidate entries. -/
def execSamplePartial (q : Fin 256) (s : State) : Out :=
  .next (orHold s (onSample s q 1 fun s c _ x =>
    let l := c.bytes
    let n := leAt l 25 1
    let srcLen := n * fmtBytes (leAt l 35 1) (leAt l 36 4)
    let st := sampleStatus s x l srcLen (8 * n * sampleK l)
    if st ≠ St.success then (sampleNote s l st srcLen, st, 0)
    else
      let w := s.writeMem (leAt l 48 8) (partialOut s l)
      (w.1, w.2, 0)))

/-- SAMPLE in MERGE mode merges candidate lists and samples as FULL does. -/
def execSampleMerge (q : Fin 256) (s : State) : Out :=
  .next (orHold s (onSample s q 2 fun s c k x =>
    let l := c.bytes
    let n := leAt l 25 1
    let srcLen := 8 * n * leAt l 36 4
    let st := sampleStatus s x l srcLen (4 * n)
    if st ≠ St.success then (sampleNote s l st srcLen, st, 0)
    else sampleTokens s k x l 0 ((List.range n).map (mergeCands s l))))

/-- What a SAMPLE that passes its tests writes to OUT; nothing where a position has no candidate. -/
def sampleOut (s : State) (x : Stream) (l : List Byte) : List Byte :=
  let cands := fun (f : Nat → List (Num × Nat)) => (List.range (leAt l 25 1)).map f
  let toks := fun (base : Nat) (cs : List (List (Num × Nat))) =>
    if cs.any List.isEmpty then [] else (drawTokens x l base cs).flatMap (toLe 4)
  match leAt l 24 1 with
  | 0 => toks (leAt l 56 4) (cands (logitCands s l))
  | 1 => partialOut s l
  | _ => toks 0 (cands (mergeCands s l))

/-- Lengths of what a SAMPLE reads and writes. -/
def sampleLens (l : List Byte) : Nat × Nat :=
  let n := leAt l 25 1
  if leAt l 24 1 = 2 then (8 * n * leAt l 36 4, 4 * n)
  else (n * fmtBytes (leAt l 35 1) (leAt l 36 4), if leAt l 24 1 = 1 then 8 * n * sampleK l else 4 * n)

/-- A command of a stream that a reset stops part way (R160): the first `done` of its writes have been made, and a VERIFY
discards its tree and its samples. LEN is unchanged. -/
def decPartly (s : State) (c : Cmd) (done : Nat) : State :=
  let l := c.bytes
  let k := handleCtx (leAt l 8 4)
  let x := s.stream k
  match leAt l 0 1 with
  | 3 =>
    let pages := pagesFor s x (leAt l 24 2) x.len (leAt l 26 1)
    let n := leAt l 26 1 * x.heads * 2 * x.posBytes
    if leAt l 24 2 < x.layers && decAddrOk s x.glade (leAt l 32 8) n && x.len + leAt l 26 1 ≤ x.maxLen
        && worstPage (pages.map (·.2)) = St.success && !s.memBad (leAt l 32 8) n then
      (kvCopies s ((appendCopies x (leAt l 26 1) (leAt l 32 8) pages).take done)).1
    else s
  | 6 =>
    let n := sampleLens l
    if sampleStatus s x l n.1 n.2 = St.success then s.write (leAt l 48 8) ((sampleOut s x l).take (4 * done)) else s
  | 7 =>
    match x.tree, x.samples with
    | some t, some samples =>
      let path := acceptedPath t samples
      let copies := compactCopies s x path
      let s :=
        if decAddrOk s x.glade (leAt l 32 8) (4 * path.length) && x.len + path.length ≤ x.maxLen
            && worstPage (copies.map (·.2)) = St.success then
          (kvCopies s ((copies.map (·.1)).take done)).1
        else s
      s.setStream k { s.stream k with tree := none, samples := none }
    | _, _ => s
  | _ => s

/-- Whether a fetched command of a decode queue may be running when a reset comes: it could start now, on a stream of its
own glade (R142). -/
def mayRun (s : State) (qid : Nat) (c : Cmd) : Bool :=
  !c.started && decStartable s qid && handleStatus s (s.queueGlade qid) (leAt c.bytes 8 4) == St.success

/-- End every fetched command of a decode queue with a status, an ATTEND in progress included (R160). Commands other than ATTEND
are one step of the model, so for one that may be running a free bit says whether the reset finds it running, and a free word
how far it has come (log entry 43, safe). -/
def decAbort (s : State) (qid status : Nat) : State :=
  (s.queue qid).cmds.foldl
    (fun s c =>
      if c.started && leAt c.bytes 0 1 = 4 then attendFail s qid status
      else if mayRun s qid c then
        let runs := s.freeBit
        let far := runs.2.freeWord
        decEnd (if runs.1 then decPartly far.2 c (far.1.toNat % 65536) else far.2) qid c status 0
      else decEnd s qid c status 0) s

/-- Close every stream an instance opened, raising DEC_STREAM_RESET for each (R160, R162). -/
def closeStreams (s : State) (inst : Nat) : State :=
  (s.streams.filter fun p => p.2.valid && p.2.inst == inst).foldl
    (fun s p =>
      let s := s.raise 0x0702 (unitId 0x2 p.2.slice) p.2.glade inst 0 (handleOf p.1 p.2 + 2 ^ 32 * p.2.len)
      closeStream s p.1) s

/-- The ATTEND commands whose mask holds a tile end with DEC_TILE_LOST (R160). -/
def attendTileLost (s : State) (n : Nat) : State :=
  (s.attends.filter fun p => p.2.left != 0 && bitOf p.2.mask n).foldl (fun s p => attendFail s p.1 Dec.tileLost) s

end Sys2Proof.Machine
end

