-- ==== Sys2Proof/Machine/Faults.lean ====
section
/-! DEFINITION. Recording faults in the repair log and reporting that service is due (R57, R58, R371, R373). Choices and
readings of the model: log entry 23. -/
namespace Sys2Proof.Machine

open Sys2Proof

/-- A repair record (R57). -/
def repairRecord (unit kind a b origin : Nat) : List Byte :=
  toLe 2 unit ++ toLe 1 kind ++ toLe 1 0 ++ toLe 4 a ++ toLe 4 b ++ toLe 1 origin ++ toLe 3 0

/-- The optical tile that carries a lane (R233). -/
def laneTile (l : Nat) : Nat :=
  if l < 32 then l / 8
  else if l < 36 then (l - 30) / 2
  else if l < 40 then 0
  else if l < 44 then 3
  else if l < 46 then 0
  else min (l - 45) 3

/-- A unit identifier with a physical index names a unit that exists (R17). -/
def physUnitOk (u : Nat) : Bool :=
  let i := u % 0x1000
  match u / 0x1000 with
  | 0x0 => i < 3
  | 0x1 => i < 8
  | 0x2 => i < 16
  | 0x3 => i < 68
  | 0x4 => i / 32 < 16 && i % 32 ≤ 16
  | 0x5 => i < 64
  | 0x6 => i < 16
  | 0x7 => i < 2
  | 0x8 => i < 9
  | 0x9 => i < 2
  | 0xA => i < 4
  | 0xB => i < 16
  | 0xC => i < 4
  | 0xD => i < 17
  | _ => false

/-- A repair record is well formed (R57). -/
def repairRecordOk (r : List Byte) : Bool :=
  let u := leAt r 0 2
  let a := leAt r 4 4
  let b := leAt r 8 4
  physUnitOk u && zeroAt r 3 1 && leAt r 12 1 ≤ 3 && zeroAt r 13 3
    && (match leAt r 2 1 with
        | 1 => u / 0x1000 == 5 && a % 256 < 8 && a / 256 < 81920 && b < 64
        | 2 => u / 0x1000 == 5 && a < 8 && b == 0
        | 3 => Config.sramColumn u a b
        | 4 => a == 0 && b == 0
        | 5 => a < 50 && b == 0 && u == unitId 0xA (laneTile a)
        | _ => false)

/-- Records a log slot holds. -/
def logMax : Nat := 4085

/-- Record a fault (R58): past 4,085 records it is kept only until the next power-on reset. The device makes well-formed
records only (R57), so a fault at a place that no unit has is not recorded. -/
def recordFault (s : State) (unit kind a b origin : Nat) : State :=
  let r := repairRecord unit kind a b origin
  let n := s.boot.log.length
  if !repairRecordOk r then s
  else if n < logMax then
    let s := { s with boot := { s.boot with log := s.boot.log ++ [r] } }
    let s := s.wr BOOT_STATUS.WRITEBACK_PENDING 0 1
    if n + 1 = logMax then s.wr BOOT_STATUS.REPAIR_LOG_FULL 0 1 else s
  else
    let s := { s with boot := { s.boot with extra := s.boot.extra ++ [r] } }
    s.wrs 0 [(BOOT_STATUS.REPAIR_LOG_FULL, 1), (BOOT_STATUS.WRITEBACK_PENDING, 1)]

/-- Raise RES_SERVICE_DUE, once for each cause and unit until the next power-on reset (R373). -/
def serviceDue (s : State) (cause unit : Nat) : State :=
  if s.boot.dueRaised.contains (cause, unit) then s
  else
    let s := { s with boot := { s.boot with dueRaised := (cause, unit) :: s.boot.dueRaised } }
    s.raiseUnit 0x1103 (unitId 0 0) (cause + unit * 2 ^ 8)

/-- A grove goes out of service (R455); one that is in reset or STOPPED stays so. -/
def groveOut (s : State) (g : Nat) : State := if s.rd CLK_GROVE.STATE g = 0 then s.wr CLK_GROVE.STATE g 3 else s

end Sys2Proof.Machine
end

