-- ==== Sys2Proof/Machine/Understory.lean ====
section
/-! DEFINITION. The Understory: links and their frames, groups, collectives and epoch marks (R163 to R184). What a frame's
payload holds beyond R166, and the route of a reduced piece, are choices of the model (log entry 20). -/
namespace Sys2Proof.Machine

open Sys2Proof

/-- The queue identifier of collective queue `q` (R172). -/
def ustQid (q : Nat) : Nat := mkQid 3 q

/-- Frame types (R166). -/
def Uf.link : Nat := 1
def Uf.post : Nat := 2
def Uf.arrive : Nat := 3
def Uf.release : Nat := 4
def Uf.reduce : Nat := 5
def Uf.bcast : Nat := 6
def Uf.abort : Nat := 7
def Uf.mark : Nat := 8
def Uf.down : Nat := 9

/-- A link. -/
def State.ustLink (s : State) (k : Nat) : UstLink := Tab.get {} s.ustLinks k

/-- A group. -/
def State.ustGroup (s : State) (g : Nat) : UstGroup := Tab.get {} s.ustGroups g

/-- The state with a group replaced. -/
def State.setUstGroup (s : State) (g : Nat) (x : UstGroup) : State := { s with ustGroups := Tab.set {} s.ustGroups g x }

/-- Members of a group. -/
def State.grpN (s : State) (g : Nat) : Nat := s.rd UST_GRP_A.MEMBERS g

/-- This member's index in a group. -/
def State.grpSelf (s : State) (g : Nat) : Nat := s.rd UST_GRP_A.SELF g

/-- A group's state: 0 DISABLED, 1 FORMING, 2 UP, 3 DOWN (R169). -/
def State.grpState (s : State) (g : Nat) : Nat := s.rd UST_GRP_A.STATE g

/-- The links of a group's edges (R168). -/
def grpEdges (s : State) (g : Nat) : List Nat :=
  let up := if s.flag UST_GRP_B.PREV_VALID g then [s.rd UST_GRP_B.PREV g] else []
  let rest :=
    if s.flag UST_GRP_A.TOPO g then below 8 (bitOf (s.rd UST_GRP_B.CHILDREN g))
    else if s.flag UST_GRP_B.NEXT_VALID g then [s.rd UST_GRP_B.NEXT g]
    else []
  up ++ rest.filter fun k => !up.contains k

/-- The links on which a member sends a frame that starts here: NEXT of a ring, every edge of a tree. -/
def grpOut (s : State) (g : Nat) : List Nat :=
  if s.flag UST_GRP_A.TOPO g then grpEdges s g
  else if s.flag UST_GRP_B.NEXT_VALID g then [s.rd UST_GRP_B.NEXT g]
  else []

/-- The links on which a member forwards a frame that came in on link `k`. -/
def grpOn (s : State) (g k : Nat) : List Nat :=
  if s.flag UST_GRP_A.TOPO g then (grpEdges s g).filter (· != k) else grpOut s g

/-- The links on which a member forwards a frame for every member that came in on link `k` and started at member `src`: in a
ring it stops before its origin. -/
def grpPass (s : State) (g k src : Nat) : List Nat :=
  if !s.flag UST_GRP_A.TOPO g && (s.grpSelf g + 1) % s.grpN g = src then [] else grpOn s g k

/-- The bytes of a frame without its CRC (R166). -/
def frameBody (type group src dst gen lseq opseq offset : Nat) (payload : List Byte) : List Byte :=
  toLe 1 type ++ toLe 1 group ++ toLe 1 src ++ toLe 1 dst ++ toLe 2 gen ++ toLe 2 lseq ++ toLe 4 opseq ++ toLe 2 offset
    ++ toLe 2 payload.length ++ payload

/-- The bytes of a frame that link `k` sends next: its LSEQ and a CRC-32C (R166). -/
def linkFrame (s : State) (k type group src dst gen opseq offset : Nat) (payload : List Byte) : List Byte :=
  let body := frameBody type group src dst gen (s.ustLink k).tx opseq offset payload
  body ++ toLe 4 (crc32c body)

/-- Send a frame on a link now: it takes the next LSEQ, and a copy is kept for replay among the last 64 (R167). -/
def linkEmit (s : State) (k : Nat) (f : UstWaiting) : State :=
  let x := s.ustLink k
  let frame := linkFrame s k f.type f.group f.src f.dst f.gen f.opseq f.offset f.payload
  let kept := (x.kept ++ [frame]).drop (x.kept.length + 1 - 64)
  let last := if f.type = Uf.reduce || f.type = Uf.bcast then f.group else x.lastGroup
  let y := { x with tx := (x.tx + 1) % 4096, kept := kept, unacked := x.unacked + 1, lastGroup := last }
  { s with ustLinks := Tab.set {} s.ustLinks k y }.emit (.ustFrame k frame)

/-- The frame that a link sends next (R167): the oldest that is no data frame, and otherwise the oldest data frame of the group
whose turn it is. -/
def linkNext (x : UstLink) : Option UstWaiting :=
  let isData := fun (f : UstWaiting) => f.type == Uf.reduce || f.type == Uf.bcast
  match x.waiting.find? fun f => !isData f with
  | some f => some f
  | none =>
    match (List.range 64).find? fun i => x.waiting.any fun f => f.group == (x.lastGroup + 1 + i) % 64 with
    | some i => x.waiting.find? fun f => f.group == (x.lastGroup + 1 + i) % 64
    | none => none

/-- Send waiting frames while fewer than 64 are not yet acknowledged, so that every frame that may have to be sent again is
kept. -/
def linkPump (s : State) (k : Nat) : Nat → State
  | 0 => s
  | fuel + 1 =>
    let x := s.ustLink k
    if 64 ≤ x.unacked then s
    else
      match linkNext x with
      | some f =>
        linkPump (linkEmit { s with ustLinks := Tab.set {} s.ustLinks k { x with waiting := x.waiting.erase f } } k f) k fuel
      | none => s

/-- Send a frame of a group on a link: at once, or behind those that wait for acknowledgements (R167). -/
def linkSend (s : State) (k type group src dst gen opseq offset : Nat) (payload : List Byte) : State :=
  let x := s.ustLink k
  let f : UstWaiting :=
    { type := type, group := group, src := src, dst := dst, gen := gen, opseq := opseq, offset := offset, payload := payload }
  if x.waiting.isEmpty && x.unacked < 64 then linkEmit s k f
  else linkPump { s with ustLinks := Tab.set {} s.ustLinks k { x with waiting := x.waiting ++ [f] } } k 64

/-- Frames up to an LSEQ have been acknowledged by the peer (R167), and waiting ones go. -/
def linkAcked (s : State) (k lseq : Nat) : State :=
  let x := s.ustLink k
  let left := (4096 + x.tx - 1 - lseq) % 4096
  if left < x.unacked then
    linkPump { s with ustLinks := Tab.set {} s.ustLinks k { x with unacked := left } } k 64
  else s

/-- Send a LINK frame, which takes no LSEQ and is not kept (R167). -/
def linkSay (s : State) (k opseq : Nat) (payload : List Byte) : State :=
  s.emit (.ustFrame k (linkFrame s k Uf.link 0xFF 0 0xFF 0 opseq 0 payload))

/-- The payload of a LINK frame that says more than an acknowledgement: its kind (1 asks for a replay, 2 acknowledges a remote
post), group, member and whether the post landed. -/
def linkNote (kind group member landed : Nat) : List Byte :=
  toLe 1 kind ++ toLe 1 group ++ toLe 1 member ++ toLe 1 landed ++ List.replicate 12 0

/-- Send a frame of a group on several links. -/
def grpSend (s : State) (g : Nat) (links : List Nat) (type src dst opseq offset : Nat) (payload : List Byte) : State :=
  links.foldl (fun s k => linkSend s k type g src dst (s.rd UST_GRP_A.GEN g) opseq offset payload) s

/-- Acknowledge a received frame with a LINK frame (R167). -/
def linkAck (s : State) (k lseq : Nat) : State := linkSay s k lseq []

/-- Accept a received frame of a link: only the next in sequence on a link that is UP is taken, and it is acknowledged. -/
def linkTake (s : State) (k lseq : Nat) : Option State :=
  let x := s.ustLink k
  if s.flag UST_LINK.UP k && lseq = x.rx then
    some (linkAck { s with ustLinks := Tab.set {} s.ustLinks k { x with rx := (x.rx + 1) % 4096 } } k lseq)
  else none

/-! ### Collectives: completion -/

/-- Complete the command of a queue's ring entry, if it is still fetched. -/
def ustEnd (s : State) (qid entry status result : Nat) : State :=
  match (s.queue qid).cmdAt entry with
  | some c => s.complete qid c status (if status = St.success then result % 2 ^ 32 else 0)
  | none => s

/-- End the collective of a group. -/
def collEnd (s : State) (g status result : Nat) : State :=
  let x := s.ustGroup g
  match x.cur with
  | some c => ustEnd (s.setUstGroup g { x with cur := none }) c.qid c.entry status result
  | none => s

/-- The collective of a group ends without its result: writing stops, and DST keeps the pieces written so far (R180). -/
def collFail (s : State) (g status : Nat) : State := collEnd s g status 0

/-! ### Group states (R169) -/

/-- Show how many groups are UP. -/
def countUp (s : State) : State :=
  s.wr UST_STATUS.GROUPS_UP 0 (below 64 fun g => s.grpState g == 2).length

/-- The instance of a group's events: the owner of its queue (R183). -/
def grpInst (s : State) (g : Nat) : Nat := (s.queue (ustQid (s.rd UST_GRP_A.QUEUE g))).inst

/-- Raise an event of a group (R183). -/
def grpRaise (s : State) (g type payload : Nat) : State :=
  s.raise type (unitId 0x8 0) (s.rd UST_GRP_A.GLADE g) (grpInst s g) 0 payload

/-- End the remote posts of a group that are not yet acknowledged. -/
def postsFail (s : State) (g status : Nat) : State :=
  let x := s.ustGroup g
  x.posts.foldl (fun s p => ustEnd s p.1 p.2.1 status 0) (s.setUstGroup g { x with posts := [] })

/-- A group enters DOWN (R169, R180): a DOWN frame on every other edge, the collective and the remote posts end with
PEER_UNREACHABLE, the event, and the alert post. `from_` is the link it came from, or 8 when it came from none, which the event
shows as link 0. -/
def grpDown (s : State) (g cause from_ : Nat) : State :=
  if s.grpState g = 1 || s.grpState g = 2 then
    let s := countUp (s.wr UST_GRP_A.STATE g 3)
    let s := grpSend s g ((grpEdges s g).filter (· != from_)) Uf.down (s.grpSelf g) 0xFF 0 0 []
    let s := postsFail (collFail s g St.peerUnreachable) g St.peerUnreachable
    let s := grpRaise s g 0x0803 (g + cause * 2 ^ 6 + (from_ % 8) * 2 ^ 8)
    if s.flag UST_GRP_B.ALERT_EN g then s.post (s.rd UST_GRP_A.GLADE g) (s.rd UST_GRP_B.ALERT_CTR g) 1 else s
  else s

/-- Whether the peer on an edge holds the group alike, with the adjacent member index (R169). -/
def edgeMatches (s : State) (g k : Nat) : Bool :=
  let n := s.grpN g
  let self := s.grpSelf g
  let tree := s.flag UST_GRP_A.TOPO g
  (s.ustLink k).groups.any fun p =>
    p.group == g && p.members == n && p.tree == tree && p.gen == s.rd UST_GRP_A.GEN g
      && (if tree then p.self != self && p.self < n
          else (s.flag UST_GRP_B.PREV_VALID g && s.rd UST_GRP_B.PREV g == k && p.self == (self + n - 1) % n)
            || (s.flag UST_GRP_B.NEXT_VALID g && s.rd UST_GRP_B.NEXT g == k && p.self == (self + 1) % n))

/-- A FORMING group enters UP once every edge is UP with a matching peer (R169). Frames refused until now are held by their
senders, and a replay from the next expected LSEQ is asked for on every edge (R167). -/
def grpForm (s : State) (g : Nat) : State :=
  if s.grpState g = 1 && (grpEdges s g).all fun k => s.flag UST_LINK.UP k && edgeMatches s g k then
    (grpEdges s g).foldl (fun s k => linkSay s k (s.ustLink k).rx (linkNote 1 0 0 0)) (countUp (s.wr UST_GRP_A.STATE g 2))
  else s

/-! ### The reduction (R177) -/

/-- Elements of a 64-byte piece. -/
def pieceElems (dtype : Nat) : Nat := if dtype = Fmt.bf16 then 32 else 16

/-- A 64-byte piece as 32-bit words: BF16 widened exactly to FP32. -/
def pieceWords (dtype : Nat) (l : List Byte) : List Nat :=
  (rawElems dtype l (pieceElems dtype)).map fun x => if dtype = Fmt.bf16 then 65536 * x else x

/-- A piece's words as its 64 bytes: FP32 rounded to BF16 with SAT 0 (R106). -/
def pieceBytes (dtype : Nat) (ws : List Nat) : List Byte :=
  packElems dtype (ws.map fun w => if dtype = Fmt.bf16 then (toFloat none false Fmt.bf16 (ofF32 w)).1 else w)

/-- Larger of two FP32 words, NaN if either is (R111, R177). -/
def reduceMax (a b : Nat) : Nat :=
  if (ofF32 a).isNan || (ofF32 b).isNan then nanRaw Fmt.fp32 else if Num.lt (ofF32 a) (ofF32 b) then b else a

/-- Reduce two words (R177): INT32 sums saturate. -/
def reduceWord (dtype redop a b : Nat) : Nat :=
  if dtype = Fmt.int32 then
    let x := signedOf 32 a
    let y := signedOf 32 b
    if redop = 1 then (if x < y then b else a)
    else wordOf 32 (max (-(2 ^ 31 : Int)) (min (2 ^ 31 - 1) (x + y)))
  else if redop = 1 then reduceMax a b
  else fadd a b

/-- Reduce two pieces. -/
def reduceWords (dtype redop : Nat) (a b : List Nat) : List Nat :=
  (a.zip b).map fun p => reduceWord dtype redop p.1 p.2

/-- Pieces of a vector. -/
def Coll.pieces (c : Coll) : Nat := c.sig.len / 64

/-- Write one piece of a collective to DST; the operation completes when the last is written, with the first status of a write
that failed (R76, R80, R83). -/
def pieceDone (s : State) (g p : Nat) (l : List Byte) : State :=
  let x := s.ustGroup g
  match x.cur with
  | some c =>
    if c.done.contains p then s
    else
      let w := s.writeMem (c.dst + 64 * p) l
      let s := w.1
      let x := s.ustGroup g
      let c := { c with done := p :: c.done, status := if c.status = St.success then w.2 else c.status }
      let s := s.setUstGroup g { x with cur := some c }
      if c.done.length = c.pieces then collEnd s g c.status 0 else s
  | none => s

/-- The words of this member's own piece. -/
def ownWords (s : State) (c : Coll) (p : Nat) : List Nat := pieceWords c.sig.dtype (s.bytes (c.src + 64 * p) 64)

/-- A finished piece is formed here: it goes to every other member and to DST (R177). -/
def pieceFormed (s : State) (g p : Nat) (ws : List Nat) : State :=
  match (s.ustGroup g).cur with
  | some c =>
    let l := pieceBytes c.sig.dtype ws
    let s := grpSend s g (grpOut s g) Uf.bcast (s.grpSelf g) 0xFF c.opseq p l
    pieceDone s g p l
  | none => s

/-- Words as a REDUCE_DATA payload. -/
def wordBytes (ws : List Nat) : List Byte := ws.flatMap (toLe 4)

/-- How many terms from other members a piece needs before this member sends it on: one in a ring, unless it starts the
piece, and one for each child in a tree (R168). -/
def termsNeeded (s : State) (g p : Nat) : Nat :=
  if s.flag UST_GRP_A.TOPO g then (below 8 (bitOf (s.rd UST_GRP_B.CHILDREN g))).length
  else if p % s.grpN g = s.grpSelf g then 0 else 1

/-- The last member to reduce a piece: the root of a tree, and in a ring the member before the one that starts it. -/
def formsPiece (s : State) (g p : Nat) : Bool :=
  if s.flag UST_GRP_A.TOPO g then s.grpSelf g == 0
  else (p + s.grpN g - 1) % s.grpN g == s.grpSelf g

/-- A piece that holds every term this member waits for goes on, or is formed here (R177). -/
def pieceNext (s : State) (g p : Nat) : State :=
  match (s.ustGroup g).cur with
  | some c =>
    if Tab.get 0 c.got p = termsNeeded s g p then
      let ws := Tab.get [] c.parts p
      if formsPiece s g p then pieceFormed s g p ws
      else
        let links := if s.flag UST_GRP_A.TOPO g then [s.rd UST_GRP_B.PREV g] else grpOut s g
        grpSend s g links Uf.reduce (s.grpSelf g) 0xFF c.opseq p (wordBytes ws)
    else s
  | none => s

/-- Reduce a received piece into this member's (R177). -/
def pieceReduce (s : State) (g p : Nat) (ws : List Nat) : State :=
  let x := s.ustGroup g
  match x.cur with
  | some c =>
    let c := { c with
      parts := Tab.set [] c.parts p (reduceWords c.sig.dtype c.sig.redop (Tab.get [] c.parts p) ws),
      got := Tab.set 0 c.got p (Tab.get 0 c.got p + 1) }
    pieceNext (s.setUstGroup g { x with cur := some c }) g p
  | none => s

/-- A broadcast piece arrives on a link: it is forwarded and written (R174). In a ring it stops before its origin. -/
def pieceBcast (s : State) (g k opseq p src : Nat) (l : List Byte) : State :=
  pieceDone (grpSend s g (grpPass s g k src) Uf.bcast src 0xFF opseq p l) g p l

/-- The member from which a finished piece of an operation comes: the root of a BCAST, else the last member to reduce it. -/
def pieceOrigin (s : State) (g : Nat) (sig : CollSig) (p : Nat) : Nat :=
  if sig.op = 2 then sig.root
  else if s.flag UST_GRP_A.TOPO g then 0
  else (p + s.grpN g - 1) % s.grpN g

/-- The words of a REDUCE_DATA frame piece by piece: `n` words to a piece. -/
def cutWords (n : Nat) (ws : List Nat) : List (List Nat) :=
  (List.range (ws.length / n)).map fun i => (ws.drop (n * i)).take n

/-- The held frames of an operation, once data may flow. -/
def drainEarly (s : State) (g opseq : Nat) (sig : CollSig) : State :=
  let x := s.ustGroup g
  let mine := x.early.filter fun f =>
    match f with
    | .reduce o _ _ => o == opseq
    | .bcast _ o _ _ => o == opseq
    | _ => false
  let s := s.setUstGroup g { x with early := x.early.filter fun f => !mine.contains f }
  mine.foldl
    (fun s f =>
      match f with
      | .reduce _ p ws =>
        (cutWords (pieceElems sig.dtype) ws).zipIdx.foldl (fun s w => pieceReduce s g (p + w.2) w.1) s
      | .bcast k o p l =>
        (List.range (l.length / 64)).foldl
          (fun s i => pieceBcast s g k o (p + i) (pieceOrigin s g sig (p + i)) (bytesAt l (64 * i) 64)) s
      | _ => s) s

/-- Release a BARRIER or a MARK on this member; a MARK advances the epoch (R174, R178). -/
def collRelease (s : State) (g : Nat) : State :=
  match (s.ustGroup g).cur with
  | some c =>
    if c.sig.op = 5 then
      let e := (s.rd UST_EPOCH.VALUE g + 1) % 2 ^ 64
      let s := (s.wr UST_EPOCH.VALUE g e).wr UST_EPOCH_TIME.VALUE g s.now
      let s := grpRaise s g 0x0805 (e % 2 ^ 40 + 2 ^ 40 * min (s.now - c.since) 0xFFFFFF)
      collEnd s g St.success e
    else collEnd s g St.success 0
  | none => s

/-- Data may flow: the root of a BCAST sends, and each member of an ALLREDUCE takes its own terms (R174, R177). A SRC that has
become uncorrectable since the command was issued ends the operation here with MEDIUM_ERROR (R76), and this member abandons it
with an ABORT (DESIGN CHOICE, log entry 20). -/
def collFlow (s : State) (g : Nat) : State :=
  let x := s.ustGroup g
  match x.cur with
  | none => s
  | some c =>
    let ps := List.range c.pieces
    let c := { c with flowing := true }
    if (c.sig.op = 3 || c.sig.root = s.grpSelf g) && s.memBad c.src c.sig.len then
      collFail (grpSend (s.noteRead c.src c.sig.len) g (grpOut s g) Uf.abort (s.grpSelf g) 0xFF c.opseq 0 []) g St.mediumError
    else if c.sig.op = 2 then
      let s := s.setUstGroup g { x with cur := some c }
      let s :=
        if c.sig.root = s.grpSelf g then
          ps.foldl
            (fun s p =>
              let l := s.bytes (c.src + 64 * p) 64
              pieceDone (grpSend s g (grpOut s g) Uf.bcast (s.grpSelf g) 0xFF c.opseq p l) g p l) s
        else s
      drainEarly s g c.opseq c.sig
    else
      let parts := ps.foldl (fun t p => Tab.set [] t p (ownWords s c p)) c.parts
      let s := s.setUstGroup g { x with cur := some { c with parts := parts } }
      let s := ps.foldl (fun s p => if termsNeeded s g p = 0 then pieceNext s g p else s) s
      drainEarly s g c.opseq c.sig

/-- Every member has issued the operation: it is released, or its data flows. -/
def collReady (s : State) (g : Nat) : State :=
  match (s.ustGroup g).cur with
  | some c =>
    if c.arrived.length = s.grpN g && !c.flowing then
      if c.sig.op = 1 || c.sig.op = 5 then
        collRelease (grpSend s g (grpOut s g) Uf.release (s.grpSelf g) 0xFF c.opseq 0 []) g
      else collFlow s g
    else s
  | none => s

/-- A member's operations of one OPSEQ differ: the operation ends with UST_MISMATCH and the event is raised (R176). -/
def collMismatch (s : State) (g opseq : Nat) : State :=
  let was := (s.ustGroup g).cur.map fun c => (c.qid, c.entry, opseq)
  let s := collEnd s g 0x80 0
  grpRaise (s.setUstGroup g { s.ustGroup g with mismatch := was }) g 0x0804 (g + 2 ^ 32 * opseq)

/-- A reset in an operation that has ended with UST_MISMATCH wins while the completion entry is still to be written (R181): the
entry takes the reset's status. -/
def resetWins (s : State) (g status : Nat) : State :=
  match (s.ustGroup g).mismatch with
  | some (qid, entry, _) =>
    let q := s.queue qid
    let s := s.setQueue qid
      { q with due := q.due.map fun d => if d.entry == entry && d.status == 0x80 then { d with status := status } else d }
    s.setUstGroup g { s.ustGroup g with mismatch := none }
  | none => s

/-- A member is known to have issued the current operation (R176). -/
def collArrive (s : State) (g member : Nat) (sig : CollSig) : State :=
  let x := s.ustGroup g
  match x.cur with
  | some c =>
    if sig ≠ c.sig then collMismatch s g c.opseq
    else if c.arrived.contains member then s
    else collReady (s.setUstGroup g { x with cur := some { c with arrived := member :: c.arrived } }) g
  | none => s

/-! ### Commands (R173 to R176) -/

/-- Whether a collective command's fields lie in their ranges, with the operands its opcode does not use zero (R173). -/
def ustFieldsOk (s : State) (q : Nat) (l : List Byte) : Bool :=
  let op := leAt l 0 1
  let g := leAt l 2 1
  let common := leAt l 1 1 < 8 && g < 64 && zeroAt l 3 1 && zeroAt l 8 4 && zeroAt l 50 6
    && (bitOf (leAt l 1 1) 1 || (zeroAt l 12 2 && zeroAt l 16 8)) && (bitOf (leAt l 1 1) 2 || zeroAt l 14 2)
    && s.rd UST_GRP_A.QUEUE g == q
  let lenOk := 64 ≤ leAt l 28 4 && leAt l 28 4 ≤ 65536 && leAt l 28 4 % 64 == 0
  let n := s.grpN g
  common &&
    match op with
    | 1 | 5 => zeroAt l 24 26 && zeroAt l 56 8
    | 2 =>
      zeroAt l 24 2 && leAt l 26 1 < n && zeroAt l 27 1 && lenOk && zeroAt l 48 2 && zeroAt l 56 8
        && (leAt l 26 1 == s.grpSelf g || zeroAt l 32 8)
    | 3 =>
      (leAt l 24 1 == 4 || leAt l 24 1 == 5 || leAt l 24 1 == 0xA) && leAt l 25 1 < 2 && zeroAt l 26 2 && lenOk
        && zeroAt l 48 2 && zeroAt l 56 8
    | 4 => zeroAt l 24 3 && leAt l 27 1 < n && zeroAt l 28 20
    | _ => false

/-- The fetched command of a collective queue that is ready to start, if its opcode is `op`. -/
def ustCmd (s : State) (q op : Nat) : Option Cmd :=
  match (s.queue (ustQid q)).first with
  | some c => if leAt c.bytes 0 1 = op && !c.started && !c.waiting then some c else none
  | none => none

/-- The signature of a collective command (R176). -/
def sigOf (l : List Byte) : CollSig :=
  { op := leAt l 0 1, len := leAt l 28 4, dtype := leAt l 24 1, redop := leAt l 25 1, root := leAt l 26 1 }

/-- A range a collective names: 64-byte aligned and within the glade's reach (R173, R130). -/
def ustAddrOk (s : State) (glade a n : Nat) : Bool := a % 64 == 0 && s.gladeReach glade a n

/-- Start a command on its group (R175): a DOWN group ends it at once, a FORMING group makes it wait, and a DISABLED group
ends it with EPOCH_MISMATCH (R181). -/
def onGroup (s : State) (q op : Nat) (body : State → Cmd → Nat → State) : State :=
  match ustCmd s q op with
  | none => s
  | some c =>
    let g := leAt c.bytes 2 1
    match s.grpState g with
    | 0 => ustEnd s (ustQid q) c.entry St.epochMismatch 0
    | 1 => s
    | 3 => ustEnd s (ustQid q) c.entry St.peerUnreachable 0
    | _ => body s c g

/-- The operation a held frame belongs to. -/
def earlyOp : EarlyFrame → Nat
  | .arrive o _ _ => o
  | .reduce o _ _ => o
  | .bcast _ o _ _ => o
  | .abort o => o

/-- Keep a frame of an operation that this member has not issued, or whose data may not flow yet; one of an operation that
has ended is dropped. -/
def holdFrame (s : State) (g : Nat) (f : EarlyFrame) : State :=
  let x := s.ustGroup g
  let current := match x.cur with
    | some c => c.opseq == earlyOp f
    | none => false
  if current || (2 ^ 32 + earlyOp f - x.opseq) % 2 ^ 32 < 2 ^ 31 then s.setUstGroup g { x with early := x.early ++ [f] } else s

/-- Issue a collective: it takes the group's next OPSEQ and its arrival goes to every member (R176). One that another member
has already abandoned ends at once (R181). -/
def collIssue (s : State) (q : Nat) (c : Cmd) (g : Nat) : State :=
  let x := s.ustGroup g
  if x.cur.isSome then s
  else
    let sig := sigOf c.bytes
    let self := s.grpSelf g
    let o := x.opseq
    let coll : Coll :=
      { qid := ustQid q, entry := c.entry, opseq := o, sig := sig, src := leAt c.bytes 32 8, dst := leAt c.bytes 40 8,
        arrived := [self], since := s.now }
    let s := s.setCmd (ustQid q) { c with started := true }
    let known := x.early.filterMap fun f =>
      match f with
      | .arrive o' m sg => if o' = o then some (m, sg) else none
      | _ => none
    let early := x.early.filter fun f =>
      match f with
      | .arrive o' _ _ => o' != o
      | _ => true
    let s := s.setUstGroup g { x with opseq := (o + 1) % 2 ^ 32, cur := some coll, early := early }
    let payload := toLe 1 sig.op ++ toLe 1 sig.dtype ++ toLe 1 sig.redop ++ toLe 1 sig.root ++ toLe 4 sig.len ++ toLe 8 0
    let s := grpSend s g (grpOut s g) (if sig.op = 5 then Uf.mark else Uf.arrive) self 0xFF o 0 payload
    if x.early.contains (.abort o) then
      collEnd (s.setUstGroup g { s.ustGroup g with early := (s.ustGroup g).early.filter (earlyOp · != o) }) g 0x81 0
    else known.foldl (fun s k => collArrive s g k.1 k.2) (collReady s g)

/-- BARRIER completes on each member once every member has issued it. -/
def execBarrier (q : Fin 256) (s : State) : Out := .next (onGroup s q 1 fun s c g => collIssue s q c g)

/-- MARK is a barrier that advances the group's epoch. -/
def execMark (q : Fin 256) (s : State) : Out := .next (onGroup s q 5 fun s c g => collIssue s q c g)

/-- Issue a collective after its addresses have been checked (R173). -/
def collChecked (s : State) (q : Nat) (c : Cmd) (g : Nat) (useSrc : Bool) : State :=
  let glade := s.queueGlade (ustQid q)
  let src := leAt c.bytes 32 8
  let dst := leAt c.bytes 40 8
  let len := leAt c.bytes 28 4
  if (useSrc && !ustAddrOk s glade src len) || !ustAddrOk s glade dst len then
    ustEnd s (ustQid q) c.entry St.protectionFault 0
  else if useSrc && s.memBad src len then ustEnd (s.noteRead src len) (ustQid q) c.entry St.mediumError 0
  else collIssue s q c g

/-- BCAST writes the root's bytes to DST on every member. -/
def execBcast (q : Fin 256) (s : State) : Out :=
  .next (orHold s (onGroup s q 2 fun s c g => collChecked s q c g (leAt c.bytes 26 1 == s.grpSelf g)))

/-- ALLREDUCE writes the element-wise reduction to DST on every member. -/
def execAllreduce (q : Fin 256) (s : State) : Out :=
  .next (orHold s (onGroup s q 3 fun s c g => collChecked s q c g true))

/-- The payload of a POST frame (R166). -/
def postPayload (ctr inc : Nat) : List Byte := toLe 2 ctr ++ toLe 6 0 ++ toLe 8 inc

/-- RPOST adds to a remote member's counter and completes on its acknowledgement. -/
def execRpost (q : Fin 256) (s : State) : Out :=
  .next (onGroup s q 4 fun s c g =>
    let m := leAt c.bytes 27 1
    let ctr := leAt c.bytes 48 2
    let inc := leAt c.bytes 56 8
    if m = s.grpSelf g then
      let ok := s.ctrGranted ctr (s.rd UST_GRP_A.GLADE g)
      ustEnd (s.post (s.rd UST_GRP_A.GLADE g) ctr inc) (ustQid q) c.entry (if ok then St.success else St.protectionFault) 0
    else
      let s := s.setCmd (ustQid q) { c with started := true }
      let x := s.ustGroup g
      let s := s.setUstGroup g { x with posts := x.posts ++ [(ustQid q, c.entry, m)] }
      grpSend s g (grpOut s g) Uf.post (s.grpSelf g) m 0 0 (postPayload ctr inc))

/-! ### Received frames -/

/-- Take a frame of a group: the link takes it only for a group that is UP here (R167), and another GEN sends the group
DOWN and is counted (R169, R184). -/
def onFrame (s : State) (h : UstHeader) (body : State → Nat → State) : State :=
  let g := h.group.toNat
  let k := h.link.val
  if 64 ≤ g || s.grpState g ≠ 2 || !(grpEdges s g).contains k then s
  else
    match linkTake s k h.lseq.toNat with
    | none => s
    | some s =>
      if h.gen.toNat ≠ s.rd UST_GRP_A.GEN g then grpDown (s.bump UST_DROP.COUNT) g 2 k
      else body s g

/-- Show a link's state, and what follows for its groups: a FORMING group may enter UP. -/
def formGroups (s : State) : State := (List.range 64).foldl grpForm s

/-- The lanes of a link that are up. -/
def upLanes (s : State) (k : Nat) : List Nat := below 8 fun l => bitOf (s.rd UST_LINK.LANES k) l && s.rd UST_LANE.STATE l == 2

/-- The lane that carries the frame of an LSEQ: frames go round-robin over the lanes that are up (R165). -/
def frameLane (s : State) (k lseq : Nat) : Nat :=
  let l := upLanes s k
  l[lseq % max l.length 1]?.getD 0

/-- A lane of a link is up. -/
def lanesUp (s : State) (k : Nat) : Bool :=
  (List.range 8).any fun l => bitOf (s.rd UST_LINK.LANES k) l && s.rd UST_LANE.STATE l == 2

/-- Evaluate whether a link is UP (R165): a lane up, and a peer that reported the expected number. -/
def linkEval (s : State) (k : Nat) : State :=
  let x := s.ustLink k
  let match_ := s.flag UST_LINK.ANY k || s.rd UST_LINK.PEER k == s.rd UST_LINK.EXPECT k
  let up := lanesUp s k && x.reported && match_
  let s := s.wrs k [(UST_LINK.UP, b2n up), (UST_LINK.PEER_WRONG, b2n (x.reported && !match_))]
  s.wr UST_STATUS.LINKS_UP 0 ((List.range 8).foldl (fun m j => if s.flag UST_LINK.UP j then m + 2 ^ j else m) 0)

/-- The groups with an edge on a link go DOWN (R169, R180). -/
def linkLost (s : State) (k : Nat) : State :=
  (List.range 64).foldl
    (fun s g => if s.flag UST_GRP_A.VALID g && s.grpState g = 2 && (grpEdges s g).contains k then grpDown s g 0 k else s) s

/-- A link is declared down: its sequence starts again and its groups go DOWN. -/
def linkDown (s : State) (k : Nat) : State :=
  let s := { s with ustLinks := Tab.set {} s.ustLinks k {} }
  linkLost (linkEval s k) k

/-- A LINK frame is received (R167): the peer's number and its groups, the LSEQ it acknowledges, a request for replay, or the
acknowledgement of a remote post. A frame of an unlisted type is dropped and counted (R166). A frame that fails its CRC on lane `bad` is counted,
and its replay is asked for. -/
def execUstLinkFrame (k : Fin 8) (bad : Option (Fin 8)) (type : BitVec 8) (peer : BitVec 16) (groups : List UstPeer)
    (seq : UstLinkSeq) (ack : Option UstPostAck) (s : State) : Out :=
  if bad.isSome then
    .next (match (upLanes s k).find? fun l => some l == bad.map Fin.val with
      | some l => linkSay (s.bump UST_LANE_CRC.COUNT l) k (s.ustLink k).rx (linkNote 1 0 0 0)
      | none => s)
  else if type.toNat = 0 || 10 ≤ type.toNat then .next (s.bump UST_DROP.COUNT)
  else if type.toNat ≠ 1 || !lanesUp s k then .next s
  else
    let view := groups.map fun p : UstPeer =>
      ({ group := p.group, members := p.members.toNat, tree := p.tree, gen := p.gen.toNat, self := p.self.toNat }
        : PeerGroup)
    let x := s.ustLink k
    let s := s.wr UST_LINK.PEER k peer.toNat
    let s := { s with ustLinks := Tab.set {} s.ustLinks k { x with reported := true, groups := view } }
    let s := formGroups (linkEval s k)
    let s :=
      match seq.acked with
      | some n => linkAcked s k n.toNat
      | none => s
    let s :=
      match seq.replay with
      | some from_ =>
        let again := (s.ustLink k).kept.filter fun f => (4096 + leAt f 6 2 - from_.toNat) % 4096 < 64
        again.foldl (fun s f => (s.bump UST_LANE_REPLAY.COUNT (frameLane s k (leAt f 6 2))).emit (.ustFrame k f)) s
      | none => s
    match ack with
    | some a =>
      let x := s.ustGroup a.group
      match x.posts.find? fun p => p.2.2 == a.member.toNat with
      | some p =>
        let s := s.setUstGroup a.group { x with posts := x.posts.filter (· != p) }
        .next (ustEnd s p.1 p.2.1 (if a.landed then St.success else St.protectionFault) 0)
      | none => .next s
    | none => .next s

/-- A remote POST frame is applied to a granted counter of the group's glade and acknowledged, or relayed (R168, R170). -/
def execUstPostFrame (h : UstHeader) (ctr : BitVec 16) (inc : BitVec 64) (s : State) : Out :=
  .next (onFrame s h fun s g =>
    if h.dst.toNat = s.grpSelf g then
      let glade := s.rd UST_GRP_A.GLADE g
      linkSay (s.post glade ctr.toNat inc.toNat) h.link h.lseq.toNat
        (linkNote 2 g (s.grpSelf g) (b2n (s.ctrGranted ctr.toNat glade)))
    else
      grpSend s g (grpOn s g h.link) Uf.post h.src.toNat h.dst.toNat 0 0 (postPayload ctr.toNat inc.toNat))

/-- An arrival is forwarded, and matched with the current operation or kept for one still to come (R168, R176). -/
def arriveFrame (s : State) (h : UstHeader) (type g : Nat) (sig : CollSig) : State :=
  let src := h.src.toNat
  let o := h.opseq.toNat
  let links := grpPass s g h.link src
  let payload := toLe 1 sig.op ++ toLe 1 sig.dtype ++ toLe 1 sig.redop ++ toLe 1 sig.root ++ toLe 4 sig.len ++ toLe 8 0
  let s := grpSend s g links type src 0xFF o 0 payload
  let x := s.ustGroup g
  match x.cur with
  | some c =>
    if c.opseq = o then collArrive s g src sig else holdFrame s g (.arrive o src sig)
  | none => holdFrame s g (.arrive o src sig)

/-- An ARRIVE frame of a collective is received and matched by OPSEQ. -/
def execUstArriveFrame (h : UstHeader) (o : UstOp) (s : State) : Out :=
  .next (onFrame s h fun s g =>
    arriveFrame s h Uf.arrive g
      { op := o.op.toNat, len := o.len.toNat, dtype := o.dtype.toNat, redop := o.redop.toNat, root := o.root.toNat })

/-- A MARK frame of an epoch mark is received: its member has issued the MARK (R178). -/
def execUstMarkFrame (h : UstHeader) (s : State) : Out :=
  .next (onFrame s h fun s g => arriveFrame s h Uf.mark g { op := 5, len := 0, dtype := 0, redop := 0, root := 0 })

/-- A RELEASE frame completes a barrier or mark on this member and is forwarded. -/
def execUstReleaseFrame (h : UstHeader) (s : State) : Out :=
  .next (onFrame s h fun s g =>
    match (s.ustGroup g).cur with
    | some c =>
      if c.opseq = h.opseq.toNat && (c.sig.op = 1 || c.sig.op = 5) then
        collRelease (grpSend s g (grpOn s g h.link) Uf.release h.src.toNat 0xFF c.opseq 0 []) g
      else s
    | none => s)

/-- A REDUCE_DATA frame's pieces, each of 64 bytes of the vector, are reduced into this member's and forwarded, or formed and
written to DST (R168, R177). -/
def reduceFrame (s : State) (g o offset : Nat) (ws : List Nat) : State :=
  match (s.ustGroup g).cur with
  | some c =>
    if c.opseq = o && c.flowing then
      if c.sig.op = 3 then
        (cutWords (pieceElems c.sig.dtype) ws).zipIdx.foldl
          (fun s p => if offset + p.2 < c.pieces then pieceReduce s g (offset + p.2) p.1 else s) s
      else s
    else holdFrame s g (.reduce o offset ws)
  | none => holdFrame s g (.reduce o offset ws)

/-- A REDUCE_DATA frame is received. -/
def execUstReduceData (h : UstHeader) (offset : BitVec 16) (words : List (BitVec 32)) (s : State) : Out :=
  .next (orHold s (onFrame s h fun s g => reduceFrame s g h.opseq.toNat offset.toNat (words.map (·.toNat))))

/-- A BCAST_DATA frame's 64-byte pieces are written to DST and forwarded, each in its turn (R168, R174). -/
def bcastFrame (s : State) (g k o src offset : Nat) (l : List Byte) : State :=
  match (s.ustGroup g).cur with
  | some c =>
    if c.opseq = o && c.flowing then
      (List.range (l.length / 64)).foldl
        (fun s i => if offset + i < c.pieces then pieceBcast s g k o (offset + i) src (bytesAt l (64 * i) 64) else s) s
    else holdFrame s g (.bcast k o offset l)
  | none => holdFrame s g (.bcast k o offset l)

/-- A BCAST_DATA frame is received. -/
def execUstBcastData (h : UstHeader) (offset : BitVec 16) (bytes : List (BitVec 8)) (s : State) : Out :=
  .next (orHold s (onFrame s h fun s g => bcastFrame s g h.link h.opseq.toNat h.src.toNat offset.toNat bytes))

/-- An ABORT frame completes the operation with UST_REMOTE_ABORT and is forwarded (R181); one that this member has still to
issue completes when it is issued. -/
def execUstAbortFrame (h : UstHeader) (s : State) : Out :=
  .next (onFrame s h fun s g =>
    let s := grpSend s g (grpPass s g h.link h.src.toNat) Uf.abort h.src.toNat 0xFF h.opseq.toNat 0 []
    let s := if ((s.ustGroup g).mismatch.map fun m => m.2.2) = some h.opseq.toNat then resetWins s g 0x81 else s
    match (s.ustGroup g).cur with
    | some c => if c.opseq = h.opseq.toNat then collFail s g 0x81 else holdFrame s g (.abort h.opseq.toNat)
    | none => holdFrame s g (.abort h.opseq.toNat))

/-- A DOWN frame sends the group DOWN and is forwarded on its other edges. -/
def execUstDownFrame (h : UstHeader) (s : State) : Out := .next (onFrame s h fun s g => grpDown s g 1 h.link)

/-- A link with nothing to send sends a heartbeat (R167). -/
def execUstHeartbeatTick (k : Fin 8) (s : State) : Out :=
  .next (if lanesUp s k then linkSay s k 0 [] else s)

/-- A link that has received no valid frame for 8 to 10 µs is declared down. -/
def execUstLinkTimeout (k : Fin 8) (s : State) : Out := .next (if s.flag UST_LINK.UP k then linkDown s k else s)

/-- Setting VALID takes the group to FORMING (R169); with no edge left to wait for it is UP. -/
def grpEnable (s : State) (g : Nat) : State :=
  let s := s.setUstGroup g {}
  grpForm (s.wrs g [(UST_GRP_A.VALID, 1), (UST_GRP_A.STATE, 1)]) g

/-- Setting VALID in UST_GRP_A with the other fields of the word written. -/
def execUstGroupValidSet (g : Fin 64) (v : BitVec 64) (s : State) : Out := unlessNoImage s <|
  if s.flag UST_LOCK.LOCKED || s.flag UST_GRP_A.VALID g then .next s
  else
    let w := v.toNat
    let s := s.wrs g [(UST_GRP_A.TOPO, bitsOf w 1 1), (UST_GRP_A.GLADE, bitsOf w 4 8), (UST_GRP_A.MEMBERS, bitsOf w 12 7),
      (UST_GRP_A.SELF, bitsOf w 19 7), (UST_GRP_A.GEN, bitsOf w 26 16), (UST_GRP_A.QUEUE, bitsOf w 42 8)]
    .next (grpEnable s g)

/-- Clearing VALID disables the group; its commands, in flight or queued, complete with EPOCH_MISMATCH (R181). On a queue that
another group is bound to as well, a queued command completes so when it is fetched. -/
def execUstGroupValidClear (g : Fin 64) (s : State) : Out := unlessNoImage s <|
  if s.flag UST_LOCK.LOCKED || !s.flag UST_GRP_A.VALID g then .next s
  else
    let qid := ustQid (s.rd UST_GRP_A.QUEUE g)
    let s := postsFail (collFail s g St.epochMismatch) g St.epochMismatch
    let s := (s.queue qid).cmds.foldl
      (fun s c => if leAt c.bytes 2 1 = g.val then ustEnd s qid c.entry St.epochMismatch 0 else s) s
    let shared := (List.range 64).any fun j =>
      j != g.val && s.flag UST_GRP_A.VALID j && s.rd UST_GRP_A.QUEUE j == s.rd UST_GRP_A.QUEUE g
    let s := if s.queueExists qid && !shared then completeRing s qid St.epochMismatch 0 else s
    .next (countUp ((s.setUstGroup g {}).wrs g [(UST_GRP_A.VALID, 0), (UST_GRP_A.STATE, 0)]))

/-- A group that has stayed FORMING for 2 s goes DOWN. -/
def execUstFormingTimeout (g : Fin 64) (s : State) : Out :=
  .next (if s.grpState g = 1 then grpDown s g 3 8 else s)

/-- Setting UST_LOCK.LOCKED fixes the RWL fields of UST. -/
def execUstLockSet (s : State) : Out := unlessNoImage s <| .next (s.wr UST_LOCK.LOCKED 0 1)

/-- Granting a counter block zeroes its counters; a block already granted is unchanged (R170). -/
def execCtrBlockGrant (b : Fin 256) (glade : BitVec 8) (s : State) : Out := unlessNoImage s <|
  if s.flag UST_CTR_BLK.GRANTED b then .next s
  else
    let s := s.wrs b [(UST_CTR_BLK.GLADE, glade.toNat), (UST_CTR_BLK.GRANTED, 1)]
    .next ((List.range 256).foldl (fun s i => s.wr UST_CTR.VALUE (256 * b + i) 0) s)

/-- A write to UST_CTR sets a counter. -/
def execUstCtrWrite (c : Fin 65536) (v : BitVec 64) (s : State) : Out := unlessNoImage s <| .next (s.wr UST_CTR.VALUE c v.toNat)

/-- A write to UST_CTR_ADD adds atomically to a counter, modulo 2^64. -/
def execUstCtrAdd (c : Fin 65536) (v : BitVec 64) (s : State) : Out := unlessNoImage s <| .next (s.addCtr c v.toNat)

/-! ### Fetch and abort -/

/-- Whether a collective queue's next command may be fetched. -/
def ustMayFetch (s : State) (qid : Nat) : Bool :=
  let q := s.queue qid
  q.valid && q.waiting != 0 && (q.state == .resetting || (q.state == .active && q.cmds.isEmpty))

/-- A command fetched from a collective queue (R173); one outside the agreed features is not supported (R63). -/
def ustFetched (s : State) (qid : Nat) (l : List Byte) (status : Nat) : State :=
  let q := s.queue qid
  let c : Cmd := { bytes := l, entry := q.head, stamp := s.genOf q.inst, started := false, waiting := false }
  let s := s.setQueue qid { q with head := (q.head + 1) % q.size, cmds := q.cmds ++ [c] }
  if q.state ≠ .active then s.complete qid c q.abort 0
  else if status ≠ St.success then s.complete qid c status 0
  else if !ustFieldsOk s (qidx qid) l then s.complete qid c St.badDescriptor 0
  else if !s.feature 2 then s.complete qid c St.notSupported 0
  else if !preGranted s (s.queueGlade qid) l then s.complete qid c.noPost St.protectionFault 0
  else preWait s qid c

/-- End every fetched command of a collective queue with a status: a collective sends ABORT (R181). -/
def ustAbort (s : State) (qid status : Nat) : State :=
  let s := (List.range 64).foldl
    (fun s g =>
      match (s.ustGroup g).cur with
      | some c =>
        if c.qid = qid then
          let s := grpSend s g (grpOut s g) Uf.abort (s.grpSelf g) 0xFF c.opseq 0 []
          collFail s g status
        else s
      | none =>
        match (s.ustGroup g).mismatch with
        | some (q, e, o) =>
          if q = qid && (s.queue qid).due.any (fun d => d.entry == e && d.status == 0x80) then
            resetWins (grpSend s g (grpOut s g) Uf.abort (s.grpSelf g) 0xFF o 0 []) g status
          else s
        | none => s) s
  let s := (List.range 64).foldl
    (fun s g => let x := s.ustGroup g
      s.setUstGroup g { x with posts := x.posts.filter fun p => p.1 != qid }) s
  s.completeAll qid status 0

end Sys2Proof.Machine
end

