-- ==== Sys2Proof/Machine/Optics.lean ====
section
/-! DEFINITION. Data ports and optical lanes (R232 to R235, R240, R241, R28): port states, lane failures and spares. Choices
and readings of the model: log entry 22. -/
namespace Sys2Proof.Machine

open Sys2Proof

/-- The spare lane of a lane's group (R233). -/
def laneSpare (l : Nat) : Nat :=
  if l < 8 then 44
  else if l < 16 then 46
  else if l < 24 then 47
  else if l < 32 then 48
  else if l < 34 then 46
  else if l < 36 then 47
  else if l < 40 then 45
  else 49

/-- The unit a lane serves (R373): a data port, a twin port or an Understory lane. -/
def laneUnit (l : Nat) : Nat :=
  if l < 32 then unitId 0x6 (l / 2) else if l < 36 then unitId 0x7 ((l - 32) / 2) else unitId 0x8 (l - 35)

/-- A lane's state: 0 down, 1 training, 2 up, 3 failed (R241). -/
def State.lane (s : State) (l : Nat) : Nat := s.rd OPT_LANE.STATE l

/-- A data port's state (R234, R240). -/
def State.fabPort (s : State) (p : Nat) : Nat := s.rd FAB_PORT.STATE p

/-- Port states. -/
def Po.disabled : Nat := 0
def Po.waitLight : Nat := 1
def Po.training : Nat := 2
def Po.up : Nat := 3
def Po.failed : Nat := 4

/-- Light on either input of an optical tile (R28). -/
def tileLit (s : State) (t : Nat) : Bool := s.flag OPT_TILE.LIGHT0 t || s.flag OPT_TILE.LIGHT1 t

/-- The device runs, whether or not it is held in warm device reset: supplies are good and nothing keeps it in reset until
PWRGD next rises (R33, R35, R37, R39). -/
def powered (s : State) : Bool := s.pins.pwr && s.pins.aux && s.boot.dead == 0

/-- REPAIR has ended and no reset is in progress, so that ports, lanes and links may train (R47, R234). -/
def repaired (s : State) : Bool :=
  powered s && s.boot.warm == 0 && 4 ≤ s.rd BOOT_STATE.STATE && s.rd BOOT_STATE.STATE ≤ 8

/-- Show a lane's state, and with it that of the spare that carries it (R241). -/
def putLane (s : State) (l v : Nat) : State :=
  let s := s.wr OPT_LANE.STATE l v
  if l < 44 && s.flag OPT_LANE.SPARED l then s.wr OPT_LANE.STATE (s.rd OPT_LANE.PARTNER l) v else s

/-- A data port changes state: the event, and the paths that leave it or return to it (R219, R239, R254). -/
def setFabPort (s : State) (p new : Nat) : State :=
  let old := s.fabPort p
  if old = new then s
  else
    let s := (s.wr FAB_PORT.STATE p new).raiseUnit 0x0A03 (unitId 0x6 p) new
    if old = Po.up then leavePort (endShortfalls s p) p
    else if new = Po.up then joinPort s
    else s

/-- The link that an Understory lane belongs to. -/
def linkOfLane (s : State) (u : Nat) : Option Nat := leastBelow 8 fun k => bitOf (s.rd UST_LINK.LANES k) u

/-- A link replays the frames that are not yet acknowledged on the lanes it has left (R180). -/
def linkReplay (s : State) (k : Nat) : State :=
  let x := s.ustLink k
  (x.kept.drop (x.kept.length - x.unacked)).foldl
    (fun s f => (s.bump UST_LANE_REPLAY.COUNT (frameLane s k (leAt f 6 2))).emit (.ustFrame k f)) s

/-- An Understory lane changes state: its event, and its link with it (R165, R180, R183). -/
def setUstLane (s : State) (u new : Nat) : State :=
  let old := s.rd UST_LANE.STATE u
  if old = new then s
  else
    let s := s.wr UST_LANE.STATE u new
    let s := s.wr UST_STATUS.LANES_UP 0 ((below 8 fun j => s.rd UST_LANE.STATE j == 2).foldl (fun m j => m + 2 ^ j) 0)
    let k := (linkOfLane s u).getD 0
    let s := if old = 2 then s.raiseUnit 0x0801 (unitId 0x8 (u + 1)) (u + k * 8)
      else if new = 2 then s.raiseUnit 0x0802 (unitId 0x8 (u + 1)) (u + k * 8)
      else s
    match linkOfLane s u with
    | some k =>
      let s := if old = 2 && s.flag UST_LINK.UP k && lanesUp s k then linkReplay s k else s
      if s.flag UST_LINK.UP k && !lanesUp s k then linkDown s k
      else if lanesUp s k then formGroups (linkEval s k)
      else linkEval s k
    | none => s

/-- What a data port's lanes make of its state (R234). -/
def portEval (s : State) (p : Nat) : State :=
  let a := s.lane (2 * p)
  let b := s.lane (2 * p + 1)
  let st := s.fabPort p
  if st = Po.training || st = Po.up then
    if a = 3 || b = 3 then setFabPort s p Po.failed
    else if a = 2 && b = 2 then setFabPort s p Po.up
    else setFabPort s p Po.training
  else s

/-- A lane changes state, and what it serves follows. -/
def setLane (s : State) (l new : Nat) : State :=
  let s := putLane s l new
  if l < 32 then portEval s (l / 2)
  else if 36 ≤ l && l < 44 then setUstLane s (l - 36) new
  else s

/-- A lane leaves the lists of lanes being retrained or spared. -/
def laneSettled (s : State) (l : Nat) : State :=
  { s with fab := { s.fab with retrain := s.fab.retrain.filter (· != l), sparing := s.fab.sparing.filter (· != l) } }

/-- The transport engine or the miss buffer of a quadrant is out of service (R375, R448). -/
def transportOut (s : State) (q : Nat) : Bool :=
  s.boot.outUnits.contains (unitId 0xB (4 + q)) || s.boot.outUnits.contains (unitId 0xB (8 + q))

/-- A data port leaves DISABLED for WAIT_LIGHT, and trains at once where there is light (R234); with its quadrant's transport
out of service it is FAILED. -/
def portStart (s : State) (p : Nat) : State :=
  if !repaired s then s
  else if transportOut s (p / 4) || s.rd CLK_GROVE.STATE (61 + p) = 2 then setFabPort s p Po.failed
  else
    let s := setFabPort s p Po.waitLight
    if tileLit s (p / 4) then
      let l := if s.flag OPT_TILE.REFCLK_OK (p / 4) then 1 else 0
      let s := ([2 * p, 2 * p + 1].filter fun i => s.lane i != 3).foldl (fun s i => putLane s i l) s
      portEval (setFabPort s p Po.training) p
    else s

/-- A data port is disabled: its lanes go down. -/
def portStop (s : State) (p : Nat) : State :=
  let s := laneSettled (laneSettled s (2 * p)) (2 * p + 1)
  setFabPort (putLane (putLane s (2 * p) 0) (2 * p + 1) 0) p Po.disabled

/-- A write to FAB_PORT (R234, R240): an MTU outside its values keeps the port DISABLED. -/
def portWrite (s : State) (p v : Nat) : State :=
  if s.flag FAB_LOCK.LOCKED then s
  else
    let s := s.wrs p [(FAB_PORT.ENABLE, bitsOf v 0 1), (FAB_PORT.MTU, bitsOf v 4 14)]
    let on := bitOf v 0 && 1280 ≤ bitsOf v 4 14 && bitsOf v 4 14 ≤ 9216
    if !on then if s.fabPort p = Po.disabled then s else portStop s p
    else if s.fabPort p = Po.disabled then portStart s p
    else s

/-- A write of FAB_PORT.ENABLE enables or disables a data port. -/
def execFabPortEnable (p : Fin 16) (v : BitVec 64) (s : State) : Out := unlessNoImage s <| .next (portWrite s p v.toNat)

/-- Setting FAB_LOCK.LOCKED. -/
def execFabLockSet (s : State) : Out := unlessNoImage s <| .next (s.wr FAB_LOCK.LOCKED 0 1)

/-- Whether a lane should train when its tile is lit: an Understory lane, a twin port's with pairing enabled, or a lane of
a port that trains. -/
def laneWanted (s : State) (l : Nat) : Bool :=
  if l < 32 then s.fabPort (l / 2) == Po.training
  else if l < 36 then s.flag TWN_CFG.ENABLE
  else true

/-- The active lanes that an optical tile carries. -/
def tileLanes (t : Nat) : List Nat := below 44 fun l => laneTile l == t

/-- A tile is lit again, or bring-up reaches it: ports that wait go to TRAINING, and lanes that are down train if the tile
has its reference clock (R35). -/
def tileTrain (s : State) (t : Nat) : State :=
  if repaired s && tileLit s t then
    let s := (below 16 fun p => p / 4 == t && s.fabPort p == Po.waitLight).foldl
      (fun s p => portEval (setFabPort s p Po.training) p) s
    if s.flag OPT_TILE.REFCLK_OK t then
      ((tileLanes t).filter fun l => s.lane l == 0 && laneWanted s l).foldl (fun s l => setLane s l 1) s
    else s
  else s

/-- The lanes of the twin ports train, once TWN_CFG.ENABLE has enabled the ports (R234, R376). -/
def twinLanesOn (s : State) : State := [32, 33, 34, 35].foldl (fun s l => tileTrain s (laneTile l)) s

/-- The twin ports are DISABLED (R234, R376): their lanes go down. -/
def twinLanesOff (s : State) : State :=
  [32, 33, 34, 35].foldl (fun s l => if s.lane l = 3 then s else setLane (laneSettled s l) l 0) s

/-- Both inputs of a tile are dark: its lanes go down, and its ports wait for light (R28, R234). -/
def tileDark (s : State) (t : Nat) : State :=
  let s := (tileLanes t).foldl laneSettled s
  let s := (below 16 fun p => p / 4 == t && (s.fabPort p == Po.training || s.fabPort p == Po.up)).foldl
    (fun s p => setFabPort s p Po.waitLight) s
  ((tileLanes t).filter fun l => s.lane l != 3 && s.lane l != 0).foldl (fun s l => setLane s l 0) s

/-- Report a laser input as lost, or as lit again (R239). -/
def lightEvent (s : State) (i : Nat) (back : Bool) : State :=
  s.raiseUnit 0x0A06 (unitId 0xA (i / 2)) (i + 8 * b2n back)

/-- The field that shows light on a laser input. -/
def lightField (i : Nat) : Fld := if i % 2 = 0 then OPT_TILE.LIGHT0 else OPT_TILE.LIGHT1

/-- An optical tile is up: none of its lanes trains (R41). -/
def tileUp (s : State) (t : Nat) : Bool := (tileLanes t).all fun l => s.lane l != 1

/-- Report the losses that a tile owes, once it is up (R41). -/
def reportLight (s : State) (t : Nat) : State :=
  if tileUp s t then
    let l := s.fab.lightOwed.filter fun i => i / 2 == t
    l.foldl (fun s i => lightEvent s i false)
      { s with fab := { s.fab with lightOwed := s.fab.lightOwed.filter fun i => i / 2 != t } }
  else s

/-- Light is lost on a laser input (R28). Before lanes may train only the level changes; during optical bring-up with the other
input lit the loss is reported once the tile is up (R41). -/
def execLaserLightLoss (i : Fin 8) (s : State) : Out :=
  let t := i.val / 2
  if s.pins.dark.contains i.val then .next s
  else
    let s := { s with pins := { s.pins with dark := i.val :: s.pins.dark } }
    if !repaired s then .next s
    else
      let s := s.wr (lightField i) t 0
      if !tileLit s t then .next (tileDark (reportLight (lightEvent s i false) t) t)
      else if s.flag BOOT_STATE.OPTICAL_DONE || tileUp s t then .next (lightEvent s i false)
      else .next { s with fab := { s.fab with lightOwed := s.fab.lightOwed ++ [i.val] } }

/-- Light returns on a laser input. Before lanes may train only the level changes. -/
def execLaserLightRestore (i : Fin 8) (s : State) : Out :=
  let t := i.val / 2
  if !s.pins.dark.contains i.val then .next s
  else
    let s := { s with pins := { s.pins with dark := s.pins.dark.filter (· != i.val) } }
    if !repaired s then .next s
    else
      let s := if s.fab.lightOwed.contains i.val then
          lightEvent { s with fab := { s.fab with lightOwed := s.fab.lightOwed.filter (· != i.val) } } i false
        else s
      .next (tileTrain (lightEvent (s.wr (lightField i) t 1) i true) t)

/-- What a lane's FEC has counted when the lane fails: free numbers of codewords (log entry 22, safe). -/
def fecCounts (s : State) (l : Nat) : State :=
  let a := s.freeWord
  let b := a.2.freeWord
  (b.2.bump OPT_FEC_CORR.COUNT l a.1.toNat).bump OPT_FEC_UNCORR.COUNT l b.1.toNat

/-- A lane fails (R235): it is retrained once. -/
def execLaneFault (l : Fin 44) (s : State) : Out :=
  if (s.lane l = 1 || s.lane l = 2) && s.flag OPT_TILE.REFCLK_OK (laneTile l) && !s.fab.retrain.contains l.val
      && !s.fab.sparing.contains l.val then
    let s := setLane (fecCounts s l) l 1
    .next { s with fab := { s.fab with retrain := s.fab.retrain ++ [l.val] } }
  else .next s

/-- A lane is reported failed and not spared (R235, R239, R373). -/
def laneFailed (s : State) (l cause : Nat) : State :=
  let s := (setLane s l 3).raiseUnit 0x0A05 (unitId 0xA (laneTile l)) (l + cause * 2 ^ 6)
  if cause = 0 then serviceDue s 4 (laneUnit l) else s

/-- The spare of a lane's group is healthy and free: it carries no lane and is not being switched onto one (R235). -/
def laneSpareFree (s : State) (l : Nat) : Bool :=
  !s.flag OPT_LANE.IN_USE (laneSpare l) && s.lane (laneSpare l) != 3
    && !(s.fab.sparing.any fun x => laneSpare x == laneSpare l)

/-- The retrain of a failed lane ends (R235): the lane locks, or it passes the tile's loopback and the fault is in the fibre
or at the far end, or its group's spare is switched in if one may be. -/
def execLaneRetrainDone (l : Fin 44) (locked loopback : Bool) (s : State) : Out :=
  if s.fab.retrain.contains l.val then
    let s := laneSettled s l
    if locked then .next (reportLight (setLane s l 2) (laneTile l))
    else if loopback then .next (reportLight (laneFailed s l 1) (laneTile l))
    else if s.boot.lanePolicy = 2 then .next (reportLight (laneFailed s l 2) (laneTile l))
    else if !laneSpareFree s l then .next (reportLight (laneFailed s l 0) (laneTile l))
    else .next { s with fab := { s.fab with sparing := s.fab.sparing ++ [l.val] } }
  else .next s

/-- Show a spare carrying a lane (R241). -/
def carryLane (s : State) (l : Nat) : State :=
  let k := laneSpare l
  let s := s.wrs l [(OPT_LANE.SPARED, 1), (OPT_LANE.PARTNER, k)]
  let s := s.wrs k [(OPT_LANE.IN_USE, 1), (OPT_LANE.PARTNER, l)]
  let s := s.wr GLB_UNITS.LANE_SPARES_FREE 0 (s.rd GLB_UNITS.LANE_SPARES_FREE - 1)
  if 36 ≤ l then s.wr UST_LANE.SPARED (l - 36) 1 else s

/-- A spare has been switched onto a failed lane's fibres: the event, the record, and the lane trains (R235). -/
def execLaneSpareDone (l : Fin 44) (s : State) : Out :=
  if s.fab.sparing.contains l.val then
    let s := carryLane (laneSettled s l) l
    let s := s.raiseUnit 0x0A04 (unitId 0xA (laneTile l)) (l + laneSpare l * 2 ^ 6)
    let s := recordFault s (unitId 0xA (laneTile l)) 5 l 0 2
    .next (setLane s l 1)
  else .next s

/-- A lane locks and its FEC aligns (R234). -/
def execLaneUp (l : Fin 44) (s : State) : Out :=
  if s.lane l = 1 && !s.fab.retrain.contains l.val && !s.fab.sparing.contains l.val
      && s.flag OPT_TILE.REFCLK_OK (laneTile l) then .next (reportLight (setLane s l 2) (laneTile l))
  else .next s

/-- A lane that bring-up has not settled: it trains, or it could train and is down (R47). A lane without light or without its
reference clock is reported down. -/
def laneOpen (s : State) (l : Nat) : Bool := s.lane l == 1

/-- Optical bring-up ends for the data and twin lanes, and for the Understory lanes, when every one is up or reported down
(R47, R68). -/
def execOpticalBringupDone (s : State) : Out :=
  if repaired s then
    let data := !(List.range 36).any (laneOpen s)
    let ust := !(List.range 8).any fun u => laneOpen s (36 + u)
    let s := if data then s.wr BOOT_STATE.OPTICAL_DONE 0 1 else s
    let s := if ust then s.wr BOOT_STATE.UNDERSTORY_DONE 0 1 else s
    .next ((List.range 4).foldl reportLight s)
  else .next s

end Sys2Proof.Machine
end

