-- ==== Sys2Proof/Machine/Windows.lean ====
section
/-! DEFINITION. BAR4 windows (R204 to R208, R468). Choices and readings of the model: log entry 18. -/
namespace Sys2Proof.Machine

open Sys2Proof

/-- The size of a window of a port's BAR4 (R204). -/
def winSize (s : State) (p : Nat) : Nat := 2 ^ (22 + (s.port p).bar4Log2)

/-- A port's BAR4 serves windows (R258): not a peer root without feature 13. -/
def bar4Serves (s : State) (p : Nat) : Bool := !s.flag HEP_PORT_STAT.ROLE p || s.feature 13

/-- Whether a port takes memory requests to its BAR4. -/
def bar4Open (s : State) (p off : Nat) : Bool :=
  let h := s.port p
  h.bar4On && !h.d3hot && !h.inReset && off < 256 * winSize s p

/-- Whether a window lets an access through (R205, R468): every byte of it lies inside the limit, and its global address
has bits [63:56] zero (log entry 18). -/
def winPass (s : State) (p win off len : Nat) (write : Bool) : Bool :=
  let a := 2 ^ 56 * s.rd HEP_WIN_B.TARGET_HI win + 4096 * s.rd HEP_WIN_B.TARGET win + off
  s.flag HEP_WIN_A.VALID win && off < 0x10000 * s.rd HEP_WIN_A.LIMIT win && off + len ≤ 0x10000 * s.rd HEP_WIN_A.LIMIT win
    && (if write then s.flag HEP_WIN_A.WR win else s.flag HEP_WIN_A.RD win)
    && (if p = 0 then s.flag HEP_WIN_A.PORT_A win else s.flag HEP_WIN_A.PORT_B win) && bar4Serves s p
    && globalOk a && offsetDecoded (globalOff a) len

/-- What a read of memory that holds uncorrectable codewords gives (R270): the good codewords' bytes, free bytes for the bad
ones, and where these lie. -/
def partlyBad (s : State) (a len : Nat) : State × List Byte × List (Nat × Nat) :=
  (cwsOf a len).foldl
    (fun (x : State × List Byte × List (Nat × Nat)) cw =>
      let lo := max cw a
      let n := min (cw + 64) (a + len) - lo
      if cwBad x.1 cw then
        let r := x.1.freeBytes n
        (r.2, x.2.1 ++ r.1, x.2.2 ++ [(lo - a, n)])
      else (x.1, x.2.1 ++ x.1.bytes lo n, x.2.2)) (s, [], [])

/-- An access through a window (R205): refused at the window, served on this device, or carried by the transport. -/
def winAccess (s : State) (p x len tag : Nat) (write : Option (List Byte)) : State :=
  let win := x / winSize s p
  let off := x % winSize s p
  if !winPass s p win off len write.isSome then endWindow s p win off tag write.isSome St.protectionFault [] []
  else
    let a := 4096 * s.rd HEP_WIN_B.TARGET win + off
    let g := s.rd HEP_WIN_A.GLADE win
    let key := s.rd HEP_WIN_A.RKEY win
    let ftn := s.ftn g
    if globalDev a = s.devNum then
      match write with
      | some l =>
        let r := targetWrite s s.devNum ftn key (globalOff a) l
        endWindow r.1 p win off tag true r.2 [] []
      | none =>
        let r := targetReadable s s.devNum ftn key (globalOff a) len
        let x := partlyBad r.1 (globalOff a) len
        if r.2 = St.mediumError then endWindow x.1 p win off tag false r.2 x.2.1 x.2.2
        else endWindow r.1 p win off tag false r.2 (r.1.bytes (globalOff a) len) []
    else
      let id := s.fab.nextAccess
      let s := { s with fab := { s.fab with nextAccess := id + 1 } }
      startOp s
        { dev := globalDev a, owner := .window p win id off tag write.isSome,
          kind := if write.isSome then Pt.write else Pt.readReq, flow := .window g p, glade := g, inst := 0, ftn := ftn,
          laddr := 0, len := len, data := write.getD [], off := globalOff a, rkey := key, aux := 0, opv := 0 }

/-- A memory read arrives on a port's BAR4. -/
def execBar4Read (p : Fin 2) (off : BitVec 38) (len : BitVec 13) (tag : BitVec 14) (s : State) : Out :=
  if bar4Open s p off.toNat then .next (winAccess s p off.toNat len.toNat tag.toNat none)
  else .next (unsupported s p tag.toNat false)

/-- A memory write arrives on a port's BAR4; it is posted, and nothing returns. -/
def execBar4Write (p : Fin 2) (off : BitVec 38) (data : List Byte) (s : State) : Out :=
  if bar4Open s p off.toNat then .next (orHold s (winAccess s p off.toNat data.length 0 (some data)))
  else .next (unsupported s p 0 true)

/-- Whether an operation is a window read of a port with a tag. -/
def isWinRead (p tag : Nat) (o : SalOp) : Bool :=
  match o.owner with
  | .window q _ _ _ t w => q == p && t == tag && !w
  | _ => false

/-- A window read with no answer within 10 ms is stopped with PEER_UNREACHABLE (R205, R468). -/
def execBar4ReadTimeout (p : Fin 2) (tag : BitVec 14) (s : State) : Out :=
  .next (s.peers.foldl (fun s d => endOps s d.1 (isWinRead p tag.toNat) St.peerUnreachable) s)

/-- Whether a window's fields let VALID be set (R207); LIMIT must fit the BAR4 of every port that the entry serves. -/
def winValidOk (s : State) (i : Nat) : Bool :=
  let lim := s.rd HEP_WIN_A.LIMIT i
  let fits := fun (f : Fld) p => !s.flag f i || 0x10000 * lim ≤ winSize s p
  s.rd HEP_WIN_B.TARGET_HI i == 0 && lim != 0 && fits HEP_WIN_A.PORT_A 0 && fits HEP_WIN_A.PORT_B 1
    && s.ftn (s.rd HEP_WIN_A.GLADE i) != 0 && (s.flag HEP_WIN_A.PORT_A i || s.flag HEP_WIN_A.PORT_B i)

/-- A write to HEP_WIN_A (R207): VALID is put in force, cleared or refused. -/
def winWrite (s : State) (i v : Nat) : State :=
  let s := s.wrs i [(HEP_WIN_A.RD, bitsOf v 1 1), (HEP_WIN_A.WR, bitsOf v 2 1), (HEP_WIN_A.PORT_A, bitsOf v 3 1),
    (HEP_WIN_A.PORT_B, bitsOf v 4 1), (HEP_WIN_A.GLADE, bitsOf v 8 8), (HEP_WIN_A.RKEY, bitsOf v 16 32),
    (HEP_WIN_A.LIMIT, bitsOf v 48 16)]
  if bitOf v 0 then
    if winValidOk s i then s.wr HEP_WIN_A.VALID i 1
    else (s.wr HEP_WIN_A.VALID i 0).wrs 0 [(HEP_WIN_STATUS.REFUSED, 1), (HEP_WIN_STATUS.LAST_REFUSED, i)]
  else s.wr HEP_WIN_A.VALID i 0

/-- A write of HEP_WIN_A with VALID set. -/
def execWindowValidSet (i : Fin 256) (v : BitVec 64) (s : State) : Out := unlessNoImage s <| .next (winWrite s i v.toNat)

/-- A write to HEP_WIN_FENCE (R208): START begins waiting for the accesses translated before it. -/
def fenceWrite (s : State) (v : Nat) : State :=
  let s := s.wr HEP_WIN_FENCE.WINDOW 0 (bitsOf v 0 8)
  if bitOf v 8 && !s.flag HEP_WIN_FENCE.BUSY then
    let s := { s with fab := { s.fab with fenceAt := s.fab.nextAccess, fenceWin := bitsOf v 0 8 } }
    s.wr HEP_WIN_FENCE.BUSY 0 1
  else s

/-- HEP_WIN_FENCE.START. -/
def execWindowFenceStart (v : BitVec 64) (s : State) : Out := unlessNoImage s <| .next (fenceWrite s v.toNat)

/-- Whether an operation is an access that the fence waits for. -/
def fenced (s : State) (o : SalOp) : Bool :=
  match o.owner with
  | .window _ w id _ _ _ => w == s.fab.fenceWin && decide (id < s.fab.fenceAt)
  | _ => false

/-- No access translated by the window's previous entry remains: BUSY clears. -/
def execWindowFenceDone (s : State) : Out :=
  if s.peers.any fun d => d.2.ops.any (fenced s) then .next s else .next (s.wr HEP_WIN_FENCE.BUSY 0 0)

end Sys2Proof.Machine
end

