-- ==== Sys2Proof/Machine/Resilience.lean ====
section
/-! DEFINITION. Failing units and their spares: tiles, worker cores, clusters, quadrant units, region controllers and
management pairs (R13 to R16, R135, R370 to R375, R391, R410 to R412, R448). Choices and readings of the model: log entries 16
and 23. -/
namespace Sys2Proof.Machine

open Sys2Proof

/-! ### Physical units (R14, R17, R57) -/

/-- The physical core of its cluster that serves a logical worker core. -/
def corePhys (s : State) (k : Nat) : Nat :=
  if s.flag GLB_CORE_MAP.IN_USE (k / 16) && s.rd GLB_CORE_MAP.REPLACES (k / 16) == k % 16 then 16 else k % 16

/-- The unit identifier of a physical core of a cluster. -/
def coreUnitOf (c j : Nat) : Nat := unitId 0x4 (32 * c + j)

/-- A quadrant's spare tile may be brought in (R374). -/
def tileSpareFree (s : State) (q : Nat) : Bool :=
  !s.flag GLB_TILE_MAP.IN_USE q && !s.flag GLB_TILE_MAP.SPARE_FAULTY q && s.boot.tilePolicy != 2
    && !(s.boot.bringing.any fun b => b.2.isNone && b.1 / 0x1000 == 3 && b.1 % 0x1000 / 16 == q)

/-- A cluster's spare core may be brought in. -/
def coreSpareFree (s : State) (c : Nat) : Bool :=
  !s.flag GLB_CORE_MAP.IN_USE c && !s.flag GLB_CORE_MAP.SPARE_FAULTY c && s.boot.corePolicy != 2
    && !(s.boot.bringing.any fun b => b.2.isNone && b.1 / 0x1000 == 4 && b.1 % 0x1000 / 32 == c)

/-- The spares that are healthy, not in use and not disabled, as GLB_UNITS counts them (R23). -/
def showSpares (s : State) : State :=
  let tiles := if s.boot.tilePolicy = 2 then 0
    else (below 4 fun q => !s.flag GLB_TILE_MAP.IN_USE q && !s.flag GLB_TILE_MAP.SPARE_FAULTY q).length
  let cores := if s.boot.corePolicy = 2 then 0
    else (below 16 fun c => !s.flag GLB_CORE_MAP.IN_USE c && !s.flag GLB_CORE_MAP.SPARE_FAULTY c).length
  s.wrs 0 [(GLB_UNITS.TILE_SPARES_FREE, tiles), (GLB_UNITS.CORE_SPARES_FREE, cores)]

/-- The number of units in service, as GLB_UNITS counts them. -/
def showUnits (s : State) : State :=
  let tiles := (below 64 fun n => !s.tileOut n).length
  let cores := (below 256 fun k => !bitOf (s.rd GLB_CORE_MAP.OUT_OF_SERVICE (k / 16)) (k % 16)).length
  let chans := (below 64 fun ch => !s.dram.lostQuads.contains (ch / 16) && !s.dram.lostChans.contains ch).length
  showSpares (s.wrs 0 [(GLB_UNITS.TILES_IN_SERVICE, tiles), (GLB_UNITS.CORES_IN_SERVICE, cores),
    (GLB_UNITS.CHANNELS_IN_SERVICE, chans)])

/-- CPU_CORE's entry of a cluster's spare (R416). -/
def showSpareCore (s : State) (c : Nat) : State :=
  let e := 17 * c + 16
  let s := s.setReg (CPU_CORE.ROLE.addr e) 0
  if s.flag GLB_CORE_MAP.IN_USE c then s
  else if s.flag GLB_CORE_MAP.SPARE_FAULTY c || s.boot.corePolicy = 2 then s.wr CPU_CORE.ROLE e 3
  else s.wr CPU_CORE.SPARE e (b2n (coreSpareFree s c))

/-- RES_UNIT_FAULT (R388): the unit as it was in service, its physical identifier, whether a spare comes in, the cause. -/
def unitFault (s : State) (source phys : Nat) (spare : Bool) (cause : Nat) : State :=
  s.raiseUnit 0x1101 source (phys + 2 ^ 16 * b2n spare + 2 ^ 24 * cause)

/-- A physical unit is no longer usable; a failure at runtime is recorded, and taking a unit out is not (R371, R375). -/
def markFailed (s : State) (phys cause : Nat) : State :=
  let s := if cause = 4 then s else recordFault s phys 4 0 0 2
  { s with boot := { s.boot with
      failed := if s.boot.failed.contains phys then s.boot.failed else phys :: s.boot.failed,
      marchPassed := s.boot.marchPassed.filter (· != phys) } }

/-! ### Tiles (R15, R16, R135, R374) -/

/-- A tile's memories read as zero. -/
def zeroTile (s : State) (n : Nat) : State :=
  let s := { s with mem := Mem.lower s.mem (padAddr n 0) ++ Mem.upper s.mem (padAddr n scratchLen) }
  s.setTile n { lastQueue := (s.tile n).lastQueue, lostRaised := (s.tile n).lostRaised }

/-- The LOADs of a tile that are decoded and not finished end with TILE_LOST (R135). -/
def loadsLost (s : State) (n : Nat) : State :=
  (List.range 8).foldl
    (fun s q =>
      match tileCmd s (8 * n + q) 2 with
      | some c => failCommand s (8 * n + q) c Tf.lost 0
      | none => s) s

/-- A tile loses its work: the running command, a LOAD in progress, decode items, registrations and memories; TILE_LOST once per
tile. TILE_SR_SEQ and the flags start at zero on a spare (R115). -/
def tileWorkLost (s : State) (n : Nat) (spare : Bool) : State :=
  let s := loadsLost (tileFault s n Tf.lost) n
  let s := attendTileLost s n
  let s := removeRegsIn (zeroTile s n) (padAddr n 0) scratchLen
  let s := if spare then (s.wr TILE_SR_SEQ.SEQ n 0).resetReg TILE_ARITH_FLAGS.INVALID n else s
  if (s.tile n).lostRaised then s
  else
    let s := s.setTile n { s.tile n with lostRaised := true }
    s.raise 0x0603 (unitId 0x3 n) (s.tileGlade n) 0 0 (b2n spare)

/-- Every command of a lost tile's queue completes with TILE_LOST, and the queue is HALTED (R135). -/
def tileQueueLost (s : State) (i : Nat) : State :=
  let s := s.completeAll (tileQid i) 0x83 Tf.lost
  let s := completeRing s (tileQid i) 0x83 Tf.lost
  let q := s.queue (tileQid i)
  if q.state = .active then s.setQueue (tileQid i) { q with state := .halted } else s

/-- The writes held for the scratchpad of a tile that goes out of service after all never reach it (R16). -/
def dropHeldPad (s : State) (n : Nat) : State :=
  { s with boot := { s.boot with heldPad := s.boot.heldPad.filter fun w => tileAt w.1 != some n } }

/-- The BAR0 writes held for a unit that goes out of service after all are dropped, as writes to it are (R16). -/
def dropHeldRegs (s : State) (unit : Nat) : State :=
  let l := s.boot.heldRegs.filter fun h => h.unit == unit
  let s := { s with boot := { s.boot with heldRegs := s.boot.heldRegs.filter fun h => h.unit != unit } }
  l.foldl (fun s h => flagAccess s h.off [GLB_REG_ERR.OUT_OF_SVC]) s

/-- A logical tile goes out of service (R16). -/
def tileOutOfService (s : State) (n : Nat) : State :=
  let s := dropHeldPad (dropHeldRegs s (unitId 0x3 n)) n
  let m := s.rd GLB_TILE_MAP.OUT_OF_SERVICE (n / 16)
  let s := s.wr GLB_TILE_MAP.OUT_OF_SERVICE (n / 16) (Nat.lor m (2 ^ (n % 16)))
  let s := (List.range 8).foldl (fun s q => tileQueueLost s (8 * n + q)) s
  let s := (s.resetReg TILE_STATE.SEQ n).wr TILE_STATE.SEQ n 3
  serviceDue (refreshPools (showUnits s)) 2 (unitId 0x3 n)

/-- A logical tile fails, or is taken out (R374): the spare of its quadrant is brought in, or it goes out of service. -/
def tileFail (s : State) (n cause : Nat) : State :=
  if s.tileOut n then s
  else
    let q := n / 16
    let phys := tilePhys s n
    let second := bringing s (unitId 0x3 n)
    let spare := phys < 64 && !second && tileSpareFree s q
    let s := markFailed s (unitId 0x3 (if second then 64 + q else phys)) cause
    let s := if 64 ≤ phys || second then s.wrs q [(GLB_TILE_MAP.IN_USE, 0), (GLB_TILE_MAP.SPARE_FAULTY, 1)] else s
    let s := tileWorkLost s n spare
    let s := unitFault s (unitId 0x3 n) (unitId 0x3 (if second then 64 + q else phys)) spare cause
    let b := s.boot.bringing.filter fun b => b.1 != unitId 0x3 n
    if spare then { s with boot := { s.boot with bringing := b ++ [(unitId 0x3 n, none)] } }
    else tileOutOfService { s with boot := { s.boot with bringing := b } } n

/-- A spare tile that stands in for nothing fails. -/
def spareTileFail (s : State) (q cause : Nat) : State :=
  if s.flag GLB_TILE_MAP.SPARE_FAULTY q then s
  else
    let s := (markFailed s (unitId 0x3 (64 + q)) cause).wr GLB_TILE_MAP.SPARE_FAULTY q 1
    showSpares (unitFault s (unitId 0x3 (64 + q)) (unitId 0x3 (64 + q)) false cause)

/-! ### Worker cores (R374, R391, R410, R411) -/

/-- Storage commands of the crashed core's queues that it ran complete with CORE_FAULT_RETRYABLE; the spec does not say which
of a cluster's firmware cores runs a command, so a free bit does (log entry 16, safe). Recorded outcomes are completed by the
recovery agent and counted. -/
def coreStorageLost (s : State) (qid : Nat) : State :=
  let s := (s.queue qid).cmds.foldl
    (fun s c =>
      let r := s.freeBit
      if r.1 then stqFinish r.2 (qidx qid) c.entry St.coreFaultRetryable 0 else r.2) s
  (s.queue qid).due.foldl
    (fun s _ =>
      let r := s.freeBit
      if r.1 then r.2.bump CPU_CNT.COUNT 3 else r.2) s

/-- A checkpoint queue's work was on the crashed core, or on another of its cluster. -/
def coreCkpLost (s : State) (qid : Nat) : State :=
  let r := s.freeBit
  if r.1 then ckpAbort r.2 qid St.coreFaultRetryable true else r.2

/-- What a crashed firmware worker core was doing (R410). -/
def coreWorkLost (s : State) (k : Nat) : State :=
  let mine := fun (c qid : Nat) => qcls qid == c && servingCluster s (s.queue qid).home == some (k / 16)
  let s1 := s.bump CPU_CNT.COUNT 0
  let s1 := ((s.queues.map (·.1)).filter (mine 5)).foldl coreStorageLost s1
  let s1 := ((s.queues.map (·.1)).filter (mine 6)).foldl coreCkpLost s1
  fallback s1 4

/-- A worker core's registers and local memory are gone. -/
def zeroCore (s : State) (k : Nat) : State := (localZero (s.setCore k {}) k).dropWait (.core k)

/-- A logical worker core goes out of service (R16, R391, R416); it is no longer in its glade's use. -/
def coreOutOfService (s : State) (k : Nat) : State :=
  let m := s.rd GLB_CORE_MAP.OUT_OF_SERVICE (k / 16)
  let g := s.rd CPU_CORE.GLADE (coreEntry k)
  let s := if coreRole s k = 2 then s.wr GLD_USE_A.CORES g (s.rd GLD_USE_A.CORES g - 1) else s
  let s := s.wr GLB_CORE_MAP.OUT_OF_SERVICE (k / 16) (Nat.lor m (2 ^ (k % 16)))
  let s := s.wrs (coreEntry k) [(CPU_CORE.ROLE, 3), (CPU_CORE.GLADE, 0), (CPU_CORE.SLOT, 0), (CPU_CORE.STATE, 0)]
  serviceDue (refreshPools (showUnits s)) 3 (coreUnitOf (k / 16) (k % 16))

/-- A logical worker core fails, or is taken out (R374, R410, R411); `alone` says that its cluster's spare may serve. -/
def coreFail (s : State) (k cause : Nat) (alone : Bool) : State :=
  if coreRole s k = 3 then s
  else
    let c := k / 16
    let phys := corePhys s k
    let second := bringing s (coreUnitOf c (k % 16))
    let spare := alone && phys < 16 && !second && coreSpareFree s c
    let bad := coreUnitOf c (if second then 16 else phys)
    let s := markFailed s bad cause
    let s := if 16 ≤ phys || second then s.wrs c [(GLB_CORE_MAP.IN_USE, 0), (GLB_CORE_MAP.SPARE_FAULTY, 1)] else s
    let s := if firmwareCore k then coreWorkLost s k else slotFault s k (s.core k).tcause
    let s := showCore (zeroCore s k) k 0
    let s := if alone then unitFault s (coreUnitOf c (k % 16)) bad spare cause else s
    let b := s.boot.bringing.filter fun b => b.1 != coreUnitOf c (k % 16)
    if spare then showSpareCore { s with boot := { s.boot with bringing := b ++ [(coreUnitOf c (k % 16), none)] } } c
    else showSpareCore (coreOutOfService { s with boot := { s.boot with bringing := b } } k) c

/-- A spare core that stands in for nothing fails. -/
def spareCoreFail (s : State) (c cause : Nat) : State :=
  if s.flag GLB_CORE_MAP.SPARE_FAULTY c then s
  else
    let s := (markFailed s (coreUnitOf c 16) cause).wr GLB_CORE_MAP.SPARE_FAULTY c 1
    showSpareCore (showSpares (unitFault s (coreUnitOf c 16) (coreUnitOf c 16) false cause)) c

/-- A firmware worker core crashes without a hard fault: it is reset and reloaded, and a third soft crash within 1 s is a
hard fault (R410). -/
def softCrash (s : State) (k : Nat) : State :=
  let recent := (s.core k).soft.filter fun t => s.now < 1000000000 + t
  if 2 ≤ recent.length then coreFail s k 1 true
  else
    let s := coreWorkLost s k
    let s := (showCore s k 0).dropWait (.core k)
    let s := s.bumpSmall CPU_CORE.RESTARTS (coreEntry k)
    s.setCore k { soft := s.now :: recent, restarting := true }

/-- A restarted firmware core is back in service: it runs the management complex's copy of the firmware. -/
def execCoreRestartDone (k : Fin 256) (s : State) : Out :=
  if (s.core k).restarting then
    let s := startFirmware s k (sectionBytes s.fw.running 2)
    let n := ((s.core k).soft.filter fun t => s.now < 1000000000 + t).length
    .next (s.raiseUnit 0x1201 (coreUnit s k) (min n 255))
  else .next s

/-! ### Spares come in, and units come back (R15, R374, R375) -/

/-- A worker core that has come into service: firmware starts on a firmware core, and a core of the pool is idle. -/
def coreArrives (s : State) (k : Nat) : State :=
  if firmwareCore k && s.cpu.mgmtOn then startFirmware s k (sectionBytes s.fw.running 2) else showCore s k 0

/-- The spare of a unit's group is in service under the unit's logical number. -/
def spareArrives (s : State) (unit : Nat) : State :=
  if unit / 0x1000 = 3 then
    let n := unit % 0x1000
    showSpares ((s.wrs (n / 16) [(GLB_TILE_MAP.IN_USE, 1), (GLB_TILE_MAP.REPLACES, n)]).bump TWN_CNT.COUNT 7)
  else
    let k := unit % 0x1000 / 32 * 16 + unit % 0x1000 % 32
    let s := s.wrs (k / 16) [(GLB_CORE_MAP.IN_USE, 1), (GLB_CORE_MAP.REPLACES, k % 16)]
    coreArrives (showSpareCore (showSpares (s.bump TWN_CNT.COUNT 7)) (k / 16)) k

/-- A bit of a map cleared. -/
def dropBit (m i : Nat) : Nat := if bitOf m i then m - 2 ^ i else m

/-- A physical unit is back under its own logical number, and the spare that stood in is free (R375). -/
def unitReturns (s : State) (unit phys : Nat) : State :=
  let s := { s with boot := { s.boot with
      failed := s.boot.failed.filter (· != phys), marchPassed := s.boot.marchPassed.filter (· != phys) } }
  if unit / 0x1000 = 3 then
    let n := unit % 0x1000
    let s := if tilePhys s n = n then s else s.wrs (n / 16) [(GLB_TILE_MAP.IN_USE, 0), (GLB_TILE_MAP.REPLACES, 0)]
    let s := s.wr GLB_TILE_MAP.OUT_OF_SERVICE (n / 16) (dropBit (s.rd GLB_TILE_MAP.OUT_OF_SERVICE (n / 16)) (n % 16))
    refreshPools (showUnits (s.wr TILE_STATE.SEQ n 0))
  else
    let k := unit % 0x1000 / 32 * 16 + unit % 0x1000 % 32
    let c := k / 16
    let s := if corePhys s k < 16 then s else s.wrs c [(GLB_CORE_MAP.IN_USE, 0), (GLB_CORE_MAP.REPLACES, 0)]
    let s := s.wr GLB_CORE_MAP.OUT_OF_SERVICE c (dropBit (s.rd GLB_CORE_MAP.OUT_OF_SERVICE c) (k % 16))
    let s := if coreRole s k = 3 then s.wr CPU_CORE.ROLE (coreEntry k) (if firmwareCore k then 0 else 1) else s
    coreArrives (refreshPools (showUnits (showSpareCore s c))) k

/-- The service command in progress is done when nothing it concerns is still being brought in. -/
def svcSettle (s : State) : State :=
  let u := s.rd TWN_SVC.UNIT
  let within := fun (b : Nat) =>
    b == u || (u / 0x1000 == 2
      && (if b / 0x1000 = 3 then b % 0x1000 / 4 == u % 0x1000 else b % 0x1000 / 32 == u % 0x1000))
  if s.flag TWN_SVC.BUSY && !(s.boot.bringing.any fun b => within b.1) then
    s.wrs 0 [(TWN_SVC.BUSY, 0), (TWN_SVC.RESULT, 1)]
  else s

/-- A tile or worker core fails (R371, R374); a spare is named by its physical index. -/
def execTileHardFault (unit : BitVec 16) (self : Bool) (s : State) : Out :=
  let i := unit.toNat % 0x1000
  let cause := if self then 3 else 1
  if unit.toNat / 0x1000 = 3 then
    if i < 64 then .next (tileFail s i cause)
    else if i < 68 then
      let q := i - 64
      match s.boot.bringing.find? fun b => b.2.isNone && b.1 / 0x1000 == 3 && b.1 % 0x1000 / 16 == q with
      | some b => .next (svcSettle (tileFail s (b.1 % 0x1000) cause))
      | none => if s.flag GLB_TILE_MAP.IN_USE q then .next s else .next (spareTileFail s q cause)
    else .next s
  else if unit.toNat / 0x1000 = 4 then
    let c := i / 32
    if i % 32 < 16 && c < 16 then .next (coreFail s (16 * c + i % 32) cause true)
    else if i % 32 = 16 && c < 16 then
      match s.boot.bringing.find? fun b => b.2.isNone && b.1 / 0x1000 == 4 && b.1 % 0x1000 / 32 == c with
      | some b => .next (svcSettle (coreFail s (16 * c + b.1 % 32) cause true))
      | none => if s.flag GLB_CORE_MAP.IN_USE c then .next s else .next (spareCoreFail s c cause)
    else .next s
  else .next s

/-! ### Clusters and quadrant units (R375, R448) -/

/-- The grove that holds nothing but a cluster or a crossbar (R445). -/
def groveOfUnit (unit : Nat) : Option Nat :=
  if unit / 0x1000 = 2 then some (25 + unit % 0x1000)
  else if unit / 0x1000 = 0xB && unit % 0x1000 < 4 then some (45 + unit % 0x1000)
  else none

/-- A unit is out of service as a whole. -/
def markOut (s : State) (unit : Nat) : State :=
  if s.boot.outUnits.contains unit then s
  else
    let s :=
      match groveOfUnit unit with
      | some g => groveOut s g
      | none => s
    { s with boot := { s.boot with
      outUnits := unit :: s.boot.outUnits, marchPassed := s.boot.marchPassed.filter (· != unit) } }

/-- A logical tile is served by its quadrant's spare tile, or will be once the spare has come in. -/
def onSpare (s : State) (n : Nat) : Bool := tilePhys s n != n || s.boot.bringing.contains (unitId 0x3 n, none)

/-- A cluster is lost: its tiles fail in ascending order, its spare core is lost with it and its worker cores go out of
service. A tile that the spare serves is none of the cluster's units (R445; log entry 31, DEDUCED). -/
def clusterOut (s : State) (c cause : Nat) : State :=
  let s := markOut s (unitId 0x2 c)
  let s := (List.range 4).foldl (fun s j => if onSpare s (4 * c + j) then s else tileFail s (4 * c + j) cause) s
  let s := if s.flag GLB_CORE_MAP.IN_USE c then s
    else (markFailed s (coreUnitOf c 16) 4).wr GLB_CORE_MAP.SPARE_FAULTY c 1
  showSpareCore (showSpares ((List.range 16).foldl (fun s j => coreFail s (16 * c + j) cause false) s)) c

/-- A quadrant's data ports go FAILED (R234, R375). -/
def portsFail (s : State) (q : Nat) : State := (List.range 4).foldl (fun s i => setFabPort s (4 * q + i) Po.failed) s

/-- A quadrant's transport engine or miss buffer is out. -/
def transportFail (s : State) (q unit : Nat) : State := portsFail (markOut s (unitId 0xB (4 * unit + q))) q

/-- The bytes of a region in the global part and in a quadrant's local part. -/
def regionParts (s : State) (i q : Nat) : Nat × Nat :=
  let a := rgnBase s i
  let b := a + rgnLen s i
  let lo := globalTop s + q * (0x40000000 * s.localGib)
  let meet := fun (x y : Nat) => min b y - max a x
  (meet 0 (globalTop s), meet lo (lo + 0x40000000 * s.localGib))

/-- The bytes a region loses with a quadrant, or with a pair of channels (R83, R448). -/
def bytesLost (s : State) (i what : Nat) : Nat :=
  if what < 4 then
    let p := regionParts s i what
    p.1 / 4 + p.2
  else
    let p := regionParts s i ((what - 4) / 8)
    p.1 / 32 + p.2 / 8

/-- The valid regions that lose granules are owed an event each (R83). -/
def oweDegraded (s : State) (what : Nat) : State :=
  let l := below 1024 fun i => s.flag MEM_RGN_A.VALID i && bytesLost s i what != 0
  { s with dram := { s.dram with degrade := s.dram.degrade ++ l.map fun i => (i, what) } }

/-- MEM_REGION_DEGRADED for a region that is owed one (R83, R92). Bytes lost are told in 2 MiB units, rounded down, so that a
loss of less than one unit reads 0 (DESIGN CHOICE, log entry 27: R92 gives the unit and no rounding). -/
def execMemRegionDegraded (i : Fin 1024) (s : State) : Out :=
  match s.dram.degrade.find? fun d => d.1 == i.val with
  | some d =>
    let s := { s with dram := { s.dram with degrade := s.dram.degrade.filter (· != d) } }
    .next (s.raise 0x0408 (unitId 0 0) (s.rd MEM_RGN_A.GLADE i) 0 0 (i + 2 ^ 10 * (bytesLost s i d.2 / 0x200000)))
  | none => .next s

/-- The logical tile that a quadrant's spare serves, or is being brought in for. -/
def spareServes (s : State) (q : Nat) : Option Nat :=
  match s.boot.bringing.find? fun b => b.2.isNone && b.1 / 0x1000 == 3 && b.1 % 0x1000 / 16 == q with
  | some b => some (b.1 % 0x1000)
  | none => if s.flag GLB_TILE_MAP.IN_USE q then some (s.rd GLB_TILE_MAP.REPLACES q) else none

/-- A quadrant's crossbar fails, and the quadrant with it (R13, R83): its channels, its clusters with its spare tile, and its
data ports and its twin port (R376). -/
def quadrantLost (s : State) (q : Nat) : State :=
  if s.dram.lostQuads.contains q then s
  else
    let s := oweDegraded { s with dram := { s.dram with lostQuads := q :: s.dram.lostQuads } } q
    let s :=
      match spareServes s q with
      | some n => tileFail s n 1
      | none => (markFailed s (unitId 0x3 (64 + q)) 4).wr GLB_TILE_MAP.SPARE_FAULTY q 1
    let s := (List.range 4).foldl (fun s i => clusterOut s (4 * q + i) 1) s
    let s := if q = 1 || q = 2 then twinPortDown s (q - 1) else s
    showUnits (portsFail (markOut s (unitId 0xB q)) q)

/-- The loss of a quadrant. -/
def execQuadrantLoss (q : Fin 4) (s : State) : Out := .next (quadrantLost s q)

/-- A pair of channels leaves service with its grove (R448). -/
def channelsOut (s : State) (k : Nat) : State :=
  if s.dram.lostChans.contains (2 * k) then s
  else
    let s := groveOut { s with dram := { s.dram with lostChans := (2 * k) :: (2 * k + 1) :: s.dram.lostChans } } (83 + k)
    showUnits (oweDegraded s (4 + k))

/-- A channel alone leaves service with its controllers (R13). -/
def channelOut (s : State) (ch : Nat) : State :=
  if s.dram.lostChans.contains ch then s
  else showUnits (oweDegraded { s with dram := { s.dram with lostChans := ch :: s.dram.lostChans } } (4 + ch / 2))

/-- Every lane of an optical tile fails. -/
def opticalOut (s : State) (t : Nat) : State := (tileLanes t).foldl (fun s l => setLane (laneSettled s l) l 3) s

/-! ### Region controllers (R12, R13, R372) -/

/-- The alternate of a region controller. -/
def alternate (k : Nat) : Nat := if k % 2 = 0 then k + 1 else k - 1

/-- The first of the four controllers that serve a quadrant (R12). -/
def quadBase (q : Nat) : Nat := if q % 2 = 0 then 0 else 4

/-- The primary region controller of a unit, if its agent has one (R12). -/
def primaryOf (unit : Nat) : Option Nat :=
  let i := unit % 0x1000
  match unit / 0x1000 with
  | 0x2 => some (i % 8)
  | 0x3 => some (if i < 64 then i / 4 % 8 else quadBase (i - 64) + (i - 64) / 2)
  | 0x4 => some (i / 32 % 8)
  | 0x5 => some (quadBase (i / 16) + i % 4)
  | 0x6 => some (quadBase (i / 4) + i % 4)
  | 0x7 => some (quadBase (i + 1) + 3 - (i + 1) / 2)
  | 0x8 => if i = 0 then none else if i ≤ 4 then some 3 else some (quadBase 3 + 2)
  | 0xA => some (quadBase i + 3 - i / 2)
  | 0xB => some (quadBase (i % 4) + 2 + i % 4 / 2)
  | _ => none

/-- The agent of a unit is moving to its alternate controller (R13). -/
def unitMoving (s : State) (unit : Nat) : Bool :=
  match primaryOf unit with
  | some k => s.boot.moving.contains k
  | none => false

/-- Hold a control operation until the agents have moved. -/
def holdCtl (s : State) (h : HeldCtl) : State := { s with boot := { s.boot with heldCtl := s.boot.heldCtl ++ [h] } }

/-- The spare tile of a quadrant fails: with it the logical tile it serves, or is being brought in for. -/
def spareSiteFail (s : State) (q : Nat) : State :=
  match spareServes s q with
  | some n => tileFail s n 1
  | none => spareTileFail s q 1

/-- Controllers k and k XOR 1 have both failed: their units go out of service (R12, R13). -/
def controllersOut (s : State) (k : Nat) : State :=
  let k := k / 2 * 2
  let has := fun (p : Nat) => p == k || p == k + 1
  let b := quadBase
  let s := (below 16 fun c => has (c % 8)).foldl (fun s c => clusterOut s c 1) s
  let s := (below 64 fun ch => has (b (ch / 16) + ch % 4)).foldl channelOut s
  let s := (below 16 fun p => has (b (p / 4) + p % 4)).foldl (fun s p => setFabPort s p Po.failed) s
  let s := (below 4 fun q => has (b q + q / 2)).foldl spareSiteFail s
  let s := (below 4 fun q => has (b q + 2 + q / 2)).foldl quadrantLost s
  let s := (below 4 fun t => has (b t + 3 - t / 2)).foldl opticalOut s
  serviceDue s 6 (unitId 0x1 k)

/-- A region controller fails (R13, R372): its agents begin to move to the alternate, if that has not failed too. -/
def controllerFail (s : State) (k : Nat) : State :=
  if s.boot.ctrlFailed.contains k then s
  else
    let s := recordFault s (unitId 0x1 k) 4 0 0 2
    let s := { s with boot := { s.boot with ctrlFailed := k :: s.boot.ctrlFailed } }
    let s := groveOut s (17 + k)
    if s.boot.ctrlFailed.contains (alternate k) then
      controllersOut { s with boot := { s.boot with moving := s.boot.moving.filter (· != alternate k) } } k
    else
      let s := s.raiseUnit 0x1102 (unitId 0x1 k) (k + alternate k * 2 ^ 3)
      { s with boot := { s.boot with moving := k :: s.boot.moving } }

/-! ### Management pairs (R412) -/

/-- A management pair disagrees with itself: it leaves service, and the standby pair begins to take control. -/
def pairFail (s : State) (p : Nat) : State :=
  if mgmtOk s p then
    let s := groveOut (s.wr (if p = 0 then CPU_MGMT.PAIR0_OK else CPU_MGMT.PAIR1_OK) 0 0) p
    let s := serviceDue s 5 (unitId 0x0 (p + 1))
    if p = activePair s then
      let s := fallback (defaultClocks s) 4
      if mgmtOk s (1 - p) then
        let s := (s.bump CPU_CNT.COUNT 2).raiseUnit 0x1203 (unitId 0x0 (p + 1)) (1 - p)
        { s with cpu := { s.cpu with failover := true } }
      else { s with cpu := { s.cpu with mgmtOn := false } }
    else { s with cpu := { s.cpu with failover := false } }
  else s

/-- A management pair disagrees. -/
def execMgmtPairDisagree (p : Fin 2) (s : State) : Out := .next (pairFail s p)

/-! ### Taking units out and returning them (R375) -/

/-- Refuse a service command. -/
def svcRefuse (s : State) (r : Nat) : State := s.wr TWN_SVC.RESULT 0 r

/-- A service command has begun; it is done at once unless a spare must be brought in. -/
def svcBegin (s : State) : State := svcSettle (s.wrs 0 [(TWN_SVC.BUSY, 1), (TWN_SVC.RESULT, 0)])

/-- Take a unit out of service (ACTION 1). -/
def svcTakeOut (s : State) (unit : Nat) (force : Bool) : State :=
  let i := unit % 0x1000
  match unit / 0x1000 with
  | 3 =>
    if 68 ≤ i then svcRefuse s 3
    else if 64 ≤ i || s.tileOut i then svcRefuse s 5
    else if !tileSpareFree s (i / 16) && !force then svcRefuse s 2
    else svcBegin (tileFail s i 4)
  | 4 =>
    let k := i / 32 * 16 + i % 32
    if 16 < i % 32 || 16 ≤ i / 32 then svcRefuse s 3
    else if i % 32 = 16 || coreRole s k = 3 then svcRefuse s 5
    else if !coreSpareFree s (i / 32) && !force then svcRefuse s 2
    else svcBegin (coreFail s k 4 true)
  | 2 =>
    if 16 ≤ i then svcRefuse s 3
    else if s.boot.outUnits.contains unit then svcRefuse s 5
    else if !force then svcRefuse s 2
    else svcBegin (clusterOut (unitFault s unit unit false 4) i 4)
  | 0xB =>
    if i / 4 != 1 && i / 4 != 2 then svcRefuse s 3
    else if s.boot.outUnits.contains unit then svcRefuse s 5
    else if !force then svcRefuse s 2
    else svcBegin (transportFail (unitFault s unit unit false 4) (i % 4) (i / 4))
  | _ => svcRefuse s 3

/-- A tile begins to return: the work on the spare that stood in is lost. -/
def tileReturn (s : State) (n : Nat) : State :=
  let s := if s.tileOut n then s else tileWorkLost s n true
  { s with boot := { s.boot with bringing := s.boot.bringing ++ [(unitId 0x3 n, some (unitId 0x3 n))] } }

/-- A worker core begins to return. -/
def coreReturn (s : State) (k : Nat) : State :=
  let s := if coreRole s k = 3 then s else if firmwareCore k then coreWorkLost s k else slotFault s k (s.core k).tcause
  let u := coreUnitOf (k / 16) (k % 16)
  { s with boot := { s.boot with bringing := s.boot.bringing ++ [(u, some u)] } }

/-- The physical units of a cluster that are out. -/
def clusterUnits (s : State) (c : Nat) : List Nat :=
  s.boot.failed.filter fun u =>
    (u / 0x1000 == 3 && u % 0x1000 / 4 == c) || (u / 0x1000 == 4 && u % 0x1000 / 32 == c)

/-- A unit that is no longer counted as out. -/
def markIn (s : State) (unit : Nat) : State :=
  let s :=
    match groveOfUnit unit with
    | some g => if s.rd CLK_GROVE.STATE g = 3 then s.wr CLK_GROVE.STATE g 0 else s
    | none => s
  { s with boot := { s.boot with
      outUnits := s.boot.outUnits.filter (· != unit), marchPassed := s.boot.marchPassed.filter (· != unit) } }

/-- A cluster returns: its tiles and cores return under their own numbers, and its spare core is healthy again. -/
def clusterReturn (s : State) (c : Nat) : State :=
  let l := clusterUnits s c
  let s := markIn s (unitId 0x2 c)
  let s := if l.contains (coreUnitOf c 16) then
      { s with boot := { s.boot with failed := s.boot.failed.filter (· != coreUnitOf c 16) } }.wr GLB_CORE_MAP.SPARE_FAULTY c 0
    else s
  let s := l.foldl
    (fun s u =>
      if u / 0x1000 = 3 then tileReturn s (u % 0x1000)
      else if u % 32 < 16 then coreReturn s (16 * c + u % 32) else s) s
  showSpareCore (showSpares s) c

/-- Return a unit to service (ACTION 2). -/
def svcReturn (s : State) (unit : Nat) : State :=
  let i := unit % 0x1000
  let tested := s.boot.marchPassed.contains unit
  match unit / 0x1000 with
  | 3 =>
    if 68 ≤ i then svcRefuse s 3
    else if !s.boot.failed.contains unit || bringing s unit then svcRefuse s 5
    else if !tested then svcRefuse s 4
    else if i < 64 then svcBegin (tileReturn s i)
    else
      let s := { s with boot := { s.boot with
          failed := s.boot.failed.filter (· != unit), marchPassed := s.boot.marchPassed.filter (· != unit) } }
      svcBegin (showSpares (s.wr GLB_TILE_MAP.SPARE_FAULTY (i - 64) 0))
  | 4 =>
    let c := i / 32
    if 16 < i % 32 || 16 ≤ c then svcRefuse s 3
    else if !s.boot.failed.contains unit || bringing s unit then svcRefuse s 5
    else if !tested then svcRefuse s 4
    else if i % 32 < 16 then svcBegin (coreReturn s (16 * c + i % 32))
    else
      let s := { s with boot := { s.boot with
          failed := s.boot.failed.filter (· != unit), marchPassed := s.boot.marchPassed.filter (· != unit) } }
      svcBegin (showSpareCore (showSpares (s.wr GLB_CORE_MAP.SPARE_FAULTY c 0)) c)
  | 2 =>
    if 16 ≤ i then svcRefuse s 3
    else if !s.boot.outUnits.contains unit then svcRefuse s 5
    else if !tested then svcRefuse s 4
    else svcBegin (clusterReturn s i)
  | 0xB =>
    if i / 4 != 1 && i / 4 != 2 then svcRefuse s 3
    else if !s.boot.outUnits.contains unit then svcRefuse s 5
    else if !tested then svcRefuse s 4
    else svcBegin (markIn s unit)
  | _ => svcRefuse s 3

/-- Run a service command. -/
def svcRun (s : State) (action unit : Nat) (force : Bool) : State :=
  if action = 1 then svcTakeOut s unit force
  else if action = 2 then svcReturn s unit
  else s

/-- A write to TWN_SVC (R375): ignored while BUSY, and START held while an activation pauses the firmware (R421) or while the
unit's agent moves to another controller (R13). -/
def svcWrite (s : State) (unit action : Nat) (force start : Bool) : State :=
  if s.flag TWN_SVC.BUSY then s
  else
    let s := s.wrs 0 [(TWN_SVC.UNIT, unit), (TWN_SVC.ACTION, action), (TWN_SVC.FORCE, b2n force)]
    if !start then s
    else if fetchPaused s then holdStart s (.svc action unit force)
    else if unitMoving s unit then
      holdCtl (s.wrs 0 [(TWN_SVC.BUSY, 1), (TWN_SVC.RESULT, 0)]) (.svc action unit force)
    else svcRun s action unit force

/-- TWN_SVC ACTION 1. -/
def execTakeOut (unit : BitVec 16) (force : Bool) (s : State) : Out := unlessNoImage s <| .next (svcWrite s unit.toNat 1 force true)

/-- TWN_SVC ACTION 2. -/
def execReturnCmd (unit : BitVec 16) (s : State) : Out := unlessNoImage s <| .next (svcWrite s unit.toNat 2 false true)

/-! ### March tests on request (R61) -/

/-- Whether a unit may be tested on request: a tile, a worker core, a cluster, a transport engine or a miss buffer. -/
def marchClass (unit : Nat) : Bool :=
  let i := unit % 0x1000
  match unit / 0x1000 with
  | 2 => i < 16
  | 3 => i < 68
  | 4 => i / 32 < 16 && i % 32 ≤ 16
  | 0xB => i / 4 == 1 || i / 4 == 2
  | _ => false

/-- Whether a unit has been taken out of service. -/
def unitOut (s : State) (unit : Nat) : Bool :=
  (s.boot.failed.contains unit && !bringing s unit) || s.boot.outUnits.contains unit

/-- Start a march test on request, or refuse it (R61). A unit in service named with a mode that is not testable gives result 4
rather than 3 (log entry 41). -/
def marchRun (s : State) (unit mode : Nat) : State :=
  if !marchClass unit || (mode != 1 && mode != 2) then s.wr BOOT_MARCH.RESULT 0 4
  else if !unitOut s unit then s.wr BOOT_MARCH.RESULT 0 3
  else
    { s with boot := { s.boot with march := some (unit, mode) } }.wrs 0
      [(BOOT_MARCH.BUSY, 1), (BOOT_MARCH.RESULT, 0), (BOOT_MARCH.FAULTS, 0)]

/-- A write to BOOT_MARCH (R61, R68): UNIT and MODE take what is written; START is ignored while a test runs (log entry 41), and
is held while the unit's agent moves to another controller (R13). -/
def marchWrite (s : State) (unit mode : Nat) (start : Bool) : State :=
  let busy := s.flag BOOT_MARCH.BUSY
  let s := s.wrs 0 [(BOOT_MARCH.UNIT, unit), (BOOT_MARCH.MODE, mode)]
  if !start || busy then s
  else if unitMoving s unit then
    holdCtl (s.wrs 0 [(BOOT_MARCH.BUSY, 1), (BOOT_MARCH.RESULT, 0)]) (.march unit mode)
  else marchRun s unit mode

/-- BOOT_MARCH START. -/
def execMarchRequest (unit : BitVec 16) (mode : BitVec 2) (s : State) : Out :=
  .next (marchWrite s unit.toNat mode.toNat true)

/-- The miss buffer of a quadrant reads as zeros: the packets that it held for its peers are gone. -/
def missZero (s : State) (q : Nat) : State :=
  (s.peers.map (·.1)).foldl
    (fun s d => if peerQuad s d = q && !(s.peer d).missed.isEmpty then s.setPeer d { s.peer d with missed := [] } else s) s

/-- What a destructive test leaves in a unit's arrays: zeros (R60). -/
def marchZero (s : State) (unit : Nat) : State :=
  let i := unit % 0x1000
  match unit / 0x1000 with
  | 2 => { s with cpu := { s.cpu with cbuf := Mem.lower s.cpu.cbuf (0x400000 * i) ++ Mem.upper s.cpu.cbuf (0x400000 * (i + 1)) } }
  | 0xB =>
    if i / 4 = 1 then { s with fab := { s.fab with cache := Tab.set [] s.fab.cache (i % 4) [] } }
    else missZero s (i % 4)
  | _ => s

/-- An on-request march test ends with the faults it found, each an array and a column (R57, R61). -/
def execMarchRequestDone (faults : List (BitVec 32 × BitVec 32)) (s : State) : Out :=
  match s.boot.march with
  | some (unit, mode) =>
    let s := { s with boot := { s.boot with march := none } }
    let s := if mode = 2 then marchZero s unit else s
    let s := faults.foldl (fun s f => recordFault s unit 3 f.1.toNat f.2.toNat 3) s
    let s := s.wrs 0 [(BOOT_MARCH.BUSY, 0), (BOOT_MARCH.RESULT, if faults.isEmpty then 1 else 2),
      (BOOT_MARCH.FAULTS, min faults.length 0xFFFF)]
    if faults.isEmpty then .next { s with boot := { s.boot with marchPassed := unit :: s.boot.marchPassed } } else .next s
  | none => .next s

/-- A reset of a unit abandons the test on it (R67). -/
def marchAbandon (s : State) (result : Nat) : State :=
  { s with boot := { s.boot with march := none } }.wrs 0 [(BOOT_MARCH.BUSY, 0), (BOOT_MARCH.RESULT, result)]

end Sys2Proof.Machine
end

