-- ==== Sys2Proof/Machine/Traps.lean ====
section
/-! DEFINITION. Traps of the cores (R403, R410, R411), halting them (R460), and the end of waits (R170 to R172). Choices and
readings of the model: log entries 33 and 37. -/
namespace Sys2Proof.Machine

open Sys2Proof

/-! ### Halting (R460) -/

/-- The worker core or the management cores that a debug entry belongs to. -/
def coreOfDebug (d : Nat) : Nat := min d 256

/-- A halted firmware worker core's watchdog is suspended (R461): the time it has run is kept while the core is halted. -/
def wdogFlip (s : State) (d : Nat) : State :=
  if d < 256 && firmwareCore d then s.setCore d { s.core d with wdog := s.now - (s.core d).wdog } else s

/-- Halt a core for a reason, and say which breakpoint or watchpoint it was. -/
def dbgHalt (s : State) (d reason which : Nat) : State :=
  let s := if (s.debugOf d).halted then s else wdogFlip s d
  let s := s.setDebug d
    { s.debugOf d with halted := true, reason := reason, which := which, stepping := false, pass := false, hit := none }
  if d < 256 then showCore s d 3 else s

/-- Whether a worker core has been given work to execute: firmware of a core in service, or a running program. -/
def coreWorks (s : State) (k : Nat) : Bool :=
  if firmwareCore k then coreRole s k == 0 && s.cpu.mgmtOn && !(s.core k).restarting
  else coreRole s k == 2 && s.rd CPU_OFL_A.STATE (s.rd CPU_CORE.SLOT (coreEntry k)) == 2

/-- Show what a worker core does now. -/
def showLive (s : State) (k : Nat) : State :=
  if k < 256 then showCore s k (if coreWorks s k then liveState s k else if (s.debugOf k).halted then 3 else s.rd CPU_CORE.STATE (coreEntry k))
  else s

/-- Let a halted core run, or run for one instruction. -/
def dbgResume (s : State) (d : Nat) (step : Bool) : State :=
  let x := s.debugOf d
  if x.halted then
    let s := wdogFlip (s.setDebug d { x with halted := false, stepping := step, pass := true }) d
    showLive s (coreOfDebug d)
  else s

/-- The Trail port locks again (R458): breakpoints and watchpoints are cleared, and every core that it halted runs. -/
def trailRelock (s : State) : State :=
  let s := (s.cpu.probes.map (·.1)).foldl (fun s d => dbgResume s d false) s
  let s := { s with cpu := { s.cpu with probes := [], job := none } }
  s.wrs 0 [(TRL_STATUS.LOCK, 0), (TRL_STATUS.GLADE, 0)]

/-- The end of an instruction: a step halts the core again, and a breakpoint at its PC counts once more. -/
def instrEnd (s : State) (k : Nat) : State :=
  let d := debugKey s k
  let x := s.debugOf d
  if x.stepping then dbgHalt s d 1 0
  else if x.pass then s.setDebug d { x with pass := false }
  else s

/-! ### Traps (R403) -/

/-- A double trap: a crash of a firmware worker core, a program fault of an offload core. The spec gives the management cores
no such crash: their firmware stops (DESIGN CHOICE, unsafe: log entry 37). -/
def doubleTrap (s : State) (k cause : Nat) : State :=
  if 256 ≤ k then { s with cpu := { s.cpu with mgmtOn := false } }
  else if firmwareCore k then softCrash s k
  else slotFault s k cause

/-- Take a trap: PL and IE are saved, the level rises to the handler level, and the PC goes to TVEC. -/
def trap (s : State) (k cause tval : Nat) : State :=
  let c := s.core k
  if c.tip then doubleTrap s k cause
  else
    let s := s.setCore k
      { c with ppl := c.pl, pie := c.ie, ie := false, tip := true, pl := handlerLevel k, tpc := c.pc, tcause := cause,
               tval := tval % 2 ^ 32, pc := c.tvec, wfi := false }
    if k < 256 then showCore s k 1 else s

/-- Take a trap for which the spec states no TVAL (R401 gives it for a faulting address and for cause 1): TVAL is free (log
entry 33, safe). -/
def trapOpen (s : State) (k cause : Nat) : State :=
  let v := s.freeWord
  trap v.2 k cause v.1.toNat

/-- Return from a trap. -/
def trapReturn (s : State) (k : Nat) : State :=
  let c := s.core k
  s.setCore k { c with pl := c.ppl, ie := c.pie, tip := false, pc := c.tpc }

/-- The timer interrupt is pending (R401). -/
def timerPending (s : State) (k : Nat) : Bool := (s.core k).tcmp ≤ s.now

/-- Whether a core may take an interrupt now: it executes or waits in WFI, and is not being stepped. -/
def interruptible (s : State) (k : Nat) : Bool :=
  let d := s.debugOf (debugKey s k)
  (s.core k).ie && !d.halted && !d.stepping && d.hit.isNone
    && (coreRuns s k
      || ((s.core k).wfi && (256 ≤ k || coreWorks s k)))

/-- TIME has reached TCMP while IE is 1. -/
def execTimerInterrupt (k : Fin 257) (s : State) : Out :=
  if timerPending s k && interruptible s k then .next (trapOpen s k 0x80000001) else .next s

/-! ### The end of waits -/

/-- End a fetched command of a queue with a status, as its class ends commands. -/
def endCmd (s : State) (qid : Nat) (c : Cmd) (status : Nat) : State :=
  match qcls qid with
  | 1 => if status = St.success then s.complete qid c status 0 else failCommand s (qidx qid) c Tf.grant 0
  | 2 => decEnd s qid c status 0
  | 5 => stqEnd s (qidx qid) c.entry status 0
  | _ => s.complete qid c status 0

/-- The waiting command of a queue. -/
def waitingCmd (s : State) (qid : Nat) : Option Cmd := (s.queue qid).cmds.find? (·.waiting)

/-- A waiter proceeds: a tile's WAIT command completes, a PREWAIT has passed, a program or a core goes on. -/
def waitPassed (s : State) (w : Wait) : State :=
  let s := s.dropWait w.who
  match w.who with
  | .queue qid =>
    match waitingCmd s qid with
    | some c => if qcls qid = 1 then endCmd s qid c St.success else s.setCmd qid { c with waiting := false }
    | none => s
  | .tile n => tileAdvance s n
  | .core k => showLive (instrEnd (s.setCore k { s.core k with pc := ((s.core k).pc + 4) % 2 ^ 32 }) k) k

/-- A wait ends because what it waits on is revoked or deleted (R170, R172). -/
def waitRefused (s : State) (w : Wait) : State :=
  let s := s.dropWait w.who
  match w.who with
  | .queue qid =>
    match waitingCmd s qid with
    | some c => endCmd s qid c St.protectionFault
    | none => s
  | .tile n => tileFault s n Tf.grant
  | .core k => instrEnd (trapOpen s k 5) k

/-- End every wait that meets a test. -/
def endWaits (s : State) (p : WaitOn → Bool) : State :=
  (s.waits.filter fun w => p w.on).foldl (fun s w => if s.waits.contains w then waitRefused s w else s) s

/-- The queue identifier, tile or core of a party. -/
def partyOf : WaitParty → Waiter
  | .queue q => .queue q.toNat
  | .tile n => .tile n
  | .core k => .core k
  | .mgmt => .core mgmtKey

/-- Whether a halted core holds its wait (R460). -/
def waitHeld (s : State) : Waiter → Bool
  | .core k => (s.debugOf (debugKey s k)).halted
  | _ => false

/-- A waiter whose counter or completion count has reached its target proceeds. -/
def execWaitSatisfied (who : WaitParty) (s : State) : Out :=
  match s.waits.find? fun w => w.who == partyOf who with
  | some w => if satisfied (s.waitValue w.on) w.target && !waitHeld s w.who then .next (waitPassed s w) else .next s
  | none => .next s

/-- Clearing GRANTED revokes a counter block (R170). -/
def ctrRevoke (s : State) (b : Nat) : State :=
  if s.flag UST_CTR_BLK.GRANTED b then
    endWaits (s.wr UST_CTR_BLK.GRANTED b 0) fun on =>
      match on with
      | .counter c => c / 256 == b
      | .count _ => false
  else s

/-- A write that clears UST_CTR_BLK.GRANTED. -/
def execCtrBlockRevoke (b : Fin 256) (s : State) : Out := unlessNoImage s <| .next (ctrRevoke s b)

end Sys2Proof.Machine
end

