-- ==== Sys2Proof/Machine/Glades.lean ====
section
/-! DEFINITION. Glades, instances and queues: doorbells, fetching and completing commands of every class, resets, and the
set-up queue (R116 to R121, R281 to R295). Choices and readings of the model: log entries 9, 11 and 19. -/
namespace Sys2Proof.Machine

open Sys2Proof

/-- Set-up completion codes (R286). -/
def Gc.inUse : Nat := 0x80
def Gc.noSuch : Nat := 0x81
def Gc.existing : Nat := 0x82

/-! ### Queue resets (R121, R136, R160, R181, R210, R236, R314, R366) -/

/-- A queue reset begins: nothing further starts, and every fetched command completes with a status. -/
def queueReset (s : State) (qid status : Nat) : State :=
  let q := s.queue qid
  if q.state = .resetting then s
  else if qcls qid = 1 then tileQueueReset s (qidx qid) status
  else
    let s := s.setQueue qid (q.reset status)
    match qcls qid with
    | 2 => decAbort s qid status
    | 3 => ustAbort s qid status
    | 4 => salAbort s qid status
    | 5 => stqAbort s qid status
    | _ => ckpAbort s qid status

/-- A queue reset ends: the rings start again, and the queue is ACTIVE, or DISABLED where its ENABLE is 0. -/
def queueRestart (s : State) (qid : Nat) : State :=
  let s := restartRings s qid
  let st := if qcls qid = 1 && !s.flag TILE_QCTRL.ENABLE (qidx qid) then QState.disabled else .active
  s.setQueue qid { s.queue qid with state := st, due := [] }

/-- A queue reset from its beginning to its end: every command completes, and every entry is written. A storage queue's
commands that have not been fetched get no entry (R314). -/
def queueClear (s : State) (qid status : Nat) : State :=
  let s := queueReset s qid status
  let s := if qcls qid = 5 then s else completeRing s qid status 0
  queueRestart (s.writeEntries qid) qid

/-- Every command of a resetting queue has completed and its entries are written. -/
def execQueueResetDone (qid : BitVec 24) (s : State) : Out :=
  let q := s.queue qid.toNat
  if s.queueExists qid.toNat && q.state = .resetting && q.cmds.isEmpty && q.due.isEmpty
      && (qcls qid.toNat == 5 || q.waiting == 0) then
    .next (queueRestart s qid.toNat)
  else .next s

/-! ### Fetching commands and writing entries (R117, R118, R120, R284) -/

/-- Whether the set-up queue's next command may be fetched: one command at a time, while the device is RUNNING. -/
def sqMayFetch (s : State) : Bool :=
  let q := s.queue 0
  q.state == .active && q.waiting != 0 && q.cmds.isEmpty && s.rd BOOT_STATE.STATE == 8 && controlFetch s

/-- Whether firmware cores serve a cluster's storage and checkpoint queues now. -/
def clusterFetch (s : State) (c : Nat) : Bool := controlFetch s && (servingCluster s c).isSome

/-- Whether a queue's next command may be fetched now. -/
def mayFetch (s : State) (qid : Nat) : Bool :=
  let i := qidx qid
  i < max (classSize (qcls qid)) 1
    && (match qcls qid with
        | 0 => sqMayFetch s
        | 1 => tileMayFetch s i && !bringing s (unitId 0x3 (i / 8))
        | 2 => decMayFetch s qid
        | 3 => ustMayFetch s qid
        | 4 => salMayFetch s qid
        | 5 => stqMayFetch s qid && clusterFetch s (s.queue qid).home
        | 6 => ckpMayFetch s qid && clusterFetch s (s.queue qid).home
        | _ => false)
    && (qcls qid < 2 || ctxReady s (.queue qid)) && (!(s.queue qid).host || s.instReady (s.queue qid).inst)

/-- Whether a set-up command's bytes are within their stated values, and those not listed are zero (R285). -/
def setupFieldsOk (l : List Byte) : Bool :=
  let quotas := fun (a b : Nat) => a < 2 ^ 46 && b < 2 ^ 50
  leAt l 1 1 < 2 && zeroAt l 2 2
    && (match leAt l 0 1 with
        | 1 | 2 =>
          leAt l 9 1 < 2 && zeroAt l 10 6 && zeroAt l 32 32 && quotas (leAt l 16 8) (leAt l 24 8)
            && (leAt l 9 1 == 0 || (zeroAt l 16 8 && zeroAt l 24 8)) && leAt l 8 1 != 0
        | 3 | 4 => zeroAt l 9 55 && leAt l 8 1 != 0
        | 5 =>
          leAt l 9 1 < 4 && zeroAt l 10 2 && leAt l 12 4 < 2 ^ 20 && zeroAt l 16 48
            && (bitOf (leAt l 9 1) 1 || zeroAt l 12 4)
        | 6 => zeroAt l 8 4 && leAt l 12 2 < 4096 && zeroAt l 14 50
        | 7 => zeroAt l 8 4 && leAt l 12 2 < 4096 && zeroAt l 14 50 && leAt l 12 2 != 0
        | 8 =>
          2 ≤ leAt l 8 1 && leAt l 8 1 ≤ 6 && leAt l 9 1 < 2 && 4 ≤ leAt l 10 1 && leAt l 10 1 ≤ 12 && leAt l 11 1 < 4
            && leAt l 12 2 < 4096 && leAt l 14 2 < 2048 && leAt l 16 8 % 64 == 0 && leAt l 24 8 % 64 == 0
            && (match leAt l 8 1 with
                | 2 => leAt l 32 1 < 16 && zeroAt l 33 31
                | 3 => zeroAt l 32 32
                | 4 => zeroAt l 32 1 && leAt l 33 1 < 2 && leAt l 34 2 < 4096 && zeroAt l 36 28
                | 5 => zeroAt l 32 8 && leAt l 40 1 < 2 && (leAt l 41 1 < 16 || leAt l 41 1 == 0xFF) && zeroAt l 42 22
                | _ => zeroAt l 32 8 && (leAt l 40 1 < 16 || leAt l 40 1 == 0xFF) && zeroAt l 41 23)
        | 9 => zeroAt l 8 8 && leAt l 16 4 < 2 ^ 24 && zeroAt l 20 44
        | 0xA =>
          zeroAt l 8 8 && leAt l 16 8 < 2 ^ 40 && 1 ≤ leAt l 24 8 && leAt l 24 8 ≤ 2 ^ 40 && leAt l 32 2 < 4096
            && leAt l 34 1 < 16 && zeroAt l 35 29
        | 0xB => zeroAt l 8 8 && leAt l 16 4 < 2 ^ 28 && zeroAt l 20 44
        | _ => false)

/-- A set-up command ends (R284): it carries instance 0's generation, and an entry that is not to be written any more
(R292) is dropped. -/
def sqEnd (s : State) (c : Cmd) (status result : Nat) : State :=
  let s := s.complete 0 { c with stamp := s.genOf 0 } status result
  if c.waiting || !s.flag GLD_SQ_CTRL.ENABLE then s.setQueue 0 { s.queue 0 with due := [] } else s

/-- A command fetched from the set-up queue. -/
def sqFetched (s : State) (l : List Byte) (status : Nat) : State :=
  let q := s.queue 0
  let c : Cmd := { bytes := l, entry := q.head, stamp := s.genOf 0, started := false, waiting := false }
  let s := s.setQueue 0 { q with head := (q.head + 1) % q.size, cmds := q.cmds ++ [c] }
  if status ≠ St.success then sqEnd s c status 0
  else if !setupFieldsOk l then sqEnd s c St.badDescriptor 0
  else s

/-- A queue's next command is fetched and decoded. `reply` is the host's answer, when the ring is in host memory; a read that no tag
is free for waits (R264). -/
def execCommandFetch (qid : BitVec 24) (reply : HostReply) (s : State) : Out :=
  let id := qid.toNat
  if mayFetch s id then
    let f := fetchBytes s id reply
    let q := s.queue id
    let s :=
      if q.host then s.instRead q.inst (q.cmdAddr id q.head) (entrySize id q) reply
      else s.noteStatus f.2 (q.cmdAddr id q.head) (entrySize id q)
    let s := if qcls id < 2 then s else touchCtx s (.queue id)
    match qcls id with
    | 0 => .next (sqFetched s f.1 f.2)
    | 1 => .next (tileFetched s (qidx id) f.1 f.2)
    | 2 => .next (decFetched s id f.1 f.2)
    | 3 => .next (ustFetched s id f.1 f.2)
    | 4 => .next (salFetched s id f.1 f.2)
    | 5 => .next (stqFetched s id f.1 f.2)
    | _ => .next (ckpFetched s id f.1 f.2)
  else .next s

/-- Whether the oldest due completion of a queue may be written: on a transport queue entries follow ring order (R195),
and on the set-up queue they need ENABLE (R292). -/
def mayWriteEntry (s : State) (qid : Nat) : Bool :=
  let q := s.queue qid
  match q.due with
  | [] => false
  | d :: _ =>
    match qcls qid with
    | 0 => s.flag GLD_SQ_CTRL.ENABLE
    | 4 => q.cmds.all fun c => q.age c.entry < q.age d.entry
    | _ => true

/-- A completion entry is written. -/
def execCompletionWrite (qid : BitVec 24) (s : State) : Out := outHold s <|
  if mayWriteEntry s qid.toNat then .next (s.writeEntry qid.toNat) else .next s

/-! ### Doorbells (R289) -/

/-- A doorbell is refused: dropped, counted, and reported at most once per 1 ms for each of the instances. -/
def doorbellRefuse (s : State) (p i v : Nat) : State :=
  let s := s.bump GLD_DB_DROP.COUNT
  if s.mayRaise (rateKey 5 i) then
    (s.noteRaised (rateKey 5 i)).raise 0x0D01 (unitId 0 0) (s.gladeOf i) i 0
      (i + 2 ^ 16 * (v % 2 ^ 24) + 2 ^ 40 * b2n (p != s.homePort i))
  else s

/-- A posted request to BAR0 or BAR2 of a port (R258, R263): a function in D3hot, and a peer root, which has neither, answer it with
Unsupported Request. -/
def onFunction (s : State) (p : Nat) (o : Out) : Out :=
  if (s.port p).d3hot || s.flag HEP_PORT_STAT.ROLE p then .next (unsupported s p 0 true) else o

/-- A BAR2 write to a page with no instance is dropped and counted (R263). -/
def bar2Drop (s : State) (p : Nat) : State := s.bump HEP_CNT.COUNT (8 * p + 7)

/-- Whether a queue doorbell of an instance is accepted: on its home port, for a queue that it owns. -/
def doorbellOk (s : State) (p i qid : Nat) : Bool :=
  p == s.homePort i && 1 ≤ qcls qid && s.queueExists qid && (s.queue qid).inst == i

/-- A tail doorbell: the queue's new tail; commands for a tile that is out of service complete at once (R135). -/
def execDoorbellTail (p : Fin 2) (i : Fin 4096) (v : Word) (s : State) : Out := onFunction s p <|
  let qid := bitsOf v.toNat 0 24
  if !s.flag GLD_INST.VALID i then .next (bar2Drop s p)
  else if bitsOf v.toNat 24 8 ≠ 0 || bitsOf v.toNat 48 16 ≠ 0 || !doorbellOk s p i qid then .next (doorbellRefuse s p i v.toNat)
  else
    let s := recordTail s qid (bitsOf v.toNat 32 16)
    if qcls qid = 1 && s.tileOut (qidx qid / 8) then .next (completeRing s qid 0x83 Tf.lost) else .next s

/-- RESUME: a HALTED queue is ACTIVE again; storage and checkpoint queues have no HALTED state. -/
def queueResume (s : State) (qid : Nat) : State :=
  let q := s.queue qid
  if qcls qid = 1 then tileResume s (qidx qid)
  else if q.state = .halted then s.setQueue qid { q with state := .active } else s

/-- A control doorbell: 1 queue reset, 2 RESUME, anything else refused. -/
def controlDoorbell (s : State) (p i v : Nat) : State :=
  let qid := bitsOf v 0 24
  let act := bitsOf v 32 32
  if !s.flag GLD_INST.VALID i then bar2Drop s p
  else if bitsOf v 24 8 ≠ 0 || (act ≠ 1 && act ≠ 2) || !doorbellOk s p i qid then doorbellRefuse s p i v
  else if act = 1 then queueReset s qid St.abortedQueueReset
  else queueResume s qid

/-- The control doorbell with action 1. -/
def execQueueResetDoorbell (p : Fin 2) (i : Fin 4096) (v : Word) (s : State) : Out := onFunction s p <|
  .next (controlDoorbell s p i (putBits v.toNat 32 4 1))

/-- The control doorbell with action 2. -/
def execResumeDoorbell (p : Fin 2) (i : Fin 4096) (v : Word) (s : State) : Out := onFunction s p <|
  .next (controlDoorbell s p i (putBits v.toNat 32 4 2))

/-- The event-ring head doorbell: only for a ring filtered to the page's owner. -/
def execEvrHeadDoorbell (p : Fin 2) (i : Fin 4096) (v : Word) (s : State) : Out := onFunction s p <|
  let r := bitsOf v.toNat 0 6
  if !s.flag GLD_INST.VALID i then .next (bar2Drop s p)
  else if bitsOf v.toNat 6 10 ≠ 0 || bitsOf v.toNat 32 32 ≠ 0 || p.val ≠ s.homePort i || !s.flag HEP_EVR_CFG.INST_FILT r
      || s.rd HEP_EVR_CFG.INST r ≠ i.val then .next (doorbellRefuse s p i v.toNat)
  else .next (evrHead s r (bitsOf v.toNat 16 16))

/-- A BAR2 write that rings no doorbell: offsets without one are counted in GLD_DB_DROP, and every other bad write in
HEP_CNT. -/
def execBar2BadWrite (p : Fin 2) (i : Fin 4096) (off : BitVec 12) (aligned64 : Bool) (s : State) : Out := onFunction s p <|
  if s.flag GLD_INST.VALID i && aligned64 && off.toNat % 8 = 0 then
    if 0x18 ≤ off.toNat then .next (s.bump GLD_DB_DROP.COUNT) else .next s
  else .next (bar2Drop s p)

/-! ### Instance resets and removals (R287, R288, R290) -/

/-- The tile queues of an owner. -/
def tileQueuesOf (s : State) (i : Nat) : List Nat := below 512 fun q => s.rd TILE_QCTRL.OWNER q == i

/-- The queues of classes 2 to 6 of an owner. -/
def queuesOf (s : State) (i : Nat) : List Nat :=
  (s.queues.filter fun q => 2 ≤ qcls q.1 && q.2.valid && q.2.inst == i).map (·.1)

/-- Add 1 to a generation, modulo 2^16. -/
def nextGen (s : State) (i : Nat) : State := s.wr GLD_INST.GEN i ((s.genOf i + 1) % 65536)

/-- An instance reset: its queues, its decode streams, then its generation. -/
def instReset (s : State) (i : Nat) : State :=
  let s := (((tileQueuesOf s i).map tileQid) ++ queuesOf s i).foldl (fun s q => queueClear s q St.abortedInstanceReset) s
  nextGen (closeStreams s i) i

/-- Show the number of storage queues in STQ_STATUS (R318). -/
def showStq (s : State) : State :=
  s.wr STQ_STATUS.QUEUES 0 (s.queues.filter fun q => qcls q.1 == 5 && q.2.valid).length

/-- A queue is removed (R172, R282): its context entries, its domain and its number are free, and waits on its count end. -/
def queueDelete (s : State) (qid : Nat) : State :=
  let q := s.queue qid
  let g := s.gladeOf q.inst
  let s := give s .ctx g (if qcls qid = 5 then 32 else 1)
  let s := if qcls qid = 4 then pdRelease s q.pd else s
  let s :=
    if qcls qid = 5 then
      let s := (give s .stq g 1).wr GLD_INST.STQ q.inst (s.rd GLD_INST.STQ q.inst - 1)
      { s with stq := { s.stq with dirty := Tab.set [] s.stq.dirty (qidx qid) [] } }
    else s
  let s := showStq (s.setQueue qid {})
  let s := dropCtx s fun k => match k with
    | .queue q => q == qid
    | .tag q _ => q == qid
    | _ => false
  endWaits (s.dropWait (.queue qid)) (· == .count qid)

/-- Remove an instance: reset, its queues deleted, its tile queues left without an owner. -/
def instDestroy (s : State) (i : Nat) : State :=
  let tq := tileQueuesOf s i
  let g := s.gladeOf i
  let s := instReset s i
  let s := (queuesOf s i).foldl queueDelete s
  let s := tq.foldl
    (fun s q =>
      let s := s.wrs q [(TILE_QCTRL.ENABLE, 0), (TILE_QCTRL.OWNER, 0)]
      s.setQueue (tileQid q) { s.queue (tileQid q) with state := .disabled }) s
  let s := s.wrs i [(GLD_INST.VALID, 0), (GLD_INST.PORT, 0), (GLD_INST.PASID_EN, 0), (GLD_INST.GLADE, 0), (GLD_INST.PASID, 0)]
  give s .instances g 1

/-- The members of a glade. -/
def instancesOf (s : State) (g : Nat) : List Nat :=
  (listed s 0x1A10000 8 4096).filter fun i => s.flag GLD_INST.VALID i && s.rd GLD_INST.GLADE i == g

/-- Program slots of a glade that are not EMPTY. -/
def slotsOf (s : State) (g : Nat) : List Nat :=
  below 64 fun k => s.rd CPU_OFL_A.STATE k != 0 && s.rd CPU_OFL_A.GLADE k == g

/-- A glade reset. -/
def gladeReset (s : State) (g : Nat) : State :=
  let s := (instancesOf s g).foldl instReset s
  let s := ((slotsOf s g).filter fun k => s.rd CPU_OFL_A.STATE k == 2).foldl
    (fun s k => (slotHalt s k).wr CPU_OFL_A.STATE k 3) s
  schGladeReset s g

/-- An offload operation is in progress on a slot of a glade (R413): a set-up command on the glade waits for it. -/
def offloadBusy (s : State) (g : Nat) : Bool :=
  match s.cpu.ofl with
  | some (_, slot) => s.rd CPU_OFL_A.GLADE slot == g
  | none => false

/-- Whether a glade still holds something that keeps it from being destroyed. -/
def gladeHolds (s : State) (g : Nat) : Bool :=
  !(instancesOf s g).isEmpty
    || ((List.range 1024).any fun i => s.flag MEM_RGN_A.VALID i && s.rd MEM_RGN_A.GLADE i == g)
    || ((listed s 0x13D0000 8 4096).any fun p => s.flag FAB_SAL_PD.VALID p && s.rd FAB_SAL_PD.GLADE p == g)
    || ((List.range 64).any fun n => s.flag TILE_CFG.ASSIGNED n && s.rd TILE_CFG.GLADE n == g)
    || ((List.range 256).any fun b => s.flag UST_CTR_BLK.GRANTED b && s.rd UST_CTR_BLK.GLADE b == g)
    || ((List.range 256).any fun w => s.flag HEP_WIN_A.VALID w && s.rd HEP_WIN_A.GLADE w == g)
    || ((List.range 64).any fun u => s.flag UST_GRP_A.VALID u && s.rd UST_GRP_A.GLADE u == g)
    || !(slotsOf s g).isEmpty || offloadBusy s g

/-- Remove an empty glade: a key command that runs for it finishes first, then its last metering record, its keys and its
quotas; the debug port locks again if its scope was the glade (R333, R340, R341, R442, R458). -/
def gladeDestroy (s : State) (g : Nat) : State :=
  let s := if s.sec.keyOp.any (·.glade == g) then keyEnd s else s
  let s := eraseGladeKeys (mtrFinal s g) g
  let s := { s with sec := { s.sec with debugged := s.sec.debugged.filter (· != g) } }
  let s := if s.rd TRL_STATUS.LOCK = 1 && s.rd TRL_STATUS.GLADE = g then trailRelock s else s
  refreshPools (((s.setReg (GLD_QUOTA_A.EXISTS.addr g) 0).setReg (GLD_QUOTA_B.CTX.addr g) 0))

/-! ### Set-up commands (R285) -/

/-- The set-up command that runs now, if its opcode is `op`. -/
def setupCmd (s : State) (op : Nat) : Option Cmd :=
  match (s.queue 0).first with
  | some c => if leAt c.bytes 0 1 = op && !c.started then some c else none
  | none => none

/-- Run the set-up command of an opcode: the effect gives the state, the status and RESULT. -/
def onSetup (s : State) (op : Nat) (f : State → List Byte → State × Nat × Nat) : State :=
  match setupCmd s op with
  | some c =>
    let r := f s c.bytes
    sqEnd r.1 c r.2.1 r.2.2
  | none => s

/-- The quota words that a command names: its own, or the defaults. -/
def quotaWords (s : State) (l : List Byte) : Nat × Nat :=
  if bitOf (leAt l 9 1) 0 then
    ((s.reg (GLD_DEFAULT_A.INSTANCES.addr 0)).toNat % 2 ^ 46, (s.reg (GLD_DEFAULT_B.CTX.addr 0)).toNat % 2 ^ 50)
  else (leAt l 16 8, leAt l 24 8)

/-- A pool's part of the quota words. -/
def Pool.part (p : Pool) (w : Nat × Nat) : Nat :=
  match p with
  | .ctx | .keys | .stq => p.quota.of w.2
  | _ => p.quota.of w.1

/-- Whether the quotas of a glade may become these: each that rises must leave the pool whole (R282, R283). -/
def quotasFit (s : State) (g : Nat) (w : Nat × Nat) : Bool :=
  Pool.all.all fun p => p.part w ≤ poolQuota s p g || poolClaim s p - poolQuota s p g + p.part w ≤ poolSize s p

/-- Write the quotas of a glade. -/
def setQuotas (s : State) (g : Nat) (w : Nat × Nat) : State :=
  refreshPools (Pool.all.foldl (fun s p => s.wr p.quota g (p.part w)) s)

/-- GLADE_CREATE creates a glade with its quotas; its measurement reads as zero (R328). -/
def execGladeCreate (s : State) : Out :=
  .next (onSetup s 0x01 fun s l =>
    let g := leAt l 8 1
    let w := quotaWords s l
    if !s.gladeExists 0 then (s, St.notSupported, 0)
    else if s.gladeExists g then (s, Gc.existing, 0)
    else if !quotasFit s g w then (s, St.resourceExhausted, 0)
    else
      let s := (List.range 8).foldl (fun s k => s.wr SEC_GLADE_MEAS.BYTES (8 * g + k) 0) s
      (setQuotas (s.wr GLD_QUOTA_A.EXISTS g 1) g w, St.success, g))

/-- GLADE_QUOTA changes a glade's quotas, none below its use. -/
def execGladeQuota (s : State) : Out :=
  .next (onSetup s 0x02 fun s l =>
    let g := leAt l 8 1
    let w := quotaWords s l
    if !s.gladeExists g then (s, Gc.noSuch, 0)
    else if Pool.all.any fun p => p.part w < poolUse s p g && p.part w < poolQuota s p g then (s, Gc.inUse, 0)
    else if !quotasFit s g w then (s, St.resourceExhausted, 0)
    else (setQuotas s g w, St.success, g))

/-- GLADE_RESET resets every member and stops the offload programs; a LOAD in progress completes first. -/
def execGladeReset (s : State) : Out :=
  match setupCmd s 0x03 with
  | some c =>
    if s.gladeExists (leAt c.bytes 8 1) && offloadBusy s (leAt c.bytes 8 1) then .next s
    else
      .next (onSetup s 0x03 fun s l =>
        let g := leAt l 8 1
        if s.gladeExists g then (gladeReset s g, St.success, 0) else (s, Gc.noSuch, 0))
  | none => .next s

/-- A key command of a glade is in progress, and finishes before the glade is destroyed (R341). -/
def keyBusy (s : State) (g : Nat) : Bool :=
  match s.sec.keyOp with
  | some k => k.glade == g
  | none => false

/-- GLADE_DESTROY removes a glade that holds nothing. -/
def execGladeDestroy (s : State) : Out :=
  match setupCmd s 0x04 with
  | some c =>
    let g := leAt c.bytes 8 1
    if s.gladeExists g && !gladeHolds s g && keyBusy s g then .next s
    else
      .next (onSetup s 0x04 fun s _ =>
        if !s.gladeExists g then (s, Gc.noSuch, 0)
        else if gladeHolds s g then (s, Gc.inUse, 0)
        else (gladeDestroy s g, St.success, 0))
  | none => .next s

/-- INST_CREATE takes the lowest free number from 1. -/
def execInstCreate (s : State) : Out :=
  .next (onSetup s 0x05 fun s l =>
    let g := leAt l 8 1
    let p := b2n (bitOf (leAt l 9 1) 0)
    let pe := bitOf (leAt l 9 1) 1
    if !portHost s p || (pe && !(s.port p).pasidEn) then (s, St.badDescriptor, 0)
    else if !s.gladeExists g then (s, Gc.noSuch, 0)
    else if !mayTake s .instances g 1 then (s, St.resourceExhausted, 0)
    else
      match (List.range 4095).find? fun k => !s.flag GLD_INST.VALID (k + 1) with
      | none => (s, St.resourceExhausted, 0)
      | some k =>
        let i := k + 1
        let s := s.wrs i [(GLD_INST.VALID, 1), (GLD_INST.PORT, p), (GLD_INST.PASID_EN, b2n pe), (GLD_INST.GLADE, g),
          (GLD_INST.PASID, leAt l 12 4)]
        (take s .instances g 1, St.success, i + 2 ^ 16 * s.genOf i))

/-- INST_RESET. -/
def execInstReset (s : State) : Out :=
  .next (onSetup s 0x06 fun s l =>
    let i := leAt l 12 2
    if s.flag GLD_INST.VALID i then
      let s := instReset s i
      (s, St.success, s.genOf i)
    else (s, Gc.noSuch, 0))

/-- INST_DESTROY. -/
def execInstDestroy (s : State) : Out :=
  .next (onSetup s 0x07 fun s l =>
    let i := leAt l 12 2
    if s.flag GLD_INST.VALID i then
      let s := instDestroy s i
      (s, St.success, s.genOf i)
    else (s, Gc.noSuch, 0))

/-- The lowest free number of a class from `lo` on, below `hi`. -/
def freeQueue (s : State) (cls lo hi : Nat) : Option Nat :=
  let n := (s.queues.filter fun q => qcls q.1 == cls).length + 1
  match (List.range n).find? fun k => !(s.queue (mkQid cls (lo + k))).valid with
  | some k => if lo + k < hi then some (lo + k) else none
  | none => none

/-- The cluster with the fewest queues of a class, the lowest among equals. -/
def leastCluster (s : State) (cls : Nat) : Nat :=
  let n := fun c => (s.queues.filter fun q => qcls q.1 == cls && q.2.valid && q.2.home == c).length
  (List.range 16).foldl (fun best c => if n c < n best then c else best) 0

/-- QUEUE_CREATE (R141, R173, R194, R285, R297, R347): the queue is ACTIVE. -/
def queueCreate (s : State) (l : List Byte) : State × Nat × Nat :=
  let cls := leAt l 8 1
  let i := leAt l 12 2
  let g := s.gladeOf i
  let pd := leAt l 34 2
  let admin := bitOf (leAt l 40 1) 0
  let home := match cls with
    | 2 => leAt l 32 1
    | 5 => if leAt l 41 1 = 0xFF then leastCluster s 5 else leAt l 41 1
    | 6 => if leAt l 40 1 = 0xFF then leastCluster s 6 else leAt l 40 1
    | _ => 0
  let lo := if cls = 2 then 16 * home else 0
  let hi := if cls = 2 then lo + 16 else classSize cls
  if (cls = 3 && !s.feature 2) || (cls = 5 && !s.feature 6) || (cls = 6 && !s.feature 3) then (s, St.notSupported, 0)
  else if !s.flag GLD_INST.VALID i then (s, Gc.noSuch, 0)
  else if cls = 4 && !(s.flag FAB_SAL_PD.VALID pd && s.rd FAB_SAL_PD.GLADE pd == g) then (s, St.protectionFault, 0)
  else if !mayTakeCtx s g (if cls = 5 then 32 else 1) then (s, St.resourceExhausted, 0)
  else if cls = 5 && (!mayTake s .stq g 1 || 64 ≤ s.rd GLD_INST.STQ i
      || (admin && s.queues.any fun q => qcls q.1 == 5 && q.2.valid && q.2.inst == i && q.2.kind)) then
    (s, St.resourceExhausted, 0)
  else
    match freeQueue s cls lo hi with
    | none => (s, St.resourceExhausted, 0)
    | some k =>
      let q : Queue :=
        { valid := true, inst := i, host := bitOf (leAt l 9 1) 0, log2 := leAt l 10 1, prio := leAt l 11 1,
          vector := leAt l 14 2, base := leAt l 16 8, cbase := leAt l 24 8, home := home,
          kind := if cls = 4 then bitOf (leAt l 33 1) 0 else if cls = 5 then admin else false,
          pd := if cls = 4 then pd else 0, state := .active }
      let s := placeCtx (s.setQueue (mkQid cls k) q) (.queue (mkQid cls k))
      let s := take s .ctx g (if cls = 5 then 32 else 1)
      let s := if cls = 4 then pdUse s pd else s
      let s := if cls = 5 then showStq ((take s .stq g 1).wr GLD_INST.STQ i (s.rd GLD_INST.STQ i + 1)) else s
      (s, St.success, mkQid cls k)

/-- QUEUE_CREATE of the set-up queue. -/
def execQueueCreate (s : State) : Out := .next (onSetup s 0x08 queueCreate)

/-- A collective queue that a VALID group names. -/
def groupQueue (s : State) (qid : Nat) : Bool :=
  qcls qid == 3 && (List.range 64).any fun u => s.flag UST_GRP_A.VALID u && s.rd UST_GRP_A.QUEUE u == qidx qid

/-- QUEUE_DELETE (R290). -/
def queueRemove (s : State) (qid : Nat) : State × Nat × Nat :=
  if qcls qid < 2 || !s.queueExists qid then (s, Gc.noSuch, 0)
  else if groupQueue s qid then (s, Gc.inUse, 0)
  else (queueDelete (queueClear s qid St.abortedQueueReset) qid, St.success, 0)

/-- QUEUE_DELETE of the set-up queue. -/
def execQueueDelete (s : State) : Out := .next (onSetup s 0x09 fun s l => queueRemove s (leAt l 16 4))

/-- REG_CREATE (R190, R191, R285): the lowest index that is not VALID, under its current generation. -/
def execRegCreate (s : State) : Out :=
  .next (onSetup s 0x0A fun s l =>
    let pd := leAt l 32 2
    let g := s.rd FAB_SAL_PD.GLADE pd
    if !s.flag FAB_SAL_RKT_CFG.ENABLE then (s, St.notSupported, 0)
    else if !s.flag FAB_SAL_PD.VALID pd || !mayRegister s g (leAt l 16 8) (leAt l 24 8) then (s, St.protectionFault, 0)
    else
      match freeReg s with
      | none => (s, St.resourceExhausted, 0)
      | some i =>
        let e : RegEntry :=
          { base := leAt l 16 8, length := leAt l 24 8, pd := pd, rights := leAt l 34 1, gen := (s.regEntry i).gen,
            valid := true, glade := g }
        (pdUse (s.setRegEntry i e) pd, St.success, keyOf i e.gen))

/-- What is wrong with the key of a REG_REMOVE, as a status. -/
def keyStatus (s : State) (k : Nat) : Nat :=
  if rktSize s ≤ keyIndex k then St.badDescriptor
  else if !s.flag FAB_SAL_RKT_CFG.ENABLE || !(s.regEntry (keyIndex k)).valid || (s.regEntry (keyIndex k)).gen ≠ keyGen k then
    St.epochMismatch
  else St.success

/-- REG_REMOVE clears VALID and advances the generation; it completes once no access past its check is left (R191). -/
def execRegRemove (s : State) : Out :=
  match setupCmd s 0x0B with
  | none => .next s
  | some c =>
    let k := leAt c.bytes 16 4
    if keyStatus s k ≠ St.success then .next (sqEnd s c (keyStatus s k) 0)
    else
      let s := removeReg s (keyIndex k)
      if regBusy s (keyIndex k) then .next (s.setCmd 0 { c with started := true }) else .next (sqEnd s c St.success 0)

/-- Every access past the check of a removed registration has finished. -/
def execRegRemoveDrained (s : State) : Out :=
  match (s.queue 0).first with
  | some c =>
    if leAt c.bytes 0 1 = 0x0B && c.started && !regBusy s (keyIndex (leAt c.bytes 16 4)) then .next (sqEnd s c St.success 0)
    else .next s
  | none => .next s

/-! ### Storage's own set-up commands (R311) -/

/-- The set-up operands that an admin command carries, as a set-up command of an opcode. -/
def adminSetup (op : Nat) (l : List Byte) : List Byte :=
  bytesAt (toLe 1 op ++ toLe 7 0 ++ bytesAt l 24 40) 0 64

/-- Complete an admin command if its queue is still there. -/
def adminEnd (s : State) (q entry status result : Nat) : State :=
  if ((s.queue (stqQid q)).cmdAt entry).isSome then stqEnd s q entry status result else s

/-- The code that an admin queue gives for a result of a set-up command: one that only the set-up queue defines never appears here
(R11), and BAD_DESCRIPTOR stands for it (log entry 19, DESIGN CHOICE). -/
def adminCode (status : Nat) : Nat := if status < 0x80 then status else St.badDescriptor

/-- The admin command CREATE_QUEUE. -/
def execCreateQueue (q : Fin 8192) (s : State) : Out :=
  match adminCmd s q 0x87 with
  | none => .next s
  | some c =>
    let l := adminSetup 0x08 c.bytes
    if (s.queue (stqQid q)).inst ≠ 0 then .next (adminEnd s q c.entry St.protectionFault 0)
    else if !setupFieldsOk l || leAt l 8 1 ≠ 5 then .next (adminEnd s q c.entry St.badDescriptor 0)
    else
      let r := queueCreate s l
      .next (adminEnd r.1 q c.entry (adminCode r.2.1) r.2.2)

/-- The admin command DELETE_QUEUE. -/
def execDeleteQueue (q : Fin 8192) (s : State) : Out :=
  match adminCmd s q 0x88 with
  | none => .next s
  | some c =>
    let l := adminSetup 0x09 c.bytes
    if (s.queue (stqQid q)).inst ≠ 0 then .next (adminEnd s q c.entry St.protectionFault 0)
    else if !setupFieldsOk l || qcls (leAt l 16 4) ≠ 5 then .next (adminEnd s q c.entry St.badDescriptor 0)
    else
      let r := queueRemove s (leAt l 16 4)
      .next (adminEnd r.1 q c.entry (adminCode r.2.1) r.2.2)

/-! ### The set-up queue's registers and TILE_CFG (R282, R284, R295) -/

/-- The set-up queue is out of force: a command that is running finishes, but its entry is not written (R292). -/
def sqDisable (s : State) : State :=
  let s := s.wr GLD_SQ_CTRL.ENABLE 0 0
  let q := s.queue 0
  s.setQueue 0 { q with due := [], cmds := q.cmds.map fun c => { c with waiting := true } }

/-- A write to GLD_SQ_CTRL: setting ENABLE restarts HEAD, TAIL and PHASE. -/
def sqCtrlWrite (s : State) (v : Nat) : State :=
  let on := s.flag GLD_SQ_CTRL.ENABLE
  let s := s.wr GLD_SQ_CTRL.VECTOR 0 (GLD_SQ_CTRL.VECTOR.of v)
  let s := if on then s else s.wr GLD_SQ_CTRL.LOG2SIZE 0 (GLD_SQ_CTRL.LOG2SIZE.of v)
  let l := s.rd GLD_SQ_CTRL.LOG2SIZE
  if !bitOf v 0 then (if on then sqDisable s else s)
  else if on || l < 4 || 12 < l then s
  else
    let s := s.wr GLD_SQ_CTRL.ENABLE 0 1
    s.setQueue 0 { s.queue 0 with head := 0, tail := 0, phase := true, wpos := 0, due := [] }

/-- Setting GLD_SQ_CTRL.ENABLE. -/
def execSqEnable (v : Word) (s : State) : Out := unlessNoImage s <| .next (sqCtrlWrite s (putBits v.toNat 0 1 1))

/-- A write of GLD_SQ_TAIL. -/
def execSqTailWrite (v : Word) (s : State) : Out := unlessNoImage s <| .next (recordTail s 0 (bitsOf v.toNat 0 12))

/-- A write of TILE_CFG assigns a tile, within the glade's quota; its registrations go when it changes hands (R210). -/
def execTileCfgWrite (n : Fin 64) (v : Word) (s : State) : Out := onTile s n (TILE_CFG.GLADE.addr n) v.toNat <|
  let was := s.flag TILE_CFG.ASSIGNED n
  let old := s.rd TILE_CFG.GLADE n
  let enabled := (List.range 8).any fun q => s.flag TILE_QCTRL.ENABLE (8 * n.val + q)
  let g := if enabled then old else bitsOf v.toNat 0 8
  let want := bitOf v.toNat 8
  if was && want && g = old then .next s
  else
    let s := if was then give (removeRegsIn s (padAddr n 0) scratchLen) .tiles old 1 else s
    let s := s.wrs n [(TILE_CFG.GLADE, g), (TILE_CFG.ASSIGNED, 0)]
    if want && s.gladeExists g && mayTake s .tiles g 1 then .next ((take s .tiles g 1).wr TILE_CFG.ASSIGNED n 1) else .next s

end Sys2Proof.Machine
end

