-- ==== Sys2Proof/Machine/HostPort.lean ====
section
/-! DEFINITION. The host ports: requests and completions, resets of a port and its function, MSI-X, configuration writes and
event rings (R257 to R280, R65). Choices and readings of the model: log entries 10 and 26. -/
namespace Sys2Proof.Machine

open Sys2Proof

/-! ### Requests to the host (R264 to R267) -/

/-- Whether a port takes configuration writes now: its link is up, and it neither is in reset nor answers with retry. -/
def cfgOk (s : State) (p : Nat) : Bool :=
  let h := s.port p
  s.flag HEP_PORT_STAT.LINK_UP p && !h.inReset && !h.retry

/-- A waiting request is issued once a tag is free and the limit allows (R264). -/
def execHostReadIssue (p : Fin 2) (s : State) : Out :=
  let h := s.port p
  match h.waiting with
  | r :: rest =>
    if s.masterOn p && h.outstanding.length < tagLimit s p && (takeTag s p).isSome then
      .next ((s.setPort p { h with waiting := rest }).hostRequest p r)
    else .next s
  | [] => .next s

/-- The operation that owns a request fails with a status: its other requests are dropped, and those not yet issued never
are (R266). -/
def requestFailed (s : State) (p : Nat) (r : HostReq) (status : Nat) : State :=
  match r.owner with
  | none => s
  | some o =>
    let h := s.port p
    let s := s.setPort p
      { h with
        outstanding := h.outstanding.map fun x => if x.owner == some o then { x with dropped := true } else x,
        waiting := h.waiting.filter fun x => x.owner != some o }
    pullFailed s o.1 o.2 status

/-- Deliver data to the operation that owns a request. -/
def requestData (s : State) (p : Nat) (r : HostReq) (l : List Byte) : State :=
  match r.owner with
  | some o =>
    match ringOfCmd s o.1 o.2 with
    | some ri => pullLanded s ri p r.addr l
    | none => s
  | none => s

/-- A completion whose tag is not outstanding (R267): discarded, counted, logged, and reported at most once per 1 ms. -/
def unexpectedCpl (s : State) (p tag completer : Nat) : State :=
  let s := (s.bump HEP_CNT.COUNT (8 * p + 1)).logAer p .unexpectedCompletion
  let h := s.port p
  let n := h.discards + 1
  if s.mayRaise (rateKey 6 p) then
    let s := (s.setPort p { h with discards := 0 }).noteRaised (rateKey 6 p)
    s.raiseUnit 0x0C02 (unitId 0x9 p) (tag + 2 ^ 16 * completer + 2 ^ 32 * min n 0xFFFFFFFF)
  else s.setPort p { h with discards := n }

/-- A completion arrives: matched to its tag, whose data is used or dropped, or unexpected (R267, R268, R270). -/
def execHostCompletion (p : Fin 2) (tag : BitVec 14) (completer : BitVec 16) (reply : HostReply) (s : State) : Out := outHold s <|
  let h := s.port p
  match h.outstanding.find? fun r => r.tag == tag.toNat with
  | none => .next (unexpectedCpl s p tag.toNat completer.toNat)
  | some r =>
    match reply with
    | .timeout => .next s
    | reply =>
      let s := s.setPort p ({ h with outstanding := h.outstanding.filter fun x => x.tag != tag.toNat }.giveTag tag.toNat)
      let s := if reply = .poisoned then s.poisonRx p r.tag r.addr else s
      if r.dropped then .next (s.bump HEP_CNT.COUNT (8 * p.val + 6))
      else
        match reply with
        | .data l => .next (requestData s p r (bytesAt l 0 r.len))
        | .poisoned => .next (requestFailed s p r St.mediumError)
        | _ => .next (requestFailed s p r St.protectionFault)

/-- A request times out (R266). -/
def execCompletionTimeout (p : Fin 2) (tag : BitVec 14) (s : State) : Out :=
  let h := s.port p
  match h.outstanding.find? fun r => r.tag == tag.toNat with
  | none => .next s
  | some r =>
    let s := s.setPort p { h with outstanding := h.outstanding.filter fun x => x.tag != tag.toNat }
    let s := s.cplTimeout p r.tag r.addr r.silent
    if r.dropped then .next s else .next (requestFailed s p r St.hostReadTimeout)

/-- A quarantined tag becomes free (R266). -/
def execTagQuarantineExpire (p : Fin 2) (tag : BitVec 14) (s : State) : Out :=
  let h := s.port p
  if h.quarantine.contains tag.toNat then
    .next (s.setPort p ({ h with quarantine := h.quarantine.filter (· != tag.toNat) }.giveTag tag.toNat))
  else .next s

/-! ### Errors (R263, R270, R271) -/

/-- A host request that the device answers with Unsupported Request. -/
def execHostUnsupportedRequest (p : Fin 2) (tag : BitVec 14) (posted : Bool) (s : State) : Out :=
  .next (unsupported s p tag.toNat posted)

/-- A received poisoned posted write is dropped. -/
def execPoisonedWriteReceived (p : Fin 2) (s : State) : Out :=
  .next ((s.logAer p .poisonedTlp).bump HEP_CNT.COUNT (8 * p.val + 2))

/-- The errors that a received TLP or DLLP may show. -/
def rxError (h : HostPort) : AerErr → Bool
  | .receiver | .badTlp | .badDllp | .replayTimeout | .replayRollover | .headerOverflow => true
  | .dataLinkProtocol | .malformedTlp | .flowControl => true
  | .ecrc => h.ecrcCheck
  | _ => false

/-- A received TLP or DLLP fails a PCIe check. -/
def execTlpErrorReceived (p : Fin 2) (e : AerErr) (s : State) : Out :=
  if rxError (s.port p) e then .next (s.logAer p e) else .next s

/-! ### Host access off (R268, R287) -/

/-- Storage commands that still need host access: reads from a remote volume whose data is not yet delivered, and commands
with data in host memory that have not started. -/
def storageNeedsHost (c : Cmd) : Bool :=
  let op := leAt c.bytes 0 1
  (op == 1 || (op == 2 && !c.started)) && !bitOf (leAt c.bytes 1 1) 5

/-- The admin commands that need host memory: IDENTIFY, GET_LOG and FW_DOWNLOAD (R311). -/
def adminNeedsHost (c : Cmd) : Bool :=
  let op := leAt c.bytes 0 1
  op == 0x81 || op == 0x82 || op == 0x85

/-- The storage commands of an owner that still need host access fail. -/
def storageHostOff (s : State) (i : Nat) : State :=
  ((queuesOf s i).filter fun q => qcls q == 5).foldl
    (fun s q =>
      ((s.queue q).cmds.filter fun c => if (s.queue q).kind then adminNeedsHost c else storageNeedsHost c).foldl
        (fun s c => stqFinish s (qidx q) c.entry St.abortedHostAccessOff 0) s) s

/-- The image fetch of a LOAD fails (R62). -/
def loadFailed (s : State) (status : Nat) : State :=
  { s with fw := { s.fw with loading := none, started := false } }.wrs 0
    [(BOOT_FW_CMD.STATUS, status), (BOOT_FW_CMD.BUSY, 0), (BOOT_STATE.STATE, 6)]

/-- Every operation that still needs host access through a port fails (R268): outstanding requests time out in silence, and
those not yet issued never are. -/
def hostAccessOff (s : State) (p : Nat) : State :=
  let h := s.port p
  let owners := (h.outstanding.filter fun r => !r.dropped) ++ h.waiting
  let s := s.setPort p
    { h with outstanding := h.outstanding.map fun r => { r with dropped := true, silent := true }, waiting := [] }
  let s := owners.foldl
    (fun s r =>
      match r.owner with
      | some o => pullFailed s o.1 o.2 St.abortedHostAccessOff
      | none => s) s
  let s := (below 4096 fun i => s.flag GLD_INST.VALID i && s.homePort i == p).foldl storageHostOff s
  match s.fw.loading with
  | some (_, q) => if q = p then loadFailed s 4 else s
  | none => s

/-- Raise a record for some rings only. -/
def raiseInto (s : State) (e : EventRec) (due : List Nat) : State :=
  if due.isEmpty then (if (ringsFor s e.glade e.inst).isEmpty then (raiseCore s e).1 else s) else { s with events := s.events ++ [{ event := e, due := due }] }

/-- Bus Master Enable is cleared; HEP_BME_OFF goes to rings that it can reach. -/
def execBmeClear (p : Fin 2) (s : State) : Out :=
  if cfgOk s p && s.flag HEP_PORT_STAT.BME p then
    let n := (s.port p).outstanding.length
    let s := hostAccessOff (s.wr HEP_PORT_STAT.BME p 0) p
    let e : EventRec :=
      { type := 0x0C04, source := unitId 0x9 p, glade := 0, inst := 0, status := 0, gen := 0, time := s.now, payload := n }
    let due := (ringsFor s 0 0).filter fun r => !s.flag HEP_EVR_BASE.LOC r || s.rd HEP_EVR_CFG.PORT r != p.val
    .next (raiseInto s e due)
  else .next s

/-- Bus Master Enable is set; pending vectors whose last cause goes are sent (R272). -/
def execBmeSet (p : Fin 2) (s : State) : Out :=
  if cfgOk s p && !s.flag HEP_PORT_STAT.BME p then .next ((s.wr HEP_PORT_STAT.BME p 1).msixDrain p) else .next s

/-- The host clears PASID Enable: operations under a PASID through the port fail (R287). -/
def pasidOff (s : State) (p : Nat) : State :=
  let h := s.port p
  let mine := fun (r : HostReq) => r.pasid.isSome
  let owners := (h.outstanding.filter fun r => !r.dropped && mine r) ++ h.waiting.filter mine
  let s := s.setPort p
    { h with
      pasidEn := false,
      outstanding := h.outstanding.map fun r => if mine r then { r with dropped := true, silent := true } else r,
      waiting := h.waiting.filter fun r => !mine r }
  let s := owners.foldl
    (fun s r =>
      match r.owner with
      | some o => pullFailed s o.1 o.2 St.abortedHostAccessOff
      | none => s) s
  (below 4096 fun i => s.flag GLD_INST.VALID i && s.homePort i == p && (s.pasidOf i).isSome).foldl storageHostOff s

/-- PASID Enable is cleared. -/
def execPasidEnableClear (p : Fin 2) (s : State) : Out :=
  if cfgOk s p && (s.port p).pasidEn then .next (pasidOff s p) else .next s

/-! ### Resets of a port (R65, R66, R269) -/

/-- The owners homed on a port. -/
def homedOn (s : State) (p : Nat) : List Nat := below 4096 fun i => s.flag GLD_INST.VALID i && s.homePort i == p

/-- A reset that advances the generation first: the aborts are discarded by generation (R269, R278). -/
def instDiscard (s : State) (i : Nat) : State :=
  let s := nextGen s i
  let s := (((tileQueuesOf s i).map tileQid) ++ queuesOf s i).foldl (fun s q => queueClear s q St.abortedInstanceReset) s
  closeStreams s i

/-- The function of a port takes its reset values: configuration space with its AER, MSI-X and the Resizable BAR size; quarantined and
outstanding tags stay. -/
def functionReset (s : State) (p : Nat) : State :=
  let h := s.port p
  let s := s.setPort p
    { h with
      d3hot := false, pasidEn := false, msixEn := false, msixMask := false, unmasked := [], table := [], pba := [],
      mrrs := 512, aer := [], hdrLog := [], relaxed := true, ecrcCheck := false, bar4Log2 := h.bar4Reset, fatal := ({} : HostPort).fatal,
      retry := true }
  let s := s.wrs p [(HEP_PORT_STAT.BME, 0), (HEP_PORT_STAT.ATS_EN, 0), (HEP_PORT_STAT.TAGW, 0)]
  s.resetReg HEP_CPL_TO_CFG.RANGE p

/-- What a reset of a port's function does besides its configuration space: its owners, its event rings, and the set-up
queue when it is the mediator port. `kind` is 0 for a function-level reset, 1 hot, 2 fundamental. -/
def portLosses (s : State) (p kind : Nat) : State :=
  let insts := homedOn s p
  let s := if kind = 0 then hostAccessOff (insts.foldl instDiscard s) p else insts.foldl instDiscard (hostAccessOff s p)
  let s := (below 64 fun r => s.flag HEP_EVR_CFG.ENABLE r && s.rd HEP_EVR_CFG.PORT r == p).foldl evrDisable s
  let s := if p = s.medPort then sqDisable s else s
  s.raiseUnit 0x0C05 (unitId 0x9 p) (insts.length % 2 ^ 13 + 2 ^ 13 * kind)

/-- HEP_LINK_STATE, when the link's state changes (R277). -/
def setLink (s : State) (p : Nat) (up : Bool) (speed width : Nat) (flit : Bool) : State :=
  let speed := if up then speed else 0
  let width := if up then width else 0
  let flit := up && flit
  let same := s.flag HEP_PORT_STAT.LINK_UP p == up && s.rd HEP_PORT_STAT.SPEED p == speed
    && s.rd HEP_PORT_STAT.WIDTH p == width
  let s := s.wrs p [(HEP_PORT_STAT.LINK_UP, b2n up), (HEP_PORT_STAT.SPEED, speed), (HEP_PORT_STAT.WIDTH, width),
    (HEP_PORT_STAT.FLIT, b2n flit)]
  if same then s else s.raiseUnit 0x0C03 (unitId 0x9 p) (b2n up + speed * 2 + width * 2 ^ 4)

/-- Whether a port answers configuration requests normally (R48, R54). -/
def portAnswers (s : State) : Bool :=
  let st := s.rd BOOT_STATE.STATE
  6 ≤ st && st ≤ 9

/-- A fundamental or hot reset of a port (R65, R66): what is lost, the function, the port's own registers, and its link. Requests
outstanding then keep their tags, and OUTSTANDING, at its reset value, no longer counts them. -/
def portReset (s : State) (p kind : Nat) : State :=
  let s := functionReset (portLosses s p kind) p
  let s := ((s.wr HEP_PORT_STAT.FLR_BUSY p 0).resetReg HEP_PORT_CFG.MAX_OUT p)
  let s := setLink s p false 0 0 false
  let h := s.port p
  s.setPort p
    { h with
      retry := !portAnswers s, discards := 0, outstanding := h.outstanding.map fun r => { r with old := true } }

/-- A function-level reset is accepted (R269). -/
def execFlr (p : Fin 2) (s : State) : Out :=
  if cfgOk s p then .next ((functionReset (portLosses s p 0) p).wr HEP_PORT_STAT.FLR_BUSY p 1) else .next s

/-- A function-level reset ends. -/
def execFlrDone (p : Fin 2) (s : State) : Out :=
  if s.flag HEP_PORT_STAT.FLR_BUSY p then
    .next ((s.wr HEP_PORT_STAT.FLR_BUSY p 0).setPort p { s.port p with retry := !portAnswers s })
  else .next s

/-- A hot reset is received. -/
def execHotReset (p : Fin 2) (s : State) : Out := if (s.port p).inReset then .next s else .next (portReset s p 1)

/-- The data link goes down: handled as a hot reset. -/
def hostLinkLost (s : State) (p : Nat) : State := if s.flag HEP_PORT_STAT.LINK_UP p then portReset s p 1 else s

/-- DL_Down. -/
def execDlDown (p : Fin 2) (s : State) : Out := .next (hostLinkLost s p)

/-- The link comes up, or changes speed or width; a link that goes down is DL_Down. -/
def execLinkStateChange (p : Fin 2) (up : Bool) (speed : Fin 7) (width : Fin 17) (flit : Bool) (s : State) : Out :=
  let h := s.port p
  if !up then .next (hostLinkLost s p)
  else if h.inReset || !h.training || s.pins.hclkLost.contains p.val || h.maxSpeed < speed.val || h.maxWidth < width.val || speed.val = 0 || width.val = 0 then
    .next s
  else .next (setLink s p true speed width flit)

/-- A host-port buffer corrects an error, or holds one that it cannot correct, and then the port enters hot reset; the error shows in
AER after that reset (log entry 26, DEDUCED: a log that its own reset cleared would say nothing). -/
def execHostPortInternalError (p : Fin 2) (corrected : Bool) (s : State) : Out :=
  if corrected then .next (s.logAer p .correctedInternal)
  else .next ((portReset s p 1).logAer p .uncorrectableInternal)

/-! ### Configuration writes and MSI-X (R261, R264, R272) -/

/-- The upper value in µs of a completion timeout encoding (R266); PCIe gives the ranges (PRESUMED: log entry 26, unsafe). -/
def timeoutUpper (r : Nat) : Nat :=
  match r with
  | 1 => 100
  | 2 => 10000
  | 6 => 210000
  | 9 => 900000
  | 10 => 3500000
  | 13 => 13000000
  | 14 => 64000000
  | _ => 55000

/-- Whether a function has the capability that a configuration write is for: a peer root has no MSI-X, PASID or ATS (R258). -/
def capPresent (s : State) (p : Nat) : CfgWrite → Bool
  | .pasidEnable | .ats _ | .msixDisable | .functionMask | .vectorMask _ | .vectorEntry .. => portHost s p
  | .cplTimeout _ | .tagWidth _ | .readSize _ | .payloadSize _ | .relaxed _ | .ecrcCheck _ | .aerClear _ | .aerSeverity .. | .d0 =>
    true

/-- A configuration write that no other row names. -/
def cfgWrite (s : State) (p : Nat) (w : CfgWrite) : State :=
  let h := s.port p
  match w with
  | .cplTimeout r =>
    s.wrs p [(HEP_CPL_TO_CFG.RANGE, r.toNat), (HEP_CPL_TO_CFG.UPPER_US, timeoutUpper r.toNat),
      (HEP_CPL_TO_CFG.QUAR_US, 2 * timeoutUpper r.toNat)]
  | .tagWidth w => s.wr HEP_PORT_STAT.TAGW p w
  | .readSize k => s.setPort p { h with mrrs := 128 * 2 ^ k.val }
  | .payloadSize k => s.setPort p { h with mps := 128 * 2 ^ k.val }
  | .relaxed on => s.setPort p { h with relaxed := on }
  | .pasidEnable => s.setPort p { h with pasidEn := true }
  | .ats on => s.wr HEP_PORT_STAT.ATS_EN p (b2n on)
  | .ecrcCheck on => s.setPort p { h with ecrcCheck := on }
  | .msixDisable => s.setPort p { h with msixEn := false }
  | .functionMask => s.setPort p { h with msixMask := true }
  | .vectorMask v => s.setPort p { h with unmasked := h.unmasked.filter (· != v.val) }
  | .vectorEntry v a d => s.setPort p { h with table := Tab.set (0, 0) h.table v.val (a.toNat / 4 * 4, d.toNat) }
  | .aerClear e => s.setPort p { h with aer := h.aer.filter (· != e) }
  | .aerSeverity e f =>
    if e.correctable then s else
    s.setPort p { h with fatal := if f then (if h.fatal.contains e then h.fatal else e :: h.fatal) else h.fatal.filter (· != e) }
  | .d0 => s.setPort p { h with d3hot := false }

/-- A configuration write. -/
def execPcieConfigWrite (p : Fin 2) (w : CfgWrite) (s : State) : Out :=
  if cfgOk s p && capPresent s p w then .next (cfgWrite s p w) else .next s

/-- A mask of MSI-X is removed: a vector's, the function's, or MSI-X becomes enabled. -/
def execMsixUnmask (p : Fin 2) (v : Option (Fin 2048)) (enable : Bool) (s : State) : Out :=
  if cfgOk s p && portHost s p then
    let h := s.port p
    let s :=
      match v with
      | some k => s.setPort p { h with unmasked := if h.unmasked.contains k.val then h.unmasked else k.val :: h.unmasked }
      | none => if enable then s.setPort p { h with msixEn := true } else s.setPort p { h with msixMask := false }
    .next (s.msixDrain p)
  else .next s

/-! ### What configuration space shows (R260, R261) -/

/-- What a function identifies itself as (R260). -/
structure CfgIdentity where
  vendorId : Nat := 0x1F3E
  deviceId : Nat := 0x4160
  revisionId : Nat := 0xA1
  classCode : Nat := 0x120000
  subsystemVendorId : Nat
  subsystemId : Nat
  interruptPin : Nat := 0
  deriving DecidableEq, Repr

/-- The identity of a port's function; the subsystem identifiers are the record's (R259). -/
def cfgIdentity (s : State) (p : Nat) : CfgIdentity :=
  { subsystemVendorId := (s.port p).ssvid, subsystemId := (s.port p).ssid }

/-- What the capabilities of a function offer (R261, R272): sizes in bytes, the completion timeout ranges A to D as four bits, link speed
as R259 codes it, and what is 0 or false is not supported. -/
structure CfgCaps where
  pmeSupport : Nat := 0
  d1 : Bool := false
  d2 : Bool := false
  d3hot : Bool := true
  maxPayload : Nat := 512
  maxReadRequest : Nat := 4096
  extendedTag : Bool := true
  tenBitTagRequester : Bool := true
  tenBitTagCompleter : Bool := true
  fourteenBitTagRequester : Bool := true
  fourteenBitTagCompleter : Bool := true
  relaxedOrdering : Bool := true
  idBasedOrdering : Bool := true
  timeoutRanges : Nat := 0xF
  timeoutDisable : Bool := false
  functionLevelReset : Bool := true
  linkSpeed : Nat := 6
  linkWidth : Nat := 16
  flitMode : Bool := true
  msixVectors : Nat
  msixTable : Nat
  msixPba : Nat
  ecrcGeneration : Bool := true
  ecrcChecking : Bool := true
  deviceSerial : Nat
  bar4MinLog2Gib : Nat := 0
  bar4MaxLog2Gib : Nat := 8
  pasidWidth : Nat
  pasidExecute : Bool := false
  pasidPrivileged : Bool := false
  atsQueueDepth : Nat
  atsPageAligned : Bool
  deriving DecidableEq, Repr

/-- The capabilities of a port's function: a peer root presents no MSI-X, PASID and ATS (R258). -/
def cfgCaps (s : State) (p : Nat) : CfgCaps :=
  let host := portHost s p
  { msixVectors := if host then 2048 else 0, msixTable := 0x1810000 + 0x10000 * p, msixPba := 0x1818000 + 0x10000 * p,
    deviceSerial := leAt s.serial 0 8, pasidWidth := if host then 20 else 0, atsQueueDepth := if host then 32 else 0,
    atsPageAligned := host }

/-- The function enters D3hot. -/
def execD3hotEntry (p : Fin 2) (s : State) : Out :=
  if cfgOk s p then .next (s.setPort p { s.port p with d3hot := true }) else .next s

/-- BAR4 changes its size to 2^k GiB for later requests (R261, R278). -/
def execBar4Resize (p : Fin 2) (k : Fin 9) (s : State) : Out :=
  if cfgOk s p && (s.port p).bar4On then .next (s.setPort p { s.port p with bar4Log2 := k.val }) else .next s

/-! ### Event rings (R275, R276, R280) -/

/-- The oldest raised record is written to every ring that it is due for. -/
def execEventWrite (s : State) : Out :=
  match s.events with
  | [] => .next s
  | x :: rest => .next (x.due.foldl (fun s r => evrWrite s x.event r) { s with events := rest })

/-- A write to HEP_EVR_CFG: its other fields ignore it while ENABLE is 1. -/
def evrCfgWrite (s : State) (r v : Nat) : State :=
  let on := s.flag HEP_EVR_CFG.ENABLE r
  let s := if on then s else
    s.writeFields [HEP_EVR_CFG.LOG2SIZE, HEP_EVR_CFG.PORT, HEP_EVR_CFG.USE_PASID, HEP_EVR_CFG.PASID, HEP_EVR_CFG.GLADE_FILT,
      HEP_EVR_CFG.GLADE, HEP_EVR_CFG.INST_FILT, HEP_EVR_CFG.INST, HEP_EVR_CFG.VECTOR] r v
  let l := s.rd HEP_EVR_CFG.LOG2SIZE r
  if !bitOf v 0 then (if on then evrDisable s r else s)
  else if on then s
  else if 6 ≤ l && l ≤ 16 && portHost s (s.rd HEP_EVR_CFG.PORT r)
      && ringPlaced s (s.flag HEP_EVR_BASE.LOC r) (s.rd HEP_EVR_BASE.ADDR r * 64) (32 * evrSize s r) then
    evrEnable s r
  else s

/-- Setting HEP_EVR_CFG.ENABLE. -/
def execEvrEnable (r : Fin 64) (v : Word) (s : State) : Out := unlessNoImage s <| .next (evrCfgWrite s r (putBits v.toNat 0 1 1))

/-- A write of HEP_EVR_HEAD. -/
def execEvrHeadWrite (r : Fin 64) (v : BitVec 16) (s : State) : Out := unlessNoImage s <| .next (evrHead s r v.toNat)

/-- A ring's holdoff ends: one message covers what was written during it. -/
def execEvrHoldoffExpire (r : Fin 64) (s : State) : Out :=
  let x := s.evrOf r
  if x.held then
    let s := s.setEvr r { x with held := false, lastMsg := some s.now }
    .next (s.msix (s.rd HEP_EVR_CFG.PORT r) (s.rd HEP_EVR_CFG.VECTOR r))
  else .next s

end Sys2Proof.Machine
end

