-- ==== Sys2Proof/Machine/Lyras.lean ====
section
/-! DEFINITION. The Lyras configuration image (R49 to R59): the structure of a copy, the format of each section, and when a
copy or a repair log slot is valid. Choices and readings of the model: log entry 41. -/
namespace Sys2Proof.Machine

open Sys2Proof

/-- A word has no bit outside some fields of its register. -/
def onlyFields (l : List Fld) (v : Nat) : Bool := v == l.foldl (fun w f => putBits w f.lsb f.width (f.of v)) 0

/-- No number of a list appears twice. -/
def distinct (l : List Nat) : Bool := (dedup (sortNat l)).length == l.length

/-! ### Header and directory (R50, R51) -/

/-- Section count, generation and total length that a header gives. -/
def lyCount (c : List Byte) : Nat := leAt c 6 2
def lyGen (c : List Byte) : Nat := leAt c 8 4
def lyTotal (c : List Byte) : Nat := leAt c 12 4

/-- The header's fields hold their stated values (R50). -/
def lyHeaderOk (c : List Byte) : Bool :=
  leAt c 0 4 == 0x5352594C && leAt c 4 2 == 1 && 1 ≤ lyCount c && lyCount c ≤ 32 && lyTotal c % 8 == 0
    && 256 ≤ lyTotal c && lyTotal c ≤ 0x100000 && leAt c 16 2 == 0x4160 && leAt c 18 1 == 0xA1 && zeroAt c 19 5
    && zeroAt c 56 8

/-- A directory entry: type, CRITICAL, offset, length (R51). -/
structure LySection where
  type : Nat
  critical : Bool
  off : Nat
  len : Nat
  deriving DecidableEq, Repr

/-- The directory of a copy. -/
def lySections (c : List Byte) : List LySection :=
  (List.range (lyCount c)).map fun k =>
    { type := leAt c (64 + 16 * k) 2, critical := bitOf (leAt c (66 + 16 * k) 2) 0, off := leAt c (68 + 16 * k) 4,
      len := leAt c (72 + 16 * k) 4 }

/-- The bytes of the section of a type, if the copy has one. -/
def lySection (c : List Byte) (type : Nat) : Option (List Byte) :=
  ((lySections c).find? fun x => x.type == type).map fun x => bytesAt c x.off x.len

/-- The directory is sound (R51, R52): entries hold their stated values, sections lie inside the copy and apart from each
other, the directory, the header and the signature, no type appears twice, no required one is missing, and no unknown one is
critical. -/
def lyDirectoryOk (c : List Byte) : Bool :=
  let n := lyCount c
  let l := lySections c
  ((List.range n).all fun k => leAt c (66 + 16 * k) 2 < 2 && zeroAt c (76 + 16 * k) 4)
    && (l.all fun x => x.off % 8 == 0 && 64 + 16 * n ≤ x.off && x.off + x.len + 132 ≤ lyTotal c)
    && allApart (l.map fun x => (x.off, x.len)) && distinct (l.map (·.type))
    && ([1, 2, 7].all fun t => l.any fun x => x.type == t)
    && (l.all fun x => (1 ≤ x.type && x.type ≤ 9) || !x.critical)

/-! ### Sections -/

/-- Boot options (R55). -/
def bootOptionsOk (b : List Byte) : Bool := b.length == 8 && leAt b 0 1 ≤ 2 && leAt b 1 1 < 4 && zeroAt b 2 6

/-- The records of the pin and link settings as kind and bytes, if they exactly fill the section (R238). -/
def linkRecords : Nat → List Byte → Option (List (Nat × List Byte))
  | _, [] => some []
  | 0, _ => none
  | fuel + 1, b =>
    let n := leAt b 2 2
    if n < 8 || n % 8 ≠ 0 || b.length < n then none
    else (linkRecords fuel (b.drop n)).map fun l => (leAt b 0 2, b.take n) :: l

/-- A host port record (R259). -/
def hostRecordOk (b : List Byte) : Bool :=
  let role := leAt b 5 1
  b.length == 16 && leAt b 4 1 ≤ 1 && role ≤ 1 && (leAt b 4 1 == 1 || role == 0)
    && [1, 2, 4, 8, 16].contains (leAt b 6 1) && 1 ≤ leAt b 7 1 && leAt b 7 1 ≤ 6 && leAt b 8 1 < 4
    && !(role == 1 && bitOf (leAt b 8 1) 1) && leAt b 9 1 ≤ 8 && zeroAt b 14 2

/-- The fields of FAB_CFG. -/
def fabCfgFields : List Fld :=
  [FAB_CFG.IPV6, FAB_CFG.VLAN_EN, FAB_CFG.VID, FAB_CFG.PCP, FAB_CFG.DSCP, FAB_CFG.UDP_PORT, FAB_CFG.HOP_LIMIT]

/-- A fabric record (R238). -/
def fabricRecordOk (b : List Byte) : Bool :=
  b.length == 32 && leAt b 6 1 < 2 && zeroAt b 7 1 && onlyFields fabCfgFields (leAt b 8 8)
    && FAB_CFG.HOP_LIMIT.of (leAt b 8 8) != 0

/-- A data port record (R238). -/
def portRecordOk (b : List Byte) : Bool :=
  b.length == 24 && leAt b 4 1 < 16 && leAt b 5 1 < 2 && 1280 ≤ leAt b 6 2 && leAt b 6 2 ≤ 9216 && zeroAt b 14 2
    && zeroAt b 22 2

/-- The records of a kind. -/
def ofKind (l : List (Nat × List Byte)) (k : Nat) : List (List Byte) := (l.filter fun r => r.1 == k).map (·.2)

/-- Pin and link settings (R238, R259). -/
def linkSettingsOk (b : List Byte) : Bool :=
  match linkRecords b.length b with
  | none => false
  | some l =>
    let hosts := ofKind l 0x0101
    let ports := ofKind l 0x0202
    (hosts.all hostRecordOk) && ((ofKind l 0x0201).all fabricRecordOk) && (ports.all portRecordOk)
      && (ofKind l 0x0201).length == 1 && distinct (hosts.map fun r => leAt r 4 1)
      && distinct (ports.map fun r => leAt r 4 1) && (hosts.any fun r => leAt r 4 1 == 0)
      && (hosts.filter fun r => bitOf (leAt r 8 1) 1).length == 1

/-- Glade pool defaults (R291). -/
def poolDefaultsOk (b : List Byte) : Bool :=
  b.length == 24 && leAt b 0 1 == 1 && zeroAt b 1 7
    && onlyFields [GLD_DEFAULT_A.INSTANCES, GLD_DEFAULT_A.TILES, GLD_DEFAULT_A.CORES, GLD_DEFAULT_A.DRAM] (leAt b 8 8)
    && onlyFields [GLD_DEFAULT_B.CTX, GLD_DEFAULT_B.KEYS, GLD_DEFAULT_B.STQ] (leAt b 16 8)

/-- Twin pairing (R378). A grant word lies in DRAM: its offset is below what a full device holds. -/
def twinSectionOk (b : List Byte) : Bool :=
  let n := leAt b 4 1
  (n == 0 || n == 1 || n == 3) && b.length == 16 + 16 * n && leAt b 0 1 == 1 && leAt b 1 1 < 4 && leAt b 5 1 != 0
    && leAt b 6 1 != 0 && zeroAt b 7 1 && zeroAt b 10 6
    && ((List.range n).all fun w =>
      let a := leAt b (16 + 16 * w) 8
      a < 2 ^ 56 && a % 8 == 0 && a % 2 ^ 40 < 0x2800000000 && zeroAt b (28 + 16 * w) 4)

/-- An Understory group record (R182, R184). -/
def groupRecordOk (r : List Byte) : Bool :=
  let a := leAt r 8 8
  let b := leAt r 16 8
  let n := UST_GRP_A.MEMBERS.of a
  let tree := UST_GRP_A.TOPO.of a == 1
  leAt r 0 1 < 64 && zeroAt r 1 7
    && onlyFields [UST_GRP_A.VALID, UST_GRP_A.TOPO, UST_GRP_A.GLADE, UST_GRP_A.MEMBERS, UST_GRP_A.SELF, UST_GRP_A.GEN,
        UST_GRP_A.QUEUE] a
    && onlyFields [UST_GRP_B.PREV, UST_GRP_B.PREV_VALID, UST_GRP_B.NEXT, UST_GRP_B.NEXT_VALID, UST_GRP_B.CHILDREN,
        UST_GRP_B.ALERT_CTR, UST_GRP_B.ALERT_EN] b
    && 1 ≤ n && n ≤ 64 && UST_GRP_A.SELF.of a < n
    && (if tree then UST_GRP_B.NEXT.of b == 0 && UST_GRP_B.NEXT_VALID.of b == 0
        else UST_GRP_B.CHILDREN.of b == 0 && (n < 2 || UST_GRP_B.NEXT_VALID.of b == 1))
    && (UST_GRP_B.PREV_VALID.of b == 0 || (2 ≤ n && !(tree && UST_GRP_A.SELF.of a == 0)))

/-- The link and group records of an Understory topology section. -/
def ustLinks (b : List Byte) : List (List Byte) := (List.range (leAt b 1 1)).map fun i => bytesAt b (8 + 8 * i) 8
def ustGroupRecs (b : List Byte) : List (List Byte) :=
  (List.range (leAt b 2 1)).map fun i => bytesAt b (8 + 8 * leAt b 1 1 + 24 * i) 24

/-- Understory topology (R182). -/
def ustSectionOk (b : List Byte) : Bool :=
  let links := ustLinks b
  let groups := ustGroupRecs b
  leAt b 0 1 == 1 && leAt b 1 1 ≤ 8 && leAt b 2 1 ≤ 64 && leAt b 3 1 < 2 && zeroAt b 4 4
    && b.length == 8 + 8 * leAt b 1 1 + 24 * leAt b 2 1
    && (links.all fun r => leAt r 0 1 < 8 && leAt r 4 1 < 2 && zeroAt r 5 3)
    && distinct (links.map fun r => leAt r 0 1)
    && ((List.range 8).all fun u => (links.filter fun r => bitOf (leAt r 1 1) u).length ≤ 1)
    && (groups.all groupRecordOk) && distinct (groups.map fun r => leAt r 0 1)

/-- Crossing modes (R450). -/
def crossingSectionOk (b : List Byte) : Bool :=
  b.length == 8 && leAt b 0 1 == 1 && leAt b 1 1 < 16 && leAt b 2 1 < 2 && zeroAt b 3 5

/-- Whether two numbers enclose a third. -/
def within (lo x hi : Nat) : Bool := lo ≤ x && x ≤ hi

/-- Thermal and power limits (R430). -/
def powerSectionOk (b : List Byte) : Bool :=
  let warn := leAt b 8 1
  let throttle := leAt b 9 1
  b.length == 24 && leAt b 0 1 == 1 && leAt b 1 1 < 2 && within 100 (leAt b 2 2) 450
    && within (leAt b 2 2) (leAt b 4 2) 480 && within 10 (leAt b 6 2) 10000 && within 70 warn 95
    && within (warn + 3) throttle 100 && within (throttle + 3) (leAt b 10 1) 105 && within 1 (leAt b 11 1) 10
    && within 1 (leAt b 12 1) 16 && within 1 (leAt b 13 1) 16 && within 4 (leAt b 14 1) 16 && zeroAt b 15 9

/-- Spare enablement (R59). -/
def sparesSectionOk (b : List Byte) : Bool :=
  b.length == 8 && leAt b 0 1 ≤ 2 && leAt b 1 1 ≤ 2 && leAt b 2 1 ≤ 2 && zeroAt b 3 5

/-! ### Repair records (R57) -/

/-- The records of a list of bytes. -/
def repairRecords (b : List Byte) : List (List Byte) := (List.range (b.length / 16)).map fun i => bytesAt b (16 * i) 16

/-- The repair map section. -/
def repairSectionOk (b : List Byte) : Bool := b.length % 16 == 0 && (repairRecords b).all repairRecordOk

/-- A section is absent or passes its check. -/
def sectionOk (c : List Byte) (type : Nat) (p : List Byte → Bool) : Bool :=
  match lySection c type with
  | some b => p b
  | none => true

/-- Every section keeps its format (R52). -/
def lySectionsOk (c : List Byte) : Bool :=
  sectionOk c 1 bootOptionsOk && sectionOk c 2 linkSettingsOk && sectionOk c 3 poolDefaultsOk
    && sectionOk c 4 twinSectionOk && sectionOk c 5 ustSectionOk && sectionOk c 6 crossingSectionOk
    && sectionOk c 7 powerSectionOk && sectionOk c 8 repairSectionOk && sectionOk c 9 sparesSectionOk

/-! ### Signatures (R51, R58, R321, R322) -/

/-- The keys under which a copy may verify: the root key, and owner keys with the configuration bit. -/
def lyKeys (s : State) : List (List Byte) :=
  Config.vendorRootKey :: (s.sec.owners.filter fun o => bitOf o.2 0).map (·.1)

/-- The key that a copy's signer key identifier selects. -/
def lyKey (s : State) (c : List Byte) : Option (List Byte) := (lyKeys s).find? fun k => keyIdent k == bytesAt c 24 32

/-- The signature of a copy verifies. -/
def lySigned (s : State) (c : List Byte) : Bool :=
  match lyKey s c with
  | some k => Config.ecdsaVerify k (bytesAt c 0 (lyTotal c - 132)) (bytesAt c (lyTotal c - 132) 132)
  | none => false

/-- A copy whose header is valid is valid in full (R52). -/
def lyValid (s : State) (c : List Byte) : Bool :=
  lyDirectoryOk c && lySectionsOk (bytesAt c 0 (lyTotal c)) && lySigned s c

/-- The copies to try, in order (R53): their number, 0 for A, and their bytes. -/
def lyOrder (a b : List Byte) : List (Nat × List Byte) :=
  let l := if lyGen a < lyGen b && lyHeaderOk b then [(1, b), (0, a)] else [(0, a), (1, b)]
  l.filter fun c => lyHeaderOk c.2

/-- The record count of a repair log slot. -/
def slotCount (b : List Byte) : Nat := leAt b 8 4

/-- The records of a slot. -/
def slotRecords (b : List Byte) : List (List Byte) := (List.range (slotCount b)).map fun i => bytesAt b (32 + 16 * i) 16

/-- A repair log slot is valid (R58). -/
def slotOk (s : State) (b : List Byte) : Bool :=
  leAt b 0 4 == 0x474C5052 && slotCount b ≤ logMax && zeroAt b 12 20 && (slotRecords b).all repairRecordOk
    && Config.ecdsaVerify (Config.publicKey s.idKey) (bytesAt b 0 (32 + 16 * slotCount b)) (bytesAt b (65536 - 132) 132)

/-- The owner keys of an owner record with their usage bytes, if the record is good (R321). -/
def ownerKeys (s : State) (b : List Byte) : Option (List (List Byte × Nat)) :=
  let n := leAt b 4 1
  let keys := (List.range n).map fun k => (bytesAt b (16 + 144 * k) 133, leAt b (149 + 144 * k) 1)
  if leAt b 0 4 = 0x524E574F && n ≤ 8 && zeroAt b 5 3 && (zeroAt b 8 8 || bytesAt b 8 8 = s.serial)
      && ((List.range n).all fun k => leAt b (149 + 144 * k) 1 < 4 && zeroAt b (150 + 144 * k) 10)
      && Config.ecdsaVerify Config.vendorRootKey (bytesAt b 0 (16 + 144 * n)) (bytesAt b (16 + 144 * n) 132) then
    some keys
  else none

end Sys2Proof.Machine
end

