-- ==== Sys2Proof/Machine/Memory.lean ====
section
/-! DEFINITION. The DRAM stacks (R69 to R93): codeword reads and writes, scrub, row sparing, bank fencing, refresh, the layout
and the region table. Choices and readings of the model: log entries 6, 27 and 40. -/
namespace Sys2Proof.Machine

open Sys2Proof

/-! ### Decoding a codeword (R74) -/

/-- Erasure positions listed for a channel. -/
def erasures (s : State) (ch : Nat) : Nat := countTrue [s.flag MEM_ERASE.VALID0 ch, s.flag MEM_ERASE.VALID1 ch]

/-- Symbol errors that the decoder of a channel corrects besides the erasures. -/
def corrCap (s : State) (ch : Nat) : Nat := if erasures s ch = 0 && !s.flag MEM_LAYOUT.CORR_LIMIT then 4 else 3

/-- Symbol errors that the decoder of a channel always corrects or detects. -/
def detectCap (s : State) (ch : Nat) : Nat :=
  match erasures s ch with
  | 0 => if s.flag MEM_LAYOUT.CORR_LIMIT then 5 else 4
  | 1 => 4
  | _ => 3

/-- What decoding gives. -/
inductive Decoded where
  | clean
  | corrected (n low : Nat) (still : Option Nat)
  | uncorrectable (low : Nat)
  deriving DecidableEq, Repr

/-- Decode what a codeword of a channel holds. Past the patterns that are always detected it is open whether the error is
detected; a wrong correction gives free data, a free count and a free position (log entry 40, safe). -/
def decodeCw (s : State) (ch cw : Nat) : CwFind → State × Decoded
  | .clean => (s, .clean)
  | .errors n low still =>
    if n = 0 then (s, .clean)
    else if n ≤ corrCap s ch then (s, .corrected n low (still.map Fin.val))
    else if n ≤ detectCap s ch then (s, .uncorrectable low)
    else
      let wrong := s.freeBit
      if wrong.1 then
        let k := wrong.2.freeWord
        let p := k.2.freeWord
        (p.2.scramble cw 64, .corrected (k.1.toNat % corrCap s ch + 1) (p.1.toNat % 72) none)
      else (wrong.2, .uncorrectable low)

/-! ### Errors (R76, R78 to R80) -/

/-- The page that holds a codeword. -/
def pageOf (a : Nat) : Nat := 4096 * (a / 4096)

/-- The next free spare row of a bank (R79): the lowest that no row has been redirected to, here or by a record, and that no
copy in progress takes. A spare row that was itself replaced stays in use. -/
def freeSpareRow (s : State) (b : Nat) : Option Nat :=
  leastBelow 64 fun k =>
    !(s.dram.spared.any fun e => e.1 == b && e.2.2 == k) && !(s.dram.sparing.any fun j => j.bank == b && j.spare == k)

/-- The spare rows of a bank that are in use. -/
def spareRowsUsed (s : State) (b : Nat) : Nat :=
  (below 64 fun k => s.dram.spared.any fun e => e.1 == b && e.2.2 == k).length

/-- A hard row fault: the row is copied into the bank's next free spare row, or the bank has none left (R79). -/
def spareRow (s : State) (ch bank row cw : Nat) : State :=
  let b := 8 * ch + bank
  if s.dram.sparing.any fun j => j.bank == b && j.row == row then s
  else
    match freeSpareRow s b with
    | none =>
      let s :=
        if s.dram.exhausted.contains b then s
        else memRaise { s with dram := { s.dram with exhausted := b :: s.dram.exhausted } } 0x0407 ch cw bank
      bankFaulty s b
    | some k => { s with dram := { s.dram with
        sparing := s.dram.sparing ++ [{ bank := b, row := row, spare := k, page := pageOf cw }] } }

/-- A position joins MEM_ERASE (R78). -/
def addErasure (s : State) (ch sym cw : Nat) : State :=
  let s :=
    if s.flag MEM_ERASE.VALID0 ch then s.wrs ch [(MEM_ERASE.POS1, sym), (MEM_ERASE.VALID1, 1)]
    else s.wrs ch [(MEM_ERASE.POS0, sym), (MEM_ERASE.VALID0, 1)]
  memRaise s 0x0404 ch cw sym

/-- An error that persists after the corrected codeword is written back (R78): a symbol that has failed in at least 3 other
rows of the channel in this pass becomes an erasure position while fewer than 2 are listed; anything else is a hard row
fault. The errors in other rows that count are those that persisted too (DESIGN CHOICE, log entry 27: the table's words do
not say whether an error that the write-back removed counts). -/
def persists (s : State) (ch bank row cw sym : Nat) : State :=
  let seen := Tab.get [] s.dram.persist ch
  let others := seen.filter fun e => e.1 == sym && e.2 != (bank, row)
  let seen := if seen.contains (sym, bank, row) then seen else (sym, bank, row) :: seen
  let s := { s with dram := { s.dram with persist := Tab.set [] s.dram.persist ch seen } }
  if 3 ≤ others.length && erasures s ch < 2 then addErasure s ch sym cw else spareRow s ch bank row cw

/-- A correctable codeword has been read: counted, the step event, and the re-read (R78, R92). -/
def correctable (s : State) (ch bank row cw n low : Nat) (still : Option Nat) : State :=
  let before := s.rd MEM_CE_CNT.COUNT ch
  let s := s.bump MEM_CE_CNT.COUNT ch
  let step := s.rd MEM_SCRUB_CFG.CE_STEP
  let s :=
    if step ≠ 0 && s.rd MEM_CE_CNT.COUNT ch ≠ before && s.rd MEM_CE_CNT.COUNT ch % step = 0 then
      memRaise s 0x0401 ch cw (memPayload cw n low bank)
    else s
  match still with
  | some sym => persists s ch bank row cw sym
  | none => s

/-- A channel controller reads a codeword of a bank and row for any reason: what follows, and whether it is good. A poison
marker is no fault of the cells (R76). -/
def readCw (s : State) (ch bank row cw : Nat) (find : CwFind) : State × Bool :=
  if s.dram.poison.contains cw then (s, false)
  else
    let d := decodeCw s ch cw find
    let clear := { d.1 with dram := { d.1.dram with bad := d.1.dram.bad.filter (· != cw) } }
    match d.2 with
    | .clean => (clear, true)
    | .corrected n low still => (correctable clear ch bank row cw n low still, true)
    | .uncorrectable low => (uncorrectable d.1 ch bank row cw low, false)

/-- A channel controller reads a codeword for a requester; an address that no channel holds is not decoded (R20). -/
def execMemRead (a : BitVec 40) (find : CwFind) (s : State) : Out :=
  let cw := cwOf a.toNat
  match mapAddr s cw with
  | none => .next (s.emit (.answer St.protectionFault []))
  | some (ch, bank, row) =>
    if s.closedAt cw 64 then .next (s.emit (.answer St.protectionFault []))
    else if cwLost s cw then .next (answerCw s cw false)
    else if rowHeld s ch bank row then
      .next (holdAccess s { addr := cw, len := 64, write := none })
    else
      let r := readCw s ch bank row cw find
      .next (answerCw r.1 cw r.2)

/-- A channel controller writes a codeword for a requester (R75): a partial write reads the codeword first. Bytes past the
end of the codeword belong to another write. -/
def execMemWrite (a : BitVec 40) (data : List Byte) (find : CwFind) (s : State) : Out :=
  let cw := cwOf a.toNat
  let l := data.take (cw + 64 - a.toNat)
  match mapAddr s cw with
  | none => .next (s.emit (.answer St.protectionFault []))
  | some (ch, bank, row) =>
    if s.closedAt cw 64 then .next (s.emit (.answer St.protectionFault []))
    else if cwLost s cw then .next (s.emit (.answer St.mediumError []))
    else if rowHeld s ch bank row then .next (holdAccess s { addr := a.toNat, len := l.length, write := some l })
    else if l.length = 64 then .next (writeCw s a.toNat l)
    else .next (writeCw (readCw s ch bank row cw find).1 a.toNat l)

/-- The row copy at the front is complete: uncorrectable codewords are poisoned in the spare row, the row is redirected, the
fault is recorded with origin 2, and the held accesses go on (R79). -/
def execRowSpareDone (s : State) : Out :=
  match s.dram.sparing with
  | [] => .next s
  | j :: rest =>
    let lost := s.dram.bad.filter fun cw => pageOf cw == j.page
    let mine := fun (h : HeldMem) => pageOf h.addr == j.page
    let held := s.dram.held.filter mine
    let d := { s.dram with
      sparing := rest,
      bad := s.dram.bad.filter fun cw => pageOf cw != j.page,
      poison := lost.filter (fun cw => !s.dram.poison.contains cw) ++ s.dram.poison,
      spared := (j.bank, j.row, j.spare) :: s.dram.spared,
      held := s.dram.held.filter fun h => !mine h }
    let s := { s with dram := d }
    let s := s.wr MEM_SPARE_USE.USED j.bank (spareRowsUsed s j.bank)
    let s := memRaise s 0x0403 (j.bank / 8) j.page (j.bank % 8 + j.row * 2 ^ 8 + 2 ^ 32 * j.spare)
    let s := recordFault s (unitId 0x5 (j.bank / 8)) 1 (j.bank % 8 + j.row * 2 ^ 8) j.spare 2
    .next (held.foldl releaseAccess s)

/-- Whether a held access lies in a bank. -/
def heldIn (s : State) (b : Nat) (h : HeldMem) : Bool :=
  match mapAddr s (cwOf h.addr) with
  | some (ch, bank, _) => 8 * ch + bank == b
  | none => false

/-- A faulty bank is fenced (R80): accesses already in the channel controller complete normally (R91), and it takes a free MEM_RETIRE entry, or RETIRE_FULL is set and service is due (R82, R373). -/
def execBankFence (bank : Fin 512) (s : State) : Out :=
  let b := bank.val
  if s.dram.faulty.contains b then
    let mine := s.dram.held.filter (heldIn s b)
    let s := mine.foldl releaseAccess { s with dram := { s.dram with held := s.dram.held.filter fun h => !heldIn s b h } }
    let s := { s with dram := { s.dram with faulty := s.dram.faulty.filter (· != b), fenced := s.dram.fenced ++ [b] } }
    let s := s.wr MEM_STATUS.FENCED 0 (s.rd MEM_STATUS.FENCED + 1)
    let s :=
      match leastBelow 8 fun i => s.rd MEM_RETIRE.STATE i == 0 with
      | some i => s.wrs i [(MEM_RETIRE.CHANNEL, b / 8), (MEM_RETIRE.BANK, b % 8), (MEM_RETIRE.STATE, 1)]
      | none => s.wr MEM_STATUS.RETIRE_FULL 0 1
    let s := s.raiseUnit 0x0405 (unitId 0x5 (b / 8)) (b % 8)
    let s := recordFault s (unitId 0x5 (b / 8)) 2 (b % 8) 0 2
    .next (if s.flag MEM_STATUS.RETIRE_FULL then serviceDue s 1 (unitId 0x5 (b / 8)) else s)
  else .next s

/-! ### Scrub and refresh (R77, R84) -/

/-- A scrub pass over the whole memory ends, and the next begins at address 0 (R77). Its duration is told in whole seconds,
rounded down (DESIGN CHOICE, log entry 27: R92 gives the unit and no rounding). -/
def scrubPass (s : State) : State :=
  let s := s.raiseUnit 0x040B (unitId 0 0) ((s.now - s.dram.scrubStart) / 1000000000 % 2 ^ 32)
  let s := { s with dram := { s.dram with scrubStart := s.now, persist := [] } }
  s.wr MEM_SCRUB_POS.ADDR 0 0

/-- What scrub does with a codeword: a marker is left as it is, and a codeword out of reach is not read. -/
def scrubCw (s : State) (cw : Nat) (find : CwFind) : State :=
  match mapAddr s cw with
  | none => s
  | some (ch, bank, row) => if cwLost s cw then s else (readCw s ch bank row cw find).1

/-- Whether patrol scrub may read its next codeword now: enabled, not in a warm device reset, and not held by a row copy. -/
def scrubMay (s : State) : Bool :=
  s.flag MEM_SCRUB_CFG.ENABLE && s.boot.warm == 0
    && (match mapAddr s (s.rd MEM_SCRUB_POS.ADDR) with
        | some (ch, bank, row) => !rowHeld s ch bank row
        | none => true)

/-- Patrol scrub reads the codeword at MEM_SCRUB_POS. -/
def execScrubRead (find : CwFind) (s : State) : Out :=
  if scrubMay s then
    let pos := s.rd MEM_SCRUB_POS.ADDR
    let s := scrubCw s pos find
    .next (if s.top ≤ pos + 64 then scrubPass s else s.wr MEM_SCRUB_POS.ADDR 0 (pos + 64))
  else .next s

/-- A channel refreshes its next bank. -/
def execRefreshTick (ch : Fin 64) (s : State) : Out :=
  .next { s with dram := { s.dram with
    refresh := Tab.set 0 s.dram.refresh ch.val ((Tab.get 0 s.dram.refresh ch.val + 1) % 8) } }

/-- A write to MEM_SCRUB_CFG: a PERIOD_H outside 1 to 168 is ignored. -/
def execScrubCfgWrite (v : Word) (s : State) : Out := unlessNoImage s <|
  let n := v.toNat
  let s := s.wrs 0 [(MEM_SCRUB_CFG.ENABLE, bitsOf n 8 1), (MEM_SCRUB_CFG.CE_STEP, bitsOf n 16 16)]
  .next (if 1 ≤ n % 256 && n % 256 ≤ 168 then s.wr MEM_SCRUB_CFG.PERIOD_H 0 (n % 256) else s)

/-! ### Layout (R70, R72) -/

/-- Banks of a channel that are neither retired nor fenced. -/
def soundBanks (s : State) (ch : Nat) : Nat :=
  ((healthyBanks s ch).filter fun b => !s.dram.fenced.contains (8 * ch + b)).length

/-- Whether every channel can hold its share of local parts of L GiB (R72). -/
def localFits (s : State) (l : Nat) : Bool := (List.range 64).all fun ch => 64 * l ≤ 320 * soundBanks s ch

/-- Whether a memory region is valid. -/
def anyRegion (s : State) : Bool := (leastBelow 1024 fun i => s.flag MEM_RGN_A.VALID i).isSome

/-- DRAM contents mean nothing any more: every byte reads as one that nothing has written. -/
def dropDram (s : State) : State :=
  { s with mem := Mem.upper s.mem scratchBase, dram := { s.dram with poison := [], bad := [] } }

/-- A write to MEM_LAYOUT. -/
def execMemLayoutWrite (v : Word) (s : State) : Out := unlessNoImage s <|
  let l := v.toNat % 64
  if l = s.localGib then .next (s.wr MEM_LAYOUT.CORR_LIMIT 0 (bitsOf v.toNat 8 1))
  else if 40 < l || anyRegion s || !localFits s l then .next (s.wr MEM_STATUS.LAYOUT_REFUSED 0 1)
  else
    let s := s.wrs 0 [(MEM_LAYOUT.LOCAL_GIB, l), (MEM_LAYOUT.CORR_LIMIT, bitsOf v.toNat 8 1)]
    .next ((dropDram s).wr MEM_STATUS.CONTENTS_KEPT 0 0)

/-! ### The region table (R87, R90) -/

/-- Whether region `i` may become valid (R87, R282): its size is not 0, it ends at or below T, it overlaps no valid region,
and its glade exists and may take that much DRAM. -/
def regionFits (s : State) (i : Nat) : Bool :=
  let size := s.rd MEM_RGN_B.SIZE i
  let g := s.rd MEM_RGN_A.GLADE i
  let a := rgnBase s i
  size != 0 && decide (a + rgnLen s i ≤ s.top) && s.gladeExists g && mayTake s .dram g size
    && (List.range 1024).all fun j =>
      j == i || !s.flag MEM_RGN_A.VALID j || decide (rgnBase s j + rgnLen s j ≤ a) || decide (a + rgnLen s i ≤ rgnBase s j)

/-- The target of a mirrored region is checked with the twin (R90); `target` says whether the twin has a matching region. -/
def checkTarget (s : State) (i : Nat) (target : Bool) : State :=
  if !s.flag MEM_RGN_A.MIRROR i || (s.pair = Pair.paired && target) then s
  else
    let s :=
      if s.pair = Pair.paired then { s with dram := { s.dram with noTarget := i :: s.dram.noTarget } } else s
    markStale s i

/-- Setting VALID on a region with a write of MEM_RGN_A: while it is valid the write is ignored. -/
def execRegionValidSet (i : Fin 1024) (v : Word) (target : Bool) (s : State) : Out := unlessNoImage s <|
  let k := i.val
  let n := v.toNat
  if s.flag MEM_RGN_A.VALID k then .next s
  else
    let s := s.wrs k [(MEM_RGN_A.MIRROR, bitsOf n 1 1), (MEM_RGN_A.MIRROR_TARGET, bitsOf n 2 1),
      (MEM_RGN_A.GLADE, bitsOf n 8 8), (MEM_RGN_A.BASE, bitsOf n 21 17)]
    if regionFits s k then
      let s := take (s.wr MEM_RGN_A.VALID k 1) .dram (s.rd MEM_RGN_A.GLADE k) (s.rd MEM_RGN_B.SIZE k)
      .next (checkTarget s k target)
    else .next (s.wr MEM_STATUS.RGN_REFUSED 0 1)

/-- A region ceases to be valid (R90, R91, R304, R366): its volumes go first, rings still capturing from it are abandoned, and a
copy to the twin stops. Mirrored writes already queued are still sent. -/
def regionGone (s : State) (k : Nat) : State :=
  if s.flag MEM_RGN_A.VALID k then
    let s := { s with dram := { s.dram with clearing := Tab.set [] s.dram.clearing k [] } }
    let s := ckpRegionLost (loseVolumes s k) k
    let queued := s.dram.mirrorHeld.filter fun w => w.region == k
    let s := { s with dram := { s.dram with mirrorHeld := s.dram.mirrorHeld.filter fun w => w.region != k } }
    let s := queued.foldl (fun s w => (applyWrite s w.addr w.bytes).1) s
    let s := s.wrs k [(MEM_RGN_A.VALID, 0), (MEM_RGN_A.STALE, 0)]
    let s := { s with dram := { s.dram with
      resync := s.dram.resync.filter (· != k), noTarget := s.dram.noTarget.filter (· != k),
      degrade := s.dram.degrade.filter fun d => d.1 != k } }
    give s .dram (s.rd MEM_RGN_A.GLADE k) (s.rd MEM_RGN_B.SIZE k)
  else s

/-- Go on clearing a region (R191, R210): its registrations are removed first, and VALID clears once no access past their checks
is left. -/
def regionClearing (s : State) (k : Nat) : State :=
  let l := regsIn s (rgnBase s k) (rgnLen s k)
  let s := removeRegsIn s (rgnBase s k) (rgnLen s k)
  let left := (Tab.get [] s.dram.clearing k ++ l).filter (regBusy s)
  if left.isEmpty then regionGone s k
  else { s with dram := { s.dram with clearing := Tab.set [] s.dram.clearing k left } }

/-- Clearing VALID on a region. -/
def regionClear (s : State) (k : Nat) : State := if s.flag MEM_RGN_A.VALID k then regionClearing s k else s

/-- Go on with every region whose clearing waits for accesses. -/
def clearRegions (s : State) : State := (s.dram.clearing.map (·.1)).foldl regionClearing s

/-- Clearing VALID on a region. -/
def execRegionValidClear (i : Fin 1024) (s : State) : Out := unlessNoImage s <| .next (regionClear s i)

end Sys2Proof.Machine
end

