-- ==== Sys2Proof/Machine/BringUp.lean ====
section
/-! DEFINITION. Bring-up (R45 to R68): what each reset keeps, the start sequence, the repair set, the settings of the image,
repair-log write-backs, firmware loading and feature negotiation. Choices and readings of the model: log entries 5, 7, 28 and
41. -/
namespace Sys2Proof.Machine

open Sys2Proof

/-! ### What resets keep (R32, R65, R66, R319) -/

/-- Whether an offset is one of `n` entries of the register of a field. -/
def atReg (f : Fld) (n off : Nat) : Bool := (List.range n).any fun i => f.addr i == off

/-- Registers held on VDD_AUX through a power-on reset: the reset cause (R68), and the seal counters and watermarks (R319). -/
def auxReg (off : Nat) : Bool :=
  atReg BOOT_RESET_CAUSE.CAUSE 1 off || atReg SEC_SEAL_SLOTCTR.VALUE 16 off || atReg SEC_SEAL_WATER.VALUE 16 off

/-- Registers that a warm device reset keeps (R66): those of R66 itself with the lanes' spare assignments (R65), the local time
counter (R437), the identity and the
rollback state (R65, R319), DEBUG_MGMT (R340) and the sensors that have failed (R426). -/
def warmReg (s : State) (off : Nat) : Bool :=
  auxReg off || atReg BOOT_STATUS.NO_IMAGE 1 off || atReg BOOT_IMAGE.SELECTED 1 off
    || atReg GLB_UNITS.TILES_IN_SERVICE 1 off || atReg GLB_TILE_MAP.IN_USE 4 off || atReg GLB_CORE_MAP.IN_USE 16 off
    || atReg MEM_STATUS.TOP_MIB 1 off || atReg MEM_LAYOUT.LOCAL_GIB 1 off || atReg MEM_RETIRE.STATE 8 off
    || atReg OPT_LANE.SPARED 50 off || atReg MEM_ERASE.POS0 64 off || atReg MEM_SPARE_USE.USED 512 off || atReg TLM_TIME.NS 1 off
    || atReg SEC_STATUS.IDENTITY_OK 1 off || atReg SEC_IDENT_PUB.BYTES 17 off || atReg SEC_IDENT_CERT.BYTES 17 off
    || atReg SEC_ROLLBACK.MIN_SVN 1 off
    || ((List.range 16).any fun i => PWR_SENSOR.FAULT.addr i == off && s.flag PWR_SENSOR.FAULT i)

/-- What stays when power is lost: the pins, VDD_AUX registers, and what the block has already sent and been sent. -/
def powerLost (s : State) : State :=
  { regs := s.regs.filter fun p => auxReg p.1, pins := s.pins, out := s.out, fresh := s.fresh, pending := s.pending }

/-- What a warm device reset keeps: DRAM in self-refresh, the repair set and spare assignments, the identity, the image
(R65). -/
def warmState (s : State) : State :=
  let st := s.rd BOOT_STATE.STATE
  let r : State :=
    { regs := s.regs.filter fun p => warmReg s p.1
      mem := Mem.lower s.mem scratchBase
      dram := { ({} : Dram) with
        poison := s.dram.poison, bad := s.dram.bad, spared := s.dram.spared, exhausted := s.dram.exhausted,
        faulty := s.dram.faulty, fenced := s.dram.fenced, lostQuads := s.dram.lostQuads, lostChans := s.dram.lostChans,
        scrubStart := s.now }
      sec := { ({} : Sec) with helper := s.sec.helper, owners := s.sec.owners }
      boot := { s.boot with
        writing := none, march := none, moving := [], heldCtl := [], heldRegs := [], heldPad := [], warm := 0, warmStart := true,
        foundFaults := false, kept := decide (6 ≤ st && st ≤ 8) || s.boot.kept }
      tlm := { ({} : Tlm) with
        meters := (below 256 fun g => s.flag TLM_MTR_GLADE.EN g).map fun g => (g, { ({} : Meter) with restart := true }) }
      cpu := { ({} : Cpu) with tap := s.cpu.tap, tapHold := s.cpu.tapHold }
      pins := s.pins, out := s.out, fresh := s.fresh, pending := s.pending }
  let r := (List.range 50).foldl (fun r l => r.wr OPT_LANE.STATE l 0) r
  r.wrs 0 [(MEM_STATUS.LAYOUT_REFUSED, 0), (MEM_STATUS.RGN_REFUSED, 0)]

/-! ### Holding in reset (R31, R41, R65, R85, R466) -/

/-- The start sequence runs: power is good, nothing holds the device in reset. -/
def alive (s : State) : Bool :=
  s.pins.aux && s.pins.pwr && !s.pins.sysRst && s.boot.dead == 0 && s.boot.warm == 0 && !s.cpu.tapHold

/-- The ports leave the device's reset: each stays in fundamental reset while its PERST_x_N holds it (R31, R41). -/
def portsRelease (s : State) : State :=
  [0, 1].foldl (fun s p => s.setPort p { s.port p with inReset := s.pins.perst.contains p || s.pins.early.contains p }) s

/-- A port's link is gone with the device's reset. -/
def portSilent (s : State) (p : Nat) : State :=
  (s.setPort p { s.port p with inReset := true }).wrs p
    [(HEP_PORT_STAT.LINK_UP, 0), (HEP_PORT_STAT.SPEED, 0), (HEP_PORT_STAT.WIDTH, 0), (HEP_PORT_STAT.FLIT, 0)]

/-- A warm device reset begins (R65, R85): the cause is recorded and DRAM begins to drain. -/
def warmBegin (s : State) (cause : Nat) : State :=
  if powered s && s.boot.warm = 0 then
    let s := s.wr BOOT_RESET_CAUSE.CAUSE 0 cause
    let s := s.bumpSmall BOOT_RESET_CAUSE.WARM_COUNT
    portSilent (portSilent { s with boot := { s.boot with warm := 1 } } 0) 1
  else s

/-- BOOT_CTRL.WARM_RESET is written with a KEY. -/
def execWarmReset (key : BitVec 8) (s : State) : Out := .next (if key = 0xA5 && alive s then warmBegin s 5 else s)

/-- A write that no channel controller has accepted may or may not reach DRAM (R86): a free bit (log entry 27, safe). -/
def maybeStore (s : State) (a : Nat) (l : List Byte) : State :=
  let r := s.freeBit
  if r.1 then (r.2.putMem a l).1 else r.2

/-- DRAM has drained (R85, R86): writes held at a channel controller are in DRAM, and self-refresh entry begins. -/
def execDramDrainDone (s : State) : Out :=
  if s.boot.warm = 1 then
    let s := s.dram.held.foldl
      (fun s h =>
        match h.write with
        | some l => if rowFree s h then maybeStore s h.addr l else (s.putMem h.addr l).1
        | none => s) s
    let s := s.dram.mirrorHeld.foldl (fun s w => maybeStore s w.addr w.bytes) s
    let s := s.twin.held.foldl (fun s w => maybeStore s w.1 w.2) s
    .next { s with boot := { s.boot with warm := 2 } }
  else .next s

/-- Every channel is in self-refresh: everything that a warm device reset loses is gone, and the sequence starts at ROM once
nothing holds the device in reset. -/
def execSelfRefreshEntered (s : State) : Out :=
  if s.boot.warm = 2 then
    let s := warmState s
    .next (if s.pins.sysRst || s.cpu.tapHold then s else portsRelease s)
  else .next s

/-! ### ROM, IDENTITY, IMAGE (R46, R53, R54, R56, R321) -/

/-- The state of the start sequence. -/
def bootState (s : State) : Nat := s.rd BOOT_STATE.STATE

/-- No copy verifies (R54): port A alone, with default settings. -/
def enterNoImage (s : State) : State :=
  let s := s.wr BOOT_STATUS.NO_IMAGE 0 1
  let h := s.port 0
  (s.setPort 0 { h with training := true, retry := false, bar4On := false, maxWidth := 16, maxSpeed := 6 }).wr
    BOOT_STATE.STATE 0 9

/-- The boot ROM has checked the management pairs, whose health the operands give. A warm device reset skips IDENTITY and IMAGE
when an image is held (R65); before any copy has verified there is none, and the flash is read in a sequence that the reset
cut short (log entry 41). -/
def execRomDone (pair0 pair1 : Bool) (s : State) : Out :=
  if alive s && bootState s = 0 then
    let s := s.wrs 0 [(CPU_MGMT.PAIR0_OK, b2n pair0), (CPU_MGMT.PAIR1_OK, b2n pair1), (CPU_MGMT.ACTIVE, b2n (!pair0 && pair1))]
    .next (if !s.boot.image.isEmpty then s.wr BOOT_STATE.STATE 0 3
      else if s.flag BOOT_STATUS.NO_IMAGE then enterNoImage s
      else s.wr BOOT_STATE.STATE 0 1)
  else .next s

/-- Identity reconstruction ends (R56, R321, R324 to R326): `helper` is the helper data area of the flash, and `counter` the
flash's replay-protected counter, if it provides one. -/
def execIdentityDone (helper : List Byte) (counter : Option (BitVec 32)) (s : State) : Out :=
  if alive s && bootState s = 1 then
    let good := Config.identityReconstructs helper
    let s := s.wr BOOT_STATE.STATE 0 2
    let s :=
      if good then
        let s := { s with sec := { s.sec with helper := helper } }.wr SEC_STATUS.IDENTITY_OK 0 1
        let s := s.setWords SEC_IDENT_PUB.BYTES 0 17 (Config.publicKey s.idKey)
        let s := s.setWords SEC_IDENT_CERT.BYTES 0 17 (Config.identityCert helper)
        match counter with
        | some n => s.wrs 0 [(SEC_ROLLBACK.BASIS, 1), (SEC_ROLLBACK.MIN_SVN, n.toNat)]
        | none => s
      else s.wr BOOT_STATUS.IDENTITY_FAIL 0 1
    match ownerKeys s (helper.drop 0xF000) with
    | some keys => .next ({ s with sec := { s.sec with owners := keys } }.wr SEC_STATUS.OWNER_KEYS 0 keys.length)
    | none => .next (s.wr SEC_STATUS.OWNER_BAD 0 1)
  else .next s

/-- Take the current repair log (R58): the valid slot with the higher sequence, unless the identity has failed. Of two valid
slots with equal sequences slot 0 is taken (log entry 41). -/
def takeLog (s : State) (log0 log1 : List Byte) : State :=
  let ok := fun (b : List Byte) => !s.flag BOOT_STATUS.IDENTITY_FAIL && slotOk s b
  let pick : Option (Nat × List Byte) :=
    if ok log0 && (!ok log1 || leAt log1 4 4 ≤ leAt log0 4 4) then some (0, log0)
    else if ok log1 then some (1, log1)
    else none
  match pick with
  | none => s.wr BOOT_STATUS.REPAIR_LOG_INVALID 0 1
  | some (k, b) =>
    let s := { s with boot := { s.boot with log := slotRecords b, logSeq := leAt b 4 4, logSlot := k } }
    if slotCount b = logMax then s.wr BOOT_STATUS.REPAIR_LOG_FULL 0 1 else s

/-- The image copies and the repair log slots have been read (R53, R58). -/
def execImageReadDone (a b log0 log1 : List Byte) (s : State) : Out :=
  if alive s && bootState s = 2 then
    match (lyOrder a b).find? fun c => lyValid s c.2 with
    | none => .next (enterNoImage s)
    | some (k, c) =>
      let byOwner := lyKey s c != some Config.vendorRootKey
      let s := { s with boot := { s.boot with image := bytesAt c 0 (lyTotal c), byOwner := byOwner } }
      let s := s.wr (if k = 0 then BOOT_STATUS.IMAGE_A_VALID else BOOT_STATUS.IMAGE_B_VALID) 0 1
      let s := s.wrs 0 [(BOOT_IMAGE.SELECTED, k), (BOOT_IMAGE.SECTIONS, lyCount c), (BOOT_IMAGE.GENERATION, lyGen c)]
      .next ((takeLog s log0 log1).wr BOOT_STATE.STATE 0 3)
  else .next s

/-! ### REPAIR: DRAM (R72, R79, R81, R82) -/

/-- The repair records in force: the image's map, the log, and faults held only until the next power-on reset. -/
def repairSet (s : State) : List (List Byte) :=
  (match lySection s.boot.image 8 with
   | some b => repairRecords b
   | none => []) ++ s.boot.log ++ s.boot.extra

/-- The records of a kind. -/
def recordsOf (s : State) (kind : Nat) : List (List Byte) := (repairSet s).filter fun r => leAt r 2 1 == kind

/-- The bank, numbered 8 ch + bank, that a record of kind 1 or 2 names. -/
def recordBank (r : List Byte) : Nat := leAt r 0 2 % 0x1000 * 8 + leAt r 4 1

/-- A list with only the first of equal members kept. -/
def firsts (l : List Nat) : List Nat := l.foldl (fun a x => if a.contains x then a else a ++ [x]) []

/-- Rows that records redirect to spare rows. -/
def applyRows (s : State) : State :=
  (recordsOf s 1).foldl
    (fun s r =>
      let e := (recordBank r, leAt r 5 3, leAt r 8 4)
      let l := if s.dram.spared.contains e then s.dram.spared else e :: s.dram.spared
      let s := { s with dram := { s.dram with spared := l } }
      s.wr MEM_SPARE_USE.USED e.1 (spareRowsUsed s e.1)) s

/-- Banks already retired, in table order. -/
def retiredBanks (s : State) : List Nat :=
  (below 8 fun i => s.rd MEM_RETIRE.STATE i == 2).map fun i => s.rd MEM_RETIRE.CHANNEL i * 8 + s.rd MEM_RETIRE.BANK i

/-- Write the retirement table: entry i holds bank i of the list. -/
def writeRetire (s : State) (l : List Nat) : State :=
  (List.range 8).foldl
    (fun s i =>
      match l[i]? with
      | some b => s.wrs i [(MEM_RETIRE.CHANNEL, b / 8), (MEM_RETIRE.BANK, b % 8), (MEM_RETIRE.STATE, 2)]
      | none => s.wrs i [(MEM_RETIRE.CHANNEL, 0), (MEM_RETIRE.BANK, 0), (MEM_RETIRE.STATE, 0)]) s

/-- Retire banks in the order of R82, up to 8; the rest stay fenced. A first retirement loses DRAM contents (R81). -/
def applyBanks (s : State) : State :=
  let old := retiredBanks s
  let all := firsts (old ++ (recordsOf s 2).map recordBank ++ s.dram.fenced)
  let take := all.take 8
  let rest := all.drop 8
  let s := writeRetire s take
  let s := { s with dram := { s.dram with fenced := rest, faulty := [] } }
  let s := s.wrs 0 [(MEM_STATUS.TOP_MIB, 163840 - 320 * take.length), (MEM_STATUS.RETIRED, take.length),
    (MEM_STATUS.FENCED, rest.length), (MEM_STATUS.RETIRE_FULL, b2n !rest.isEmpty)]
  let fresh := take.filter fun b => !old.contains b
  let s := fresh.foldl (fun s b => s.raiseUnit 0x0406 (unitId 0x5 (b / 8)) (b % 8 + s.topMib * 2 ^ 8)) s
  let s := rest.foldl (fun s b => serviceDue s 1 (unitId 0x5 (b / 8))) s
  if fresh.isEmpty then s else dropDram { s with boot := { s.boot with kept := false } }

/-- L falls to the largest value that the channels' healthy capacity holds (R72). -/
def applyLayout (s : State) : State :=
  let fits := fun (l : Nat) => (List.range 64).all fun ch => 64 * l ≤ 320 * (healthyBanks s ch).length
  let l := s.localGib
  if fits l then s
  else
    let new := ((List.range l).filter fits).foldl max 0
    dropDram ({ s with boot := { s.boot with kept := false } }.wrs 0
      [(MEM_LAYOUT.LOCAL_GIB, new), (MEM_LAYOUT.LAYOUT_REDUCED, 1)])

/-! ### REPAIR: units and lanes (R59, R233, R374) -/

/-- A physical unit is known to have failed. -/
def noteFailed (s : State) (u : Nat) : State :=
  if s.boot.failed.contains u then s else { s with boot := { s.boot with failed := u :: s.boot.failed } }

/-- A logical tile goes out of service at the start. -/
def startTileOut (s : State) (n : Nat) : State :=
  let m := s.rd GLB_TILE_MAP.OUT_OF_SERVICE (n / 16)
  serviceDue ((s.wr GLB_TILE_MAP.OUT_OF_SERVICE (n / 16) (Nat.lor m (2 ^ (n % 16)))).wr TILE_STATE.SEQ n 3) 2 (unitId 0x3 n)

/-- A logical core goes out of service at the start. -/
def startCoreOut (s : State) (k : Nat) : State :=
  let m := s.rd GLB_CORE_MAP.OUT_OF_SERVICE (k / 16)
  serviceDue (s.wr GLB_CORE_MAP.OUT_OF_SERVICE (k / 16) (Nat.lor m (2 ^ (k % 16)))) 3 (coreUnitOf (k / 16) (k % 16))

/-- A physical tile has failed, as REPAIR or the start-up march test finds: the quadrant's spare serves if policy 0 lets it. -/
def startTileFail (s : State) (i : Nat) : State :=
  let s := noteFailed s (unitId 0x3 i)
  if 64 ≤ i then
    let q := i - 64
    let n := s.rd GLB_TILE_MAP.REPLACES q
    if s.flag GLB_TILE_MAP.IN_USE q then startTileOut (s.wrs q [(GLB_TILE_MAP.IN_USE, 0), (GLB_TILE_MAP.SPARE_FAULTY, 1)]) n
    else s.wr GLB_TILE_MAP.SPARE_FAULTY q 1
  else if s.tileOut i || tilePhys s i ≠ i then s
  else if s.boot.tilePolicy = 0 && tileSpareFree s (i / 16) then
    s.wrs (i / 16) [(GLB_TILE_MAP.IN_USE, 1), (GLB_TILE_MAP.REPLACES, i)]
  else startTileOut s i

/-- A physical core of a cluster has failed at the start. -/
def startCoreFail (s : State) (c j : Nat) : State :=
  let s := noteFailed s (coreUnitOf c j)
  if j = 16 then
    let k := s.rd GLB_CORE_MAP.REPLACES c
    if s.flag GLB_CORE_MAP.IN_USE c then
      startCoreOut (s.wrs c [(GLB_CORE_MAP.IN_USE, 0), (GLB_CORE_MAP.SPARE_FAULTY, 1)]) (16 * c + k)
    else s.wr GLB_CORE_MAP.SPARE_FAULTY c 1
  else if bitOf (s.rd GLB_CORE_MAP.OUT_OF_SERVICE c) j || corePhys s (16 * c + j) ≠ j then s
  else if s.boot.corePolicy = 0 && coreSpareFree s c then s.wrs c [(GLB_CORE_MAP.IN_USE, 1), (GLB_CORE_MAP.REPLACES, j)]
  else startCoreOut s (16 * c + j)

/-- What a unit that has failed at the start loses as a whole: a controller, a cluster, a channel, a quadrant unit. -/
def startUnitMark (s : State) (u : Nat) : State :=
  let i := u % 0x1000
  match u / 0x1000 with
  | 0x1 =>
    if s.boot.ctrlFailed.contains i then s else { s with boot := { s.boot with ctrlFailed := i :: s.boot.ctrlFailed } }
  | 0x2 => markOut s u
  | 0x3 => s
  | 0x4 => s
  | 0x5 =>
    if s.dram.lostChans.contains i then s else { s with dram := { s.dram with lostChans := i :: s.dram.lostChans } }
  | 0xB =>
    let s := markOut s u
    if i / 4 = 0 && !s.dram.lostQuads.contains i then
      let s := { s with dram := { s.dram with lostQuads := i :: s.dram.lostQuads } }
      (List.range 4).foldl (fun s j => markOut s (unitId 0x2 (4 * i + j))) s
    else s
  | _ => noteFailed s u

/-- The physical tiles that fail with a unit: a tile, a cluster's four, a quadrant's sixteen and its spare with its crossbar. -/
def unitTiles (u : Nat) : List Nat :=
  let i := u % 0x1000
  match u / 0x1000 with
  | 0x2 => (List.range 4).map (4 * i + ·)
  | 0x3 => [i]
  | 0xB => if i / 4 = 0 then (64 + i) :: (List.range 16).map (16 * i + ·) else []
  | _ => []

/-- The physical worker cores that fail with a unit, core j of cluster c as 32 c + j. -/
def unitCores (u : Nat) : List Nat :=
  let i := u % 0x1000
  match u / 0x1000 with
  | 0x2 => (List.range 17).map (32 * i + ·)
  | 0x4 => [i]
  | 0xB => if i / 4 = 0 then (List.range 4).flatMap fun j => (List.range 17).map (32 * (4 * i + j) + ·) else []
  | _ => []

/-- Units that have failed at the start take their effect. Spares are counted out first, so that none that has failed is
assigned; then tiles and cores, those of failed clusters and quadrants among them, take spares in ascending logical order
(R59). -/
def startFailures (s : State) (units : List Nat) : State :=
  let l := dedup (sortNat units)
  let s := l.foldl startUnitMark s
  let tiles := dedup (sortNat (l.flatMap unitTiles))
  let cores := dedup (sortNat (l.flatMap unitCores))
  let s := ((tiles.filter (64 ≤ ·)) ++ tiles.filter (· < 64)).foldl startTileFail s
  ((cores.filter (· % 32 == 16)) ++ cores.filter (· % 32 != 16)).foldl (fun s x => startCoreFail s (x / 32) (x % 32)) s

/-- The failed units of the repair set. -/
def failedUnits (s : State) : List Nat := (recordsOf s 4).map fun r => leAt r 0 2

/-- Optical lanes that a failed unit takes with it. -/
def unitLanes (u : Nat) : List Nat :=
  let i := u % 0x1000
  match u / 0x1000 with
  | 0x6 => [2 * i, 2 * i + 1]
  | 0x7 => [32 + 2 * i, 33 + 2 * i]
  | 0x8 => if i = 0 then [] else [35 + i]
  | 0xA => (List.range 50).filter fun l => laneTile l == i
  | _ => []

/-- Optical lanes of the repair set, spares first. -/
def failedLanes (s : State) : List Nat :=
  let l := dedup (sortNat (((recordsOf s 5).map fun r => leAt r 4 4) ++ (recordsOf s 4).flatMap fun r => unitLanes (leAt r 0 2)))
  (l.filter (44 ≤ ·)) ++ l.filter (· < 44)

/-- A lane has failed at the start: its group's spare carries it if policy 0 lets it. A lane that a spare carries through a
warm device reset keeps it (R65). -/
def startLaneFail (s : State) (l : Nat) : State :=
  let k := laneSpare l
  if 44 ≤ l then s.wr OPT_LANE.STATE l 3
  else if s.flag OPT_LANE.SPARED l then (if 36 ≤ l then s.wr UST_LANE.SPARED (l - 36) 1 else s)
  else if s.boot.lanePolicy = 0 && !s.boot.repaired && !s.flag OPT_LANE.IN_USE k && s.lane k ≠ 3 then carryLane s l
  else
    let s := s.wr OPT_LANE.STATE l 3
    let s := if 36 ≤ l then s.wr UST_LANE.STATE (l - 36) 3 else s
    if s.boot.lanePolicy = 2 then s else serviceDue s 4 (laneUnit l)

/-- Spare lanes as GLB_UNITS counts them (R23). -/
def showLaneSpares (s : State) : State :=
  let n := if s.boot.lanePolicy = 2 then 0
    else ([44, 45, 46, 47, 48, 49].filter fun k => !s.flag OPT_LANE.IN_USE k && s.lane k != 3).length
  s.wr GLB_UNITS.LANE_SPARES_FREE 0 n

/-- The roles of the worker cores at a start (R391, R416). -/
def showRoles (s : State) : State :=
  let s := (List.range 256).foldl
    (fun s k => s.wr CPU_CORE.ROLE (coreEntry k)
      (if bitOf (s.rd GLB_CORE_MAP.OUT_OF_SERVICE (k / 16)) (k % 16) then 3 else if firmwareCore k then 0 else 1)) s
  (List.range 16).foldl showSpareCore s

/-- Units and lanes of the repair set. A warm device reset keeps its assignments, with spares that were being brought in. -/
def applyUnits (s : State) : State :=
  let s :=
    if s.boot.repaired then
      let b := s.boot.bringing
      let s := { s with boot := { s.boot with bringing := [] } }
      let s := b.foldl
        (fun s x =>
          match x.2 with
          | none => spareArrives s x.1
          | some p => unitReturns s x.1 p) s
      (below 64 fun n => s.tileOut n).foldl (fun s n => s.wr TILE_STATE.SEQ n 3) s
    else startFailures s (failedUnits s)
  let s := (failedLanes s).foldl startLaneFail s
  let s := if s.boot.repaired then s else showLaneSpares s
  refreshPools (showUnits (showRoles { s with boot := { s.boot with repaired := true } }))

/-! ### REPAIR: the settings of the image (R182, R238, R259, R291, R378, R430, R450) -/

/-- The whole word of the register of a field. -/
def putWord (s : State) (f : Fld) (i v : Nat) : State := s.setReg (f.addr i) (BitVec.ofNat 64 v)

/-- A host port takes the settings of its record, and link training may start (R48, R259). -/
def applyHostRecord (s : State) (r : List Byte) : State :=
  let p := leAt r 4 1
  let s := s.setPort p
    { s.port p with
      training := true, maxWidth := leAt r 6 1, maxSpeed := leAt r 7 1, sris := bitOf (leAt r 8 1) 0,
      bar4Log2 := leAt r 9 1, bar4Reset := leAt r 9 1, bar4On := true, ssvid := leAt r 10 2, ssid := leAt r 12 2 }
  let s := s.wr HEP_PORT_STAT.ROLE p (leAt r 5 1)
  if bitOf (leAt r 8 1) 1 then s.wr HEP_CFG.MED_PORT 0 p else s

/-- The fabric takes the settings of its record. -/
def applyFabricRecord (s : State) (r : List Byte) : State :=
  let base := beNat (bytesAt r 16 16)
  let s := putWord s FAB_CFG.IPV6 0 (leAt r 8 8)
  let s := (s.wr FAB_IP_BASE.BASE 0 (base % 2 ^ 64)).wr FAB_IP_BASE.BASE 1 (base / 2 ^ 64)
  let s := s.wr FAB_SAL_DEVNUM.DEVNUM 0 (leAt r 4 2)
  s.wrs 0 [(FAB_LOCK.LOCKED, leAt r 6 1), (FAB_SAL_LOCK.LOCKED, leAt r 6 1)]

/-- A data port takes the settings of its record. -/
def applyPortRecord (s : State) (r : List Byte) : State :=
  let p := leAt r 4 1
  s.wrs p [(FAB_PORT.ENABLE, leAt r 5 1), (FAB_PORT.MTU, leAt r 6 2), (FAB_PORT_MAC.MAC, leAt r 8 6),
    (FAB_PORT_GW.GW, leAt r 16 6)]

/-- Pin and link settings. -/
def applyLinks (s : State) (b : List Byte) : State :=
  match linkRecords b.length b with
  | none => s
  | some l =>
    let s := (ofKind l 0x0101).foldl applyHostRecord s
    let s := (ofKind l 0x0201).foldl applyFabricRecord s
    (ofKind l 0x0202).foldl applyPortRecord s

/-- Pool defaults. -/
def applyPoolDefaults (s : State) (b : List Byte) : State :=
  putWord (putWord s GLD_DEFAULT_A.INSTANCES 0 (leAt b 8 8)) GLD_DEFAULT_B.CTX 0 (leAt b 16 8)

/-- Twin pairing: with ENABLE the device is PAIRING under epoch 1. -/
def applyTwin (s : State) (b : List Byte) : State :=
  let s := s.wrs 0 [(TWN_CFG.ENABLE, leAt b 1 1 % 2), (TWN_CFG.WITNESSES, leAt b 4 1), (TWN_CFG.FAB_DEAD_MS, leAt b 5 1),
    (TWN_CFG.GRANT_MS, leAt b 6 1), (TWN_CFG.TWIN_DEV, leAt b 2 2), (TWN_CFG.KEY_SLOT, leAt b 8 2),
    (TWN_LOCK.LOCKED, leAt b 1 1 / 2)]
  let s := (List.range (leAt b 4 1)).foldl
    (fun s w => (s.wr TWN_WIT_ADDR.ADDR w (leAt b (16 + 16 * w) 8)).wr TWN_WIT_KEY.KEY w (leAt b (24 + 16 * w) 4)) s
  if s.flag TWN_CFG.ENABLE then enterPairing s 1 else s

/-- Understory topology: links, then groups, which are in force when REPAIR ends. -/
def applyUst (s : State) (b : List Byte) : State :=
  let s := (ustLinks b).foldl
    (fun s r => s.wrs (leAt r 0 1)
      [(UST_LINK.LANES, leAt r 1 1), (UST_LINK.EXPECT, leAt r 2 2), (UST_LINK.ANY, leAt r 4 1)]) s
  let s := (ustGroupRecs b).foldl
    (fun s r =>
      let g := leAt r 0 1
      grpEnable (putWord (putWord s UST_GRP_A.VALID g (leAt r 8 8)) UST_GRP_B.PREV g (leAt r 16 8)) g) s
  s.wr UST_LOCK.LOCKED 0 (leAt b 3 1)

/-- Crossing modes. -/
def applyCrossings (s : State) (b : List Byte) : State :=
  s.wrs 0 [(CLK_CFG.HOLD, leAt b 1 1), (CLK_LOCK.LOCKED, leAt b 2 1)]

/-- Thermal and power limits. -/
def applyPower (s : State) (b : List Byte) : State :=
  let s := s.wrs 0 [(PWR_LIMIT.LIMIT_W, leAt b 2 2), (PWR_LIMIT.TARGET_C, leAt b 8 1 - 5), (PWR_HW_CFG.HW_LIMIT_W, leAt b 4 2),
    (PWR_HW_CFG.HW_WINDOW_US, leAt b 6 2), (PWR_HW_CFG.DEF_TILE, leAt b 12 1), (PWR_HW_CFG.DEF_CORE, leAt b 13 1),
    (PWR_HW_CFG.DEF_DRAM, leAt b 14 1), (PWR_THERM_CFG.WARN_C, leAt b 8 1), (PWR_THERM_CFG.THROTTLE_C, leAt b 9 1),
    (PWR_THERM_CFG.EMERG_C, leAt b 10 1), (PWR_THERM_CFG.HYST_C, leAt b 11 1)]
  raiseLevel ((defaultClocks s).wr PWR_LOCK.LOCKED 0 (leAt b 1 1))

/-- Apply a section if the image has it. -/
def withSection (s : State) (type : Nat) (f : State → List Byte → State) : State :=
  match lySection s.boot.image type with
  | some b => f s b
  | none => s

/-- Spare enablement: absent means automatic. -/
def applyPolicies (s : State) : State :=
  withSection s 9 fun s b =>
    { s with boot := { s.boot with tilePolicy := leAt b 0 1, corePolicy := leAt b 1 1, lanePolicy := leAt b 2 1 } }

/-- The twin's settings for an image without a twin pairing section (R389). -/
def twinDefaults (s : State) : State := s.wrs 0 [(TWN_CFG.FAB_DEAD_MS, 0x05), (TWN_CFG.GRANT_MS, 0x14)]

/-- Every setting of the image. -/
def applySettings (s : State) : State :=
  let s := twinDefaults s
  let s := withSection s 2 applyLinks
  let s := withSection s 3 applyPoolDefaults
  let s := withSection s 7 applyPower
  let s := withSection s 6 applyCrossings
  let s := withSection s 5 applyUst
  withSection s 4 applyTwin

/-- Optical bring-up begins (R47, R234): light and reference clocks are seen, enabled ports leave DISABLED, lanes train where
there is light. -/
def startLinks (s : State) : State :=
  let s := (List.range 8).foldl (fun s i => s.wr (lightField i) (i / 2) (b2n (!s.pins.dark.contains i))) s
  let s := (List.range 4).foldl (fun s t => s.wr OPT_TILE.REFCLK_OK t (b2n (!s.pins.oclkLost.contains t))) s
  let s := (below 16 fun p => s.flag FAB_PORT.ENABLE p).foldl portStart s
  (List.range 4).foldl tileTrain s

/-- The boot options of the image: MARCH_MODE, WRITEBACK_OK, MARCH_ON_WARM (R55). -/
def marchMode (s : State) : Nat := leAt ((lySection s.boot.image 1).getD []) 0 1
def writebackOk (s : State) : Bool := bitOf (leAt ((lySection s.boot.image 1).getD []) 1 1) 0
def marchOnWarm (s : State) : Bool := bitOf (leAt ((lySection s.boot.image 1).getD []) 1 1) 1

/-- REPAIR ends (R59). -/
def execRepairDone (s : State) : Out :=
  if alive s && bootState s = 3 then
    let s := if s.boot.repaired then s else applyRows s
    let s := applyUnits (applyLayout (applyBanks (applyPolicies s)))
    let test := marchMode s != 0 && (!s.boot.warmStart || marchOnWarm s)
    .next (startLinks (applySettings (s.wr BOOT_STATE.STATE 0 (if test then 4 else 5))))
  else .next s

/-! ### MARCH and TRAIN (R60, R86) -/

/-- The start-up march test ends (R60): columns repaired, each a unit, an array and a column, and units that failed. -/
def execMarchDone (columns : List (BitVec 16 × BitVec 32 × BitVec 32)) (failed : List (BitVec 16)) (s : State) : Out :=
  if alive s && bootState s = 4 then
    let s := columns.foldl (fun s c => recordFault s c.1.toNat 3 c.2.1.toNat c.2.2.toNat 1) s
    let units := (dedup (sortNat (failed.map (·.toNat)))).filter physUnitOk
    let s := units.foldl (fun s u => recordFault s u 4 0 0 1) s
    let s := refreshPools (showUnits (showRoles (startFailures s units)))
    let found := !(columns.isEmpty && failed.isEmpty)
    let s := if found then
        { s with boot := { s.boot with foundFaults := true } }.wr BOOT_STATUS.MARCH_FAULTS 0 1
      else s
    .next (s.wr BOOT_STATE.STATE 0 5)
  else .next s

/-- The bytes of a repair log with a sequence number: header and records (R58). -/
def logBytes (seq : Nat) (l : List (List Byte)) : List Byte :=
  [0x52, 0x50, 0x4C, 0x47] ++ toLe 4 seq ++ toLe 4 l.length ++ List.replicate 20 0 ++ l.flatten

/-- A write-back takes place if the image permits it (R58): without an identity, or with the flash controller's grove STOPPED
(R448), it fails at once. -/
def writebackStart (s : State) : State :=
  if !writebackOk s || s.boot.writing.isSome then s
  else if s.flag BOOT_STATUS.IDENTITY_FAIL || s.rd CLK_GROVE.STATE 3 = 2 then s.wr BOOT_STATUS.WRITEBACK_FAIL 0 1
  else
    let l := s.boot.log
    { s with boot := { s.boot with writing := some (1 - s.boot.logSlot, logBytes (s.boot.logSeq + 1) l, l.length) } }

/-- DRAM is trained: RESIDENT is entered, ports answer configuration requests, and faults found at start are written back. -/
def execTrainDone (s : State) : Out :=
  if alive s && bootState s = 5 then
    let s := (s.wr MEM_STATUS.CONTENTS_KEPT 0 (b2n s.boot.kept)).wr BOOT_STATE.STATE 0 6
    let s := [0, 1].foldl (fun s p => s.setPort p { s.port p with retry := false }) s
    .next (if s.boot.foundFaults then writebackStart s else s)
  else .next s

/-- BOOT_CTRL.WRITEBACK. -/
def execWritebackRequest (s : State) : Out := .next (writebackStart s)

/-- A write-back is complete: the other slot holds the log and is current. -/
def execWritebackDone (s : State) : Out :=
  match s.boot.writing with
  | none => .next s
  | some (slot, b, n) =>
    let at_ := 0x210000 + 0x10000 * slot
    let s := (s.emit (.flash at_ b)).emit (.flash (65536 - 132 + at_) (Config.ecdsaSign s.idKey b))
    let s := { s with boot := { s.boot with writing := none, logSeq := s.boot.logSeq + 1, logSlot := slot } }
    .next (s.wrs 0 [(BOOT_STATUS.WRITEBACK_DONE, 1), (BOOT_STATUS.WRITEBACK_PENDING, b2n (n < s.boot.log.length || !s.boot.extra.isEmpty))])

/-- A write-back is abandoned at 5 s: the slot being written is left incomplete. -/
def execWritebackTimeout (s : State) : Out :=
  match s.boot.writing with
  | none => .next s
  | some _ => .next ({ s with boot := { s.boot with writing := none } }.wr BOOT_STATUS.WRITEBACK_FAIL 0 1)

/-! ### Firmware load (R62) and negotiation (R63) -/

/-- A status in BOOT_FW_CMD. -/
def fwStatus (s : State) (st : Nat) : State := s.wr BOOT_FW_CMD.STATUS 0 st

/-- The host address and length of the image. -/
def fwBase (s : State) : Nat := 4096 * s.rd BOOT_FW_BASE.ADDR
def fwLen (s : State) : Nat := s.rd BOOT_FW_LEN.LEN

/-- LOAD, written through port `p`. -/
def fwLoad (s : State) (p : Nat) : State :=
  let n := fwLen s
  if s.flag BOOT_FW_CMD.BUSY then s
  else if bootState s = 9 then fwStatus s 7
  else if bootState s ≠ 6 then fwStatus s 9
  else if n % 8 ≠ 0 || n < 4096 || 0x4000000 < n || 2 ^ 64 < fwBase s + n then fwStatus s 3
  else if !s.masterOn p then fwStatus s 4
  else
    { s with fw := { s.fw with loading := some (n, p) } }.wrs 0
      [(BOOT_FW_CMD.STATUS, 1), (BOOT_FW_CMD.BUSY, 1), (BOOT_STATE.STATE, 7)]

/-- BOOT_FW_CMD LOAD. -/
def execLoad (p : Fin 2) (s : State) : Out := .next (fwLoad s p)

/-- Why an image is not started at LOAD, if it is not: trailer, rollback, structure (R62, R323, R324, R417). -/
def loadStatus (s : State) (img : List Byte) : Option Nat :=
  if !trailerOk img then some 5
  else if imageOld s img then some 6
  else if !imageShape img then some 5
  else none

/-- The fetch and the verification of an image end. -/
def execFwLoadVerified (reply : HostReply) (s : State) : Out :=
  match s.fw.loading with
  | none => .next s
  | some (n, p) =>
    if s.masterOn p && !tagReady s p then .next s else
    let s := s.hostRead p none (fwBase s) n reply
    match reply with
    | .data l =>
      let img := bytesAt l 0 n
      match loadStatus s img with
      | some st => .next (loadFailed s st)
      | none =>
        let s := startImage { s with fw := { s.fw with loading := none, started := true, running := img } } img
        .next (s.wr PWR_ACT_VER.RUN_VERSION 0 (leAt (trailerOf img) 8 4))
    | _ => .next (loadFailed s 4)

/-- Loaded firmware is discarded. -/
def fwDiscard (s : State) (st : Nat) : State :=
  let s := loadFailed (stopImage s) st
  { s with fw := { s.fw with running := [] } }.wr PWR_ACT_VER.RUN_VERSION 0 0

/-- The running image publishes its features and its interface version (R63, R417). -/
def publishFeatures (s : State) (img : List Byte) : State :=
  let s := (s.wr BOOT_FEAT_DEV.FEATURES 0 (leAt img 16 8)).wr BOOT_FEAT_DEV.FEATURES 1 (leAt img 24 8)
  s.wrs 0 [(BOOT_IFVER.DEV_MAJOR, leAt img 12 2), (BOOT_IFVER.DEV_MINOR, leAt img 14 2)]

/-- Loaded firmware declares itself ready. Firmware without feature bit 9 is not ready while a crossing class is in hold mode
(R449). -/
def execFwReady (s : State) : Out :=
  if s.fw.started && bootState s = 7 then
    if s.rd CLK_CFG.HOLD ≠ 0 && !bitOf (leAt s.fw.running 16 8) 9 then .next (fwDiscard s 8)
    else
      let s := publishFeatures { s with fw := { s.fw with started := false } } s.fw.running
      .next (resumeLoops (s.wrs 0 [(BOOT_FW_CMD.STATUS, 2), (BOOT_FW_CMD.BUSY, 0), (BOOT_STATE.STATE, 8)]))
  else .next s

/-- Firmware has not declared itself ready within 2,000 ms. -/
def execFwReadyTimeout (s : State) : Out :=
  if s.fw.started && bootState s = 7 then .next (fwDiscard s 8) else .next s

/-- The agreed minor version: the lower of the two (R63). -/
def agreedMinor (s : State) : Nat := min (s.rd BOOT_IFVER.DEV_MINOR) (s.rd BOOT_IFVER.DRV_MINOR)

/-- Whether a glade besides glade 0 exists. -/
def anyGlade (s : State) : Bool := (List.range 255).any fun g => s.gladeExists (g + 1)

/-- NEGOTIATE (R63, R64). The first one in force brings glade 0 and its instance 0 into being (R281). -/
def negotiateCmd (s : State) : State :=
  if s.flag BOOT_FW_CMD.BUSY then s
  else if bootState s ≠ 8 then fwStatus s 9
  else if anyGlade s then fwStatus s 0xB
  else if s.rd BOOT_IFVER.DEV_MAJOR ≠ s.rd BOOT_IFVER.DRV_MAJOR then
    fwStatus ((s.wr BOOT_FEAT_AGREED.FEATURES 0 0).wr BOOT_FEAT_AGREED.FEATURES 1 0) 0xA
  else
    let f := Nat.land (s.rd BOOT_FEAT_DEV.FEATURES 0) (s.rd BOOT_FEAT_DRV.FEATURES 0)
    let s := (s.wr BOOT_FEAT_AGREED.FEATURES 0 (f % 0x10000)).wr BOOT_FEAT_AGREED.FEATURES 1 0
    let s := if s.gladeExists 0 then s
      else ((s.wr GLD_INST.VALID 0 1).wr GLD_QUOTA_A.EXISTS 0 1).wr GLD_USE_A.INSTANCES 0 1
    fwStatus (refreshPools s) 2

/-- BOOT_FW_CMD NEGOTIATE. -/
def execNegotiate (s : State) : Out := .next (negotiateCmd s)

end Sys2Proof.Machine
end

