-- ==== Sys2Proof/Machine/Pins.lean ====
section
/-! DEFINITION. The signals of the package (R29 to R41): supplies, resets, reference clocks and the thermal trip. Choices and
readings of the model: log entry 44. -/
namespace Sys2Proof.Machine

open Sys2Proof

/-- Power is lost (R32): every unit resets and DRAM contents are gone. The cause is recorded, and `dead` says what keeps the
device in reset when PWRGD stays high. -/
def powerDown (s : State) (cause dead : Nat) : State :=
  let s := (powerLost s).wr BOOT_RESET_CAUSE.CAUSE 0 cause
  { s with boot := { s.boot with dead := dead } }

/-- AUX_PWRGD rises: the device is in standby. -/
def execAuxPwrgdRise (s : State) : Out := .next { s with pins := { s.pins with aux := true } }

/-- AUX_PWRGD falls: everything is held in reset, THERMTRIP_N is released, and what VDD_AUX held is cleared (R39, R68,
R319). -/
def execAuxPwrgdFall (s : State) : Out :=
  if s.pins.aux then
    let s := powerLost s
    .next { s with regs := [], pins := { s.pins with aux := false, trip := false }, boot := { ({} : Boot) with dead := 2 } }
  else .next s

/-- PWRGD rises (R31, R35, R37, R437): the straps are sampled, local time starts at 0, and the start sequence begins unless
SYS_RST_N is low. It does not begin with STRAP_TEST at 1, with no SYSCLK_25, or with AUX_PWRGD low. A port whose PERST_x_N is
already high is held for 100 ms. A device that has tripped starts again with THERMTRIP_N still low (log entry 44). -/
def execPwrgdRise (test slow sysclk : Bool) (s : State) : Out :=
  if s.pins.pwr then .next s
  else
    let dead := if test || !sysclk || !s.pins.aux then 2 else 0
    let early := [0, 1].filter fun p => !s.pins.perst.contains p
    let s := s.wr TLM_TIME.NS 0 0
    .next
      { s with
        boot := { s.boot with dead := dead },
        pins := { s.pins with pwr := true, strapTest := test, strapSlow := slow, early := early } }

/-- PWRGD falls: a power-on reset. A cause recorded by a reset that the device is still held in stays. -/
def execPwrgdFall (s : State) : Out :=
  if s.pins.pwr then
    let cause := if s.boot.dead = 1 then s.rd BOOT_RESET_CAUSE.CAUSE else 1
    let s := powerDown s cause 0
    .next { s with pins := { s.pins with pwr := false, early := [] } }
  else .next s

/-- SYS_RST_N goes low: a warm device reset (R65); with PWRGD low nothing but the level changes (R41). -/
def execSysRstNAssert (s : State) : Out :=
  if s.pins.sysRst then .next s
  else .next (warmBegin { s with pins := { s.pins with sysRst := true } } 4)

/-- SYS_RST_N rises: a start sequence or a warm device reset that it held goes on. -/
def execSysRstNRelease (s : State) : Out :=
  if s.pins.sysRst then
    let s := { s with pins := { s.pins with sysRst := false } }
    .next (if alive s then portsRelease s else s)
  else .next s

/-- PERST_x_N goes low: a fundamental reset of the port (R65). -/
def execPerstAssert (p : Fin 2) (s : State) : Out :=
  if s.pins.perst.contains p then .next s
  else
    let s := { s with pins := { s.pins with perst := p.val :: s.pins.perst, early := s.pins.early.filter (· != p.val) } }
    if alive s && !(s.port p).inReset then
      let s := portReset s p 2
      .next (s.setPort p { s.port p with inReset := true })
    else .next s

/-- A port leaves fundamental reset, when the device is not in reset itself. -/
def portLeaves (s : State) (p : Nat) : State := if alive s then s.setPort p { s.port p with inReset := false } else s

/-- PERST_x_N rises (R31): within 100 ms of PWRGD the port holds itself in fundamental reset. -/
def execPerstRelease (p : Fin 2) (s : State) : Out :=
  if s.pins.perst.contains p then
    let s := { s with pins := { s.pins with perst := s.pins.perst.filter (· != p.val) } }
    if !s.pins.pwr then .next s
    else if s.now < 100000000 then .next { s with pins := { s.pins with early := p.val :: s.pins.early } }
    else .next (portLeaves s p)
  else .next s

/-- 100 ms have passed since PWRGD rose: a port whose PERST_x_N rose early leaves fundamental reset. -/
def execPerstHoldExpire (p : Fin 2) (s : State) : Out :=
  if s.pins.early.contains p && 100000000 ≤ s.now then
    .next (portLeaves { s with pins := { s.pins with early := s.pins.early.filter (· != p.val) } } p)
  else .next s

/-- A monitored rail sags while PWRGD is high (R33). -/
def execRailSag (rail : Fin 4) (s : State) : Out :=
  if s.pins.pwr && s.pins.aux then .next ((powerDown s 2 1).wr BOOT_RESET_CAUSE.RAIL 0 rail) else .next s

/-- SYSCLK_25 stops while the device runs (R35). -/
def execSysclkStop (s : State) : Out := if powered s then .next (powerDown s 3 1) else .next s

/-- A host reference clock stops (R35): a link that is up is lost as DL_Down, and the port stays in detect. -/
def execHclkLoss (p : Fin 2) (s : State) : Out :=
  if s.pins.hclkLost.contains p then .next s
  else .next (hostLinkLost { s with pins := { s.pins with hclkLost := p.val :: s.pins.hclkLost } } p)

/-- A host reference clock returns. -/
def execHclkReturn (p : Fin 2) (s : State) : Out :=
  .next { s with pins := { s.pins with hclkLost := s.pins.hclkLost.filter (· != p.val) } }

/-- An optical reference clock is lost (R35): the tile's lanes go down and do not train, and its ports are reported down. -/
def execOclkLoss (t : Fin 4) (s : State) : Out :=
  if s.pins.oclkLost.contains t then .next s
  else
    let s := { s with pins := { s.pins with oclkLost := t.val :: s.pins.oclkLost } }
    if !repaired s then .next s
    else
      let s := (tileLanes t).foldl laneSettled (s.wr OPT_TILE.REFCLK_OK t 0)
      .next (reportLight (((tileLanes t).filter fun l => s.lane l == 1 || s.lane l == 2).foldl (fun s l => setLane s l 0) s) t)

/-- An optical reference clock returns: the tile's lanes can train again. -/
def execOclkReturn (t : Fin 4) (s : State) : Out :=
  let s := { s with pins := { s.pins with oclkLost := s.pins.oclkLost.filter (· != t.val) } }
  if repaired s then .next (tileTrain (s.wr OPT_TILE.REFCLK_OK t 1) t) else .next s

/-- The optical lanes and what they carry stop without a clock to report it (R39): lanes, ports and links are down. -/
def lanesStop (s : State) : State :=
  let s := { s with fab := { s.fab with retrain := [], sparing := [], lightOwed := [] } }
  let s := (List.range 50).foldl (fun s l => s.wr OPT_LANE.STATE l 0) s
  let s := (List.range 16).foldl (fun s p => s.wr FAB_PORT.STATE p Po.disabled) s
  let s := (List.range 8).foldl (fun s u => (s.wr UST_LANE.STATE u 0).wr UST_LINK.UP u 0) s
  s.wrs 0 [(UST_STATUS.LANES_UP, 0), (TWN_STATUS.PORT0_UP, 0), (TWN_STATUS.PORT1_UP, 0)]

/-- A sensor reaches 115 °C (R39, R41): THERMTRIP_N goes low, the lanes stop, DRAM contents are lost, and the clocks stop;
a reset in progress is abandoned. -/
def execThermalTrip (s : State) : Out :=
  if s.pins.aux && s.pins.pwr then
    let s := portSilent (portSilent (dropDram s) 0) 1
    let s := lanesStop s
    .next ({ s with pins := { s.pins with trip := true }, boot := { s.boot with dead := 3, warm := 0 } }.wr
      BOOT_RESET_CAUSE.PREV_TRIP 0 1)
  else .next s

/-- THERM_ALERT_N is low: the thermal ladder is at warning or above (R36); in standby it is released (R29). -/
def thermAlert (s : State) : Bool := s.pins.pwr && s.pins.aux && s.rd PWR_STATUS.LEVEL != 0

/-- THERMTRIP_N is low (R36, R39). -/
def thermTrip (s : State) : Bool := s.pins.trip

end Sys2Proof.Machine
end

