-- ==== Sys2Proof/Machine/Power.lean ====
section
/-! DEFINITION. Firmware activation and power and thermal control (R417 to R433): the firmware store, commits, the activation
states, the thermal ladder, the power limiter and the firmware loops. Choices and readings of the model: log entries 25 and
30. -/
namespace Sys2Proof.Machine

open Sys2Proof

/-! ### The firmware store (R313, R418) -/

/-- A write to PWR_FW_STORE: REGION only while ENABLE is 0, ENABLE only over a valid region of glade 0 of 64 MiB or more, and
clearing it only in IDLE. -/
def fwStoreWrite (s : State) (v : Nat) : State :=
  let r := bitsOf v 0 10
  let on := bitOf v 10
  if s.flag PWR_FW_STORE.ENABLE then
    if on || s.rd PWR_ACT.STATE ≠ 0 then s else s.wr PWR_FW_STORE.ENABLE 0 0
  else
    let s := s.wr PWR_FW_STORE.REGION 0 r
    if on && s.flag MEM_RGN_A.VALID r && s.rd MEM_RGN_A.GLADE r = 0 && 0x4000000 ≤ rgnLen s r then
      { s with fw := { s.fw with next := 0, short := false } }.wr PWR_FW_STORE.ENABLE 0 1
    else s

/-- A write of PWR_FW_STORE with ENABLE. -/
def execFwStoreEnable (v : Word) (s : State) : Out := unlessNoImage s <| .next (fwStoreWrite s v.toNat)

/-- The internal address of the store. -/
def fwStoreBase (s : State) : Nat := rgnBase s (s.rd PWR_FW_STORE.REGION)

/-- A piece at offset 0 discards any partial image, and what was staged from it (R313, R420). -/
def fwRestart (s : State) : State :=
  let s := { s with fw := { s.fw with next := 0, short := false } }
  match s.rd PWR_ACT.STATE with
  | 1 => (setAct s 0).wr PWR_ACT_VER.STAGED_VERSION 0 0
  | 2 => (setAct (s.wr PWR_ACT.LAST_RESULT 0 5) 0).wr PWR_ACT_VER.STAGED_VERSION 0 0
  | _ => s

/-- The data of a FW_DOWNLOAD is at hand: it is written into the store. -/
def fwPiece (s : State) (q : Nat) (c : Cmd) (off n : Nat) (l : List Byte) : State :=
  let s := if off = 0 then fwRestart s else s
  let w := s.putMem (fwStoreBase s + off) (bytesAt l 0 n)
  if w.2 then stqEnd w.1 q c.entry St.mediumError 0
  else
    let s := { w.1 with fw := { w.1.fw with next := off + n, short := n % 4096 != 0 } }
    stqEnd s q c.entry St.success 0

/-- FW_DOWNLOAD (R311, R313, R418). `data` is the host's answer. A piece that would pass 64 MiB gives BAD_DESCRIPTOR. -/
def execFwDownload (q : Fin 8192) (data : HostReply) (s : State) : Out :=
  match adminCmd s q 0x85 with
  | none => .next s
  | some c =>
    let i := (s.queue (stqQid q)).inst
    let off := leAt c.bytes 32 4
    let n := leAt c.bytes 36 4
    if i ≠ 0 then .next (stqEnd s q c.entry St.protectionFault 0)
    else if !s.flag PWR_FW_STORE.ENABLE then .next (stqEnd s q c.entry St.resourceExhausted 0)
    else if off ≠ 0 && (off ≠ s.fw.next || s.fw.short) then .next (stqEnd s q c.entry 0x84 0)
    else if 0x4000000 < off + n then .next (stqEnd s q c.entry St.badDescriptor 0)
    else if !s.hostOn i then .next (stqEnd s q c.entry St.abortedHostAccessOff 0)
    else if !s.instReady i then .next s
    else
      let s := s.instRead i (leAt c.bytes 40 8) n data
      match data with
      | .data l => .next (fwPiece s q c off n l)
      | r => .next (stqEnd s q c.entry (replyStatus r) 0)

/-! ### Commits (R313, R419, R420) -/

/-- FW_COMMIT: verification begins. During an activation it completes at once; while another commit is being verified it
waits. -/
def execFwCommit (q : Fin 8192) (s : State) : Out :=
  match adminCmd s q 0x86 with
  | none => .next s
  | some c =>
    if (s.queue (stqQid q)).inst ≠ 0 then .next (stqEnd s q c.entry St.protectionFault 0)
    else if fetchPaused s then .next (stqEnd s q c.entry St.activationInProgress 0)
    else if s.fw.commit.isSome then .next s
    else
      let s := stqStarted s q c
      .next { s with fw := { s.fw with commit := some (stqQid q, c.entry, leAt c.bytes 24 1) } }

/-- The commit in progress completes with a status. -/
def commitEnd (s : State) (status : Nat) : State :=
  match s.fw.commit with
  | some (qid, e, _) => stqEnd { s with fw := { s.fw with commit := none } } (qidx qid) e status 0
  | none => s

/-- The checks of R419 that need the agreed interface, in order. -/
def commitFits (s : State) (img : List Byte) (action : Nat) : Bool :=
  let ho := leAt s.fw.running 32 2
  let agreed := fun (i : Nat) => s.rd BOOT_FEAT_AGREED.FEATURES i
  leAt img 12 2 == s.rd BOOT_IFVER.DRV_MAJOR
    && Nat.land (leAt img 16 8) (agreed 0) == agreed 0 && Nat.land (leAt img 24 8) (agreed 1) == agreed 1
    && within (leAt img 34 2) ho (leAt img 36 2)
    && (action == 0 || s.feature 15)

/-- Why a committed image fails, if it does: missing, unreadable, trailer, rollback, structure, and the checks of R419. -/
def commitStatus (s : State) (img : List Byte) (action : Nat) : Option Nat :=
  if !s.flag PWR_FW_STORE.ENABLE || s.fw.next = 0 then some 0x84
  else if s.memBad (fwStoreBase s) s.fw.next then some St.mediumError
  else if !trailerOk img then some St.integrityFail
  else if imageOld s img then some Sq.fwRollback
  else if !imageShape img then some St.integrityFail
  else if !commitFits s img action then some St.notSupported
  else none

/-- QUIESCE is entered (R421, R461): the loops stop, and halted firmware and management cores run again without breakpoints. -/
def enterQuiesce (s : State) : State :=
  let s := { s with fw := { s.fw with pauseAt := s.now } }
  let s := defaultClocks (setAct s 3)
  ((s.cpu.probes.map (·.1)).filter fun d => firmwareCore d).foldl
    (fun s d => { dbgResume s d false with cpu := { (dbgResume s d false).cpu with
      probes := Tab.set {} (dbgResume s d false).cpu.probes d {} } }) s

/-- A verified image is activated, or deferred while the control level is THROTTLE or higher. -/
def activate (s : State) : State :=
  if 2 ≤ controlLevel s then commitEnd (setAct (s.wr PWR_ACT.LAST_RESULT 0 6) 2) St.deferredEmergency else enterQuiesce s

/-- Verification of a committed image ends. -/
def execFwCommitVerified (s : State) : Out :=
  match s.fw.commit with
  | none => .next s
  | some (_, _, action) =>
    if fetchPaused s then .next s
    else
      let img := s.bytes (fwStoreBase s) s.fw.next
      match commitStatus s img action with
      | some st => .next (commitEnd (s.noteStatus st (fwStoreBase s) s.fw.next) st)
      | none =>
        let s := { s with fw := { s.fw with staged := img } }.wr PWR_ACT_VER.STAGED_VERSION 0 (leAt (trailerOf img) 8 4)
        if action = 0 then
          let s := if s.rd PWR_ACT.STATE = 2 then s.wr PWR_ACT.LAST_RESULT 0 5 else s
          .next (commitEnd (setAct s 1) St.success)
        else .next (activate s)

/-- The control level has stayed below THROTTLE for 500 ms in DEFERRED. A commit that is still being verified meets the
activation as one that arrives during it does (R420). -/
def execDeferredStartExpire (s : State) : Out :=
  if s.rd PWR_ACT.STATE = 2 && controlLevel s < 2 then .next (enterQuiesce (commitEnd s St.activationInProgress)) else .next s

/-! ### The activation (R421 to R423) -/

/-- No storage command is still running but the commit that started the activation. -/
def storageDrained (s : State) : Bool :=
  s.queues.all fun q =>
    qcls q.1 != 5 || q.2.cmds.all fun c =>
      match s.fw.commit with
      | some (cq, ce, _) => cq == q.1 && ce == c.entry
      | none => false

/-- HANDOVER is entered: the seal lock is released, with its event where the old firmware held it (R341), the old image stops
and the new one starts. -/
def execQuiesceDone (s : State) : Out :=
  if s.rd PWR_ACT.STATE = 3 && storageDrained s then
    let s := setAct s 4
    let s :=
      if !s.flag SEC_SEAL_LOCK.HELD then { s with sec := { s.sec with sealMgmt := false } }
      else if s.sec.sealMgmt then sealExpire s
      else sealRelease s
    .next (startImage (stopImage s) s.fw.staged)
  else .next s

/-- The new image has read the handover record: it declares itself ready, and is the running image, or finds the record's
digest or version wrong. -/
def execHandoverReady (good : Bool) (s : State) : Out :=
  if s.rd PWR_ACT.STATE = 4 then
    if good then
      let s := { s with fw := { s.fw with running := s.fw.staged } }
      .next (setAct (s.wr PWR_ACT_VER.RUN_VERSION 0 (s.rd PWR_ACT_VER.STAGED_VERSION)) 5)
    else .next (fallback s 2)
  else .next s

/-- 40 ms pass in HANDOVER. -/
def execHandoverTimeout (s : State) : Out := .next (fallback s 3)

/-- The pause so far in ms (R433). -/
def showPause (s : State) : State := s.wr PWR_ACT.PAUSE_MS 0 (min ((s.now - s.fw.pauseAt) / 1000000) 0xFFFF)

end Sys2Proof.Machine
end

