-- ==== Sys2Proof/Machine/Offload.lean ====
section
/-! DEFINITION. Offload programs (R406 to R409, R413, R414) and the watchdog of firmware cores (R410). Choices and readings of
the model: log entry 29. -/
namespace Sys2Proof.Machine

open Sys2Proof

/-- An operation ends with a status, and BUSY clears. -/
def oflStatus (s : State) (st : Nat) : State :=
  { s with cpu := { s.cpu with ofl := none } }.wrs 0 [(CPU_OFL_CMD.BUSY, 0), (CPU_OFL_CMD.STATUS, st)]

/-- An operation is in progress. -/
def oflBusy (s : State) (op slot : Nat) : State :=
  { s with cpu := { s.cpu with ofl := some (op, slot) } }.wrs 0 [(CPU_OFL_CMD.BUSY, 1), (CPU_OFL_CMD.STATUS, 1)]

/-- The state of a slot (R408). -/
def slotState (s : State) (slot : Nat) : Nat := s.rd CPU_OFL_A.STATE slot

/-- The free pool cores of a mask of clusters, in ascending cluster and core order. -/
def freeCores (s : State) (mask : Nat) : List Nat := below 256 fun k => bitOf mask (k / 16) && coreRole s k == 1

/-- Where a slot's image lies and how long it is said to be. -/
def oflAddr (s : State) (slot : Nat) : Nat := s.rd CPU_OFL_B.ADDR slot
def oflLen (s : State) (slot : Nat) : Nat := s.rd CPU_OFL_B.LEN slot

/-- The header of an image holds its stated values (R406). -/
def oflHeaderOk (h : List Byte) (len : Nat) : Bool :=
  let n := leAt h 12 4
  leAt h 0 4 == 0x50464F46 && leAt h 4 2 == 1 && zeroAt h 6 2 && leAt h 8 4 % 2 == 0 && leAt h 8 4 < n
    && 64 ≤ n && n ≤ 262144 && n % 64 == 0 && zeroAt h 16 48 && len == 64 + n

/-- Why a LOAD is refused, if it is (R407). -/
def oflRefusal (s : State) (slot : Nat) : Option Nat :=
  let n := s.rd CPU_OFL_A.CORES slot
  let g := s.rd CPU_OFL_A.GLADE slot
  let a := oflAddr s slot
  let len := oflLen s slot
  if n < 1 || 192 < n || a % 64 ≠ 0 then some 0x03
  else if !s.feature 8 then some 0x08
  else if slotState s slot ≠ 0 then some 0x07
  else if len = 0 || !s.inGladeRgn g a len then some 0x04
  else if len < 64 || s.memBad a len || !oflHeaderOk (s.bytes a 64) len then some 0x06
  else if !mayTake s .cores g n || (freeCores s (s.rd CPU_OFL_A.CLUSTER_MASK slot)).length < n then some 0x05
  else none

/-- A core is taken for a slot, with the image body in its local memory. -/
def takeCore (s : State) (slot g : Nat) (body : List Byte) (k : Nat) : State :=
  let s := localStore (zeroCore s k) k 0 body
  s.wrs (coreEntry k) [(CPU_CORE.ROLE, 2), (CPU_CORE.GLADE, g), (CPU_CORE.SLOT, slot), (CPU_CORE.STATE, 0)]

/-- LOAD: the cores are taken, the image is copied and measured. -/
def oflLoad (s : State) (slot : Nat) : State :=
  match oflRefusal s slot with
  | some st => oflStatus (if st = 0x06 then s.noteRead (oflAddr s slot) (oflLen s slot) else s) st
  | none =>
    let g := s.rd CPU_OFL_A.GLADE slot
    let n := s.rd CPU_OFL_A.CORES slot
    let img := s.bytes (oflAddr s slot) (oflLen s slot)
    let cores := (freeCores s (s.rd CPU_OFL_A.CLUSTER_MASK slot)).take n
    let s := cores.foldl (fun s k => takeCore s slot g (img.drop 64) k) s
    let s := { s with cpu := { s.cpu with entry := Tab.set 0 s.cpu.entry slot (leAt img 8 4) } }
    let s := extendMeasurement (take s .cores g n) g (Config.sha512 img)
    oflBusy s 1 slot

/-- A core of a slot starts (R409): its index and the slot's core count. -/
def coreStart (s : State) (slot n : Nat) (p : Nat × Nat) : State :=
  let gp := Tab.set 0 (Tab.set 0 (Tab.set 0 [] 1 p.1) 2 n) 3 slot
  let s := (s.dropWait (.core p.2)).setCore p.2 { pc := Tab.get 0 s.cpu.entry slot, gp := gp, pl := 1 }
  showCore s p.2 (if (s.debugOf p.2).halted then 3 else 1)

/-- START. -/
def oflRun (s : State) (slot : Nat) : State :=
  if slotState s slot = 1 || slotState s slot = 3 then
    let l := slotCores s slot
    let s := ((List.range l.length).zip l).foldl (fun s p => coreStart s slot l.length p) (s.wr CPU_OFL_A.STATE slot 2)
    oflStatus s 2
  else oflStatus s 7

/-- STOP: the slot's cores begin to halt. -/
def oflStop (s : State) (slot : Nat) : State := if slotState s slot = 2 then oflBusy s 3 slot else oflStatus s 7

/-- A core returns to the pool. -/
def freeCore (s : State) (k : Nat) : State :=
  (zeroCore s k).wrs (coreEntry k) [(CPU_CORE.ROLE, 1), (CPU_CORE.GLADE, 0), (CPU_CORE.SLOT, 0), (CPU_CORE.STATE, 0)]

/-- UNLOAD. -/
def oflUnload (s : State) (slot : Nat) : State :=
  if slotState s slot = 1 || slotState s slot = 3 || slotState s slot = 4 then
    let l := slotCores s slot
    let s := l.foldl freeCore s
    let s := { s with cpu := { s.cpu with entry := Tab.set 0 s.cpu.entry slot 0 } }
    oflStatus (give (s.wr CPU_OFL_A.STATE slot 0) .cores (s.rd CPU_OFL_A.GLADE slot) l.length) 2
  else oflStatus s 7

/-- A write of CPU_OFL_CMD with START: the fields are stored, and unless BUSY the operation begins. While no management
firmware takes offload commands it is held (R412, R413, R421, R461). -/
def oflStart (s : State) (op slot : Nat) : State :=
  let s := s.wrs 0 [(CPU_OFL_CMD.OP, op), (CPU_OFL_CMD.SLOT, slot)]
  if !controlFetch s then holdStart s (.ofl op slot)
  else if s.flag CPU_OFL_CMD.BUSY then s
  else
    match op with
    | 1 => oflLoad s slot
    | 2 => oflRun s slot
    | 3 => oflStop s slot
    | 4 => oflUnload s slot
    | _ => oflStatus s 3

/-- OP 1. -/
def execOflLoad (slot : Fin 64) (s : State) : Out := unlessNoImage s <| .next (oflStart s 1 slot)

/-- The LOAD in progress is complete. -/
def execOflLoadDone (s : State) : Out :=
  match s.cpu.ofl with
  | some (1, slot) => .next (oflStatus (s.wr CPU_OFL_A.STATE slot 1) 2)
  | _ => .next s

/-- OP 2. -/
def execOflStart (slot : Fin 64) (s : State) : Out := unlessNoImage s <| .next (oflStart s 2 slot)

/-- OP 3. -/
def execOflStop (slot : Fin 64) (s : State) : Out := unlessNoImage s <| .next (oflStart s 3 slot)

/-- Every core of the slot being stopped has halted. A slot that has faulted meanwhile stays FAULTED. -/
def execOflStopDone (s : State) : Out :=
  match s.cpu.ofl with
  | some (3, slot) =>
    let s := if slotState s slot = 2 then (slotHalt s slot).wr CPU_OFL_A.STATE slot 3 else s
    .next (oflStatus s 2)
  | _ => .next s

/-- OP 4. -/
def execOflUnload (slot : Fin 64) (s : State) : Out := unlessNoImage s <| .next (oflStart s 4 slot)

/-! ### Held writes of START, and the end of a failover (R412, R421) -/

/-- Writes of START that were held run (R421, R461). -/
def runHeld (s : State) : State :=
  s.sec.heldStarts.foldl
    (fun s h =>
      match h with
      | .key op type glade slot kek => keyStart s op type glade slot kek
      | .att g => attStart s g
      | .ofl op slot => oflStart s op slot
      | .svc action unit force => if s.flag TWN_SVC.BUSY then s else svcRun s action unit force)
    { s with sec := { s.sec with heldStarts := [] } }

/-- Management firmware works again: held writes run, the loops resume, and growth rings that an activation paused go on (R366). -/
def controlBack (s : State) : State := ckpResume (if controlFetch s then resumeLoops (runHeld s) else s)

/-- The standby pair has taken control. Every set-up command of this model commits in one step, so that the command in
flight runs from its start. -/
def execMgmtFailoverDone (s : State) : Out :=
  if s.cpu.failover then
    .next (controlBack ({ s with cpu := { s.cpu with failover := false } }.wr CPU_MGMT.ACTIVE 0 (1 - activePair s)))
  else .next s

/-! ### Watchdogs (R401, R410) -/

/-- A firmware worker core has gone 10 ms without restarting its watchdog: it crashes. -/
def execCoreWatchdogExpire (k : Fin 256) (s : State) : Out :=
  if firmwareCore k && coreWorks s k && !(s.debugOf k).halted && 10000000 + (s.core k).wdog ≤ s.now then
    .next (softCrash s k)
  else .next s

end Sys2Proof.Machine
end

