-- ==== Sys2Proof/Machine/Thermal.lean ====
section
/-! DEFINITION. The end of an activation (R420 to R423), the thermal ladder, the power limiter and the firmware loops (R424 to
R431). Choices and readings of the model: log entry 30. -/
namespace Sys2Proof.Machine

open Sys2Proof

/-! ### The end of an activation -/

/-- Fetching has restarted on every queue under the new image. -/
def execActivationResumeDone (s : State) : Out :=
  if s.rd PWR_ACT.STATE = 5 then
    let s := ((showPause s).wr PWR_ACT.LAST_RESULT 0 1).bump PWR_CNT.COUNT 4
    let s := (setAct (publishFeatures s s.fw.running) 0).wr PWR_ACT_VER.STAGED_VERSION 0 0
    .next (controlBack (commitEnd { s with fw := { s.fw with staged := [] } } St.success))
  else .next s

/-- The old image runs again and fetching has restarted. -/
def execFallbackDone (s : State) : Out :=
  if s.rd PWR_ACT.STATE = 6 then
    .next (controlBack (commitEnd (setAct (showPause s) 0) St.coreFaultRetryable))
  else .next s

/-- The control level may have changed: THROTTLE in QUIESCE abandons the activation for now (R431). -/
def levelSettled (s : State) : State :=
  if s.rd PWR_ACT.STATE = 3 && 2 ≤ controlLevel s then
    let s := (showPause s).wr PWR_ACT.LAST_RESULT 0 6
    controlBack (commitEnd (setAct s 2) St.deferredEmergency)
  else s

/-! ### Sensors (R424, R426) -/

/-- Sensor `i` reads `t`, and a threshold is crossed if `t` reaches it. -/
def execThermalLevelEnter (i : Fin 16) (t : BitVec 12) (s : State) : Out :=
  let s := if s.flag PWR_SENSOR.FAULT i then s else s.wr PWR_SENSOR.TEMP i t.toNat
  .next (levelSettled (raiseLevel s))

/-- The threshold of a level, less HYST_C. -/
def leaveAt (s : State) : Nat → Nat
  | 1 => 8 * (s.rd PWR_THERM_CFG.WARN_C - s.rd PWR_THERM_CFG.HYST_C)
  | 2 => 8 * (s.rd PWR_THERM_CFG.THROTTLE_C - s.rd PWR_THERM_CFG.HYST_C)
  | _ => 8 * (s.rd PWR_THERM_CFG.EMERG_C - s.rd PWR_THERM_CFG.HYST_C)

/-- The sensors read `temps`, sensor 1 first, and have done so for 10 ms: if every one stays below the level's threshold less
HYST_C, the level falls to what the readings give. -/
def execThermalLevelExit (temps : List (BitVec 12)) (s : State) : Out :=
  let s := (List.range 16).foldl
    (fun s i =>
      match temps[i]? with
      | some t => if s.flag PWR_SENSOR.FAULT i then s else s.wr PWR_SENSOR.TEMP i t.toNat
      | none => s) s
  let s := showTemps s
  let old := s.rd PWR_STATUS.LEVEL
  if old ≠ 0 && s.rd PWR_STATUS.TMAX < leaveAt s old then
    let new := levelOf s (s.rd PWR_STATUS.TMAX)
    .next (levelSettled (thermEvent (setLevel s new) (hotSensor s) new old false))
  else .next (levelSettled (raiseLevel s))

/-- A sensor fails its self-check. -/
def execSensorFault (i : Fin 16) (s : State) : Out :=
  if s.flag PWR_SENSOR.FAULT i then .next s
  else
    let s := showTemps (s.wr PWR_SENSOR.FAULT i 1)
    let old := s.rd PWR_STATUS.LEVEL
    let new := max old (levelOf s (s.rd PWR_STATUS.TMAX))
    .next (levelSettled (thermEvent (setLevel s new) i new old true))

/-! ### The power limiter (R427) -/

/-- The average of the newest `n` samples, in W. -/
def powerAvg (l : List Nat) (n : Nat) : Nat := sumNat (l.take n) / max n 1

/-- The limiter engages or releases. -/
def setLimiter (s : State) (on : Bool) (avg : Nat) : State :=
  let s := showClocks (s.wr PWR_STATUS.HW_LIMIT 0 (b2n on))
  let s := if on then s.bump PWR_CNT.COUNT 3 else s
  s.raiseUnit 0x1302 (unitId 0 0) (b2n on + 2 ^ 16 * (avg % 4096))

/-- The samples that the window of HW_WINDOW_US holds, at one each 10 µs. -/
def windowLen (s : State) : Nat := s.rd PWR_HW_CFG.HW_WINDOW_US / 10

/-- Engage or release by the samples: over the window, or over 10 ms. -/
def limiterStep (s : State) : State :=
  let l := s.pwr.samples
  let n := windowLen s
  let w := s.rd PWR_HW_CFG.HW_LIMIT_W
  if !s.flag PWR_STATUS.HW_LIMIT then
    if w ≠ 0 && n ≠ 0 && n ≤ l.length && w * n < sumNat (l.take n) then setLimiter s true (powerAvg l n) else s
  else if l.length = 1000 && 100 * sumNat l < 95 * w * 1000 then setLimiter s false (powerAvg l 1000)
  else s

/-- A hardware cap is in force. -/
def capped (s : State) : Bool := hwCaps s != (16, 16, 16)

/-- One more 10 µs: a ms with a hardware cap in force is counted (R433). -/
def capTick (s : State) : State :=
  if capped s then
    if 99 ≤ s.pwr.capTicks then { s with pwr := { s.pwr with capTicks := 0 } }.bump PWR_CNT.COUNT 6
    else { s with pwr := { s.pwr with capTicks := s.pwr.capTicks + 1 } }
  else s

/-- Package power is measured as `w` W. -/
def execPowerSample (w : BitVec 12) (s : State) : Out :=
  let l := (w.toNat :: s.pwr.samples).take 1000
  let s := { s with pwr := { s.pwr with samples := l } }
  let s := s.wr PWR_STATUS.PKG_W 0 (powerAvg l (min 100 l.length))
  .next (levelSettled (capTick (limiterStep s)))

/-! ### The firmware loops and their registers (R429, R431, R433) -/

/-- The loops set the requested fractions. The spec gives no values but that none is above 16: each is free (log entry 30,
safe). -/
def execFwLoopTick (s : State) : Out :=
  if s.flag PWR_CLK.LOOP then
    let a := s.freeWord
    let v := a.1.toNat
    .next (showClocks (a.2.wrs 0 [(PWR_CLK.TILE_REQ, v % 17), (PWR_CLK.CORE_REQ, v / 17 % 17),
      (PWR_CLK.DRAM_REQ, v / 289 % 17)]))
  else .next s

/-- A write to PWR_LIMIT: held while an activation stops the loops. -/
def pwrLimitWrite (s : State) (v : Nat) : State :=
  if fetchPaused s then { s with pwr := { s.pwr with heldLimit := some v } } else limitApply s v

/-- A write to PWR_LIMIT. -/
def execPwrLimitWrite (v : Word) (s : State) : Out := unlessNoImage s <| .next (pwrLimitWrite s v.toNat)

/-- The image's thermal and power limits. -/
def powerSection (s : State) : List Byte := (lySection s.boot.image 7).getD []

/-- A write to PWR_THERM_CFG: ignored when it would raise a threshold above the image's value, break the ordering of R430, or
set HYST_C outside 1 to 10. -/
def thermCfgWrite (s : State) (v : Nat) : State :=
  let b := powerSection s
  let warn := bitsOf v 0 8
  let throttle := bitsOf v 8 8
  let emerg := bitsOf v 16 8
  let hyst := bitsOf v 24 4
  if s.flag PWR_LOCK.LOCKED then s
  else if warn ≤ leAt b 8 1 && throttle ≤ leAt b 9 1 && emerg ≤ leAt b 10 1 && warn + 3 ≤ throttle && throttle + 3 ≤ emerg
      && within 1 hyst 10 then
    levelSettled (raiseLevel (s.wrs 0 [(PWR_THERM_CFG.WARN_C, warn), (PWR_THERM_CFG.THROTTLE_C, throttle),
      (PWR_THERM_CFG.EMERG_C, emerg), (PWR_THERM_CFG.HYST_C, hyst)]))
  else s

/-- A write to PWR_THERM_CFG. -/
def execThermCfgWrite (v : Word) (s : State) : Out := unlessNoImage s <| .next (thermCfgWrite s v.toNat)

/-- A write to PWR_HW_CFG: ignored when locked or when a field is outside the ranges of R430. -/
def hwCfgWrite (s : State) (v : Nat) : State :=
  if s.flag PWR_LOCK.LOCKED then s
  else if within (leAt (powerSection s) 2 2) (bitsOf v 0 9) 480 && within 10 (bitsOf v 9 14) 10000
      && within 1 (bitsOf v 23 5) 16 && within 1 (bitsOf v 28 5) 16 && within 4 (bitsOf v 33 5) 16 then
    s.wrs 0 [(PWR_HW_CFG.HW_LIMIT_W, bitsOf v 0 9), (PWR_HW_CFG.HW_WINDOW_US, bitsOf v 9 14),
      (PWR_HW_CFG.DEF_TILE, bitsOf v 23 5), (PWR_HW_CFG.DEF_CORE, bitsOf v 28 5), (PWR_HW_CFG.DEF_DRAM, bitsOf v 33 5)]
  else s

/-- PWR_LOCK.LOCKED is set. -/
def execPwrLockSet (s : State) : Out := unlessNoImage s <| .next (s.wr PWR_LOCK.LOCKED 0 1)

end Sys2Proof.Machine
end

