-- ==== Sys2Proof/Machine/Crossings.lean ====
section
/-! DEFINITION. Groves and clock-domain crossings (R445 to R455): timeouts, holds, grove resets, and SRAM faults (R370, R371).
Choices and readings of the model: log entry 31. -/
namespace Sys2Proof.Machine

open Sys2Proof

/-- The state of a grove: 0 running, 1 in reset, 2 STOPPED, 3 out of service. -/
def groveState (s : State) (g : Nat) : Nat := s.rd CLK_GROVE.STATE g

/-- A crossing class is in hold mode. -/
def classHolds (s : State) (class_ : Nat) : Bool := bitOf (s.rd CLK_CFG.HOLD) class_

/-- A crossing is flagged in CLK_XERR: the FIRST fields take it while both flags are 0. -/
def flagCrossing (s : State) (f : Fld) (near far class_ : Nat) : State :=
  let s := if s.flag CLK_XERR.TIMEOUT || s.flag CLK_XERR.HOLD_LONG then s
    else s.wrs 0 [(CLK_XERR.FIRST_CLASS, class_), (CLK_XERR.FIRST_GROVE, far), (CLK_XERR.FIRST_NEAR, near)]
  s.wr f 0 1

/-- The payload of CLK_XING_TIMEOUT and CLK_HOLD_LONG (R454). -/
def crossingPayload (near far class_ : Nat) : Nat := far + near * 2 ^ 7 + 2 ^ 14 * class_

/-! ### What a stopped or reset grove loses (R448, R451) -/

/-- Operations of the security block in progress fail with STATUS 0x03. -/
def secLost (s : State) : State :=
  let s := if s.sec.keyOp.isSome then s.wrs 0 [(SEC_KEY_CMD.BUSY, 0), (SEC_KEY_CMD.STATUS, 3)] else s
  let s := if s.sec.att.isSome then s.wrs 0 [(SEC_ATT_CTRL.BUSY, 0), (SEC_ATT_CTRL.STATUS, 3)] else s
  let s := if s.sec.sealOp.isSome then s.wrs 0 [(SEC_SEAL_CTRL.BUSY, 0), (SEC_SEAL_CTRL.STATUS, 3)] else s
  let s := if s.rd SEC_ROLLBACK.ADV_STATUS = 1 then s.wr SEC_ROLLBACK.ADV_STATUS 0 3 else s
  let s := if s.sec.debugOp.isSome then s.wr TRL_STATUS.AUTH 0 2 else s
  { s with sec := { s.sec with keyOp := none, att := none, sealOp := none, sealRun := none, debugOp := none } }

/-- Operations of the flash controller in progress fail. -/
def flashLost (s : State) : State :=
  let s := if s.rd SEC_ROLLBACK.ADV_STATUS = 1 then s.wr SEC_ROLLBACK.ADV_STATUS 0 3 else s
  if s.boot.writing.isSome then
    { s with boot := { s.boot with writing := none } }.wr BOOT_STATUS.WRITEBACK_FAIL 0 1
  else s

/-- A Trail memory access in progress ends without its result. -/
def trailLost (s : State) : State := { s with cpu := { s.cpu with job := none } }

/-- A queue's wait on a sync counter ends with PEER_UNREACHABLE. -/
def ctrWaitLost (s : State) (w : Wait) : State :=
  match w.who, w.on with
  | .queue qid, .counter _ =>
    match waitingCmd s qid with
    | some c => (s.dropWait w.who).complete qid c St.peerUnreachable 0
    | none => s
  | _, _ => s

/-- The Understory engine is lost: its links and groups go down, and counter operations that wait end. -/
def ustLost (s : State) : State :=
  let s := (below 8 fun k => s.flag UST_LINK.UP k).foldl linkDown s
  let s := (below 64 fun g => s.flag UST_GRP_A.VALID g).foldl (fun s g => grpDown s g 0 0xFF) s
  s.waits.foldl ctrWaitLost s

/-- A twin port is lost. -/
def twinPortLost (s : State) (t lane : Nat) : State :=
  let was := twinLinkAlive s
  let s := if t = 0 then s.wr TWN_STATUS.PORT0_UP 0 0 else s.wr TWN_STATUS.PORT1_UP 0 0
  let s := (setLane (laneSettled s (32 + 2 * t)) (32 + 2 * t) lane)
  let s := setLane (laneSettled s (33 + 2 * t)) (33 + 2 * t) lane
  if was && !twinLinkAlive s then linkDead s else s

/-- What a grove's units become when it is STOPPED (R445, R448). -/
def groveLost (s : State) (g : Nat) : State :=
  if g < 2 then pairFail s g
  else if g = 2 then secLost s
  else if g = 3 then flashLost s
  else if g = 4 then (if powered s then powerDown s 3 1 else s)
  else if g = 5 then trailLost s
  else if g = 6 then ustLost s
  else if g < 15 then setLane (laneSettled s (36 + (g - 7))) (36 + (g - 7)) 3
  else if g < 17 then hostLinkLost s (g - 15)
  else if g < 25 then controllerFail s (g - 17)
  else if g < 41 then clusterOut s (g - 25) 1
  else if g < 45 then spareSiteFail s (g - 41)
  else if g < 49 then quadrantLost s (g - 45)
  else if g < 53 then transportFail s (g - 49) 1
  else if g < 57 then transportFail s (g - 53) 1
  else if g < 61 then markOut s (unitId 0xB (12 + (g - 57)))
  else if g < 77 then setFabPort s (g - 61) Po.failed
  else if g < 79 then twinPortLost s (g - 77) 3
  else if g < 83 then opticalOut s (g - 79)
  else channelsOut s (g - 83)

/-! ### Timeouts and holds (R447, R449, R453) -/

/-- A native-mode transfer from grove `near` to grove `far` has waited 1,024 watch-clock cycles. A grove that is in reset, or
out of service, is offered no transfer that could time out; one that another crossing has just found STOPPED is counted. -/
def execCrossingTimeout (near far : Fin 115) (class_ : Fin 4) (s : State) : Out :=
  let st := groveState s far
  if classHolds s class_ || (st ≠ 0 && st ≠ 2) then .next s
  else
    let s := (flagCrossing s CLK_XERR.TIMEOUT near far class_).bump CLK_XTO_CNT.COUNT far
    if st = 2 then .next s
    else
      let s := s.raiseUnit 0x1501 (unitId 0 0) (crossingPayload near far class_)
      .next (groveLost ((s.wr CLK_GROVE.HOLDING far 0).wr CLK_GROVE.STATE far 2) far)

/-- A hold-mode transfer has waited 1,024 watch-clock cycles: CLK_HOLD_LONG once for the far grove. -/
def execCrossingHoldLong (near far : Fin 115) (class_ : Fin 4) (s : State) : Out :=
  if !classHolds s class_ || groveState s far ≠ 0 then .next s
  else
    let s := flagCrossing s CLK_XERR.HOLD_LONG near far class_
    if s.flag CLK_GROVE.HOLDING far then .next s
    else .next ((s.wr CLK_GROVE.HOLDING far 1).raiseUnit 0x1502 (unitId 0 0) (crossingPayload near far class_))

/-- The far clock returns: held transfers complete. A STOPPED grove stays STOPPED. -/
def execFarClockReturn (far : Fin 115) (s : State) : Out := .next (s.wr CLK_GROVE.HOLDING far 0)

/-! ### Grove resets (R451) -/

/-- A tile's sequencer is reset: the running command is lost; program memory and scratchpad keep their contents, and its
configuration is reloaded. -/
def tileReset (s : State) (n : Nat) : State :=
  if s.tileOut n then s
  else
    let s := attendTileLost (tileFault s n Tf.lost) n
    let t := s.tile n
    let s := s.setTile n { prog := t.prog, lastQueue := t.lastQueue, lostRaised := t.lostRaised }
    [TILE_STATE.SEQ, TILE_ARITH_FLAGS.INVALID, TILE_SR_SEQ.SEQ, TILE_DMA_WAIT.CYCLES].foldl (fun s f => s.resetReg f n) s

/-- A worker core is reset: its local memory keeps its contents. -/
def coreReset (s : State) (k : Nat) : State :=
  if coreRole s k = 3 then s
  else if firmwareCore k then
    let s := (coreWorkLost s k).dropWait (.core k)
    showCore (s.setCore k { soft := (s.core k).soft, restarting := s.cpu.mgmtOn }) k 0
  else
    let s := (slotFault s k (s.core k).tcause).dropWait (.core k)
    showCore (s.setCore k {}) k (if coreRole s k = 2 then 3 else 0)

/-- A cluster is reset: ATTEND commands of its slice are lost with its tiles and cores. -/
def clusterReset (s : State) (c : Nat) : State :=
  let s := (List.range 4).foldl (fun s j => if onSpare s (4 * c + j) then s else tileReset s (4 * c + j)) s
  let s := (s.attends.filter fun a => (s.queue a.1).home == c && qcls a.1 == 2).foldl
    (fun s a => attendFail s a.1 Dec.tileLost) s
  (List.range 16).foldl (fun s j => coreReset s (16 * c + j)) s

/-- A management pair is reset: the standby pair takes control of an active one. -/
def pairReset (s : State) (p : Nat) : State :=
  if p = activePair s && mgmtOk s p && mgmtOk s (1 - p) && !s.cpu.failover then
    let s := (defaultClocks s).bump CPU_CNT.COUNT 2
    { s with cpu := { s.cpu with failover := true } }.raiseUnit 0x1203 (unitId 0x0 (p + 1)) (1 - p)
  else s

/-- A data port loses its lanes until the reset ends. -/
def portReset1 (s : State) (p : Nat) : State :=
  let s := laneSettled (laneSettled s (2 * p)) (2 * p + 1)
  [2 * p, 2 * p + 1].foldl (fun s l => if s.lane l = 3 then s else setLane s l 0) s

/-- Lanes of an optical tile go down until the reset ends. -/
def opticalReset (s : State) (t : Nat) : State :=
  (tileLanes t).foldl (fun s l => if s.lane l = 3 then s else setLane (laneSettled s l) l 0) s

/-- The Understory engine is reset: it loses its work, and the sync counters are 0; their grants are configuration and stay. -/
def ustReset (s : State) : State :=
  let s := ustLost s
  { s with regs := s.regs.filter fun p => !(UST_CTR.VALUE.base ≤ p.1 && p.1 < UST_CTR.VALUE.base + 8 * 65536) }

/-- The security block is reset: it loses its work, the seal lock with its buffers, and the key material written. Key slots,
seal slots, counters and watermarks keep what R319 says they keep. -/
def secReset (s : State) : State := (sealRelease (secLost s)).setWords SEC_KEY_DATA.BYTES 0 17 []

/-- The grove that holds a unit that can be tested on request (R445). -/
def groveTested (unit : Nat) : Nat :=
  let i := unit % 0x1000
  match unit / 0x1000 with
  | 0x2 => 25 + i
  | 0x3 => if i < 64 then 25 + i / 4 else 41 + (i - 64)
  | 0x4 => 25 + i / 32
  | _ => if i / 4 = 1 then 49 + i % 4 else 53 + i % 4

/-- A unit that holds the agent of a grove, if region controllers manage it (R12, R445). -/
def groveAgent (g : Nat) : Option Nat :=
  if 7 ≤ g && g < 15 then some (unitId 0x8 (1 + (g - 7)))
  else if g < 25 then none
  else if g < 41 then some (unitId 0x2 (g - 25))
  else if g < 45 then some (unitId 0x3 (64 + (g - 41)))
  else if g < 49 then some (unitId 0xB (g - 45))
  else if g < 53 then some (unitId 0xB (4 + (g - 49)))
  else if g < 57 then some (unitId 0xB (8 + (g - 53)))
  else if g < 61 then some (unitId 0xB (12 + (g - 57)))
  else if g < 77 then some (unitId 0x6 (g - 61))
  else if g < 79 then some (unitId 0x7 (g - 77))
  else if g < 83 then some (unitId 0xA (g - 79))
  else some (unitId 0x5 (2 * (g - 83)))

/-- What a grove in reset loses: the work in its units, as their chapters give, and a march test on one of them (R67). -/
def groveResetLoss (s : State) (g : Nat) : State :=
  let s :=
    match s.boot.march with
    | some (unit, _) => if groveTested unit = g then marchAbandon s 5 else s
    | none => s
  if g < 2 then pairReset s g
  else if g = 2 then secReset s
  else if g = 3 then flashLost s
  else if g = 4 then s
  else if g = 5 then trailLost s
  else if g = 6 then ustReset s
  else if g < 15 then
    (if s.lane (36 + (g - 7)) = 3 then s else setLane (laneSettled s (36 + (g - 7))) (36 + (g - 7)) 0)
  else if g < 17 then hostLinkLost s (g - 15)
  else if g < 25 then s
  else if g < 41 then clusterReset s (g - 25)
  else if g < 45 then
    (match spareServes s (g - 41) with
      | some n => tileReset s n
      | none => s)
  else if g < 49 then s
  else if g < 53 then (List.range 4).foldl (fun s i => portReset1 s (4 * (g - 49) + i)) s
  else if g < 61 then s
  else if g < 77 then portReset1 s (g - 61)
  else if g < 79 then twinPortLost s (g - 77) (if s.lane (32 + 2 * (g - 77)) = 3 then 3 else 0)
  else if g < 83 then opticalReset s (g - 79)
  else s

/-- A grove that runs is reset. A count towards a timeout stops. -/
def groveReset (s : State) (g : Nat) : State :=
  if groveState s g = 0 then groveResetLoss ((s.wr CLK_GROVE.HOLDING g 0).wr CLK_GROVE.STATE g 1) g else s

/-- The agent of a grove is moving to another controller (R13). -/
def groveMoving (s : State) (g : Nat) : Bool :=
  match groveAgent g with
  | some u => unitMoving s u
  | none => false

/-- A region controller or a unit agent resets a grove; the reset is held while the agent moves to another controller (R13). -/
def execGroveReset (g : Fin 115) (s : State) : Out :=
  if groveMoving s g then .next (holdCtl s (.grove g)) else .next (groveReset s g)

/-- A held control operation still waits. -/
def ctlWaits (s : State) : HeldCtl → Bool
  | .svc _ unit _ => unitMoving s unit
  | .march unit _ => unitMoving s unit
  | .grove g => groveMoving s g

/-- A held control operation goes on (R13). -/
def runCtl (s : State) : HeldCtl → State
  | .svc action unit force => svcRun (s.wr TWN_SVC.BUSY 0 0) action unit force
  | .march unit mode => marchRun (s.wr BOOT_MARCH.BUSY 0 0) unit mode
  | .grove g => groveReset s g

/-- Control operations whose agents no longer move go on, in order. -/
def releaseCtl (s : State) : State :=
  let l := s.boot.heldCtl
  let run := l.filter fun h => !ctlWaits s h
  run.foldl runCtl { s with boot := { s.boot with heldCtl := l.filter (ctlWaits s) } }

/-- The agents of a failed controller have moved, and what was held for them goes on (R13). -/
def execAgentMoveDone (k : Fin 8) (s : State) : Out :=
  .next (releaseCtl { s with boot := { s.boot with moving := s.boot.moving.filter (· != k.val) } })

/-- A region controller fails (R13, R372). When its alternate has failed too nothing moves any more, and operations that were
held find their units out of service. -/
def execRegionControllerFail (k : Fin 8) (s : State) : Out := .next (releaseCtl (controllerFail s k))

/-- The optical tile that serves the lanes of a grove, if it has lanes. -/
def groveOptics (g : Nat) : List Nat :=
  if 7 ≤ g && g < 15 then [laneTile (36 + (g - 7))]
  else if 49 ≤ g && g < 53 then [g - 49]
  else if 61 ≤ g && g < 77 then [(g - 61) / 4]
  else if 77 ≤ g && g < 79 then [laneTile (32 + 2 * (g - 77)), laneTile (33 + 2 * (g - 77))]
  else if 79 ≤ g && g < 83 then [g - 79]
  else []

/-- Firmware cores of a cluster start again after a reset. -/
def clusterRestart (s : State) (c : Nat) : State :=
  (List.range 16).foldl
    (fun s j =>
      let k := 16 * c + j
      if (s.core k).restarting && s.cpu.mgmtOn then startFirmware s k (sectionBytes s.fw.running 2) else s) s

/-- CLK_LOCK.LOCKED is set. -/
def execClkLockSet (s : State) : Out := unlessNoImage s <| .next (s.wr CLK_LOCK.LOCKED 0 1)

/-! ### SRAM faults (R370, R371) -/

/-- The operation that read an uncorrectable SRAM word of a tile or a worker core: the tile's running command, the core's load
(R403). -/
def sramRead (s : State) (unit : Nat) : State :=
  let i := unit % 0x1000
  if unit / 0x1000 = 3 && i < 64 then tileFault s i Tf.medium
  else if unit / 0x1000 = 4 && i / 32 < 16 && i % 32 < 16 then
    let k := i / 32 * 16 + i % 32
    if coreRuns s k then
      let a := s.freeWord
      trap a.2 k 11 (a.1.toNat % 2 ^ 32)
    else s
  else s

/-- A tile or a worker core fails for its SRAM: cause 2. -/
def sramFail (s : State) (unit : Nat) : State :=
  let i := unit % 0x1000
  if unit / 0x1000 = 3 then
    (if i < 64 then tileFail s i 2
     else if i < 68 then (if s.flag GLB_TILE_MAP.IN_USE (i - 64) then s else spareTileFail s (i - 64) 2)
     else s)
  else if unit / 0x1000 = 4 && i / 32 < 16 then
    (if i % 32 < 16 then coreFail s (i / 32 * 16 + i % 32) 2 true
     else if i % 32 = 16 then (if s.flag GLB_CORE_MAP.IN_USE (i / 32) then s else spareCoreFail s (i / 32) 2)
     else s)
  else s

/-- The unit whose physical record names a fault of a unit in service (R17, R57). -/
def physOf (s : State) (unit : Nat) : Nat :=
  let i := unit % 0x1000
  if unit / 0x1000 = 3 && i < 64 then unitId 0x3 (tilePhys s i)
  else if unit / 0x1000 = 4 && i % 32 < 16 then coreUnitOf (i / 32) (corePhys s (i / 32 * 16 + i % 32))
  else unit

/-- A word of an SRAM array has a recurring hard bit, or reads as uncorrectable; `again` says that it was uncorrectable at its
last read too. The operation that read an uncorrectable word completes with MEDIUM_ERROR, and a unit that fails again is
lost. -/
def execSramError (unit : BitVec 16) (array column : BitVec 32) (hard again : Bool) (s : State) : Out :=
  if hard then .next (recordFault s (physOf s unit.toNat) 3 array.toNat column.toNat 2)
  else
    let s := sramRead s unit.toNat
    .next (if again then sramFail s unit.toNat else s)

end Sys2Proof.Machine
end

