-- ==== Sys2Proof/Machine/Registers.lean ====
section
/-! DEFINITION. Writes of the register space and the accesses of BAR0 that are flagged (R6, R8, R16, R21, R22, R24, R54).
Choices and readings of the model: log entry 32. -/
namespace Sys2Proof.Machine

open Sys2Proof

/-- The state a meaning answers; where it answers none, the state as it was. -/
def nextOf (s : State) (o : Out) : State :=
  match o with
  | .next t => t
  | _ => s

/-- A register number kept below a bound. -/
def finOf (n i : Nat) (h : 0 < n) : Fin n := ⟨i % n, Nat.mod_lt i h⟩

/-! ### Flagged accesses of BAR0 (R16, R21, R22) -/

/-- The flags of an access whose size or alignment is wrong: its size in bytes is neither 4 nor 8, or its offset is no
multiple of its size. -/
def badFlags (off size : Nat) : List Fld :=
  (if size = 4 || size = 8 then [] else [GLB_REG_ERR.BAD_SIZE])
    ++ (if size ≠ 0 && off % size = 0 then [] else [GLB_REG_ERR.MISALIGNED])

/-- A BAR0 access of a bad size or alignment: a read returns all ones and a write is dropped. Its size and its alignment are
judged before its place: in the reserved range or in the block of a tile that is out of service it sets MISALIGNED and BAD_SIZE
only, and a read of the reserved range returns all ones (log entry 32). -/
def execBar0BadAccess (off : BitVec 26) (size : BitVec 13) (write : Bool) (s : State) : Out :=
  match badFlags off.toNat size.toNat with
  | [] => .next s
  | l =>
    let s := flagAccess s off.toNat l
    .next (if write then s else s.emit (.answer 0 (List.replicate size.toNat 0xFF)))

/-- A BAR0 access to the reserved range: a read returns zeros and a write is dropped. `wide` is a 64-bit access. -/
def execBar0UnmappedAccess (off : BitVec 26) (wide write : Bool) (s : State) : Out :=
  if (blockOf off.toNat).isSome then .next s
  else
    let s := flagAccess s off.toNat [GLB_REG_ERR.UNMAPPED]
    .next (if write then s else s.emit (.answer 0 (List.replicate (if wide then 8 else 4) 0)))

/-- A BAR0 access to the register block of a logical tile that is out of service: a read returns all ones, a write is
dropped. A read of TILE_STATE shows SEQ 3 and sets no flag. -/
def execBar0OutOfSvcAccess (off : BitVec 26) (wide write : Bool) (s : State) : Out :=
  let n := if wide then 8 else 4
  if !offsetOut s off.toNat then .next s
  else if !write && off.toNat % 0x10000 / n * n < 8 then
    .next (s.emit (.answer 0 (bytesAt (toLe 8 3) (off.toNat % 8 / n * n) n)))
  else
    let s := flagAccess s off.toNat [GLB_REG_ERR.OUT_OF_SVC]
    .next (if write then s else s.emit (.answer 0 (List.replicate n 0xFF)))

/-! ### The word a write brings (R6, R22) -/

/-- A word that changes nothing when it is written to a register: its RW and RWL fields as they are, its other fields 0. -/
def neutralWord (s : State) (r : Reg) (i : Nat) : Nat :=
  r.fields.foldl (fun v f => if f.acc = .rw || f.acc = .rwl then putBits v f.lsb f.width (s.rd f i) else v) 0

/-- The word of a write: a 32-bit write replaces one half. -/
def writtenWord (old : Nat) (off : Nat) (wide : Bool) (v : Nat) : Nat :=
  if wide then v else if off % 8 = 0 then putBits old 0 32 v else putBits old 32 32 v

/-! ### Registers that do more than hold their fields

Each of these takes the register's base, its entry and the word written, and answers none for a register that only holds
its fields. -/

/-- BOOT. `p` is the port through which LOAD fetches the image. One write of BOOT_CTRL with both bits set starts the write-back
first, and the reset cuts it short (log entry 41). -/
def writeBoot (s : State) (p base v : Nat) : Option State :=
  if base = BOOT_CTRL.WARM_RESET.base then
    let s := if bitOf v 1 then writebackStart s else s
    some (if bitOf v 0 then nextOf s (execWarmReset (BitVec.ofNat 8 (bitsOf v 8 8)) s) else s)
  else if base = BOOT_FW_CMD.CMD.base then
    if s.flag BOOT_FW_CMD.BUSY then some s
    else if v % 4 = 1 then some (fwLoad s p)
    else if v % 4 = 2 then some (negotiateCmd s)
    else some s
  else if base = BOOT_MARCH.UNIT.base then some (marchWrite s (bitsOf v 0 16) (bitsOf v 16 2) (bitOf v 18))
  else none

/-- PWR. -/
def writePwr (s : State) (base v : Nat) : Option State :=
  if base = PWR_LIMIT.LIMIT_W.base then some (pwrLimitWrite s v)
  else if base = PWR_HW_CFG.DEF_TILE.base then some (hwCfgWrite s v)
  else if base = PWR_THERM_CFG.WARN_C.base then some (thermCfgWrite s v)
  else if base = PWR_FW_STORE.REGION.base then some (fwStoreWrite s v)
  else none

/-- MEM. Whether the twin has a matching target for a mirrored region is free (log entry 21, safe). -/
def writeMem (s : State) (base i v : Nat) : Option State :=
  if base = MEM_LAYOUT.LOCAL_GIB.base then some (nextOf s (execMemLayoutWrite (BitVec.ofNat 64 v) s))
  else if base = MEM_SCRUB_CFG.ENABLE.base then some (nextOf s (execScrubCfgWrite (BitVec.ofNat 64 v) s))
  else if base = MEM_MIRROR_FENCE.REGION.base then
    if bitOf v 16 then some (nextOf s (execMirrorFenceStart (finOf 1024 v (by decide)) s)) else none
  else if base = MEM_RGN_A.VALID.base then
    if bitOf v 0 then
      let b := s.freeBit
      some (nextOf b.2 (execRegionValidSet (finOf 1024 i (by decide)) (BitVec.ofNat 64 v) b.1 b.2))
    else if s.flag MEM_RGN_A.VALID i then some (regionClear s i)
    else none
  else if base = MEM_RGN_B.SIZE.base then if s.flag MEM_RGN_A.VALID i then some s else none
  else none

/-- TILE: entry `i` is a tile's, or a queue's for the queue registers. -/
def writeTile (s : State) (base i v : Nat) : Option State :=
  if base = TILE_CFG.GLADE.base then
    some (nextOf s (execTileCfgWrite (finOf 64 i (by decide)) (BitVec.ofNat 64 v) s))
  else if base = TILE_SR_SEED.SEED.base then some (seedWrite s i v)
  else if base = TILE_QBASE.LOC.base || base = TILE_QCBASE.LOC.base then
    if s.flag TILE_QCTRL.ENABLE i then some s else none
  else if base = TILE_QCTRL.ENABLE.base then
    let on := s.flag TILE_QCTRL.ENABLE i
    let s :=
      if on then (if bitOf v 0 then s else tileDisable s i)
      else if bitOf v 0 then nextOf s (execTileQueueEnable (finOf 512 i (by decide)) (BitVec.ofNat 64 v) s)
      else qctrlFields s i v
    let s := if bitOf v 31 then tileQueueReset s i St.abortedQueueReset else s
    some (if bitOf v 32 then tileResume s i else s)
  else none

/-- UST. A write of a link's fields decides again whether the link is up. -/
def writeUst (s : State) (base i v : Nat) : Option State :=
  if base = UST_LINK.LANES.base then
    let was := s.flag UST_LINK.UP i
    let s := linkEval (s.writeFields [UST_LINK.LANES, UST_LINK.EXPECT, UST_LINK.ANY] i v) i
    some (if was && !s.flag UST_LINK.UP i then linkDown s i else formGroups s)
  else if base = UST_GRP_A.VALID.base then
    if bitOf v 0 then some (nextOf s (execUstGroupValidSet (finOf 64 i (by decide)) (BitVec.ofNat 64 v) s))
    else if s.flag UST_GRP_A.VALID i then some (nextOf s (execUstGroupValidClear (finOf 64 i (by decide)) s))
    else none
  else if base = UST_GRP_B.PREV.base then if s.flag UST_GRP_A.VALID i then some s else none
  else if base = UST_CTR_BLK.GRANTED.base then
    if bitOf v 0 then
      some (nextOf s (execCtrBlockGrant (finOf 256 i (by decide)) (BitVec.ofNat 8 (bitsOf v 8 8)) s))
    else if s.flag UST_CTR_BLK.GRANTED i then some (ctrRevoke s i)
    else some (s.wr UST_CTR_BLK.GLADE i (bitsOf v 8 8))
  else if base = UST_CTR_ADD.VALUE.base then some (s.addCtr i v)
  else none

/-- FAB. -/
def writeFab (s : State) (base i v : Nat) : Option State :=
  if base = FAB_CTX_CFG.LOC.base then some (ctxCfgWrite s v)
  else if base = FAB_CTX_HOST.ADDR.base then if s.flag FAB_CTX_CFG.ENABLE then some s else none
  else if base = FAB_PEER_SEL.DEVICE.base then some (refreshPeerStat (s.wr FAB_PEER_SEL.DEVICE 0 v))
  else if base = FAB_PORT.ENABLE.base then some (portWrite s i v)
  else if base = FAB_SAL_RKT_CFG.ENABLE.base then some (rktWrite s v)
  else if base = FAB_SAL_FTN.FTN.base then
    some (nextOf s (execFtnWrite (finOf 256 i (by decide)) (BitVec.ofNat 16 v) s))
  else if base = FAB_SAL_PD.VALID.base then
    some (nextOf s (execPdWrite (finOf 4096 i (by decide)) (BitVec.ofNat 64 v) s))
  else none

/-- SCH. -/
def writeSch (s : State) (base i v : Nat) : Option State :=
  let w := BitVec.ofNat 64 v
  let n := finOf 4096 i (by decide)
  let k := finOf 1024 i (by decide)
  if base = SCH_GLADE_A.MIN.base then some (nextOf s (execSchNodeWrite false n false w s))
  else if base = SCH_GLADE_B.CAP.base then some (nextOf s (execSchNodeWrite false n true w s))
  else if base = SCH_INST_A.MIN.base then some (nextOf s (execSchNodeWrite true n false w s))
  else if base = SCH_INST_B.CAP.base then some (nextOf s (execSchNodeWrite true n true w s))
  else if base = SCH_POL_A.CIR.base then some (nextOf s (execPolicerWrite k false w s))
  else if base = SCH_POL_B.CBS.base then some (nextOf s (execPolicerWrite k true w s))
  else none

/-- HEP. -/
def writeHep (s : State) (base i v : Nat) : Option State :=
  if base = HEP_EVR_BASE.LOC.base then if s.flag HEP_EVR_CFG.ENABLE i then some s else none
  else if base = HEP_EVR_CFG.ENABLE.base then some (evrCfgWrite s i v)
  else if base = HEP_EVR_HEAD.INDEX.base then some (evrHead s i (bitsOf v 0 16))
  else if base = HEP_WIN_A.VALID.base then some (winWrite s i v)
  else if base = HEP_WIN_FENCE.START.base then some (fenceWrite s v)
  else none

/-- GLD. -/
def writeGld (s : State) (base v : Nat) : Option State :=
  if base = GLD_SQ_BASE.LOC.base || base = GLD_SQ_CBASE.LOC.base then
    if s.flag GLD_SQ_CTRL.ENABLE then some s else none
  else if base = GLD_SQ_CTRL.ENABLE.base then some (sqCtrlWrite s v)
  else if base = GLD_SQ_TAIL.TAIL.base then some (recordTail s 0 (bitsOf v 0 12))
  else none

/-- STQ. -/
def writeStq (s : State) (base i v : Nat) : Option State :=
  if base = STQ_GLADE_A.ENABLE.base then
    some (nextOf s (execStagingEnable (finOf 256 i (by decide)) (BitVec.ofNat 64 v)
      (BitVec.ofNat 16 (s.rd STQ_GLADE_B.REPLY_Q i)) s))
  else if base = STQ_GLADE_B.REPLY_Q.base then if s.flag STQ_GLADE_A.ENABLE i then some s else none
  else if base = STQ_VOL_A.VALID.base then
    if bitOf v 0 then some (nextOf s (execVolumeValidSet (finOf 4096 i (by decide)) (BitVec.ofNat 64 v) s))
    else if s.flag STQ_VOL_A.VALID i then some (s.wr STQ_VOL_A.VALID i 0)
    else none
  else if base = STQ_VOL_B.TARGET.base || base = STQ_VOL_C.CAPACITY.base || base = STQ_VOL_D.TWEAK_BASE.base then
    if s.flag STQ_VOL_A.VALID i then some s else none
  else none

/-- SEC_SEAL_LOCK: RELEASE, or a token that takes the lock. -/
def sealLockWrite (s : State) (mgmt : Bool) (v : Nat) : State :=
  let t := BitVec.ofNat 16 v
  nextOf s (if bitOf v 16 then execSealLockRelease t s else execSealLockTake t mgmt s)

/-- SEC_SEAL_CTRL with START: a mode that the table does not give is refused. -/
def sealCtrlStart (s : State) (mgmt : Bool) (v : Nat) : State :=
  let token := BitVec.ofNat 16 (bitsOf v 48 16)
  let slot := finOf 16 v (by decide)
  let len := BitVec.ofNat 13 (bitsOf v 8 13)
  if sealTurnedAway s token.toNat then sealRefuse s 0x04
  else
    let s := s.writeFields [SEC_SEAL_CTRL.MORE, SEC_SEAL_CTRL.REPLAY, SEC_SEAL_CTRL.LEN] 0 v
    match bitsOf v 4 2 with
    | 1 => nextOf s (execSeal token slot len (bitOf v 6) mgmt s)
    | 2 => nextOf s (execSealVerify token slot len (bitOf v 6) (bitOf v 7) mgmt s)
    | 3 => nextOf s (execLoadkey token slot s)
    | _ =>
      let s := s.writeFields [SEC_SEAL_CTRL.SLOT, SEC_SEAL_CTRL.MODE, SEC_SEAL_CTRL.TOKEN] 0 v
      if s.flag SEC_SEAL_CTRL.BUSY then s else sealRefuse s 0x03

/-- SEC. `mgmt` says that the management complex writes. -/
def writeSec (s : State) (mgmt : Bool) (base i v : Nat) : Option State :=
  if base = SEC_ROLLBACK.ADVANCE.base then some (if bitOf v 33 then nextOf s (execRollbackAdvance s) else s)
  else if base = SEC_ATT_CTRL.START.base then if bitOf v 8 then some (attStart s (bitsOf v 0 8)) else none
  else if base = SEC_KEY_DATA.BYTES.base then some (s.wr SEC_KEY_DATA.BYTES i v)
  else if base = SEC_KEY_CMD.START.base then
    if bitOf v 48 then some (keyStart s (bitsOf v 0 3) (bitsOf v 3 2) (bitsOf v 8 8) (bitsOf v 16 16) (bitsOf v 32 16))
    else none
  else if base = SEC_FAB_GRP_A.VALID.base then some (fabGrpA s i v)
  else if base = SEC_FAB_GRP_B.SLOT0.base then some (fabGrpB s i v)
  else if base = SEC_SEAL_LOCK.TOKEN.base then some (sealLockWrite s mgmt v)
  else if base = SEC_SEAL_KEY.BYTES.base then some (s.wr SEC_SEAL_KEY.BYTES i v)
  else if base = SEC_SEAL_CTRL.START.base then
    if bitOf v 21 then some (sealCtrlStart s mgmt v) else none
  else none

/-- CKP. -/
def writeCkp (s : State) (base i v : Nat) : Option State :=
  if base = CKP_CFG.COPY_GBPS.base then
    if 10 ≤ bitsOf v 0 11 && bitsOf v 0 11 ≤ 2000 then none else some s
  else if base = CKP_GRP_A.VALID.base then some (ckpGrpWrite s i v)
  else if base = CKP_GRP_B.JOB.base then if s.flag CKP_GRP_A.VALID i then some s else none
  else if base = CKP_MEMBER.DEVNUM.base then if s.flag CKP_GRP_A.VALID (i / 32) then some s else none
  else none

/-- TWN. -/
def writeTwn (s : State) (base v : Nat) : Option State :=
  if base = TWN_CFG.ENABLE.base then
    let was := s.flag TWN_CFG.ENABLE
    let s := s.writeFields [TWN_CFG.ENABLE, TWN_CFG.WITNESSES, TWN_CFG.FAB_DEAD_MS, TWN_CFG.GRANT_MS, TWN_CFG.TWIN_DEV,
      TWN_CFG.KEY_SLOT] 0 v
    some (if was && !s.flag TWN_CFG.ENABLE then twinLanesOff (twinDisabled s)
      else if !was && s.flag TWN_CFG.ENABLE then twinLanesOn s else s)
  else if base = TWN_CTRL.PAIR.base then if bitOf v 16 then some (pairWrite s (bitsOf v 0 16)) else none
  else if base = TWN_SVC.UNIT.base then
    some (svcWrite s (bitsOf v 0 16) (bitsOf v 16 2) (bitOf v 18) (bitOf v 19))
  else none

/-- TLM. -/
def writeTlm (s : State) (base i v : Nat) : Option State :=
  if base = TLM_CTR_CMD.START.base then
    if bitOf v 28 then some (counterCmd s (bitsOf v 26 2) (8 * bitsOf v 3 23)) else none
  else if base = TLM_STR_BASE.LOC.base then if s.flag TLM_STR_CFG.ENABLE i then some s else none
  else if base = TLM_STR_CFG.ENABLE.base then some (strCfgWrite s i v)
  else if base = TLM_STR_HEAD.VALUE.base then some (s.wr TLM_STR_HEAD.VALUE i (bitsOf v 0 16))
  else if base = TLM_MTR_BASE.LOC.base then if s.flag TLM_MTR_CFG.ENABLE then some s else none
  else if base = TLM_MTR_CFG.ENABLE.base then some (mtrCfgWrite s v)
  else if base = TLM_MTR_HEAD.INDEX.base then some (mtrFlushAll (s.wr TLM_MTR_HEAD.INDEX 0 (bitsOf v 0 16)))
  else if base = TLM_MTR_GLADE.EN.base then some (mtrGladeWrite s i v)
  else none

/-- Whether an offload slot is EMPTY and no LOAD of it is in progress. -/
def slotEmpty (s : State) (slot : Nat) : Bool := slotState s slot == 0 && s.cpu.ofl != some (1, slot)

/-- CPU. -/
def writeCpu (s : State) (base i v : Nat) : Option State :=
  if base = CPU_OFL_A.GLADE.base then
    let s := if slotEmpty s i then s.wr CPU_OFL_A.GLADE i (bitsOf v 8 8) else s
    some (s.writeFields [CPU_OFL_A.CORES, CPU_OFL_A.CLUSTER_MASK, CPU_OFL_A.FAULT_CTR, CPU_OFL_A.FAULT_EN] i v)
  else if base = CPU_OFL_CMD.START.base then if bitOf v 9 then some (oflStart s (bitsOf v 0 3) (bitsOf v 3 6)) else none
  else none

/-- What writing a register does besides holding its fields. -/
def writeSpecial (s : State) (src : Nat) (b : Blk) (base i v : Nat) : Option State :=
  match b with
  | .boot => writeBoot s (if src < 2 then src else s.medPort) base v
  | .pwr => writePwr s base v
  | .mem => writeMem s base i v
  | .tile => writeTile s base i v
  | .ust => writeUst s base i v
  | .fab => writeFab s base i v
  | .sch => writeSch s base i v
  | .hep => writeHep s base i v
  | .gld => writeGld s base v
  | .stq => writeStq s base i v
  | .sec => writeSec s (src == 2) base i v
  | .ckp => writeCkp s base i v
  | .twn => writeTwn s base v
  | .tlm => writeTlm s base i v
  | .cpu => writeCpu s base i v
  | .glb | .clk | .opt | .trl => none

/-- A 64-bit write to entry `i` of a register. -/
def regWord (s : State) (src : Nat) (b : Blk) (r : Reg) (i v : Nat) : State :=
  match writeSpecial s src b r.base i v with
  | some t => t
  | none => s.writeFields r.fields i v

/-! ### The MSI-X tables (R261, R272) and the message buffer (R344) -/

/-- A write to half a vector's entry in a port's MSI-X table: address, or data and mask. -/
def msixTableWrite (s : State) (p k : Nat) (high : Bool) (v : Nat) : State :=
  let h := s.port p
  let e := Tab.get (0, 0) h.table k
  if high then
    let s := s.setPort p { h with table := Tab.set (0, 0) h.table k (e.1, bitsOf v 0 32) }
    let h := s.port p
    if bitOf v 32 then s.setPort p { h with unmasked := h.unmasked.filter (· != k) }
    else
      (s.setPort p { h with unmasked := if h.unmasked.contains k then h.unmasked else k :: h.unmasked }).msixDrain p
  else s.setPort p { h with table := Tab.set (0, 0) h.table k (v / 4 * 4, e.2) }

/-- A write inside the device or through BAR0 of an aligned 4 or 8 bytes at an offset of the register space. `src` is the
port, or 2 for the management complex. A write at an offset of a block where no register lies is dropped and sets no flag (log
entry 32). -/
def regWrite (s : State) (src off : Nat) (wide : Bool) (v : Nat) : State :=
  match msixAt off with
  | some (p, k, high) => msixTableWrite s p k high (writtenWord (msixTableRead s p k high) off wide v)
  | none =>
    if 0x1ED0000 ≤ off && off < 0x1ED1000 then
      if wide then nextOf s (execSealMsgWrite (finOf 512 (off % 0x1000 / 8) (by decide)) (BitVec.ofNat 64 v) s) else s
    else
      match blockOf off, findReg (off / 8 * 8) with
      | some b, some r =>
        match r.index (off / 8 * 8) with
        | some i => regWord s src b r i (writtenWord (neutralWord s r i) off wide v)
        | none => s
      | _, _ => s

/-- Whether BAR0 reaches a block: in NO_IMAGE only BOOT and GLB (R54). -/
def bar0Reaches (s : State) (b : Blk) : Bool := !s.noImage || b == .glb || b == .boot

/-- For what a write at an offset is held (R15, R451): of the units only a tile has a register block of its own. -/
def heldUnit (s : State) (off : Nat) : Option Nat :=
  if 0x800000 ≤ off && off < 0xC00000 then tileHold s ((off - 0x800000) / 0x10000) else none

/-- A write of BAR0 that reaches its register, or is flagged, dropped (R54, R457) or held (R15, R451). -/
def bar0Write (s : State) (p o : Nat) (wide : Bool) (v : Nat) : State :=
  match blockOf o with
  | none => flagAccess s o [GLB_REG_ERR.UNMAPPED]
  | some b =>
    if !bar0Reaches s b then s
    else if offsetOut s o then flagAccess s o [GLB_REG_ERR.OUT_OF_SVC]
    else if b = .trl then s
    else
      match heldUnit s o with
      | some u => holdReg s { unit := u, port := p, off := o, wide := wide, word := v }
      | none => regWrite s p o wide v

/-- The writes held for a unit, or for a grove's reset, take effect, in order (R15, R451). -/
def releaseRegs (s : State) (unit : Nat) : State :=
  let l := s.boot.heldRegs.filter fun h => h.unit == unit
  let s := { s with boot := { s.boot with heldRegs := s.boot.heldRegs.filter fun h => h.unit != unit } }
  l.foldl (fun s h => bar0Write s h.port h.off h.wide h.word) s

/-- The writes held for a tile's scratchpad take effect, in order (R15). -/
def releasePad (s : State) (unit : Nat) : State :=
  let l := s.boot.heldPad.filter fun w => tileAt w.1 == some (unit % 0x1000)
  let s := { s with boot := { s.boot with heldPad := s.boot.heldPad.filter fun w => tileAt w.1 != some (unit % 0x1000) } }
  releaseWrites s l

/-- The copy of a unit's configuration ends: the map changes in one write, and then what was held goes on (R15). -/
def execSpareBringInDone (unit : BitVec 16) (s : State) : Out :=
  match s.boot.bringing.find? fun b => b.1 == unit.toNat with
  | some b =>
    let s := { s with boot := { s.boot with bringing := s.boot.bringing.filter fun x => x.1 != unit.toNat } }
    let s := match b.2 with
      | none => spareArrives s b.1
      | some phys => unitReturns s b.1 phys
    let s := if b.1 / 0x1000 = 3 then releasePad s b.1 else s
    .next (svcSettle (releaseRegs s b.1))
  | none => .next s

/-- A grove reset ends: its crossings reopen, its lanes train, its firmware cores start, and BAR0 writes held for it go on. -/
def execGroveResetDone (g : Fin 115) (s : State) : Out :=
  if groveState s g = 1 then
    let s := (s.wr CLK_GROVE.STATE g 0).raiseUnit 0x1503 (unitId 0 0) g
    let s := if 25 ≤ g.val && g.val < 41 then clusterRestart s (g - 25) else s
    .next (releaseRegs ((groveOptics g).foldl tileTrain s) (0x10000 + g))
  else .next s

/-- A BAR0 write through port `p` of 64 bits (`wide`) or of 32, whose offset is a multiple of its size. Writes to the TRL
block are dropped (R457), and those that the other rows of BAR0 describe are flagged. -/
def execRegisterWrite (p : Fin 2) (off : BitVec 26) (wide : Bool) (v : Word) (s : State) : Out := onFunction s p <|
  let o := off.toNat
  match badFlags o (if wide then 8 else 4) with
  | [] => .next (bar0Write s p o wide v.toNat)
  | l => .next (flagAccess s o l)

/-! ### Idling -/

/-- What goes on while no command waits: 4 ns pass (R437), in which the ports' schedulers accrue credits and note what waits (R247,
R252, R253), and regions whose clearing waits for accesses are cleared once none is left (R210). -/
def idle (s : State) : State := clearRegions (schedTick (tick s))

end Sys2Proof.Machine
end

