-- ==== Sys2Proof/Machine/FernDecode.lean ====
section
/-! DEFINITION. Fern instructions: their encodings (R396 to R400), a core's address space (R392, R393, R401) and fetching.
Choices and readings of the model: log entry 33. -/
namespace Sys2Proof.Machine

open Sys2Proof

/-- The Fern instructions. -/
inductive FernOp where
  | add | sub | land | lor | lxor | sll | srl | sra | slt | sltu | mul | mulh | mulhu | div | divu | rem | remu
  | addi | andi | ori | xori | slti | slli | srli | srai | lui | auipc
  | lb | lbu | lh | lhu | lw | sb | sh | sw
  | beq | bne | blt | bge | bltu | bgeu | jal | jalr
  | dadd | daddc | dsub | dsubb | dadj | dsl | dsr
  | ecall | ebreak | tret | wfi | fence | mfsr | mtsr
  | cpost | cwait | cread | amoadd | amoswap | amocas
  | cAddi | cLw | cSw | cAlu | cBz | cJ | cLi
  deriving DecidableEq, Repr

/-- A decoded instruction: its register numbers, its immediate (sign-extended where R397 says so), its length in bytes and
the selector of C.ALU and C.BZ. -/
structure FernIns where
  op : FernOp
  rd : Nat := 0
  rs1 : Nat := 0
  rs2 : Nat := 0
  imm : Int := 0
  len : Nat := 4
  sel : Nat := 0
  deriving DecidableEq, Repr

/-- Layout R with FUNCT removed. -/
def layR (op : FernOp) (w : Nat) : FernIns :=
  { op := op, rd := bitsOf w 8 5, rs1 := bitsOf w 13 5, rs2 := bitsOf w 18 5, imm := (bitsOf w 18 5 : Nat) }

/-- Layout I with a sign-extended immediate. -/
def layI (op : FernOp) (w : Nat) : FernIns :=
  { op := op, rd := bitsOf w 8 5, rs1 := bitsOf w 13 5, imm := signedOf 14 (bitsOf w 18 14) }

/-- Layout I with a zero-extended immediate. -/
def layIz (op : FernOp) (w : Nat) : FernIns :=
  { op := op, rd := bitsOf w 8 5, rs1 := bitsOf w 13 5, imm := (bitsOf w 18 14 : Nat) }

/-- Layout S: data in [12:8], base in [17:13]. -/
def layS (op : FernOp) (w : Nat) : FernIns :=
  { op := op, rs2 := bitsOf w 8 5, rs1 := bitsOf w 13 5, imm := signedOf 14 (bitsOf w 18 14) }

/-- Layout B: RS1 in [12:8], RS2 in [17:13]. -/
def layB (op : FernOp) (w : Nat) : FernIns :=
  { op := op, rs1 := bitsOf w 8 5, rs2 := bitsOf w 13 5, imm := signedOf 14 (bitsOf w 18 14) }

/-- Layouts U and J: a signed 19-bit immediate. -/
def layU (op : FernOp) (w : Nat) : FernIns := { op := op, rd := bitsOf w 8 5, imm := signedOf 19 (bitsOf w 13 19) }

/-- The operation of an entry of a FUNCT table. -/
def functOf (l : List (Nat × FernOp)) (f : Nat) : Option FernOp := (l.find? fun p => p.1 = f).map (·.2)

/-- FUNCT of major opcode 0x01. -/
def arithFuncts : List (Nat × FernOp) :=
  [(0x000, .add), (0x001, .sub), (0x002, .land), (0x003, .lor), (0x004, .lxor), (0x005, .sll), (0x006, .srl), (0x007, .sra),
    (0x008, .slt), (0x009, .sltu), (0x010, .mul), (0x011, .mulh), (0x012, .mulhu), (0x018, .div), (0x019, .divu),
    (0x01A, .rem), (0x01B, .remu)]

/-- FUNCT of the decimal instructions (R404). -/
def decimalFuncts : List (Nat × FernOp) :=
  [(0, .dadd), (1, .daddc), (2, .dsub), (3, .dsubb), (4, .dadj), (5, .dsl), (6, .dsr)]

/-- FUNCT of major opcode 0x1B. -/
def systemFuncts : List (Nat × FernOp) := [(0, .ecall), (1, .ebreak), (2, .tret), (3, .wfi), (4, .fence)]

/-- An instruction kept only under a condition on its fields. -/
def keepIf (b : Bool) (i : FernIns) : Option FernIns := if b then some i else none

/-- The 32-bit form of a word, if it is legal (R398, R400). -/
def decode32 (w : Nat) : Option FernIns :=
  let f := bitsOf w 23 9
  match bitsOf w 3 5 with
  | 0x01 => (functOf arithFuncts f).map fun o => layR o w
  | 0x02 => some (layI .addi w)
  | 0x03 => some (layIz .andi w)
  | 0x04 => some (layIz .ori w)
  | 0x05 => some (layIz .xori w)
  | 0x06 => some (layI .slti w)
  | 0x07 => (functOf [(0, .slli), (1, .srli), (2, .srai)] f).map fun o => layR o w
  | 0x08 => some (layU .lui w)
  | 0x09 => some (layU .auipc w)
  | 0x0A => some (layI .lb w)
  | 0x0B => some (layI .lbu w)
  | 0x0C => some (layI .lh w)
  | 0x0D => some (layI .lhu w)
  | 0x0E => some (layI .lw w)
  | 0x0F => some (layS .sb w)
  | 0x10 => some (layS .sh w)
  | 0x11 => some (layS .sw w)
  | 0x12 => some (layB .beq w)
  | 0x13 => some (layB .bne w)
  | 0x14 => some (layB .blt w)
  | 0x15 => some (layB .bge w)
  | 0x16 => some (layB .bltu w)
  | 0x17 => some (layB .bgeu w)
  | 0x18 => some (layU .jal w)
  | 0x19 => some (layI .jalr w)
  | 0x1A =>
    match functOf decimalFuncts f with
    | some .dadj => keepIf (bitsOf w 18 5 == 0) (layR .dadj w)
    | some .dsl => keepIf (bitsOf w 18 5 ≤ 8) (layR .dsl w)
    | some .dsr => keepIf (bitsOf w 18 5 ≤ 8) (layR .dsr w)
    | o => o.map fun o => layR o w
  | 0x1B => (functOf systemFuncts f).bind fun o => keepIf (bitsOf w 8 15 == 0) (layR o w)
  | 0x1C => keepIf (bitsOf w 13 5 == 0 && bitsOf w 28 4 == 0) { layR .mfsr w with imm := (bitsOf w 18 10 : Nat) }
  | 0x1D => keepIf (bitsOf w 8 5 == 0 && bitsOf w 28 4 == 0) { layR .mtsr w with imm := (bitsOf w 18 10 : Nat) }
  | 0x1E =>
    match f with
    | 0 => some (layR .cpost w)
    | 1 => keepIf (bitsOf w 18 5 % 2 == 0) (layR .cwait w)
    | 2 => keepIf (bitsOf w 8 5 % 2 == 0) (layR .cread w)
    | _ => none
  | 0x1F => (functOf [(0, .amoadd), (1, .amoswap), (2, .amocas)] f).map fun o => layR o w
  | _ => none

/-- The register that a field with a prime names. -/
def primed (v : Nat) : Nat := 8 + v % 8

/-- The 16-bit form of a halfword, if it is legal (R399, R400). -/
def decode16 (h : Nat) : Option FernIns :=
  let a := primed (bitsOf h 3 3)
  let b := primed (bitsOf h 6 3)
  match h % 8 with
  | 1 => some { op := .cAddi, rd := a, rs1 := a, imm := signedOf 10 (bitsOf h 6 10), len := 2 }
  | 2 => some { op := .cLw, rd := a, rs1 := b, imm := (4 * bitsOf h 9 7 : Nat), len := 2 }
  | 3 => some { op := .cSw, rs2 := a, rs1 := b, imm := (4 * bitsOf h 9 7 : Nat), len := 2 }
  | 4 => keepIf (bitsOf h 12 4 == 0) { op := .cAlu, rd := a, rs1 := a, rs2 := b, len := 2, sel := bitsOf h 9 3 }
  | 5 => some { op := .cBz, rs1 := a, imm := signedOf 9 (bitsOf h 7 9), len := 2, sel := bitsOf h 6 1 }
  | 6 => some { op := .cJ, imm := signedOf 13 (bitsOf h 3 13), len := 2 }
  | 7 => some { op := .cLi, rd := a, imm := signedOf 10 (bitsOf h 6 10), len := 2 }
  | _ => none

/-! ### Registers of a core -/

/-- A general register of 32 bits (R395): gp0 reads as zero. -/
def Core.gpr (c : Core) (r : Nat) : Nat := if r = 0 then 0 else Tab.get 0 c.gp r % 2 ^ 32

/-- A core with a general register written: a write of gp0 is discarded. -/
def Core.setGpr (c : Core) (r v : Nat) : Core := if r = 0 then c else { c with gp := Tab.set 0 c.gp r (v % 2 ^ 32) }

/-- A general register of core `k`. -/
def State.gpr (s : State) (k r : Nat) : Nat := (s.core k).gpr r

/-! ### The address space of a core (R392, R393, R401) -/

/-- Where an access of a core lands: its local memory, its cluster's buffer, or an internal address. -/
inductive Place where
  | own (off : Nat)
  | buffer (off : Nat)
  | device (addr : Nat)
  deriving DecidableEq, Repr

/-- Base of the register space, and what lies in it (R19). -/
def regBase : Nat := 0xF000000000

/-- Whether an internal range lies in the register space. -/
def inRegSpace (a n : Nat) : Bool := regBase ≤ a && a + n ≤ regBase + 0x10000000

/-- Whether an internal range is decoded outside the register space: DRAM, or a scratchpad in service. -/
def decodedAt (s : State) (a n : Nat) : Bool :=
  a + n ≤ s.top
    || (match tileAt a with
        | some t => a + n ≤ scratchBase + scratchLen * (t + 1) && !s.tileOut t
        | none => false)

/-- Whether a core may reach an internal range (R393): a region closed to all but the device's own use is out of its reach (R190,
R227, R418). -/
def coreReach (s : State) (k a n : Nat) : Bool :=
  if 256 ≤ k then (decodedAt s a n && !s.closedAt a n) || inRegSpace a n
  else if firmwareCore k then decodedAt s a n && !s.closedAt a n
  else s.gladeReach (coreGlade s k) a n

/-- The aperture word of a core. -/
def aptOf (s : State) (k j : Nat) : Nat := Tab.get 0 (s.core k).apt j

/-- Where an access of `n` bytes at a core's address lands; none is an access fault. -/
def place (s : State) (k a n : Nat) (write : Bool) : Option Place :=
  let user := (s.core k).pl == 0
  if a < localSize k then
    if user && !(bitOf (s.core k).lpr (a / 0x4000) && a / 0x4000 < 32) then none else some (.own a)
  else if 0x10000000 ≤ a && a < 0x10400000 then
    if (s.core k).pl = 3 && k < 256 then some (.buffer (a % 0x10000000)) else none
  else if 0x40000000 ≤ a && a < 0x80000000 then
    let w := aptOf s k (a % 0x40000000 / 0x4000000)
    let t := 2 ^ 26 * bitsOf w 0 22 + a % 0x4000000
    if bitOf w 22 && (!write || bitOf w 23) && (!user || bitOf w 24) && coreReach s k t n then some (.device t) else none
  else none

/-- The bytes that a register word gives an aligned access of `n` bytes. -/
def regPart (s : State) (off n : Nat) : Nat := regRead s (off / 8 * 8) / 2 ^ (8 * (off % 8)) % 2 ^ (8 * n)

/-- An aligned read of `n` bytes: none for an uncorrectable codeword. What a unit-agent window holds is free (log entry 33,
safe). -/
def readPlace (s : State) (k : Nat) (p : Place) (n : Nat) : Option (Nat × State) :=
  match p with
  | .own off => some (leNat (localBytes s k off n), s)
  | .buffer off =>
    some (leNat ((List.range n).map fun i => Tab.get memDefault s.cpu.cbuf (0x400000 * (k / 16) + off + i)), s)
  | .device a =>
    if inRegSpace a n then
      if a < regBase + 0x4000000 then some (regPart s (a % 0x4000000) n, s)
      else
        let v := s.freeWord
        some (v.1.toNat % 2 ^ (8 * n), v.2)
    else if s.memBad a n then none
    else some (leNat (s.bytes a n), s)

/-- An access of a core has met an uncorrectable codeword: it is counted (R92). -/
def badPlace (s : State) (p : Place) (n : Nat) : State :=
  match p with
  | .device a => if inRegSpace a n then s else s.noteRead a n
  | _ => s

/-- An aligned write of `n` bytes, and whether it was turned away. A register takes writes of 32 and 64 bits (R22). -/
def writePlace (s : State) (k : Nat) (p : Place) (n v : Nat) : State × Bool :=
  match p with
  | .own off => (localStore s k off (toLe n v), false)
  | .buffer off =>
    ({ s with cpu := { s.cpu with cbuf := Mem.store s.cpu.cbuf (0x400000 * (k / 16) + off) (toLe n v) } }, false)
  | .device a =>
    if inRegSpace a n then
      if a < regBase + 0x4000000 && (n = 4 || n = 8) then
        (regWrite s 2 (a % 0x4000000) (n == 8) (v % 2 ^ (8 * n)), false)
      else (s, false)
    else
      let r := s.writeMem a (toLe n v)
      (r.1, r.2 == St.protectionFault || r.2 == St.peerUnreachable)

/-! ### Fetching (R396, R403) -/

/-- What lies at a core's PC: an instruction, an illegal encoding with its bits, an odd address, or a place from which
nothing can be fetched. -/
inductive Fetched where
  | ins (i : FernIns)
  | illegal (bits : Nat)
  | odd
  | fault (addr : Nat)
  deriving DecidableEq, Repr

/-- The halfword at a core's address. Nothing is fetched from the register space. -/
def fetchHalf (s : State) (k a : Nat) : Option Nat :=
  match place s k a 2 false with
  | none => none
  | some (.device t) => if inRegSpace t 2 then none else (readPlace s k (.device t) 2).map (·.1)
  | some p => (readPlace s k p 2).map (·.1)

/-- The instruction at a core's PC. The all-zero halfword is illegal by itself (R396). -/
def fetch (s : State) (k : Nat) : Fetched :=
  let pc := (s.core k).pc
  if pc % 2 ≠ 0 then .odd
  else
    match fetchHalf s k pc with
    | none => .fault pc
    | some h =>
      if h % 8 = 0 then
        match fetchHalf s k ((pc + 2) % 2 ^ 32) with
        | none => if h = 0 then .illegal 0 else .fault ((pc + 2) % 2 ^ 32)
        | some g =>
          match decode32 (h + 65536 * g) with
          | some i => .ins i
          | none => .illegal (h + 65536 * g)
      else
        match decode16 h with
        | some i => .ins i
        | none => .illegal h

/-- The breakpoint that a core stands at, unless it has been let go there (R460). -/
def breakpointAt (s : State) (k : Nat) : Option Nat :=
  let x := s.debugOf (debugKey s k)
  if x.pass then none
  else leastBelow 8 fun j => bitOf (Tab.get 0 x.bp j) 0 && bitsOf (Tab.get 0 x.bp j) 1 31 * 2 == (s.core k).pc

/-- A core's next instruction, when it is one of an operation and the core executes it now. -/
def fernNext (s : State) (k : Nat) (op : FernOp) : Option FernIns :=
  if coreRuns s k && (breakpointAt s k).isNone then
    match fetch s k with
    | .ins i => if i.op = op then some i else none
    | _ => none
  else none

/-- A core executes its next instruction, if it is one of an operation (R460: a step then halts the core again). -/
def fernRun (s : State) (k : Nat) (op : FernOp) (body : FernIns → State → State) : Out :=
  match fernNext s k op with
  | some i => .next (instrEnd (body i s) k)
  | none => .next s

end Sys2Proof.Machine
end

