-- ==== Sys2Proof/Machine/Fern.lean ====
section
/-! DEFINITION. The Fern instructions (R394 to R405, R409). Each command of this file is one instruction of core `k`, a worker
core or (256) the management cores: it takes effect when the instruction at the core's PC is of that kind. Choices and
readings of the model: log entry 33. -/
namespace Sys2Proof.Machine

open Sys2Proof

/-! ### Shared effects -/

/-- Go to the next instruction with a register written. -/
def setRd (s : State) (k : Nat) (i : FernIns) (v : Nat) : State :=
  let c := (s.core k).setGpr i.rd v
  s.setCore k { c with pc := (c.pc + i.len) % 2 ^ 32 }

/-- Go to the next instruction. -/
def fernSkip (s : State) (k : Nat) (i : FernIns) : State :=
  s.setCore k { s.core k with pc := ((s.core k).pc + i.len) % 2 ^ 32 }

/-- Go to an instruction at a signed distance in halfwords (R397). -/
def fernBranch (s : State) (k : Nat) (d : Int) : State :=
  s.setCore k { s.core k with pc := wordOf 32 ((s.core k).pc + 2 * d) }

/-- The operands RS1 and RS2. -/
def opA (s : State) (k : Nat) (i : FernIns) : Nat := s.gpr k i.rs1
def opB (s : State) (k : Nat) (i : FernIns) : Nat := s.gpr k i.rs2

/-- The immediate as a 32-bit word. -/
def immOf (i : FernIns) : Nat := wordOf 32 i.imm

/-- An operation of RS1 and RS2 to RD. -/
def aluR (k : Nat) (f : Nat → Nat → Nat) (i : FernIns) (s : State) : State := setRd s k i (f (opA s k i) (opB s k i))

/-- An operation of RS1 and the immediate to RD. -/
def aluI (k : Nat) (f : Nat → Nat → Nat) (i : FernIns) (s : State) : State := setRd s k i (f (opA s k i) (immOf i))

/-- A conditional branch. -/
def branchIf (k : Nat) (f : Nat → Nat → Bool) (i : FernIns) (s : State) : State :=
  if f (opA s k i) (opB s k i) then fernBranch s k i.imm else fernSkip s k i

/-! ### Arithmetic on 32-bit words (R398) -/

/-- The arithmetic instructions, as functions of two words. -/
def fAdd (a b : Nat) : Nat := (a + b) % 2 ^ 32
def fSub (a b : Nat) : Nat := (a + (2 ^ 32 - b % 2 ^ 32)) % 2 ^ 32
def fSll (a b : Nat) : Nat := a * 2 ^ (b % 32) % 2 ^ 32
def fSrl (a b : Nat) : Nat := a / 2 ^ (b % 32)
def fSra (a b : Nat) : Nat := wordOf 32 (signedOf 32 a / (2 ^ (b % 32) : Nat))
def fSlt (a b : Nat) : Nat := b2n (signedOf 32 a < signedOf 32 b)
def fSltu (a b : Nat) : Nat := b2n (a < b)
def fMul (a b : Nat) : Nat := a * b % 2 ^ 32
def fMulh (a b : Nat) : Nat := wordOf 32 (signedOf 32 a * signedOf 32 b / (2 ^ 32 : Nat))
def fMulhu (a b : Nat) : Nat := a * b / 2 ^ 32
def fDiv (a b : Nat) : Nat := if b = 0 then 2 ^ 32 - 1 else wordOf 32 ((signedOf 32 a).tdiv (signedOf 32 b))
def fDivu (a b : Nat) : Nat := if b = 0 then 2 ^ 32 - 1 else a / b
def fRem (a b : Nat) : Nat := if b = 0 then a else wordOf 32 ((signedOf 32 a).tmod (signedOf 32 b))
def fRemu (a b : Nat) : Nat := if b = 0 then a else a % b

/-- The carries that leave the nibbles of a binary sum: NCF of an ADD (R404). -/
def nibbleCarries (a b : Nat) : Nat :=
  (List.range 8).foldl (fun m j => if 16 ^ (j + 1) ≤ a % 16 ^ (j + 1) + b % 16 ^ (j + 1) then m + 2 ^ j else m) 0

/-- DF with NCF and BC of a binary sum. -/
def sumFlags (df a b : Nat) : Nat := putBits (putBits df 4 8 (nibbleCarries a b)) 12 1 ((a + b) / 2 ^ 32)

/-- A core's DF replaced. -/
def State.setDf (s : State) (k df : Nat) : State := s.setCore k { s.core k with df := df }

/-- ADD: RD = RS1 + RS2, and NCF and BC of DF (R404). -/
def execAdd (k : Fin 257) (s : State) : Out := fernRun s k .add fun i s =>
  let a := opA s k i
  let b := opB s k i
  setRd (s.setDf k (sumFlags (s.core k).df a b)) k i (fAdd a b)

/-- SUB. -/
def execSub (k : Fin 257) (s : State) : Out := fernRun s k .sub (aluR k fSub)

/-- AND. -/
def execAndCmd (k : Fin 257) (s : State) : Out := fernRun s k .land (aluR k Nat.land)

/-- OR. -/
def execOrCmd (k : Fin 257) (s : State) : Out := fernRun s k .lor (aluR k Nat.lor)

/-- XOR. -/
def execXorCmd (k : Fin 257) (s : State) : Out := fernRun s k .lxor (aluR k Nat.xor)

/-- SLL: by RS2 bits [4:0]. -/
def execSll (k : Fin 257) (s : State) : Out := fernRun s k .sll (aluR k fSll)

/-- SRL. -/
def execSrl (k : Fin 257) (s : State) : Out := fernRun s k .srl (aluR k fSrl)

/-- SRA. -/
def execSra (k : Fin 257) (s : State) : Out := fernRun s k .sra (aluR k fSra)

/-- SLT. -/
def execSlt (k : Fin 257) (s : State) : Out := fernRun s k .slt (aluR k fSlt)

/-- SLTU. -/
def execSltu (k : Fin 257) (s : State) : Out := fernRun s k .sltu (aluR k fSltu)

/-- MUL. -/
def execMul (k : Fin 257) (s : State) : Out := fernRun s k .mul (aluR k fMul)

/-- MULH. -/
def execMulh (k : Fin 257) (s : State) : Out := fernRun s k .mulh (aluR k fMulh)

/-- MULHU. -/
def execMulhu (k : Fin 257) (s : State) : Out := fernRun s k .mulhu (aluR k fMulhu)

/-- DIV: by zero gives all ones, and signed overflow −2^31. -/
def execDiv (k : Fin 257) (s : State) : Out := fernRun s k .div (aluR k fDiv)

/-- DIVU. -/
def execDivu (k : Fin 257) (s : State) : Out := fernRun s k .divu (aluR k fDivu)

/-- REM: by zero gives RS1, and signed overflow 0. -/
def execRem (k : Fin 257) (s : State) : Out := fernRun s k .rem (aluR k fRem)

/-- REMU. -/
def execRemu (k : Fin 257) (s : State) : Out := fernRun s k .remu (aluR k fRemu)

/-- ADDI. -/
def execAddi (k : Fin 257) (s : State) : Out := fernRun s k .addi (aluI k fAdd)

/-- ANDI: the immediate is zero-extended. -/
def execAndi (k : Fin 257) (s : State) : Out := fernRun s k .andi (aluI k Nat.land)

/-- ORI. -/
def execOri (k : Fin 257) (s : State) : Out := fernRun s k .ori (aluI k Nat.lor)

/-- XORI. -/
def execXori (k : Fin 257) (s : State) : Out := fernRun s k .xori (aluI k Nat.xor)

/-- SLTI. -/
def execSlti (k : Fin 257) (s : State) : Out := fernRun s k .slti (aluI k fSlt)

/-- SLLI. -/
def execSlli (k : Fin 257) (s : State) : Out := fernRun s k .slli (aluI k fSll)

/-- SRLI. -/
def execSrli (k : Fin 257) (s : State) : Out := fernRun s k .srli (aluI k fSrl)

/-- SRAI. -/
def execSrai (k : Fin 257) (s : State) : Out := fernRun s k .srai (aluI k fSra)

/-- LUI: RD = IMM19 × 2^13. -/
def execLui (k : Fin 257) (s : State) : Out := fernRun s k .lui fun i s =>
  setRd s k i (wordOf 32 (i.imm * (2 ^ 13 : Nat)))

/-- AUIPC: RD = PC + IMM19 × 2^13. -/
def execAuipc (k : Fin 257) (s : State) : Out := fernRun s k .auipc fun i s =>
  setRd s k i (wordOf 32 ((s.core k).pc + i.imm * (2 ^ 13 : Nat)))

/-! ### Loads, stores and atomics (R392 to R394, R398, R403) -/

/-- A completed access of `n` bytes at a core's address is held against the watchpoints (R460): the lowest that matches is
noted, and the core executes nothing more until it halts. -/
def watch (s : State) (k a n : Nat) (store : Bool) : State :=
  let d := debugKey s k
  let x := s.debugOf d
  let hit := leastBelow 4 fun j =>
    let w := Tab.get 0 x.wp j
    let lo := bitsOf w 8 32
    bitOf w 0 && bitOf w (if store then 2 else 1) && decide (lo < a + n) && decide (a < lo + 2 ^ bitsOf w 3 5)
  match hit with
  | some j => if x.hit.isNone then s.setDebug d { x with hit := some j } else s
  | none => s

/-- The address RS1 + IMM. -/
def effective (s : State) (k : Nat) (i : FernIns) : Nat := fAdd (opA s k i) (immOf i)

/-- What a loaded value becomes in a register. -/
def extend (n : Nat) (signed : Bool) (v : Nat) : Nat := if signed then wordOf 32 (signedOf (8 * n) v) else v

/-- A load of `n` bytes: causes 3, 5 and 11 in this order. -/
def loadMem (k n : Nat) (signed : Bool) (i : FernIns) (s : State) : State :=
  let a := effective s k i
  if a % n ≠ 0 then trap s k 3 a
  else
    match place s k a n false with
    | none => trap s k 5 a
    | some p =>
      match readPlace s k p n with
      | none => trap (badPlace s p n) k 11 a
      | some (v, s) => watch (setRd s k i (extend n signed v)) k a n false

/-- A store of `n` bytes of RS2: causes 3 and 5. -/
def storeMem (k n : Nat) (i : FernIns) (s : State) : State :=
  let a := effective s k i
  if a % n ≠ 0 then trap s k 3 a
  else
    match place s k a n true with
    | none => trap s k 5 a
    | some p =>
      let r := writePlace s k p n (opB s k i)
      if r.2 then trap r.1 k 5 a else watch (fernSkip r.1 k i) k a n true

/-- An atomic on the aligned word at RS1: `f` gives the new word, none to leave it, and RD takes the old word. -/
def amo (k : Nat) (f : Nat → Option Nat) (i : FernIns) (s : State) : State :=
  let a := opA s k i
  if a % 4 ≠ 0 then trap s k 3 a
  else
    match place s k a 4 true with
    | none => trap s k 5 a
    | some p =>
      match readPlace s k p 4 with
      | none => trap (badPlace s p 4) k 11 a
      | some (old, s) =>
        match f old with
        | none => watch (setRd s k i old) k a 4 false
        | some new =>
          let r := writePlace s k p 4 new
          if r.2 then trap r.1 k 5 a else watch (watch (setRd r.1 k i old) k a 4 false) k a 4 true

/-- LB. -/
def execLb (k : Fin 257) (s : State) : Out := fernRun s k .lb (loadMem k 1 true)

/-- LBU. -/
def execLbu (k : Fin 257) (s : State) : Out := fernRun s k .lbu (loadMem k 1 false)

/-- LH. -/
def execLh (k : Fin 257) (s : State) : Out := fernRun s k .lh (loadMem k 2 true)

/-- LHU. -/
def execLhu (k : Fin 257) (s : State) : Out := fernRun s k .lhu (loadMem k 2 false)

/-- LW. -/
def execLw (k : Fin 257) (s : State) : Out := fernRun s k .lw (loadMem k 4 false)

/-- SB. A store that the mirror rules hold (R88, R384) waits at its instruction, so that a later load sees it (R394). -/
def execSb (k : Fin 257) (s : State) : Out := outHold s <| fernRun s k .sb (storeMem k 1)

/-- SH. -/
def execSh (k : Fin 257) (s : State) : Out := outHold s <| fernRun s k .sh (storeMem k 2)

/-- SW. -/
def execSw (k : Fin 257) (s : State) : Out := outHold s <| fernRun s k .sw (storeMem k 4)

/-- AMOADD: adds RS2. -/
def execAmoadd (k : Fin 257) (s : State) : Out := outHold s <| fernRun s k .amoadd fun i s =>
  amo k (fun old => some (fAdd old (opB s k i))) i s

/-- AMOSWAP: writes RS2. -/
def execAmoswap (k : Fin 257) (s : State) : Out := outHold s <| fernRun s k .amoswap fun i s =>
  amo k (fun _ => some (opB s k i)) i s

/-- AMOCAS: writes RS2 only if the word equals RD. -/
def execAmocas (k : Fin 257) (s : State) : Out := outHold s <| fernRun s k .amocas fun i s =>
  amo k (fun old => if old = s.gpr k i.rd then some (opB s k i) else none) i s

/-! ### Branches and jumps (R398) -/

/-- BEQ. -/
def execBeq (k : Fin 257) (s : State) : Out := fernRun s k .beq (branchIf k (· == ·))

/-- BNE. -/
def execBne (k : Fin 257) (s : State) : Out := fernRun s k .bne (branchIf k (· != ·))

/-- BLT. -/
def execBlt (k : Fin 257) (s : State) : Out := fernRun s k .blt (branchIf k (fun a b => signedOf 32 a < signedOf 32 b))

/-- BGE. -/
def execBge (k : Fin 257) (s : State) : Out := fernRun s k .bge (branchIf k (fun a b => signedOf 32 b ≤ signedOf 32 a))

/-- BLTU. -/
def execBltu (k : Fin 257) (s : State) : Out := fernRun s k .bltu (branchIf k (fun a b => a < b))

/-- BGEU. -/
def execBgeu (k : Fin 257) (s : State) : Out := fernRun s k .bgeu (branchIf k (fun a b => b ≤ a))

/-- A jump to an address, with the address of the next instruction in RD. -/
def jumpLink (s : State) (k : Nat) (i : FernIns) (target : Nat) : State :=
  let c := (s.core k).setGpr i.rd (((s.core k).pc + 4) % 2 ^ 32)
  s.setCore k { c with pc := target }

/-- JAL. -/
def execJal (k : Fin 257) (s : State) : Out := fernRun s k .jal fun i s =>
  jumpLink s k i (wordOf 32 ((s.core k).pc + 2 * i.imm))

/-- JALR: bit 0 of the target is cleared. -/
def execJalr (k : Fin 257) (s : State) : Out := fernRun s k .jalr fun i s =>
  jumpLink s k i (effective s k i / 2 * 2)

/-! ### Packed decimal (R404, R405) -/

/-- The digits of a word, digit 0 first. -/
def digits (v : Nat) : List Nat := (List.range 8).map fun j => bitsOf v (4 * j) 4

/-- Every digit of a word is valid. -/
def decimalOk (v : Nat) : Bool := (digits v).all (· ≤ 9)

/-- The number a decimal word stands for. -/
def decimalOf (v : Nat) : Nat := (digits v).foldr (fun d n => d + 10 * n) 0

/-- The decimal word of the low 8 digits of a number. -/
def toDecimal (n : Nat) : Nat := (List.range 8).foldl (fun w j => w + (n / 10 ^ j % 10) * 16 ^ j) 0

/-- DF with C and Z. -/
def decimalFlags (df : Nat) (c z : Bool) : Nat := putBits (putBits df 0 1 (b2n c)) 1 1 (b2n z)

/-- The end of a decimal instruction: RD, C and Z. -/
def decimalEnd (s : State) (k : Nat) (i : FernIns) (v : Nat) (c z : Bool) : State :=
  setRd (s.setDf k (decimalFlags (s.core k).df c z)) k i v

/-- A decimal source is invalid: INV is set, nothing else is written, and with TRAPINV the core traps with cause 10. -/
def decimalInvalid (s : State) (k : Nat) (i : FernIns) : State :=
  let s := s.setDf k (putBits (s.core k).df 2 1 1)
  if bitOf (s.core k).df 3 then trapOpen s k 10 else fernSkip s k i

/-- A decimal sum (`sub` false) or difference of RS1, RS2 and a carry or borrow in; `chain` takes C in and keeps Z only while
it was 1. -/
def decimalSum (k : Nat) (sub chain : Bool) (i : FernIns) (s : State) : State :=
  let a := opA s k i
  let b := opB s k i
  let df := (s.core k).df
  let cin := if chain then df % 2 else 0
  if !decimalOk a || !decimalOk b then decimalInvalid s k i
  else
    let y := decimalOf b + cin
    let v := if sub then (decimalOf a + 2 * 10 ^ 8 - y) % 10 ^ 8 else (decimalOf a + y) % 10 ^ 8
    let c := if sub then decimalOf a < y else 10 ^ 8 ≤ decimalOf a + y
    decimalEnd s k i (toDecimal v) c (v == 0 && (!chain || bitOf df 1))

/-- The algorithm of R405 from digit `j` on: the word and the carry. -/
def adjustFrom (ncf : Nat) : List Nat → Nat × Bool → Nat × Bool
  | [], r => r
  | j :: t, r =>
    if bitOf ncf j || 9 < bitsOf r.1 (4 * j) 4 then
      let x := r.1 + 6 * 16 ^ j
      adjustFrom ncf t (x % 2 ^ 32, r.2 || 2 ^ 32 ≤ x)
    else adjustFrom ncf t r

/-- DADJ on a word, with NCF and BC of DF. -/
def adjust (df v : Nat) : Nat × Bool := adjustFrom (bitsOf df 4 8) (List.range 8) (v, bitOf df 12)

/-- A decimal shift of RS1 by the count in [22:18]. -/
def decimalShift (k : Nat) (left : Bool) (i : FernIns) (s : State) : State :=
  let a := opA s k i
  let n := i.imm.toNat
  if !decimalOk a then decimalInvalid s k i
  else
    let v := if left then a * 16 ^ n % 2 ^ 32 else a / 16 ^ n
    let gone := if left then a * 16 ^ n / 2 ^ 32 else a % 16 ^ n
    decimalEnd s k i v (gone != 0) (v == 0)

/-- DADD. -/
def execDadd (k : Fin 257) (s : State) : Out := fernRun s k .dadd (decimalSum k false false)

/-- DADDC. -/
def execDaddc (k : Fin 257) (s : State) : Out := fernRun s k .daddc (decimalSum k false true)

/-- DSUB. -/
def execDsub (k : Fin 257) (s : State) : Out := fernRun s k .dsub (decimalSum k true false)

/-- DSUBB. -/
def execDsubb (k : Fin 257) (s : State) : Out := fernRun s k .dsubb (decimalSum k true true)

/-- DADJ: reads no decimal source. -/
def execDadj (k : Fin 257) (s : State) : Out := fernRun s k .dadj fun i s =>
  let r := adjust (s.core k).df (opA s k i)
  decimalEnd s k i r.1 r.2 (r.1 == 0)

/-- DSL. -/
def execDsl (k : Fin 257) (s : State) : Out := fernRun s k .dsl (decimalShift k true)

/-- DSR. -/
def execDsr (k : Fin 257) (s : State) : Out := fernRun s k .dsr (decimalShift k false)

/-! ### System instructions and system registers (R398, R401 to R403) -/

/-- ECALL: cause 7 from U, 8 from S. The spec gives no cause for a call from M, and it is free (log entry 33, safe). -/
def ecall (s : State) (k : Nat) : State :=
  match (s.core k).pl with
  | 0 => trapOpen s k 7
  | 1 => trapOpen s k 8
  | _ =>
    let v := s.freeWord
    trapOpen v.2 k (v.1.toNat % 2 ^ 32)

/-- ECALL. -/
def execEcall (k : Fin 257) (s : State) : Out := fernRun s k .ecall fun _ s => ecall s k

/-- EBREAK. -/
def execEbreak (k : Fin 257) (s : State) : Out := fernRun s k .ebreak fun _ s => trapOpen s k 9

/-- TRET. -/
def execTret (k : Fin 257) (s : State) : Out := fernRun s k .tret fun _ s => trapReturn s k

/-- WFI: the core waits for its timer interrupt, taken at the next instruction. -/
def execWfi (k : Fin 257) (s : State) : Out := fernRun s k .wfi fun i s =>
  let s := fernSkip s k i
  showCore (s.setCore k { s.core k with wfi := true }) k 2

/-- FENCE: every earlier store has completed, since each completes in its own step. -/
def execFernFence (k : Fin 257) (s : State) : Out := fernRun s k .fence fun i s => fernSkip s k i

/-- A system register of R401 that may be read below the handler level. -/
def srOpen (n : Nat) : Bool := n < 4 || n == 0x18 || n == 0x20 || n == 0x21 || n == 0x22

/-- A system register that only the handler level may reach. -/
def srGuarded (n : Nat) : Bool :=
  (0x10 ≤ n && n ≤ 0x14) || (0x24 ≤ n && n ≤ 0x26) || (0x30 ≤ n && n ≤ 0x3F) || n == 0x40

/-- FEAT0 to FEAT3 (R402). -/
def featWord (k n : Nat) : Nat :=
  match n with
  | 0 => if k < 256 then 0x0110101F else 0x0110401F
  | 1 => if k < 256 then 0x48 else 0x348
  | 2 => if k < 256 then k / 16 + k % 16 * 16 else 0
  | _ => 0

/-- STATUS (R401). -/
def statusWord (c : Core) : Nat := c.pl + 4 * b2n c.ie + 8 * c.ppl + 32 * b2n c.pie + 64 * b2n c.tip

/-- What a system register holds. WDOG holds no stated value, and reads as a free word (log entry 33, safe). -/
def srRead (s : State) (k n : Nat) : Nat × State :=
  let c := s.core k
  match n with
  | 0x10 => (statusWord c, s)
  | 0x11 => (c.tvec, s)
  | 0x12 => (c.tpc, s)
  | 0x13 => (c.tcause, s)
  | 0x14 => (c.tval, s)
  | 0x18 => (c.df, s)
  | 0x20 => (coreUnit s k + 2 ^ 16 * coreGlade s k, s)
  | 0x21 => (s.now % 2 ^ 32, s)
  | 0x22 => (s.now / 2 ^ 32 % 2 ^ 32, s)
  | 0x24 => (c.tcmp % 2 ^ 32, s)
  | 0x25 => (c.tcmp / 2 ^ 32 % 2 ^ 32, s)
  | 0x26 =>
    let v := s.freeWord
    (v.1.toNat % 2 ^ 32, v.2)
  | 0x40 => (c.lpr, s)
  | _ => if n < 4 then (featWord k n, s) else (Tab.get 0 c.apt (n - 0x30), s)

/-- A level that a core can be at: an offload core never enters M (R395). A write of any other leaves the level. -/
def levelField (k old v : Nat) : Nat := if v = 0 || v = 1 || (v = 3 && firmwareCore k) then v else old

/-- A write of a system register. Those that only show what the core is ignore it. -/
def srWrite (s : State) (k n v : Nat) : State :=
  let c := s.core k
  match n with
  | 0x10 =>
    s.setCore k { c with
      pl := levelField k c.pl (bitsOf v 0 2), ie := bitOf v 2, ppl := levelField k c.ppl (bitsOf v 3 2), pie := bitOf v 5,
      tip := bitOf v 6 }
  | 0x11 => s.setCore k { c with tvec := v / 2 * 2 }
  | 0x12 => s.setCore k { c with tpc := v }
  | 0x13 => s.setCore k { c with tcause := v }
  | 0x14 => s.setCore k { c with tval := v }
  | 0x18 => s.setCore k { c with df := v % 2 ^ 13 }
  | 0x24 => s.setCore k { c with tcmp := putBits c.tcmp 0 32 v }
  | 0x25 => s.setCore k { c with tcmp := putBits c.tcmp 32 32 v }
  | 0x26 => s.setCore k { c with wdog := if (s.debugOf (debugKey s k)).halted then 0 else s.now }
  | 0x40 => s.setCore k { c with lpr := v }
  | _ => if 0x30 ≤ n && n ≤ 0x3F then s.setCore k { c with apt := Tab.set 0 c.apt (n - 0x30) (v % 2 ^ 25) } else s

/-- The cause with which an access of a system register traps, if it does: 1 for an unlisted number, 6 for privilege. Every
access of WDOG by an offload core traps. Below the handler level only DF may be written. -/
def srCause (s : State) (k n : Nat) (write : Bool) : Option Nat :=
  let low := (s.core k).pl < handlerLevel k
  if !srOpen n && !srGuarded n then some 1
  else if n = 0x26 && !firmwareCore k then some 6
  else if low && (srGuarded n || (write && n != 0x18)) then some 6
  else none

/-- The bits of the instruction at a core's PC, which TVAL shows for cause 1. -/
def insBits (s : State) (k : Nat) : Nat :=
  let pc := (s.core k).pc
  (fetchHalf s k pc).getD 0 + 65536 * (fetchHalf s k ((pc + 2) % 2 ^ 32)).getD 0

/-- A trap of an access of a system register. -/
def srTrap (s : State) (k cause : Nat) : State := if cause = 1 then trap s k 1 (insBits s k) else trapOpen s k cause

/-- MFSR. -/
def execMfsr (k : Fin 257) (s : State) : Out := fernRun s k .mfsr fun i s =>
  match srCause s k i.imm.toNat false with
  | some c => srTrap s k c
  | none =>
    let r := srRead s k i.imm.toNat
    setRd r.2 k i r.1

/-- MTSR. -/
def execMtsr (k : Fin 257) (s : State) : Out := fernRun s k .mtsr fun i s =>
  match srCause s k i.imm.toNat true with
  | some c => srTrap s k c
  | none => fernSkip (srWrite s k i.imm.toNat (opA s k i)) k i

/-! ### Sync counters (R409) -/

/-- Whether a core may name a counter: an offload core only one granted to its glade. -/
def coreCtr (s : State) (k c : Nat) : Bool := firmwareCore k || s.ctrGranted c (coreGlade s k)

/-- The counter that RS1 names. -/
def ctrOf (s : State) (k : Nat) (i : FernIns) : Nat := opA s k i % 65536

/-- CPOST: adds RS2 to the counter. -/
def execCpost (k : Fin 257) (s : State) : Out := fernRun s k .cpost fun i s =>
  if coreCtr s k (ctrOf s k i) then fernSkip (s.addCtr (ctrOf s k i) (opB s k i)) k i else trapOpen s k 5

/-- The target of a CWAIT. -/
def cwaitTarget (s : State) (k : Nat) (i : FernIns) : Nat := opB s k i + 2 ^ 32 * s.gpr k (i.rs2 + 1)

/-- CWAIT: the core goes on at once when the counter has reached the target, and otherwise waits with its PC at the
instruction. -/
def execCwait (k : Fin 257) (s : State) : Out :=
  match fernNext s k .cwait with
  | none => .next s
  | some i =>
    if !coreCtr s k (ctrOf s k i) then .next (instrEnd (trapOpen s k 5) k)
    else if satisfied (s.ctr (ctrOf s k i)) (cwaitTarget s k i) then .next (instrEnd (fernSkip s k i) k)
    else
      .next (showCore (s.addWait { who := .core k, on := .counter (ctrOf s k i), target := cwaitTarget s k i }) k 2)

/-- A counter's value as a core reads it; while the engine's grove is STOPPED it is free (R448). -/
def ctrRead (s : State) (c : Nat) : Nat × State :=
  if s.ustStopped then
    let v := s.freeWord
    (v.1.toNat, v.2)
  else (s.ctr c, s)

/-- Write a register pair. -/
def setPair2 (s : State) (k : Nat) (i : FernIns) (v : Nat) : State :=
  let c := ((s.core k).setGpr i.rd (v % 2 ^ 32)).setGpr (i.rd + 1) (v / 2 ^ 32)
  s.setCore k { c with pc := (c.pc + i.len) % 2 ^ 32 }

/-- CREAD: the counter goes to gp[RD + 1]:gp[RD]. -/
def execCread (k : Fin 257) (s : State) : Out := fernRun s k .cread fun i s =>
  if coreCtr s k (ctrOf s k i) then
    let r := ctrRead s (ctrOf s k i)
    setPair2 r.2 k i r.1
  else trapOpen s k 5

/-! ### 16-bit forms (R399) -/

/-- C.ADDI. -/
def execCAddi (k : Fin 257) (s : State) : Out := fernRun s k .cAddi (aluI k fAdd)

/-- C.LW. -/
def execCLw (k : Fin 257) (s : State) : Out := fernRun s k .cLw (loadMem k 4 false)

/-- C.SW. -/
def execCSw (k : Fin 257) (s : State) : Out := outHold s <| fernRun s k .cSw (storeMem k 4)

/-- The operation that F of C.ALU selects; ADD writes neither NCF nor BC. -/
def cAlu (f a b : Nat) : Nat :=
  match f with
  | 0 => fAdd a b
  | 1 => fSub a b
  | 2 => Nat.land a b
  | 3 => Nat.lor a b
  | 4 => Nat.xor a b
  | 5 => b
  | 6 => fSll a b
  | _ => fSrl a b

/-- C.ALU. -/
def execCAlu (k : Fin 257) (s : State) : Out := fernRun s k .cAlu fun i s => aluR k (cAlu i.sel) i s

/-- C.BZ: BEQZ or BNEZ. -/
def execCBz (k : Fin 257) (s : State) : Out := fernRun s k .cBz fun i s =>
  if (opA s k i == 0) == (i.sel == 0) then fernBranch s k i.imm else fernSkip s k i

/-- C.J. -/
def execCJ (k : Fin 257) (s : State) : Out := fernRun s k .cJ fun i s => fernBranch s k i.imm

/-- C.LI. -/
def execCLi (k : Fin 257) (s : State) : Out := fernRun s k .cLi fun i s => setRd s k i (immOf i)

/-! ### What cannot be executed (R400, R403) -/

/-- The trap of a core whose PC holds no instruction: cause 1 for an illegal encoding, 2 for an odd address, 4 where nothing
can be fetched. -/
def fetchTrap (s : State) (k : Nat) : Option State :=
  match fetch s k with
  | .ins _ => none
  | .illegal bits => some (trap s k 1 bits)
  | .odd => some (trap s k 2 (s.core k).pc)
  | .fault a =>
    let t :=
      match place s k a 2 false with
      | some p => badPlace s p 2
      | none => s
    some (trap t k 4 a)

/-- An illegal encoding is fetched; the other faults of fetching are taken here too. -/
def execIllegalInstruction (k : Fin 257) (s : State) : Out :=
  if coreRuns s k && (breakpointAt s k).isNone then
    match fetchTrap s k with
    | some t => .next (instrEnd t k)
    | none => .next s
  else .next s

end Sys2Proof.Machine
end

