-- ==== Sys2Proof/Machine/TileControl.lean ====
section
/-! DEFINITION. Tile instructions: control flow, scalars, streams, counters and waits (R123, R125, R130, R131). Choices and
readings of the model: log entry 42. -/
namespace Sys2Proof.Machine

open Sys2Proof

/-- MOD and the control word are zero. -/
def plainHead (w : Nat) : List Check := [zeroField w 8 8, zeroField w 16 16]

/-- NOP does nothing. -/
def execNop (n : Fin 64) (s : State) : Out :=
  .next (tileIssue s n 0x00 (fun _ w => plainHead w ++ [zeroFrom w 32]) fun s _ => tileAdvance s n)

/-- The status a finished stream left, as the fault of the instruction that sees it (R131). -/
def errFault (status : Nat) : Nat := if status = St.mediumError then Tf.medium else Tf.region

/-- Wait until every slot of a mask is idle, then see the statuses its streams left, then go on (R123, R131). `wait` shows the
wait in TILE_STATE. -/
def afterSlots (s : State) (n mask : Nat) (wait : State → Nat → State) (k : State → State) : State :=
  let t := s.tile n
  if t.anyBusy mask then wait s n
  else if t.slotErr mask ≠ 0 then tileFault s n (errFault (t.slotErr mask))
  else k s

/-- The command of the program ends with SUCCESS. -/
def endProgram (s : State) (n : Nat) : State :=
  match (s.tile n).run with
  | none => s
  | some q =>
    let s := stopProgram s n
    match (s.queue (mkQid 1 (8 * n + q))).first with
    | some c => s.complete (mkQid 1 (8 * n + q)) c St.success 0
    | none => s

/-- END waits for all work and completes the command with SUCCESS. -/
def execEndCmd (n : Fin 64) (s : State) : Out :=
  .next (tileIssue s n 0x01 (fun _ w => plainHead w ++ [zeroFrom w 32]) fun s _ =>
    afterSlots s n 15 tileStall fun s => endProgram s n)

/-- JMP sets the program counter. -/
def execJmp (n : Fin 64) (s : State) : Out :=
  .next (tileIssue s n 0x02 (fun _ w => plainHead w ++ [zeroFrom w 44]) fun s w => tileJump s n (bitsOf w 32 12))

/-- LOOP decrements a scalar register and branches while it is nonzero. -/
def execLoop (n : Fin 64) (s : State) : Out :=
  .next (tileIssue s n 0x03
    (fun _ w => plainHead w ++ [zeroFrom w 48, (bitsOf w 32 4 != 0, Tf.rows)])
    fun s w =>
      let t := s.tile n
      let v := (2 ^ 64 - 1 + t.sreg (bitsOf w 32 4)) % 2 ^ 64
      let s := s.setTile n (t.setSreg (bitsOf w 32 4) v)
      if v = 0 then tileAdvance s n else tileJump s n (bitsOf w 36 12))

/-- Whether a branch condition holds of two scalar registers, compared signed. -/
def brTaken (cond a b : Nat) : Bool :=
  match cond with
  | 0 => a == b
  | 1 => a != b
  | 2 => decide (signedOf 64 a < signedOf 64 b)
  | _ => decide (signedOf 64 b ≤ signedOf 64 a)

/-- BR branches when a signed comparison of two scalar registers holds. -/
def execBr (n : Fin 64) (s : State) : Out :=
  .next (tileIssue s n 0x04 (fun _ w => [zeroField w 10 6, zeroField w 16 16, zeroFrom w 52]) fun s w =>
    let t := s.tile n
    if brTaken (bitsOf w 8 2) (t.sreg (bitsOf w 32 4)) (t.sreg (bitsOf w 36 4)) then tileJump s n (bitsOf w 40 12)
    else tileAdvance s n)

/-- SLI loads an immediate into a scalar register. -/
def execSli (n : Fin 64) (s : State) : Out :=
  .next (tileIssue s n 0x08 (fun _ w => plainHead w ++ [zeroField w 36 28]) fun s w =>
    tileAdvance (s.setTile n ((s.tile n).setSreg (bitsOf w 32 4) (bitsOf w 64 64))) n)

/-- The scalar operations of SALU, modulo 2^64. -/
def saluValue (opn a b : Nat) : Nat :=
  match opn with
  | 0 => (a + b) % 2 ^ 64
  | 1 => (2 ^ 64 + a - b % 2 ^ 64) % 2 ^ 64
  | 2 => (a * b) % 2 ^ 64
  | 3 => Nat.land a b
  | 4 => Nat.lor a b
  | 5 => Nat.xor a b
  | 6 => (a * 2 ^ (b % 64)) % 2 ^ 64
  | _ => a / 2 ^ (b % 64)

/-- SALU applies a scalar operation to a register and a register or an immediate. -/
def execSalu (n : Fin 64) (s : State) : Out :=
  .next (tileIssue s n 0x09
    (fun _ w =>
      [zeroField w 12 4, zeroField w 16 16, zeroField w 44 20, zeroFrom w 96,
        if bitOf w 11 then zeroField w 40 4 else zeroField w 64 32])
    fun s w =>
      let t := s.tile n
      let b := if bitOf w 11 then wordOf 64 (signedOf 32 (bitsOf w 64 32)) else t.sreg (bitsOf w 40 4)
      tileAdvance (s.setTile n (t.setSreg (bitsOf w 32 4) (saluValue (bitsOf w 8 3) (t.sreg (bitsOf w 36 4)) b))) n)

/-- The fault of a stream's address range at the far side (R130, R134): a scratchpad of another glade's tile or of an
out-of-service tile, or anything but one valid region of the tile's glade. -/
def farCheck (s : State) (n a len : Nat) : Check :=
  match tileAt a with
  | some _ => (s.gladeReach (s.tileGlade n) a len, Tf.otherPad)
  | none => (s.inGladeRgn (s.tileGlade n) a len, Tf.region)

/-- Length and alignment of a stream (R130). -/
def streamShape (a len : Nat) : Check := (a % 64 == 0 && len % 64 == 0 && 64 ≤ len && len ≤ 0x200000, Tf.stream)

/-- Chunks of a stream's length that its shape allows to be read. -/
def shapeLen (len : Nat) : Nat := if len ≤ 0x200000 then len else 0

/-- STREAM starts a copy into the scratchpad through the decompressor; on a busy slot it waits for the slot, and for every
earlier stream over its range to finish (R123). -/
def execStream (n : Fin 64) (s : State) : Out :=
  .next (tileIssue s n 0x10
    (fun t w =>
      let a := t.sreg (bitsOf w 32 4)
      let len := t.sreg (bitsOf w 36 4)
      let z := bitOf w 10
      let r := zeroMaskOut s 64 a (shapeLen len / 64)
      let far := farCheck s n a (if z then r.2.1 - a else len)
      [zeroField w 11 1, zeroField w 12 4, zeroField w 16 16, zeroFrom w 65, streamShape a len,
        (!z || !(streamShape a len).1 || !far.1 || !r.2.2.2, Tf.stream), inPad (spoAddr t (bitsOf w 40 25)) len,
        far])
    fun s w =>
      let t := s.tile n
      let k := bitsOf w 8 2
      if t.busy k || t.streamOver (spoAddr t (bitsOf w 40 25)) (t.sreg (bitsOf w 36 4)) then tileStall s n
      else
        let f : Flight :=
          { out := false, zeroMask := bitOf w 10, addr := t.sreg (bitsOf w 32 4), spad := spoAddr t (bitsOf w 40 25),
            len := t.sreg (bitsOf w 36 4), data := [] }
        tileAdvance (s.setTile n (t.begin k f)) n)

/-- STOUT starts a copy from the scratchpad; its bytes are those of program order (R113, R123). -/
def execStout (n : Fin 64) (s : State) : Out :=
  .next (tileIssue s n 0x11
    (fun t w =>
      let a := t.sreg (bitsOf w 32 4)
      let len := t.sreg (bitsOf w 36 4)
      [zeroField w 10 6, zeroField w 16 16, zeroFrom w 65, streamShape a len,
        inPad (spoAddr t (bitsOf w 40 25)) len, farCheck s n a len])
    fun s w =>
      let t := s.tile n
      let k := bitsOf w 8 2
      let spad := spoAddr t (bitsOf w 40 25)
      let len := t.sreg (bitsOf w 36 4)
      if t.busy k || t.streamOver spad len then tileStall s n
      else
        let r := padRead s n spad len
        let f : Flight :=
          { out := true, zeroMask := false, addr := t.sreg (bitsOf w 32 4), spad := spad, len := len, data := r.1 }
        tileAdvance (r.2.setTile n (t.begin k f)) n)

/-- A stream slot finishes its STREAM, the oldest in flight: its output lies in the scratchpad, uncorrectable chunks as zeros
(R131). -/
def execStreamComplete (n : Fin 64) (k : Fin 4) (s : State) : Out :=
  let t := s.tile n
  match (t.slot k).flight with
  | some f =>
    if f.out || !t.oldest f then .next s
    else
      let r := f.output s
      let s := if r.2 then s.noteRead f.addr (f.reads s) else s
      let s := (padWrite s n f.spad r.1).meterAdd (s.tileGlade n) 3 (f.reads s)
      .next (s.setTile n ((s.tile n).setSlot k { err := if r.2 then St.mediumError else (t.slot k).err }))
  | none => .next s

/-- A STOUT, the oldest in flight, finishes writing and its slot becomes idle. -/
def execStoutComplete (n : Fin 64) (k : Fin 4) (s : State) : Out :=
  let t := s.tile n
  match (t.slot k).flight with
  | some f =>
    if f.out && t.oldest f then
      let r := s.gladeWrite (s.tileGlade n) f.addr f.data
      .next (orHold s
        (r.1.setTile n ((r.1.tile n).setSlot k { err := if r.2 = St.success then (t.slot k).err else r.2 })))
    else .next s
  | none => .next s

/-- SWAIT waits until the named slots are idle and reports a stream's MEDIUM_ERROR. -/
def execSwait (n : Fin 64) (s : State) : Out :=
  .next (tileIssue s n 0x12 (fun _ w => [zeroField w 12 4, zeroField w 16 16, zeroFrom w 32]) fun s w =>
    afterSlots s n (bitsOf w 8 4) tileWait fun s => tileAdvance s n)

/-- POST waits for earlier work and then adds to a sync counter. -/
def execPost (n : Fin 64) (s : State) : Out :=
  .next (tileIssue s n 0x40
    (fun _ w =>
      [zeroField w 9 7, zeroField w 16 16, zeroFrom w 52, if bitOf w 8 then zeroField w 48 4 else (true, 0),
        (s.ctrGranted (bitsOf w 32 16) (s.tileGlade n), Tf.grant)])
    fun s w =>
      afterSlots s n 15 tileStall fun s =>
        tileAdvance (s.addCtr (bitsOf w 32 16) (if bitOf w 8 then 1 else (s.tile n).sreg (bitsOf w 48 4))) n)

/-- Go on at once if a wait is satisfied, and otherwise wait (R171). -/
def tileWaitOn (s : State) (n : Nat) (on : WaitOn) (target : Nat) : State :=
  if satisfied (s.waitValue on) target then tileAdvance s n
  else tileWait (s.addWait { who := .tile n, on := on, target := target }) n

/-- WAITC waits until a sync counter reaches a target. -/
def execWaitc (n : Fin 64) (s : State) : Out :=
  .next (tileIssue s n 0x41
    (fun _ w => plainHead w ++ [zeroFrom w 52, (s.ctrGranted (bitsOf w 32 16) (s.tileGlade n), Tf.grant)])
    fun s w => tileWaitOn s n (.counter (bitsOf w 32 16)) ((s.tile n).sreg (bitsOf w 48 4)))

/-- WAITQ waits until a queue's completion count reaches a target. -/
def execWaitq (n : Fin 64) (s : State) : Out :=
  .next (tileIssue s n 0x42
    (fun _ w => plainHead w ++ [zeroFrom w 60, (s.mayWait (s.tileGlade n) (.count (bitsOf w 32 24)), Tf.grant)])
    fun s w => tileWaitOn s n (.count (bitsOf w 32 24)) ((s.tile n).sreg (bitsOf w 56 4)))

/-- FENCE waits for earlier work and for its writes to become visible. -/
def execFence (n : Fin 64) (s : State) : Out :=
  .next (tileIssue s n 0x43 (fun _ w => plainHead w ++ [zeroFrom w 32]) fun s _ =>
    afterSlots s n 15 tileStall fun s => tileAdvance s n)

/-- SRSEED writes a scalar register to TILE_SR_SEED. -/
def execSrseed (n : Fin 64) (s : State) : Out :=
  .next (tileIssue s n 0x44 (fun _ w => plainHead w ++ [zeroFrom w 36]) fun s w =>
    tileAdvance (seedWrite s n ((s.tile n).sreg (bitsOf w 32 4))) n)

end Sys2Proof.Machine
end

