-- ==== Sys2Proof/Machine/TileMath.lean ====
section
/-! DEFINITION. Tile instructions that load weights, multiply, drain and use the vector unit (R94 to R111, R126 to R129).
Choices and readings of the model: log entries 12 and 42. -/
namespace Sys2Proof.Machine

open Sys2Proof

/-! ### WLOAD (R128) -/

/-- Bytes of a weight block's scale plane (R128). -/
def wScaleBytes (w : Nat) (sparse : Bool) : Nat := if fmtMx w then 32 * (spanK w sparse / 32) else 0

/-- Bytes of metadata of one sparse row (R108, R128): a nibble for each group of 4 K positions. -/
def metaRow (w : Nat) : Nat := spanK w true / 8

/-- The nibble of group `g` of a row of metadata. -/
def nibbleAt (metas : List Byte) (w r g : Nat) : Nat := bitsOf (leAt metas (r * metaRow w + g / 2) 1) (4 * (g % 2)) 4

/-- Every nibble of a block's metadata has its first index below its second (R108). -/
def metaOk (metas : List Byte) (w : Nat) : Bool :=
  (List.range 32).all fun r =>
    (List.range (spanK w true / 4)).all fun g =>
      let x := nibbleAt metas w r g
      x % 4 < x / 4

/-- The 8 pad bytes of each row of an MXFP6 block are zero (R128). -/
def padOk (vals : List Byte) : Bool := (List.range 32).all fun r => zeroAt vals (32 * r + 24) 8

/-- An operand field that the instruction uses lies in the scratchpad; one that it does not use is zero (R124). -/
def spoCheck (t : Tile) (used : Bool) (spo len : Nat) : Check :=
  if used then inPad (spoAddr t spo) len else (spo == 0, Tf.field)

/-- Whether a scratchpad operand can be read at all. -/
def spoIn (t : Tile) (spo len : Nat) : Bool := !padOut (spoAddr t spo) len

/-- The block an instruction word loads, as the scratchpad now reads. -/
def blockAt (s : State) (n w : Nat) : WBlock × State :=
  let t := s.tile n
  let a := acwOf w
  let v := padRead s n (spoAddr t (bitsOf w 32 25)) 1024
  let c := padRead v.2 n (spoAddr t (bitsOf w 57 25)) (wScaleBytes a.wfmt a.sparse)
  let m := padRead c.2 n (spoAddr t (bitsOf w 82 25)) (if a.sparse then 32 * metaRow a.wfmt else 0)
  ({ fmt := a.wfmt, sparse := a.sparse, vals := v.1, scales := c.1, metas := m.1 }, m.2)

/-- The tests of a WLOAD. -/
def wloadChecks (s : State) (n : Nat) (t : Tile) (w : Nat) : List Check :=
  let a := acwOf w
  let known := weightOk a.wfmt
  let vIn := spoIn t (bitsOf w 32 25) 1024
  let mIn := spoIn t (bitsOf w 82 25) (32 * metaRow a.wfmt)
  let b := (blockAt s n w).1
  [zeroField w 8 8, zeroField w 20 10, zeroField w 31 1, zeroFrom w 107, (known, Tf.format),
    spoCheck t true (bitsOf w 32 25) 1024,
    if known then spoCheck t (fmtMx a.wfmt) (bitsOf w 57 25) (wScaleBytes a.wfmt a.sparse) else (true, 0),
    if known then spoCheck t a.sparse (bitsOf w 82 25) (32 * metaRow a.wfmt) else (true, 0),
    (!a.sparse || !known || !mIn || metaOk b.metas a.wfmt, Tf.sparse),
    (!(a.wfmt == Fmt.mxe2m3 || a.wfmt == Fmt.mxe3m2) || !vIn || padOk b.vals, Tf.pad)]
    ++ featureChecks s a.sr a.sparse

/-- WLOAD loads one weight block into the weight register. -/
def execWload (n : Fin 64) (s : State) : Out :=
  .next (tileIssue s n 0x20 (wloadChecks s n) fun s w =>
    let r := blockAt s n w
    tileAdvance (r.2.setTile n { r.2.tile n with wreg := some r.1 }) n)

/-! ### MMA (R95, R100 to R103, R127) -/

/-- The stored elements of row `r` of a weight block with their K positions (R108, R128). -/
def WBlock.row (b : WBlock) (r : Nat) : List (Nat × Nat) :=
  let l := bytesAt b.vals (32 * r) 32
  if b.sparse then
    (List.range (denseK b.fmt)).map fun i =>
      let x := nibbleAt b.metas b.fmt r (i / 2)
      (4 * (i / 2) + (if i % 2 = 0 then x % 4 else x / 4), rawElem b.fmt l i)
  else (List.range (denseK b.fmt)).map fun i => (i, rawElem b.fmt l i)

/-- The exponent of the product of the two block scales of a group, or none if one of them is NaN (R98, R101). -/
def groupScale (b : WBlock) (afmt r g : Nat) (asc : List Byte) : Option Int :=
  let span := spanK b.fmt b.sparse
  let k := g * groupK b.fmt / 32
  let w : Option Int := if fmtMx b.fmt then scaleExp (leAt b.scales (r * (span / 32) + k) 1) else some 0
  let a : Option Int := if fmtMx afmt then scaleExp (leAt asc k 1) else some 0
  match w, a with
  | some x, some y => some (x + y)
  | _, _ => none

/-- One output of an FP32-class MMA: the groups in order, added to the accumulator (R101). -/
def floatOutput (b : WBlock) (afmt : Nat) (vec asc : List Byte) (r : Nat) (start : Option Nat) : Nat × Nat :=
  let row := b.row r
  let acts := rawElems afmt vec (spanK b.fmt b.sparse)
  let out := (List.range (spanK b.fmt b.sparse / groupK b.fmt)).foldl
    (fun (acc : Option Nat × Nat) g =>
      let terms := (row.filter fun p => p.1 / groupK b.fmt == g).map fun p =>
        (decodeElem b.fmt p.2, decodeElem afmt (acts[p.1]?.getD 0))
      let x := groupAdd (groupScale b afmt r g asc) terms acc.1
      (some x.1, Fl.or acc.2 x.2)) (start, 0)
  (out.1.getD 0, out.2)

/-- One output of an integer MMA: the exact sum of all products, added to the accumulator (R102). -/
def intOutput (b : WBlock) (afmt : Nat) (vec : List Byte) (r : Nat) (start : Option Nat) : Nat × Nat :=
  let acts := rawElems afmt vec (spanK b.fmt b.sparse)
  let sum := (b.row r).foldl
    (fun (t : Int) p =>
      t + signedOf (fmtBits b.fmt) p.2 * signedOf (fmtBits afmt) (acts[p.1]?.getD 0)) 0
  intAdd sum start

/-- Accumulator entry `i` of a row of a buffer. -/
def Tile.accAt (t : Tile) (buf row i : Nat) : Nat := (Tab.get 0 t.acc (1024 * buf + 32 * row + i)).toNat

/-- Class of an accumulator row (R102). -/
def Tile.clsAt (t : Tile) (buf row : Nat) : Nat := Tab.get 0 t.cls (32 * buf + row)

/-- The class of an operand pair: 1 integer, 2 FP32 (R100, R102). -/
def pairClass (w : Nat) : Nat := if fmtInt w then 1 else 2

/-- The tile with an accumulator row written and its class set. -/
def Tile.setRow (t : Tile) (buf row cls : Nat) (l : List Nat) : Tile :=
  let acc := l.zipIdx.foldl
    (fun m p => Tab.set 0 m (1024 * buf + 32 * row + p.2) (BitVec.ofNat 32 p.1)) t.acc
  { t with acc := acc, cls := Tab.set 0 t.cls (32 * buf + row) cls }

/-- Apply a weight block to one activation vector into one accumulator row: the tile and the flags. -/
def mmaRow (t : Tile) (b : WBlock) (afmt : Nat) (keep : Bool) (buf row : Nat) (vec asc : List Byte) : Tile × Nat :=
  let outs := (List.range 32).map fun i =>
    let start := if keep then some (t.accAt buf row i) else none
    if fmtInt b.fmt then intOutput b afmt vec i start else floatOutput b afmt vec asc i start
  (t.setRow buf row (pairClass b.fmt) (outs.map (·.1)), outs.foldl (fun f o => Fl.or f o.2) 0)

/-- Bytes of an activation vector (R127). -/
def vecBytes (w a : Nat) (sparse : Bool) : Nat := fmtBytes a (spanK w sparse)

/-- Scale bytes of an activation vector (R127). -/
def vecScales (w a : Nat) (sparse : Bool) : Nat := if fmtMx a then spanK w sparse / 32 else 0

/-- The tests of an MMA. -/
def mmaChecks (s : State) (t : Tile) (w : Nat) : List Check :=
  let a := acwOf w
  let m := bitsOf w 32 5 + 1
  let row0 := bitsOf w 9 5
  let pair := pairOk a.wfmt a.afmt
  let bEnd := (m - 1) * bitsOf w 87 16 + vecBytes a.wfmt a.afmt a.sparse
  let sEnd := (m - 1) * bitsOf w 103 16 + vecScales a.wfmt a.afmt a.sparse
  [zeroField w 14 2, zeroField w 24 6, zeroFrom w 119,
    (bitsOf w 87 16 != 0 || m == 1, Tf.field),
    (pair, Tf.format),
    (row0 + m ≤ 32, Tf.rows),
    (!a.acc || !pair || (List.range m).all fun j =>
        let c := t.clsAt (bitsOf w 8 1) (row0 + j)
        32 ≤ row0 + j || c == 0 || c == pairClass a.wfmt, Tf.format),
    (match t.wreg with
      | some b => b.fmt == a.wfmt && b.sparse == a.sparse
      | none => false, Tf.block),
    if pair then inPad (spoAddr t (bitsOf w 37 25)) bEnd else (true, 0),
    if fmtMx a.afmt then (if pair then inPad (spoAddr t (bitsOf w 62 25)) sEnd else (true, 0))
    else (bitsOf w 62 25 == 0 && bitsOf w 103 16 == 0, Tf.field)]
    ++ featureChecks s a.sr a.sparse

/-- MMA applies the current weight block to M activation vectors into accumulator rows. -/
def execMma (n : Fin 64) (s : State) : Out :=
  .next (tileIssue s n 0x21 (mmaChecks s) fun s w =>
    let a := acwOf w
    match (s.tile n).wreg with
    | none => s
    | some b =>
      let one := fun (s : State) (j : Nat) =>
        let t := s.tile n
        let v := padRead s n (spoAddr t (bitsOf w 37 25) + j * bitsOf w 87 16) (vecBytes a.wfmt a.afmt a.sparse)
        let c := padRead v.2 n (spoAddr t (bitsOf w 62 25) + j * bitsOf w 103 16) (vecScales a.wfmt a.afmt a.sparse)
        let r := mmaRow (c.2.tile n) b a.afmt a.acc (bitsOf w 8 1) (bitsOf w 9 5 + j) v.1 c.1
        setFlags (c.2.setTile n r.1) n r.2
      tileAdvance ((List.range (bitsOf w 32 5 + 1)).foldl one s) n)

/-! ### DRAIN (R104 to R107, R109, R126) -/

/-- Whether a class allows an output format of a DRAIN (R102, R109). -/
def drainFmt (cls o : Nat) : Bool :=
  match cls with
  | 1 => o == Fmt.int32
  | 2 => fmtMx o || fmtFloat o
  | _ => o == Fmt.int32 || fmtMx o || fmtFloat o

/-- Whether a row of a class drains as an integer accumulator, for which SR is unused (R109): a row with no class does when OFMT
is INT32. -/
def drainsInt (cls o : Nat) : Bool := cls == 1 || (cls == 0 && o == Fmt.int32)

/-- The tests of a DRAIN. -/
def drainChecks (s : State) (t : Tile) (w : Nat) : List Check :=
  let a := acwOf w
  let m := bitsOf w 32 5 + 1
  let row0 := bitsOf w 9 5
  let known := fmtKnown a.ofmt
  let rows := ((List.range m).map (row0 + ·)).filter (· < 32)
  [zeroField w 14 2, zeroField w 16 8, zeroField w 30 2, zeroFrom w 103,
    (!a.sr || !rows.any fun r => drainsInt (t.clsAt (bitsOf w 8 1) r) a.ofmt, Tf.field),
    (rows.all fun r => drainFmt (t.clsAt (bitsOf w 8 1) r) a.ofmt, Tf.format),
    (row0 + m ≤ 32, Tf.rows),
    if known then inPad (spoAddr t (bitsOf w 37 25)) ((m - 1) * bitsOf w 87 16 + fmtBytes a.ofmt 32) else (true, 0),
    spoCheck t (fmtMx a.ofmt) (bitsOf w 62 25) m]
    ++ featureChecks s a.sr false

/-- Convert one accumulator row of 32 words to an output format: the elements, the scale byte and the flags. -/
def drainRow (draw : Nat → Option Nat) (sat : Bool) (o : Nat) (l : List Nat) : List Byte × List Byte × Nat :=
  if o = Fmt.int32 then (packElems o l, [], 0)
  else if fmtMx o then
    let b := toBlock draw o (l.map ofF32)
    (packElems o b.2.1, toLe 1 b.1, b.2.2)
  else
    let xs := l.zipIdx.map fun p => toFloat (draw p.2) sat o (ofF32 p.1)
    (packElems o (xs.map (·.1)), [], xs.foldl (fun f x => Fl.or f x.2) 0)

/-- DRAIN converts accumulator rows to OFMT and writes them to the scratchpad. -/
def execDrain (n : Fin 64) (s : State) : Out :=
  .next (tileIssue s n 0x22 (drainChecks s) fun s w =>
    let a := acwOf w
    let t := s.tile n
    let one := fun (s' : State) (j : Nat) =>
      let l := (List.range 32).map fun i => t.accAt (bitsOf w 8 1) (bitsOf w 9 5 + j) i
      let r := drainRow (fun i => tileDraw s n a.sr (32 * j + i)) a.sat a.ofmt l
      let s' := padWrite s' n (spoAddr t (bitsOf w 37 25) + j * bitsOf w 87 16) r.1
      let s' := if fmtMx a.ofmt then padWrite s' n (spoAddr t (bitsOf w 62 25) + j) r.2.1 else s'
      setFlags s' n r.2.2
    tileAdvance (srAdvance ((List.range (bitsOf w 32 5 + 1)).foldl one s) n a.sr) n)

/-! ### VOP (R111, R129) -/

/-- The listed VOP codes. -/
def vopListed (c : Nat) : Bool := c ≤ 0x14 || (0x18 ≤ c && c ≤ 0x1F)

/-- Whether a code uses operand b. -/
def vopUsesB (c : Nat) : Bool := c ≤ 0x07 || 0x18 ≤ c

/-- Whether a code reads the old contents of the destination. -/
def vopUsesD (c : Nat) : Bool := c == 0x03 || c == 0x07

/-- Whether a code is a reduction across lanes. -/
def vopReduces (c : Nat) : Bool := c == 0x13 || c == 0x14

/-- FP8, BF16 or FP32 as an output, or INT8, INT4 or INT32 (R129). -/
def vopOut (o : Nat) : Bool := fmtFloat o || fmtInt o

/-- The formats each code allows (R129). -/
def vopFormats (c a o : Nat) : Bool :=
  if c = 0x0A then fmtKnown a && fmtKnown o && !(fmtMx a && fmtMx o)
  else if vopReduces c then fmtFloat a && o == Fmt.fp32
  else if 0x18 ≤ c then a == Fmt.int32 && o == Fmt.int32
  else if 0x06 ≤ c && c ≤ 0x09 && a = Fmt.int32 then o == Fmt.int32
  else fmtFloat a && vopOut o

/-- Whether SR is unused by a code and its input format (R109). -/
def vopNoSr (c a : Nat) : Bool := vopReduces c || 0x18 ≤ c || (0x06 ≤ c && c ≤ 0x09 && a == Fmt.int32)

/-- Bytes a VOP writes for each vector. -/
def vopOutBytes (c o : Nat) : Nat := if vopReduces c then 4 else fmtBytes o 64

/-- The tests of a VOP. -/
def vopChecks (s : State) (t : Tile) (w : Nat) : List Check :=
  let a := acwOf w
  let c := bitsOf w 8 6
  let bscal := bitOf w 14
  let n := bitsOf w 107 12 + 1
  let ok := vopListed c && vopFormats c a.afmt a.ofmt
  let mx := c == 0x0A && (fmtMx a.afmt || fmtMx a.ofmt)
  let bLen := if vopUsesB c then n * fmtBytes a.afmt 64 else 2 * n
  [(vopListed c, Tf.op), zeroField w 15 1, zeroField w 16 4, zeroField w 30 2, zeroFrom w 119,
    (!(a.sr && vopNoSr c a.afmt), Tf.field), (!bscal || vopUsesB c, Tf.field),
    (!bscal || bitsOf w 86 21 == 0, Tf.field), (vopFormats c a.afmt a.ofmt, Tf.format),
    if ok then inPad (spoAddr t (bitsOf w 57 25)) (n * fmtBytes a.afmt 64) else (true, 0),
    if ok then inPad (spoAddr t (bitsOf w 32 25)) (n * vopOutBytes c a.ofmt) else (true, 0),
    if ok && !bscal then spoCheck t (vopUsesB c || mx) (bitsOf w 82 25) bLen else (true, 0)]
    ++ featureChecks s a.sr false

/-- Minimum (`low`) or maximum of two values; the sign of a result among zeros of both signs is free (log entry 12, safe). -/
def pickNum (low : Bool) (x y : Num) : Num :=
  if x.isNan || y.isNan then .nan
  else if Num.lt x y then (if low then x else y)
  else if Num.lt y x then (if low then y else x)
  else if x.isZero && x.sign != y.sign then .fin (bitOf (Config.vectorResult (if low then 0x04 else 0x05) 0).toNat 31) 0 0
  else x

/-- The exact or FP32 result of a floating code on lanes a, b and d, and its flags before conversion. -/
def vopFloat (c : Nat) (x y d : Num) : Num × Nat :=
  match c with
  | 0x00 => sumNum [x, y]
  | 0x01 => sumNum [x, y.negate]
  | 0x02 => mulNum x y
  | 0x03 =>
    let p := mulNum x y
    let t := sumNum [p.1, d]
    (t.1, Fl.or p.2 t.2)
  | 0x04 => (pickNum true x y, 0)
  | 0x05 => (pickNum false x y, 0)
  | 0x06 => (if Num.lt x y then .ofInt 1 else .zero, 0)
  | 0x07 => (if d.isZero then y else x, 0)
  | 0x08 => (x.magnitude, 0)
  | 0x09 => (x.negate, 0)
  | _ =>
    let r := vectorFunction c (roundF32 x).1
    (ofF32 r.1, r.2)

/-- The INT32 result of a code on lanes a, b and d, modulo 2^32 (R111, R129). -/
def vopInt (c x y d : Nat) : Nat :=
  match c with
  | 0x06 => b2n (decide (signedOf 32 x < signedOf 32 y))
  | 0x07 => if d = 0 then y else x
  | 0x08 => if x = 2 ^ 31 then (Config.vectorMinInt c).toNat else wordOf 32 (signedOf 32 x).natAbs
  | 0x09 => if x = 2 ^ 31 then (Config.vectorMinInt c).toNat else wordOf 32 (-signedOf 32 x)
  | 0x18 => (x + y) % 2 ^ 32
  | 0x19 => (2 ^ 32 + x - y) % 2 ^ 32
  | 0x1A => (x * y) % 2 ^ 32
  | 0x1B => (x * 2 ^ (y % 32)) % 2 ^ 32
  | 0x1C => wordOf 32 (signedOf 32 x / 2 ^ (y % 32))
  | 0x1D => Nat.land x y
  | 0x1E => Nat.lor x y
  | _ => Nat.xor x y

/-- One step of a reduction: lane `i` with lane `i + h` (R111). -/
def reduceStep (c : Nat) (l : List Num) (h : Nat) : List Num × Nat :=
  let rs := (List.range h).map fun i =>
    let x := l[i]?.getD .zero
    let y := l[i + h]?.getD .zero
    if c = 0x13 then
      let t := sumNum [x, y]
      let r := roundF32 t.1
      (ofF32 r.1, Fl.or t.2 r.2)
    else (pickNum false x y, 0)
  (rs.map (·.1), rs.foldl (fun f r => Fl.or f r.2) 0)

/-- The sum or maximum of 64 lanes as an FP32 word, and its flags. With SAT an infinite result is the largest finite one
(R106). -/
def reduceLanes (c : Nat) (sat : Bool) (l : List Num) : Nat × Nat :=
  let r := [32, 16, 8, 4, 2, 1].foldl
    (fun (acc : List Num × Nat) h =>
      let x := reduceStep c acc.1 h
      (x.1, Fl.or acc.2 x.2)) (l, 0)
  ((toFloat none sat Fmt.fp32 (r.1.headD .zero)).1, r.2)

/-- The operands of a VOP as bytes: a, b, and the destination's old contents. -/
structure VopIn where
  a : List Byte
  b : List Byte
  d : List Byte
  scalar : Option Nat
  deriving DecidableEq, Repr

/-- Element values of a plane of `n` elements. -/
def laneNums (f : Nat) (l : List Byte) (n : Nat) : List Num := (rawElems f l n).map (decodeElem f)

/-- Convert `n` values, in the order of their output numbers, to a format that is not microscaling. -/
def plainOut (draw : Nat → Option Nat) (sat : Bool) (o : Nat) (xs : List (Num × Nat)) : List Byte × Nat :=
  let rs := xs.zipIdx.map fun p =>
    let r := toPlain (draw p.2) sat o p.1.1
    (r.1, Fl.or p.1.2 r.2)
  (packElems o (rs.map (·.1)), rs.foldl (fun f r => Fl.or f r.2) 0)

/-- Convert (VOP code 0x0A) `n` elements: the output plane, the scale plane and the flags (R111, R129). -/
def convertLanes (draw : Nat → Option Nat) (sat : Bool) (a o n : Nat) (i : VopIn) : List Byte × List Byte × Nat :=
  let xs := (laneNums a i.a n).zipIdx.map fun p =>
    if fmtMx a then
      match scaleExp (leAt i.b (p.2 / 32) 1) with
      | some k => (p.1.scale k, 0)
      | none => (Num.nan, Fl.scaleNan)
    else (p.1, 0)
  let pre := xs.foldl (fun f x => Fl.or f x.2) 0
  if fmtMx o then
    let bs := (List.range (n / 32)).map fun k =>
      toBlock (fun j => draw (32 * k + j)) o (((xs.drop (32 * k)).take 32).map (·.1))
    (packElems o (bs.flatMap (·.2.1)), bs.flatMap fun b => toLe 1 b.1, bs.foldl (fun f b => Fl.or f b.2.2) pre)
  else
    let r := plainOut draw sat o xs
    (r.1, [], Fl.or pre r.2)

/-- The result of a VOP over `n` vectors: the output plane, the scale plane of a convert, and the flags. -/
def vopResult (draw : Nat → Option Nat) (c : Nat) (acw : Acw) (n : Nat) (i : VopIn) : List Byte × List Byte × Nat :=
  let a := acw.afmt
  if c = 0x0A then convertLanes draw acw.sat a acw.ofmt (64 * n) i
  else if vopReduces c then
    let l := laneNums a i.a (64 * n)
    let rs := (List.range n).map fun v => reduceLanes c acw.sat ((l.drop (64 * v)).take 64)
    (packElems Fmt.fp32 (rs.map (·.1)), [], rs.foldl (fun f r => Fl.or f r.2) 0)
  else if a = Fmt.int32 then
    let xs := rawElems a i.a (64 * n)
    let ys := match i.scalar with
      | some v => xs.map fun _ => v % 2 ^ 32
      | none => rawElems a i.b (64 * n)
    let ds := rawElems acw.ofmt i.d (64 * n)
    let rs := xs.zipIdx.map fun p => vopInt c p.1 (ys[p.2]?.getD 0) (ds[p.2]?.getD 0)
    (packElems Fmt.int32 rs, [], 0)
  else
    let xs := laneNums a i.a (64 * n)
    let ys := match i.scalar with
      | some v => xs.map fun _ => ofF32 (v % 2 ^ 32)
      | none => laneNums a i.b (64 * n)
    let ds := laneNums acw.ofmt i.d (64 * n)
    let rs := xs.zipIdx.map fun p =>
      let r := vopFloat c p.1 (ys[p.2]?.getD .zero) (ds[p.2]?.getD .zero)
      let w := roundF32 r.1
      (ofF32 w.1, Fl.or r.2 w.2)
    let out := plainOut draw acw.sat acw.ofmt rs
    (out.1, [], out.2)

/-- VOP performs N 64-lane vector-unit operations. Its operands are read before its results are written. -/
def execVop (n : Fin 64) (s : State) : Out :=
  .next (tileIssue s n 0x30 (vopChecks s) fun s w =>
    let t := s.tile n
    let a := acwOf w
    let c := bitsOf w 8 6
    let v := bitsOf w 107 12 + 1
    let bscal := bitOf w 14
    let dst := spoAddr t (bitsOf w 32 25)
    let mxIn := c == 0x0A && fmtMx a.afmt
    let bLen := if bscal then 0 else if vopUsesB c then v * fmtBytes a.afmt 64 else if mxIn then 2 * v else 0
    let ra := padRead s n (spoAddr t (bitsOf w 57 25)) (v * fmtBytes a.afmt 64)
    let rb := padRead ra.2 n (spoAddr t (bitsOf w 82 25)) bLen
    let rd := padRead rb.2 n dst (if vopUsesD c then v * fmtBytes a.ofmt 64 else 0)
    let i : VopIn :=
      { a := ra.1, b := rb.1, d := rd.1, scalar := if bscal then some (t.sreg (bitsOf w 82 4)) else none }
    let r := vopResult (tileDraw s n a.sr) c a v i
    let s := padWrite rd.2 n dst r.1
    let s := if c == 0x0A && fmtMx a.ofmt then padWrite s n (spoAddr t (bitsOf w 82 25)) r.2.1 else s
    tileAdvance (srAdvance (setFlags s n r.2.2) n a.sr) n)

end Sys2Proof.Machine
end

