-- ==== Sys2Proof/Machine/Trail.lean ====
section
/-! DEFINITION. The Trail port (R456 to R463) and the test access port (R464 to R466). Choices and readings of the model: log
entry 34. -/
namespace Sys2Proof.Machine

open Sys2Proof

/-! ### Transactions (R456, R457) -/

/-- The bits of a number, least significant first. -/
def lsbBits (n v : Nat) : List Bool := (List.range n).map fun i => bitOf v i

/-- CRC-8 with polynomial 0x07 and initial value 0 over bits in the order in which they are sent. -/
def crc8 (l : List Bool) : Nat :=
  l.foldl (fun c b => let x := c * 2 % 256; if bitOf c 7 != b then Nat.xor x 7 else x) 0

/-- The Trail port answers: the device is supplied, and grove 5 runs (R448). -/
def trailOn (s : State) : Bool := s.pins.aux && s.rd CLK_GROVE.STATE 5 != 2

/-- The device's answer: ACK, the data of a read that is done, and the CRC over both. -/
def trailAnswer (s : State) (ack : Nat) (data : Option Nat) : State :=
  let l := toLe 1 ack ++ (match data with
    | some v => toLe 8 v
    | none => [])
  s.emit (.serial (l ++ toLe 1 (crc8 (l.flatMap fun b => lsbBits 8 b.toNat))))

/-- The offset of the TRL block (R21). -/
def trlBase : Nat := 0x2800000

/-- A register of the TRL block lies at an offset. -/
def trlThere (off : Nat) : Bool := off < 0x200000 && (findReg (trlBase + off)).isSome

/-- A register is open while the port is locked (R458). -/
def openLocked (off : Nat) : Bool := off < 0x200

/-- The port is locked, as it is while the test access port holds the device (R466). -/
def trailLocked (s : State) : Bool := s.rd TRL_STATUS.LOCK == 0 || s.cpu.tapHold

/-! ### The selected core and the scope (R459, R460) -/

/-- What TRL_STATUS.ERR shows of an access. -/
def trailErr (s : State) (e : Nat) : State := s.wr TRL_STATUS.ERR 0 e

/-- The debug entry of the selected core, if there is such a core in service. -/
def trailCore (s : State) : Option Nat :=
  let u := s.rd TRL_CORE_SEL.UNIT
  let i := u % 0x1000
  match u / 0x1000 with
  | 0 => if (i = 1 || i = 2) && mgmtOk s (i - 1) then some (255 + i) else none
  | 4 =>
    let k := 16 * (i / 32) + i % 32
    if i < 512 && i % 32 < 16 && coreRole s k != 3 then some k else none
  | _ => none

/-- The scope reaches a core. -/
def inScope (s : State) (d : Nat) : Bool :=
  s.rd TRL_STATUS.LOCK == 2
    || (s.rd TRL_STATUS.LOCK == 1 && d < 256 && coreRole s d == 2
      && s.rd CPU_CORE.GLADE (coreEntry d) == s.rd TRL_STATUS.GLADE)

/-- Act on the selected core, or set ERR to 4 or 2 and do nothing. -/
def onCore (s : State) (f : State → Nat → State) : State :=
  match trailCore s with
  | none => trailErr s 4
  | some d => if inScope s d then f (trailErr s 0) d else trailErr s 2

/-- Something read of the selected core: zero, with ERR set, where it is out of reach. -/
def readCore (s : State) (f : Nat → Nat) : State × Nat :=
  match trailCore s with
  | none => (trailErr s 4, 0)
  | some d => if inScope s d then (trailErr s 0, f d) else (trailErr s 2, 0)

/-! ### Halting, stepping, breakpoints and watchpoints (R460, R461) -/

/-- The active management pair has been halted: the loops fall to their defaults (R461). -/
def haltedPair (s : State) (d : Nat) : State := if d = 256 + activePair s then defaultClocks s else s

/-- The management pair runs again (R461). -/
def resumedPair (s : State) (d : Nat) : State := if d = 256 + activePair s then controlBack s else s

/-- HALT on a core. -/
def trailHalt (s : State) (d : Nat) : State := if (s.debugOf d).halted then s else haltedPair (dbgHalt s d 0 0) d

/-- RESUME on a core. -/
def trailResume (s : State) (d : Nat) : State :=
  if (s.debugOf d).halted then resumedPair (dbgResume s d false) d else s

/-- STEP on a core, which must be halted. -/
def trailStep (s : State) (d : Nat) : State := if (s.debugOf d).halted then dbgResume s d true else trailErr s 1

/-- HALT on the selected core. -/
def execHalt (s : State) : Out := .next (if trailLocked s then s else onCore s trailHalt)

/-- RESUME on the selected core. -/
def execTrailResume (s : State) : Out := .next (if trailLocked s then s else onCore s trailResume)

/-- STEP on the selected core. -/
def execStep (s : State) : Out := .next (if trailLocked s then s else onCore s trailStep)

/-- A core that would execute the instruction at a breakpoint halts before it. -/
def execBreakpointHit (k : Fin 257) (s : State) : Out :=
  match if coreRuns s k then breakpointAt s k else none with
  | some j => .next (haltedPair (dbgHalt s (debugKey s k) 2 j) (debugKey s k))
  | none => .next s

/-- A core whose access has matched a watchpoint halts before its next instruction. -/
def execWatchpointHit (k : Fin 257) (s : State) : Out :=
  let d := debugKey s k
  match (s.debugOf d).hit with
  | some j => .next (haltedPair (dbgHalt s d 3 j) d)
  | none => .next s

/-- The word of TRL_CORE_CTRL for a core. -/
def coreCtrlWord (s : State) (d : Nat) : Nat :=
  let x := s.debugOf d
  8 * b2n x.halted + 16 * x.reason + 64 * x.which

/-- A write of TRL_CORE_CTRL. -/
def coreCtrlWrite (s : State) (v : Nat) : State :=
  onCore s fun s d =>
    let s := if bitOf v 0 then trailHalt s d else s
    let s := if bitOf v 1 then trailResume s d else s
    if bitOf v 2 then trailStep s d else s

/-- A breakpoint or watchpoint word of a core replaced. -/
def setBreak (s : State) (d j v : Nat) : State :=
  s.setDebug d { s.debugOf d with bp := Tab.set 0 (s.debugOf d).bp j (v % 2 ^ 32) }
def setWatch (s : State) (d j v : Nat) : State :=
  s.setDebug d { s.debugOf d with wp := Tab.set 0 (s.debugOf d).wp j (v % 2 ^ 40) }

/-! ### Registers of a halted core (R460, R463) -/

/-- Read a register of a core by its number: a gp register, the PC, or a system register. A number that names none gives a
free word (log entry 34, safe). -/
def debugRead (s : State) (k num : Nat) (sr : Bool) : Nat × State :=
  if sr then
    if srOpen num || srGuarded num then srRead s k num
    else
      let v := s.freeWord
      (v.1.toNat % 2 ^ 32, v.2)
  else if num < 32 then (s.gpr k num, s)
  else if num = 32 then ((s.core k).pc, s)
  else
    let v := s.freeWord
    (v.1.toNat % 2 ^ 32, v.2)

/-- Write a register of a core by its number. -/
def debugWrite (s : State) (k num : Nat) (sr : Bool) (v : Nat) : State :=
  if sr then (if srOpen num || srGuarded num then srWrite s k num v else s)
  else if num < 32 then s.setCore k ((s.core k).setGpr num v)
  else if num = 32 then s.setCore k { s.core k with pc := v }
  else s

/-- GO of TRL_CORE_REG on a core, which must be halted. -/
def coreRegGo (s : State) (d : Nat) : State :=
  let num := s.rd TRL_CORE_REG.NUM
  let sr := s.flag TRL_CORE_REG.SR
  if !(s.debugOf d).halted then trailErr s 1
  else if s.flag TRL_CORE_REG.WRITE then debugWrite s (coreOfDebug d) num sr (s.rd TRL_CORE_REG.DATA)
  else
    let r := debugRead s (coreOfDebug d) num sr
    r.2.wr TRL_CORE_REG.DATA 0 r.1

/-- A write of TRL_CORE_REG. -/
def coreRegWrite (s : State) (v : Nat) : State :=
  let s := s.writeFields [TRL_CORE_REG.DATA, TRL_CORE_REG.NUM, TRL_CORE_REG.SR, TRL_CORE_REG.WRITE] 0 v
  if bitOf v 43 then onCore s coreRegGo else s

/-- A write of TRL_CORE_REG with GO. -/
def execCoreRegAccess (v : Word) (s : State) : Out :=
  .next (if trailLocked s then s else coreRegWrite s (putBits v.toNat 43 1 1))

/-! ### Memory (R459, R462) -/

/-- Whether the scope reaches eight bytes at an internal address: a region closed to all but the device's own use is out of
reach (R190, R227, R418). -/
def memScope (s : State) (a : Nat) : Bool :=
  if s.rd TRL_STATUS.LOCK = 2 then (decodedAt s a 8 && !s.closedAt a 8) || inRegSpace a 8
  else s.gladeReach (s.rd TRL_STATUS.GLADE) a 8

/-- An access of TRL_MEM_DATA begins: an access in progress stays the only one, and one outside the scope sets ERR. -/
def memStart (s : State) (write : Option Nat) : State :=
  if s.cpu.job.isSome then s
  else
    let a := s.rd TRL_MEM_ADDR.ADDR / 8 * 8
    let go := fun (s : State) own k => { trailErr s 0 with cpu := { s.cpu with
      job := some { write := write, addr := a, onCore := own, core := k } } }
    if s.flag TRL_MEM_ADDR.LOCAL then
      match trailCore s with
      | none => trailErr s 4
      | some d =>
        if inScope s d && a + 8 ≤ localSize (coreOfDebug d) then go s true (coreOfDebug d) else trailErr s 2
    else if memScope s a then go s false mgmtKey
    else trailErr s 2

/-- A read (`write` none) or a write of TRL_MEM_DATA. -/
def execTrailMemAccess (write : Option Word) (s : State) : Out :=
  .next (if trailLocked s then s else memStart s (write.map (·.toNat)))

/-- The address advances by 8 if INC is set. -/
def memAdvance (s : State) : State :=
  if s.flag TRL_MEM_ADDR.INC then s.wr TRL_MEM_ADDR.ADDR 0 (s.rd TRL_MEM_ADDR.ADDR + 8) else s

/-- The access in progress completes: a read of an uncorrectable codeword returns all ones. -/
def memDone (s : State) (j : TrailJob) : State :=
  let at_ := if j.onCore then Place.own j.addr else Place.device j.addr
  let r : State × Nat :=
    match j.write with
    | none =>
      match readPlace s j.core at_ 8 with
      | some (v, s) => (s, v)
      | none => (trailErr (badPlace s at_ 8) 3, 2 ^ 64 - 1)
    | some v => ((writePlace s j.core at_ 8 v).1, 0)
  memAdvance { r.1 with cpu := { r.1.cpu with job := some { j with result := some r.2 } } }

/-- A memory access of the Trail port completes. -/
def execTrailMemDone (s : State) : Out :=
  match s.cpu.job with
  | some j => .next (if j.result.isNone then memDone s j else s)
  | none => .next s

/-- A transaction on TRL_MEM_DATA: the first starts an access and is told to wait, and its repeat takes the result. Where
nothing was started a read returns a free word. -/
def memTransaction (s : State) (write : Option Nat) : State :=
  let data := fun (v : Nat) => if write.isNone then some v else none
  match s.cpu.job with
  | some j =>
    match j.result with
    | some v => trailAnswer { s with cpu := { s.cpu with job := none } } 0 (data v)
    | none => trailAnswer s 1 none
  | none =>
    let t := memStart s write
    if t.cpu.job.isSome then trailAnswer t 1 none
    else
      let v := t.freeWord
      trailAnswer v.2 0 (data v.1.toNat)

/-! ### Registers (R463) -/

/-- What a register of the TRL block reads as on the Trail port. -/
def trailRead (s : State) (off : Nat) : State × Nat :=
  if off = 0x208 then readCore s (coreCtrlWord s)
  else if 0x240 ≤ off && off < 0x280 then readCore s fun d => Tab.get 0 (s.debugOf d).bp ((off - 0x240) / 8)
  else if 0x280 ≤ off && off < 0x2A0 then readCore s fun d => Tab.get 0 (s.debugOf d).wp ((off - 0x280) / 8)
  else (s, s.readReg (trlBase + off))

/-- A write of TRL_AUTH_CTRL (R458). -/
def authWrite (s : State) (v : Nat) : State :=
  let s := if bitOf v 0 then nextOf s (execChallenge s) else s
  let s := if bitOf v 1 then nextOf s (execSubmit s) else s
  if bitOf v 2 then controlBack (trailRelock s) else s

/-- TRL_AUTH_CTRL LOCK. -/
def execTrailRelock (s : State) : Out := .next (controlBack (trailRelock s))

/-- A write of a register of the TRL block on the Trail port. -/
def trailWrite (s : State) (off v : Nat) : State :=
  if off = 0x008 then authWrite s v
  else if 0x080 ≤ off && off < 0x128 then s.wr TRL_AUTH_RESP.BYTES ((off - 0x080) / 8) v
  else if off = 0x200 then s.wr TRL_CORE_SEL.UNIT 0 v
  else if off = 0x208 then coreCtrlWrite s v
  else if off = 0x210 then coreRegWrite s v
  else if 0x240 ≤ off && off < 0x280 then onCore s fun s d => setBreak s d ((off - 0x240) / 8) v
  else if 0x280 ≤ off && off < 0x2A0 then onCore s fun s d => setWatch s d ((off - 0x280) / 8) v
  else if off = 0x300 then s.writeFields [TRL_MEM_ADDR.ADDR, TRL_MEM_ADDR.LOCAL, TRL_MEM_ADDR.INC] 0 v
  else s

/-- The bits of a request that its CRC covers. -/
def requestBits (op off : Nat) (data : Option Nat) : List Bool :=
  lsbBits 8 op ++ lsbBits 24 off ++ (match data with
    | some v => lsbBits 64 v
    | none => [])

/-- A read transaction with its CRC. -/
def execTrailRead (off : BitVec 24) (crc : BitVec 8) (s : State) : Out :=
  let o := off.toNat
  if !trailOn s then .next s
  else if crc.toNat ≠ crc8 (requestBits 1 o none) then .next (trailAnswer s 3 none)
  else if !trlThere o then .next (trailAnswer s 4 none)
  else if trailLocked s && !openLocked o then .next (trailAnswer s 2 none)
  else if o = 0x308 then .next (memTransaction s none)
  else
    let r := trailRead s o
    .next (trailAnswer r.1 0 (some r.2))

/-- A write transaction with its CRC. -/
def execTrailWrite (off : BitVec 24) (v : Word) (crc : BitVec 8) (s : State) : Out :=
  let o := off.toNat
  if !trailOn s then .next s
  else if crc.toNat ≠ crc8 (requestBits 2 o (some v.toNat)) then .next (trailAnswer s 3 none)
  else if !trlThere o then .next (trailAnswer s 4 none)
  else if trailLocked s && !openLocked o then .next (trailAnswer s 2 none)
  else if o = 0x308 then .next (memTransaction s (some v.toNat))
  else .next (trailAnswer (trailWrite s o v.toNat) 0 none)

/-- A transaction with an OP that is neither read nor write is framed as a read. -/
def execTrailBadOp (op : BitVec 8) (off : BitVec 24) (crc : BitVec 8) (s : State) : Out :=
  if !trailOn s || op = 1 || op = 2 then .next s
  else if crc.toNat ≠ crc8 (requestBits op.toNat off.toNat none) then .next (trailAnswer s 3 none)
  else .next (trailAnswer s 4 none)

/-! ### The test access port (R464 to R466) -/

/-- The test access port takes an instruction; it works while VDD_AUX is in tolerance. -/
def tapSet (s : State) (code : Nat) : State := { s with cpu := { s.cpu with tap := code } }

/-- EXTEST, CLAMP or HIGHZ comes into force: the Trail port locks and the device is held in warm device reset.
BOOT_RESET_CAUSE lists no cause for it, and CAUSE is free (log entry 34, safe). -/
def tapHoldBegin (s : State) (code : Nat) : State :=
  if !s.pins.aux then s
  else if s.cpu.tapHold then tapSet s code
  else
    let v := s.freeWord
    let s := trailRelock (tapSet v.2 code)
    warmBegin { s with cpu := { s.cpu with tapHold := true } } (v.1.toNat % 16)

/-- EXTEST. -/
def execExtest (s : State) : Out := .next (tapHoldBegin s 0)

/-- CLAMP. -/
def execClamp (s : State) : Out := .next (tapHoldBegin s 4)

/-- HIGHZ. -/
def execHighz (s : State) : Out := .next (tapHoldBegin s 5)

/-- IDCODE: the identification register is shifted out. -/
def execIdcode (s : State) : Out :=
  .next (if s.pins.aux then (tapSet s 1).emit (.serial (toLe 4 0x14160C7B)) else s)

/-- SAMPLE/PRELOAD: the 30 cells of the boundary register are shifted out. The spec does not give their order, and they are
free (log entry 34, safe). -/
def execSamplePreload (s : State) : Out :=
  if s.pins.aux then
    let v := s.freeWord
    .next ((tapSet v.2 2).emit (.serial (toLe 4 (v.1.toNat % 2 ^ 30))))
  else .next s

/-- BYPASS. -/
def execBypass (s : State) : Out := .next (if s.pins.aux then tapSet s 0xFF else s)

/-- Test-Logic-Reset selects IDCODE, and a warm device reset that was held completes. -/
def execTestLogicReset (s : State) : Out :=
  if !s.pins.aux then .next s
  else
    let held := s.cpu.tapHold
    let s := { tapSet s 1 with cpu := { (tapSet s 1).cpu with tapHold := false } }
    .next (if held && alive s then portsRelease s else s)

end Sys2Proof.Machine
end

