-- ==== Sys2Proof/Machine/Dispatch.lean ====
section
/-! DEFINITION. The meaning of each command: one arm per constructor of `Instr`, each one call of the command's meaning. -/
namespace Sys2Proof.Machine

open Sys2Proof

/-- The effect of a command on everything but the queue of waiting commands. -/
def exec (i : Instr) (s : State) : Host.Outcome State Fault Refusal :=
  match i with
  | .auxPwrgdRise => Sys2Proof.Machine.execAuxPwrgdRise s
  | .auxPwrgdFall => Sys2Proof.Machine.execAuxPwrgdFall s
  | .pwrgdRise test slow sysclk => Sys2Proof.Machine.execPwrgdRise test slow sysclk s
  | .pwrgdFall => Sys2Proof.Machine.execPwrgdFall s
  | .sysRstNAssert => Sys2Proof.Machine.execSysRstNAssert s
  | .sysRstNRelease => Sys2Proof.Machine.execSysRstNRelease s
  | .perstAssert p => Sys2Proof.Machine.execPerstAssert p s
  | .perstRelease p => Sys2Proof.Machine.execPerstRelease p s
  | .perstHoldExpire p => Sys2Proof.Machine.execPerstHoldExpire p s
  | .railSag rail => Sys2Proof.Machine.execRailSag rail s
  | .sysclkStop => Sys2Proof.Machine.execSysclkStop s
  | .hclkLoss p => Sys2Proof.Machine.execHclkLoss p s
  | .hclkReturn p => Sys2Proof.Machine.execHclkReturn p s
  | .oclkLoss t => Sys2Proof.Machine.execOclkLoss t s
  | .thermalTrip => Sys2Proof.Machine.execThermalTrip s
  | .laserLightLoss j => Sys2Proof.Machine.execLaserLightLoss j s
  | .laserLightRestore j => Sys2Proof.Machine.execLaserLightRestore j s
  | .romDone pair0 pair1 => Sys2Proof.Machine.execRomDone pair0 pair1 s
  | .identityDone helper counter => Sys2Proof.Machine.execIdentityDone helper counter s
  | .imageReadDone a b log0 log1 => Sys2Proof.Machine.execImageReadDone a b log0 log1 s
  | .repairDone => Sys2Proof.Machine.execRepairDone s
  | .marchDone columns failed => Sys2Proof.Machine.execMarchDone columns failed s
  | .trainDone => Sys2Proof.Machine.execTrainDone s
  | .opticalBringupDone => Sys2Proof.Machine.execOpticalBringupDone s
  | .warmReset key => Sys2Proof.Machine.execWarmReset key s
  | .dramDrainDone => Sys2Proof.Machine.execDramDrainDone s
  | .selfRefreshEntered => Sys2Proof.Machine.execSelfRefreshEntered s
  | .writebackRequest => Sys2Proof.Machine.execWritebackRequest s
  | .writebackDone => Sys2Proof.Machine.execWritebackDone s
  | .writebackTimeout => Sys2Proof.Machine.execWritebackTimeout s
  | .load p => Sys2Proof.Machine.execLoad p s
  | .fwLoadVerified reply => Sys2Proof.Machine.execFwLoadVerified reply s
  | .fwReady => Sys2Proof.Machine.execFwReady s
  | .fwReadyTimeout => Sys2Proof.Machine.execFwReadyTimeout s
  | .negotiate => Sys2Proof.Machine.execNegotiate s
  | .marchRequest unit mode => Sys2Proof.Machine.execMarchRequest unit mode s
  | .marchRequestDone faults => Sys2Proof.Machine.execMarchRequestDone faults s
  | .regionControllerFail k => Sys2Proof.Machine.execRegionControllerFail k s
  | .agentMoveDone k => Sys2Proof.Machine.execAgentMoveDone k s
  | .quadrantLoss q => Sys2Proof.Machine.execQuadrantLoss q s
  | .memRegionDegraded j => Sys2Proof.Machine.execMemRegionDegraded j s
  | .mgmtPairDisagree p => Sys2Proof.Machine.execMgmtPairDisagree p s
  | .mgmtFailoverDone => Sys2Proof.Machine.execMgmtFailoverDone s
  | .tileHardFault unit self => Sys2Proof.Machine.execTileHardFault unit self s
  | .spareBringInDone unit => Sys2Proof.Machine.execSpareBringInDone unit s
  | .sramError unit array column hard again => Sys2Proof.Machine.execSramError unit array column hard again s
  | .bar0BadAccess off size write => Sys2Proof.Machine.execBar0BadAccess off size write s
  | .bar0UnmappedAccess off wide write => Sys2Proof.Machine.execBar0UnmappedAccess off wide write s
  | .bar0OutOfSvcAccess off wide write => Sys2Proof.Machine.execBar0OutOfSvcAccess off wide write s
  | .registerWrite p off wide v => Sys2Proof.Machine.execRegisterWrite p off wide v s
  | .pcieConfigWrite p w => Sys2Proof.Machine.execPcieConfigWrite p w s
  | .memRead a find => Sys2Proof.Machine.execMemRead a find s
  | .memWrite a data find => Sys2Proof.Machine.execMemWrite a data find s
  | .rowSpareDone => Sys2Proof.Machine.execRowSpareDone s
  | .bankFence bank => Sys2Proof.Machine.execBankFence bank s
  | .scrubRead find => Sys2Proof.Machine.execScrubRead find s
  | .refreshTick ch => Sys2Proof.Machine.execRefreshTick ch s
  | .scrubCfgWrite v => Sys2Proof.Machine.execScrubCfgWrite v s
  | .memLayoutWrite v => Sys2Proof.Machine.execMemLayoutWrite v s
  | .regionValidSet j v target => Sys2Proof.Machine.execRegionValidSet j v target s
  | .regionValidClear j => Sys2Proof.Machine.execRegionValidClear j s
  | .mirrorResyncDone r => Sys2Proof.Machine.execMirrorResyncDone r s
  | .mirrorFenceStart r => Sys2Proof.Machine.execMirrorFenceStart r s
  | .mirrorFenceDone => Sys2Proof.Machine.execMirrorFenceDone s
  | .srSeedWrite n v => Sys2Proof.Machine.execSrSeedWrite n v s
  | .tileCfgWrite n v => Sys2Proof.Machine.execTileCfgWrite n v s
  | .tileQueueEnable j v => Sys2Proof.Machine.execTileQueueEnable j v s
  | .tileQueueDisable j => Sys2Proof.Machine.execTileQueueDisable j s
  | .tileQueueReset j => Sys2Proof.Machine.execTileQueueReset j s
  | .tileQueueResume j => Sys2Proof.Machine.execTileQueueResume j s
  | .doorbellTail p j v => Sys2Proof.Machine.execDoorbellTail p j v s
  | .queueResetDoorbell p j v => Sys2Proof.Machine.execQueueResetDoorbell p j v s
  | .resumeDoorbell p j v => Sys2Proof.Machine.execResumeDoorbell p j v s
  | .evrHeadDoorbell p j v => Sys2Proof.Machine.execEvrHeadDoorbell p j v s
  | .bar2BadWrite p j off aligned64 => Sys2Proof.Machine.execBar2BadWrite p j off aligned64 s
  | .queueResetDone qid => Sys2Proof.Machine.execQueueResetDone qid s
  | .commandFetch qid reply => Sys2Proof.Machine.execCommandFetch qid reply s
  | .completionWrite qid => Sys2Proof.Machine.execCompletionWrite qid s
  | .waitSatisfied who => Sys2Proof.Machine.execWaitSatisfied who s
  | .run j => Sys2Proof.Machine.execRun j s
  | .tileLoad j => Sys2Proof.Machine.execTileLoad j s
  | .tileCmdWait j => Sys2Proof.Machine.execTileCmdWait j s
  | .tileCmdPost j => Sys2Proof.Machine.execTileCmdPost j s
  | .nop n => Sys2Proof.Machine.execNop n s
  | .endCmd n => Sys2Proof.Machine.execEndCmd n s
  | .jmp n => Sys2Proof.Machine.execJmp n s
  | .loop n => Sys2Proof.Machine.execLoop n s
  | .br n => Sys2Proof.Machine.execBr n s
  | .sli n => Sys2Proof.Machine.execSli n s
  | .salu n => Sys2Proof.Machine.execSalu n s
  | .stream n => Sys2Proof.Machine.execStream n s
  | .streamComplete n k => Sys2Proof.Machine.execStreamComplete n k s
  | .stout n => Sys2Proof.Machine.execStout n s
  | .stoutComplete n k => Sys2Proof.Machine.execStoutComplete n k s
  | .swait n => Sys2Proof.Machine.execSwait n s
  | .wload n => Sys2Proof.Machine.execWload n s
  | .mma n => Sys2Proof.Machine.execMma n s
  | .drain n => Sys2Proof.Machine.execDrain n s
  | .vop n => Sys2Proof.Machine.execVop n s
  | .post n => Sys2Proof.Machine.execPost n s
  | .waitc n => Sys2Proof.Machine.execWaitc n s
  | .waitq n => Sys2Proof.Machine.execWaitq n s
  | .fence n => Sys2Proof.Machine.execFence n s
  | .srseed n => Sys2Proof.Machine.execSrseed n s
  | .tileWatchdogExpire n => Sys2Proof.Machine.execTileWatchdogExpire n s
  | .tileDmaStarved n a => Sys2Proof.Machine.execTileDmaStarved n a s
  | .attendItem n => Sys2Proof.Machine.execAttendItem n s
  | .openCmd q => Sys2Proof.Machine.execOpenCmd q s
  | .close q => Sys2Proof.Machine.execClose q s
  | .appendKv q => Sys2Proof.Machine.execAppendKv q s
  | .attend q => Sys2Proof.Machine.execAttend q s
  | .setTree q => Sys2Proof.Machine.execSetTree q s
  | .sampleFull q => Sys2Proof.Machine.execSampleFull q s
  | .samplePartial q => Sys2Proof.Machine.execSamplePartial q s
  | .sampleMerge q => Sys2Proof.Machine.execSampleMerge q s
  | .verify q => Sys2Proof.Machine.execVerify q s
  | .commit q => Sys2Proof.Machine.execCommit q s
  | .truncate q => Sys2Proof.Machine.execTruncate q s
  | .contextFetchDone d => Sys2Proof.Machine.execContextFetchDone d s
  | .ustLinkFrame k bad type peer groups seq ack => Sys2Proof.Machine.execUstLinkFrame k bad type peer groups seq ack s
  | .ustPostFrame h ctr inc => Sys2Proof.Machine.execUstPostFrame h ctr inc s
  | .ustArriveFrame h o => Sys2Proof.Machine.execUstArriveFrame h o s
  | .ustReleaseFrame h => Sys2Proof.Machine.execUstReleaseFrame h s
  | .ustReduceData h offset words => Sys2Proof.Machine.execUstReduceData h offset words s
  | .ustBcastData h offset bytes => Sys2Proof.Machine.execUstBcastData h offset bytes s
  | .ustAbortFrame h => Sys2Proof.Machine.execUstAbortFrame h s
  | .ustMarkFrame h => Sys2Proof.Machine.execUstMarkFrame h s
  | .ustDownFrame h => Sys2Proof.Machine.execUstDownFrame h s
  | .ustHeartbeatTick k => Sys2Proof.Machine.execUstHeartbeatTick k s
  | .ustLinkTimeout k => Sys2Proof.Machine.execUstLinkTimeout k s
  | .ustGroupValidSet g v => Sys2Proof.Machine.execUstGroupValidSet g v s
  | .ustGroupValidClear g => Sys2Proof.Machine.execUstGroupValidClear g s
  | .ustFormingTimeout g => Sys2Proof.Machine.execUstFormingTimeout g s
  | .ctrBlockGrant b glade => Sys2Proof.Machine.execCtrBlockGrant b glade s
  | .ctrBlockRevoke b => Sys2Proof.Machine.execCtrBlockRevoke b s
  | .ustCtrWrite c v => Sys2Proof.Machine.execUstCtrWrite c v s
  | .ustCtrAdd c v => Sys2Proof.Machine.execUstCtrAdd c v s
  | .ustLockSet => Sys2Proof.Machine.execUstLockSet s
  | .barrier q => Sys2Proof.Machine.execBarrier q s
  | .bcast q => Sys2Proof.Machine.execBcast q s
  | .allreduce q => Sys2Proof.Machine.execAllreduce q s
  | .rpost q => Sys2Proof.Machine.execRpost q s
  | .mark q => Sys2Proof.Machine.execMark q s
  | .write t => Sys2Proof.Machine.execWrite t s
  | .writePost t => Sys2Proof.Machine.execWritePost t s
  | .read t => Sys2Proof.Machine.execRead t s
  | .fadd t => Sys2Proof.Machine.execFadd t s
  | .cas t => Sys2Proof.Machine.execCas t s
  | .send t => Sys2Proof.Machine.execSend t s
  | .sendRetryExpire t => Sys2Proof.Machine.execSendRetryExpire t s
  | .bar4Read p off len tag => Sys2Proof.Machine.execBar4Read p off len tag s
  | .bar4Write p off data => Sys2Proof.Machine.execBar4Write p off data s
  | .bar4ReadTimeout p tag => Sys2Proof.Machine.execBar4ReadTimeout p tag s
  | .windowValidSet j v => Sys2Proof.Machine.execWindowValidSet j v s
  | .windowFenceStart v => Sys2Proof.Machine.execWindowFenceStart v s
  | .windowFenceDone => Sys2Proof.Machine.execWindowFenceDone s
  | .rktEnable v => Sys2Proof.Machine.execRktEnable v s
  | .pdWrite p v => Sys2Proof.Machine.execPdWrite p v s
  | .ftnWrite g v => Sys2Proof.Machine.execFtnWrite g v s
  | .fabSalLockSet => Sys2Proof.Machine.execFabSalLockSet s
  | .pktWrite h data => Sys2Proof.Machine.execPktWrite h data s
  | .pktWritePost h data => Sys2Proof.Machine.execPktWritePost h data s
  | .readReq h => Sys2Proof.Machine.execReadReq h s
  | .pktFadd h => Sys2Proof.Machine.execPktFadd h s
  | .pktCas h swap => Sys2Proof.Machine.execPktCas h swap s
  | .pktSend h data => Sys2Proof.Machine.execPktSend h data s
  | .readResp h data => Sys2Proof.Machine.execReadResp h data s
  | .atomicResp h old => Sys2Proof.Machine.execAtomicResp h old s
  | .opResp h => Sys2Proof.Machine.execOpResp h s
  | .ack h => Sys2Proof.Machine.execAck h s
  | .nak h => Sys2Proof.Machine.execNak h s
  | .probe h => Sys2Proof.Machine.execProbe h s
  | .hello h => Sys2Proof.Machine.execHello h s
  | .helloAck h => Sys2Proof.Machine.execHelloAck h s
  | .arpRequest p ask ip target => Sys2Proof.Machine.execArpRequest p ask ip target s
  | .neighbourSolicitation p ask src target => Sys2Proof.Machine.execNeighbourSolicitation p ask src target s
  | .ethFrameDrop p kind => Sys2Proof.Machine.execEthFrameDrop p kind s
  | .schedulerDecision p => Sys2Proof.Machine.execSchedulerDecision p s
  | .ackTimerExpire d => Sys2Proof.Machine.execAckTimerExpire d s
  | .rtoExpire d => Sys2Proof.Machine.execRtoExpire d s
  | .peerTimeout d => Sys2Proof.Machine.execPeerTimeout d s
  | .holdoffExpire d => Sys2Proof.Machine.execHoldoffExpire d s
  | .notReadyPauseExpire d => Sys2Proof.Machine.execNotReadyPauseExpire d s
  | .fabPortEnable p v => Sys2Proof.Machine.execFabPortEnable p v s
  | .laneFault l => Sys2Proof.Machine.execLaneFault l s
  | .laneRetrainDone l locked loopback => Sys2Proof.Machine.execLaneRetrainDone l locked loopback s
  | .laneSpareDone l => Sys2Proof.Machine.execLaneSpareDone l s
  | .laneUp l => Sys2Proof.Machine.execLaneUp l s
  | .ctxStoreCfgWrite v => Sys2Proof.Machine.execCtxStoreCfgWrite v s
  | .fabLockSet => Sys2Proof.Machine.execFabLockSet s
  | .schedInterval => Sys2Proof.Machine.execSchedInterval s
  | .schNodeWrite inst n b v => Sys2Proof.Machine.execSchNodeWrite inst n b v s
  | .policerWrite k b v => Sys2Proof.Machine.execPolicerWrite k b v s
  | .policerBind inst n v => Sys2Proof.Machine.execPolicerBind inst n v s
  | .policerRelease k => Sys2Proof.Machine.execPolicerRelease k s
  | .bmeClear p => Sys2Proof.Machine.execBmeClear p s
  | .bmeSet p => Sys2Proof.Machine.execBmeSet p s
  | .flr p => Sys2Proof.Machine.execFlr p s
  | .flrDone p => Sys2Proof.Machine.execFlrDone p s
  | .hotReset p => Sys2Proof.Machine.execHotReset p s
  | .dlDown p => Sys2Proof.Machine.execDlDown p s
  | .linkStateChange p up speed width flit => Sys2Proof.Machine.execLinkStateChange p up speed width flit s
  | .pasidEnableClear p => Sys2Proof.Machine.execPasidEnableClear p s
  | .d3hotEntry p => Sys2Proof.Machine.execD3hotEntry p s
  | .bar4Resize p k => Sys2Proof.Machine.execBar4Resize p k s
  | .msixUnmask p v enable => Sys2Proof.Machine.execMsixUnmask p v enable s
  | .hostUnsupportedRequest p tag posted => Sys2Proof.Machine.execHostUnsupportedRequest p tag posted s
  | .poisonedWriteReceived p => Sys2Proof.Machine.execPoisonedWriteReceived p s
  | .hostReadIssue p => Sys2Proof.Machine.execHostReadIssue p s
  | .hostCompletion p tag completer reply => Sys2Proof.Machine.execHostCompletion p tag completer reply s
  | .completionTimeout p tag => Sys2Proof.Machine.execCompletionTimeout p tag s
  | .tagQuarantineExpire p tag => Sys2Proof.Machine.execTagQuarantineExpire p tag s
  | .eventWrite => Sys2Proof.Machine.execEventWrite s
  | .evrHoldoffExpire r => Sys2Proof.Machine.execEvrHoldoffExpire r s
  | .evrEnable r v => Sys2Proof.Machine.execEvrEnable r v s
  | .evrHeadWrite r v => Sys2Proof.Machine.execEvrHeadWrite r v s
  | .sqEnable v => Sys2Proof.Machine.execSqEnable v s
  | .sqTailWrite v => Sys2Proof.Machine.execSqTailWrite v s
  | .gladeCreate => Sys2Proof.Machine.execGladeCreate s
  | .gladeQuota => Sys2Proof.Machine.execGladeQuota s
  | .gladeReset => Sys2Proof.Machine.execGladeReset s
  | .gladeDestroy => Sys2Proof.Machine.execGladeDestroy s
  | .instCreate => Sys2Proof.Machine.execInstCreate s
  | .instReset => Sys2Proof.Machine.execInstReset s
  | .instDestroy => Sys2Proof.Machine.execInstDestroy s
  | .queueCreate => Sys2Proof.Machine.execQueueCreate s
  | .queueDelete => Sys2Proof.Machine.execQueueDelete s
  | .regCreate => Sys2Proof.Machine.execRegCreate s
  | .regRemove => Sys2Proof.Machine.execRegRemove s
  | .regRemoveDrained => Sys2Proof.Machine.execRegRemoveDrained s
  | .stqRead q list => Sys2Proof.Machine.execStqRead q list s
  | .stqWrite q list data => Sys2Proof.Machine.execStqWrite q list data s
  | .flush q => Sys2Proof.Machine.execFlush q s
  | .deallocate q => Sys2Proof.Machine.execDeallocate q s
  | .identify q => Sys2Proof.Machine.execIdentify q s
  | .getLog q => Sys2Proof.Machine.execGetLog q s
  | .getFeature q => Sys2Proof.Machine.execGetFeature q s
  | .setFeature q => Sys2Proof.Machine.execSetFeature q s
  | .fwDownload q data => Sys2Proof.Machine.execFwDownload q data s
  | .fwCommit q => Sys2Proof.Machine.execFwCommit q s
  | .createQueue q => Sys2Proof.Machine.execCreateQueue q s
  | .deleteQueue q => Sys2Proof.Machine.execDeleteQueue q s
  | .volumeValidSet v w => Sys2Proof.Machine.execVolumeValidSet v w s
  | .volumeValidClear v => Sys2Proof.Machine.execVolumeValidClear v s
  | .stagingEnable g v b => Sys2Proof.Machine.execStagingEnable g v b s
  | .serviceTimeout q t => Sys2Proof.Machine.execServiceTimeout q t s
  | .slotQuarantineExpire g slot => Sys2Proof.Machine.execSlotQuarantineExpire g slot s
  | .activationDrainTimeout => Sys2Proof.Machine.execActivationDrainTimeout s
  | .loadPlain type glade slot => Sys2Proof.Machine.execLoadPlain type glade slot s
  | .loadWrapped type glade slot kek => Sys2Proof.Machine.execLoadWrapped type glade slot kek s
  | .ecdhKek glade slot => Sys2Proof.Machine.execEcdhKek glade slot s
  | .erase glade slot => Sys2Proof.Machine.execErase glade slot s
  | .keyCmdDone => Sys2Proof.Machine.execKeyCmdDone s
  | .attestStart g => Sys2Proof.Machine.execAttestStart g s
  | .attestDone => Sys2Proof.Machine.execAttestDone s
  | .rollbackAdvance => Sys2Proof.Machine.execRollbackAdvance s
  | .advanceDone => Sys2Proof.Machine.execAdvanceDone s
  | .fabKeyGroupWrite k b v => Sys2Proof.Machine.execFabKeyGroupWrite k b v s
  | .sealLockTake token mgmt => Sys2Proof.Machine.execSealLockTake token mgmt s
  | .sealLockRelease token => Sys2Proof.Machine.execSealLockRelease token s
  | .sealLockExpire => Sys2Proof.Machine.execSealLockExpire s
  | .sealMsgWrite j v => Sys2Proof.Machine.execSealMsgWrite j v s
  | .seal token slot len more mgmt => Sys2Proof.Machine.execSeal token slot len more mgmt s
  | .sealVerify token slot len more replay mgmt => Sys2Proof.Machine.execSealVerify token slot len more replay mgmt s
  | .loadkey token slot => Sys2Proof.Machine.execLoadkey token slot s
  | .sealChunkDone => Sys2Proof.Machine.execSealChunkDone s
  | .secDebugLockSet => Sys2Proof.Machine.execSecDebugLockSet s
  | .capture q => Sys2Proof.Machine.execCapture q s
  | .ckpDrain q => Sys2Proof.Machine.execCkpDrain q s
  | .restore q areas agreed => Sys2Proof.Machine.execRestore q areas agreed s
  | .abandon q => Sys2Proof.Machine.execAbandon q s
  | .ringGroupValidSet g v => Sys2Proof.Machine.execRingGroupValidSet g v s
  | .ckpMemberMessage g member step m => Sys2Proof.Machine.execCkpMemberMessage g member step m s
  | .ckpTimerExpire g r => Sys2Proof.Machine.execCkpTimerExpire g r s
  | .ckpTrigger g r => Sys2Proof.Machine.execCkpTrigger g r s
  | .copyGranule g r => Sys2Proof.Machine.execCopyGranule g r s
  | .ckpDedupDone g r => Sys2Proof.Machine.execCkpDedupDone g r s
  | .ckpStaged g r => Sys2Proof.Machine.execCkpStaged g r s
  | .ckpRootSealed g r => Sys2Proof.Machine.execCkpRootSealed g r s
  | .heartbeat f => Sys2Proof.Machine.execHeartbeat f s
  | .mirrorWrite f => Sys2Proof.Machine.execMirrorWrite f s
  | .mirrorAck f => Sys2Proof.Machine.execMirrorAck f s
  | .resyncWrite f => Sys2Proof.Machine.execResyncWrite f s
  | .twinHeartbeatTick t => Sys2Proof.Machine.execTwinHeartbeatTick t s
  | .twinPortTimeout t => Sys2Proof.Machine.execTwinPortTimeout t s
  | .mirrorAckTimer => Sys2Proof.Machine.execMirrorAckTimer s
  | .mirrorRetransmitTimer => Sys2Proof.Machine.execMirrorRetransmitTimer s
  | .twinProbeTick => Sys2Proof.Machine.execTwinProbeTick s
  | .grantTimeout => Sys2Proof.Machine.execGrantTimeout s
  | .isolatedRetryTick => Sys2Proof.Machine.execIsolatedRetryTick s
  | .takeoverWaitExpire => Sys2Proof.Machine.execTakeoverWaitExpire s
  | .pair epoch => Sys2Proof.Machine.execPair epoch s
  | .twnLockSet => Sys2Proof.Machine.execTwnLockSet s
  | .takeOut unit force => Sys2Proof.Machine.execTakeOut unit force s
  | .returnCmd unit => Sys2Proof.Machine.execReturnCmd unit s
  | .add k => Sys2Proof.Machine.execAdd k s
  | .sub k => Sys2Proof.Machine.execSub k s
  | .andCmd k => Sys2Proof.Machine.execAndCmd k s
  | .orCmd k => Sys2Proof.Machine.execOrCmd k s
  | .xorCmd k => Sys2Proof.Machine.execXorCmd k s
  | .sll k => Sys2Proof.Machine.execSll k s
  | .srl k => Sys2Proof.Machine.execSrl k s
  | .sra k => Sys2Proof.Machine.execSra k s
  | .slt k => Sys2Proof.Machine.execSlt k s
  | .sltu k => Sys2Proof.Machine.execSltu k s
  | .mul k => Sys2Proof.Machine.execMul k s
  | .mulh k => Sys2Proof.Machine.execMulh k s
  | .mulhu k => Sys2Proof.Machine.execMulhu k s
  | .div k => Sys2Proof.Machine.execDiv k s
  | .divu k => Sys2Proof.Machine.execDivu k s
  | .rem k => Sys2Proof.Machine.execRem k s
  | .remu k => Sys2Proof.Machine.execRemu k s
  | .addi k => Sys2Proof.Machine.execAddi k s
  | .andi k => Sys2Proof.Machine.execAndi k s
  | .ori k => Sys2Proof.Machine.execOri k s
  | .xori k => Sys2Proof.Machine.execXori k s
  | .slti k => Sys2Proof.Machine.execSlti k s
  | .slli k => Sys2Proof.Machine.execSlli k s
  | .srli k => Sys2Proof.Machine.execSrli k s
  | .srai k => Sys2Proof.Machine.execSrai k s
  | .lui k => Sys2Proof.Machine.execLui k s
  | .auipc k => Sys2Proof.Machine.execAuipc k s
  | .lb k => Sys2Proof.Machine.execLb k s
  | .lbu k => Sys2Proof.Machine.execLbu k s
  | .lh k => Sys2Proof.Machine.execLh k s
  | .lhu k => Sys2Proof.Machine.execLhu k s
  | .lw k => Sys2Proof.Machine.execLw k s
  | .sb k => Sys2Proof.Machine.execSb k s
  | .sh k => Sys2Proof.Machine.execSh k s
  | .sw k => Sys2Proof.Machine.execSw k s
  | .beq k => Sys2Proof.Machine.execBeq k s
  | .bne k => Sys2Proof.Machine.execBne k s
  | .blt k => Sys2Proof.Machine.execBlt k s
  | .bge k => Sys2Proof.Machine.execBge k s
  | .bltu k => Sys2Proof.Machine.execBltu k s
  | .bgeu k => Sys2Proof.Machine.execBgeu k s
  | .jal k => Sys2Proof.Machine.execJal k s
  | .jalr k => Sys2Proof.Machine.execJalr k s
  | .dadd k => Sys2Proof.Machine.execDadd k s
  | .daddc k => Sys2Proof.Machine.execDaddc k s
  | .dsub k => Sys2Proof.Machine.execDsub k s
  | .dsubb k => Sys2Proof.Machine.execDsubb k s
  | .dadj k => Sys2Proof.Machine.execDadj k s
  | .dsl k => Sys2Proof.Machine.execDsl k s
  | .dsr k => Sys2Proof.Machine.execDsr k s
  | .ecall k => Sys2Proof.Machine.execEcall k s
  | .ebreak k => Sys2Proof.Machine.execEbreak k s
  | .tret k => Sys2Proof.Machine.execTret k s
  | .wfi k => Sys2Proof.Machine.execWfi k s
  | .fernFence k => Sys2Proof.Machine.execFernFence k s
  | .mfsr k => Sys2Proof.Machine.execMfsr k s
  | .mtsr k => Sys2Proof.Machine.execMtsr k s
  | .cpost k => Sys2Proof.Machine.execCpost k s
  | .cwait k => Sys2Proof.Machine.execCwait k s
  | .cread k => Sys2Proof.Machine.execCread k s
  | .amoadd k => Sys2Proof.Machine.execAmoadd k s
  | .amoswap k => Sys2Proof.Machine.execAmoswap k s
  | .amocas k => Sys2Proof.Machine.execAmocas k s
  | .cAddi k => Sys2Proof.Machine.execCAddi k s
  | .cLw k => Sys2Proof.Machine.execCLw k s
  | .cSw k => Sys2Proof.Machine.execCSw k s
  | .cAlu k => Sys2Proof.Machine.execCAlu k s
  | .cBz k => Sys2Proof.Machine.execCBz k s
  | .cJ k => Sys2Proof.Machine.execCJ k s
  | .cLi k => Sys2Proof.Machine.execCLi k s
  | .illegalInstruction k => Sys2Proof.Machine.execIllegalInstruction k s
  | .timerInterrupt k => Sys2Proof.Machine.execTimerInterrupt k s
  | .coreWatchdogExpire k => Sys2Proof.Machine.execCoreWatchdogExpire k s
  | .coreRestartDone k => Sys2Proof.Machine.execCoreRestartDone k s
  | .oflLoad slot => Sys2Proof.Machine.execOflLoad slot s
  | .oflLoadDone => Sys2Proof.Machine.execOflLoadDone s
  | .oflStart slot => Sys2Proof.Machine.execOflStart slot s
  | .oflStop slot => Sys2Proof.Machine.execOflStop slot s
  | .oflStopDone => Sys2Proof.Machine.execOflStopDone s
  | .oflUnload slot => Sys2Proof.Machine.execOflUnload slot s
  | .fwStoreEnable v => Sys2Proof.Machine.execFwStoreEnable v s
  | .fwCommitVerified => Sys2Proof.Machine.execFwCommitVerified s
  | .deferredStartExpire => Sys2Proof.Machine.execDeferredStartExpire s
  | .quiesceDone => Sys2Proof.Machine.execQuiesceDone s
  | .handoverReady good => Sys2Proof.Machine.execHandoverReady good s
  | .handoverTimeout => Sys2Proof.Machine.execHandoverTimeout s
  | .activationResumeDone => Sys2Proof.Machine.execActivationResumeDone s
  | .fallbackDone => Sys2Proof.Machine.execFallbackDone s
  | .thermalLevelEnter j t => Sys2Proof.Machine.execThermalLevelEnter j t s
  | .thermalLevelExit temps => Sys2Proof.Machine.execThermalLevelExit temps s
  | .sensorFault j => Sys2Proof.Machine.execSensorFault j s
  | .powerSample w => Sys2Proof.Machine.execPowerSample w s
  | .fwLoopTick => Sys2Proof.Machine.execFwLoopTick s
  | .pwrLimitWrite v => Sys2Proof.Machine.execPwrLimitWrite v s
  | .thermCfgWrite v => Sys2Proof.Machine.execThermCfgWrite v s
  | .pwrLockSet => Sys2Proof.Machine.execPwrLockSet s
  | .query off => Sys2Proof.Machine.execQuery off s
  | .clear off => Sys2Proof.Machine.execClear off s
  | .clearBlock off => Sys2Proof.Machine.execClearBlock off s
  | .tlmStreamEnable k v => Sys2Proof.Machine.execTlmStreamEnable k v s
  | .streamSample k => Sys2Proof.Machine.execStreamSample k s
  | .meterRingEnable v => Sys2Proof.Machine.execMeterRingEnable v s
  | .meteringInterval => Sys2Proof.Machine.execMeteringInterval s
  | .crossingTimeout near far class_ => Sys2Proof.Machine.execCrossingTimeout near far class_ s
  | .crossingHoldLong near far class_ => Sys2Proof.Machine.execCrossingHoldLong near far class_ s
  | .farClockReturn far => Sys2Proof.Machine.execFarClockReturn far s
  | .groveReset g => Sys2Proof.Machine.execGroveReset g s
  | .groveResetDone g => Sys2Proof.Machine.execGroveResetDone g s
  | .clkLockSet => Sys2Proof.Machine.execClkLockSet s
  | .trailRead off crc => Sys2Proof.Machine.execTrailRead off crc s
  | .trailWrite off v crc => Sys2Proof.Machine.execTrailWrite off v crc s
  | .trailBadOp op off crc => Sys2Proof.Machine.execTrailBadOp op off crc s
  | .challenge => Sys2Proof.Machine.execChallenge s
  | .submit => Sys2Proof.Machine.execSubmit s
  | .debugResponseChecked => Sys2Proof.Machine.execDebugResponseChecked s
  | .debugRefusalExpire => Sys2Proof.Machine.execDebugRefusalExpire s
  | .trailRelock => Sys2Proof.Machine.execTrailRelock s
  | .halt => Sys2Proof.Machine.execHalt s
  | .trailResume => Sys2Proof.Machine.execTrailResume s
  | .step => Sys2Proof.Machine.execStep s
  | .breakpointHit k => Sys2Proof.Machine.execBreakpointHit k s
  | .watchpointHit k => Sys2Proof.Machine.execWatchpointHit k s
  | .coreRegAccess v => Sys2Proof.Machine.execCoreRegAccess v s
  | .trailMemAccess write => Sys2Proof.Machine.execTrailMemAccess write s
  | .trailMemDone => Sys2Proof.Machine.execTrailMemDone s
  | .extest => Sys2Proof.Machine.execExtest s
  | .idcode => Sys2Proof.Machine.execIdcode s
  | .samplePreload => Sys2Proof.Machine.execSamplePreload s
  | .clamp => Sys2Proof.Machine.execClamp s
  | .highz => Sys2Proof.Machine.execHighz s
  | .bypass => Sys2Proof.Machine.execBypass s
  | .testLogicReset => Sys2Proof.Machine.execTestLogicReset s
  | .oclkReturn t => Sys2Proof.Machine.execOclkReturn t s
  | .tlpErrorReceived p e => Sys2Proof.Machine.execTlpErrorReceived p e s
  | .hostPortInternalError p corrected => Sys2Proof.Machine.execHostPortInternalError p corrected s
  | .stqMsixHoldoffExpire j => Sys2Proof.Machine.execStqMsixHoldoffExpire j s

end Sys2Proof.Machine
end

