-- ==== Sys2Proof/Machine/Step.lean ====
section
/-! DEFINITION. One step of the block: the command at the front of the queue takes effect. Choices and readings of the model:
log entries 1 to 4. -/
namespace Sys2Proof.Machine

open Sys2Proof

/-- One step: take the command at the front of the queue and run it with the queue's rest. With no command waiting the block
idles for 4 ns, and what only time drives goes on (DESIGN CHOICE, unsafe: log entry 1). -/
def step (s : State) : Host.Outcome State Fault Refusal :=
  match s.pending with
  | [] => .next (idle s)
  | c :: rest => exec c { s with pending := rest }

/-- The state with the command a table word spells put at the front of its queue; unchanged where the word spells none. -/
def State.withFetchWord (s : State) (nbits w : Nat) : State :=
  match decodeTableWord nbits w with
  | some c => { s with pending := c :: s.pending }
  | none => s

end Sys2Proof.Machine
end

