-- ==== Sys2Proof/Safety.lean ====
section
/-! DEFINITION. What counts as a safe run: every step goes on, and the state keeps its canonical form; and the words the
statements use for what a command does and what it leaves alone. -/
namespace Sys2Proof.Machine

open Sys2Proof

/-- An outcome goes on to a next state: no fault and no refusal. -/
def Goes (o : Out) : Prop := ∃ t, o = .next t

/-- An outcome is a next state of which something holds. -/
def Answers (o : Out) (p : State → Prop) : Prop := ∃ t, o = .next t ∧ p t

/-- The register space and the memory are in their canonical form. -/
def State.Canonical (s : State) : Prop := Regs.wf s.regs = true ∧ Memory.wf s.mem = true

/-- A state from which the next step is safe: it goes on to a canonical state. -/
def SafeStep (s : State) : Prop := ∃ t, step s = .next t ∧ t.Canonical

/-- Every register whose offset is not listed holds in `t` the word it held in `s`. -/
def SameRegsBut (w : List Nat) (s t : State) : Prop := ∀ off, off ∉ w → t.reg off = s.reg off

/-- Every byte of memory reads in `t` as in `s`. -/
def SameMemory (s t : State) : Prop := ∀ a, t.byte a = s.byte a

/-- Every byte of memory outside `n` bytes from `a` on reads in `t` as in `s`. -/
def SameMemoryBut (a n : Nat) (s t : State) : Prop := ∀ x, x < a ∨ a + n ≤ x → t.byte x = s.byte x

end Sys2Proof.Machine
end

