-- ==== Sys2Proof/Certificates/Slice0/Obligations.lean ====
section
/-! DEFINITION. The statements about the model, one obligation each, and the words they use. -/

open Sys2Proof Sys2Proof.Machine

/-! ### Words the statements use -/

/-- Command `c` is the oldest fetched command of queue `qid`, has opcode `op`, and has neither started nor is waiting. -/
abbrev Fresh (s : State) (qid op : Nat) (c : Cmd) : Prop :=
  (s.queue qid).cmds.head? = some c ∧ leAt c.bytes 0 1 = op ∧ c.started = false ∧ c.waiting = false

/-- Command `c` of queue `qid` is no longer among the fetched ones, and its completion with `status` and with `mid` in bytes
8 to 11 of the entry is due. -/
def EndedWith (qid : Nat) (c : Cmd) (status mid : Nat) (t : State) : Prop :=
  (∀ x ∈ (t.queue qid).cmds, x.entry ≠ c.entry)
    ∧ ∃ d ∈ (t.queue qid).due, d.word0 = c.tag ∧ d.status = status ∧ d.mid = mid ∧ d.entry = c.entry ∧ d.stamp = c.stamp

/-- Command `c` of queue `qid` is no longer among the fetched ones, and its completion with `status` is due. -/
def Ended (qid : Nat) (c : Cmd) (status : Nat) (t : State) : Prop :=
  (∀ x ∈ (t.queue qid).cmds, x.entry ≠ c.entry)
    ∧ ∃ d ∈ (t.queue qid).due, d.word0 = c.tag ∧ d.status = status ∧ d.entry = c.entry ∧ d.stamp = c.stamp

/-- One event record has been raised between two states: it waits for the rings in force that take it, or, where there is
none, it is counted in HEP_EVR_UNMATCHED (R273, R275, R276). -/
def Recorded (type source glade inst status payload : Nat) (s t : State) : Prop :=
  (ringsFor s glade inst ≠ [] →
    t.events = s.events ++
      [{ event :=
          { type := type, source := source, glade := glade, inst := inst, status := status,
            gen := if inst = 0 then 0 else s.rd GLD_INST.GEN inst, time := s.now, payload := payload % 2 ^ 64 },
         due := ringsFor s glade inst }]) ∧
  (ringsFor s glade inst = [] → s.rd HEP_EVR_UNMATCHED.COUNT < 2 ^ 64 - 1 →
    t.events = s.events ∧ t.rd HEP_EVR_UNMATCHED.COUNT = s.rd HEP_EVR_UNMATCHED.COUNT + 1)

/-- Some record of a type waits to be written. -/
def HasRecord (type : Nat) (t : State) : Prop := ∃ e ∈ t.events, e.event.type = type

/-- No write has been put behind the mirror rules between two states (R88, R384). -/
abbrev NoneHeld (s t : State) : Prop := t.heldWrites ≤ s.heldWrites

/-- A context is in its quadrant's cache, or it is fetched from device memory into a place that is free there (R211, R228). -/
abbrev AtHand (s : State) (k : CtxKey) : Prop :=
  ctxCached s k = true ∨ ((s.cached (ctxHome s k)).length < cacheSize ∧ s.flag FAB_CTX_CFG.LOC = false)

/-- A BAR0 write to the block of logical tile `n` takes effect at once: an image is in use (R54), the tile is in service (R16), no
spare is being brought in for it (R15), and its grove is not in reset (R451). -/
abbrev TileOpen (s : State) (n : Nat) : Prop := s.noImage = false ∧ s.tileOut n = false ∧ tileHold s n = none

/-- Some event ring in force takes records that concern no glade and no instance. -/
abbrev Listening (s : State) : Prop := ringsFor s 0 0 ≠ []

/-! ### The machine as a whole -/

/-- Every command in every state goes on: the spec gives every command an effect or a status in every state, so none stops
the machine. -/
def Obligations.NoCommandStops : Prop := ∀ (c : Instr) (s : State), Goes (Machine.exec c s)

/-- A step runs the command at the front of the queue on the state with the queue's rest. -/
def Obligations.StepRunsFront : Prop :=
  ∀ (c : Instr) (s : State) (rest : List Instr),
    step { s with pending := c :: rest } = Machine.exec c { s with pending := rest }

/-- On an empty queue the block idles (a choice of the model, log entry 1). While it has power and its clock runs, with no data
port UP and no region whose VALID waits to clear, local time advances by 4 ns, no command is taken, and no byte of memory, output,
waiting record or other register changes but the counts of metering records held; without power or clock nothing at all changes
(R29, R33, R437). -/
def StepIdlesHold : Prop :=
  ∀ (s : State), s.pending = [] → s.dram.clearing = [] → (∀ p, p < 16 → s.rd FAB_PORT.STATE p ≠ 3) →
    Answers (step s) fun t =>
      (s.pins.aux = true → s.pins.pwr = true → s.boot.dead ≠ 1 →
        t.pending = [] ∧ t.now = (s.now + 4) % 2 ^ 64 ∧ SameMemory s t ∧ t.out = s.out ∧ t.events = s.events
          ∧ ∀ off, off ≠ TLM_TIME.NS.addr 0 → (∀ g < 256, off ≠ TLM_MTR_GLADE.HELD.addr g) → t.reg off = s.reg off) ∧
      (s.pins.aux = false ∨ s.pins.pwr = false ∨ s.boot.dead = 1 → t = s)

/-- Every command leaves the queue of waiting commands as it is: nothing but the outside puts commands there, and a step
takes exactly the front one. -/
def StepTakesOneHold : Prop :=
  ∀ (s t : State), step s = .next t → t.pending = s.pending.tail

/-- The register space and the memory keep their canonical form over every step, so that equal register files and equal
memories are equal data. -/
def Obligations.StepKeepsCanonical : Prop :=
  ∀ (s t : State), s.Canonical → step s = .next t → t.Canonical

/-- The machine right after power-on reset is canonical and has no command waiting. -/
def Obligations.ResetCanonical : Prop := State.reset.Canonical ∧ State.reset.pending = []

/-- A step idles on an empty queue and takes exactly the front command of one that is not. -/
def Obligations.StepIdlesOrTakesOne : Prop := StepIdlesHold ∧ StepTakesOneHold

/-! ### Tile instructions (R122 to R131) -/

/-- Tile `n` runs a program, is in service and waits on nothing, and its next instruction is the word `w`. -/
abbrev TileAt (s : State) (n w : Nat) : Prop :=
  (s.tile n).run.isSome = true ∧ s.tileOut n = false ∧ (∀ x ∈ s.waits, x.who ≠ .tile n)
    ∧ (Tab.get 0 (s.tile n).prog (s.tile n).pc).toNat = w

/-- Only tile `n` and its TILE_STATE register differ between two states, the tile being `x` in the second. -/
def TileOnly (n : Nat) (x : Tile) (s t : State) : Prop :=
  t.tile n = x ∧ (∀ m, m ≠ n → t.tile m = s.tile m) ∧ SameRegsBut [TILE_STATE.PC.addr n] s t ∧ SameMemory s t
    ∧ t.queues = s.queues ∧ t.out = s.out

/-- Every stream slot of a tile is idle, and no finished stream has left a status. -/
abbrev SlotsClear (t : Tile) : Prop := ∀ k, k < 4 → t.busy k = false ∧ (t.slot k).err = 0

/-- NOP, JMP, LOOP, BR, SWAIT on idle slots and FENCE with all slots idle: the program counter moves as R125, R130 and R131
say, LOOP counts its register down, and nothing else changes. -/
def TileControlFlowHold : Prop :=
  ∀ (s : State) (n : Fin 64) (x y tgt cond mask : Nat), x < 16 → y < 16 → tgt < 4096 → cond < 4 → mask < 16 →
    (TileAt s n 0 → (s.tile n).pc ≠ 4095 →
      Answers (Machine.exec (.nop n) s) (TileOnly n { s.tile n with pc := (s.tile n).pc + 1 } s)) ∧
    (TileAt s n (0x02 + 2 ^ 32 * tgt) →
      Answers (Machine.exec (.jmp n) s) (TileOnly n { s.tile n with pc := tgt } s)) ∧
    (TileAt s n (0x03 + 2 ^ 32 * x + 2 ^ 36 * tgt) → x ≠ 0 → (s.tile n).sreg x ≠ 1 → (s.tile n).sreg x < 2 ^ 64 →
      Answers (Machine.exec (.loop n) s)
        (TileOnly n { (s.tile n).setSreg x ((2 ^ 64 - 1 + (s.tile n).sreg x) % 2 ^ 64) with pc := tgt } s)) ∧
    (TileAt s n (0x03 + 2 ^ 32 * x + 2 ^ 36 * tgt) → x ≠ 0 → (s.tile n).sreg x = 1 → (s.tile n).pc ≠ 4095 →
      Answers (Machine.exec (.loop n) s)
        (TileOnly n { (s.tile n).setSreg x 0 with pc := (s.tile n).pc + 1 } s)) ∧
    (TileAt s n (0x04 + cond * 2 ^ 8 + 2 ^ 32 * x + 2 ^ 36 * y + 2 ^ 40 * tgt) → (s.tile n).pc ≠ 4095 →
      Answers (Machine.exec (.br n) s)
        (TileOnly n { s.tile n with
          pc := if brTaken cond ((s.tile n).sreg x) ((s.tile n).sreg y) then tgt else (s.tile n).pc + 1 } s)) ∧
    (TileAt s n (0x12 + mask * 2 ^ 8) → SlotsClear (s.tile n) → (s.tile n).pc ≠ 4095 →
      Answers (Machine.exec (.swait n) s) (TileOnly n { s.tile n with pc := (s.tile n).pc + 1 } s)) ∧
    (TileAt s n 0x43 → SlotsClear (s.tile n) → (s.tile n).pc ≠ 4095 →
      Answers (Machine.exec (.fence n) s) (TileOnly n { s.tile n with pc := (s.tile n).pc + 1 } s))

/-- SLI, SALU and SRSEED: the scalar register or the seed takes the value R125 and R131 give, S0 discards it (R122), the
program counter advances, and nothing else changes; SRSEED also writes TILE_SR_SEED and sets TILE_SR_SEQ to 0 (R105). -/
def TileScalarsHold : Prop :=
  ∀ (s : State) (n : Fin 64) (x y z opn v imm : Nat), x < 16 → y < 16 → z < 16 → opn < 8 → v < 2 ^ 64 → imm < 2 ^ 32 →
    (s.tile n).pc ≠ 4095 →
    (TileAt s n (0x08 + 2 ^ 32 * x + 2 ^ 64 * v) →
      Answers (Machine.exec (.sli n) s)
        (TileOnly n { (s.tile n).setSreg x v with pc := (s.tile n).pc + 1 } s)) ∧
    (TileAt s n (0x09 + opn * 2 ^ 8 + 2 ^ 32 * x + 2 ^ 36 * y + 2 ^ 40 * z) →
      Answers (Machine.exec (.salu n) s)
        (TileOnly n { (s.tile n).setSreg x (saluValue opn ((s.tile n).sreg y) ((s.tile n).sreg z)) with
          pc := (s.tile n).pc + 1 } s)) ∧
    (TileAt s n (0x09 + opn * 2 ^ 8 + 2048 + 2 ^ 32 * x + 2 ^ 36 * y + 2 ^ 64 * imm) →
      Answers (Machine.exec (.salu n) s)
        (TileOnly n { (s.tile n).setSreg x (saluValue opn ((s.tile n).sreg y) (wordOf 64 (signedOf 32 imm))) with
          pc := (s.tile n).pc + 1 } s)) ∧
    (TileAt s n (0x44 + 2 ^ 32 * x) →
      Answers (Machine.exec (.srseed n) s) fun t =>
        t.tile n = { s.tile n with pc := (s.tile n).pc + 1 }
          ∧ t.rd TILE_SR_SEED.SEED n = (s.tile n).sreg x % 2 ^ 64 ∧ t.rd TILE_SR_SEQ.SEQ n = 0
          ∧ SameRegsBut [TILE_STATE.PC.addr n, TILE_SR_SEED.SEED.addr n, TILE_SR_SEQ.SEQ.addr n] s t ∧ SameMemory s t)

/-- STREAM and STOUT start a copy in their slot and go on (R130), and a finished one leaves its bytes where it writes and
its slot idle, with MEDIUM_ERROR for the program if a chunk was uncorrectable (R131). The addresses and the length come from
scalar registers; `spo` is the scratchpad operand, an idle slot is assumed where one is started, and streams end in the order of
issue (R131). -/
def TileStreamsHold : Prop :=
  (∀ (s : State) (n : Fin 64) (k : Fin 4) (x y spo : Nat), x < 16 → y < 16 → spo < 2 ^ 25 →
    (s.tile n).pc ≠ 4095 → (s.tile n).busy k = false →
    let t := s.tile n
    (TileAt s n (0x10 + k * 2 ^ 8 + 2 ^ 32 * x + 2 ^ 36 * y + 2 ^ 40 * spo) →
      (streamShape (t.sreg x) (t.sreg y)).1 = true → padOut (spoAddr t spo) (t.sreg y) = false →
      (farCheck s n (t.sreg x) (t.sreg y)).1 = true → t.streamOver (spoAddr t spo) (t.sreg y) = false →
      Answers (Machine.exec (.stream n) s) fun u =>
        ((u.tile n).slot k).flight =
            some { out := false, zeroMask := false, addr := t.sreg x, spad := spoAddr t spo, len := t.sreg y, data := [],
                   order := t.issued }
          ∧ (u.tile n).pc = t.pc + 1 ∧ SameRegsBut [TILE_STATE.PC.addr n] s u ∧ SameMemory s u) ∧
    (TileAt s n (0x11 + k * 2 ^ 8 + 2 ^ 32 * x + 2 ^ 36 * y + 2 ^ 40 * spo) →
      (streamShape (t.sreg x) (t.sreg y)).1 = true → padOut (spoAddr t spo) (t.sreg y) = false →
      (farCheck s n (t.sreg x) (t.sreg y)).1 = true → t.streamOver (spoAddr t spo) (t.sreg y) = false →
      Answers (Machine.exec (.stout n) s) fun u =>
        ((u.tile n).slot k).flight =
            some { out := true, zeroMask := false, addr := t.sreg x, spad := spoAddr t spo, len := t.sreg y,
                   data := s.bytes (padAddr n (spoAddr t spo)) (t.sreg y), order := t.issued }
          ∧ (u.tile n).pc = t.pc + 1 ∧ SameRegsBut [TILE_STATE.PC.addr n] s u ∧ SameMemory s u)) ∧
  (∀ (s : State) (n : Fin 64) (k : Fin 4) (f : Flight), ((s.tile n).slot k).flight = some f → f.out = false →
    (s.tile n).oldest f = true →
    Answers (Machine.exec (.streamComplete n k) s) fun u =>
      (u.tile n).slot k = { err := if (f.output s).2 then St.mediumError else ((s.tile n).slot k).err }
        ∧ (∀ i, i < (f.output s).1.length → u.byte (padAddr n f.spad + i) = ((f.output s).1.drop i).headD 0)
        ∧ SameMemoryBut (padAddr n f.spad) (f.output s).1.length s u) ∧
  (∀ (s : State) (n : Fin 64) (k : Fin 4) (f : Flight), ((s.tile n).slot k).flight = some f → f.out = true →
    (s.tile n).oldest f = true → (s.gladeWrite (s.tileGlade n) f.addr f.data).2 = St.success →
    NoneHeld s (s.gladeWrite (s.tileGlade n) f.addr f.data).1 →
    Answers (Machine.exec (.stoutComplete n k) s) fun u =>
      (u.tile n).slot k = { err := ((s.tile n).slot k).err }
        ∧ u.mem = (s.gladeWrite (s.tileGlade n) f.addr f.data).1.mem)

/-- POST, WAITC, WAITQ and END (R131): POST adds 1 or a scalar register to a counter granted to the tile's glade; a wait
whose target has been reached goes on and another one is recorded and goes on waiting; END completes the running command with
SUCCESS and leaves the sequencer idle. -/
def TileSynchronisationHold : Prop :=
  ∀ (s : State) (n : Fin 64) (c x qid : Nat), c < 2 ^ 16 → x < 16 → qid < 2 ^ 24 →
    (TileAt s n (0x40 + 2 ^ 8 + 2 ^ 32 * c) → SlotsClear (s.tile n) → (s.tile n).pc ≠ 4095 →
      s.ctrGranted c (s.tileGlade n) = true → s.ustStopped = false →
      Answers (Machine.exec (.post n) s) fun t => t.ctr c = (s.ctr c + 1) % 2 ^ 64 ∧ (t.tile n).pc = (s.tile n).pc + 1) ∧
    (TileAt s n (0x40 + 2 ^ 32 * c + 2 ^ 48 * x) → SlotsClear (s.tile n) → (s.tile n).pc ≠ 4095 →
      s.ctrGranted c (s.tileGlade n) = true → s.ustStopped = false →
      Answers (Machine.exec (.post n) s) fun t =>
        t.ctr c = (s.ctr c + (s.tile n).sreg x) % 2 ^ 64 ∧ (t.tile n).pc = (s.tile n).pc + 1) ∧
    (TileAt s n (0x41 + 2 ^ 32 * c + 2 ^ 48 * x) → s.ctrGranted c (s.tileGlade n) = true → (s.tile n).pc ≠ 4095 →
      Answers (Machine.exec (.waitc n) s) fun t =>
        (satisfied (s.ctr c) ((s.tile n).sreg x) = true → (t.tile n).pc = (s.tile n).pc + 1 ∧ t.waits = s.waits)
          ∧ (satisfied (s.ctr c) ((s.tile n).sreg x) = false →
              t.tile n = s.tile n ∧ t.rd TILE_STATE.SEQ n = 2
                ∧ t.waits = s.waits ++ [{ who := .tile n, on := .counter c, target := (s.tile n).sreg x }])) ∧
    (TileAt s n (0x42 + 2 ^ 32 * qid + 2 ^ 56 * x) → s.mayWait (s.tileGlade n) (.count qid) = true →
      (s.tile n).pc ≠ 4095 →
      Answers (Machine.exec (.waitq n) s) fun t =>
        (satisfied (s.queue qid).count ((s.tile n).sreg x) = true → (t.tile n).pc = (s.tile n).pc + 1 ∧ t.waits = s.waits)
          ∧ (satisfied (s.queue qid).count ((s.tile n).sreg x) = false →
              t.tile n = s.tile n ∧ t.rd TILE_STATE.SEQ n = 2
                ∧ t.waits = s.waits ++ [{ who := .tile n, on := .count qid, target := (s.tile n).sreg x }])) ∧
    (∀ (q : Nat) (d : Cmd), TileAt s n 0x01 → SlotsClear (s.tile n) → (s.tile n).run = some q → q < 8 →
      (s.queue (tileQid (8 * n + q))).cmds = [d] → (s.queue (tileQid (8 * n + q))).due = [] →
      Answers (Machine.exec (.endCmd n) s) fun t =>
        (t.tile n).run = none ∧ t.rd TILE_STATE.SEQ n = 0 ∧ (t.queue (tileQid (8 * n + q))).cmds = []
          ∧ (t.queue (tileQid (8 * n + q))).due.map (fun e => (e.word0, e.status, e.entry)) = [(d.tag, St.success, d.entry)])

/-- WLOAD and MMA: WLOAD takes its block from the scratchpad into the weight register (R128), MMA applies the block to the
activation vectors one after another and sets the flags (R101 to R103), and both advance the program counter and leave memory
and the other tiles alone. `w` is any word that passes the tests of R134. -/
def TileMatrixHold : Prop :=
  ∀ (s : State) (n : Fin 64) (w : Nat), TileAt s n w → (s.tile n).pc ≠ 4095 →
    (bitsOf w 0 8 = 0x20 → lowestFault (wloadChecks s n (s.tile n) w) = none →
      (∀ k, k < 4 → (s.tile n).busy k = false) →
      Answers (Machine.exec (.wload n) s)
        (TileOnly n { s.tile n with
          wreg := some
            { fmt := bitsOf w 16 4, sparse := bitOf w 30, vals := s.bytes (padAddr n (spoAddr (s.tile n) (bitsOf w 32 25))) 1024,
              scales := s.bytes (padAddr n (spoAddr (s.tile n) (bitsOf w 57 25))) (wScaleBytes (bitsOf w 16 4) (bitOf w 30)),
              metas := s.bytes (padAddr n (spoAddr (s.tile n) (bitsOf w 82 25)))
                (if bitOf w 30 then 32 * metaRow (bitsOf w 16 4) else 0) },
          pc := (s.tile n).pc + 1 } s)) ∧
    (bitsOf w 0 8 = 0x21 → lowestFault (mmaChecks s (s.tile n) w) = none → bitsOf w 32 5 = 0 →
      (∀ k, k < 4 → (s.tile n).busy k = false) →
      ∀ b, (s.tile n).wreg = some b →
      let r := mmaRow (s.tile n) b (bitsOf w 20 4) (bitOf w 31) (bitsOf w 8 1) (bitsOf w 9 5)
        (s.bytes (padAddr n (spoAddr (s.tile n) (bitsOf w 37 25))) (vecBytes (bitsOf w 16 4) (bitsOf w 20 4) (bitOf w 30)))
        (s.bytes (padAddr n (spoAddr (s.tile n) (bitsOf w 62 25))) (vecScales (bitsOf w 16 4) (bitsOf w 20 4) (bitOf w 30)))
      Answers (Machine.exec (.mma n) s) fun t =>
        t.tile n = { r.1 with pc := (s.tile n).pc + 1 }
          ∧ t.reg (TILE_ARITH_FLAGS.INVALID.addr n)
              = BitVec.ofNat 64 (Nat.lor (s.reg (TILE_ARITH_FLAGS.INVALID.addr n)).toNat r.2)
          ∧ SameRegsBut [TILE_STATE.PC.addr n, TILE_ARITH_FLAGS.INVALID.addr n] s t ∧ SameMemory s t)

/-- DRAIN writes converted accumulator rows and VOP its result vectors to the scratchpad (R126, R129): here one row in a
format that is not microscaling, and one vector. Only the written bytes, the flags, the sequence number and the sequencer
change. -/
def TileResultsHold : Prop :=
  ∀ (s : State) (n : Fin 64) (w : Nat), TileAt s n w → (s.tile n).pc ≠ 4095 →
    (∀ k, k < 4 → (s.tile n).busy k = false) →
    (bitsOf w 0 8 = 0x22 → lowestFault (drainChecks s (s.tile n) w) = none → bitsOf w 32 5 = 0 →
      fmtMx (bitsOf w 24 4) = false →
      let a := padAddr n (spoAddr (s.tile n) (bitsOf w 37 25))
      let l := (List.range 32).map fun i => (s.tile n).accAt (bitsOf w 8 1) (bitsOf w 9 5) i
      let r := drainRow (fun i => tileDraw s n (bitOf w 28) i) (bitOf w 29) (bitsOf w 24 4) l
      Answers (Machine.exec (.drain n) s) fun t =>
        t.bytes a r.1.length = r.1 ∧ SameMemoryBut a r.1.length s t
          ∧ t.tile n = { s.tile n with pc := (s.tile n).pc + 1 }
          ∧ SameRegsBut [TILE_STATE.PC.addr n, TILE_ARITH_FLAGS.INVALID.addr n, TILE_SR_SEQ.SEQ.addr n] s t) ∧
    (bitsOf w 0 8 = 0x30 → lowestFault (vopChecks s (s.tile n) w) = none → bitOf w 14 = false → bitsOf w 8 6 = 0 →
      let v := bitsOf w 107 12 + 1
      let a := padAddr n (spoAddr (s.tile n) (bitsOf w 32 25))
      let i : VopIn :=
        { a := s.bytes (padAddr n (spoAddr (s.tile n) (bitsOf w 57 25))) (v * fmtBytes (bitsOf w 20 4) 64),
          b := s.bytes (padAddr n (spoAddr (s.tile n) (bitsOf w 82 25))) (v * fmtBytes (bitsOf w 20 4) 64),
          d := [], scalar := none }
      let r := vopResult (tileDraw s n (bitOf w 28)) 0 (acwOf w) v i
      Answers (Machine.exec (.vop n) s) fun t =>
        t.bytes a r.1.length = r.1 ∧ SameMemoryBut a r.1.length s t
          ∧ t.tile n = { s.tile n with pc := (s.tile n).pc + 1 }
          ∧ SameRegsBut [TILE_STATE.PC.addr n, TILE_ARITH_FLAGS.INVALID.addr n, TILE_SR_SEQ.SEQ.addr n] s t)

/-- Tile commands and the controls of tile queues (R116 to R122, R135, R136, R139): RUN loads the program counter and S1 to
S6 and zeroes the other scalar registers, LOAD copies program words, WAIT and POST act on counters and counts, the watchdog
ends a program with status 0x82, and the writes of TILE_QCTRL enable, disable, reset and resume a queue. -/
def TileCommandsHold : Prop :=
  ∀ (s : State) (j : Fin 512) (c : Cmd),
    (Fresh s (tileQid j) 1 c → (s.tile (j / 8)).run = none → s.tileOut (j / 8) = false →
      Answers (Machine.exec (.run j) s) fun t =>
        (t.tile (j / 8)).pc = leAt c.bytes 8 2 ∧ (t.tile (j / 8)).run = some (j.val % 8)
          ∧ (∀ k, k < 6 → (t.tile (j / 8)).sreg (k + 1) = leAt c.bytes (16 + 8 * k) 8 % 2 ^ 64)
          ∧ (∀ k, 7 ≤ k → k < 16 → (t.tile (j / 8)).sreg k = 0)
          ∧ (t.tile (j / 8)).acc = (s.tile (j / 8)).acc ∧ (t.tile (j / 8)).prog = (s.tile (j / 8)).prog
          ∧ t.rd TILE_STATE.SEQ (j / 8) = 1 ∧ SameMemory s t) ∧
    (Fresh s (tileQid j) 2 c → (s.tile (j / 8)).run = none →
      s.inGladeRgn (s.tileGlade (j / 8)) (leAt c.bytes 16 8) (16 * leAt c.bytes 10 2) = true →
      s.memBad (leAt c.bytes 16 8) (16 * leAt c.bytes 10 2) = false →
      Answers (Machine.exec (.tileLoad j) s) fun t =>
        Ended (tileQid j) c St.success t ∧ SameMemory s t
          ∧ ∀ k, k < leAt c.bytes 10 2 →
              Tab.get 0 (t.tile (j / 8)).prog (leAt c.bytes 8 2 + k)
                = BitVec.ofNat 128 (leNat (s.bytes (leAt c.bytes 16 8 + 16 * k) 16))) ∧
    (Fresh s (tileQid j) 3 c → s.mayWait (s.tileGlade (j / 8)) (waitOnOf c.bytes) = true → s.ustStopped = false →
      Answers (Machine.exec (.tileCmdWait j) s) fun t =>
        (satisfied (s.waitValue (waitOnOf c.bytes)) (leAt c.bytes 16 8) = true → Ended (tileQid j) c St.success t) ∧
        (satisfied (s.waitValue (waitOnOf c.bytes)) (leAt c.bytes 16 8) = false →
          t.waits = s.waits ++ [{ who := .queue (tileQid j), on := waitOnOf c.bytes, target := leAt c.bytes 16 8 }])) ∧
    (Fresh s (tileQid j) 4 c → s.ctrGranted (leAt c.bytes 12 4) (s.tileGlade (j / 8)) = true → s.ustStopped = false →
      Answers (Machine.exec (.tileCmdPost j) s) fun t =>
        Ended (tileQid j) c St.success t
          ∧ t.ctr (leAt c.bytes 12 4) = (s.ctr (leAt c.bytes 12 4) + leAt c.bytes 16 8) % 2 ^ 64) ∧
    ((s.tile (j / 8)).run = some (j.val % 8) → s.rd TILE_WDOG.LIMIT (j / 8) ≠ 0 → (s.queue (tileQid j)).cmds = [c] →
      (∀ k, k < 4 → (s.tile (j / 8)).busy k = false) →
      ∀ n : Fin 64, n.val = j / 8 →
      Answers (Machine.exec (.tileWatchdogExpire n) s) fun t =>
        (t.tile n).run = none ∧ Ended (tileQid j) c 0x82 t ∧ t.rd TILE_STATE.SEQ n = 0) ∧
    (∀ v : BitVec 64, TileOpen s (j / 8) → (s.queue (tileQid j)).state ≠ .resetting → s.flag TILE_QCTRL.ENABLE j = false → s.flag TILE_CFG.ASSIGNED (j / 8) = true →
      4 ≤ bitsOf v.toNat 1 4 → bitsOf v.toNat 1 4 ≤ 12 → s.flag GLD_INST.VALID (bitsOf v.toNat 8 12) = true →
      s.gladeOf (bitsOf v.toNat 8 12) = s.tileGlade (j / 8) →
      Answers (Machine.exec (.tileQueueEnable j v) s) fun t =>
        let q := t.queue (tileQid j)
        t.flag TILE_QCTRL.ENABLE j = true ∧ q.state = .active ∧ q.log2 = bitsOf v.toNat 1 4 ∧ q.prio = bitsOf v.toNat 5 2
          ∧ q.inst = bitsOf v.toNat 8 12 ∧ q.vector = bitsOf v.toNat 20 11 ∧ q.phase = true) ∧
    (TileOpen s (j / 8) → (s.queue (tileQid j)).cmds = [] → (s.queue (tileQid j)).state ≠ .resetting →
      Answers (Machine.exec (.tileQueueDisable j) s) fun t =>
        t.flag TILE_QCTRL.ENABLE j = false ∧ (t.queue (tileQid j)).state = .disabled) ∧
    (TileOpen s (j / 8) → (s.queue (tileQid j)).state = .active → (s.tile (j / 8)).run ≠ some (j.val % 8) →
      Answers (Machine.exec (.tileQueueReset j) s) fun t =>
        (t.queue (tileQid j)).state = .resetting ∧ ∀ d ∈ (s.queue (tileQid j)).cmds, Ended (tileQid j) d 0x01 t) ∧
    (TileOpen s (j / 8) → (s.queue (tileQid j)).state = .halted →
      Answers (Machine.exec (.tileQueueResume j) s) fun t => (t.queue (tileQid j)).state = .active)

/-- A write of TILE_SR_SEED sets the seed and restarts the sequence (R105); a DMA access that has starved raises event 0x0602
with its address (R133); a TILE_CFG write assigns a free tile to a glade within its quota (R282). -/
def TileRegistersHold : Prop :=
  ∀ (s : State) (n : Fin 64),
    (∀ v : BitVec 64, TileOpen s n → Answers (Machine.exec (.srSeedWrite n v) s) fun t =>
      t.rd TILE_SR_SEED.SEED n = v.toNat ∧ t.rd TILE_SR_SEQ.SEQ n = 0 ∧ SameMemory s t
        ∧ SameRegsBut [TILE_SR_SEED.SEED.addr n, TILE_SR_SEQ.SEQ.addr n] s t) ∧
    (∀ a : BitVec 21, Answers (Machine.exec (.tileDmaStarved n a) s)
      (Recorded 0x0602 (unitId 0x3 n) (s.tileGlade n) 0 0 a.toNat s)) ∧
    (∀ v : BitVec 64, TileOpen s n → s.flag TILE_CFG.ASSIGNED n = false → bitOf v.toNat 8 = true →
      (∀ q, q < 8 → s.flag TILE_QCTRL.ENABLE (8 * n + q) = false) → s.gladeExists (bitsOf v.toNat 0 8) = true →
      mayTake s .tiles (bitsOf v.toNat 0 8) 1 = true →
      Answers (Machine.exec (.tileCfgWrite n v) s) fun t =>
        t.flag TILE_CFG.ASSIGNED n = true ∧ t.rd TILE_CFG.GLADE n = bitsOf v.toNat 0 8)

/-- Control flow and synchronisation of tile programs. Readings of the model that clauses follow: log entry 42. Completion:
under premises on the state and the operands alone, a clause concludes that exec answers a next state with the command's own
effect, for nop, endCmd, jmp, loop, br, swait, post, waitc, waitq and fence. -/
def Obligations.TileFlowAndSync : Prop := TileControlFlowHold ∧ TileSynchronisationHold

/-- Scalar registers and data movement of tile programs. Readings of the model that clauses follow: log entry 42. Completion:
under premises on the state and the operands alone, a clause concludes that exec answers a next state with the command's own
effect, for sli, salu, stream, streamComplete, stout, stoutComplete and srseed. -/
def Obligations.TileScalarsAndStreams : Prop := TileScalarsHold ∧ TileStreamsHold

/-- The matrix and vector instructions of tile programs and what they leave. Readings of the model that clauses follow: log
entries 12 and 42. Completion: under premises on the state and the operands alone, a clause concludes that exec answers a next
state with the command's own effect, for wload, mma, drain and vop. -/
def Obligations.TileArithmetic : Prop := TileMatrixHold ∧ TileResultsHold

/-- Tile commands and tile registers. Readings of the model that clauses follow: log entries 9 and 42. Completion: under
premises on the state and the operands alone, a clause concludes that exec answers a next state with the command's own effect,
for srSeedWrite, tileCfgWrite, tileQueueEnable, tileQueueDisable, tileQueueReset, tileQueueResume, run, tileLoad, tileCmdWait,
tileCmdPost, tileWatchdogExpire and tileDmaStarved. -/
def Obligations.TileQueuesAndRegisters : Prop := TileCommandsHold ∧ TileRegistersHold

/-! ### The decode engine (R141 to R160) -/

/-- The oldest fetched command of decode queue `q` is `c` with opcode `op`, it names the open stream `k` of the queue's glade
by a current handle, no command runs on that stream or for that queue, its context is at hand (R228), and it is the queue's turn
to start its command (R142). -/
abbrev OnStream (s : State) (q op : Nat) (c : Cmd) (k : Nat) : Prop :=
  Fresh s (decQid q) op c ∧ k = handleCtx (leAt c.bytes 8 4)
    ∧ (s.stream k).valid = true ∧ (s.stream k).glade = s.queueGlade (decQid q)
    ∧ (s.stream k).gen = handleGen (leAt c.bytes 8 4) ∧ (s.stream k).busy = none
    ∧ (∀ p ∈ s.streams, p.2.busy ≠ some (decQid q)) ∧ AtHand s (.stream k) ∧ decTurn s (decQid q) = true

/-- OPEN copies a descriptor that fits into a free context of the slice's quadrant and answers its handle (R148, R149); CLOSE
frees the context and advances its generation (R148); SET_TREE records the tree (R155); COMMIT adds COUNT to LEN and TRUNCATE
sets it, and changes nothing where NEW_LEN is LEN (R144, R156). No other stream changes, and no memory does. -/
def DecodeStreamsHold : Prop :=
  ∀ (s : State) (q : Fin 256) (c : Cmd) (k : Nat),
    (Fresh s (decQid q) 1 c → decTurn s (decQid q) = true → (∀ p ∈ s.streams, p.2.busy ≠ some (decQid q)) →
      decAddrOk s (s.queueGlade (decQid q)) (leAt c.bytes 24 8) 256 = true → s.memBad (leAt c.bytes 24 8) 256 = false →
      let l := s.bytes (leAt c.bytes 24 8) 256
      let home := (s.queue (decQid q)).home
      descriptorOk l = true → s.inGladeRgn (s.queueGlade (decQid q)) (streamOf l).table (streamOf l).tableBytes = true →
      mayTakeCtx s (s.queueGlade (decQid q)) 1 = true → (s.cached (home / 4)).length < cacheSize → (∃ i, i < 65536 ∧ (s.stream (65536 * (home / 4) + i)).valid = false) →
      Answers (Machine.exec (.openCmd q) s) fun t =>
        SameMemory s t ∧ ∃ n, n / 65536 = home / 4 ∧ (s.stream n).valid = false
          ∧ t.stream n = { streamOf l with
              valid := true, gen := (s.stream n).gen, inst := (s.queue (decQid q)).inst,
              glade := s.queueGlade (decQid q), slice := home }
          ∧ (∀ m, m ≠ n → t.stream m = s.stream m)
          ∧ EndedWith (decQid q) c St.success ((n + 2 ^ 18 * (s.stream n).gen) % 2 ^ 32) t) ∧
    (OnStream s q 2 c k →
      Answers (Machine.exec (.close q) s) fun t =>
        t.stream k = { gen := ((s.stream k).gen + 1) % 256 } ∧ (∀ m, m ≠ k → t.stream m = s.stream m)
          ∧ EndedWith (decQid q) c St.success 0 t ∧ SameMemory s t) ∧
    (OnStream s q 5 c k → (s.stream k).tree = none →
      decAddrOk s (s.stream k).glade (leAt c.bytes 48 8) (4 * leAt c.bytes 24 1) = true →
      s.memBad (leAt c.bytes 48 8) (4 * leAt c.bytes 24 1) = false →
      Answers (Machine.exec (.setTree q) s) fun t =>
        t.stream k = { s.stream k with
            samples := none,
            tree := some
              { parents := (List.range (leAt c.bytes 24 1)).map fun i => leAt c.bytes (32 + i) 1,
                tokens := (List.range (leAt c.bytes 24 1)).map fun i => leNat (s.bytes (leAt c.bytes 48 8 + 4 * i) 4) } }
          ∧ (∀ m, m ≠ k → t.stream m = s.stream m) ∧ EndedWith (decQid q) c St.success 0 t ∧ SameMemory s t) ∧
    (OnStream s q 8 c k → (s.stream k).tree = none → (s.stream k).len + leAt c.bytes 24 1 ≤ (s.stream k).maxLen →
      Answers (Machine.exec (.commit q) s) fun t =>
        t.stream k = { s.stream k with len := (s.stream k).len + leAt c.bytes 24 1 }
          ∧ (∀ m, m ≠ k → t.stream m = s.stream m)
          ∧ EndedWith (decQid q) c St.success (((s.stream k).len + leAt c.bytes 24 1) % 2 ^ 32) t ∧ SameMemory s t) ∧
    (OnStream s q 9 c k → leAt c.bytes 24 4 < (s.stream k).len →
      Answers (Machine.exec (.truncate q) s) fun t =>
        t.stream k = { s.stream k with len := leAt c.bytes 24 4, tree := none, samples := none }
          ∧ (∀ m, m ≠ k → t.stream m = s.stream m)
          ∧ EndedWith (decQid q) c St.success (leAt c.bytes 24 4 % 2 ^ 32) t ∧ SameMemory s t) ∧
    (OnStream s q 9 c k → leAt c.bytes 24 4 = (s.stream k).len →
      Answers (Machine.exec (.truncate q) s) fun t =>
        (∀ m, t.stream m = s.stream m) ∧ EndedWith (decQid q) c St.success ((s.stream k).len % 2 ^ 32) t ∧ SameMemory s t)

/-- APPEND_KV writes the keys and values of a position into its page (R151), here one position of one head; ATTEND gives its
pages to the tiles of its mask as items (R153), and a tile that takes an item scrambles its window and counts it (R153, R154):
here one that is not the last. -/
def DecodeKvHold : Prop :=
  (∀ (s : State) (q : Fin 256) (c : Cmd) (k : Nat), OnStream s q 3 c k →
    let x := s.stream k
    let src := leAt c.bytes 32 8
    let u := decStart s (decQid q)
    let page := pageFor u x true (leAt c.bytes 24 2) 0 (x.len / x.perPage)
    let w := u.writeMem (page.1 + x.keyOff x.len) (u.bytes src x.posBytes)
    let v := w.1.writeMem (0x8000 + (page.1 + x.keyOff x.len)) (u.bytes (src + x.posBytes) x.posBytes)
    x.heads = 1 → leAt c.bytes 26 1 = 1 → leAt c.bytes 24 2 < x.layers →
    decAddrOk u x.glade src (2 * x.posBytes) = true → x.len + 1 ≤ x.maxLen → page.2 = St.success →
    u.memBad src (2 * x.posBytes) = false → w.2 = St.success → v.2 = St.success → NoneHeld s v.1 →
    Answers (Machine.exec (.appendKv q) s) fun t =>
      EndedWith (decQid q) c St.success 0 t ∧ t.mem = v.1.mem) ∧
  (∀ (s : State) (q : Fin 256) (c : Cmd) (k : Nat), OnStream s q 4 c k →
    let x := s.stream k
    let count := leAt c.bytes 26 1
    let tiles := below 64 (bitOf (leAt c.bytes 48 8))
    let qn := count * x.qHeads * x.dim
    leAt c.bytes 24 2 < x.layers → x.group * count * x.dim * x.b ≤ 96 * 1024 → bitOf (leAt c.bytes 27 1) 0 = false →
    x.len + count ≤ x.maxLen → (∀ n ∈ tiles, s.flag TILE_CFG.ASSIGNED n = true ∧ s.tileGlade n = x.glade) →
    (∀ n ∈ tiles, s.tileOut n = false) → decAddrOk s x.glade (leAt c.bytes 32 8) (fmtBytes x.qFmt qn) = true →
    decAddrOk s x.glade (leAt c.bytes 40 8) (fmtBytes (leAt c.bytes 28 1) qn) = true →
    s.memBad (leAt c.bytes 32 8) (fmtBytes x.qFmt qn) = false →
    Answers (Machine.exec (.attend q) s) fun t =>
      t.stream k = { x with busy := some (decQid q) }
        ∧ (Tab.get {} t.attends (decQid q)).left = x.heads * ceilDiv (x.len + count) x.perPage
        ∧ (Tab.get {} t.attends (decQid q)).parts = List.replicate (count * x.qHeads) none ∧ SameMemory s t) ∧
  (∀ (s : State) (n : Fin 64) (i : Item), nextItem (s.tile n).items = some i →
    tileBoundary s n = true → tilePick s n = some 8 →
    let a := Tab.get {} s.attends i.qid
    let x := s.stream a.ctx
    let page := pageFor s x false a.layer i.head i.page
    1 < a.left → page.2 = St.success → s.memBad page.1 0x10000 = false →
    Answers (Machine.exec (.attendItem n) s) fun t =>
      (t.tile n).items = (s.tile n).items.erase i ∧ Tab.get 8 (t.tile n).lastQueue i.prio = 8
        ∧ (Tab.get {} t.attends i.qid).left = a.left - 1
        ∧ SameMemoryBut (padAddr n x.window) 0x40000 s t)

/-- SAMPLE in its three modes and VERIFY (R156 to R159): FULL and MERGE write the drawn tokens and record them, PARTIAL writes
the ordered candidates, and VERIFY advances LEN by the accepted path, here one whose nodes already lie in place. Readings of
the model that clauses follow: log entry 43. Completion: under premises on the state and the operands alone, a clause
concludes that exec answers a next state with the command's own effect, for sampleFull, samplePartial, sampleMerge and verify.
-/
def Obligations.DecodeSampling : Prop :=
  ∀ (s : State) (q : Fin 256) (c : Cmd) (k : Nat),
    let l := c.bytes
    let x := s.stream k
    let n := leAt l 25 1
    let u := decStart s (decQid q)
    let toks := fun base (cands : List (List (Machine.Num × Nat))) =>
      cands.zipIdx.map fun e =>
        (drawToken (leAt l 28 4) (leAt l 32 2) (sampleDraw x.seed (samplePos x e.2)) e.1 + base) % 2 ^ 32
    (OnStream s q 6 c k → leAt l 24 1 = 0 →
      sampleStatus u x l (n * fmtBytes (leAt l 35 1) (leAt l 36 4)) (4 * n) = St.success →
      let cands := (List.range n).map (logitCands u l)
      let ts := toks (leAt l 56 4) cands
      let w := u.writeMem (leAt l 48 8) (ts.flatMap (toLe 4))
      cands.any List.isEmpty = false → w.2 = St.success → NoneHeld s w.1 →
      Answers (Machine.exec (.sampleFull q) s) fun t =>
        t.stream k = { x with samples := some ts } ∧ t.mem = w.1.mem
          ∧ EndedWith (decQid q) c St.success (if n = 1 then ts.headD 0 % 2 ^ 32 else 0) t) ∧
    (OnStream s q 6 c k → leAt l 24 1 = 1 →
      sampleStatus u x l (n * fmtBytes (leAt l 35 1) (leAt l 36 4)) (8 * n * sampleK l) = St.success →
      let out := (List.range n).flatMap fun i =>
        let es := (logitCands u l i).map (partialEntry (leAt l 56 4))
        (es ++ List.replicate (sampleK l - es.length) (toLe 4 0xFF800000 ++ toLe 4 0xFFFFFFFF)).flatten
      let w := u.writeMem (leAt l 48 8) out
      w.2 = St.success → NoneHeld s w.1 →
      Answers (Machine.exec (.samplePartial q) s) fun t =>
        t.mem = w.1.mem ∧ EndedWith (decQid q) c St.success 0 t) ∧
    (OnStream s q 6 c k → leAt l 24 1 = 2 →
      sampleStatus u x l (8 * n * leAt l 36 4) (4 * n) = St.success →
      let cands := (List.range n).map (mergeCands u l)
      let ts := toks 0 cands
      let w := u.writeMem (leAt l 48 8) (ts.flatMap (toLe 4))
      cands.any List.isEmpty = false → w.2 = St.success → NoneHeld s w.1 →
      Answers (Machine.exec (.sampleMerge q) s) fun t =>
        t.stream k = { x with samples := some ts } ∧ t.mem = w.1.mem
          ∧ EndedWith (decQid q) c St.success (if n = 1 then ts.headD 0 % 2 ^ 32 else 0) t) ∧
    (OnStream s q 7 c k → ∀ tr samples, x.tree = some tr → x.samples = some samples →
      let path := 0 :: treePath tr samples 17 0
      let emitted := (path.drop 1).map (fun u => tr.tokens[u]?.getD 0) ++ [samples[path.getLastD 0]?.getD 0]
      let w := u.writeMem (leAt l 32 8) (emitted.flatMap (toLe 4))
      path = List.range path.length → decAddrOk u x.glade (leAt l 32 8) (4 * path.length) = true →
      x.len + path.length ≤ x.maxLen → w.2 = St.success → NoneHeld s w.1 →
      Answers (Machine.exec (.verify q) s) fun t =>
        t.stream k = { x with len := x.len + path.length, tree := none, samples := none } ∧ t.mem = w.1.mem
          ∧ EndedWith (decQid q) c St.success
              ((path.length + 2 ^ 16 * (path.foldl (fun m u => m + 2 ^ u) 0)) % 2 ^ 32) t)

/-- Streams of the decode engine and their key and value pages. Readings of the model that clauses follow: log entry 43.
Completion: under premises on the state and the operands alone, a clause concludes that exec answers a next state with the
command's own effect, for attendItem, openCmd, close, appendKv, attend, setTree, commit and truncate. -/
def Obligations.DecodeStreamsAndKv : Prop := DecodeStreamsHold ∧ DecodeKvHold

/-! ### The Understory (R163 to R184) -/

/-- A frame of group `g` is the next of its link, which is UP and an edge of the group, the group is UP, and the frame has the
group's generation (R167, R169). -/
abbrev UstIn (s : State) (h : UstHeader) (g : Nat) : Prop :=
  h.group.toNat = g ∧ g < 64 ∧ s.grpState g = 2 ∧ h.link.val ∈ grpEdges s g ∧ s.flag UST_LINK.UP h.link = true
    ∧ h.lseq.toNat = (s.ustLink h.link).rx ∧ h.gen.toNat = s.rd UST_GRP_A.GEN g

/-- No frame waits on the links on which a frame of group `g` starts, and each may send one more before an acknowledgement
(R167). -/
abbrev LinksClear (s : State) (g : Nat) : Prop :=
  ∀ k ∈ grpOut s g, (s.ustLink k).waiting = [] ∧ (s.ustLink k).unacked < 64

/-- The oldest fetched command of collective queue `q` is `c` with opcode `op`, and its group `g` is UP. -/
abbrev OnGroup (s : State) (q op : Nat) (c : Cmd) (g : Nat) : Prop :=
  Fresh s (ustQid q) op c ∧ g = leAt c.bytes 2 1 ∧ s.grpState g = 2

/-- The collective of command `c` of queue `q` has been issued on group `g` as operation `o` (R176). -/
def Issued (s : State) (q : Nat) (c : Cmd) (g : Nat) (t : State) : Prop :=
  ∃ x, (t.ustGroup g).cur = some x ∧ x.qid = ustQid q ∧ x.entry = c.entry ∧ x.opseq = (s.ustGroup g).opseq
    ∧ x.sig = sigOf c.bytes ∧ x.src = leAt c.bytes 32 8 ∧ x.dst = leAt c.bytes 40 8 ∧ x.arrived = [s.grpSelf g]

/-- Issuing BARRIER, MARK, BCAST and ALLREDUCE on a group of several members that runs no collective and has heard of no later
one, with room on its links: the operation takes the group's OPSEQ, which advances, its arrival goes out on the group's links, and memory is left alone
until data flows (R174, R176); RPOST to another member is sent and waits for its acknowledgement, and RPOST to this member adds
at once (R174). -/
def UnderstoryCommandsHold : Prop :=
  ∀ (s : State) (q : Fin 256) (c : Cmd) (g : Nat), (s.ustGroup g).early = [] → LinksClear s g →
    let glade := s.queueGlade (ustQid q)
    let good := fun t => Issued s q c g t ∧ (t.ustGroup g).opseq = ((s.ustGroup g).opseq + 1) % 2 ^ 32
      ∧ t.out.length = s.out.length + (grpOut s g).length ∧ SameMemory s t
    ((s.ustGroup g).cur = none → s.grpN g ≠ 1 →
      (OnGroup s q 1 c g → Answers (Machine.exec (.barrier q) s) good) ∧
      (OnGroup s q 5 c g → Answers (Machine.exec (.mark q) s) good) ∧
      (OnGroup s q 2 c g → ustAddrOk s glade (leAt c.bytes 40 8) (leAt c.bytes 28 4) = true →
        (leAt c.bytes 26 1 = s.grpSelf g →
          ustAddrOk s glade (leAt c.bytes 32 8) (leAt c.bytes 28 4) = true
            ∧ s.memBad (leAt c.bytes 32 8) (leAt c.bytes 28 4) = false) →
        Answers (Machine.exec (.bcast q) s) good) ∧
      (OnGroup s q 3 c g → ustAddrOk s glade (leAt c.bytes 40 8) (leAt c.bytes 28 4) = true →
        ustAddrOk s glade (leAt c.bytes 32 8) (leAt c.bytes 28 4) = true →
        s.memBad (leAt c.bytes 32 8) (leAt c.bytes 28 4) = false →
        Answers (Machine.exec (.allreduce q) s) good)) ∧
    (OnGroup s q 4 c g → leAt c.bytes 27 1 ≠ s.grpSelf g →
      Answers (Machine.exec (.rpost q) s) fun t =>
        (t.ustGroup g).posts = (s.ustGroup g).posts ++ [(ustQid q, c.entry, leAt c.bytes 27 1)]
          ∧ t.out.length = s.out.length + (grpOut s g).length ∧ SameMemory s t) ∧
    (OnGroup s q 4 c g → leAt c.bytes 27 1 = s.grpSelf g → s.ustStopped = false →
      s.ctrGranted (leAt c.bytes 48 2) (s.rd UST_GRP_A.GLADE g) = true →
      Answers (Machine.exec (.rpost q) s) fun t =>
        t.ctr (leAt c.bytes 48 2) = (s.ctr (leAt c.bytes 48 2) + leAt c.bytes 56 8) % 2 ^ 64
          ∧ EndedWith (ustQid q) c St.success 0 t)

/-- Frames of a group that is UP (R167 to R181): POST adds to a granted counter, ARRIVE and MARK count their member, RELEASE
ends the barrier on this member, the pieces of REDUCE_DATA are added to this member's, those of BCAST_DATA are written to DST,
ABORT ends the
operation with 0x81, and DOWN sends the group DOWN. -/
def UnderstoryFramesHold : Prop :=
  ∀ (s : State) (h : UstHeader) (g : Nat), UstIn s h g →
    (∀ (ctr : BitVec 16) (inc : BitVec 64), h.dst.toNat = s.grpSelf g →
      s.ctrGranted ctr.toNat (s.rd UST_GRP_A.GLADE g) = true → s.ustStopped = false →
      Answers (Machine.exec (.ustPostFrame h ctr inc) s) fun t => t.ctr ctr.toNat = (s.ctr ctr.toNat + inc.toNat) % 2 ^ 64) ∧
    (∀ (o : UstOp) (x : Coll), (s.ustGroup g).cur = some x → x.opseq = h.opseq.toNat →
      x.sig = { op := o.op.toNat, len := o.len.toNat, dtype := o.dtype.toNat, redop := o.redop.toNat, root := o.root.toNat } →
      h.src.toNat ∉ x.arrived → x.arrived.length + 1 ≠ s.grpN g →
      Answers (Machine.exec (.ustArriveFrame h o) s) fun t =>
        (t.ustGroup g).cur = some { x with arrived := h.src.toNat :: x.arrived } ∧ SameMemory s t) ∧
    (∀ x : Coll, (s.ustGroup g).cur = some x → x.opseq = h.opseq.toNat →
      x.sig = { op := 5, len := 0, dtype := 0, redop := 0, root := 0 } → h.src.toNat ∉ x.arrived →
      x.arrived.length + 1 ≠ s.grpN g →
      Answers (Machine.exec (.ustMarkFrame h) s) fun t =>
        (t.ustGroup g).cur = some { x with arrived := h.src.toNat :: x.arrived } ∧ SameMemory s t) ∧
    (∀ (x : Coll) (c : Cmd), (s.ustGroup g).cur = some x → x.opseq = h.opseq.toNat → x.sig.op = 1 →
      (s.queue x.qid).cmdAt x.entry = some c →
      Answers (Machine.exec (.ustReleaseFrame h) s) fun t =>
        (t.ustGroup g).cur = none ∧ EndedWith x.qid c St.success 0 t ∧ SameMemory s t) ∧
    (∀ (offset : BitVec 16) (words : List (BitVec 32)) (x : Coll), (s.ustGroup g).cur = some x →
      x.opseq = h.opseq.toNat → x.flowing = true → x.sig.op = 3 →
      let ps := cutWords (pieceElems x.sig.dtype) (words.map (·.toNat))
      offset.toNat + ps.length ≤ x.pieces → (∀ i, i < ps.length → formsPiece s g (offset.toNat + i) = false) →
      Answers (Machine.exec (.ustReduceData h offset words) s) fun t =>
        (t.ustGroup g).cur = some (ps.zipIdx.foldl
          (fun x p => { x with
            parts := Tab.set [] x.parts (offset.toNat + p.2)
              (reduceWords x.sig.dtype x.sig.redop (Tab.get [] x.parts (offset.toNat + p.2)) p.1),
            got := Tab.set 0 x.got (offset.toNat + p.2) (Tab.get 0 x.got (offset.toNat + p.2) + 1) }) x) ∧ SameMemory s t) ∧
    (∀ (offset : BitVec 16) (bytes : List (BitVec 8)) (x : Coll), (s.ustGroup g).cur = some x →
      x.opseq = h.opseq.toNat → x.flowing = true →
      let n := bytes.length / 64
      let w := (List.range n).foldl
        (fun (a : State × Nat) i =>
          let r := a.1.writeMem (x.dst + 64 * (offset.toNat + i)) (bytesAt bytes (64 * i) 64)
          (r.1, if a.2 = St.success then r.2 else a.2)) (s, x.status)
      offset.toNat + n ≤ x.pieces → (∀ i, i < n → x.done.contains (offset.toNat + i) = false) →
      x.done.length + n < x.pieces → NoneHeld s w.1 →
      Answers (Machine.exec (.ustBcastData h offset bytes) s) fun t =>
        (t.ustGroup g).cur = some
            { x with done := ((List.range n).map (offset.toNat + ·)).reverse ++ x.done, status := w.2 }
          ∧ t.mem = w.1.mem) ∧
    (∀ (x : Coll) (c : Cmd), (s.ustGroup g).cur = some x → x.opseq = h.opseq.toNat →
      (s.queue x.qid).cmdAt x.entry = some c →
      Answers (Machine.exec (.ustAbortFrame h) s) fun t =>
        (t.ustGroup g).cur = none ∧ EndedWith x.qid c 0x81 0 t) ∧
    Answers (Machine.exec (.ustDownFrame h) s) fun t => t.grpState g = 3

/-- Links and groups (R165, R167, R169, R180): a LINK frame records the peer, a heartbeat sends a frame, a link timeout takes
the link down and forgets its sequence, VALID takes a group to FORMING or UP or clears it, a group that stays FORMING goes
DOWN, and the lock bit is set. -/
def UnderstoryLinksAndGroupsHold : Prop :=
  ∀ (s : State) (k : Fin 8) (g : Fin 64),
    (∀ peer groups seq ack, lanesUp s k = true →
      Answers (Machine.exec (.ustLinkFrame k none 1 peer groups seq ack) s) fun t =>
        t.rd UST_LINK.PEER k = peer.toNat ∧ (t.ustLink k).reported = true ∧ SameMemory s t) ∧
    (lanesUp s k = true →
      Answers (Machine.exec (.ustHeartbeatTick k) s) fun t =>
        (∃ f, t.out = s.out ++ [.ustFrame k f]) ∧ t.ustLink k = s.ustLink k ∧ SameMemory s t ∧ SameRegsBut [] s t) ∧
    (s.flag UST_LINK.UP k = true →
      Answers (Machine.exec (.ustLinkTimeout k) s) fun t => t.flag UST_LINK.UP k = false ∧ t.ustLink k = {}) ∧
    (∀ v : BitVec 64, s.noImage = false → s.flag UST_LOCK.LOCKED = false → s.flag UST_GRP_A.VALID g = false →
      Answers (Machine.exec (.ustGroupValidSet g v) s) fun t =>
        t.flag UST_GRP_A.VALID g = true ∧ (t.grpState g = 1 ∨ t.grpState g = 2) ∧ t.ustGroup g = {}
          ∧ t.grpN g = bitsOf v.toNat 12 7 ∧ t.grpSelf g = bitsOf v.toNat 19 7 ∧ t.rd UST_GRP_A.GEN g = bitsOf v.toNat 26 16
          ∧ SameMemory s t) ∧
    (s.noImage = false → s.flag UST_LOCK.LOCKED = false → s.flag UST_GRP_A.VALID g = true →
      Answers (Machine.exec (.ustGroupValidClear g) s) fun t =>
        t.flag UST_GRP_A.VALID g = false ∧ t.grpState g = 0 ∧ t.ustGroup g = {}) ∧
    (s.grpState g = 1 → Answers (Machine.exec (.ustFormingTimeout g) s) fun t => t.grpState g = 3) ∧
    (s.noImage = false → Answers (Machine.exec .ustLockSet s) fun t =>
      t.flag UST_LOCK.LOCKED = true ∧ SameRegsBut [UST_LOCK.LOCKED.addr 0] s t ∧ SameMemory s t)

/-- Sync counters (R170): granting a block zeroes its counters and gives it to a glade, a write of UST_CTR sets a counter, and
UST_CTR_ADD adds modulo 2^64. -/
def SyncCountersHold : Prop :=
  ∀ (s : State), s.noImage = false →
    (∀ (b : Fin 256) (glade : BitVec 8), s.flag UST_CTR_BLK.GRANTED b = false →
      Answers (Machine.exec (.ctrBlockGrant b glade) s) fun t =>
        t.flag UST_CTR_BLK.GRANTED b = true ∧ t.rd UST_CTR_BLK.GLADE b = glade.toNat
          ∧ (∀ i, i < 256 → t.ctr (256 * b + i) = 0) ∧ (∀ j, j < 65536 → j / 256 ≠ b.val → t.ctr j = s.ctr j) ∧ SameMemory s t) ∧
    (∀ (c : Fin 65536) (v : BitVec 64),
      Answers (Machine.exec (.ustCtrWrite c v) s) (fun t =>
        t.ctr c = v.toNat ∧ SameRegsBut [UST_CTR.VALUE.addr c] s t ∧ SameMemory s t)
      ∧ (s.ustStopped = false → Answers (Machine.exec (.ustCtrAdd c v) s) fun t =>
          t.ctr c = (s.ctr c + v.toNat) % 2 ^ 64))

/-- Understory commands and the frames that arrive. Readings of the model that clauses follow: log entries 9 and 20.
Completion: under premises on the state and the operands alone, a clause concludes that exec answers a next state with the
command's own effect, for ustPostFrame, ustArriveFrame, ustReleaseFrame, ustReduceData, ustBcastData, ustAbortFrame,
ustMarkFrame, ustDownFrame, barrier, bcast, allreduce, rpost and mark. -/
def Obligations.UnderstoryTraffic : Prop := UnderstoryCommandsHold ∧ UnderstoryFramesHold

/-- Understory links, groups and sync counters. Readings of the model that clauses follow: log entries 9 and 20. Completion:
under premises on the state and the operands alone, a clause concludes that exec answers a next state with the command's own
effect, for ustLinkFrame, ustHeartbeatTick, ustLinkTimeout, ustGroupValidSet, ustGroupValidClear, ustFormingTimeout,
ctrBlockGrant, ustCtrWrite, ustCtrAdd and ustLockSet. -/
def Obligations.UnderstoryState : Prop := UnderstoryLinksAndGroupsHold ∧ SyncCountersHold

/-! ### The Saloa memory space, transport queues and the port schedulers (R185 to R257) -/

/-- The registers that set up the Saloa space (R188 to R190, R208): the registration table goes into force over a valid region
that can hold it, a protection domain takes its glade and becomes valid, a glade without windows, queues or registrations
takes a tenant number, and the lock bit is set. Readings of the model that clauses follow: log entry 19. Completion: under
premises on the state and the operands alone, a clause concludes that exec answers a next state with the command's own effect,
for rktEnable, pdWrite, ftnWrite and fabSalLockSet. -/
def Obligations.SaloaTables : Prop :=
  ∀ (s : State), s.noImage = false →
    (∀ v : BitVec 64, s.flag FAB_SAL_RKT_CFG.ENABLE = false → s.flag FAB_SAL_LOCK.LOCKED = false → bitOf v.toNat 24 = true →
      10 ≤ bitsOf v.toNat 16 5 → bitsOf v.toNat 16 5 ≤ 20 → s.flag MEM_RGN_A.VALID (bitsOf v.toNat 0 10) = true →
      32 * 2 ^ bitsOf v.toNat 16 5 ≤ rgnLen s (bitsOf v.toNat 0 10) →
      Answers (Machine.exec (.rktEnable v) s) fun t =>
        t.flag FAB_SAL_RKT_CFG.ENABLE = true ∧ t.rd FAB_SAL_RKT_CFG.REGION = bitsOf v.toNat 0 10
          ∧ t.rd FAB_SAL_RKT_CFG.LOG2N = bitsOf v.toNat 16 5 ∧ SameRegsBut [FAB_SAL_RKT_CFG.ENABLE.addr 0] s t
          ∧ SameMemory s t) ∧
    (∀ (p : Fin 4096) (v : BitVec 64), s.flag FAB_SAL_PD.VALID p = false → bitOf v.toNat 0 = true →
      Answers (Machine.exec (.pdWrite p v) s) fun t =>
        t.flag FAB_SAL_PD.VALID p = true ∧ t.rd FAB_SAL_PD.GLADE p = bitsOf v.toNat 8 8
          ∧ SameRegsBut [FAB_SAL_PD.VALID.addr p] s t ∧ SameMemory s t) ∧
    (∀ (p : Fin 4096) (v : BitVec 64), s.flag FAB_SAL_PD.VALID p = true → bitOf v.toNat 0 = false →
      s.rd FAB_SAL_PD.USERS p ≠ 0 →
      Answers (Machine.exec (.pdWrite p v) s) fun t => t.flag FAB_SAL_PD.VALID p = true ∧ SameRegsBut [] s t) ∧
    (∀ (g : Fin 256) (v : BitVec 16), gladeFabricUse s g = false →
      Answers (Machine.exec (.ftnWrite g v) s) fun t =>
        t.ftn g = v.toNat ∧ SameRegsBut [FAB_SAL_FTN.FTN.addr g] s t ∧ SameMemory s t) ∧
    Answers (Machine.exec .fabSalLockSet s) (fun t =>
      t.flag FAB_SAL_LOCK.LOCKED = true ∧ SameRegsBut [FAB_SAL_LOCK.LOCKED.addr 0] s t ∧ SameMemory s t)

/-- Initiator queue `q` is active, and the first of its commands not yet started is `c` with opcode `op`, which waits for
nothing and has no FENCE (R195). -/
abbrev SalReady (s : State) (q op : Nat) (c : Cmd) : Prop :=
  (s.queue (salQid q)).valid = true ∧ (s.queue (salQid q)).kind = false ∧ (s.queue (salQid q)).state = .active
    ∧ (s.queue (salQid q)).cmds.find? (fun d => !d.started) = some c ∧ leAt c.bytes 0 1 = op ∧ c.waiting = false
    ∧ bitOf (leAt c.bytes 1 1) 3 = false

/-- A command for another device whose own checks pass and whose peer is open joins the peer's operations and leaves memory
alone (R195, R217, R220): for each of WRITE, WRITE_POST, READ, FADD, CAS and SEND. Readings of the model that clauses follow:
log entry 14. Completion: under premises on the state and the operands alone, a clause concludes that exec answers a next
state with the command's own effect, for write, writePost, read, fadd, cas and send. -/
def Obligations.SaloaRemoteCommands : Prop :=
  ∀ (q : Fin 65536), ∀ x ∈ [(1, Instr.write q), (2, .writePost q), (3, .read q), (4, .fadd q), (5, .cas q), (6, .send q)],
    ∀ (s : State) (c : Cmd), SalReady s q x.1 c →
    salLocal s q c.bytes = St.success → globalDev (leAt c.bytes 32 8) ≠ s.devNum →
    let d := globalDev (leAt c.bytes 32 8)
    fabKeyed s d = true → (s.peer d).state = Ps.open_ →
    Answers (Machine.exec x.2 s) fun t =>
      (∃ o, (t.peer d).ops = (s.peer d).ops ++ [o] ∧ o.owner = .cmd (salQid q) c.entry ∧ o.kind = x.1
          ∧ o.msg = (s.peer d).nextMsg ∧ o.len = leAt c.bytes 44 4 ∧ o.laddr = leAt c.bytes 24 8)
        ∧ (t.peer d).nextMsg = ((s.peer d).nextMsg + 1) % 2 ^ 32
        ∧ (∃ x ∈ (t.queue (salQid q)).cmds, x.entry = c.entry ∧ x.started = true) ∧ SameMemory s t

/-- A command for the device itself is served at once (R186, R192, R197): the key check at the target passes, the bytes are
written or read, an atomic leaves its old value at LADDR, WRITE_POST adds to its counter, and SEND fills a posted buffer and will
complete once the receive entry is written (R199). `u` is the state in which the keys have been looked up (R193). -/
def SaloaOwnCommandsHold : Prop :=
  ∀ (s : State) (q : Fin 65536) (c : Cmd), salLocal s q c.bytes = St.success →
    globalDev (leAt c.bytes 32 8) = s.devNum →
    let ftn := salFtn s q
    let key := leAt c.bytes 40 4
    let a := globalOff (leAt c.bytes 32 8)
    let len := leAt c.bytes 44 4
    let g := (s.regEntry (keyIndex key)).glade
    let land := fun (s : State) (l : List Byte) => s.gladeWrite (s.queueGlade (salQid q)) (leAt c.bytes 24 8) l
    let u0 := if len = 0 then s else noteLookup s (leAt c.bytes 8 4)
    let u := noteLookup u0 key
    (SalReady s q 1 c → keyCheck s key ftn none (some Rt.write) a (salBytes s c).length = 0 →
      let w := u.gladeWrite g a (salBytes s c)
      w.2 = St.success → NoneHeld s w.1 →
      Answers (Machine.exec (.write q) s) fun t => t.mem = w.1.mem ∧ EndedWith (salQid q) c St.success len t) ∧
    (SalReady s q 2 c → keyCheck s key ftn none (some Rt.write) a (salBytes s c).length = 0 →
      let w := u.gladeWrite g a (salBytes s c)
      let ctr := leAt c.bytes 48 2
      w.2 = St.success → NoneHeld s w.1 → s.ustStopped = false → w.1.ctrGranted ctr (w.1.regEntry (keyIndex key)).glade = true →
      Answers (Machine.exec (.writePost q) s) fun t =>
        t.mem = w.1.mem ∧ t.ctr ctr = (s.ctr ctr + leAt c.bytes 56 8) % 2 ^ 64 ∧ EndedWith (salQid q) c St.success len t) ∧
    (SalReady s q 3 c → keyCheck s key ftn none (some Rt.read) a len = 0 → (u.gladeRead g a len).2 = St.success →
      let w := land u (s.bytes a len)
      w.2 = St.success → NoneHeld s w.1 →
      Answers (Machine.exec (.read q) s) fun t => t.mem = w.1.mem ∧ EndedWith (salQid q) c St.success len t) ∧
    (SalReady s q 4 c → keyCheck s key ftn none (some Rt.atomic) a 8 = 0 → tileAt a = none →
      (u.gladeRead g a 8).2 = St.success →
      let old := leNat (s.bytes a 8)
      let w := u.gladeWrite g a (toLe 8 ((old + leAt c.bytes 48 8) % 2 ^ 64))
      let v := land w.1 (toLe 8 old)
      w.2 = St.success → v.2 = St.success → NoneHeld s v.1 →
      Answers (Machine.exec (.fadd q) s) fun t => t.mem = v.1.mem ∧ EndedWith (salQid q) c St.success len t) ∧
    (SalReady s q 5 c → keyCheck s key ftn none (some Rt.atomic) a 8 = 0 → tileAt a = none →
      (u.gladeRead g a 8).2 = St.success →
      let old := leNat (s.bytes a 8)
      let w := u.gladeWrite g a (toLe 8 (if old = leAt c.bytes 48 8 then leAt c.bytes 56 8 else old))
      let v := land w.1 (toLe 8 old)
      w.2 = St.success → v.2 = St.success → NoneHeld s v.1 →
      Answers (Machine.exec (.cas q) s) fun t => t.mem = v.1.mem ∧ EndedWith (salQid q) c St.success len t) ∧
    (∀ (r : Nat) (b : Cmd), SalReady s q 6 c → r = leAt c.bytes 48 8 → r < 65536 → sendAllowed s (salQid r) ftn = true →
      replyGlade s r = none → (s.queue (salQid r)).cmds.find? (fun d => !d.started) = some b →
      AtHand s (.queue (salQid r)) →
      let v := (touchCtx u0 (.queue (salQid r))).setCmd (salQid r) { b with started := true }
      bufferStatus v (salQid r) b = St.success → len ≤ leAt b.bytes 12 4 →
      let w := (noteLookup v (leAt b.bytes 8 4)).gladeWrite (s.queueGlade (salQid r)) (leAt b.bytes 0 8) (salBytes s c)
      w.2 = St.success → NoneHeld s w.1 →
      Answers (Machine.exec (.send q) s) fun t =>
        t.mem = w.1.mem ∧ (∃ d ∈ (t.queue (salQid q)).cmds, d.entry = c.entry ∧ d.started = true)
          ∧ ∃ d ∈ (t.queue (salQid r)).due, d.word0 = len ∧ d.status = St.success ∧ d.entry = b.entry
              ∧ d.mid = s.devNum + 65536 * ftn ∧ d.tell = some (.cmd (salQid q) c.entry St.success len))

/-- A SEND of this device that found no buffer for 1 to 2 ms completes with RESOURCE_EXHAUSTED (R200). -/
def SendRetryExpiresHold : Prop :=
  ∀ (s : State) (q : Fin 65536) (e : Nat) (c : Cmd), s.fab.selfRefused.find? (fun k => k.1 == salQid q) = some (salQid q, e) →
    (s.queue (salQid q)).kind = false → (s.queue (salQid q)).cmdAt e = some c →
    Answers (Machine.exec (.sendRetryExpire q) s) fun t =>
      EndedWith (salQid q) c St.resourceExhausted 0 t ∧ (salQid q, e) ∉ t.fab.selfRefused ∧ SameMemory s t

/-- The port schedulers (R245 to R252): a decision sends the control packet at the head of its port's line before anything
else, and with no data waiting the first response that may go, which takes its peer's next PSN; the end of an interval sets
AVAIL from what has been sent ahead and starts counting again. -/
def SchedulerDecisionsHold : Prop :=
  ∀ (s : State) (p : Fin 16),
    (∀ (c : Ctl) (rest : List Ctl), s.rd FAB_PORT.STATE p = 3 → Tab.get [] s.fab.control p = c :: rest →
      ctxCached s (.peer c.device) = true → (s.peer c.device).state = Ps.open_ → (s.peer c.device).xseq + 1 ≠ 2 ^ 47 →
      Answers (Machine.exec (.schedulerDecision p) s) fun t =>
        Tab.get [] t.fab.control p = rest ∧ (∃ b, t.out.getLast? = some (.packet p c.device b)) ∧ SameMemory s t) ∧
    (∀ (d : Nat) (k : Pkt), s.rd FAB_PORT.STATE p = 3 → Tab.get [] s.fab.control p = [] → s.fab.flows = [] →
      (∀ x ∈ s.peers, x.2.resends = []) → nextResponse s p = some (d, k) → k.psn = none →
      k.out = none → ctxCached s (.peer d) = true →
      Answers (Machine.exec (.schedulerDecision p) s) fun t =>
        (t.peer d).nextPsn = ((s.peer d).nextPsn + 1) % 2 ^ 48 ∧ (t.peer d).unacked.length = (s.peer d).unacked.length + 1
          ∧ t.fab.responses = s.fab.responses.erase (d, k) ∧ (∃ b, t.out.getLast? = some (.packet p d b))
          ∧ SameMemory s t) ∧
    Answers (Machine.exec .schedInterval s) (fun t =>
      t.rd SCH_PORT_STAT.AVAIL p = 400000 - 8000 * Tab.get 0 s.sched.ahead p / 1048576
        ∧ Tab.get 0 t.sched.ahead p = 0 ∧ SameMemory s t)

/-- The nodes and policers of the schedulers (R247, R249, R250, R254): writes of a node's registers, a policer's parameters
with full buckets, a binding that is taken for the node's own glade and refused for another, and a held packet that is metered
again once it would pass. -/
def SchedulerNodesHold : Prop :=
  ∀ (s : State), s.noImage = false →
    (∀ (n : Fin 4096) (v : BitVec 64), n.val < 256 →
      Answers (Machine.exec (.schNodeWrite false n false v) s) (fun t =>
        t.rd SCH_GLADE_A.MIN n = bitsOf v.toNat 0 20 ∧ t.rd SCH_GLADE_A.MAX n = bitsOf v.toNat 20 20
          ∧ t.rd SCH_GLADE_A.WEIGHT n = bitsOf v.toNat 40 8 ∧ t.rd SCH_GLADE_A.LAT_US n = bitsOf v.toNat 48 8
          ∧ SameRegsBut [SCH_GLADE_A.MIN.addr n] s t ∧ SameMemory s t)) ∧
    (∀ (n : Fin 4096) (v : BitVec 64),
      Answers (Machine.exec (.schNodeWrite true n false v) s) (fun t =>
        t.rd SCH_INST_A.MIN n = bitsOf v.toNat 0 20 ∧ t.rd SCH_INST_A.MAX n = bitsOf v.toNat 20 20
          ∧ t.rd SCH_INST_A.WEIGHT n = bitsOf v.toNat 40 8 ∧ SameRegsBut [SCH_INST_A.MIN.addr n] s t ∧ SameMemory s t)) ∧
    (∀ (k : Fin 1024) (v : BitVec 64), s.fab.flows = [] → (∀ x ∈ s.peers, x.2.resends = []) →
      Answers (Machine.exec (.policerWrite k true v) s) fun t =>
        t.rd SCH_POL_B.CBS k = bitsOf v.toNat 0 24 ∧ t.rd SCH_POL_B.EBS_PBS k = bitsOf v.toNat 24 24
          ∧ Tab.get {} t.sched.buckets k
              = { tc := 8000 * bitsOf v.toNat 0 24, te := 8000 * bitsOf v.toNat 24 24, time := s.now }
          ∧ SameRegsBut [SCH_POL_B.CBS.addr k] s t ∧ SameMemory s t) ∧
    (∀ (n : Fin 4096) (v : BitVec 64), n.val < 256 →
      (s.rd SCH_POL_A.GLADE (bitsOf v.toNat 24 10) = n.val →
        Answers (Machine.exec (.policerBind false n v) s) fun t =>
          t.flag SCH_GLADE_B.POL_EN n = true ∧ t.rd SCH_GLADE_B.POLICER n = bitsOf v.toNat 24 10
            ∧ SameRegsBut [SCH_GLADE_B.CAP.addr n] s t) ∧
      (s.rd SCH_POL_A.GLADE (bitsOf v.toNat 24 10) ≠ n.val →
        Answers (Machine.exec (.policerBind false n v) s) fun t =>
          t.flag SCH_GLADE_B.POL_EN n = false ∧ t.flag SCH_STATUS.BIND_REFUSED = true
            ∧ SameRegsBut [SCH_GLADE_B.CAP.addr n, SCH_STATUS.BIND_REFUSED.addr 0] s t)) ∧
    (∀ (k : Fin 1024) (f : Flow) (d : Nat) (x : Pkt), s.fab.flows = [(f, [(d, x)])] → (∀ y ∈ s.peers, y.2.resends = []) →
      (s.peer d).port < 16 → x.heldBy = some k.val → x.psn = none →
      (colourOf s k (counted s (s.peer d).port x.plen) (heldInput s k x)).1 ≠ 2 →
      Answers (Machine.exec (.policerRelease k) s) fun t =>
        t.fab.flows = [(f, [(d, (policed s k (counted s (s.peer d).port x.plen) x (heldInput s k x)).2.1)])]
          ∧ Tab.get {} t.sched.buckets k = (colourOf s k (counted s (s.peer d).port x.plen) (heldInput s k x)).2
          ∧ SameMemory s t)

/-- Memory-space commands on the device itself, and the end of a SEND that waits for a receiver. Readings of the model that
clauses follow: log entry 14. Completion: under premises on the state and the operands alone, a clause concludes that exec
answers a next state with the command's own effect, for write, writePost, read, fadd, cas, send and sendRetryExpire. -/
def Obligations.SaloaLocalCommands : Prop := SaloaOwnCommandsHold ∧ SendRetryExpiresHold

/-- What the scheduler sends, and the reservations of its nodes. Readings of the model that clauses follow: log entry 15.
Completion: under premises on the state and the operands alone, a clause concludes that exec answers a next state with the
command's own effect, for schedulerDecision, schedInterval, schNodeWrite, policerWrite, policerBind and policerRelease. -/
def Obligations.Scheduler : Prop := SchedulerDecisionsHold ∧ SchedulerNodesHold

/-! ### Storage queues (R296 to R318) -/

/-- Storage queue `q` is active, and the first of its commands not yet started is `c` with opcode `op`, which waits for nothing
and holds tag `k` (R298). -/
abbrev StqReady (s : State) (q op : Nat) (c : Cmd) (k : Nat) : Prop :=
  (s.queue (stqQid q)).state = .active ∧ (s.queue (stqQid q)).cmds.find? (fun d => !d.started) = some c
    ∧ (s.queue (stqQid q)).cmdAt c.entry = some c ∧ leAt c.bytes 0 1 = op ∧ c.waiting = false
    ∧ tagOf s q c.entry = some k

/-- No FLUSH of storage queue `q` is in progress. -/
abbrev NoFlush (s : State) (q : Nat) : Prop :=
  ∀ x ∈ (s.queue (stqQid q)).cmds, x.started = true → leAt x.bytes 0 1 ≠ 3

/-- I/O commands on a volume in device DRAM, with one buffer and no fence to wait for (R301, R302, R305, R308, R309): READ
returns the blocks to the host, WRITE and DEALLOCATE leave them in memory, and FLUSH completes once every fence it needs has
been answered; each completes with the number of blocks. Readings of the model that clauses follow: log entry 16. Completion:
under premises on the state and the operands alone, a clause concludes that exec answers a next state with the command's own
effect, for stqRead, stqWrite, flush and deallocate. -/
def Obligations.StorageLocal : Prop :=
  ∀ (s : State) (q : Fin 8192) (c : Cmd) (k : Nat),
    let l := c.bytes
    let v := (s.stqTag q k).vol
    let i := (s.queue (stqQid q)).inst
    let lba := leAt l 24 8
    let n := leAt l 32 4
    let quick := bitOf (leAt l 1 1) 3 = false ∨ s.flag MEM_RGN_A.MIRROR v.region = false
    (∀ r, StqReady s q 1 c k → v.local_ = true → v.encrypt = false → bitOf (leAt l 1 1) 4 = false →
      bitOf (leAt l 1 1) 5 = false → s.hostOn i = true → s.flag HEP_PORT_STAT.ATS_EN (s.homePort i) = false → 1 ≤ n →
      (∀ j, j < n → s.memBad (v.addr s (lba + j)) v.bs = false) →
      Answers (Machine.exec (.stqRead q r) s) fun t =>
        .hostWrite (s.homePort i) (s.pasidOf i) (leAt l 40 8) (s.bytes (v.addr s lba) (n * v.bs)) false
            (dataRelaxed s (s.homePort i)) ∈ t.out
          ∧ EndedWith (stqQid q) c St.success n t) ∧
    (∀ r b, StqReady s q 2 c k → NoFlush s q → v.local_ = true → bitOf (leAt l 1 1) 4 = false → quick →
      (bitOf (leAt l 1 1) 5 = true →
        s.inGladeRgn (s.queueGlade (stqQid q)) (leAt l 40 8) (n * v.bs) = true →
        (s.gladeRead (s.queueGlade (stqQid q)) (leAt l 40 8) (n * v.bs)).2 = St.success →
        let w := putBlocks s v lba (sealBlocks s v lba (s.bytes (leAt l 40 8) (n * v.bs)))
        w.2 = St.success → NoneHeld s w.1 →
        Answers (Machine.exec (.stqWrite q r b) s) fun t => t.mem = w.1.mem ∧ EndedWith (stqQid q) c St.success n t)) ∧
    (∀ r b, StqReady s q 2 c k → NoFlush s q → v.local_ = true → bitOf (leAt l 1 1) 4 = false → quick →
      bitOf (leAt l 1 1) 5 = false → s.hostOn i = true → s.instReady i = true →
      let u := s.instRead i (leAt l 40 8) (n * v.bs) (.data b)
      let w := putBlocks u v lba (sealBlocks u v lba (bytesAt b 0 (n * v.bs)))
      w.2 = St.success → NoneHeld s w.1 →
      Answers (Machine.exec (.stqWrite q r (.data b)) s) fun t =>
        t.mem = w.1.mem ∧ EndedWith (stqQid q) c St.success n t) ∧
    (StqReady s q 4 c k → NoFlush s q → v.local_ = true → quick →
      let w := putBlocks s v lba (List.replicate (n * v.bs) 0)
      w.2 = St.success → NoneHeld s w.1 →
      Answers (Machine.exec (.deallocate q) s) fun t => t.mem = w.1.mem ∧ EndedWith (stqQid q) c St.success n t) ∧
    (StqReady s q 3 c k → s.ended = [] → (s.stqTag q k).flushing = false → (s.stqTag q k).status = St.success →
      (∀ p ∈ (s.stqTag q k).covered, stillRuns s q p = false) →
      (∀ x ∈ s.dirtyOf q, leAt l 8 2 = 0xFFFF ∨ x = leAt l 8 2 →
        (volOf s x).local_ = true ∧ fenceStatus s (volOf s x).region (fenceSeq s) = some St.success) →
      Answers (Machine.exec (.flush q) s) fun t =>
        EndedWith (stqQid q) c St.success 0 t ∧ (∀ x ∈ t.dirtyOf q, leAt l 8 2 ≠ 0xFFFF ∧ x ≠ leAt l 8 2)
          ∧ SameMemory s t)

/-- READ, WRITE and DEALLOCATE of a remote volume become a volume message to its service (R306, R307), here on another device
whose peer is open: the command starts, its tag waits for the reply, and one SEND of 64 bytes joins the peer's operations.
Readings of the model that clauses follow: log entry 16. Completion: under premises on the state and the operands alone, a
clause concludes that exec answers a next state with the command's own effect, for stqRead, stqWrite and deallocate. -/
def Obligations.StorageRemote : Prop :=
  ∀ (s : State) (q : Fin 8192) (c : Cmd) (k : Nat),
    let v := (s.stqTag q k).vol
    let good := fun t => (t.stqTag q k).sent = true
      ∧ (∃ x ∈ (t.queue (stqQid q)).cmds, x.entry = c.entry ∧ x.started = true)
      ∧ ∃ o, (t.peer v.dev).ops = (s.peer v.dev).ops ++ [o] ∧ o.owner = .cmd (stqQid q) c.entry ∧ o.kind = Pt.send
          ∧ o.len = 64
    v.local_ = false → s.flag STQ_GLADE_A.ENABLE v.glade = true → s.ftn v.glade ≠ 0 → v.dev ≠ s.devNum →
    fabKeyed s v.dev = true → (s.peer v.dev).state = Ps.open_ → s.ended = [] → bitOf (leAt c.bytes 1 1) 4 = false →
    (∀ r, StqReady s q 1 c k → (freeSlot s v.glade).isSome = true → Answers (Machine.exec (.stqRead q r) s) good) ∧
    (∀ r b j, StqReady s q 2 c k → freeSlot s v.glade = some j → bitOf (leAt c.bytes 1 1) 5 = true →
      let n := leAt c.bytes 32 4 * v.bs
      s.inGladeRgn (s.queueGlade (stqQid q)) (leAt c.bytes 40 8) n = true →
      (s.gladeRead (s.queueGlade (stqQid q)) (leAt c.bytes 40 8) n).2 = St.success → (∀ r ∈ s.rings, r.2.todo = []) →
      let u := (takeSlot s q k).1
      let w := u.writeMem (slotAddr u v.glade j) (sealBlocks u v (leAt c.bytes 24 8) (s.bytes (leAt c.bytes 40 8) n))
      w.2 = St.success → NoneHeld s w.1 →
      Answers (Machine.exec (.stqWrite q r b) s) good) ∧
    (StqReady s q 4 c k → Answers (Machine.exec (.deallocate q) s) good)

/-- Admin commands (R311, R312): IDENTIFY returns the device's data, GET_LOG the error log, GET_FEATURE and SET_FEATURE a
feature of the instance. Readings of the model that clauses follow: log entry 16. Completion: under premises on the state and
the operands alone, a clause concludes that exec answers a next state with the command's own effect, for identify, getLog,
getFeature and setFeature. -/
def Obligations.StorageAdmin : Prop :=
  ∀ (s : State) (q : Fin 8192) (c : Cmd) (k : Nat), (s.queue (stqQid q)).kind = true → NoFlush s q →
    let i := (s.queue (stqQid q)).inst
    let sent := fun (b : List Byte) (t : State) => .hostWrite (s.homePort i) (s.pasidOf i) (leAt c.bytes 40 8) b false
      (dataRelaxed s (s.homePort i)) ∈ t.out
    (StqReady s q 0x81 c k → leAt c.bytes 24 1 = 0 → s.hostOn i = true →
      s.flag HEP_PORT_STAT.ATS_EN (s.homePort i) = false →
      Answers (Machine.exec (.identify q) s) fun t =>
        sent (padTo 4096
          (toLe 2 0x4160 ++ toLe 1 0xA1 ++ toLe 1 0
            ++ toLe 4 (65536 * s.rd BOOT_IFVER.DEV_MAJOR + s.rd BOOT_IFVER.DEV_MINOR) ++ toLe 4 1048576 ++ toLe 2 32
            ++ toLe 2 64 ++ toLe 2 (gladeVolumes s (s.queueGlade (stqQid q))).length)) t
          ∧ EndedWith (stqQid q) c St.success 0 t ∧ SameMemory s t) ∧
    (StqReady s q 0x82 c k → leAt c.bytes 24 1 = 1 → s.hostOn i = true →
      s.flag HEP_PORT_STAT.ATS_EN (s.homePort i) = false →
      let l := ((s.stqInst i).errors.take 64).flatMap StqError.bytes
      Answers (Machine.exec (.getLog q) s) fun t =>
        sent (l.take (leAt c.bytes 32 4)) t ∧ EndedWith (stqQid q) c St.success (min (leAt c.bytes 32 4) l.length) t
          ∧ SameMemory s t) ∧
    (StqReady s q 0x83 c k →
      Answers (Machine.exec (.getFeature q) s) fun t =>
        EndedWith (stqQid q) c St.success
          (if leAt c.bytes 24 1 = 1 then (s.stqInst i).holdoff else b2n (s.stqInst i).raise) t ∧ SameMemory s t) ∧
    (StqReady s q 0x84 c k → leAt c.bytes 24 1 = 1 →
      Answers (Machine.exec (.setFeature q) s) fun t =>
        (t.stqInst i).holdoff = leAt c.bytes 48 4 ∧ (t.stqInst i).raise = (s.stqInst i).raise
          ∧ EndedWith (stqQid q) c St.success (leAt c.bytes 48 4) t ∧ SameMemory s t)

/-- Volumes and staging (R304, R306, R307): a volume in device DRAM and a staging region that fit are put in force, clearing
VALID takes a volume out, and a slot leaves quarantine. -/
def StorageSetupHold : Prop :=
  (∀ (s : State) (v : Fin 4096) (w : BitVec 64), s.noImage = false → s.flag STQ_VOL_A.VALID v = false → bitOf w.toNat 1 = true →
    bitOf w.toNat 4 = false → s.gladeExists (bitsOf w.toNat 8 8) = true → s.feature 7 = true →
    let r := s.rd STQ_VOL_B.TARGET v % 1024
    s.flag MEM_RGN_A.VALID r = true → s.rd MEM_RGN_A.GLADE r = bitsOf w.toNat 8 8 → 1 ≤ s.rd STQ_VOL_C.CAPACITY v →
    s.rd STQ_VOL_C.CAPACITY v * (if bitOf w.toNat 2 then 4096 else 512) ≤ rgnLen s r →
    Answers (Machine.exec (.volumeValidSet v w) s) fun t =>
      t.flag STQ_VOL_A.VALID v = true ∧ t.flag STQ_VOL_A.BACKEND v = true ∧ t.rd STQ_VOL_A.GLADE v = bitsOf w.toNat 8 8
        ∧ t.flag STQ_VOL_A.READ_ONLY v = bitOf w.toNat 3 ∧ SameRegsBut [STQ_VOL_A.VALID.addr v] s t ∧ SameMemory s t) ∧
  (∀ (s : State) (v : Fin 4096), s.noImage = false → Answers (Machine.exec (.volumeValidClear v) s) fun t =>
    t.flag STQ_VOL_A.VALID v = false ∧ SameRegsBut [STQ_VOL_A.VALID.addr v] s t ∧ SameMemory s t) ∧
  (∀ (s : State) (g : Fin 256) (v : BitVec 64) (b : BitVec 16), s.noImage = false → s.flag STQ_GLADE_A.ENABLE g = false →
    bitOf v.toNat 0 = true →
    let r := bitsOf v.toNat 1 10
    s.flag MEM_RGN_A.VALID r = true → s.rd MEM_RGN_A.GLADE r = g.val → 0x200000 ≤ rgnLen s r →
    stageKeyOk s g (bitsOf v.toNat 32 32) r = true → s.queueExists (salQid b.toNat) = true →
    (s.queue (salQid b.toNat)).kind = true → s.queueGlade (salQid b.toNat) = g.val →
    Answers (Machine.exec (.stagingEnable g v b) s) fun t =>
      t.flag STQ_GLADE_A.ENABLE g = true ∧ t.rd STQ_GLADE_A.STAGE_RGN g = r ∧ t.rd STQ_GLADE_B.REPLY_Q g = b.toNat
        ∧ t.rd STQ_GLADE_B.SLOTS g = (rgnLen s r / 0x100000 - 1) % 2 ^ STQ_GLADE_B.SLOTS.width ∧ SameMemory s t) ∧
  (∀ (s : State) (g : Fin 256) (k : BitVec 16), Answers (Machine.exec (.slotQuarantineExpire g k) s) fun t =>
    (∀ x, x ∈ t.slotsOf g ↔ x ∈ s.slotsOf g ∧ ¬(x.slot = k.toNat ∧ x.quarantined = true)) ∧ SameMemory s t)

/-- What time does to storage commands (R307, R311, R314): a service that does not reply ends its command with
PEER_UNREACHABLE and an event, a drain that runs out ends what still runs with ACTIVATION_IN_PROGRESS, and the messages that
waited for a holdoff go out. -/
def StorageTimeoutsHold : Prop :=
  ∀ (s : State) (q : Fin 8192),
    (∀ (k : Fin 32) (e : Nat) (c : Cmd), (s.stqTag q k).entry = some e → (s.stqTag q k).sent = true →
      (s.queue (stqQid q)).cmdAt e = some c →
      ringsFor s (s.gladeOf (s.queue (stqQid q)).inst) (s.queue (stqQid q)).inst ≠ [] →
      Answers (Machine.exec (.serviceTimeout q k) s) fun t =>
        EndedWith (stqQid q) c St.peerUnreachable 0 t ∧ HasRecord 0x0E02 t) ∧
    (∀ (x : Queue) (c : Cmd), s.rd PWR_ACT.STATE = 3 → s.queues = [(stqQid q, x)] → x.cmds = [c] → s.fw.commit = none →
      Answers (Machine.exec .activationDrainTimeout s) fun t => EndedWith (stqQid q) c St.activationInProgress 0 t) ∧
    (∀ j : Fin 4096, (s.stqInst j).heldVectors ≠ [] →
      Answers (Machine.exec (.stqMsixHoldoffExpire j) s) fun t =>
        t.stqInst j = { s.stqInst j with heldVectors := [], lastMsg := some s.now } ∧ SameMemory s t)

/-- Volumes, storage queues and what time does to storage commands. Readings of the model that clauses follow: log entry 16.
Completion: under premises on the state and the operands alone, a clause concludes that exec answers a next state with the
command's own effect, for volumeValidSet, volumeValidClear, stagingEnable, serviceTimeout, slotQuarantineExpire,
activationDrainTimeout and stqMsixHoldoffExpire. -/
def Obligations.StorageSetupAndTime : Prop := StorageSetupHold ∧ StorageTimeoutsHold

/-! ### Security, keys and the seal engine (R319 to R344, R458) -/

/-- Starting a key command while none runs (R331, R332): the operation is held with the data of SEC_KEY_DATA, BUSY is set and
STATUS is 0x01; only SEC_KEY_CMD changes. -/
def KeyCommandsStartHold : Prop :=
  ∀ (s : State) (type : BitVec 2) (glade : BitVec 8) (slot kek : BitVec 16), s.noImage = false → fetchPaused s = false → secStopped s = false →
    s.flag SEC_KEY_CMD.BUSY = false →
    let data := (s.wordBytes SEC_KEY_DATA.BYTES 0 17).take 133
    let begun := fun (k : KeyOp) (t : State) => t.sec.keyOp = some k ∧ t.flag SEC_KEY_CMD.BUSY = true
      ∧ t.rd SEC_KEY_CMD.STATUS = 0x01 ∧ SameRegsBut [SEC_KEY_CMD.BUSY.addr 0] s t ∧ SameMemory s t
    Answers (Machine.exec (.loadPlain type glade slot) s)
      (begun { op := 1, type := type.toNat, glade := glade.toNat, slot := slot.toNat, kek := s.rd SEC_KEY_CMD.KEK,
               data := data }) ∧
    Answers (Machine.exec (.loadWrapped type glade slot kek) s)
      (begun { op := 2, type := type.toNat, glade := glade.toNat, slot := slot.toNat, kek := kek.toNat, data := data }) ∧
    Answers (Machine.exec (.ecdhKek glade slot) s)
      (begun { op := 3, type := 3, glade := glade.toNat, slot := slot.toNat, kek := s.rd SEC_KEY_CMD.KEK, data := data }) ∧
    Answers (Machine.exec (.erase glade slot) s)
      (begun { op := 4, type := s.rd SEC_KEY_CMD.TYPE, glade := glade.toNat, slot := slot.toNat,
               kek := s.rd SEC_KEY_CMD.KEK, data := data })

/-- A key command ends (R331): BUSY clears, STATUS is the operation's, SEC_KEY_DATA is cleared; LOAD_PLAIN puts a key that fits
into its free slot, and ERASE frees a slot that nothing names. -/
def KeyCommandsEndHold : Prop :=
  ∀ (s : State) (k : KeyOp), s.sec.keyOp = some k → k.slot < 65536 → k.glade < 256 → k.type < 4 →
    Answers (Machine.exec .keyCmdDone s) fun t =>
      t.sec.keyOp = none ∧ t.flag SEC_KEY_CMD.BUSY = false
        ∧ (∀ j, j < 17 → t.rd SEC_KEY_DATA.BYTES j = 0) ∧ SameMemory s t
        ∧ (k.op = 1 → slotFree s k.slot = true → k.type = 3 → s.gladeExists k.glade = true → mayTake s .keys k.glade 1 = true →
            t.rd SEC_KEY_CMD.STATUS = 0x02 ∧ t.rd SEC_KEY_SLOT.TYPE k.slot = k.type
              ∧ t.rd SEC_KEY_SLOT.GLADE k.slot = k.glade ∧ Tab.get [] t.sec.keys k.slot = k.data.take 32)
        ∧ (k.op = 4 → slotFree s k.slot = false → s.rd SEC_KEY_SLOT.GLADE k.slot = k.glade →
            volumeNames s k.slot = false → groupNames s k.slot = false →
            t.rd SEC_KEY_CMD.STATUS = 0x02 ∧ t.rd SEC_KEY_SLOT.TYPE k.slot = 0 ∧ Tab.get [] t.sec.keys k.slot = [])
        ∧ (k.op = 1 → slotFree s k.slot = false → t.rd SEC_KEY_CMD.STATUS = 0x09)

/-- Attestation and anti-rollback (R324, R325, R327, R328, R341): a report is begun for a glade that exists and its 512 bytes
are written when it is done; an advance is taken while a flash counter is in force, and refused otherwise, and when it is done
the minimum is the running image's version if that is more. -/
def AttestationAndRollbackHold : Prop :=
  ∀ (s : State),
    (∀ g : BitVec 8, s.noImage = false → fetchPaused s = false → s.flag SEC_ATT_CTRL.BUSY = false → secStopped s = false → s.noIdentity = false →
      s.gladeExists g.toNat = true →
      Answers (Machine.exec (.attestStart g) s) fun t =>
        t.sec.att = some (g.toNat, s.wordBytes SEC_ATT_NONCE.BYTES 0 8) ∧ t.flag SEC_ATT_CTRL.BUSY = true
          ∧ SameRegsBut [SEC_ATT_CTRL.BUSY.addr 0] s t ∧ SameMemory s t) ∧
    (∀ g nonce, s.sec.att = some (g, nonce) →
      Answers (Machine.exec .attestDone s) fun t =>
        (∀ j, j < 64 → t.rd SEC_ATT_REPORT.BYTES j = leAt (report s g nonce) (8 * j) 8) ∧ t.sec.att = none
          ∧ t.flag SEC_ATT_CTRL.BUSY = false ∧ t.rd SEC_ATT_CTRL.STATUS = 0x02 ∧ SameMemory s t) ∧
    (s.noImage = false → s.rd SEC_ROLLBACK.ADV_STATUS ≠ 0x01 → s.rd BOOT_STATE.STATE ≠ 7 → fetchPaused s = false →
      s.flag SEC_ROLLBACK.BASIS = true → s.fw.running ≠ [] → secStopped s = false → s.rd CLK_GROVE.STATE 3 ≠ 2 →
      Answers (Machine.exec .rollbackAdvance s) fun t =>
        t.rd SEC_ROLLBACK.ADV_STATUS = 0x01 ∧ SameRegsBut [SEC_ROLLBACK.ADV_STATUS.addr 0] s t ∧ SameMemory s t) ∧
    (s.noImage = false → s.rd SEC_ROLLBACK.ADV_STATUS ≠ 0x01 → s.flag SEC_ROLLBACK.BASIS = false →
      Answers (Machine.exec .rollbackAdvance s) fun t => t.rd SEC_ROLLBACK.ADV_STATUS = 0x03) ∧
    (s.rd SEC_ROLLBACK.ADV_STATUS = 0x01 →
      Answers (Machine.exec .advanceDone s) fun t =>
        t.rd SEC_ROLLBACK.MIN_SVN = max (s.rd SEC_ROLLBACK.MIN_SVN) s.runSvn ∧ t.rd SEC_ROLLBACK.ADV_STATUS = 0x02
          ∧ Recorded 0x0F04 (unitId 0xC 0) 0 0 0 (max (s.rd SEC_ROLLBACK.MIN_SVN) s.runSvn) s t ∧ SameMemory s t)

/-- The lock of the seal engine and its message buffer (R336, R341): a nonzero token takes a free lock, the holder's token
releases it and clears key and message, an idle lock is taken back with event 0x0F03, and message words are written. -/
def SealLockHold : Prop :=
  ∀ (s : State) (token : BitVec 16) (mgmt : Bool), s.noImage = false →
    (s.flag SEC_SEAL_LOCK.HELD = false → token ≠ 0 →
      Answers (Machine.exec (.sealLockTake token mgmt) s) fun t =>
        t.flag SEC_SEAL_LOCK.HELD = true ∧ t.rd SEC_SEAL_LOCK.TOKEN = token.toNat ∧ t.sec.sealMgmt = mgmt
          ∧ SameRegsBut [SEC_SEAL_LOCK.HELD.addr 0] s t ∧ SameMemory s t) ∧
    (s.flag SEC_SEAL_LOCK.HELD = true → s.rd SEC_SEAL_LOCK.TOKEN = token.toNat →
      Answers (Machine.exec (.sealLockRelease token) s) fun t =>
        t.flag SEC_SEAL_LOCK.HELD = false ∧ t.rd SEC_SEAL_LOCK.TOKEN = 0 ∧ t.sec.sealMsg = []
          ∧ (∀ j, j < 4 → t.rd SEC_SEAL_KEY.BYTES j = 0) ∧ SameMemory s t) ∧
    (s.flag SEC_SEAL_LOCK.HELD = true → s.flag SEC_SEAL_CTRL.BUSY = false →
      Answers (Machine.exec .sealLockExpire s) fun t =>
        t.flag SEC_SEAL_LOCK.HELD = false ∧ t.sec.sealMsg = []
          ∧ Recorded 0x0F03 (unitId 0xC 1) 0 0 0 (s.rd SEC_SEAL_LOCK.TOKEN) s t ∧ SameMemory s t) ∧
    (∀ (j : Fin 512) (v : BitVec 64),
      Answers (Machine.exec (.sealMsgWrite j v) s) fun t =>
        Tab.get 0 t.sec.sealMsg j = v.toNat ∧ (∀ i, i ≠ j.val → Tab.get 0 t.sec.sealMsg i = Tab.get 0 s.sec.sealMsg i)
          ∧ SameRegsBut [] s t ∧ SameMemory s t)

/-- Operations of the seal engine for the lock's holder while the engine is idle (R335, R337, R338): the first chunk of a SEAL
counts its slot up and begins with the counter, a VERIFY begins with the counter it checks, LOADKEY takes SEC_SEAL_KEY, and an
operation that ends leaves its MAC in SEC_SEAL_TAG or its key in the slot. -/
def SealOperationsHold : Prop :=
  ∀ (s : State) (token : BitVec 16) (slot : Fin 16) (len : BitVec 13) (more mgmt : Bool),
    s.noImage = false → sealHolder s token.toNat = true → s.flag SEC_SEAL_CTRL.BUSY = false → secStopped s = false →
    let begun := fun (o : SealOp) (t : State) => t.sec.sealOp = some o ∧ t.flag SEC_SEAL_CTRL.BUSY = true
      ∧ t.rd SEC_SEAL_CTRL.STATUS = 0x01 ∧ SameMemory s t
    let c := s.rd SEC_SEAL_SLOTCTR.VALUE slot
    (1 ≤ len.toNat → len.toNat ≤ 4096 → (sealKey s slot mgmt).isSome = true → sealOpen s 1 slot = none →
      c ≠ 2 ^ 64 - 1 →
      Answers (Machine.exec (.seal token slot len more mgmt) s) fun t =>
        begun { mode := 1, slot := slot, more := more, replay := false, bytes := toLe 8 (c + 1) ++ sealMessage s len.toNat } t
          ∧ t.rd SEC_SEAL_SLOTCTR.VALUE slot = c + 1 ∧ t.rd SEC_SEAL_CTR.VALUE = c + 1) ∧
    (∀ replay, 1 ≤ len.toNat → len.toNat ≤ 4096 → (sealKey s slot mgmt).isSome = true → sealOpen s 2 slot = none →
      Answers (Machine.exec (.sealVerify token slot len more replay mgmt) s) fun t =>
        begun { mode := 2, slot := slot, more := more, replay := replay,
                bytes := toLe 8 (s.rd SEC_SEAL_CTR.VALUE) ++ sealMessage s len.toNat } t) ∧
    (slot ≠ 0 →
      Answers (Machine.exec (.loadkey token slot) s)
        (begun { mode := 3, slot := slot, more := false, replay := false, bytes := s.wordBytes SEC_SEAL_KEY.BYTES 0 4 })) ∧
    (∀ o, s.sec.sealOp = some o → o.mode = 3 →
      Answers (Machine.exec .sealChunkDone s) fun t =>
        Tab.get [] t.sec.sealKeys o.slot = o.bytes ∧ t.flag SEC_SEAL_CTRL.BUSY = false ∧ t.rd SEC_SEAL_CTRL.STATUS = 0x02) ∧
    (∀ o, s.sec.sealOp = some o → o.mode = 1 → o.more = false →
      Answers (Machine.exec .sealChunkDone s) fun t =>
        (∀ j, j < 2 → t.rd SEC_SEAL_TAG.VALUE j = leAt (sealMac s o) (8 * j) 8) ∧ t.flag SEC_SEAL_CTRL.BUSY = false
          ∧ t.rd SEC_SEAL_CTRL.STATUS = 0x02 ∧ t.sec.sealOp = none)

/-- Fabric key groups and debug authentication (R334, R339, R340, R458): a group goes into force over two type 1 keys of glade
0, the lock bit is set, a challenge is made and used up by SUBMIT, the check unlocks its scope or counts a failure, and the
refusal of challenges ends. -/
def KeyGroupsAndDebugHold : Prop :=
  ∀ (s : State), s.noImage = false →
    (∀ (k : Fin 64) (v : BitVec 64), s.flag SEC_FAB_GRP_A.VALID k = false → bitOf v.toNat 32 = true →
      (∀ x ∈ [s.rd SEC_FAB_GRP_B.SLOT0 k, s.rd SEC_FAB_GRP_B.SLOT1 k],
        s.rd SEC_KEY_SLOT.TYPE x = 1 ∧ s.rd SEC_KEY_SLOT.GLADE x = 0) →
      Answers (Machine.exec (.fabKeyGroupWrite k false v) s) fun t =>
        t.flag SEC_FAB_GRP_A.VALID k = true ∧ t.rd SEC_FAB_GRP_A.LO k = bitsOf v.toNat 0 16
          ∧ t.rd SEC_FAB_GRP_A.HI k = bitsOf v.toNat 16 16 ∧ t.rd SEC_FAB_GRP_A.TX_SEL k = bitsOf v.toNat 33 1
          ∧ SameRegsBut [SEC_FAB_GRP_A.VALID.addr k] s t ∧ SameMemory s t) ∧
    (∀ (k : Fin 64) (v : BitVec 64), s.flag SEC_FAB_GRP_A.VALID k = false →
      Answers (Machine.exec (.fabKeyGroupWrite k true v) s) fun t =>
        t.rd SEC_FAB_GRP_B.SLOT0 k = bitsOf v.toNat 0 16 ∧ t.rd SEC_FAB_GRP_B.SLOT1 k = bitsOf v.toNat 16 16
          ∧ SameRegsBut [SEC_FAB_GRP_B.SLOT0.addr k] s t ∧ SameMemory s t) ∧
    Answers (Machine.exec .secDebugLockSet s) (fun t =>
      t.flag SEC_DEBUG.LOCK = true ∧ SameRegsBut [SEC_DEBUG.LOCK.addr 0] s t ∧ SameMemory s t) ∧
    (s.rd TRL_STATUS.AUTH ≠ 3 → secStopped s = false →
      Answers (Machine.exec .challenge s) fun t =>
        t.flag TRL_STATUS.CHAL_VALID = true ∧ t.fresh = s.fresh + 64 ∧ SameMemory s t) ∧
    (s.flag TRL_STATUS.CHAL_VALID = true → secStopped s = false → s.rd TRL_STATUS.AUTH ≠ 1 → s.rd TRL_STATUS.AUTH ≠ 3 →
      Answers (Machine.exec .submit s) fun t =>
        t.sec.debugOp = some (s.wordBytes TRL_AUTH_CHAL.BYTES 0 8, s.wordBytes TRL_AUTH_RESP.BYTES 0 21)
          ∧ t.flag TRL_STATUS.CHAL_VALID = false ∧ t.rd TRL_STATUS.AUTH = 1
          ∧ (∀ j, j < 21 → t.rd TRL_AUTH_RESP.BYTES j = 0) ∧ SameMemory s t) ∧
    (∀ chal resp, s.sec.debugOp = some (chal, resp) → s.sec.failures < 7 →
      Answers (Machine.exec .debugResponseChecked s) fun t =>
        t.sec.debugOp = none ∧ SameMemory s t
          ∧ (debugOk s chal resp = true →
              t.rd TRL_STATUS.AUTH = 0 ∧ t.rd TRL_STATUS.LOCK = (if bitOf (leAt resp 0 4) 8 then 2 else 1)
                ∧ t.sec.failures = 0)
          ∧ (debugOk s chal resp = false → t.rd TRL_STATUS.AUTH = 2 ∧ t.sec.failures = s.sec.failures + 1)) ∧
    (s.rd TRL_STATUS.AUTH = 3 →
      Answers (Machine.exec .debugRefusalExpire s) fun t =>
        t.rd TRL_STATUS.AUTH = 0 ∧ t.sec.failures = 0 ∧ SameRegsBut [TRL_STATUS.AUTH.addr 0] s t ∧ SameMemory s t)

/-- Key commands from their start to their end. Readings of the model that clauses follow: log entry 45. Completion: under
premises on the state and the operands alone, a clause concludes that exec answers a next state with the command's own effect,
for loadPlain, loadWrapped, ecdhKek, erase and keyCmdDone. -/
def Obligations.KeyCommands : Prop := KeyCommandsStartHold ∧ KeyCommandsEndHold

/-- The seal lock and seal operations. Readings of the model that clauses follow: log entry 45. Completion: under premises on
the state and the operands alone, a clause concludes that exec answers a next state with the command's own effect, for
sealLockTake, sealLockRelease, sealLockExpire, sealMsgWrite, seal, sealVerify, loadkey and sealChunkDone. -/
def Obligations.Sealing : Prop := SealLockHold ∧ SealOperationsHold

/-- Attestation, anti-rollback, key groups and debug authentication. Readings of the model that clauses follow: log entry 45.
Completion: under premises on the state and the operands alone, a clause concludes that exec answers a next state with the
command's own effect, for attestStart, attestDone, rollbackAdvance, advanceDone, fabKeyGroupWrite, secDebugLockSet, challenge,
submit, debugResponseChecked and debugRefusalExpire. -/
def Obligations.AttestationKeysAndDebug : Prop := AttestationAndRollbackHold ∧ KeyGroupsAndDebugHold

/-! ### Growth rings (R345 to R369) -/

/-- The first command of checkpoint queue `q` not yet started is `c`, with opcode `op`, and it waits for nothing. -/
abbrev CkpReady (s : State) (q op : Nat) (c : Cmd) : Prop :=
  ckpCmd s q op = some c ∧ (s.queue (ckpQid q)).cmdAt c.entry = some c

/-- Every other member of the group of ring `ri` has been sent a message about the ring. -/
def ToldAll (s : State) (ri step : Nat) (m : CkpMsg) (t : State) : Prop :=
  ∀ k, k < ringN s ri → k ≠ ringSelf s ri → .member (ri / 2) k step m ∈ t.out

/-- A message that carries bytes is on its way to member `k`: this device is that member, or the message waits with the last
packet of its bytes in the flow of the group's checkpoint queue (R243, R346, R358). -/
def OnItsWay (s : State) (ri k : Nat) (m : CkpMsg) (t : State) : Prop :=
  let dev := s.rd CKP_MEMBER.DEVNUM (32 * (ri / 2) + k)
  let o := Output.member (ri / 2) k (ringStep s ri) m
  (dev = s.devNum → o ∈ t.out) ∧
  (dev ≠ s.devNum →
    ∃ f ∈ t.fab.flows, f.1 = .ckp (s.rd CKP_GRP_A.QUEUE (ri / 2)) ∧ ∃ e ∈ f.2, e.1 = dev ∧ e.2.out = some o)

/-- Every other member of the group of ring `ri` is this device or has a context whose link key is loaded and that is neither
CLOSED nor UNREACHABLE, and no operation of a ring has ended unnoticed (R220, R226). -/
abbrev Reachable (s : State) (ri : Nat) : Prop :=
  (∀ k, k < ringN s ri → k ≠ ringSelf s ri →
    s.rd CKP_MEMBER.DEVNUM (32 * (ri / 2) + k) = s.devNum ∨
      (fabKeyed s (s.rd CKP_MEMBER.DEVNUM (32 * (ri / 2) + k)) = true
        ∧ (s.peer (s.rd CKP_MEMBER.DEVNUM (32 * (ri / 2) + k))).state ≠ Ps.none
        ∧ (s.peer (s.rd CKP_MEMBER.DEVNUM (32 * (ri / 2) + k))).state ≠ Ps.unreachable)) ∧
  s.ended = []

/-- No region in force is mirrored, a mirror target or closed to writes, and no ring has a granule left to copy: every write
takes effect at once and only where it is made (R88, R190, R354). -/
abbrev PlainWrites (s : State) : Prop :=
  (∀ i : Fin 1024, s.flag MEM_RGN_A.VALID i = true →
    s.flag MEM_RGN_A.MIRROR i = false ∧ s.flag MEM_RGN_A.MIRROR_TARGET i = false ∧ rgnClosed s i = false) ∧
  ∀ e ∈ s.rings, e.2.todo = []

/-- Some event ring in force takes the records of a ring group (R368). -/
abbrev GroupHeard (s : State) (g : Nat) : Prop :=
  ringsFor s (s.rd CKP_GRP_A.GLADE g) (s.queue (ckpQid (s.rd CKP_GRP_A.QUEUE g))).inst ≠ []

/-- A ring group (R346): a write with VALID of fields that fit a glade, its queue, its reserve and its members puts the group
in force, and a write whose seal slot is 0 is refused. -/
def RingGroupsHold : Prop :=
  ∀ (s : State) (g : Fin 16) (w : BitVec 64), s.noImage = false → s.flag CKP_GRP_A.VALID g = false →
    bitOf w.toNat 0 = true →
    let v := w.toNat
    let glade := bitsOf v 8 8
    let q := ckpQid (bitsOf v 16 8)
    let n := bitsOf v 24 6
    let p := bitsOf v 30 2
    let self := bitsOf v 32 5
    let rgn := bitsOf v 40 10
    (s.gladeExists glade = true → s.queueExists q = true → s.queueGlade q = glade → s.flag MEM_RGN_A.VALID rgn = true →
      s.rd MEM_RGN_A.GLADE rgn = glade → 0x4000000 + 0x100000 * s.rd CKP_GRP_B.PUSH_MIB g ≤ rgnLen s rgn →
      1 ≤ bitsOf v 50 4 → 2 ≤ n → n ≤ 32 → p = 1 ∨ p = 2 → p + 1 ≤ n → self < n →
      s.rd CKP_MEMBER.DEVNUM (32 * g + self) = s.devNum →
      Answers (Machine.exec (.ringGroupValidSet g w) s) fun t =>
        t.flag CKP_GRP_A.VALID g = true ∧ t.rd CKP_GRP_A.GLADE g = glade ∧ t.rd CKP_GRP_A.QUEUE g = bitsOf v 16 8
          ∧ t.rd CKP_GRP_A.MEMBERS g = n ∧ t.rd CKP_GRP_A.PARITY g = p ∧ t.rd CKP_GRP_A.SELF g = self
          ∧ t.rd CKP_GRP_A.RESERVE g = rgn ∧ t.rd CKP_GRP_A.SEAL_SLOT g = bitsOf v 50 4
          ∧ SameRegsBut [CKP_GRP_A.VALID.addr g] s t ∧ SameMemory s t) ∧
    (bitsOf v 50 4 = 0 →
      Answers (Machine.exec (.ringGroupValidSet g w) s) fun t =>
        t.flag CKP_GRP_A.VALID g = false ∧ t.flag CKP_STATUS.GRP_REFUSED = true ∧ SameMemory s t)

/-- Arming a ring (R349, R352, R356, R359): CAPTURE starts, its ring is ARMED with the items it names, and the step is known at
once, comes from this member's timer, or is awaited from member 0; the timer sets the step a lead ahead of the counter and
tells every other member. -/
def RingArmedHold : Prop :=
  ∀ (s : State),
    (∀ (q : Fin 256) (c : Cmd) (ri : Nat),
      let l := c.bytes
      let g := leAt l 2 1
      let started := fun t : State => (∃ x ∈ (t.queue (ckpQid q)).cmds, x.entry = c.entry ∧ x.started = true)
        ∧ t.rd CKP_RING_A.STATE ri = Rs.armed ∧ (t.ring ri).capture = some (ckpQid q, c.entry)
        ∧ (t.ring ri).items = (captureStatus s l).1 ∧ (t.ring ri).cmax = leAt l 56 8
        ∧ (t.ring ri).stepCtr = leAt l 26 2 ∧ (t.ring ri).trigCtr = leAt l 28 2 ∧ SameMemory s t
      CkpReady s q 1 c → (captureStatus s l).2 = St.success → freeRing s g = some ri → g < 16 → s.early g = [] →
      (leAt l 24 1 = 0 → stepDiff (s.ctr (leAt l 26 2)) (leAt l 40 8) ≤ 0 →
        Answers (Machine.exec (.capture q) s) fun t =>
          started t ∧ (t.ring ri).stepKnown = true ∧ t.rd CKP_RING_STEP.STEP ri = leAt l 40 8) ∧
      (leAt l 24 1 = 1 →
        Answers (Machine.exec (.capture q) s) fun t =>
          started t ∧ (t.ring ri).stepKnown = false
            ∧ (t.ring ri).timer = (if s.rd CKP_GRP_A.SELF g = 0 then some (leAt l 48 4, leAt l 52 4) else none))) ∧
    (∀ (g : Fin 16) (r : Fin 2) (period lead : Nat),
      let ri := 2 * g.val + r.val
      let step := (s.ctr (s.ring ri).stepCtr + lead) % 2 ^ 64
      (s.ring ri).timer = some (period, lead) → lead < 2 ^ 32 → (s.ring ri).stepCtr < 65536 → s.early g = [] →
      Answers (Machine.exec (.ckpTimerExpire g r) s) fun t =>
        t.rd CKP_RING_STEP.STEP ri = step ∧ (t.ring ri).stepKnown = true ∧ (t.ring ri).timer = none
          ∧ ToldAll s ri step .step t ∧ SameMemory s t)

/-- The trigger and the capture (R353, R354, R356, R357): when the step is reached and the reserve has room, the ring is
CAPTURING with its granules to copy in ascending address order, the trigger counter is posted and CKP_TRIGGERED is raised;
without room the ring is abandoned; each copy places one granule, padded, in the reserve and notes its hash, and the last
granule of the last item completes the CAPTURE. -/
def RingCaptureHold : Prop :=
  ∀ (s : State) (g : Fin 16) (r : Fin 2),
    let ri := 2 * g.val + r.val
    let x := s.ring ri
    let other := if r.val = 0 then 2 * g.val + 1 else 2 * g.val
    (ringState s ri = Rs.armed → x.stepKnown = true → 0 ≤ stepDiff (s.ctr x.stepCtr) (ringStep s ri) →
      (∀ e ∈ s.rings, ∀ i ∈ e.2.items, i.kind ≠ 3 ∧ i.port ≤ 1) → GroupHeard s g →
      (blocksNeeded s ri + ringHeld s other ≤ ringSpace s ri →
        Answers (Machine.exec (.ckpTrigger g r) s) fun t =>
          t.rd CKP_RING_A.STATE ri = Rs.capturing ∧ (t.ring ri).caps = captureBlocks x.items
            ∧ (t.ring ri).todo.length = (kind1Granules x.items).length
            ∧ (s.ctrGranted x.trigCtr (s.rd CKP_GRP_A.GLADE g) = true → s.ustStopped = false →
                t.ctr x.trigCtr = (s.ctr x.trigCtr + 1) % 2 ^ 64)
            ∧ HasRecord 0x1001 t ∧ SameMemory s t) ∧
      (ringSpace s ri < blocksNeeded s ri + ringHeld s other →
        Answers (Machine.exec (.ckpTrigger g r) s) fun t =>
          t.rd CKP_RING_A.STATE ri = Rs.abandoned ∧ ToldAll s ri (ringStep s ri) (.abandoned St.resourceExhausted) t
            ∧ HasRecord 0x1005 t ∧ SameMemory s t)) ∧
    (∀ (k n : Nat) (more : List (Nat × Nat)) (i : CkpItem), x.todo = (k, n) :: more → x.items[k]? = some i →
      s.memBad (i.addr + 65536 * n) (min 65536 (i.len - 65536 * n)) = false →
      let l := granuleBytes s i n
      let at_ := ringBlock s ri (granulePlace x.items k n)
      let w := s.putMem at_ l
      writeRule s at_ l.length = .go →
      ((∃ j, j ≠ n ∧ (k, j) ∈ more) →
        Answers (Machine.exec (.copyGranule g r) s) fun t =>
          (∀ a, t.byte a = w.1.byte a) ∧ (t.ring ri).todo = x.todo.filter (· ≠ (k, n))
            ∧ (∃ h ∈ (t.ring ri).hashes, h.item = k ∧ h.granule = n ∧ h.hash = Config.sha512t256 l)
            ∧ ringState t ri = ringState s ri) ∧
      (∀ (q : Fin 256) (e : Nat) (c : Cmd), more = [] → x.items = [i] → i.doneEn = false →
        ringState s ri = Rs.capturing → ringSelf s ri ∉ x.captured → x.capture = some (ckpQid q, e) →
        (s.queue (ckpQid q)).cmdAt e = some c → GroupHeard s g →
        Answers (Machine.exec (.copyGranule g r) s) fun t =>
          (∀ a, t.byte a = w.1.byte a) ∧ EndedWith (ckpQid q) c St.success (ringStep s ri % 2 ^ 32) t ∧ HasRecord 0x1002 t
            ∧ ToldAll s ri (ringStep s ri) .captured t))

/-- Staging (R357, R358, R359): deduplication chooses the winners among the hashes this member owns and tells every other
member how many stripes they make; when every member's shards are in place the ring is STAGED, its copies are freed and
CKP_STAGED is raised. -/
def RingStagingHold : Prop :=
  ∀ (s : State) (g : Fin 16) (r : Fin 2),
    let ri := 2 * g.val + r.val
    let x := s.ring ri
    let w := winnersOf x.seen
    ringState s ri = Rs.staging →
    (x.deduped = false → fetchPaused s = false → Reachable s ri → PlainWrites s →
      Answers (Machine.exec (.ckpDedupDone g r) s) fun t =>
        (t.ring ri).deduped = true ∧ (t.ring ri).owned = w.map (fun h => (h.member, h.item, h.granule))
          ∧ Tab.find (t.ring ri).counts (ringSelf s ri) = some (ceilDiv w.length (max (ringK s ri) 1))
          ∧ ToldAll s ri (ringStep s ri) (.stripes (ceilDiv w.length (max (ringK s ri) 1))) t
          ∧ ringState t ri = Rs.staging) ∧
    ((∀ k, k < ringN s ri → k ∈ x.placed) → GroupHeard s g →
      Answers (Machine.exec (.ckpStaged g r) s) fun t =>
        t.rd CKP_RING_A.STATE ri = Rs.staged ∧ (t.ring ri).caps = 0
          ∧ (t.ring ri).base = (x.base + x.caps) % max (ringSpace s ri) 1 ∧ HasRecord 0x1003 t ∧ SameMemory s t)

/-- DRAIN (R360 to R363): it starts, the ring is DRAINING and every other member is sent this member's part; the root writer
then counts the seal counter up, seals the root and writes it to its area, in a volume of this device, and the ring is SEALED. -/
def RingDrainHold : Prop :=
  ∀ (s : State),
    (∀ (q : Fin 256) (c : Cmd) (ri m : Nat),
      let l := c.bytes
      let g := leAt l 2 1
      CkpReady s q 2 c → ringAt s g (leAt l 24 8) Rs.staged = some ri → g < 16 →
      areaStatus s g (leAt l 32 2) (leAt l 40 8) (leAt l 48 8) = St.success →
      m ∈ partOrder (ringN s ri) (ringP s ri) (ringSelf s ri) → m ≠ ringSelf s ri → m ∉ (s.ring ri).absent →
      Tab.find (s.ring ri).parts m = none → Reachable s ri →
      Answers (Machine.exec (.ckpDrain q) s) fun t =>
        t.rd CKP_RING_A.STATE ri = Rs.draining ∧ (∃ x ∈ (t.queue (ckpQid q)).cmds, x.entry = c.entry ∧ x.started = true)
          ∧ (t.ring ri).drain = some
              { qid := ckpQid q, entry := c.entry, volume := leAt l 32 2, area := leAt l 40 8, ablks := leAt l 48 8 }
          ∧ (∀ k, k < ringN s ri → k ≠ ringSelf s ri →
              OnItsWay s ri k (.part (Tab.get 0 (s.ring ri).counts (ringSelf s ri)) (memberPart s ri)) t)
          ∧ SameMemory s t) ∧
    (∀ (g : Fin 16) (r : Fin 2) (d : CkpDrain) (q : Fin 256) (c : Cmd),
      let ri := 2 * g.val + r.val
      let slot := s.rd CKP_GRP_A.SEAL_SLOT g
      let n := s.rd SEC_SEAL_SLOTCTR.VALUE slot + 1
      let body := rootBody s ri d
      let v := volOf s d.volume
      let w := volumeWrite (s.wr SEC_SEAL_SLOTCTR.VALUE slot n) ri v (d.area * v.bs)
        (body ++ toLe 8 n ++ rootTag s g n body ++ List.replicate 16 0)
      (s.ring ri).drain = some d → d.qid = ckpQid q → (s.queue (ckpQid q)).cmdAt d.entry = some c →
      (∀ m, m < ringN s ri → m ∈ (s.ring ri).durable ∨ m ∈ (s.ring ri).absent) →
      rootWriter s ri = some (ringSelf s ri) → fetchPaused s = false → s.flag SEC_SEAL_LOCK.HELD = false →
      s.flag SEC_SEAL_CTRL.BUSY = false → Tab.get [] s.sec.sealKeys slot ≠ [] → n < 2 ^ 64 →
      d.rooted = false → v.local_ = true → s.ended = [] →
      (∀ e ∈ s.rings, e.2.todo = []) → w.2 = St.success → NoneHeld s w.1 → GroupHeard s g →
      Answers (Machine.exec (.ckpRootSealed g r) s) fun t =>
        t.rd CKP_RING_A.STATE ri = Rs.sealed ∧ t.rd SEC_SEAL_SLOTCTR.VALUE slot = n ∧ (∀ a, t.byte a = w.1.byte a)
          ∧ EndedWith (ckpQid q) c St.success 0 t ∧ HasRecord 0x1004 t ∧ ToldAll s ri (ringStep s ri) .sealed t)

/-- RESTORE and ABANDON (R349, R364, R365): RESTORE takes the roots that qualify newest first, writes the items of the first
that every member can restore, leaves the report in memory, and completes with the status and the step; ABANDON drops a ring
that is not yet STAGED on every member. Readings of the model that clauses follow: log entry 17. Completion: under premises on
the state and the operands alone, a clause concludes that exec answers a next state with the command's own effect, for restore
and abandon. -/
def Obligations.RingRestore : Prop :=
  ∀ (s : State) (q : Fin 256) (c : Cmd),
    let l := c.bytes
    let g := leAt l 2 1
    (∀ (areas : List (List (BitVec 8))) (agreed : List (BitVec 64)),
      let items := readItems s g (leAt l 48 8) (leAt l 25 1)
      let ar := readAreas s l areas
      let u := noteAreas s ar.1
      let roots := (ar.1.filterMap fun a => (rootOf u (2 * g) a).map fun r => (a, r)).foldr insertRoot []
      let w := tryRoots (2 * g) items.1 (agreed.map (·.toNat)) roots u []
      let z := w.1.write (leAt l 56 8) (reportBytes (if w.2.1 = St.success then w.2.2.1 else 2 ^ 64 - 1) w.2.2.2)
      CkpReady s q 3 c → items.2 = St.success → ar.2 = St.success → NoneHeld s z →
      s.inGladeRgn (s.rd CKP_GRP_A.GLADE g) (leAt l 56 8) 65536 = true →
      Answers (Machine.exec (.restore q areas agreed) s) fun t =>
        EndedWith (ckpQid q) c w.2.1 (if w.2.1 = St.success then w.2.2.1 % 2 ^ 32 else 0) t
          ∧ (∀ a, t.byte a = z.byte a)) ∧
    (∀ ri : Nat, CkpReady s q 4 c → g < 16 → ri = 2 * g ∨ ri = 2 * g + 1 →
      [2 * g, 2 * g + 1].find? (fun k => ringStep s k == leAt c.bytes 24 8 && decide (1 ≤ ringState s k)
        && decide (ringState s k ≤ 3)) = some ri → GroupHeard s g →
      Answers (Machine.exec (.abandon q) s) fun t =>
        t.rd CKP_RING_A.STATE ri = Rs.abandoned ∧ t.ring ri = {} ∧ EndedWith (ckpQid q) c St.success 0 t
          ∧ ToldAll s ri (ringStep s ri) (.abandoned Ck.abandoned) t ∧ HasRecord 0x1005 t ∧ SameMemory s t)

/-- Messages of other members (R357 to R363, R366): a message about a ring in force whose step is known takes effect on it; a
hash waits while an activation pauses deduplication, and the root writer's own SEALED comes from its write path. -/
def RingMessagesHold : Prop :=
  ∀ (s : State) (g : Fin 16) (m : Fin 32) (step : BitVec 64) (ri : Nat), s.flag CKP_GRP_A.VALID g = true →
    m.val < s.rd CKP_GRP_A.MEMBERS g → ri = 2 * g.val ∨ ri = 2 * g.val + 1 →
    [2 * g.val, 2 * g.val + 1].find? (fun k => ringLive s k && ringStep s k == step.toNat) = some ri → s.ended = [] →
    Answers (Machine.exec (.ckpMemberMessage g m step .placed) s) (fun t =>
      m.val ∈ (t.ring ri).placed ∧ SameRegsBut [CKP_RING_A.UNCOPIED.addr ri] s t ∧ SameMemory s t) ∧
    Answers (Machine.exec (.ckpMemberMessage g m step .durable) s) (fun t =>
      m.val ∈ (t.ring ri).durable ∧ SameRegsBut [CKP_RING_A.UNCOPIED.addr ri] s t ∧ SameMemory s t) ∧
    (∀ i n h, fetchPaused s = false → Answers (Machine.exec (.ckpMemberMessage g m step (.hash i n h)) s) fun t =>
      (t.ring ri).seen = (s.ring ri).seen ++ [{ member := m, item := i, granule := n, hash := h }] ∧ SameMemory s t) ∧
    (∀ st, Answers (Machine.exec (.ckpMemberMessage g m step (.abandoned st)) s) fun t =>
      t.rd CKP_RING_A.STATE ri = Rs.abandoned ∧ t.ring ri = {} ∧ SameMemory s t) ∧
    (ringState s ri = Rs.draining → m.val ≠ ringSelf s ri ∨ (s.ring ri).drain.any (·.rooted) = true → Answers (Machine.exec (.ckpMemberMessage g m step .sealed) s) fun t =>
      t.rd CKP_RING_A.STATE ri = Rs.sealed ∧ SameMemory s t)

/-- Checkpoint groups and the messages of growth rings. Readings of the model that clauses follow: log entry 17. Completion:
under premises on the state and the operands alone, a clause concludes that exec answers a next state with the command's own
effect, for ringGroupValidSet and ckpMemberMessage. -/
def Obligations.RingGroupsAndMessages : Prop := RingGroupsHold ∧ RingMessagesHold

/-- Arming a growth ring and capturing what is about to change. Readings of the model that clauses follow: log entry 17.
Completion: under premises on the state and the operands alone, a clause concludes that exec answers a next state with the
command's own effect, for capture, ckpTimerExpire, ckpTrigger and copyGranule. -/
def Obligations.RingArmAndCapture : Prop := RingArmedHold ∧ RingCaptureHold

/-- Staging a growth ring and draining it. Readings of the model that clauses follow: log entry 17. Completion: under premises
on the state and the operands alone, a clause concludes that exec answers a next state with the command's own effect, for
ckpDrain, ckpDedupDone, ckpStaged and ckpRootSealed. -/
def Obligations.RingStageAndDrain : Prop := RingStagingHold ∧ RingDrainHold

/-! ### The twin pair and mirrored regions (R88 to R90, R376 to R389) -/

/-- A frame that is opened under the twin key and comes from the twin under the pair epoch, on a device whose twin link is in
use (R377 to R379). -/
abbrev FromTwin (s : State) (f : TwinFrame) : Prop :=
  s.flag TWN_CFG.ENABLE = true ∧ s.twinKeyed = true ∧ f.authentic = true ∧ f.src.toNat = s.rd TWN_CFG.TWIN_DEV
    ∧ f.epoch.toNat = s.rd TWN_STATUS.PAIR_EPOCH ∧ twinQuadLost s f.port = false

/-- Nothing waits for a change of the pair state, for the twin's acknowledgements or in a memory controller. -/
abbrev NothingHeld (s : State) : Prop :=
  s.twin.held = [] ∧ s.dram.mirrorHeld = [] ∧ s.dram.held = [] ∧ ∀ x ∈ s.stq.tags, x.2.fences = []

/-- The pair state is `new`, and TWN_STATE tells of the change where a ring takes it (R381, R388). -/
def PairIs (new : Nat) (s t : State) : Prop :=
  t.pair = new ∧ (s.pair ≠ new → Listening s → HasRecord 0x1104 t)

/-- Every valid mirrored region is STALE. -/
def AllStale (s t : State) : Prop :=
  ∀ i, i < 1024 → s.flag MEM_RGN_A.VALID i = true → s.flag MEM_RGN_A.MIRROR i = true → t.flag MEM_RGN_A.STALE i = true

/-- Frames sent (R377, R379): a HEARTBEAT on a port whose lanes are up, and a MIRROR_ACK when writes wait for one, each under
the next COUNT with the last write applied; and everything not yet acknowledged again after 20 µs. -/
def TwinSendsHold : Prop :=
  ∀ (s : State), s.twinKeyed = true →
    let e := s.rd TWN_STATUS.PAIR_EPOCH
    let frame := fun (p type addr aux : Nat) =>
      let hdr := twinHeader type s.pair s.devNum e 0 s.twin.count addr aux
      Output.twinFrame p (twinEth s.devNum p ++ hdr
        ++ Config.gcmSeal s.twinKey (twinNonce s.devNum e s.twin.count) hdr [])
    (∀ p : Fin 2, s.pair ≠ Pair.unpaired → twinLanesUp s p = true → s.rd TWN_CNT.COUNT 0 < 2 ^ 64 - 1 →
      Answers (Machine.exec (.twinHeartbeatTick p) s) fun t =>
        t.out = s.out ++ [frame p 1 s.now s.twin.applied] ∧ t.twin = { s.twin with count := s.twin.count + 1 }
          ∧ t.rd TWN_CNT.COUNT 0 = s.rd TWN_CNT.COUNT 0 + 1 ∧ SameRegsBut [TWN_CNT.COUNT.addr 0] s t ∧ SameMemory s t) ∧
    (s.twin.toAck ≠ 0 →
      Answers (Machine.exec .mirrorAckTimer s) fun t =>
        t.out = s.out ++ [frame s.twinDataPort 3 0 s.twin.applied]
          ∧ t.twin = { s.twin with count := s.twin.count + 1, toAck := 0 } ∧ SameRegsBut [] s t ∧ SameMemory s t) ∧
    (twinLinkAlive s = true →
      Answers (Machine.exec .mirrorRetransmitTimer s) fun t =>
        t.out.length = s.out.length + s.twin.unacked.length
          ∧ t.twin = { s.twin with count := s.twin.count + s.twin.unacked.length } ∧ SameMemory s t)

/-- Frames received (R90, R377, R379, R383): a HEARTBEAT of the twin brings a pair that waits for it to PAIRED, the next write of
its stream is applied in order, and an acknowledgement removes the writes it covers, after which only copies of STALE regions
send more; a frame that does not open counts and does
nothing else. -/
def TwinReceivesHold : Prop :=
  ∀ (s : State) (f : TwinFrame),
    (FromTwin s f → NothingHeld s → s.twin.waiting = false → f.state.toNat ≠ Pair.takenOver →
      s.pair = Pair.pairing ∨ s.pair = Pair.degraded ∨ s.pair = Pair.suspect ∨ s.pair = Pair.isolated →
      Answers (Machine.exec (.heartbeat f) s) fun t =>
        PairIs Pair.paired s t ∧ t.rd TWN_STATUS.TWIN_STATE = f.state.toNat ∧ t.twinPortUp f.port = true
          ∧ SameMemory s t) ∧
    (FromTwin s f → s.pair ≠ Pair.degraded → (∀ e ∈ s.rings, e.2.todo = []) → 64 ≤ f.bytes.length →
      f.bytes.length ≤ 8192 → f.bytes.length % 64 = 0 → f.addr.toNat % 64 = 0 → f.seq.toNat = s.twin.applied + 1 →
      targetRegion s f.addr.toNat f.bytes.length = true →
      let good := fun (t : State) => (∀ a, t.byte a = (s.putMem f.addr.toNat f.bytes).1.byte a)
        ∧ t.twin.applied = f.seq.toNat
      Answers (Machine.exec (.mirrorWrite f) s) good ∧ Answers (Machine.exec (.resyncWrite f) s) good) ∧
    (FromTwin s f → s.pair ≠ Pair.degraded → NothingHeld s → f.aux.toNat < s.twin.nextSeq →
      Answers (Machine.exec (.mirrorAck f) s) fun t =>
        (∃ more, t.twin.unacked = s.twin.unacked.filter (fun w => decide (f.aux.toNat < w.seq)) ++ more
          ∧ (∀ w ∈ more, w.type = 4) ∧ (s.dram.resync = [] → more = [])) ∧ SameMemory s t) ∧
    (s.flag TWN_CFG.ENABLE = true → twinQuadLost s f.port = false → f.authentic = false →
      s.rd TWN_CNT.COUNT 2 < 2 ^ 64 - 1 →
      ∀ c ∈ [Instr.mirrorWrite f, .mirrorAck f, .resyncWrite f], Answers (Machine.exec c s) fun t =>
        t.rd TWN_CNT.COUNT 2 = s.rd TWN_CNT.COUNT 2 + 1 ∧ t.twin = s.twin ∧ SameRegsBut [TWN_CNT.COUNT.addr 2] s t
          ∧ SameMemory s t)

/-- The verdicts and the pair state (R380 to R384): the second port going down ends a pair whose fabric path is alive in
DEGRADED and one whose twin is silent in SUSPECT; a probe time draws the fabric verdict and sends a PROBE; a suspect device that
wins no majority is ISOLATED and tries again; a majority held for 1 ms takes over; and TWN_CTRL.PAIR begins PAIRING. On leaving
PAIRED for DEGRADED, TAKEN_OVER or PAIRING every mirrored region is STALE. -/
def TwinStatesHold : Prop :=
  ∀ (s : State), NothingHeld s →
    (∀ p : Fin 2, s.twinPortUp p = true → s.twinPortUp (1 - p.val) = false → s.pair = Pair.paired →
      (s.flag TWN_STATUS.FAB_ALIVE = true →
        Answers (Machine.exec (.twinPortTimeout p) s) fun t =>
          t.twinPortUp p = false ∧ PairIs Pair.degraded s t ∧ AllStale s t ∧ SameMemory s t) ∧
      (s.flag TWN_STATUS.FAB_ALIVE = false → s.rd TWN_CFG.WITNESSES = 0 →
        (∀ e ∈ s.ended, ∀ w, e.1 ≠ .witness w) →
        Answers (Machine.exec (.twinPortTimeout p) s) fun t =>
          t.twinPortUp p = false ∧ PairIs Pair.suspect s t ∧ t.twin.won = [] ∧ SameMemory s t)) ∧
    (s.pair = Pair.paired → twinLinkAlive s = true →
      let d := s.rd TWN_CFG.TWIN_DEV
      let x := s.peer d
      fabKeyed s d = true → x.state = Ps.open_ → x.port < 16 →
      Answers (Machine.exec .twinProbeTick s) fun t =>
        t.flag TWN_STATUS.FAB_ALIVE = fabricVerdict s ∧ t.twin.probeOut = true ∧ t.pair = Pair.paired
          ∧ Tab.get [] t.fab.control x.port = Tab.get [] s.fab.control x.port
              ++ [{ device := d, type := Pt.probe, epoch := x.epoch, psn := x.nextPsn, addr := 0, aux := 0, fresh := false,
                    ece := x.oweEce }]
          ∧ SameMemory s t) ∧
    (s.pair = Pair.suspect → s.twin.waiting = false →
      Answers (Machine.exec .grantTimeout s) fun t => PairIs Pair.isolated s t ∧ SameMemory s t) ∧
    (s.pair = Pair.isolated → s.twin.waiting = false → (∀ e ∈ s.ended, ∀ w, e.1 ≠ .witness w) →
      s.rd TWN_CNT.COUNT 6 < 2 ^ 64 - 1 →
      let a := s.rd TWN_WIT_ADDR.ADDR 0
      let d := globalDev a
      (s.rd TWN_CFG.WITNESSES = 0 →
        Answers (Machine.exec .isolatedRetryTick s) fun t =>
          t.rd TWN_CNT.COUNT 6 = s.rd TWN_CNT.COUNT 6 + 1 ∧ t.twin.won = [] ∧ t.pair = Pair.isolated ∧ SameMemory s t) ∧
      (s.rd TWN_CFG.WITNESSES = 1 → d ≠ s.devNum → fabKeyed s d = true → (s.peer d).state = Ps.open_ →
        Answers (Machine.exec .isolatedRetryTick s) fun t =>
          t.rd TWN_CNT.COUNT 6 = s.rd TWN_CNT.COUNT 6 + 1
            ∧ (∃ o, (t.peer d).ops = (s.peer d).ops ++ [o] ∧ o.owner = .witness 0 ∧ o.kind = Pt.cas) ∧ SameMemory s t)) ∧
    (s.twin.waiting = true → s.pair = Pair.suspect ∨ s.pair = Pair.isolated →
      Answers (Machine.exec .takeoverWaitExpire s) fun t =>
        PairIs Pair.takenOver s t ∧ t.twin.waiting = false ∧ AllStale s t ∧ SameMemory s t) ∧
    (∀ epoch : BitVec 16, s.noImage = false →
      (epoch ≠ 0 → s.rd TWN_CFG.WITNESSES ≠ 2 → s.pair = Pair.unpaired ∨ Pair.takenOver ≤ s.pair →
        Answers (Machine.exec (.pair epoch) s) fun t =>
          PairIs Pair.pairing s t ∧ t.rd TWN_STATUS.PAIR_EPOCH = epoch.toNat ∧ t.rd TWN_CTRL.EPOCH = epoch.toNat
            ∧ AllStale s t ∧ SameMemory s t) ∧
      (s.pair = Pair.paired ∨ s.pair = Pair.degraded ∨ s.pair = Pair.suspect →
        Answers (Machine.exec (.pair epoch) s) fun t =>
          t.pair = s.pair ∧ t.rd TWN_CTRL.EPOCH = epoch.toNat ∧ SameRegsBut [TWN_CTRL.EPOCH.addr 0] s t
            ∧ SameMemory s t)) ∧
    (s.noImage = false → Answers (Machine.exec .twnLockSet s) fun t =>
      t.flag TWN_LOCK.LOCKED = true ∧ SameRegsBut [TWN_LOCK.LOCKED.addr 0] s t ∧ SameMemory s t)

/-- Mirrored regions (R89, R90): a region of which the twin has acknowledged the whole copy is no longer STALE; a mirror fence is BUSY while
its region is mirrored, ends with SUCCESS once nothing of the region is outstanding, and with BAD_DESCRIPTOR at once for a region
that is not valid or not mirrored. -/
def MirroredRegionsHold : Prop :=
  ∀ (s : State) (r : Fin 1024),
    (r.val ∈ s.dram.resync → (∀ w ∈ s.twin.unacked, ¬(w.type = 4 ∧ w.region = r.val)) → copyLeft s r = 0 →
      ringsFor s (s.rd MEM_RGN_A.GLADE r) 0 ≠ [] →
      Answers (Machine.exec (.mirrorResyncDone r) s) fun t =>
        t.flag MEM_RGN_A.STALE r = false ∧ r.val ∉ t.dram.resync ∧ HasRecord 0x040A t
          ∧ SameRegsBut [MEM_RGN_A.STALE.addr r] s t ∧ SameMemory s t) ∧
    (s.flag MEM_MIRROR_FENCE.BUSY = false → s.noImage = false →
      let named := fun (t : State) => t.rd MEM_MIRROR_FENCE.REGION = r.val
        ∧ SameRegsBut [MEM_MIRROR_FENCE.BUSY.addr 0] s t ∧ SameMemory s t
      (s.flag MEM_RGN_A.VALID r = true → s.flag MEM_RGN_A.MIRROR r = true → s.flag MEM_RGN_A.STALE r = false →
        s.pair = Pair.paired →
        Answers (Machine.exec (.mirrorFenceStart r) s) fun t =>
          named t ∧ t.flag MEM_MIRROR_FENCE.BUSY = true ∧ t.dram.fence = some (r.val, fenceSeq s)) ∧
      (s.flag MEM_RGN_A.VALID r = false ∨ s.flag MEM_RGN_A.MIRROR r = false →
        Answers (Machine.exec (.mirrorFenceStart r) s) fun t =>
          named t ∧ t.flag MEM_MIRROR_FENCE.BUSY = false ∧ t.rd MEM_MIRROR_FENCE.STATUS = St.badDescriptor)) ∧
    (∀ n st, s.dram.fence = some (r.val, n) → fenceStatus s r n = some st → st < 256 →
      Answers (Machine.exec .mirrorFenceDone s) fun t =>
        t.dram.fence = none ∧ t.flag MEM_MIRROR_FENCE.BUSY = false ∧ t.rd MEM_MIRROR_FENCE.STATUS = st
          ∧ SameRegsBut [MEM_MIRROR_FENCE.BUSY.addr 0] s t ∧ SameMemory s t)

/-- Messages between twins. Readings of the model that clauses follow: log entries 13 and 21. Completion: under premises on
the state and the operands alone, a clause concludes that exec answers a next state with the command's own effect, for
heartbeat, mirrorWrite, mirrorAck, resyncWrite, twinHeartbeatTick, mirrorAckTimer and mirrorRetransmitTimer. -/
def Obligations.TwinMessages : Prop := TwinSendsHold ∧ TwinReceivesHold

/-- States of a twin pair and its mirrored regions. Readings of the model that clauses follow: log entries 13 and 21.
Completion: under premises on the state and the operands alone, a clause concludes that exec answers a next state with the
command's own effect, for mirrorResyncDone, mirrorFenceStart, mirrorFenceDone, twinPortTimeout, twinProbeTick, grantTimeout,
isolatedRetryTick, takeoverWaitExpire, pair and twnLockSet. -/
def Obligations.TwinStatesAndRegions : Prop := TwinStatesHold ∧ MirroredRegionsHold

/-! ### What the fabric receives (R212 to R231, R240) -/

/-- A port that is UP takes the packet: in a frame for it, of version 1, for this device, from a peer with keys, and with a tag
that verifies. -/
abbrev Accepted (s : State) (h : SalHeader) : Prop :=
  s.rd FAB_PORT.STATE h.port = 3 ∧ frameAccepted s h.port h.frame = true ∧ h.version = 1 ∧ h.dst.toNat = s.devNum ∧ h.authentic = true
    ∧ fabKeyed s h.src.toNat = true

/-- An accepted reliable packet at the in-order point of a cached context under its epoch, which acknowledges nothing new,
while no ended operation waits to be told and no ring has granules to copy first (R223, R224, R228). -/
abbrev InOrder (s : State) (h : SalHeader) : Prop :=
  Accepted s h ∧ epochCurrent s h.src.toNat h.epoch.toNat = true ∧ peerCached s h.src.toNat = true
    ∧ (s.peer h.src.toNat).missed = [] ∧ (s.peer h.src.toNat).expect = h.psn.toNat
    ∧ (s.peer h.src.toNat).low = h.apsn.toNat ∧ s.ended = [] ∧ ∀ e ∈ s.rings, e.2.todo = []

/-- A response of a type, with a status and data, joins the responses that wait for the peer. -/
def Responds (h : SalHeader) (type status : Nat) (l : List Byte) (s t : State) : Prop :=
  ∃ k : Pkt, t.fab.responses = s.fab.responses ++ [(h.src.toNat, k)] ∧ k.type = type ∧ k.msg = h.msg.toNat ∧ k.aux = status
    ∧ k.data = l

/-- The next packet expected of the peer is the one after the packet taken. -/
def MovesOn (h : SalHeader) (t : State) : Prop := (t.peer h.src.toNat).expect = (h.psn.toNat + 1) % 2 ^ 48

/-- Packets of one operation of another device in one packet each (R192, R196, R197, R199, R200, R201, R217, R222): WRITE and
WRITE_POST store their data, WRITE_POST then posts its counter, READ_REQ is answered from memory, FADD and CAS change 8 bytes and
answer the old value, and SEND fills the buffer at the head of its receive queue and is answered once its receive entry is written (R199), each after the
check of its key or queue. -/
def FabricTargetsHold : Prop :=
  ∀ (s : State) (h : SalHeader), InOrder s h → h.first = true → h.last = true →
    let ftn := h.ftn.toNat
    let key := h.rkey.toNat
    let a := h.addr.toNat
    let g := (s.regEntry (keyIndex key)).glade
    (∀ b : List Byte, keyCheck s key ftn none (some Rt.write) a b.length = 0 →
      let w := s.gladeWrite g a b
      w.2 = St.success → NoneHeld s w.1 →
      Answers (Machine.exec (.pktWrite h b) s) (fun t =>
        t.mem = w.1.mem ∧ Responds h Pt.opResp St.success [] s t ∧ MovesOn h t) ∧
      (s.ustStopped = false →
        let ctr := h.aux.toNat % 65536
        w.1.ctrGranted ctr (w.1.regEntry (keyIndex key)).glade = true →
        Answers (Machine.exec (.pktWritePost h b) s) fun t =>
          t.mem = w.1.mem ∧ t.ctr ctr = (s.ctr ctr + h.opv.toNat) % 2 ^ 64 ∧ Responds h Pt.opResp St.success [] s t
            ∧ MovesOn h t)) ∧
    (keyCheck s key ftn none (some Rt.read) a h.aux.toNat = 0 → (s.gladeRead g a h.aux.toNat).2 = St.success →
      Answers (Machine.exec (.readReq h) s) fun t =>
        (∃ f ∈ t.fab.flows, f.1 = Flow.response g ∧ ∃ k ∈ f.2, k.1 = h.src.toNat ∧ k.2.type = Pt.readResp
          ∧ k.2.msg = h.msg.toNat ∧ k.2.aux = St.success) ∧ MovesOn h t ∧ SameMemory s t) ∧
    (keyCheck s key ftn none (some Rt.atomic) a 8 = 0 → tileAt a = none → (s.gladeRead g a 8).2 = St.success →
      let old := leNat (s.bytes a 8)
      (let w := s.gladeWrite g a (toLe 8 ((old + h.opv.toNat) % 2 ^ 64))
       w.2 = St.success → NoneHeld s w.1 →
       Answers (Machine.exec (.pktFadd h) s) fun t =>
         t.mem = w.1.mem ∧ Responds h Pt.atomicResp St.success (toLe 8 old) s t ∧ MovesOn h t) ∧
      (∀ swap : BitVec 64,
        let w := s.gladeWrite g a (toLe 8 (if old = h.opv.toNat then swap.toNat else old))
        w.2 = St.success → NoneHeld s w.1 →
        Answers (Machine.exec (.pktCas h swap) s) fun t =>
          t.mem = w.1.mem ∧ Responds h Pt.atomicResp St.success (toLe 8 old) s t ∧ MovesOn h t)) ∧
    (∀ (r : Nat) (b : Cmd) (d : List Byte), r = h.aux.toNat % 2 ^ 20 → r < 65536 → sendAllowed s (salQid r) ftn = true →
      replyGlade s r = none → (s.queue (salQid r)).cmds.find? (fun c => !c.started) = some b →
      bufferStatus s (salQid r) b = St.success → h.moff = 0 → d ≠ [] → d.length ≤ leAt b.bytes 12 4 →
      AtHand s (.queue (salQid r)) →
      let w := s.gladeWrite (s.queueGlade (salQid r)) (leAt b.bytes 0 8) d
      w.2 = St.success → NoneHeld s w.1 →
      Answers (Machine.exec (.pktSend h d) s) fun t =>
        t.mem = w.1.mem ∧ t.fab.responses = s.fab.responses ∧ MovesOn h t
          ∧ ∃ x ∈ (t.queue (salQid r)).due, x.word0 = d.length ∧ x.status = St.success ∧ x.entry = b.entry
              ∧ x.mid = h.src.toNat + 65536 * ftn
              ∧ x.tell = some (.peer h.src.toNat h.msg.toNat St.success (s.queueGlade (salQid r))))

/-- Responses to this device's own commands (R196, R217, R222): the last READ_RESP and an ATOMIC_RESP land where the command
says, an OP_RESP brings its status, and the command completes. -/
def FabricResponsesHold : Prop :=
  ∀ (s : State) (h : SalHeader) (o : SalOp) (q : Fin 65536) (e : Nat) (c : Cmd), InOrder s h → h.last = true →
    h.aux = 0 → o.status = 0 → o.owner = .cmd (salQid q) e → (s.queue (salQid q)).kind = false →
    (s.queue (salQid q)).cmdAt e = some c →
    let op := fun (kinds : List Nat) =>
      (s.peer h.src.toNat).ops.find? (fun y => y.msg == h.msg.toNat && kinds.contains y.kind) = some o
    let done := fun (t : State) => EndedWith (salQid q) c St.success o.len t ∧ MovesOn h t
      ∧ ∀ y ∈ (t.peer h.src.toNat).ops, y.msg ≠ o.msg
    (∀ d : List Byte, d ≠ [] → op [Pt.readReq] →
      let w := s.gladeWrite o.glade (o.laddr + h.moff.toNat) d
      w.2 = St.success → NoneHeld s w.1 → Answers (Machine.exec (.readResp h d) s) fun t => t.mem = w.1.mem ∧ done t) ∧
    (∀ v : BitVec 64, op [Pt.fadd, Pt.cas] →
      let w := s.gladeWrite o.glade (o.laddr + h.moff.toNat) (toLe 8 v.toNat)
      w.2 = St.success → NoneHeld s w.1 → Answers (Machine.exec (.atomicResp h v) s) fun t => t.mem = w.1.mem ∧ done t) ∧
    (op [Pt.write, Pt.writePost, Pt.send] → Answers (Machine.exec (.opResp h) s) fun t => SameMemory s t ∧ done t)

/-- Packets that take no PSN (R217, R220, R221, R224, R225): an ACK acknowledges what lies below its APSN, a NOT_READY NAK
pauses what it names, a PROBE is answered by an ACK, a HELLO opens a context under the epoch it proposes and is answered, and a
HELLO_ACK opens one that is OPENING; the context, where there is one, is in the cache. -/
def FabricControlPacketsHold : Prop :=
  ∀ (s : State) (h : SalHeader), Accepted s h → s.ended = [] →
    let d := h.src.toNat
    let x := s.peer d
    (x.state ≠ Ps.none → peerCached s d = true ∧ x.missed = []) →
    let ctl := fun (type : Nat) (t : State) => ∃ p, p < 16 ∧ ∃ k ∈ Tab.get [] t.fab.control p, k.device = d ∧ k.type = type
    (epochCurrent s d h.epoch.toNat = true → x.state = Ps.open_ → 0 < psnDiff h.apsn.toNat x.low →
      psnDiff h.apsn.toNat x.nextPsn ≤ 0 →
      Answers (Machine.exec (.ack h) s) fun t =>
        (t.peer d).low = h.apsn.toNat ∧ (t.peer d).expiries = 0
          ∧ (t.peer d).unacked = x.unacked.filter (fun p => decide (0 ≤ psnDiff (p.psn.getD 0) h.apsn.toNat))
          ∧ SameMemory s t) ∧
    (epochCurrent s d h.epoch.toNat = true → h.aux.toNat % 256 = 3 → x.low = h.apsn.toNat →
      (∃ p ∈ x.unacked, p.psn = some (h.addr.toNat % 2 ^ 48)) → x.expired = none →
      Answers (Machine.exec (.nak h) s) fun t =>
        (t.peer d).paused = true ∧ (t.peer d).refusedPsn = some (h.addr.toNat % 2 ^ 48) ∧ SameMemory s t) ∧
    (epochCurrent s d h.epoch.toNat = true → x.low = h.apsn.toNat → x.port < 16 →
      Answers (Machine.exec (.probe h) s) fun t => ctl Pt.ack t ∧ SameMemory s t) ∧
    (x.state = Ps.none → x.epoch = 0 → mayCreatePeer s = true → h.epoch ≠ 0 →
      (s.cached (peerQuad s d)).length < cacheSize →
      Answers (Machine.exec (.hello h) s) fun t =>
        (t.peer d).state = Ps.open_ ∧ (t.peer d).epoch = h.epoch.toNat ∧ (t.peer d).expect = h.psn.toNat ∧ ctl Pt.helloAck t
          ∧ SameMemory s t) ∧
    (x.state = Ps.opening → h.epoch ≠ 0 → (∀ o ∈ x.ops, o.sent = false) →
      Answers (Machine.exec (.helloAck h) s) fun t =>
        (t.peer d).state = Ps.open_ ∧ (t.peer d).epoch = h.epoch.toNat ∧ (t.peer d).expect = h.psn.toNat
          ∧ SameMemory s t)

/-- Timers of peer contexts (R224 to R226, R229): a pending acknowledgement goes out, the retransmission timer sends everything
again with a window of one packet, a context without progress is UNREACHABLE and its commands end with PEER_UNREACHABLE, the
holdoff and the NOT_READY pause end, and packets held for a context that has been fetched are processed. -/
def FabricTimersHold : Prop :=
  ∀ (s : State) (d : BitVec 16),
    let x := s.peer d.toNat
    (x.unackedRx ≠ 0 → x.port < 16 →
      Answers (Machine.exec (.ackTimerExpire d) s) fun t =>
        (∃ k, Tab.get [] t.fab.control x.port = Tab.get [] s.fab.control x.port ++ [k] ∧ k.type = Pt.ack
          ∧ k.device = d.toNat) ∧ SameMemory s t) ∧
    (x.unacked ≠ [] → (x.expiries + 1) % 3 ≠ 0 →
      Answers (Machine.exec (.rtoExpire d) s) fun t =>
        t.peer d.toNat = { x with expiries := x.expiries + 1, win := fullPayload s (x.port % 16) }.resendFrom x.low
          ∧ SameMemory s t) ∧
    (∀ (o : SalOp) (q : Fin 65536) (e : Nat) (c : Cmd), x.state = Ps.open_ → x.unacked ≠ [] → x.ops = [o] →
      o.owner = .cmd (salQid q) e → (s.queue (salQid q)).kind = false → (s.queue (salQid q)).cmdAt e = some c →
      s.ended = [] →
      (∀ g, g < 16 → s.flag CKP_GRP_A.VALID g = false) →
      Answers (Machine.exec (.peerTimeout d) s) fun t =>
        (t.peer d.toNat).state = Ps.unreachable ∧ (t.peer d.toNat).holdoff = true ∧ (t.peer d.toNat).ops = []
          ∧ EndedWith (salQid q) c St.peerUnreachable 0 t ∧ (Listening s → HasRecord 0x0A01 t) ∧ SameMemory s t) ∧
    (x.holdoff = true → Answers (Machine.exec (.holdoffExpire d) s) fun t =>
      t.peer d.toNat = { x with holdoff := false } ∧ SameMemory s t) ∧
    (x.paused = true → Answers (Machine.exec (.notReadyPauseExpire d) s) fun t =>
      t.peer d.toNat = { x with paused := false } ∧ SameMemory s t) ∧
    (∀ p : RxPkt, x.missed = [p] → p.type < Pt.ack → p.src = d.toNat → x.state = Ps.open_ → s.flag FAB_CTX_CFG.LOC = false →
      AtHand s (.peer d.toNat) → epochCurrent s d.toNat p.epoch = true → p.apsn = x.low →
      psnDiff p.psn x.expect < 0 → x.port < 16 → s.ended = [] → s.rd FAB_CNT.COUNT 3 < 2 ^ 64 - 1 →
      Answers (Machine.exec (.contextFetchDone d) s) fun t =>
        (t.peer d.toNat).missed = [] ∧ peerCached t d.toNat = true ∧ t.rd FAB_CNT.COUNT 3 = s.rd FAB_CNT.COUNT 3 + 1
          ∧ (∃ k, Tab.get [] t.fab.control x.port = Tab.get [] s.fab.control x.port ++ [k] ∧ k.type = Pt.ack)
          ∧ SameMemory s t)

/-- Other frames and the settings of the fabric (R212, R213, R227, R232, R234, R240): address resolution for the port's own
address is answered, frames a port drops are counted, a port that may train goes to TRAINING and a disabled one down with its
lanes, the context store is enabled over a region that can back it, and the lock bit is set. -/
def FabricPortsHold : Prop :=
  ∀ (s : State) (p : Fin 16),
    (∀ (ask : EthAsk) (ip target : BitVec 32),
      ethAccepted s p ask.eth (· == 0xFFFFFFFFFFFF) = true → s.rd FAB_PORT.STATE p = 3 → s.flag FAB_CFG.IPV6 = false →
      target.toNat = portAddr s s.devNum p →
      Answers (Machine.exec (.arpRequest p ask ip target) s) fun t =>
        t.out = s.out ++ [.ethFrame p (ethHead s p ask.mac.toNat 0x0806 ++ toBe 2 1 ++ toBe 2 0x0800 ++ toBe 1 6 ++ toBe 1 4
            ++ toBe 2 2 ++ toBe 6 (s.rd FAB_PORT_MAC.MAC p) ++ toBe 4 target.toNat ++ toBe 6 ask.mac.toNat ++ toBe 4 ip.toNat)]
          ∧ SameRegsBut [] s t ∧ SameMemory s t) ∧
    (∀ (ask : EthAsk) (src target : BitVec 128),
      ethAccepted s p ask.eth (· == 0x3333FF000000 + target.toNat % 0x1000000) = true → s.rd FAB_PORT.STATE p = 3 → s.flag FAB_CFG.IPV6 = true →
      target.toNat = portAddr s s.devNum p →
      Answers (Machine.exec (.neighbourSolicitation p ask src target) s) fun t =>
        t.out = s.out ++ [.ethFrame p (neighbourAdvert s p ask.mac.toNat src.toNat)] ∧ SameRegsBut [] s t ∧ SameMemory s t) ∧
    (∀ k : Fin 3, s.rd FAB_PORT.STATE p = 3 → s.rd FAB_CNT.COUNT (11 + k.val) < 2 ^ 64 - 1 →
      Answers (Machine.exec (.ethFrameDrop p k) s) fun t =>
        t.rd FAB_CNT.COUNT (11 + k.val) = s.rd FAB_CNT.COUNT (11 + k.val) + 1
          ∧ SameRegsBut [FAB_CNT.COUNT.addr (11 + k.val)] s t ∧ SameMemory s t) ∧
    (∀ v : BitVec 64, s.noImage = false → s.flag FAB_LOCK.LOCKED = false → s.fabPort p = Po.disabled → bitOf v.toNat 0 = true →
      1280 ≤ bitsOf v.toNat 4 14 → bitsOf v.toNat 4 14 ≤ 9216 → repaired s = true → transportOut s (p.val / 4) = false →
      s.rd CLK_GROVE.STATE (61 + p.val) ≠ 2 → tileLit s (p.val / 4) = true → s.flag OPT_TILE.REFCLK_OK (p.val / 4) = true →
      s.lane (2 * p.val) ≠ 3 → s.lane (2 * p.val + 1) ≠ 3 →
      Answers (Machine.exec (.fabPortEnable p v) s) fun t =>
        t.fabPort p = Po.training ∧ t.flag FAB_PORT.ENABLE p = true ∧ t.rd FAB_PORT.MTU p = bitsOf v.toNat 4 14
          ∧ t.lane (2 * p.val) = 1 ∧ t.lane (2 * p.val + 1) = 1 ∧ (Listening s → HasRecord 0x0A03 t) ∧ SameMemory s t) ∧
    (∀ v : BitVec 64, s.noImage = false → s.flag FAB_LOCK.LOCKED = false → s.fabPort p ≠ Po.disabled → bitOf v.toNat 0 = false →
      Answers (Machine.exec (.fabPortEnable p v) s) fun t =>
        t.fabPort p = Po.disabled ∧ t.flag FAB_PORT.ENABLE p = false ∧ t.lane (2 * p.val) = 0
          ∧ t.lane (2 * p.val + 1) = 0 ∧ SameMemory s t) ∧
    (∀ v : BitVec 64, s.noImage = false → s.flag FAB_LOCK.LOCKED = false → bitsOf v.toNat 0 1 = 0 → bitOf v.toNat 1 = true →
      peerCount s ≤ bitsOf v.toNat 12 17 → bitsOf v.toNat 12 17 ≤ 65536 →
      s.flag MEM_RGN_A.VALID (bitsOf v.toNat 2 10) = true → 0x4000000 ≤ rgnLen s (bitsOf v.toNat 2 10) →
      Answers (Machine.exec (.ctxStoreCfgWrite v) s) fun t =>
        t.flag FAB_CTX_CFG.ENABLE = true ∧ t.flag FAB_CTX_CFG.LOC = false ∧ t.rd FAB_CTX_CFG.REGION = bitsOf v.toNat 2 10
          ∧ t.rd FAB_CTX_CFG.PEER_RESERVE = bitsOf v.toNat 12 17 ∧ SameMemory s t) ∧
    (s.noImage = false → Answers (Machine.exec .fabLockSet s) fun t =>
      t.flag FAB_LOCK.LOCKED = true ∧ SameRegsBut [FAB_LOCK.LOCKED.addr 0] s t ∧ SameMemory s t)

/-- Lanes and laser light (R28, R35, R41, R47, R233 to R235, R239, R241), here on the lanes of data and twin ports: a lane that fails is
retrained once, comes back up, is reported, or is carried by its group's spare where that is free; light lost on one of two inputs
is reported once the tile is up, and the loss of both puts the tile's ports into WAIT_LIGHT; before REPAIR ends only the level is
kept; optical bring-up ends for the lanes that no longer train. An Understory lane that belongs to no link follows its lane. -/
def OpticalLanesHold : Prop :=
  ∀ (s : State),
    (∀ l : Fin 44, l.val < 36 ∨ linkOfLane s (l.val - 36) = none →
      let f := s.fab
      (s.lane l = 1 ∨ s.lane l = 2 → l.val ∉ f.retrain → l.val ∉ f.sparing → s.flag OPT_TILE.REFCLK_OK (laneTile l) = true →
        Answers (Machine.exec (.laneFault l) s) fun t => t.lane l = 1 ∧ l.val ∈ t.fab.retrain ∧ SameMemory s t) ∧
      (l.val ∈ f.retrain →
        (∀ b, Answers (Machine.exec (.laneRetrainDone l true b) s) fun t =>
          t.lane l = 2 ∧ l.val ∉ t.fab.retrain ∧ SameMemory s t) ∧
        Answers (Machine.exec (.laneRetrainDone l false true) s) (fun t =>
          t.lane l = 3 ∧ l.val ∉ t.fab.retrain ∧ (Listening s → HasRecord 0x0A05 t) ∧ SameMemory s t) ∧
        (s.boot.lanePolicy ≠ 2 → s.flag OPT_LANE.IN_USE (laneSpare l) = false → s.lane (laneSpare l) ≠ 3 →
          (∀ x ∈ f.sparing, laneSpare x ≠ laneSpare l) →
          Answers (Machine.exec (.laneRetrainDone l false false) s) fun t =>
            l.val ∈ t.fab.sparing ∧ l.val ∉ t.fab.retrain ∧ SameRegsBut [] s t ∧ SameMemory s t)) ∧
      (l.val ∈ f.sparing →
        Answers (Machine.exec (.laneSpareDone l) s) fun t =>
          t.lane l = 1 ∧ t.flag OPT_LANE.SPARED l = true ∧ t.rd OPT_LANE.PARTNER l = laneSpare l
            ∧ t.flag OPT_LANE.IN_USE (laneSpare l) = true ∧ t.rd OPT_LANE.PARTNER (laneSpare l) = l.val
            ∧ l.val ∉ t.fab.sparing ∧ (Listening s → HasRecord 0x0A04 t) ∧ SameMemory s t) ∧
      (s.lane l = 1 → l.val ∉ f.retrain → l.val ∉ f.sparing → s.flag OPT_TILE.REFCLK_OK (laneTile l) = true →
        Answers (Machine.exec (.laneUp l) s) fun t =>
          t.lane l = 2 ∧ (36 ≤ l.val → t.rd UST_LANE.STATE (l.val - 36) = 2) ∧ SameMemory s t)) ∧
    (∀ j : Fin 8,
      let n := j.val / 2
      let mine := if j.val % 2 = 0 then OPT_TILE.LIGHT0 else OPT_TILE.LIGHT1
      let other := if j.val % 2 = 0 then OPT_TILE.LIGHT1 else OPT_TILE.LIGHT0
      (repaired s = false → j.val ∉ s.pins.dark →
        Answers (Machine.exec (.laserLightLoss j) s) fun t =>
          t = { s with pins := { s.pins with dark := j.val :: s.pins.dark } }) ∧
      (repaired s = false → j.val ∈ s.pins.dark →
        Answers (Machine.exec (.laserLightRestore j) s) fun t =>
          t = { s with pins := { s.pins with dark := s.pins.dark.filter (· != j.val) } }) ∧
      (s.flag mine n = true → s.flag other n = true → repaired s = true → j.val ∉ s.pins.dark →
        s.flag BOOT_STATE.OPTICAL_DONE = false → tileUp s n = false →
        Answers (Machine.exec (.laserLightLoss j) s) fun t =>
          t.flag mine n = false ∧ t.fab.lightOwed = s.fab.lightOwed ++ [j.val] ∧ t.events = s.events
            ∧ SameRegsBut [OPT_TILE.LIGHT0.addr n] s t ∧ SameMemory s t) ∧
      (s.flag mine n = true → s.flag other n = true → Listening s → repaired s = true → j.val ∉ s.pins.dark →
        s.flag BOOT_STATE.OPTICAL_DONE = true ∨ tileUp s n = true →
        Answers (Machine.exec (.laserLightLoss j) s) fun t =>
          t.flag mine n = false ∧ HasRecord 0x0A06 t ∧ SameRegsBut [OPT_TILE.LIGHT0.addr n] s t ∧ SameMemory s t) ∧
      (∀ p : Fin 16, s.flag mine n = true → s.flag other n = false → p.val / 4 = n → repaired s = true → j.val ∉ s.pins.dark →
        s.fabPort p = Po.training ∨ s.fabPort p = Po.up → (∀ l : Fin 44, 36 ≤ l.val → laneTile l = n → s.lane l = 0) →
        Answers (Machine.exec (.laserLightLoss j) s) fun t =>
          t.flag mine n = false ∧ t.fabPort p = Po.waitLight ∧ SameMemory s t) ∧
      (s.flag mine n = false → Listening s → repaired s = true → j.val ∈ s.pins.dark →
        (∀ l : Fin 44, 36 ≤ l.val → laneTile l = n → linkOfLane s (l - 36) = none) →
        Answers (Machine.exec (.laserLightRestore j) s) fun t =>
          t.flag mine n = true ∧ HasRecord 0x0A06 t ∧ j.val ∉ t.pins.dark
            ∧ (∀ p : Fin 16, p.val / 4 = n → s.fabPort p = Po.waitLight → t.fabPort p ≠ Po.waitLight) ∧ SameMemory s t)) ∧
    (repaired s = true → s.fab.lightOwed = [] →
      Answers (Machine.exec .opticalBringupDone s) fun t =>
        t.flag BOOT_STATE.OPTICAL_DONE = (s.flag BOOT_STATE.OPTICAL_DONE || decide (∀ l : Fin 36, s.lane l ≠ 1))
          ∧ t.flag BOOT_STATE.UNDERSTORY_DONE
            = (s.flag BOOT_STATE.UNDERSTORY_DONE || decide (∀ u : Fin 8, s.lane (36 + u) ≠ 1))
          ∧ SameRegsBut [BOOT_STATE.STATE.addr 0] s t ∧ SameMemory s t)

/-- Windows (R204, R205, R207, R208, R468): an entry whose fields fit is put in force and one with LIMIT 0 is refused; an
access that passes is served on this device or carried to its target, one that does not ends with Completer Abort, one outside
the windows is unsupported, data return in completions of at most the port's maximum payload (R261), a read without an answer
is stopped, and a fence ends when no access it waits for remains. Readings of the model that clauses follow: log entry 18.
Completion: under premises on the state and the operands alone, a clause concludes that exec answers a next state with the
command's own effect, for bar4Read, bar4Write, bar4ReadTimeout, windowValidSet, windowFenceStart and windowFenceDone. -/
def Obligations.Windows : Prop :=
  ∀ (s : State),
    (∀ (j : Fin 256) (w : BitVec 64), s.noImage = false → bitOf w.toNat 0 = true →
      let v := w.toNat
      let lim := bitsOf v 48 16
      (s.rd HEP_WIN_B.TARGET_HI j = 0 → lim ≠ 0 → (bitOf v 3 = true → 0x10000 * lim ≤ winSize s 0) →
        (bitOf v 4 = true → 0x10000 * lim ≤ winSize s 1) → bitOf v 3 = true ∨ bitOf v 4 = true →
        s.ftn (bitsOf v 8 8) ≠ 0 →
        Answers (Machine.exec (.windowValidSet j w) s) fun t =>
          t.flag HEP_WIN_A.VALID j = true ∧ t.rd HEP_WIN_A.GLADE j = bitsOf v 8 8 ∧ t.rd HEP_WIN_A.RKEY j = bitsOf v 16 32
            ∧ t.rd HEP_WIN_A.LIMIT j = lim ∧ SameRegsBut [HEP_WIN_A.VALID.addr j] s t ∧ SameMemory s t) ∧
      (lim = 0 →
        Answers (Machine.exec (.windowValidSet j w) s) fun t =>
          t.flag HEP_WIN_A.VALID j = false ∧ t.flag HEP_WIN_STATUS.REFUSED = true
            ∧ t.rd HEP_WIN_STATUS.LAST_REFUSED = j.val ∧ SameMemory s t)) ∧
    (∀ v : BitVec 64, s.noImage = false → bitOf v.toNat 8 = true → s.flag HEP_WIN_FENCE.BUSY = false →
      Answers (Machine.exec (.windowFenceStart v) s) fun t =>
        t.flag HEP_WIN_FENCE.BUSY = true ∧ t.rd HEP_WIN_FENCE.WINDOW = bitsOf v.toNat 0 8
          ∧ t.fab.fenceAt = s.fab.nextAccess ∧ t.fab.fenceWin = bitsOf v.toNat 0 8
          ∧ SameRegsBut [HEP_WIN_FENCE.BUSY.addr 0] s t ∧ SameMemory s t) ∧
    ((∀ d ∈ s.peers, ∀ o ∈ d.2.ops, fenced s o = false) →
      Answers (Machine.exec .windowFenceDone s) fun t =>
        t.flag HEP_WIN_FENCE.BUSY = false ∧ SameRegsBut [HEP_WIN_FENCE.BUSY.addr 0] s t ∧ SameMemory s t) ∧
    (∀ (p : Fin 2) (off : BitVec 38) (tag : BitVec 14) (len : BitVec 13),
      let win := off.toNat / winSize s p
      let x := off.toNat % winSize s p
      let a := 4096 * s.rd HEP_WIN_B.TARGET win + x
      let key := s.rd HEP_WIN_A.RKEY win
      let ftn := s.ftn (s.rd HEP_WIN_A.GLADE win)
      let g := (s.regEntry (keyIndex key)).glade
      let size := max (s.port p).mps 64
      (bar4Open s p off.toNat = true → winPass s p win x len.toNat false = true →
        (globalDev a = s.devNum → keyCheck s key ftn none (some Rt.read) (globalOff a) len.toNat = 0 →
          (s.gladeRead g (globalOff a) len.toNat).2 = St.success →
          Answers (Machine.exec (.bar4Read p off len tag) s) fun t =>
            t.out = s.out ++ (List.range (max 1 (ceilDiv len.toNat size))).map (fun k =>
                .completion p tag.toNat Cpl.success
                  (bytesAt (s.bytes (globalOff a) len.toNat) (size * k) (min size (len.toNat - size * k))) false)
              ∧ SameRegsBut [FAB_SAL_RKT_MISS.COUNT.addr 0] s t ∧ SameMemory s t) ∧
        (globalDev a ≠ s.devNum → fabKeyed s (globalDev a) = true → (s.peer (globalDev a)).state = Ps.open_ →
          Answers (Machine.exec (.bar4Read p off len tag) s) fun t =>
            ∃ o, (t.peer (globalDev a)).ops = (s.peer (globalDev a)).ops ++ [o] ∧ o.kind = Pt.readReq ∧ o.len = len.toNat
              ∧ o.owner = .window p win s.fab.nextAccess x tag.toNat false)) ∧
      (bar4Open s p off.toNat = true → winPass s p win x len.toNat false = false →
        Answers (Machine.exec (.bar4Read p off len tag) s) fun t =>
          .completion p tag.toNat Cpl.abort [] false ∈ t.out ∧ SameMemory s t) ∧
      (bar4Open s p off.toNat = false →
        Answers (Machine.exec (.bar4Read p off len tag) s) fun t =>
          .completion p tag.toNat Cpl.unsupported [] false ∈ t.out ∧ SameMemory s t) ∧
      (∀ b : List Byte, bar4Open s p off.toNat = true → winPass s p win x b.length true = true → globalDev a = s.devNum →
        keyCheck s key ftn none (some Rt.write) (globalOff a) b.length = 0 →
        let w := s.gladeWrite g (globalOff a) b
        w.2 = St.success → NoneHeld s w.1 → (∀ e ∈ s.rings, e.2.todo = []) →
        Answers (Machine.exec (.bar4Write p off b) s) fun t =>
          t.mem = w.1.mem ∧ ∀ tg st l bad, .completion p tg st l bad ∈ t.out → .completion p tg st l bad ∈ s.out) ∧
      (∀ (d : Nat) (y : Peer) (o : SalOp), s.peers = [(d, y)] → y.ops = [o] → isWinRead p tag.toNat o = true →
        Answers (Machine.exec (.bar4ReadTimeout p tag) s) fun t =>
          (t.peer d).ops = [] ∧ .completion p tag.toNat Cpl.abort [] false ∈ t.out ∧ SameMemory s t))

/-- Fabric operations at their target and at their requester. Readings of the model that clauses follow: log entry 14.
Completion: under premises on the state and the operands alone, a clause concludes that exec answers a next state with the
command's own effect, for pktWrite, pktWritePost, readReq, pktFadd, pktCas, pktSend, readResp, atomicResp and opResp. -/
def Obligations.FabricOperations : Prop := FabricTargetsHold ∧ FabricResponsesHold

/-- Control packets and timers of the fabric. Readings of the model that clauses follow: log entry 14. Completion: under
premises on the state and the operands alone, a clause concludes that exec answers a next state with the command's own effect,
for contextFetchDone, ack, nak, probe, hello, helloAck, ackTimerExpire, rtoExpire, peerTimeout, holdoffExpire and
notReadyPauseExpire. -/
def Obligations.FabricControl : Prop := FabricControlPacketsHold ∧ FabricTimersHold

/-- Data ports and optical lanes. Readings of the model that clauses follow: log entry 22. Completion: under premises on the
state and the operands alone, a clause concludes that exec answers a next state with the command's own effect, for
laserLightLoss, laserLightRestore, opticalBringupDone, arpRequest, neighbourSolicitation, ethFrameDrop, fabPortEnable,
laneFault, laneRetrainDone, laneSpareDone, laneUp, ctxStoreCfgWrite and fabLockSet. -/
def Obligations.PortsAndLanes : Prop := FabricPortsHold ∧ OpticalLanesHold

/-! ### Resilience, traps, waits and telemetry (R13 to R16, R61, R83, R370 to R375, R401 to R412, R434 to R443) -/

/-- Units that fail (R13, R83, R371, R372, R374, R412): a region controller's agents begin to move to its alternate, and have
moved, with which a march test held for them starts; a quadrant is lost; a region that lost granules has its event; a spare tile that stands in for nothing is marked faulty,
and a tile's spare begins to come in; the active management pair that disagrees hands over to the other, which takes control. -/
def UnitFailuresHold : Prop :=
  ∀ (s : State), Listening s →
    (∀ k : Fin 8, k.val ∉ s.boot.ctrlFailed → alternate k ∉ s.boot.ctrlFailed → s.boot.heldCtl = [] →
      Answers (Machine.exec (.regionControllerFail k) s) fun t =>
        t.boot.ctrlFailed = k.val :: s.boot.ctrlFailed ∧ t.boot.moving = k.val :: s.boot.moving ∧ HasRecord 0x1102 t
          ∧ SameMemory s t) ∧
    (∀ k : Fin 8,
      (s.boot.heldCtl = [] →
        Answers (Machine.exec (.agentMoveDone k) s) fun t =>
          t.boot.moving = s.boot.moving.filter (· != k.val) ∧ SameRegsBut [] s t ∧ SameMemory s t) ∧
      (∀ unit mode, s.boot.heldCtl = [.march unit mode] → s.boot.moving = [k.val] → marchClass unit = true →
        mode = 1 ∨ mode = 2 → unitOut s unit = true →
        Answers (Machine.exec (.agentMoveDone k) s) fun t =>
          t.boot.moving = [] ∧ t.boot.heldCtl = [] ∧ t.boot.march = some (unit, mode) ∧ t.flag BOOT_MARCH.BUSY = true
            ∧ SameMemory s t)) ∧
    (∀ q : Fin 4, Answers (Machine.exec (.quadrantLoss q) s) fun t => q.val ∈ t.dram.lostQuads) ∧
    (∀ (j : Fin 1024) (d : Nat × Nat), s.dram.degrade.find? (fun x => x.1 == j.val) = some d →
      ringsFor s (s.rd MEM_RGN_A.GLADE j) 0 ≠ [] →
      Answers (Machine.exec (.memRegionDegraded j) s) fun t =>
        d ∉ t.dram.degrade ∧ HasRecord 0x0408 t ∧ SameRegsBut [] s t ∧ SameMemory s t) ∧
    (∀ (q : Fin 4) (b : Bool), s.flag GLB_TILE_MAP.IN_USE q = false → s.flag GLB_TILE_MAP.SPARE_FAULTY q = false →
      (∀ x ∈ s.boot.bringing, ¬(x.2 = none ∧ x.1 / 0x1000 = 3 ∧ x.1 % 0x1000 / 16 = q.val)) →
      Answers (Machine.exec (.tileHardFault (BitVec.ofNat 16 (0x3040 + q.val)) b) s) fun t =>
        t.flag GLB_TILE_MAP.SPARE_FAULTY q = true ∧ 0x3040 + q.val ∈ t.boot.failed ∧ HasRecord 0x1101 t
          ∧ SameMemory s t) ∧
    (∀ (n : Fin 64) (b : Bool), s.tileOut n = false → tilePhys s n = n.val → bringing s (unitId 0x3 n) = false →
      tileSpareFree s (n.val / 16) = true →
      Answers (Machine.exec (.tileHardFault (BitVec.ofNat 16 (0x3000 + n.val)) b) s) fun t =>
        (unitId 0x3 n, none) ∈ t.boot.bringing) ∧
    (∀ p : Fin 2, mgmtOk s p = true →
      (p.val = activePair s → mgmtOk s (1 - p.val) = true → s.rd PWR_ACT.STATE ≠ 4 →
        Answers (Machine.exec (.mgmtPairDisagree p) s) fun t =>
          mgmtOk t p = false ∧ t.cpu.failover = true ∧ HasRecord 0x1203 t ∧ SameMemory s t) ∧
      (p.val ≠ activePair s →
        Answers (Machine.exec (.mgmtPairDisagree p) s) fun t =>
          mgmtOk t p = false ∧ t.cpu.failover = false ∧ SameMemory s t)) ∧
    (s.cpu.failover = true → s.pwr.heldLimit = none → s.sec.heldStarts = [] → (∀ ri, ri < 32 → ringLive s ri = false) →
      Answers (Machine.exec .mgmtFailoverDone s) fun t =>
        t.cpu.failover = false ∧ activePair t = 1 - activePair s ∧ SameMemory s t)

/-- Spares, service commands, march tests and restarts (R13, R15, R61, R375, R410): the map changes when a spare has been brought in;
a transport engine is taken out, with its data ports, only when forced, and comes back after a march test; a service command whose
unit's agent moves to another controller is held; a march test on a unit
that is out runs and says what it found; a crashed firmware core runs again. -/
def UnitServiceHold : Prop :=
  ∀ (s : State),
    (∀ n : Fin 64, s.boot.bringing.find? (fun b => b.1 == 0x3000 + n.val) = some (0x3000 + n.val, none) →
      s.rd TWN_CNT.COUNT 7 < 2 ^ 64 - 1 → s.boot.heldRegs = [] → s.boot.heldPad = [] →
      Answers (Machine.exec (.spareBringInDone (BitVec.ofNat 16 (0x3000 + n.val))) s) fun t =>
        t.flag GLB_TILE_MAP.IN_USE (n.val / 16) = true ∧ t.rd GLB_TILE_MAP.REPLACES (n.val / 16) = n.val
          ∧ (∀ b ∈ t.boot.bringing, b.1 ≠ 0x3000 + n.val) ∧ t.rd TWN_CNT.COUNT 7 = s.rd TWN_CNT.COUNT 7 + 1
          ∧ SameMemory s t) ∧
    (∀ q : Fin 4, s.noImage = false → s.flag TWN_SVC.BUSY = false → fetchPaused s = false → s.boot.bringing = [] →
      let unit := 0xB004 + q.val
      (unitMoving s unit = true → ∀ force,
        Answers (Machine.exec (.takeOut (BitVec.ofNat 16 unit) force) s) fun t =>
          t.flag TWN_SVC.BUSY = true ∧ t.rd TWN_SVC.RESULT = 0
            ∧ t.boot.heldCtl = s.boot.heldCtl ++ [.svc 1 unit force] ∧ SameRegsBut [TWN_SVC.UNIT.addr 0] s t
            ∧ SameMemory s t) ∧
      (unitMoving s unit = false →
      (unit ∉ s.boot.outUnits →
        Answers (Machine.exec (.takeOut (BitVec.ofNat 16 unit) true) s) (fun t =>
          unit ∈ t.boot.outUnits ∧ (∀ j : Fin 4, t.fabPort (4 * q.val + j.val) = Po.failed) ∧ t.flag TWN_SVC.BUSY = false
            ∧ t.rd TWN_SVC.RESULT = 1 ∧ SameMemory s t) ∧
        Answers (Machine.exec (.takeOut (BitVec.ofNat 16 unit) false) s) (fun t =>
          t.boot = s.boot ∧ t.rd TWN_SVC.RESULT = 2 ∧ SameRegsBut [TWN_SVC.UNIT.addr 0] s t ∧ SameMemory s t)) ∧
      (unit ∈ s.boot.outUnits → unit ∈ s.boot.marchPassed →
        Answers (Machine.exec (.returnCmd (BitVec.ofNat 16 unit)) s) fun t =>
          unit ∉ t.boot.outUnits ∧ t.flag TWN_SVC.BUSY = false ∧ t.rd TWN_SVC.RESULT = 1 ∧ SameMemory s t))) ∧
    (∀ (unit : BitVec 16) (mode : BitVec 2), s.flag BOOT_MARCH.BUSY = false → marchClass unit.toNat = true →
      unitOut s unit.toNat = true → unitMoving s unit.toNat = false → mode = 1 ∨ mode = 2 →
      Answers (Machine.exec (.marchRequest unit mode) s) fun t =>
        t.boot.march = some (unit.toNat, mode.toNat) ∧ t.flag BOOT_MARCH.BUSY = true ∧ t.rd BOOT_MARCH.UNIT = unit.toNat
          ∧ t.rd BOOT_MARCH.MODE = mode.toNat ∧ t.rd BOOT_MARCH.RESULT = 0 ∧ t.rd BOOT_MARCH.FAULTS = 0
          ∧ SameRegsBut [BOOT_MARCH.UNIT.addr 0] s t ∧ SameMemory s t) ∧
    (∀ (unit mode : Nat) (l : List (BitVec 32 × BitVec 32)), s.boot.march = some (unit, mode) →
      Answers (Machine.exec (.marchRequestDone l) s) fun t =>
        t.boot.march = none ∧ t.flag BOOT_MARCH.BUSY = false ∧ t.rd BOOT_MARCH.RESULT = (if l = [] then 1 else 2)
          ∧ t.rd BOOT_MARCH.FAULTS = min l.length 0xFFFF ∧ (l = [] → unit ∈ t.boot.marchPassed) ∧ SameMemory s t) ∧
    (∀ k : Fin 256, (s.core k).restarting = true → Listening s →
      Answers (Machine.exec (.coreRestartDone k) s) fun t =>
        (t.core k).restarting = false ∧ t.rd CPU_CORE.STATE (coreEntry k) = 1 ∧ HasRecord 0x1201 t ∧ SameMemory s t)

/-- Timer interrupts, waits and the revocation of counters (R170 to R172, R401, R403): a pending timer interrupt saves PL, IE
and the PC and goes to TVEC at the handler level; a wait whose value has reached its target lets its queue's command, or its
core, go on; and a block that is revoked ends the waits on it with PROTECTION_FAULT. Readings of the model that clauses
follow: log entry 33. Completion: under premises on the state and the operands alone, a clause concludes that exec answers a
next state with the command's own effect, for waitSatisfied, ctrBlockRevoke and timerInterrupt. -/
def Obligations.TrapsAndWaits : Prop :=
  ∀ (s : State),
    (∀ k : Fin 257, timerPending s k = true → interruptible s k = true → (s.core k).tip = false →
      let c := s.core k
      Answers (Machine.exec (.timerInterrupt k) s) fun t =>
        (∃ v, t.core k = { c with ppl := c.pl, pie := c.ie, ie := false, tip := true, pl := handlerLevel k, tpc := c.pc,
                                  tcause := 0x80000001, tval := v, pc := c.tvec, wfi := false })
          ∧ SameRegsBut [CPU_CORE.STATE.addr (coreEntry k)] s t ∧ SameMemory s t) ∧
    (∀ (n : Fin 65536) (w : Wait) (c : Cmd), s.waits = [w] → w.who = .queue (salQid n) →
      waitingCmd s (salQid n) = some c → (s.queue (salQid n)).kind = false → (s.queue (salQid n)).cmdAt c.entry = some c →
      (satisfied (s.waitValue w.on) w.target = true →
        Answers (Machine.exec (.waitSatisfied (.queue (BitVec.ofNat 24 (salQid n)))) s) fun t =>
          t.waits = [] ∧ (∃ x ∈ (t.queue (salQid n)).cmds, x.entry = c.entry ∧ x.waiting = false) ∧ SameRegsBut [] s t
            ∧ SameMemory s t) ∧
      (∀ (b : Fin 256) (i : Nat), s.noImage = false → w.on = .counter i → i / 256 = b.val →
        s.flag UST_CTR_BLK.GRANTED b = true →
        Answers (Machine.exec (.ctrBlockRevoke b) s) fun t =>
          t.flag UST_CTR_BLK.GRANTED b = false ∧ t.waits = [] ∧ EndedWith (salQid n) c St.protectionFault 0 t
            ∧ SameRegsBut [UST_CTR_BLK.GRANTED.addr b] s t ∧ SameMemory s t)) ∧
    (∀ (k : Fin 256) (w : Wait), s.waits = [w] → w.who = .core k → satisfied (s.waitValue w.on) w.target = true →
      s.debugOf k = {} →
      Answers (Machine.exec (.waitSatisfied (.core k)) s) fun t =>
        t.waits = [] ∧ t.core k = { s.core k with pc := ((s.core k).pc + 4) % 2 ^ 32 } ∧ SameMemory s t)

/-- Telemetry (R434 to R443): counters are queried and cleared by their offset, a sampled stream is put in force and its
records are written while its ring has room, and a metering ring takes the record of an interval that has ended. Readings of
the model that clauses follow: log entry 24. Completion: under premises on the state and the operands alone, a clause
concludes that exec answers a next state with the command's own effect, for query, clear, clearBlock, tlmStreamEnable,
streamSample, meterRingEnable and meteringInterval. -/
def Obligations.Telemetry : Prop :=
  ∀ (s : State),
    (∀ off : BitVec 23, s.noImage = false →
      let o := 8 * off.toNat
      let named := fun (op : Nat) (t : State) => t.rd TLM_CTR_CMD.OFFSET = off.toNat ∧ t.rd TLM_CTR_CMD.OP = op
        ∧ t.flag TLM_CTR_CMD.NOT_COUNTER = !isCounter o ∧ SameMemory s t
      Answers (Machine.exec (.query off) s) (fun t =>
        named 1 t ∧ (isCounter o = true → t.flag TLM_CTR_CMD.OVF = s.overflow.contains o)
          ∧ SameRegsBut [TLM_CTR_CMD.OFFSET.addr 0] s t) ∧
      Answers (Machine.exec (.clear off) s) (fun t =>
        named 2 t ∧ (isCounter o = true → t.reg o = 0 ∧ o ∉ t.overflow)
          ∧ SameRegsBut [o, TLM_CTR_CMD.OFFSET.addr 0, TLM_OVF_SUM.BLOCKS.addr 0] s t) ∧
      Answers (Machine.exec (.clearBlock off) s) (fun t =>
        named 3 t ∧ (isCounter o = true → ∀ x, isCounter x = true → blockOf x = blockOf o → t.reg x = 0))) ∧
    (∀ (k : Fin 8) (v : Word),
      let fld := fun (f : Fld) => bitsOf v.toNat f.lsb f.width
      let l := fld TLM_STR_CFG.LOG2SIZE
      s.noImage = false → s.flag TLM_STR_CFG.ENABLE k = false → bitOf v.toNat 0 = true → 4 ≤ l → l ≤ 16 → 10 ≤ fld TLM_STR_CFG.PERIOD_US →
      fld TLM_STR_CFG.PERIOD_US ≤ 1000000 → 1 ≤ fld TLM_STR_CFG.NCTR → fld TLM_STR_CFG.NCTR ≤ 28 →
      portHost s (fld TLM_STR_CFG.PORT) = true →
      ringPlaced s (s.flag TLM_STR_BASE.LOC k) (s.rd TLM_STR_BASE.ADDR k * 64) (256 * 2 ^ l) = true →
      Answers (Machine.exec (.tlmStreamEnable k v) s) fun t =>
        t.flag TLM_STR_CFG.ENABLE k = true ∧ t.rd TLM_STR_CFG.LOG2SIZE k = l ∧ t.rd TLM_STR_HEAD.VALUE k = 0
          ∧ t.rd TLM_STR_TAIL.VALUE k = 0
          ∧ SameRegsBut [TLM_STR_CFG.ENABLE.addr k, TLM_STR_HEAD.VALUE.addr k, TLM_STR_TAIL.VALUE.addr k] s t
          ∧ SameMemory s t) ∧
    (∀ k : Fin 8, s.flag TLM_STR_CFG.ENABLE k = true →
      let p := s.rd TLM_STR_CFG.PORT k
      let n := strSize s k
      let i := s.rd TLM_STR_TAIL.VALUE k
      let a := s.rd TLM_STR_BASE.ADDR k * 64 + 256 * i
      let x := Tab.get {} s.tlm.streams k.val
      ((i + 1) % n ≠ s.rd TLM_STR_HEAD.VALUE k % n → s.flag TLM_STR_BASE.LOC k = true → s.masterOn p = true →
        Answers (Machine.exec (.streamSample k) s) fun t =>
          .hostWrite p none a (strRecord s k) false false ∈ t.out
            ∧ Tab.get {} t.tlm.streams k.val = { num := x.num + 1, missed := 0 } ∧ SameMemory s t) ∧
      ((i + 1) % n ≠ s.rd TLM_STR_HEAD.VALUE k % n → s.flag TLM_STR_BASE.LOC k = false →
        Answers (Machine.exec (.streamSample k) s) fun t => t.mem = (s.write a (strRecord s k)).mem) ∧
      ((i + 1) % n = s.rd TLM_STR_HEAD.VALUE k % n →
        Answers (Machine.exec (.streamSample k) s) fun t =>
          Tab.get {} t.tlm.streams k.val = { num := x.num + 1, missed := x.missed + 1 } ∧ t.out = s.out
            ∧ SameMemory s t)) ∧
    (∀ v : Word,
      let fld := fun (f : Fld) => bitsOf v.toNat f.lsb f.width
      let l := fld TLM_MTR_CFG.LOG2SIZE
      s.noImage = false → s.flag TLM_MTR_CFG.ENABLE = false → bitOf v.toNat 0 = true → 6 ≤ l → l ≤ 16 → 1 ≤ fld TLM_MTR_CFG.INTERVAL_S →
      fld TLM_MTR_CFG.INTERVAL_S ≤ 3600 → portHost s (fld TLM_MTR_CFG.PORT) = true →
      ringPlaced s (s.flag TLM_MTR_BASE.LOC) (s.rd TLM_MTR_BASE.ADDR * 64) (128 * 2 ^ l) = true →
      (∀ m ∈ s.tlm.meters, m.2.held = []) →
      Answers (Machine.exec (.meterRingEnable v) s) fun t =>
        t.flag TLM_MTR_CFG.ENABLE = true ∧ t.rd TLM_MTR_CFG.INTERVAL_S = fld TLM_MTR_CFG.INTERVAL_S
          ∧ t.rd TLM_MTR_HEAD.INDEX = 0 ∧ t.rd TLM_MTR_TAIL.INDEX = 0 ∧ SameMemory s t) ∧
    (∀ (g : Fin 256) (r : MeterRec), controlFetch s = true → meterGlades s = [g.val] → (s.meter g).ended = [r] →
      (s.meter g).held = [] → mtrRoom s = true → s.flag TLM_MTR_BASE.LOC = true →
      Answers (Machine.exec .meteringInterval s) fun t =>
        .hostWrite (s.rd TLM_MTR_CFG.PORT) none (s.rd TLM_MTR_BASE.ADDR * 64 + 128 * s.rd TLM_MTR_TAIL.INDEX)
            (r.bytes g) false false ∈ t.out
          ∧ (t.meter g).ended = [] ∧ SameMemory s t)

/-- Units that fail, their spares and their service. Readings of the model that clauses follow: log entry 23. Completion:
under premises on the state and the operands alone, a clause concludes that exec answers a next state with the command's own
effect, for marchRequest, marchRequestDone, regionControllerFail, agentMoveDone, quadrantLoss, memRegionDegraded,
mgmtPairDisagree, mgmtFailoverDone, tileHardFault, spareBringInDone, takeOut, returnCmd and coreRestartDone. -/
def Obligations.UnitFailuresAndService : Prop := UnitFailuresHold ∧ UnitServiceHold

/-! ### Glades, instances, queues and doorbells (R116 to R121, R281 to R295) -/

/-- The set-up queue is in force, and its oldest command is `c` with opcode `op`, whose entry will be written (R284, R292). -/
abbrev SetupReady (s : State) (op : Nat) (c : Cmd) : Prop :=
  (s.queue 0).cmds.head? = some c ∧ leAt c.bytes 0 1 = op ∧ c.started = false ∧ c.waiting = false
    ∧ s.flag GLD_SQ_CTRL.ENABLE = true

/-- The set-up command `c` has ended, and its completion with a status and RESULT is due. -/
def SetupDone (c : Cmd) (status result : Nat) (t : State) : Prop :=
  (∀ x ∈ (t.queue 0).cmds, x.entry ≠ c.entry)
    ∧ ∃ d ∈ (t.queue 0).due, d.word0 = c.tag ∧ d.status = status ∧ d.mid = result ∧ d.entry = c.entry

/-- Doorbells (R121, R258, R263, R275, R289): on the home port of its owner a queue's tail, reset and RESUME doorbells and a ring's head
doorbell take effect; a doorbell of another queue is dropped and counted, and so is a write that rings none; on a peer root, and in D3hot, every one is
an Unsupported Request. -/
def DoorbellsHold : Prop :=
  ∀ (s : State) (p : Fin 2) (i : Fin 4096) (v : Word),
    let qid := bitsOf v.toNat 0 24
    let q := s.queue qid
    ((s.port p).d3hot = true ∨ s.flag HEP_PORT_STAT.ROLE p = true → s.rd HEP_CNT.COUNT (8 * p.val + 4) < 2 ^ 64 - 1 →
      ∀ c ∈ [Instr.doorbellTail p i v, .queueResetDoorbell p i v, .resumeDoorbell p i v, .evrHeadDoorbell p i v],
      Answers (Machine.exec c s) fun t =>
        t.rd HEP_CNT.COUNT (8 * p.val + 4) = s.rd HEP_CNT.COUNT (8 * p.val + 4) + 1 ∧ t.queues = s.queues
          ∧ SameMemory s t) ∧
    ((s.port p).d3hot = false → s.flag HEP_PORT_STAT.ROLE p = false →
    (s.flag GLD_INST.VALID i = true → bitsOf v.toNat 24 8 = 0 → doorbellOk s p i qid = true → 2 ≤ qcls qid →
      (bitsOf v.toNat 48 16 = 0 → bitsOf v.toNat 32 16 < q.size →
        Answers (Machine.exec (.doorbellTail p i v) s) fun t =>
          t.queue qid = { q with tail := bitsOf v.toNat 32 16 } ∧ SameMemory s t) ∧
      (q.state = .halted →
        Answers (Machine.exec (.resumeDoorbell p i v) s) fun t =>
          t.queue qid = { q with state := .active } ∧ SameMemory s t) ∧
      (qcls qid = 4 → q.state ≠ .resetting →
        Answers (Machine.exec (.queueResetDoorbell p i v) s) fun t =>
          (t.queue qid).state = .resetting ∧ (t.queue qid).cmds = [] ∧ SameMemory s t
            ∧ ∀ c ∈ q.cmds, ∃ d ∈ (t.queue qid).due, d.entry = c.entry ∧ d.status = St.abortedQueueReset) ∧
      (qcls qid ≠ 4 → q.state ≠ .resetting → q.cmds = [] → (∀ g, g < 64 → (s.ustGroup g).cur = none) →
        ringsOfQueue s (qidx qid) = [] →
        Answers (Machine.exec (.queueResetDoorbell p i v) s) fun t =>
          (t.queue qid).state = .resetting ∧ (t.queue qid).abort = St.abortedQueueReset ∧ SameMemory s t)) ∧
    (s.flag GLD_INST.VALID i = true → bitsOf v.toNat 24 8 = 0 → bitsOf v.toNat 48 16 = 0 → doorbellOk s p i qid = true →
      qcls qid = 1 → s.tileOut (qidx qid / 8) = false → bitsOf v.toNat 32 16 < q.size → bitsOf v.toNat 32 16 < 4096 →
      Answers (Machine.exec (.doorbellTail p i v) s) fun t =>
        t.rd TILE_QSTATUS.TAIL (qidx qid) = bitsOf v.toNat 32 16 ∧ SameMemory s t) ∧
    (s.flag GLD_INST.VALID i = true → doorbellOk s p i qid = false → s.rd GLD_DB_DROP.COUNT < 2 ^ 64 - 1 →
      ∀ c ∈ [Instr.doorbellTail p i v, .queueResetDoorbell p i v, .resumeDoorbell p i v], Answers (Machine.exec c s) fun t =>
        t.rd GLD_DB_DROP.COUNT = s.rd GLD_DB_DROP.COUNT + 1 ∧ t.queues = s.queues ∧ SameMemory s t) ∧
    (s.flag GLD_INST.VALID i = true → bitsOf v.toNat 6 10 = 0 → bitsOf v.toNat 32 32 = 0 → p.val = s.homePort i →
      let r := bitsOf v.toNat 0 6
      s.flag HEP_EVR_CFG.INST_FILT r = true → s.rd HEP_EVR_CFG.INST r = i.val → (s.evrOf r).owed = 0 →
      Answers (Machine.exec (.evrHeadDoorbell p i v) s) fun t =>
        t.rd HEP_EVR_HEAD.INDEX r = bitsOf v.toNat 16 16 ∧ SameRegsBut [HEP_EVR_HEAD.INDEX.addr r] s t ∧ SameMemory s t) ∧
    (∀ (off : BitVec 12) (b : Bool),
      (s.flag GLD_INST.VALID i = true → b = true → off.toNat % 8 = 0 → 0x18 ≤ off.toNat →
        s.rd GLD_DB_DROP.COUNT < 2 ^ 64 - 1 →
        Answers (Machine.exec (.bar2BadWrite p i off b) s) fun t =>
          t.rd GLD_DB_DROP.COUNT = s.rd GLD_DB_DROP.COUNT + 1 ∧ SameRegsBut [GLD_DB_DROP.COUNT.addr 0] s t
            ∧ SameMemory s t) ∧
      (s.flag GLD_INST.VALID i = false ∨ b = false ∨ off.toNat % 8 ≠ 0 → s.rd HEP_CNT.COUNT (8 * p.val + 7) < 2 ^ 64 - 1 →
        Answers (Machine.exec (.bar2BadWrite p i off b) s) fun t =>
          t.rd HEP_CNT.COUNT (8 * p.val + 7) = s.rd HEP_CNT.COUNT (8 * p.val + 7) + 1
            ∧ SameRegsBut [HEP_CNT.COUNT.addr (8 * p.val + 7)] s t ∧ SameMemory s t)))

/-- The rings of a queue (R116 to R121, R284): the set-up queue goes into force with HEAD, TAIL and PHASE restarted and takes a
tail inside its ring; a command is fetched from the head of a ring, here for the set-up queue and a transport queue; the oldest
due completion is written and counted, and the sender of a received message is answered then (R199); and a reset that has ended leaves the rings as new. -/
def QueueRingsHold : Prop :=
  ∀ (s : State),
    (∀ v : Word, s.noImage = false → s.flag GLD_SQ_CTRL.ENABLE = false → 4 ≤ GLD_SQ_CTRL.LOG2SIZE.of v.toNat →
      GLD_SQ_CTRL.LOG2SIZE.of v.toNat ≤ 12 →
      Answers (Machine.exec (.sqEnable v) s) fun t =>
        t.flag GLD_SQ_CTRL.ENABLE = true ∧ t.rd GLD_SQ_CTRL.LOG2SIZE = GLD_SQ_CTRL.LOG2SIZE.of v.toNat
          ∧ t.rd GLD_SQ_CTRL.VECTOR = GLD_SQ_CTRL.VECTOR.of v.toNat ∧ t.rd GLD_SQ_STATUS.HEAD = 0
          ∧ t.flag GLD_SQ_STATUS.PHASE = true ∧ t.rd GLD_SQ_TAIL.TAIL = 0
          ∧ SameRegsBut [GLD_SQ_CTRL.ENABLE.addr 0, GLD_SQ_STATUS.HEAD.addr 0, GLD_SQ_TAIL.TAIL.addr 0] s t
          ∧ SameMemory s t) ∧
    (∀ v : Word, s.noImage = false →
      (bitsOf v.toNat 0 12 < (s.queue 0).size →
        Answers (Machine.exec (.sqTailWrite v) s) fun t =>
          t.rd GLD_SQ_TAIL.TAIL = bitsOf v.toNat 0 12
            ∧ SameRegsBut [GLD_SQ_STATUS.HEAD.addr 0, GLD_SQ_TAIL.TAIL.addr 0] s t ∧ SameMemory s t) ∧
      ((s.queue 0).size ≤ bitsOf v.toNat 0 12 →
        Answers (Machine.exec (.sqTailWrite v) s) fun t =>
          t.rd GLD_SQ_TAIL.TAIL = s.rd GLD_SQ_TAIL.TAIL ∧ t.flag GLD_SQ_STATUS.TAIL_REFUSED = true ∧ SameMemory s t)) ∧
    (∀ b : List Byte, mayFetch s 0 = true → (s.queue 0).host = true → s.hostOn 0 = true → (s.queue 0).log2 ≤ 12 →
      setupFieldsOk (bytesAt b 0 64) = true →
      Answers (Machine.exec (.commandFetch 0 (.data b)) s) fun t =>
        (t.queue 0).cmds = (s.queue 0).cmds ++ [{ bytes := bytesAt b 0 64, entry := (s.queue 0).head, stamp := s.genOf 0,
                                                  started := false, waiting := false }]
          ∧ (t.queue 0).head = ((s.queue 0).head + 1) % (s.queue 0).size ∧ SameMemory s t) ∧
    (∀ (n : Fin 65536) (r : HostReply),
      let qid := salQid n
      let q := s.queue qid
      let a := q.cmdAddr qid q.head
      mayFetch s qid = true → AtHand s (.queue qid) → q.state = .active → q.host = false → q.kind = false →
      (s.gladeRead (s.queueGlade qid) a 64).2 = St.success → salFieldsOk (s.bytes a 64) = true →
      preGranted s (s.queueGlade qid) (s.bytes a 64) = true → bitOf (leAt (s.bytes a 64) 1 1) 1 = false →
      Answers (Machine.exec (.commandFetch (BitVec.ofNat 24 qid) r) s) fun t =>
        t.queue qid = { q with
            head := (q.head + 1) % q.size,
            cmds := q.cmds ++ [{ bytes := s.bytes a 64, entry := q.head, stamp := s.genOf q.inst, started := false,
                                 waiting := false }] }
          ∧ SameMemory s t) ∧
    (∀ (qid : BitVec 24) (d : Done) (rest : List Done),
      let id := qid.toNat
      let q := s.queue id
      let a := q.cbase + 16 * q.wpos
      q.due = d :: rest → mayWriteEntry s id = true → stampOk s id d = true → qcls id = 2 ∨ qcls id = 3 ∨ qcls id = 4 →
      (q.host = true → s.hostOn q.inst = true → s.flag HEP_PORT_STAT.ATS_EN (s.homePort q.inst) = false → d.post = none →
        d.tell = none →
        Answers (Machine.exec (.completionWrite qid) s) fun t =>
          .hostWrite (s.homePort q.inst) (s.pasidOf q.inst) a (entryBytes qid.toNat q d) false false ∈ t.out
            ∧ (t.queue id).due = rest ∧ (t.queue id).count = (q.count + 1) % 2 ^ 64
            ∧ (t.queue id).wpos = (q.wpos + 1) % q.size ∧ SameMemory s t) ∧
      (q.host = false → s.inGladeRgn (s.gladeOf q.inst) a 16 = true → NoneHeld s (s.write a (entryBytes qid.toNat q d)) →
        Answers (Machine.exec (.completionWrite qid) s) fun t =>
          t.mem = (s.write a (entryBytes qid.toNat q d)).mem
            ∧ ∀ src msg st g, d.tell = some (.peer src msg st g) →
                ∃ k ∈ t.fab.responses, k.1 = src ∧ k.2.type = Pt.opResp ∧ k.2.msg = msg ∧ k.2.aux = st)) ∧
    (∀ qid : BitVec 24,
      let q := s.queue qid.toNat
      2 ≤ qcls qid.toNat → s.queueExists qid.toNat = true → q.state = .resetting → q.cmds = [] → q.due = [] →
      q.waiting = 0 →
      Answers (Machine.exec (.queueResetDone qid) s) fun t =>
        t.queue qid.toNat = { q with
            head := 0, tail := 0, phase := true, count := 0, wpos := 0, abort := 0, resetTail := 0, state := .active }
          ∧ SameMemory s t)

/-- Set-up commands on glades and instances (R281 to R288, R290, R328): a glade is created with its quotas and a measurement of
zeros, its quotas change, it is reset with its members and its running programs stop, and it goes when it holds nothing; an
instance takes the lowest free number, its reset advances its generation, and its removal frees it. Each completes with SUCCESS
and its RESULT. -/
def GladesAndInstancesHold : Prop :=
  ∀ (s : State) (c : Cmd),
    let l := c.bytes
    let g := leAt l 8 1
    let w := quotaWords s l
    (SetupReady s 0x01 c → s.gladeExists 0 = true → s.gladeExists g = false → quotasFit s g w = true →
      Answers (Machine.exec .gladeCreate s) fun t =>
        t.gladeExists g = true ∧ (∀ p : Pool, poolQuota t p g = p.part w)
          ∧ (∀ k, k < 8 → t.rd SEC_GLADE_MEAS.BYTES (8 * g + k) = 0) ∧ SetupDone c St.success g t ∧ SameMemory s t) ∧
    (SetupReady s 0x02 c → s.gladeExists g = true → quotasFit s g w = true →
      (∀ p : Pool, poolUse s p g ≤ p.part w ∨ poolQuota s p g ≤ p.part w) →
      Answers (Machine.exec .gladeQuota s) fun t =>
        (∀ p : Pool, poolQuota t p g = p.part w) ∧ SetupDone c St.success g t ∧ SameMemory s t) ∧
    (∀ i : Nat, SetupReady s 0x03 c → s.gladeExists g = true → offloadBusy s g = false → instancesOf s g = [i] →
      tileQueuesOf s i = [] → queuesOf s i = [] → (∀ x ∈ s.streams, x.2.inst ≠ i) →
      Answers (Machine.exec .gladeReset s) fun t =>
        t.genOf i = (s.genOf i + 1) % 65536
          ∧ (∀ k, k < 64 → s.rd CPU_OFL_A.STATE k = 2 → s.rd CPU_OFL_A.GLADE k = g → t.rd CPU_OFL_A.STATE k = 3)
          ∧ SetupDone c St.success 0 t ∧ SameMemory s t) ∧
    (SetupReady s 0x04 c → s.gladeExists g = true → gladeHolds s g = false → keyBusy s g = false →
      s.flag TLM_MTR_GLADE.EN g = false → s.rd TRL_STATUS.GLADE ≠ g →
      Answers (Machine.exec .gladeDestroy s) fun t =>
        t.gladeExists g = false ∧ SetupDone c St.success 0 t ∧ SameMemory s t) ∧
    (let p := b2n (bitOf (leAt l 9 1) 0)
     ∀ k : Nat, SetupReady s 0x05 c → portHost s p = true → (bitOf (leAt l 9 1) 1 = true → (s.port p).pasidEn = true) →
      s.gladeExists g = true → mayTake s .instances g 1 = true →
      (List.range 4095).find? (fun k => !s.flag GLD_INST.VALID (k + 1)) = some k →
      Answers (Machine.exec .instCreate s) fun t =>
        t.flag GLD_INST.VALID (k + 1) = true ∧ t.rd GLD_INST.GLADE (k + 1) = g ∧ t.rd GLD_INST.PORT (k + 1) = p
          ∧ t.flag GLD_INST.PASID_EN (k + 1) = bitOf (leAt l 9 1) 1 ∧ t.genOf (k + 1) = s.genOf (k + 1)
          ∧ SetupDone c St.success (k + 1 + 2 ^ 16 * s.genOf (k + 1)) t ∧ SameMemory s t) ∧
    (let i := leAt l 12 2
     let n := (s.genOf i + 1) % 65536
     i < 4096 → i ≠ 0 → s.flag GLD_INST.VALID i = true → tileQueuesOf s i = [] → queuesOf s i = [] →
      (∀ x ∈ s.streams, x.2.inst ≠ i) →
      (SetupReady s 0x06 c →
        Answers (Machine.exec .instReset s) fun t =>
          t.genOf i = n ∧ t.flag GLD_INST.VALID i = true ∧ SetupDone c St.success n t ∧ SameMemory s t) ∧
      (SetupReady s 0x07 c →
        Answers (Machine.exec .instDestroy s) fun t =>
          t.genOf i = n ∧ t.flag GLD_INST.VALID i = false ∧ SetupDone c St.success n t ∧ SameMemory s t))

/-- Set-up commands on queues and registrations (R190, R191, R285, R290, R311): a queue is created ACTIVE under the lowest free
number of its class, also by the admin command CREATE_QUEUE, and removed; a registration takes the lowest free index under its
generation, and its removal clears it and completes once nothing that passed its check is left. -/
def QueuesAndRegistrationsHold : Prop :=
  ∀ (s : State) (c : Cmd),
    let l := c.bytes
    (∀ k : Nat,
      let i := leAt l 12 2
      let g := s.gladeOf i
      let made := fun (cls : Nat) (kind : Bool) (pd : Nat) (t : State) =>
        t.queue (mkQid cls k)
            = { valid := true, inst := i, host := bitOf (leAt l 9 1) 0, log2 := leAt l 10 1, prio := leAt l 11 1,
                vector := leAt l 14 2, base := leAt l 16 8, cbase := leAt l 24 8, kind := kind, pd := pd,
                state := .active }
          ∧ SetupDone c St.success (mkQid cls k) t ∧ SameMemory s t
      SetupReady s 0x08 c → s.flag GLD_INST.VALID i = true → mayTakeCtx s g 1 = true →
      (∀ h : Fin 4, (s.cached h).length < cacheSize) →
      (leAt l 8 1 = 3 → s.feature 2 = true → freeQueue s 3 0 256 = some k → Answers (Machine.exec .queueCreate s) (made 3 false 0)) ∧
      (let pd := leAt l 34 2
       leAt l 8 1 = 4 → freeQueue s 4 0 65536 = some k → s.flag FAB_SAL_PD.VALID pd = true →
        s.rd FAB_SAL_PD.GLADE pd = g → pd < 4096 →
        Answers (Machine.exec .queueCreate s) (made 4 (bitOf (leAt l 33 1) 0) pd))) ∧
    (∀ n : Fin 65536,
      let qid := salQid n
      let q := s.queue qid
      SetupReady s 0x09 c → leAt l 16 4 = qid → q.valid = true → q.cmds = [] → q.due = [] → q.waiting = 0 → s.waits = [] →
      Answers (Machine.exec .queueDelete s) fun t =>
        t.queue qid = {} ∧ SetupDone c St.success 0 t ∧ SameMemory s t) ∧
    (∀ i : Nat,
      let pd := leAt l 32 2
      let g := s.rd FAB_SAL_PD.GLADE pd
      let e : RegEntry := { base := leAt l 16 8, length := leAt l 24 8, pd := pd, rights := leAt l 34 1,
                            gen := (s.regEntry i).gen, valid := true, glade := g }
      SetupReady s 0x0A c → s.flag FAB_SAL_RKT_CFG.ENABLE = true → s.flag FAB_SAL_PD.VALID pd = true → pd < 4096 →
      mayRegister s g (leAt l 16 8) (leAt l 24 8) = true → freeReg s = some i →
      Answers (Machine.exec .regCreate s) fun t =>
        t.mem = (s.setRegEntry i e).mem ∧ SetupDone c St.success (keyOf i e.gen) t) ∧
    (let i := keyIndex (leAt l 16 4)
     SetupReady s 0x0B c → keyStatus s (leAt l 16 4) = St.success → (s.regEntry i).pd < 4096 → regBusy (removeReg s i) i = false →
      Answers (Machine.exec .regRemove s) fun t => t.mem = (removeReg s i).mem ∧ SetupDone c St.success 0 t) ∧
    ((s.queue 0).cmds.head? = some c → leAt l 0 1 = 0x0B → c.started = true → c.waiting = false →
      s.flag GLD_SQ_CTRL.ENABLE = true → regBusy s (keyIndex (leAt l 16 4)) = false →
      Answers (Machine.exec .regRemoveDrained s) fun t => SetupDone c St.success 0 t ∧ SameMemory s t) ∧
    (∀ (q : Fin 8192) (k : Nat), (s.queue (stqQid q)).kind = true → (s.queue (stqQid q)).valid = true →
      (s.queue (stqQid q)).inst = 0 → NoFlush s q → s.waits = [] →
      (∀ n : Nat,
        let m := adminSetup 0x08 l
        let i := leAt m 12 2
        let g := s.gladeOf i
        StqReady s q 0x87 c k → setupFieldsOk m = true → leAt m 8 1 = 5 → s.feature 6 = true → i < 4096 →
        s.flag GLD_INST.VALID i = true → mayTakeCtx s g 32 = true → mayTake s .stq g 1 = true → s.rd GLD_INST.STQ i < 64 →
        bitOf (leAt m 40 1) 0 = false → freeQueue s 5 0 8192 = some n →
        Answers (Machine.exec (.createQueue q) s) fun t =>
          (t.queue (stqQid n)).valid = true ∧ (t.queue (stqQid n)).inst = i ∧ (t.queue (stqQid n)).base = leAt m 16 8
            ∧ (t.queue (stqQid n)).cbase = leAt m 24 8 ∧ (t.queue (stqQid n)).state = .active
            ∧ EndedWith (stqQid q) c St.success (stqQid n) t) ∧
      (∀ r : Fin 8192, StqReady s q 0x88 c k → setupFieldsOk (adminSetup 0x09 l) = true →
        leAt (adminSetup 0x09 l) 16 4 = stqQid r → r ≠ q → (s.queue (stqQid r)).valid = true →
        (s.queue (stqQid r)).cmds = [] → (s.queue (stqQid r)).due = [] → (s.queue (stqQid r)).inst < 4096 →
        Answers (Machine.exec (.deleteQueue q) s) fun t =>
          t.queue (stqQid r) = {} ∧ EndedWith (stqQid q) c St.success 0 t))

/-- Doorbells, the set-up queue, fetching and completion entries. Readings of the model that clauses follow: log entry 9.
Completion: under premises on the state and the operands alone, a clause concludes that exec answers a next state with the
command's own effect, for doorbellTail, queueResetDoorbell, resumeDoorbell, evrHeadDoorbell, bar2BadWrite, queueResetDone,
commandFetch, completionWrite, sqEnable and sqTailWrite. -/
def Obligations.QueuesFromOutside : Prop := DoorbellsHold ∧ QueueRingsHold

/-- What set-up commands do to glades, instances, queues and registrations. Readings of the model that clauses follow: log
entries 11 and 19. Completion: under premises on the state and the operands alone, a clause concludes that exec answers a next
state with the command's own effect, for gladeCreate, gladeQuota, gladeReset, gladeDestroy, instCreate, instReset,
instDestroy, queueCreate, queueDelete, regCreate, regRemove, regRemoveDrained, createQueue and deleteQueue. -/
def Obligations.SetupCommands : Prop := GladesAndInstancesHold ∧ QueuesAndRegistrationsHold

/-! ### The host ports (R258 to R280) -/

/-- The registers of a port's tags (R280). -/
def tagRegs (p : Nat) : List Nat := [HEP_TAG_STAT.OUTSTANDING.addr p]

/-- No instance, no event ring in force and no operation depends on port `p`, and no image is fetched through it. -/
abbrev PortIdle (s : State) (p : Nat) : Prop :=
  homedOn s p = [] ∧ (∀ r, r < 64 → s.flag HEP_EVR_CFG.ENABLE r = true → s.rd HEP_EVR_CFG.PORT r ≠ p)
    ∧ (∀ x ∈ (s.port p).outstanding, x.owner = none) ∧ (∀ x ∈ (s.port p).waiting, x.owner = none) ∧ s.fw.loading = none

/-- Requests to the host and errors (R263 to R267, R270, R271): a waiting request takes the tag that has been free longest; a
completion is matched to its tag and frees it, and one that matches none counts; a request that times out quarantines its tag
until the quarantine ends; requests the device does not support, poisoned writes and failed checks are answered, counted and
logged. -/
def HostRequestsHold : Prop :=
  ∀ (s : State) (p : Fin 2) (tag : BitVec 14),
    let h := s.port p
    (∀ (r : HostReq) (rest : List HostReq) (g : Nat) (h' : HostPort), h.waiting = r :: rest → s.masterOn p = true →
      h.outstanding.length < tagLimit s p → takeTag s p = some (g, h') →
      Answers (Machine.exec (.hostReadIssue p) s) fun t =>
        (t.port p).waiting = rest ∧ (t.port p).outstanding = h.outstanding ++ [{ r with tag := g }]
          ∧ t.out = s.out ++ [.hostRead p g r.pasid r.addr r.len] ∧ SameRegsBut (tagRegs p) s t ∧ SameMemory s t) ∧
    (∀ (r : HostReq) (l : List Byte) (id : BitVec 16), h.outstanding.find? (fun x => x.tag == tag.toNat) = some r →
      r.dropped = false → r.owner = none →
      Answers (Machine.exec (.hostCompletion p tag id (.data l)) s) fun t =>
        (t.port p).outstanding = h.outstanding.filter (fun x => x.tag != tag.toNat)
          ∧ (t.port p).freed = h.freed ++ [tag.toNat] ∧ SameRegsBut (tagRegs p) s t ∧ SameMemory s t) ∧
    (∀ (id : BitVec 16) (y : HostReply), h.outstanding.find? (fun x => x.tag == tag.toNat) = none →
      s.rd HEP_CNT.COUNT (8 * p.val + 1) < 2 ^ 64 - 1 →
      Answers (Machine.exec (.hostCompletion p tag id y) s) fun t =>
        t.rd HEP_CNT.COUNT (8 * p.val + 1) = s.rd HEP_CNT.COUNT (8 * p.val + 1) + 1
          ∧ .unexpectedCompletion ∈ (t.port p).aer ∧ SameMemory s t) ∧
    (∀ r : HostReq, h.outstanding.find? (fun x => x.tag == tag.toNat) = some r → r.owner = none → r.silent = false →
      s.rd HEP_CNT.COUNT (8 * p.val) < 2 ^ 64 - 1 → Listening s →
      Answers (Machine.exec (.completionTimeout p tag) s) fun t =>
        (t.port p).outstanding = h.outstanding.filter (fun x => x.tag != tag.toNat)
          ∧ (t.port p).quarantine = h.quarantine ++ [tag.toNat] ∧ .completionTimeout ∈ (t.port p).aer
          ∧ t.rd HEP_CNT.COUNT (8 * p.val) = s.rd HEP_CNT.COUNT (8 * p.val) + 1 ∧ HasRecord 0x0C01 t ∧ SameMemory s t) ∧
    (tag.toNat ∈ h.quarantine →
      Answers (Machine.exec (.tagQuarantineExpire p tag) s) fun t =>
        t.port p = { h with quarantine := h.quarantine.filter (· != tag.toNat), freed := h.freed ++ [tag.toNat] }
          ∧ SameRegsBut (tagRegs p) s t ∧ SameMemory s t) ∧
    (s.rd HEP_CNT.COUNT (8 * p.val + 4) < 2 ^ 64 - 1 →
      ∀ b : Bool, Answers (Machine.exec (.hostUnsupportedRequest p tag b) s) fun t =>
        t.out = s.out ++ (if b then [] else [.completion p tag.toNat Cpl.unsupported [] false])
          ∧ .unsupportedRequest ∈ (t.port p).aer
          ∧ t.rd HEP_CNT.COUNT (8 * p.val + 4) = s.rd HEP_CNT.COUNT (8 * p.val + 4) + 1
          ∧ SameRegsBut (HEP_CNT.COUNT.addr (8 * p.val + 4) :: tagRegs p) s t ∧ SameMemory s t) ∧
    (s.rd HEP_CNT.COUNT (8 * p.val + 2) < 2 ^ 64 - 1 →
      Answers (Machine.exec (.poisonedWriteReceived p) s) fun t =>
        .poisonedTlp ∈ (t.port p).aer ∧ t.rd HEP_CNT.COUNT (8 * p.val + 2) = s.rd HEP_CNT.COUNT (8 * p.val + 2) + 1
          ∧ SameRegsBut (HEP_CNT.COUNT.addr (8 * p.val + 2) :: tagRegs p) s t ∧ SameMemory s t) ∧
    (∀ e : AerErr, rxError h e = true →
      Answers (Machine.exec (.tlpErrorReceived p e) s) fun t =>
        e ∈ (t.port p).aer ∧ SameRegsBut (tagRegs p) s t ∧ SameMemory s t) ∧
    Answers (Machine.exec (.hostPortInternalError p true) s) (fun t =>
      .correctedInternal ∈ (t.port p).aer ∧ SameRegsBut (tagRegs p) s t ∧ SameMemory s t)

/-- Event rings and MSI-X (R272, R275, R276, R280): the oldest raised record is written to the ring it is due for, in host memory
or in device memory; a ring goes into force over a valid place and size, its head is reported, and a message held back by its
holdoff goes out; removing a vector's mask sends its pending message. -/
def EventRingsHold : Prop :=
  ∀ (s : State) (r : Fin 64),
    (∀ (x : Raised) (rest : List Raised), s.events = x :: rest → x.due = [r.val] → s.flag HEP_EVR_CFG.ENABLE r = true →
      evrReach s r = true → (s.evrOf r).owed = 0 → 1 ≤ evrRoom s r →
      let a := s.rd HEP_EVR_BASE.ADDR r * 64 + 32 * s.rd HEP_EVR_TAIL.INDEX r
      let next := (s.rd HEP_EVR_TAIL.INDEX r + 1) % evrSize s r % 2 ^ HEP_EVR_TAIL.INDEX.width
      (s.flag HEP_EVR_BASE.LOC r = true → s.flag HEP_PORT_STAT.ATS_EN (s.rd HEP_EVR_CFG.PORT r) = false →
        Answers (Machine.exec .eventWrite s) fun t =>
          .hostWrite (s.rd HEP_EVR_CFG.PORT r) (evrPasid s r) a x.event.bytes false false ∈ t.out
            ∧ t.rd HEP_EVR_TAIL.INDEX r = next ∧ (s.flag HEP_EVR_WB.WB_EN r = true → t.events = rest ∧ SameMemory s t)) ∧
      (s.flag HEP_EVR_BASE.LOC r = false → s.flag HEP_EVR_WB.WB_EN r = false →
        Answers (Machine.exec .eventWrite s) fun t => t.mem = (s.write a x.event.bytes).mem)) ∧
    (∀ v : Word,
      let fld := fun (f : Fld) => f.of v.toNat
      let l := fld HEP_EVR_CFG.LOG2SIZE
      s.noImage = false → s.flag HEP_EVR_CFG.ENABLE r = false → 6 ≤ l → l ≤ 16 → portHost s (fld HEP_EVR_CFG.PORT) = true →
      ringPlaced s (s.flag HEP_EVR_BASE.LOC r) (s.rd HEP_EVR_BASE.ADDR r * 64) (32 * 2 ^ l) = true →
      (s.evrOf r).owed = 0 →
      Answers (Machine.exec (.evrEnable r v) s) fun t =>
        t.flag HEP_EVR_CFG.ENABLE r = true ∧ t.rd HEP_EVR_CFG.LOG2SIZE r = l ∧ t.rd HEP_EVR_HEAD.INDEX r = 0
          ∧ t.rd HEP_EVR_TAIL.INDEX r = 0
          ∧ SameRegsBut [HEP_EVR_CFG.ENABLE.addr r, HEP_EVR_HEAD.INDEX.addr r, HEP_EVR_TAIL.INDEX.addr r] s t
          ∧ SameMemory s t) ∧
    (∀ v : BitVec 16, s.noImage = false → (s.evrOf r).owed = 0 →
      Answers (Machine.exec (.evrHeadWrite r v) s) fun t =>
        t.rd HEP_EVR_HEAD.INDEX r = v.toNat ∧ SameRegsBut [HEP_EVR_HEAD.INDEX.addr r] s t ∧ SameMemory s t) ∧
    ((s.evrOf r).held = true →
      Answers (Machine.exec (.evrHoldoffExpire r) s) fun t =>
        (t.evrOf r).held = false ∧ (t.evrOf r).lastMsg = some s.now
          ∧ (s.msixOpen (s.rd HEP_EVR_CFG.PORT r) (s.rd HEP_EVR_CFG.VECTOR r) = true →
              t.out = s.out ++ [.msix (s.rd HEP_EVR_CFG.PORT r) (s.rd HEP_EVR_CFG.VECTOR r)])
          ∧ SameMemory s t) ∧
    (∀ (p : Fin 2) (v : Fin 2048), cfgOk s p = true → portHost s p = true → (s.port p).msixEn = true → (s.port p).msixMask = false →
      s.masterOn p = true → (s.port p).pba = [v.val] →
      Answers (Machine.exec (.msixUnmask p (some v) false) s) fun t =>
        t.out = s.out ++ [.msix p v] ∧ (t.port p).pba = [] ∧ v.val ∈ (t.port p).unmasked ∧ SameRegsBut (tagRegs p) s t
          ∧ SameMemory s t)

/-- The functions of the ports (R261, R264, R268, R269, R277, R287), here on a port that no instance, ring or operation
depends on: Bus Master Enable and PASID Enable take host access away and give it back, a function-level reset, a hot reset and
DL_Down reset the function, the link reports its state, and configuration writes set what they name. Readings of the model
that clauses follow: log entry 26. Completion: under premises on the state and the operands alone, a clause concludes that
exec answers a next state with the command's own effect, for pcieConfigWrite, bmeClear, bmeSet, flr, flrDone, hotReset,
dlDown, linkStateChange, pasidEnableClear, d3hotEntry and bar4Resize. -/
def Obligations.HostPortFunctions : Prop :=
  ∀ (s : State) (p : Fin 2),
    let h := s.port p
    let quiet := fun (t : State) => (∀ x ∈ (t.port p).outstanding, x.dropped = true ∧ x.silent = true)
      ∧ (t.port p).waiting = [] ∧ SameMemory s t
    let wiped := fun (t : State) => t.flag HEP_PORT_STAT.BME p = false ∧ (t.port p).pasidEn = false
      ∧ (t.port p).msixEn = false ∧ (t.port p).unmasked = [] ∧ (t.port p).pba = [] ∧ (t.port p).d3hot = false
      ∧ (t.port p).mrrs = 512 ∧ (p.val = s.medPort → t.flag GLD_SQ_CTRL.ENABLE = false)
    (PortIdle s p → Listening s →
      (cfgOk s p = true → s.flag HEP_PORT_STAT.BME p = true →
        Answers (Machine.exec (.bmeClear p) s) fun t =>
          t.flag HEP_PORT_STAT.BME p = false ∧ quiet t ∧ HasRecord 0x0C04 t
            ∧ SameRegsBut (HEP_PORT_STAT.BME.addr p :: tagRegs p) s t) ∧
      (cfgOk s p = true → h.pasidEn = true →
        Answers (Machine.exec (.pasidEnableClear p) s) fun t =>
          (t.port p).pasidEn = false ∧ SameRegsBut (tagRegs p) s t ∧ SameMemory s t) ∧
      (cfgOk s p = true →
        Answers (Machine.exec (.flr p) s) fun t =>
          wiped t ∧ quiet t ∧ t.flag HEP_PORT_STAT.FLR_BUSY p = true ∧ (t.port p).retry = true ∧ HasRecord 0x0C05 t) ∧
      (h.inReset = false →
        Answers (Machine.exec (.hotReset p) s) fun t =>
          wiped t ∧ quiet t ∧ t.flag HEP_PORT_STAT.LINK_UP p = false ∧ t.flag HEP_PORT_STAT.FLR_BUSY p = false
            ∧ HasRecord 0x0C05 t) ∧
      (s.flag HEP_PORT_STAT.LINK_UP p = true →
        Answers (Machine.exec (.dlDown p) s) fun t =>
          wiped t ∧ quiet t ∧ t.flag HEP_PORT_STAT.LINK_UP p = false ∧ HasRecord 0x0C05 t ∧ HasRecord 0x0C03 t)) ∧
    (cfgOk s p = true → s.flag HEP_PORT_STAT.BME p = false → h.pba = [] →
      Answers (Machine.exec (.bmeSet p) s) fun t =>
        t.flag HEP_PORT_STAT.BME p = true ∧ SameRegsBut [HEP_PORT_STAT.BME.addr p] s t ∧ SameMemory s t) ∧
    (s.flag HEP_PORT_STAT.FLR_BUSY p = true →
      Answers (Machine.exec (.flrDone p) s) fun t =>
        t.flag HEP_PORT_STAT.FLR_BUSY p = false ∧ (t.port p).retry = !portAnswers s
          ∧ SameRegsBut (HEP_PORT_STAT.FLR_BUSY.addr p :: tagRegs p) s t ∧ SameMemory s t) ∧
    (∀ (speed : Fin 7) (width : Fin 17) (flit : Bool), h.inReset = false → h.training = true → p.val ∉ s.pins.hclkLost →
      speed.val ≤ h.maxSpeed → width.val ≤ h.maxWidth → speed.val ≠ 0 → width.val ≠ 0 →
      Answers (Machine.exec (.linkStateChange p true speed width flit) s) fun t =>
        t.flag HEP_PORT_STAT.LINK_UP p = true ∧ t.rd HEP_PORT_STAT.SPEED p = speed.val
          ∧ t.rd HEP_PORT_STAT.WIDTH p = width.val ∧ t.flag HEP_PORT_STAT.FLIT p = flit
          ∧ (s.flag HEP_PORT_STAT.LINK_UP p = false → Listening s → HasRecord 0x0C03 t) ∧ SameMemory s t) ∧
    (cfgOk s p = true →
      (∀ n : BitVec 4, Answers (Machine.exec (.pcieConfigWrite p (.cplTimeout n)) s) fun t =>
        t.rd HEP_CPL_TO_CFG.RANGE p = n.toNat ∧ SameRegsBut [HEP_CPL_TO_CFG.RANGE.addr p] s t ∧ SameMemory s t) ∧
      (∀ n : Fin 3, Answers (Machine.exec (.pcieConfigWrite p (.tagWidth n)) s) fun t =>
        t.rd HEP_PORT_STAT.TAGW p = n.val ∧ SameRegsBut [HEP_PORT_STAT.TAGW.addr p] s t ∧ SameMemory s t) ∧
      (∀ k : Fin 6, Answers (Machine.exec (.pcieConfigWrite p (.readSize k)) s) fun t =>
        t.port p = { h with mrrs := 128 * 2 ^ k.val } ∧ SameMemory s t) ∧
      (∀ e : AerErr, Answers (Machine.exec (.pcieConfigWrite p (.aerClear e)) s) fun t =>
        t.port p = { h with aer := h.aer.filter (· != e) } ∧ SameMemory s t) ∧
      Answers (Machine.exec (.pcieConfigWrite p .d0) s) (fun t => t.port p = { h with d3hot := false } ∧ SameMemory s t) ∧
      Answers (Machine.exec (.d3hotEntry p) s) (fun t =>
        t.port p = { h with d3hot := true } ∧ SameRegsBut (tagRegs p) s t ∧ SameMemory s t) ∧
      (h.bar4On = true → ∀ k : Fin 9, Answers (Machine.exec (.bar4Resize p k) s) fun t =>
        t.port p = { h with bar4Log2 := k.val } ∧ SameRegsBut (tagRegs p) s t ∧ SameMemory s t))

/-- Requests of the host and event rings. Readings of the model that clauses follow: log entries 10 and 26. Completion: under
premises on the state and the operands alone, a clause concludes that exec answers a next state with the command's own effect,
for msixUnmask, hostUnsupportedRequest, poisonedWriteReceived, hostReadIssue, hostCompletion, completionTimeout,
tagQuarantineExpire, eventWrite, evrHoldoffExpire, evrEnable, evrHeadWrite, tlpErrorReceived and hostPortInternalError. -/
def Obligations.HostRequestsAndEvents : Prop := HostRequestsHold ∧ EventRingsHold

/-! ### The memory stacks and the register space (R6, R22 to R24, R69 to R92) -/

/-- The codeword at `cw` is held by a channel, within reach, and not in a row that is being copied. -/
abbrev Reached (s : State) (cw ch bank row : Nat) : Prop :=
  mapAddr s cw = some (ch, bank, row) ∧ cwLost s cw = false ∧ rowHeld s ch bank row = false

/-- Codewords read and written by a channel controller (R20, R74 to R78, R80, R92): good and corrected data are returned and
counted, an uncorrectable codeword and a poisoned one answer MEDIUM_ERROR, an address no channel holds answers PROTECTION_FAULT,
a write stores its bytes and answers, and one that mirroring holds back waits in the controller (R91); patrol scrub reads the next codeword and refresh takes the next bank. -/
def CodewordsHold : Prop :=
  ∀ (s : State) (a : BitVec 40) (ch bank row : Nat),
    let cw := cwOf a.toNat
    (Reached s cw ch bank row → s.closedAt cw 64 = false → ch < 64 → cw ∉ s.dram.poison →
      (Answers (Machine.exec (.memRead a .clean) s) fun t =>
        t.out = s.out ++ [.answer St.success (s.bytes cw 64)] ∧ SameRegsBut [] s t ∧ SameMemory s t) ∧
      (∀ (n : Fin 73) (low : Fin 72), 1 ≤ n.val → s.rd MEM_CE_CNT.COUNT ch < 2 ^ 64 - 1 →
        n.val ≤ corrCap s ch →
        Answers (Machine.exec (.memRead a (.errors n low none)) s) fun t =>
          t.out = s.out ++ [.answer St.success (s.bytes cw 64)]
            ∧ t.rd MEM_CE_CNT.COUNT ch = s.rd MEM_CE_CNT.COUNT ch + 1 ∧ SameMemory s t) ∧
      (∀ (n : Fin 73) (low : Fin 72) (still : Option (Fin 72)), s.rd MEM_UE_CNT.COUNT ch < 2 ^ 64 - 1 → corrCap s ch < n.val →
        n.val ≤ detectCap s ch → ringsFor s (s.gladeAt cw) 0 ≠ [] →
        Answers (Machine.exec (.memRead a (.errors n low still)) s) fun t =>
          t.out = s.out ++ [.answer St.mediumError []] ∧ t.rd MEM_UE_CNT.COUNT ch = s.rd MEM_UE_CNT.COUNT ch + 1
            ∧ cw ∈ t.dram.bad ∧ HasRecord 0x0402 t ∧ SameMemory s t) ∧
      (∀ l : List Byte, l.length = 64 → a.toNat % 64 = 0 → writeRule s a.toNat 64 = .wait →
        Answers (Machine.exec (.memWrite a l .clean) s) fun t =>
          t.dram.held = s.dram.held ++ [{ addr := a.toNat, len := 64, write := some l }] ∧ t.out = s.out ∧ SameMemory s t) ∧
      (∀ l : List Byte, l.length = 64 → a.toNat % 64 = 0 → writeRule s a.toNat 64 ≠ .wait →
        Answers (Machine.exec (.memWrite a l .clean) s) fun t =>
          t.mem = (s.writeMem a.toNat l).1.mem ∧ .answer (s.writeMem a.toNat l).2 [] ∈ t.out) ∧
      (∀ l : List Byte, l.length < 64 → a.toNat % 64 + l.length ≤ 64 → cw ∉ s.dram.bad →
        writeRule s a.toNat l.length ≠ .wait →
        Answers (Machine.exec (.memWrite a l .clean) s) fun t =>
          t.mem = (s.writeMem a.toNat l).1.mem ∧ .answer (s.writeMem a.toNat l).2 [] ∈ t.out)) ∧
    (∀ f, Reached s cw ch bank row → s.closedAt cw 64 = false → cw ∈ s.dram.poison →
      Answers (Machine.exec (.memRead a f) s) fun t =>
        t.out = s.out ++ [.answer St.mediumError []] ∧ SameRegsBut [] s t ∧ SameMemory s t) ∧
    (∀ f l, mapAddr s cw = none → ∀ c ∈ [Instr.memRead a f, .memWrite a l f],
      Answers (Machine.exec c s) fun t =>
        t.out = s.out ++ [.answer St.protectionFault []] ∧ SameRegsBut [] s t ∧ SameMemory s t) ∧
    (let pos := s.rd MEM_SCRUB_POS.ADDR
     Reached s pos ch bank row → s.flag MEM_SCRUB_CFG.ENABLE = true → s.boot.warm = 0 → ch < 64 →
      (pos + 64 < s.top → pos + 64 < 2 ^ 40 →
        Answers (Machine.exec (.scrubRead .clean) s) fun t =>
          t.rd MEM_SCRUB_POS.ADDR = pos + 64 ∧ SameRegsBut [MEM_SCRUB_POS.ADDR.addr 0] s t ∧ SameMemory s t) ∧
      (s.top ≤ pos + 64 → Listening s →
        Answers (Machine.exec (.scrubRead .clean) s) fun t =>
          t.rd MEM_SCRUB_POS.ADDR = 0 ∧ t.dram.persist = [] ∧ HasRecord 0x040B t ∧ SameMemory s t)) ∧
    (∀ c : Fin 64, Answers (Machine.exec (.refreshTick c) s) fun t =>
      t = { s with dram := { s.dram with
        refresh := Tab.set 0 s.dram.refresh c.val ((Tab.get 0 s.dram.refresh c.val + 1) % 8) } })

/-- Repair, scrub settings, layout and the region table (R70, R72, R77, R79, R80, R82, R87, R90): a copied row is redirected to
its spare row, a faulty bank is fenced and takes a free entry, the scrub settings and the layout are written or refused, a region
that fits goes into force and one of size 0 is refused, and one is given up. -/
def MemoryTablesHold : Prop :=
  ∀ (s : State),
    (∀ (j : SpareJob) (rest : List SpareJob), s.dram.sparing = j :: rest → j.bank < 512 → s.dram.held = [] →
      ringsFor s (s.gladeAt j.page) 0 ≠ [] →
      Answers (Machine.exec .rowSpareDone s) fun t =>
        t.dram.sparing = rest ∧ (j.bank, j.row, j.spare) ∈ t.dram.spared
          ∧ (∀ cw ∈ s.dram.bad, pageOf cw = j.page → cw ∈ t.dram.poison ∧ cw ∉ t.dram.bad)
          ∧ t.rd MEM_SPARE_USE.USED j.bank = spareRowsUsed t j.bank ∧ HasRecord 0x0403 t
          ∧ SameMemory s t) ∧
    (∀ b : Fin 512, b.val ∈ s.dram.faulty → s.dram.held = [] → Listening s →
      Answers (Machine.exec (.bankFence b) s) fun t =>
        b.val ∈ t.dram.fenced ∧ b.val ∉ t.dram.faulty ∧ HasRecord 0x0405 t ∧ SameMemory s t
          ∧ (∀ i, leastBelow 8 (fun i => s.rd MEM_RETIRE.STATE i == 0) = some i →
              t.rd MEM_RETIRE.CHANNEL i = b.val / 8 ∧ t.rd MEM_RETIRE.BANK i = b.val % 8 ∧ t.rd MEM_RETIRE.STATE i = 1)
          ∧ (leastBelow 8 (fun i => s.rd MEM_RETIRE.STATE i == 0) = none → t.flag MEM_STATUS.RETIRE_FULL = true)) ∧
    (∀ v : Word, s.noImage = false → Answers (Machine.exec (.scrubCfgWrite v) s) fun t =>
      t.rd MEM_SCRUB_CFG.ENABLE = bitsOf v.toNat 8 1 ∧ t.rd MEM_SCRUB_CFG.CE_STEP = bitsOf v.toNat 16 16
        ∧ t.rd MEM_SCRUB_CFG.PERIOD_H
            = (if 1 ≤ v.toNat % 256 ∧ v.toNat % 256 ≤ 168 then v.toNat % 256 else s.rd MEM_SCRUB_CFG.PERIOD_H)
        ∧ SameRegsBut [MEM_SCRUB_CFG.ENABLE.addr 0] s t ∧ SameMemory s t) ∧
    (∀ v : Word, s.noImage = false →
      let l := v.toNat % 64
      (l = s.localGib →
        Answers (Machine.exec (.memLayoutWrite v) s) fun t =>
          t.rd MEM_LAYOUT.CORR_LIMIT = bitsOf v.toNat 8 1 ∧ t.localGib = l
            ∧ SameRegsBut [MEM_LAYOUT.LOCAL_GIB.addr 0] s t ∧ SameMemory s t) ∧
      (l ≠ s.localGib → l ≤ 40 → anyRegion s = false → localFits s l = true →
        Answers (Machine.exec (.memLayoutWrite v) s) fun t =>
          t.localGib = l ∧ t.rd MEM_LAYOUT.CORR_LIMIT = bitsOf v.toNat 8 1 ∧ t.flag MEM_STATUS.CONTENTS_KEPT = false
            ∧ (∀ a, scratchBase ≤ a → t.byte a = s.byte a)) ∧
      (l ≠ s.localGib → 40 < l ∨ anyRegion s = true →
        Answers (Machine.exec (.memLayoutWrite v) s) fun t =>
          t.localGib = s.localGib ∧ t.flag MEM_STATUS.LAYOUT_REFUSED = true
            ∧ SameRegsBut [MEM_STATUS.LAYOUT_REFUSED.addr 0] s t ∧ SameMemory s t)) ∧
    (∀ (k : Fin 1024) (v : Word) (m : Bool), s.noImage = false → s.flag MEM_RGN_A.VALID k = false →
      let n := s.rd MEM_RGN_B.SIZE k
      let g := bitsOf v.toNat 8 8
      let base := bitsOf v.toNat 21 17
      (n ≠ 0 → 0x200000 * base + 0x200000 * n ≤ s.top → s.gladeExists g = true → mayTake s .dram g n = true →
        (∀ j, j < 1024 → s.flag MEM_RGN_A.VALID j = true →
          rgnBase s j + rgnLen s j ≤ 0x200000 * base ∨ 0x200000 * base + 0x200000 * n ≤ rgnBase s j) →
        bitOf v.toNat 1 = false ∨ (s.pair = Pair.paired ∧ m = true) →
        Answers (Machine.exec (.regionValidSet k v m) s) fun t =>
          t.flag MEM_RGN_A.VALID k = true ∧ t.rd MEM_RGN_A.GLADE k = g ∧ t.rd MEM_RGN_A.BASE k = base
            ∧ t.flag MEM_RGN_A.MIRROR k = bitOf v.toNat 1 ∧ t.flag MEM_RGN_A.MIRROR_TARGET k = bitOf v.toNat 2
            ∧ poolUse t .dram g = (poolUse s .dram g + n) % 2 ^ (Pool.use .dram).width ∧ SameMemory s t) ∧
      (n = 0 →
        Answers (Machine.exec (.regionValidSet k v m) s) fun t =>
          t.flag MEM_RGN_A.VALID k = false ∧ t.flag MEM_STATUS.RGN_REFUSED = true ∧ SameMemory s t)) ∧
    (∀ k : Fin 1024, s.noImage = false → s.flag MEM_RGN_A.VALID k = true → s.flag FAB_SAL_RKT_CFG.ENABLE = false →
      s.dram.clearing = [] → s.dram.mirrorHeld = [] → s.rings = [] →
      (below 4096 fun v => s.flag STQ_VOL_A.VALID v) = [] →
      Answers (Machine.exec (.regionValidClear k) s) fun t =>
        t.flag MEM_RGN_A.VALID k = false ∧ t.flag MEM_RGN_A.STALE k = false
          ∧ poolUse t .dram (s.rd MEM_RGN_A.GLADE k) = poolUse s .dram (s.rd MEM_RGN_A.GLADE k) - s.rd MEM_RGN_B.SIZE k
          ∧ SameMemory s t)

/-- The register space from the host (R6, R22 to R24): a write of an aligned word to a register that only holds its fields is
taken field by field by its kind of access; accesses of a bad size, to the reserved range and to a tile that is out of service
set their flag and FIRST_OFFSET, reads among them answering ones or zeros. Readings of the model that clauses follow: log
entry 32. Completion: under premises on the state and the operands alone, a clause concludes that exec answers a next state
with the command's own effect, for bar0BadAccess, bar0UnmappedAccess, bar0OutOfSvcAccess and registerWrite. -/
def Obligations.RegisterAccess : Prop :=
  ∀ (s : State) (off : BitVec 26),
    let o := off.toNat
    let first := fun (t : State) =>
      s.reg (GLB_REG_ERR.FIRST_OFFSET.addr 0) = 0 → t.rd GLB_REG_ERR.FIRST_OFFSET = o % 2 ^ GLB_REG_ERR.FIRST_OFFSET.width
    let only := fun (t : State) => SameRegsBut [GLB_REG_ERR.FIRST_OFFSET.addr 0] s t ∧ SameMemory s t
    (∀ (p : Fin 2) (v : Word) (b : Blk) (r : Reg) (i : Nat), (s.port p).d3hot = false →
      s.flag HEP_PORT_STAT.ROLE p = false → heldUnit s o = none → o % 8 = 0 → msixAt o = none →
      ¬(0x1ED0000 ≤ o ∧ o < 0x1ED1000) → blockOf o = some b → bar0Reaches s b = true → offsetOut s o = false → b ≠ .trl →
      findReg o = some r → r.index o = some i → writeSpecial s p b r.base i v.toNat = none →
      Answers (Machine.exec (.registerWrite p off true v) s) fun t =>
        SameMemory s t ∧ t.out = s.out ∧ t = s.writeFields r.fields i v.toNat) ∧
    (∀ size : BitVec 13, badFlags o size.toNat ≠ [] →
      (Answers (Machine.exec (.bar0BadAccess off size true) s) fun t =>
        (∀ f ∈ badFlags o size.toNat, t.flag f = true) ∧ first t ∧ only t ∧ t.out = s.out) ∧
      (Answers (Machine.exec (.bar0BadAccess off size false) s) fun t =>
        (∀ f ∈ badFlags o size.toNat, t.flag f = true) ∧ first t ∧ only t
          ∧ t.out = s.out ++ [.answer 0 (List.replicate size.toNat 0xFF)])) ∧
    (∀ wide : Bool,
      let n := if wide then 8 else 4
      (blockOf o = none →
        (Answers (Machine.exec (.bar0UnmappedAccess off wide true) s) fun t =>
          t.flag GLB_REG_ERR.UNMAPPED = true ∧ first t ∧ only t ∧ t.out = s.out) ∧
        (Answers (Machine.exec (.bar0UnmappedAccess off wide false) s) fun t =>
          t.flag GLB_REG_ERR.UNMAPPED = true ∧ first t ∧ only t ∧ t.out = s.out ++ [.answer 0 (List.replicate n 0)])) ∧
      (offsetOut s o = true →
        (Answers (Machine.exec (.bar0OutOfSvcAccess off wide true) s) fun t =>
          t.flag GLB_REG_ERR.OUT_OF_SVC = true ∧ first t ∧ only t ∧ t.out = s.out) ∧
        (8 ≤ o % 0x10000 / n * n →
          Answers (Machine.exec (.bar0OutOfSvcAccess off wide false) s) fun t =>
            t.flag GLB_REG_ERR.OUT_OF_SVC = true ∧ first t ∧ only t ∧ t.out = s.out ++ [.answer 0 (List.replicate n 0xFF)])))

/-- The memory stacks: codewords and their tables. Readings of the model that clauses follow: log entries 27 and 40.
Completion: under premises on the state and the operands alone, a clause concludes that exec answers a next state with the
command's own effect, for memRead, memWrite, rowSpareDone, bankFence, scrubRead, refreshTick, scrubCfgWrite, memLayoutWrite,
regionValidSet and regionValidClear. -/
def Obligations.MemoryStacks : Prop := CodewordsHold ∧ MemoryTablesHold

/-! ### Bring-up (R45 to R68) -/

/-- Warm device resets and the start sequence (R46, R53, R54, R56, R59, R60, R65, R66, R68, R85, R86): a warm device reset is
recorded and waits for DRAM to drain and for self-refresh, keeps DRAM, the lanes' spares and the registers of R66 and ends at
ROM; ROM, IDENTITY, IMAGE, REPAIR, MARCH and TRAIN each go on to the state that the sequence gives. Readings of the model that
clauses follow: log entries 28 and 41. Completion: under premises on the state and the operands alone, a clause concludes that
exec answers a next state with the command's own effect, for romDone, identityDone, imageReadDone, repairDone, marchDone,
trainDone, warmReset, dramDrainDone and selfRefreshEntered. -/
def Obligations.StartSequence : Prop :=
  ∀ (s : State),
    (alive s = true → s.rd BOOT_RESET_CAUSE.WARM_COUNT < 2 ^ BOOT_RESET_CAUSE.WARM_COUNT.width - 1 →
      Answers (Machine.exec (.warmReset 0xA5) s) fun t =>
        t.boot.warm = 1 ∧ t.rd BOOT_RESET_CAUSE.CAUSE = 5
          ∧ t.rd BOOT_RESET_CAUSE.WARM_COUNT = s.rd BOOT_RESET_CAUSE.WARM_COUNT + 1
          ∧ (∀ p : Fin 2, (t.port p).inReset = true ∧ t.flag HEP_PORT_STAT.LINK_UP p = false) ∧ SameMemory s t) ∧
    (∀ key, key ≠ 0xA5 → Answers (Machine.exec (.warmReset key) s) fun t => t = s) ∧
    (s.boot.warm = 1 → s.dram.mirrorHeld = [] → s.twin.held = [] →
      (s.dram.held = [] → Answers (Machine.exec .dramDrainDone s) fun t =>
        t.boot.warm = 2 ∧ SameRegsBut [] s t ∧ SameMemory s t) ∧
      (∀ h l, s.dram.held = [h] → h.write = some l → Answers (Machine.exec .dramDrainDone s) fun t =>
        t.boot.warm = 2 ∧ (rowFree s h = false → t.mem = (s.putMem h.addr l).1.mem)
          ∧ (rowFree s h = true → t.mem = s.mem ∨ t.mem = (s.putMem h.addr l).1.mem))) ∧
    (s.boot.warm = 2 → s.Canonical →
      Answers (Machine.exec .selfRefreshEntered s) fun t =>
        t.boot.warm = 0 ∧ bootState t = 0 ∧ t.queues = [] ∧ t.rings = [] ∧ t.waits = []
          ∧ (∀ a, a < scratchBase → t.byte a = s.byte a) ∧ (∀ a, scratchBase ≤ a → t.byte a = memDefault)
          ∧ (∀ off, warmReg s off = true → off ≠ MEM_STATUS.TOP_MIB.addr 0 → (∀ l, l < 50 → off ≠ OPT_LANE.STATE.addr l) →
            t.reg off = s.reg off)
          ∧ t.topMib = s.topMib
          ∧ ∀ l, l < 50 → t.rd OPT_LANE.STATE l = 0 ∧ t.flag OPT_LANE.SPARED l = s.flag OPT_LANE.SPARED l
            ∧ t.flag OPT_LANE.IN_USE l = s.flag OPT_LANE.IN_USE l ∧ t.rd OPT_LANE.PARTNER l = s.rd OPT_LANE.PARTNER l) ∧
    (∀ a b, alive s = true → bootState s = 0 →
      Answers (Machine.exec (.romDone a b) s) fun t =>
        t.flag CPU_MGMT.PAIR0_OK = a ∧ t.flag CPU_MGMT.PAIR1_OK = b ∧ t.rd CPU_MGMT.ACTIVE = b2n (!a && b)
          ∧ bootState t = (if s.boot.image ≠ [] then 3 else if s.flag BOOT_STATUS.NO_IMAGE then 9 else 1)
          ∧ SameMemory s t) ∧
    (∀ helper counter, alive s = true → bootState s = 1 →
      Answers (Machine.exec (.identityDone helper counter) s) fun t =>
        bootState t = 2 ∧ SameMemory s t
          ∧ t.flag SEC_STATUS.IDENTITY_OK = (Config.identityReconstructs helper || s.flag SEC_STATUS.IDENTITY_OK)
          ∧ t.flag BOOT_STATUS.IDENTITY_FAIL
              = (!Config.identityReconstructs helper || s.flag BOOT_STATUS.IDENTITY_FAIL)) ∧
    (∀ a b log0 log1, alive s = true → bootState s = 2 →
      Answers (Machine.exec (.imageReadDone a b log0 log1) s) fun t =>
        SameMemory s t
          ∧ ((lyOrder a b).find? (fun c => lyValid s c.2) = none → bootState t = 9 ∧ t.flag BOOT_STATUS.NO_IMAGE = true)
          ∧ ∀ k c, (lyOrder a b).find? (fun c => lyValid s c.2) = some (k, c) →
              bootState t = 3 ∧ t.boot.image = bytesAt c 0 (lyTotal c) ∧ t.rd BOOT_IMAGE.SELECTED = k
                ∧ t.rd BOOT_IMAGE.GENERATION = lyGen c) ∧
    (alive s = true → bootState s = 3 → lySectionsOk s.boot.image = true →
      (∀ r ∈ s.boot.log ++ s.boot.extra, repairRecordOk r = true) →
      Answers (Machine.exec .repairDone s) fun t =>
        bootState t = (if marchMode s ≠ 0 ∧ (s.boot.warmStart = false ∨ marchOnWarm s = true) then 4 else 5)
          ∧ t.boot.repaired = true ∧ t.rd MEM_STATUS.RETIRED ≤ 8
          ∧ t.rd MEM_STATUS.TOP_MIB = 163840 - 320 * t.rd MEM_STATUS.RETIRED) ∧
    (alive s = true → bootState s = 4 →
      Answers (Machine.exec (.marchDone [] []) s) (fun t =>
        bootState t = 5 ∧ t.flag BOOT_STATUS.MARCH_FAULTS = s.flag BOOT_STATUS.MARCH_FAULTS) ∧
      (∀ c columns failed, Answers (Machine.exec (.marchDone (c :: columns) failed) s) fun t =>
        bootState t = 5 ∧ t.flag BOOT_STATUS.MARCH_FAULTS = true) ∧
      (∀ u failed, Answers (Machine.exec (.marchDone [] (u :: failed)) s) fun t =>
        bootState t = 5 ∧ t.flag BOOT_STATUS.MARCH_FAULTS = true)) ∧
    (alive s = true → bootState s = 5 →
      Answers (Machine.exec .trainDone s) fun t =>
        bootState t = 6 ∧ t.flag MEM_STATUS.CONTENTS_KEPT = s.boot.kept ∧ SameMemory s t
          ∧ (s.boot.foundFaults = false →
            SameRegsBut [MEM_STATUS.TOP_MIB.addr 0, BOOT_STATE.STATE.addr 0] s t ∧ t.boot = s.boot))

/-- Write-backs, firmware load and negotiation (R58, R62, R63, R64, R281, R323, R324, R449): a write-back takes the slot that
is not current, and its end makes that slot current; LOAD is refused with the status of R62 or starts; the image that was
fetched is started or refused; firmware that is ready publishes its features, and its silence ends in status 8; NEGOTIATE is
refused or agrees on the common features and brings glade 0 into being. Readings of the model that clauses follow: log entry
41. Completion: under premises on the state and the operands alone, a clause concludes that exec answers a next state with the
command's own effect, for writebackRequest, writebackDone, writebackTimeout, load, fwLoadVerified, fwReady, fwReadyTimeout and
negotiate. -/
def Obligations.WritebackAndFirmware : Prop :=
  ∀ (s : State),
    (writebackOk s = true → s.boot.writing = none → s.flag BOOT_STATUS.IDENTITY_FAIL = false → s.rd CLK_GROVE.STATE 3 ≠ 2 →
      Answers (Machine.exec .writebackRequest s) fun t =>
        t.boot.writing = some (1 - s.boot.logSlot, logBytes (s.boot.logSeq + 1) s.boot.log, s.boot.log.length)
          ∧ SameRegsBut [] s t ∧ SameMemory s t) ∧
    (writebackOk s = false → Answers (Machine.exec .writebackRequest s) fun t => t = s) ∧
    (∀ slot b n, s.boot.writing = some (slot, b, n) →
      Answers (Machine.exec .writebackDone s) (fun t =>
        t.boot.writing = none ∧ t.boot.logSlot = slot ∧ t.boot.logSeq = s.boot.logSeq + 1
          ∧ t.flag BOOT_STATUS.WRITEBACK_DONE = true
          ∧ t.out = s.out ++ [.flash (0x210000 + 0x10000 * slot) b,
              .flash (65536 - 132 + (0x210000 + 0x10000 * slot)) (Config.ecdsaSign s.idKey b)]
          ∧ SameRegsBut [BOOT_STATUS.NO_IMAGE.addr 0] s t ∧ SameMemory s t) ∧
      Answers (Machine.exec .writebackTimeout s) (fun t =>
        t.boot.writing = none ∧ t.boot.logSlot = s.boot.logSlot ∧ t.flag BOOT_STATUS.WRITEBACK_FAIL = true
          ∧ SameRegsBut [BOOT_STATUS.NO_IMAGE.addr 0] s t ∧ SameMemory s t)) ∧
    (∀ p : Fin 2, s.flag BOOT_FW_CMD.BUSY = false →
      let n := fwLen s
      let ok := n % 8 = 0 ∧ 4096 ≤ n ∧ n ≤ 0x4000000 ∧ fwBase s + n ≤ 2 ^ 64
      let only := fun (t : State) => SameRegsBut [BOOT_FW_CMD.STATUS.addr 0] s t ∧ SameMemory s t
      (bootState s = 9 → Answers (Machine.exec (.load p) s) fun t => t.rd BOOT_FW_CMD.STATUS = 7 ∧ only t) ∧
      (bootState s ≠ 9 → bootState s ≠ 6 →
        Answers (Machine.exec (.load p) s) fun t => t.rd BOOT_FW_CMD.STATUS = 9 ∧ only t) ∧
      (bootState s = 6 → ¬ok → Answers (Machine.exec (.load p) s) fun t => t.rd BOOT_FW_CMD.STATUS = 3 ∧ only t) ∧
      (bootState s = 6 → ok → s.masterOn p = false →
        Answers (Machine.exec (.load p) s) fun t => t.rd BOOT_FW_CMD.STATUS = 4 ∧ only t) ∧
      (bootState s = 6 → ok → s.masterOn p = true →
        Answers (Machine.exec (.load p) s) fun t =>
          t.fw.loading = some (n, p.val) ∧ bootState t = 7 ∧ t.rd BOOT_FW_CMD.STATUS = 1
            ∧ t.flag BOOT_FW_CMD.BUSY = true ∧ SameMemory s t)) ∧
    (∀ n p r, s.fw.loading = some (n, p) → s.masterOn p = true → tagReady s p = false →
      Answers (Machine.exec (.fwLoadVerified r) s) fun t => t = s) ∧
    (∀ n p l, s.fw.loading = some (n, p) → s.masterOn p = false ∨ tagReady s p = true →
      Answers (Machine.exec (.fwLoadVerified (.data l)) s) fun t =>
        t.fw.loading = none ∧ SameMemory s t
          ∧ (∀ st, loadStatus s (bytesAt l 0 n) = some st →
              t.rd BOOT_FW_CMD.STATUS = st ∧ t.flag BOOT_FW_CMD.BUSY = false ∧ bootState t = 6)
          ∧ (loadStatus s (bytesAt l 0 n) = none →
              t.fw.started = true ∧ t.fw.running = bytesAt l 0 n ∧ t.cpu.mgmtOn = true
                ∧ t.rd PWR_ACT_VER.RUN_VERSION = leAt (trailerOf (bytesAt l 0 n)) 8 4)) ∧
    (s.fw.started = true → bootState s = 7 →
      let closed := fun (t : State) =>
        t.rd BOOT_FW_CMD.STATUS = 8 ∧ t.flag BOOT_FW_CMD.BUSY = false ∧ bootState t = 6 ∧ t.cpu.mgmtOn = false
          ∧ t.fw.running = [] ∧ t.rd PWR_ACT_VER.RUN_VERSION = 0 ∧ SameMemory s t
      Answers (Machine.exec .fwReadyTimeout s) closed ∧
      (s.rd CLK_CFG.HOLD ≠ 0 → bitOf (leAt s.fw.running 16 8) 9 = false → Answers (Machine.exec .fwReady s) closed) ∧
      (s.rd CLK_CFG.HOLD = 0 ∨ bitOf (leAt s.fw.running 16 8) 9 = true →
        Answers (Machine.exec .fwReady s) fun t =>
          t.rd BOOT_FW_CMD.STATUS = 2 ∧ t.flag BOOT_FW_CMD.BUSY = false ∧ bootState t = 8
            ∧ t.rd BOOT_FEAT_DEV.FEATURES 0 = leAt s.fw.running 16 8
            ∧ t.rd BOOT_FEAT_DEV.FEATURES 1 = leAt s.fw.running 24 8
            ∧ t.rd BOOT_IFVER.DEV_MAJOR = leAt s.fw.running 12 2 ∧ SameMemory s t)) ∧
    (s.flag BOOT_FW_CMD.BUSY = false →
      let only := fun (t : State) => SameRegsBut [BOOT_FW_CMD.STATUS.addr 0] s t ∧ SameMemory s t
      (bootState s ≠ 8 → Answers (Machine.exec .negotiate s) fun t => t.rd BOOT_FW_CMD.STATUS = 9 ∧ only t) ∧
      (bootState s = 8 → anyGlade s = true →
        Answers (Machine.exec .negotiate s) fun t => t.rd BOOT_FW_CMD.STATUS = 0xB ∧ only t) ∧
      (bootState s = 8 → anyGlade s = false → s.rd BOOT_IFVER.DEV_MAJOR ≠ s.rd BOOT_IFVER.DRV_MAJOR →
        Answers (Machine.exec .negotiate s) fun t =>
          t.rd BOOT_FW_CMD.STATUS = 0xA ∧ t.rd BOOT_FEAT_AGREED.FEATURES 0 = 0 ∧ SameMemory s t) ∧
      (bootState s = 8 → anyGlade s = false → s.rd BOOT_IFVER.DEV_MAJOR = s.rd BOOT_IFVER.DRV_MAJOR →
        Answers (Machine.exec .negotiate s) fun t =>
          t.rd BOOT_FW_CMD.STATUS = 2 ∧ t.gladeExists 0 = true ∧ SameMemory s t
            ∧ t.rd BOOT_FEAT_AGREED.FEATURES 0
              = Nat.land (s.rd BOOT_FEAT_DEV.FEATURES 0) (s.rd BOOT_FEAT_DRV.FEATURES 0) % 0x10000
            ∧ t.rd BOOT_FEAT_AGREED.FEATURES 1 = 0))

/-! ### The signals of the package (R29 to R41) -/

/-- Supplies, resets, reference clocks and the thermal trip (R31 to R41, R65, R68, R319): power lost clears DRAM and every
unit and records its cause; SYS_RST_N begins a warm device reset with cause 4; PERST_x_N holds a port, at least until 100 ms
after PWRGD; a reference clock that stops takes its links and lanes down; a thermal trip pulls THERMTRIP_N and is remembered,
and THERM_ALERT_N is low from the warning level on. Readings of the model that clauses follow: log entry 44. Completion: under
premises on the state and the operands alone, a clause concludes that exec answers a next state with the command's own effect,
for auxPwrgdRise, auxPwrgdFall, pwrgdRise, pwrgdFall, sysRstNAssert, sysRstNRelease, perstAssert, perstRelease,
perstHoldExpire, railSag, sysclkStop, hclkLoss, hclkReturn, oclkLoss, thermalTrip and oclkReturn. -/
def Obligations.PackagePins : Prop :=
  ∀ (s : State),
    let gone := fun (t : State) => (∀ a, t.byte a = memDefault) ∧ bootState t = 0 ∧ t.queues = [] ∧ t.boot.image = []
    Answers (Machine.exec .auxPwrgdRise s) (fun t =>
      t.pins = { s.pins with aux := true } ∧ SameRegsBut [] s t ∧ SameMemory s t) ∧
    (s.pins.aux = true → Answers (Machine.exec .auxPwrgdFall s) fun t =>
      t.pins = { s.pins with aux := false, trip := false } ∧ t.regs = [] ∧ t.mem = [] ∧ t.boot.dead = 2) ∧
    (∀ test slow clk, s.pins.pwr = false →
      Answers (Machine.exec (.pwrgdRise test slow clk) s) fun t =>
        t.pins.pwr = true ∧ t.pins.strapTest = test ∧ t.pins.strapSlow = slow
          ∧ (t.boot.dead = 0 ↔ test = false ∧ clk = true ∧ s.pins.aux = true)
          ∧ (∀ p : Fin 2, p.val ∈ t.pins.early ↔ p.val ∉ s.pins.perst) ∧ t.now = 0
          ∧ SameRegsBut [TLM_TIME.NS.addr 0] s t ∧ SameMemory s t) ∧
    (s.pins.pwr = true → Answers (Machine.exec .pwrgdFall s) fun t =>
      t.pins.pwr = false ∧ t.boot.dead = 0 ∧ gone t
        ∧ t.rd BOOT_RESET_CAUSE.CAUSE = (if s.boot.dead = 1 then s.rd BOOT_RESET_CAUSE.CAUSE else 1)
        ∧ (∀ k, k < 16 → t.reg (SEC_SEAL_SLOTCTR.VALUE.addr k) = s.reg (SEC_SEAL_SLOTCTR.VALUE.addr k))) ∧
    (s.pins.sysRst = false →
      (powered s = true → s.boot.warm = 0 → Answers (Machine.exec .sysRstNAssert s) fun t =>
        t.pins.sysRst = true ∧ t.boot.warm = 1 ∧ t.rd BOOT_RESET_CAUSE.CAUSE = 4 ∧ SameMemory s t) ∧
      (powered s = false → Answers (Machine.exec .sysRstNAssert s) fun t =>
        t.pins.sysRst = true ∧ SameRegsBut [] s t ∧ SameMemory s t)) ∧
    (s.pins.sysRst = true → Answers (Machine.exec .sysRstNRelease s) fun t =>
      t.pins.sysRst = false ∧ SameRegsBut [] s t ∧ SameMemory s t
        ∧ (alive t = true → ∀ p : Fin 2, (t.port p).inReset = (s.pins.perst.contains p.val || s.pins.early.contains p.val))) ∧
    (∀ p : Fin 2, p.val ∉ s.pins.perst → Answers (Machine.exec (.perstAssert p) s) fun t =>
      p.val ∈ t.pins.perst ∧ p.val ∉ t.pins.early
        ∧ (alive s = true → (t.port p).inReset = true)) ∧
    (∀ p : Fin 2, p.val ∈ s.pins.perst → s.pins.pwr = true →
      Answers (Machine.exec (.perstRelease p) s) fun t =>
        p.val ∉ t.pins.perst ∧ (s.now < 100000000 → p.val ∈ t.pins.early ∧ (t.port p).inReset = (s.port p).inReset)
          ∧ (100000000 ≤ s.now → alive s = true → (t.port p).inReset = false) ∧ SameRegsBut [] s t ∧ SameMemory s t) ∧
    (∀ p : Fin 2, p.val ∈ s.pins.early → 100000000 ≤ s.now →
      Answers (Machine.exec (.perstHoldExpire p) s) fun t =>
        p.val ∉ t.pins.early ∧ (alive s = true → (t.port p).inReset = false) ∧ SameRegsBut [] s t ∧ SameMemory s t) ∧
    (s.pins.pwr = true → s.pins.aux = true → ∀ r : Fin 4,
      Answers (Machine.exec (.railSag r) s) fun t =>
        t.rd BOOT_RESET_CAUSE.CAUSE = 2 ∧ t.rd BOOT_RESET_CAUSE.RAIL = r.val ∧ t.boot.dead = 1 ∧ gone t) ∧
    (powered s = true →
      Answers (Machine.exec .sysclkStop s) (fun t => t.rd BOOT_RESET_CAUSE.CAUSE = 3 ∧ t.boot.dead = 1 ∧ gone t)) ∧
    (∀ p : Fin 2,
      (p.val ∉ s.pins.hclkLost → Answers (Machine.exec (.hclkLoss p) s) fun t =>
        p.val ∈ t.pins.hclkLost ∧ t.flag HEP_PORT_STAT.LINK_UP p = false) ∧
      Answers (Machine.exec (.hclkReturn p) s) fun t =>
        p.val ∉ t.pins.hclkLost ∧ SameRegsBut [] s t ∧ SameMemory s t) ∧
    (∀ o : Fin 4,
      (o.val ∉ s.pins.oclkLost →
        (repaired s = false → Answers (Machine.exec (.oclkLoss o) s) fun t =>
          t.pins = { s.pins with oclkLost := o.val :: s.pins.oclkLost } ∧ SameRegsBut [] s t ∧ SameMemory s t) ∧
        (repaired s = true → Answers (Machine.exec (.oclkLoss o) s) fun t =>
          o.val ∈ t.pins.oclkLost ∧ t.flag OPT_TILE.REFCLK_OK o = false
            ∧ ∀ l ∈ tileLanes o, t.lane l = (if s.lane l = 3 then 3 else 0)) ∧
        (repaired s = true → s.fab.lightOwed = [] → (∀ l ∈ tileLanes o, s.lane l ≠ 1 ∧ s.lane l ≠ 2) →
          Answers (Machine.exec (.oclkLoss o) s) fun t => SameRegsBut [OPT_TILE.REFCLK_OK.addr o] s t ∧ SameMemory s t)) ∧
      Answers (Machine.exec (.oclkReturn o) s) fun t =>
        o.val ∉ t.pins.oclkLost ∧ (repaired s = true → t.flag OPT_TILE.REFCLK_OK o = true)) ∧
    (s.pins.aux = true → s.pins.pwr = true → Answers (Machine.exec .thermalTrip s) fun t =>
      t.pins.trip = true ∧ t.boot.dead = 3 ∧ t.boot.warm = 0 ∧ t.flag BOOT_RESET_CAUSE.PREV_TRIP = true
        ∧ (s.Canonical → ∀ a, a < scratchBase → t.byte a = memDefault)
        ∧ (∀ l, l < 50 → t.rd OPT_LANE.STATE l = 0) ∧ (∀ p, p < 16 → t.rd FAB_PORT.STATE p = 0) ∧ thermTrip t = true) ∧
    (s.pins.aux = false ∨ s.pins.pwr = false → Answers (Machine.exec .thermalTrip s) fun t => t = s) ∧
    (thermAlert s = true ↔ s.pins.pwr = true ∧ s.pins.aux = true ∧ s.rd PWR_STATUS.LEVEL ≠ 0)

/-! ### Firmware activation, power and thermal control (R313, R417 to R433) -/

/-- Storage queue `q` of instance 0 has the admin command `c`, with opcode `op`, to run. -/
abbrev AdminReady (s : State) (q op : Nat) (c : Cmd) : Prop :=
  adminCmd s q op = some c ∧ (s.queue (stqQid q)).inst = 0 ∧ (s.queue (stqQid q)).cmdAt c.entry = some c
    ∧ s.ended = [] ∧ NoFlush s q

/-- The firmware store, commits and the states of an activation (R313, R418 to R423, R431): the store is enabled over a region
of glade 0 of at least 64 MiB; a piece is written at its offset; a commit is verified and stages the image or starts the
activation, or, in an emergency, defers it; QUIESCE ends in HANDOVER, HANDOVER in RESUME or FALLBACK, and both in IDLE.
Readings of the model that clauses follow: log entry 25. Completion: under premises on the state and the operands alone, a
clause concludes that exec answers a next state with the command's own effect, for fwDownload, fwCommit, fwStoreEnable,
fwCommitVerified, deferredStartExpire, quiesceDone, handoverReady, handoverTimeout, activationResumeDone and fallbackDone. -/
def Obligations.FirmwareActivation : Prop :=
  ∀ (s : State),
    (∀ v : Word, s.noImage = false → s.flag PWR_FW_STORE.ENABLE = false → bitOf v.toNat 10 = true →
      let r := v.toNat % 1024
      let good := s.flag MEM_RGN_A.VALID r = true ∧ s.rd MEM_RGN_A.GLADE r = 0 ∧ 0x4000000 ≤ rgnLen s r
      Answers (Machine.exec (.fwStoreEnable v) s) fun t =>
        t.rd PWR_FW_STORE.REGION = r ∧ (t.flag PWR_FW_STORE.ENABLE = true ↔ good) ∧ (good → t.fw.next = 0)
          ∧ SameRegsBut [PWR_FW_STORE.REGION.addr 0] s t ∧ SameMemory s t) ∧
    (∀ (q : Fin 8192) (c : Cmd) (l : List Byte), AdminReady s q 0x85 c → s.flag PWR_FW_STORE.ENABLE = true →
      s.hostOn 0 = true → s.instReady 0 = true → s.rd PWR_ACT.STATE = 0 →
      let off := leAt c.bytes 32 4
      let n := leAt c.bytes 36 4
      let b := bytesAt l 0 n
      off + n ≤ 0x4000000 → off = 0 ∨ (off = s.fw.next ∧ s.fw.short = false) → (s.putMem (fwStoreBase s + off) b).2 = false →
      Answers (Machine.exec (.fwDownload q (.data l)) s) fun t =>
        Ended (stqQid q) c St.success t ∧ t.fw.next = off + n ∧ t.mem = (s.putMem (fwStoreBase s + off) b).1.mem) ∧
    (∀ (q : Fin 8192) (c : Cmd), AdminReady s q 0x86 c →
      (fetchPaused s = true → Answers (Machine.exec (.fwCommit q) s) fun t =>
        Ended (stqQid q) c St.activationInProgress t ∧ SameMemory s t) ∧
      (fetchPaused s = false → s.fw.commit = none → Answers (Machine.exec (.fwCommit q) s) fun t =>
        t.fw.commit = some (stqQid q, c.entry, leAt c.bytes 24 1) ∧ SameMemory s t)) ∧
    (∀ qid e a, s.fw.commit = some (qid, e, a) → s.rd PWR_ACT.STATE = 0 →
      let img := s.bytes (fwStoreBase s) s.fw.next
      Answers (Machine.exec .fwCommitVerified s) fun t =>
        (commitStatus s img a ≠ none → t.fw.commit = none ∧ t.rd PWR_ACT.STATE = 0) ∧
        (commitStatus s img a = none →
          t.fw.staged = img ∧ t.rd PWR_ACT.STATE = (if a = 0 then 1 else if 2 ≤ controlLevel s then 2 else 3)
            ∧ (t.fw.commit = none ↔ a = 0 ∨ 2 ≤ controlLevel s))) ∧
    (s.rd PWR_ACT.STATE = 2 → controlLevel s < 2 →
      Answers (Machine.exec .deferredStartExpire s) fun t => t.rd PWR_ACT.STATE = 3 ∧ t.flag PWR_CLK.LOOP = false ∧ SameMemory s t) ∧
    (s.rd PWR_ACT.STATE = 3 → storageDrained s = true →
      Answers (Machine.exec .quiesceDone s) fun t => t.rd PWR_ACT.STATE = 4 ∧ t.sec.sealMgmt = false ∧ SameMemory s t) ∧
    (s.rd PWR_ACT.STATE = 4 →
      Answers (Machine.exec (.handoverReady true) s) (fun t =>
        t.rd PWR_ACT.STATE = 5 ∧ t.fw.running = s.fw.staged
          ∧ t.rd PWR_ACT_VER.RUN_VERSION = s.rd PWR_ACT_VER.STAGED_VERSION ∧ SameMemory s t) ∧
      (s.rd PWR_CNT.COUNT 5 < 2 ^ 64 - 1 →
        Answers (Machine.exec (.handoverReady false) s) (fun t =>
          t.rd PWR_ACT.STATE = 6 ∧ t.rd PWR_ACT.LAST_RESULT = 2 ∧ t.fw.running = s.fw.running
            ∧ t.rd PWR_CNT.COUNT 5 = s.rd PWR_CNT.COUNT 5 + 1 ∧ SameMemory s t) ∧
        Answers (Machine.exec .handoverTimeout s) (fun t =>
          t.rd PWR_ACT.STATE = 6 ∧ t.rd PWR_ACT.LAST_RESULT = 3 ∧ t.fw.running = s.fw.running
            ∧ t.rd PWR_CNT.COUNT 5 = s.rd PWR_CNT.COUNT 5 + 1 ∧ SameMemory s t))) ∧
    (s.sec.heldStarts = [] → s.fw.commit = none → (∀ ri, ri < 32 → ringLive s ri = false) →
      (s.rd PWR_ACT.STATE = 5 → s.rd PWR_CNT.COUNT 4 < 2 ^ 64 - 1 →
        Answers (Machine.exec .activationResumeDone s) fun t =>
          t.rd PWR_ACT.STATE = 0 ∧ t.rd PWR_ACT.LAST_RESULT = 1 ∧ t.rd PWR_ACT_VER.STAGED_VERSION = 0 ∧ t.fw.staged = []
            ∧ t.rd PWR_CNT.COUNT 4 = s.rd PWR_CNT.COUNT 4 + 1 ∧ SameMemory s t) ∧
      (s.rd PWR_ACT.STATE = 6 →
        Answers (Machine.exec .fallbackDone s) fun t =>
          t.rd PWR_ACT.STATE = 0 ∧ t.rd PWR_ACT.LAST_RESULT = s.rd PWR_ACT.LAST_RESULT ∧ SameMemory s t))

/-- Thresholds, sensors, the power limiter and the limits (R424 to R433): the level rises at once when a reading reaches a
threshold and falls when every reading has stayed below it less HYST_C; the fractions in force never pass the caps; a failed
sensor reads as THROTTLE_C; the limiter engages when the average over its window passes HW_LIMIT_W; the registers take only
values in their ranges, none of the thresholds above the image's, and nothing once locked. Readings of the model that clauses
follow: log entry 30. Completion: under premises on the state and the operands alone, a clause concludes that exec answers a
next state with the command's own effect, for thermalLevelEnter, thermalLevelExit, sensorFault, powerSample, fwLoopTick,
pwrLimitWrite, thermCfgWrite and pwrLockSet. -/
def Obligations.ThermalAndPower : Prop :=
  ∀ (s : State), s.rd PWR_ACT.STATE ≠ 3 →
    let capsKept := fun (t : State) =>
      t.rd PWR_CLK.TILE_EFF ≤ (hwCaps t).1 ∧ t.rd PWR_CLK.CORE_EFF ≤ (hwCaps t).2.1 ∧ t.rd PWR_CLK.DRAM_EFF ≤ (hwCaps t).2.2
    (∀ (i : Fin 16) (x : BitVec 12), s.flag PWR_SENSOR.FAULT i = false →
      Answers (Machine.exec (.thermalLevelEnter i x) s) fun t =>
        t.rd PWR_SENSOR.TEMP i = x.toNat ∧ x.toNat ≤ t.rd PWR_STATUS.TMAX
          ∧ t.rd PWR_STATUS.LEVEL = max (s.rd PWR_STATUS.LEVEL) (levelOf s (t.rd PWR_STATUS.TMAX))
          ∧ (t.rd PWR_STATUS.LEVEL ≠ s.rd PWR_STATUS.LEVEL → capsKept t) ∧ SameMemory s t) ∧
    (∀ l : List (BitVec 12), l.length = 16 → (∀ i, i < 16 → s.flag PWR_SENSOR.FAULT i = false) →
      s.rd PWR_STATUS.LEVEL ≠ 0 → (∀ x ∈ l, x.toNat < leaveAt s (s.rd PWR_STATUS.LEVEL)) →
      Answers (Machine.exec (.thermalLevelExit l) s) fun t =>
        t.rd PWR_STATUS.LEVEL = levelOf s (t.rd PWR_STATUS.TMAX)
          ∧ (∃ x ∈ l, t.rd PWR_STATUS.TMAX = x.toNat) ∧ (∀ x ∈ l, x.toNat ≤ t.rd PWR_STATUS.TMAX) ∧ capsKept t
          ∧ SameMemory s t) ∧
    (∀ i : Fin 16, s.flag PWR_SENSOR.FAULT i = false → Listening s →
      Answers (Machine.exec (.sensorFault i) s) fun t =>
        t.flag PWR_SENSOR.FAULT i = true ∧ t.rd PWR_SENSOR.TEMP i = 8 * s.rd PWR_THERM_CFG.THROTTLE_C
          ∧ s.rd PWR_STATUS.LEVEL ≤ t.rd PWR_STATUS.LEVEL ∧ HasRecord 0x1301 t ∧ SameMemory s t) ∧
    (∀ w : BitVec 12, hwCaps s = (16, 16, 16) → s.flag PWR_STATUS.HW_LIMIT = false →
      let l := (w.toNat :: s.pwr.samples).take 1000
      let n := windowLen s
      Answers (Machine.exec (.powerSample w) s) fun t =>
        t.pwr.samples = l ∧ t.rd PWR_STATUS.PKG_W = powerAvg l (min 100 l.length) % 2 ^ PWR_STATUS.PKG_W.width
          ∧ (t.flag PWR_STATUS.HW_LIMIT = true ↔
            s.rd PWR_HW_CFG.HW_LIMIT_W ≠ 0 ∧ n ≠ 0 ∧ n ≤ l.length ∧ s.rd PWR_HW_CFG.HW_LIMIT_W * n < sumNat (l.take n))
          ∧ SameMemory s t) ∧
    (s.flag PWR_CLK.LOOP = true → Answers (Machine.exec .fwLoopTick s) fun t =>
      t.rd PWR_CLK.TILE_REQ ≤ 16 ∧ t.rd PWR_CLK.CORE_REQ ≤ 16 ∧ t.rd PWR_CLK.DRAM_REQ ≤ 16 ∧ capsKept t
        ∧ SameRegsBut [PWR_CLK.LOOP.addr 0] s t ∧ SameMemory s t) ∧
    (∀ v : Word, s.noImage = false →
      let w := v.toNat % 512
      let c := bitsOf v.toNat 16 8
      (fetchPaused s = false → Answers (Machine.exec (.pwrLimitWrite v) s) fun t =>
        t.rd PWR_LIMIT.LIMIT_W = (if 100 ≤ w ∧ w ≤ 450 then w else s.rd PWR_LIMIT.LIMIT_W)
          ∧ t.rd PWR_LIMIT.TARGET_C = (if 60 ≤ c ∧ c ≤ s.rd PWR_THERM_CFG.WARN_C then c else s.rd PWR_LIMIT.TARGET_C)
          ∧ SameRegsBut [PWR_LIMIT.LIMIT_W.addr 0] s t ∧ SameMemory s t) ∧
      (fetchPaused s = true → Answers (Machine.exec (.pwrLimitWrite v) s) fun t =>
        t.pwr.heldLimit = some v.toNat ∧ SameRegsBut [] s t ∧ SameMemory s t)) ∧
    (∀ v : Word, s.noImage = false →
      let b := powerSection s
      let warn := v.toNat % 256
      let throttle := bitsOf v.toNat 8 8
      let emerg := bitsOf v.toNat 16 8
      let hyst := bitsOf v.toNat 24 4
      let fits := s.flag PWR_LOCK.LOCKED = false ∧ warn ≤ leAt b 8 1 ∧ throttle ≤ leAt b 9 1 ∧ emerg ≤ leAt b 10 1
        ∧ warn + 3 ≤ throttle ∧ throttle + 3 ≤ emerg ∧ 1 ≤ hyst ∧ hyst ≤ 10
      (fits → Answers (Machine.exec (.thermCfgWrite v) s) fun t =>
        t.rd PWR_THERM_CFG.WARN_C = warn ∧ t.rd PWR_THERM_CFG.THROTTLE_C = throttle ∧ t.rd PWR_THERM_CFG.EMERG_C = emerg
          ∧ t.rd PWR_THERM_CFG.HYST_C = hyst ∧ SameMemory s t) ∧
      (¬fits → Answers (Machine.exec (.thermCfgWrite v) s) fun t => t = s)) ∧
    (s.noImage = false → Answers (Machine.exec .pwrLockSet s) fun t =>
      t.flag PWR_LOCK.LOCKED = true ∧ SameRegsBut [PWR_LOCK.LOCKED.addr 0] s t ∧ SameMemory s t)

/-! ### Offload programs and crossings (R390, R406 to R414, R445 to R455, R370, R371) -/

/-- Offload programs (R406 to R410): LOAD is refused with the status of R407 or takes the lowest free pool cores of its
clusters, copies and measures the image; START runs the slot's cores from the entry point with their index, the slot's core
count and the slot in gp1 to gp3; STOP halts them; UNLOAD gives them back. A firmware core whose watchdog is not restarted for
10 ms crashes. Readings of the model that clauses follow: log entry 29. Completion: under premises on the state and the
operands alone, a clause concludes that exec answers a next state with the command's own effect, for coreWatchdogExpire,
oflLoad, oflLoadDone, oflStart, oflStop, oflStopDone and oflUnload. -/
def Obligations.OffloadPrograms : Prop :=
  ∀ (s : State) (slot : Fin 64), s.noImage = false → controlFetch s = true → s.flag CPU_OFL_CMD.BUSY = false →
    let status := fun (t : State) (st : Nat) => t.rd CPU_OFL_CMD.STATUS = st ∧ t.flag CPU_OFL_CMD.BUSY = false
    let mine := slotCores s slot
    (∀ st, oflRefusal s slot = some st → Answers (Machine.exec (.oflLoad slot) s) fun t =>
      status t st ∧ SameRegsBut [CPU_OFL_CMD.STATUS.addr 0] s t ∧ SameMemory s t) ∧
    (oflRefusal s slot = none →
      Answers (Machine.exec (.oflLoad slot) s) fun t =>
        t.rd CPU_OFL_CMD.STATUS = 1 ∧ t.flag CPU_OFL_CMD.BUSY = true ∧ t.cpu.ofl = some (1, slot.val)
          ∧ (∀ k, k ∈ (freeCores s (s.rd CPU_OFL_A.CLUSTER_MASK slot)).take (s.rd CPU_OFL_A.CORES slot) →
            coreRole t k = 2 ∧ t.rd CPU_CORE.GLADE (coreEntry k) = s.rd CPU_OFL_A.GLADE slot
              ∧ t.rd CPU_CORE.SLOT (coreEntry k) = slot.val)
          ∧ SameMemory s t) ∧
    (s.cpu.ofl = some (1, slot.val) → Answers (Machine.exec .oflLoadDone s) fun t =>
      slotState t slot = 1 ∧ status t 2 ∧ t.cpu.ofl = none
        ∧ SameRegsBut [CPU_OFL_CMD.STATUS.addr 0, CPU_OFL_A.STATE.addr slot] s t ∧ SameMemory s t) ∧
    (slotState s slot = 1 ∨ slotState s slot = 3 →
      Answers (Machine.exec (.oflStart slot) s) (fun t =>
        slotState t slot = 2 ∧ status t 2 ∧ SameMemory s t
          ∧ ∀ j k, mine[j]? = some k →
              t.gpr k 1 = j ∧ t.gpr k 2 = mine.length ∧ t.gpr k 3 = slot.val ∧ (t.core k).pl = 1
                ∧ (t.core k).pc = Tab.get 0 s.cpu.entry slot) ∧
      Answers (Machine.exec (.oflUnload slot) s) (fun t =>
        slotState t slot = 0 ∧ status t 2 ∧ (∀ k ∈ mine, coreRole t k = 1) ∧ SameMemory s t)) ∧
    (slotState s slot = 0 →
      Answers (Machine.exec (.oflStart slot) s) (fun t => status t 7 ∧ slotState t slot = 0 ∧ SameMemory s t) ∧
      Answers (Machine.exec (.oflStop slot) s) (fun t => status t 7 ∧ slotState t slot = 0 ∧ SameMemory s t) ∧
      Answers (Machine.exec (.oflUnload slot) s) (fun t => status t 7 ∧ slotState t slot = 0 ∧ SameMemory s t)) ∧
    (slotState s slot = 2 →
      Answers (Machine.exec (.oflStop slot) s) fun t =>
        t.cpu.ofl = some (3, slot.val) ∧ t.flag CPU_OFL_CMD.BUSY = true ∧ t.rd CPU_OFL_CMD.STATUS = 1 ∧ SameMemory s t) ∧
    (s.cpu.ofl = some (3, slot.val) → slotState s slot = 2 →
      Answers (Machine.exec .oflStopDone s) fun t =>
        slotState t slot = 3 ∧ status t 2 ∧ (∀ k ∈ mine, t.rd CPU_CORE.STATE (coreEntry k) = 3) ∧ SameMemory s t) ∧
    (∀ k : Fin 256, firmwareCore k = true → coreWorks s k = true → (s.debugOf k).halted = false →
      10000000 + (s.core k).wdog ≤ s.now → s.queues = [] → s.rd PWR_ACT.STATE ≠ 4 → s.rd CPU_CNT.COUNT 0 < 2 ^ 64 - 1 →
      ((s.core k).soft.filter fun x => s.now < 1000000000 + x).length < 2 →
      Answers (Machine.exec (.coreWatchdogExpire k) s) fun t =>
        (t.core k).restarting = true ∧ t.rd CPU_CORE.STATE (coreEntry k) = 0
          ∧ t.rd CPU_CNT.COUNT 0 = s.rd CPU_CNT.COUNT 0 + 1 ∧ SameMemory s t)

/-- Crossings and groves (R370, R371, R447 to R455): a native-mode transfer that waits 1,024 watch-clock cycles is flagged,
counted, announced and makes the far grove STOPPED (here the security, flash and Trail groves); a hold-mode one is announced
once and completes when the clock returns; a grove reset begins, or is held while the grove's agent moves (R13), and ends; an
SRAM fault of a place that there is is recorded (R57, R370), and an uncorrectable word ends what read it (R371), here a worker
core's load with trap cause 11. Readings of the model that clauses follow: log entry 31. Completion: under premises on the
state and the operands alone, a clause concludes that exec answers a next state with the command's own effect, for sramError,
crossingTimeout, crossingHoldLong, farClockReturn, groveReset, groveResetDone and clkLockSet. -/
def Obligations.CrossingsAndGroves : Prop :=
  ∀ (s : State),
    let firsts := fun (t : State) (near far cl : Nat) =>
      s.flag CLK_XERR.TIMEOUT = false → s.flag CLK_XERR.HOLD_LONG = false →
        t.rd CLK_XERR.FIRST_GROVE = far ∧ t.rd CLK_XERR.FIRST_NEAR = near ∧ t.rd CLK_XERR.FIRST_CLASS = cl
    (∀ (near far : Fin 115) (cl : Fin 4), classHolds s cl = false → Listening s → s.rd CLK_XTO_CNT.COUNT far < 2 ^ 64 - 1 →
      (groveState s far = 0 → far.val = 2 ∨ far.val = 3 ∨ far.val = 5 →
        Answers (Machine.exec (.crossingTimeout near far cl) s) fun t =>
          t.flag CLK_XERR.TIMEOUT = true ∧ firsts t near far cl ∧ groveState t far = 2 ∧ HasRecord 0x1501 t
            ∧ t.rd CLK_XTO_CNT.COUNT far = s.rd CLK_XTO_CNT.COUNT far + 1 ∧ SameMemory s t) ∧
      (groveState s far = 2 →
        Answers (Machine.exec (.crossingTimeout near far cl) s) fun t =>
          t.flag CLK_XERR.TIMEOUT = true ∧ firsts t near far cl ∧ t.events = s.events
            ∧ t.rd CLK_XTO_CNT.COUNT far = s.rd CLK_XTO_CNT.COUNT far + 1 ∧ SameMemory s t)) ∧
    (∀ (near far : Fin 115) (cl : Fin 4), classHolds s cl = true → groveState s far = 0 →
      (s.flag CLK_GROVE.HOLDING far = false → Listening s →
        Answers (Machine.exec (.crossingHoldLong near far cl) s) fun t =>
          t.flag CLK_XERR.HOLD_LONG = true ∧ firsts t near far cl ∧ t.flag CLK_GROVE.HOLDING far = true ∧ HasRecord 0x1502 t
            ∧ SameMemory s t) ∧
      (s.flag CLK_GROVE.HOLDING far = true →
        Answers (Machine.exec (.crossingHoldLong near far cl) s) fun t =>
          t.flag CLK_XERR.HOLD_LONG = true ∧ t.events = s.events ∧ SameMemory s t)) ∧
    (∀ far : Fin 115, Answers (Machine.exec (.farClockReturn far) s) fun t =>
      t.flag CLK_GROVE.HOLDING far = false ∧ groveState t far = groveState s far
        ∧ SameRegsBut [CLK_GROVE.HOLDING.addr far] s t ∧ SameMemory s t) ∧
    (∀ g : Fin 115, groveMoving s g = true → Answers (Machine.exec (.groveReset g) s) fun t =>
      t.boot.heldCtl = s.boot.heldCtl ++ [.grove g.val] ∧ SameRegsBut [] s t ∧ SameMemory s t) ∧
    (∀ g : Fin 115, groveMoving s g = false → groveState s g = 0 → g.val = 4 ∨ g.val = 5 ∨ (17 ≤ g.val ∧ g.val < 25) ∨ (45 ≤ g.val ∧ g.val < 49)
        ∨ (57 ≤ g.val ∧ g.val < 61) ∨ 83 ≤ g.val →
      Answers (Machine.exec (.groveReset g) s) fun t =>
        groveState t g = 1 ∧ t.flag CLK_GROVE.HOLDING g = false ∧ SameRegsBut [CLK_GROVE.STATE.addr g] s t ∧ SameMemory s t) ∧
    (∀ g : Fin 115, groveState s g = 1 → Listening s → groveOptics g = [] → s.boot.heldRegs = [] →
      Answers (Machine.exec (.groveResetDone g) s) fun t =>
        groveState t g = 0 ∧ HasRecord 0x1503 t ∧ SameMemory s t) ∧
    (s.noImage = false → Answers (Machine.exec .clkLockSet s) fun t =>
      t.flag CLK_LOCK.LOCKED = true ∧ SameRegsBut [CLK_LOCK.LOCKED.addr 0] s t ∧ SameMemory s t) ∧
    (∀ (unit : BitVec 16) (a c : BitVec 32) (again : Bool),
      let r := repairRecord (physOf s unit.toNat) 3 a.toNat c.toNat 2
      s.boot.log.length < logMax → Answers (Machine.exec (.sramError unit a c true again) s) fun t =>
        (repairRecordOk r = true → t.boot.log = s.boot.log ++ [r] ∧ t.flag BOOT_STATUS.WRITEBACK_PENDING = true) ∧
        (repairRecordOk r = false → t = s) ∧ SameMemory s t) ∧
    (∀ (k : Fin 256) (a c : BitVec 32), coreRuns s k = true → (s.core k).tip = false →
      Answers (Machine.exec (.sramError (BitVec.ofNat 16 (unitId 0x4 (k.val / 16 * 32 + k.val % 16))) a c false false) s) fun t =>
        (t.core k).tcause = 11 ∧ (t.core k).tpc = (s.core k).pc ∧ (t.core k).pc = (s.core k).tvec ∧ SameMemory s t) ∧
    (∀ (unit : BitVec 16) (a c : BitVec 32) (again : Bool), unit.toNat / 0x1000 ≠ 3 → unit.toNat / 0x1000 ≠ 4 →
      Answers (Machine.exec (.sramError unit a c false again) s) fun t => t = s)

/-! ### The Fern cores (R390 to R405, R409) -/

/-- Core `k` has executed an instruction that changes only its registers: register `rd` holds `v` (gp0 discards it), the PC is
`pc`, and nothing else of the core, no other core, no local memory, no cluster buffer and no byte of memory has changed; of the
registers only the one that shows the core's state may have. -/
def Retired (s t : State) (k rd v pc : Nat) : Prop :=
  (t.core k).pc = pc
    ∧ t.core k = { s.core k with gp := (t.core k).gp, pc := (t.core k).pc, wdog := (t.core k).wdog }
    ∧ (∀ r, t.gpr k r = if r = rd ∧ r ≠ 0 then v % 2 ^ 32 else s.gpr k r) ∧ (∀ j, j ≠ k → t.core j = s.core j)
    ∧ t.cpu.mem = s.cpu.mem ∧ t.cpu.cbuf = s.cpu.cbuf ∧ SameMemory s t ∧ SameRegsBut [CPU_CORE.STATE.addr (coreEntry k)] s t

/-- Core `k` has taken a trap (R403): PL and IE are saved, IE is clear, TIP is set, PL is the handler level, TPC is the address of
the trapping instruction, TCAUSE says why, the PC is TVEC, and nothing else has changed. -/
def Trapped (s t : State) (k cause : Nat) : Prop :=
  t.core k = { s.core k with
      ppl := (s.core k).pl, pie := (s.core k).ie, ie := false, tip := true, pl := handlerLevel k, tpc := (s.core k).pc,
      tcause := cause, pc := (s.core k).tvec, wfi := false, tval := (t.core k).tval, wdog := (t.core k).wdog }
    ∧ (∀ j, j ≠ k → t.core j = s.core j) ∧ t.cpu.mem = s.cpu.mem ∧ t.cpu.cbuf = s.cpu.cbuf ∧ SameMemory s t
    ∧ SameRegsBut [CPU_CORE.STATE.addr (coreEntry k)] s t

/-- The word of 32 bits that is 1 when a test holds and 0 otherwise. -/
def bit32 (b : Bool) : BitVec 32 := if b then 1 else 0

/-- What C.ALU computes with selector `f` (R399). -/
def shortAlu (f : Nat) (a b : BitVec 32) : BitVec 32 :=
  match f with
  | 0 => a + b
  | 1 => a - b
  | 2 => a &&& b
  | 3 => a ||| b
  | 4 => a ^^^ b
  | 5 => b
  | 6 => a <<< (b.toNat % 32)
  | _ => a >>> (b.toNat % 32)

/-- The arithmetic and the logic of the 32-bit and the 16-bit forms (R398, R399, R404): for every operand, the value of each
instruction, and that it changes nothing but its RD and the PC; ADD also writes NCF and BC. Readings of the model that clauses
follow: log entry 33. Completion: under premises on the state and the operands alone, a clause concludes that exec answers a
next state with the command's own effect, for add, sub, andCmd, orCmd, xorCmd, sll, srl, sra, slt, sltu, mul, mulh, mulhu,
div, divu, rem, remu, addi, andi, ori, xori, slti, slli, srli, srai, lui, auipc, cAddi, cAlu and cLi. -/
def Obligations.FernArithmetic : Prop :=
  ∀ (s : State) (k : Fin 257) (i : FernIns),
    let a := BitVec.ofNat 32 (s.gpr k i.rs1)
    let b := BitVec.ofNat 32 (s.gpr k i.rs2)
    let m := BitVec.ofInt 32 i.imm
    let pc := (s.core k).pc
    let gives := fun (c : Instr) (op : FernOp) (v : BitVec 32) =>
      fernNext s k op = some i → Answers (Machine.exec c s) fun t => Retired s t k i.rd v.toNat ((pc + i.len) % 2 ^ 32)
    (fernNext s k .add = some i → Answers (Machine.exec (.add k) s) fun t =>
      t.gpr k i.rd = (if i.rd = 0 then 0 else (a + b).toNat) ∧ (∀ r, r ≠ i.rd → t.gpr k r = s.gpr k r)
        ∧ (t.core k).pc = (pc + i.len) % 2 ^ 32
        ∧ (∀ j, j < 8 → (bitOf (t.core k).df (4 + j) = true ↔
            16 ^ (j + 1) ≤ a.toNat % 16 ^ (j + 1) + b.toNat % 16 ^ (j + 1)))
        ∧ (bitOf (t.core k).df 12 = true ↔ 2 ^ 32 ≤ a.toNat + b.toNat) ∧ (t.core k).df % 16 = (s.core k).df % 16
        ∧ t.cpu.mem = s.cpu.mem ∧ SameMemory s t ∧ SameRegsBut [CPU_CORE.STATE.addr (coreEntry k)] s t) ∧
    gives (.sub k) .sub (a - b) ∧ gives (.andCmd k) .land (a &&& b) ∧ gives (.orCmd k) .lor (a ||| b) ∧
    gives (.xorCmd k) .lxor (a ^^^ b) ∧ gives (.sll k) .sll (a <<< (b.toNat % 32)) ∧
    gives (.srl k) .srl (a >>> (b.toNat % 32)) ∧ gives (.sra k) .sra (a.sshiftRight (b.toNat % 32)) ∧
    gives (.slt k) .slt (bit32 (a.slt b)) ∧ gives (.sltu k) .sltu (bit32 (a.ult b)) ∧ gives (.mul k) .mul (a * b) ∧
    gives (.mulh k) .mulh (BitVec.ofInt 32 (a.toInt * b.toInt / 2 ^ 32)) ∧
    gives (.mulhu k) .mulhu (BitVec.ofNat 32 (a.toNat * b.toNat / 2 ^ 32)) ∧
    gives (.div k) .div (if b = 0 then BitVec.allOnes 32 else a.sdiv b) ∧
    gives (.divu k) .divu (if b = 0 then BitVec.allOnes 32 else a / b) ∧
    gives (.rem k) .rem (if b = 0 then a else a.srem b) ∧ gives (.remu k) .remu (if b = 0 then a else a % b) ∧
    gives (.addi k) .addi (a + m) ∧ gives (.andi k) .andi (a &&& m) ∧ gives (.ori k) .ori (a ||| m) ∧
    gives (.xori k) .xori (a ^^^ m) ∧ gives (.slti k) .slti (bit32 (a.slt m)) ∧
    gives (.slli k) .slli (a <<< (m.toNat % 32)) ∧ gives (.srli k) .srli (a >>> (m.toNat % 32)) ∧
    gives (.srai k) .srai (a.sshiftRight (m.toNat % 32)) ∧ gives (.lui k) .lui (m <<< 13) ∧
    gives (.auipc k) .auipc (BitVec.ofNat 32 pc + m <<< 13) ∧ gives (.cAddi k) .cAddi (a + m) ∧ gives (.cLi k) .cLi m ∧
    gives (.cAlu k) .cAlu
      (shortAlu i.sel a b)

/-- Loads, stores and atomics (R392 to R394, R398, R399, R403): an access that is aligned and allowed loads its bytes,
extended, or stores the low bytes of RS2 and nothing else; an atomic writes the old word to RD and the new one, for AMOCAS
only if the old one equals RD; a misaligned access traps with cause 3 and one that reaches nothing with cause 5. Readings of
the model that clauses follow: log entry 33. Completion: under premises on the state and the operands alone, a clause
concludes that exec answers a next state with the command's own effect, for lb, lbu, lh, lhu, lw, sb, sh, sw, amoadd, amoswap,
amocas, cLw and cSw. -/
def Obligations.FernMemory : Prop :=
  ∀ (s : State) (k : Fin 257) (i : FernIns),
    let a := BitVec.ofNat 32 (s.gpr k i.rs1)
    let at_ := (a + BitVec.ofInt 32 i.imm).toNat
    let next := ((s.core k).pc + i.len) % 2 ^ 32
    let plain := fun (p : Place) (n : Nat) => ∀ x, p = .device x → inRegSpace x n = false
    let loads := fun (c : Instr) (op : FernOp) (n : Nat) (signed : Bool) =>
      fernNext s k op = some i → at_ % n = 0 →
        (∀ p v u, place s k at_ n false = some p → readPlace s k p n = some (v, u) →
          Answers (Machine.exec c s) fun t =>
            Retired s t k i.rd
              (if signed then ((BitVec.ofNat (8 * n) v).signExtend 32).toNat else v) next) ∧
        ((s.core k).tip = false → place s k at_ n false = none →
          Answers (Machine.exec c s) fun t => Trapped s t k 5 ∧ (t.core k).tval = at_)
    let stores := fun (c : Instr) (op : FernOp) (n : Nat) =>
      fernNext s k op = some i → at_ % n = 0 →
        (∀ p, place s k at_ n true = some p → plain p n → (writePlace s k p n (s.gpr k i.rs2)).2 = false →
          NoneHeld s (writePlace s k p n (s.gpr k i.rs2)).1 →
          let w := (writePlace s k p n (s.gpr k i.rs2)).1
          Answers (Machine.exec c s) fun t =>
            t.cpu.mem = w.cpu.mem ∧ t.cpu.cbuf = w.cpu.cbuf ∧ t.mem = w.mem ∧ (t.core k).pc = next
              ∧ (∀ r, t.gpr k r = s.gpr k r) ∧ ∀ j, j ≠ k.val → t.core j = s.core j) ∧
        (∀ off, place s k at_ n true = some (.own off) →
          Answers (Machine.exec c s) fun t =>
            t.cpu.mem = Mem.store s.cpu.mem (localBase k + off) (toLe n (s.gpr k i.rs2)) ∧ SameMemory s t
              ∧ SameRegsBut [CPU_CORE.STATE.addr (coreEntry k)] s t) ∧
        ((s.core k).tip = false → place s k at_ n true = none →
          Answers (Machine.exec c s) fun t => Trapped s t k 5 ∧ (t.core k).tval = at_)
    let crooked := fun (c : Instr) (op : FernOp) (n addr : Nat) =>
      fernNext s k op = some i → (s.core k).tip = false → addr % n ≠ 0 →
        Answers (Machine.exec c s) fun t => Trapped s t k 3 ∧ (t.core k).tval = addr
    let atomics := fun (c : Instr) (op : FernOp) (old new : Nat) =>
      fernNext s k op = some i → a.toNat % 4 = 0 →
        (∀ p, place s k a.toNat 4 true = some p → plain p 4 → readPlace s k p 4 = some (old, s) →
          (writePlace s k p 4 new).2 = false → NoneHeld s (writePlace s k p 4 new).1 →
          let w := (writePlace s k p 4 new).1
          Answers (Machine.exec c s) fun t =>
            t.cpu.mem = w.cpu.mem ∧ t.cpu.cbuf = w.cpu.cbuf ∧ t.mem = w.mem ∧ (t.core k).pc = next
              ∧ ∀ r, t.gpr k r = if r = i.rd ∧ r ≠ 0 then old % 2 ^ 32 else s.gpr k r) ∧
        ((s.core k).tip = false → place s k a.toNat 4 true = none →
          Answers (Machine.exec c s) fun t => Trapped s t k 5 ∧ (t.core k).tval = a.toNat)
    loads (.lb k) .lb 1 true ∧ loads (.lbu k) .lbu 1 false ∧ loads (.lh k) .lh 2 true ∧ loads (.lhu k) .lhu 2 false ∧
    loads (.lw k) .lw 4 false ∧ loads (.cLw k) .cLw 4 false ∧ stores (.sb k) .sb 1 ∧ stores (.sh k) .sh 2 ∧
    stores (.sw k) .sw 4 ∧ stores (.cSw k) .cSw 4 ∧
    (∀ old, atomics (.amoadd k) .amoadd old ((old + s.gpr k i.rs2) % 2 ^ 32) ∧
      atomics (.amoswap k) .amoswap old (s.gpr k i.rs2) ∧
      (old = s.gpr k i.rd → atomics (.amocas k) .amocas old (s.gpr k i.rs2)) ∧
      (old ≠ s.gpr k i.rd → fernNext s k .amocas = some i → a.toNat % 4 = 0 →
        ∀ p, place s k a.toNat 4 true = some p → readPlace s k p 4 = some (old, s) →
          Answers (Machine.exec (.amocas k) s) fun t => Retired s t k i.rd old next)) ∧
    crooked (.lh k) .lh 2 at_ ∧ crooked (.lhu k) .lhu 2 at_ ∧ crooked (.lw k) .lw 4 at_ ∧ crooked (.cLw k) .cLw 4 at_ ∧
    crooked (.sh k) .sh 2 at_ ∧ crooked (.sw k) .sw 4 at_ ∧ crooked (.cSw k) .cSw 4 at_ ∧
    crooked (.amoadd k) .amoadd 4 a.toNat ∧ crooked (.amoswap k) .amoswap 4 a.toNat ∧
    crooked (.amocas k) .amocas 4 a.toNat

/-- Branches, jumps and what a core does with its own state (R394, R398, R399, R401, R403): a branch goes to PC + 2 IMM
exactly when its comparison holds; JAL and JALR leave PC + 4 in RD; ECALL, EBREAK and an illegal encoding trap; TRET returns;
WFI waits; FENCE only goes on; MFSR and MTSR read and write the system registers, or trap with cause 6 or 1. Readings of the
model that clauses follow: log entry 33. Completion: under premises on the state and the operands alone, a clause concludes
that exec answers a next state with the command's own effect, for beq, bne, blt, bge, bltu, bgeu, jal, jalr, ecall, ebreak,
tret, wfi, fernFence, mfsr, mtsr, cBz, cJ and illegalInstruction. -/
def Obligations.FernControl : Prop :=
  ∀ (s : State) (k : Fin 257) (i : FernIns),
    let a := BitVec.ofNat 32 (s.gpr k i.rs1)
    let b := BitVec.ofNat 32 (s.gpr k i.rs2)
    let m := BitVec.ofInt 32 i.imm
    let pc := BitVec.ofNat 32 (s.core k).pc
    let next := ((s.core k).pc + i.len) % 2 ^ 32
    let far := (pc + 2 * m).toNat
    let goes := fun (c : Instr) (op : FernOp) (taken : Bool) =>
      fernNext s k op = some i → Answers (Machine.exec c s) fun t => Retired s t k 0 0 (if taken then far else next)
    let low := (s.core k).pl < handlerLevel k
    let n := i.imm.toNat
    goes (.beq k) .beq (a == b) ∧ goes (.bne k) .bne (a != b) ∧ goes (.blt k) .blt (a.slt b) ∧
    goes (.bge k) .bge (!a.slt b) ∧ goes (.bltu k) .bltu (a.ult b) ∧ goes (.bgeu k) .bgeu (!a.ult b) ∧
    goes (.cBz k) .cBz (if i.sel = 0 then a == 0 else a != 0) ∧ goes (.cJ k) .cJ true ∧
    goes (.fernFence k) .fence false ∧
    (fernNext s k .jal = some i → Answers (Machine.exec (.jal k) s) fun t =>
      Retired s t k i.rd ((s.core k).pc + 4) far) ∧
    (fernNext s k .jalr = some i → Answers (Machine.exec (.jalr k) s) fun t =>
      Retired s t k i.rd ((s.core k).pc + 4) ((a + m).toNat / 2 * 2)) ∧
    ((s.core k).tip = false →
      (fernNext s k .ecall = some i →
        ((s.core k).pl = 0 → Answers (Machine.exec (.ecall k) s) fun t => Trapped s t k 7) ∧
        ((s.core k).pl = 1 → Answers (Machine.exec (.ecall k) s) fun t => Trapped s t k 8) ∧
        ((s.core k).pl = 3 → Answers (Machine.exec (.ecall k) s) fun t => ∃ cause, Trapped s t k cause)) ∧
      (fernNext s k .ebreak = some i → Answers (Machine.exec (.ebreak k) s) fun t => Trapped s t k 9) ∧
      (∀ bits, coreRuns s k = true → breakpointAt s k = none →
        (fetch s k = .illegal bits → bits < 2 ^ 32 →
          Answers (Machine.exec (.illegalInstruction k) s) fun t => Trapped s t k 1 ∧ (t.core k).tval = bits) ∧
        (fetch s k = .odd → Answers (Machine.exec (.illegalInstruction k) s) fun t => Trapped s t k 2) ∧
        (fetch s k = .fault bits → Answers (Machine.exec (.illegalInstruction k) s) fun t => Trapped s t k 4)) ∧
      (∀ w : Bool, low → srGuarded n = true →
        (w = false → fernNext s k .mfsr = some i → Answers (Machine.exec (.mfsr k) s) fun t => Trapped s t k 6) ∧
        (w = true → fernNext s k .mtsr = some i → Answers (Machine.exec (.mtsr k) s) fun t => Trapped s t k 6)) ∧
      (srOpen n = false → srGuarded n = false →
        (fernNext s k .mfsr = some i → Answers (Machine.exec (.mfsr k) s) fun t => Trapped s t k 1) ∧
        (fernNext s k .mtsr = some i → Answers (Machine.exec (.mtsr k) s) fun t => Trapped s t k 1))) ∧
    (fernNext s k .tret = some i → Answers (Machine.exec (.tret k) s) fun t =>
      t.core k = { s.core k with
          pl := (s.core k).ppl, ie := (s.core k).pie, tip := false, pc := (s.core k).tpc, wdog := (t.core k).wdog }
        ∧ t.cpu.mem = s.cpu.mem ∧ SameMemory s t ∧ SameRegsBut [CPU_CORE.STATE.addr (coreEntry k)] s t) ∧
    (fernNext s k .wfi = some i → Answers (Machine.exec (.wfi k) s) fun t =>
      t.core k = { s.core k with pc := next, wfi := true, wdog := (t.core k).wdog } ∧ t.cpu.mem = s.cpu.mem ∧ SameMemory s t
        ∧ SameRegsBut [CPU_CORE.STATE.addr (coreEntry k)] s t) ∧
    (¬low →
      (fernNext s k .mfsr = some i → ∀ x ∈
          [(0x10, (s.core k).pl + 4 * b2n (s.core k).ie + 8 * (s.core k).ppl + 32 * b2n (s.core k).pie
              + 64 * b2n (s.core k).tip),
            (0x11, (s.core k).tvec), (0x12, (s.core k).tpc), (0x13, (s.core k).tcause), (0x14, (s.core k).tval),
            (0x18, (s.core k).df), (0x20, coreUnit s k + 2 ^ 16 * coreGlade s k), (0x21, s.now % 2 ^ 32),
            (0x22, s.now / 2 ^ 32 % 2 ^ 32), (0x24, (s.core k).tcmp % 2 ^ 32), (0x25, (s.core k).tcmp / 2 ^ 32 % 2 ^ 32),
            (0x40, (s.core k).lpr), (3, 0)],
        n = x.1 → Answers (Machine.exec (.mfsr k) s) fun t => Retired s t k i.rd x.2 next) ∧
      (fernNext s k .mtsr = some i → ∀ x ∈
          [(0x11, { s.core k with tvec := a.toNat / 2 * 2 }), (0x12, { s.core k with tpc := a.toNat }),
            (0x18, { s.core k with df := a.toNat % 2 ^ 13 }), (0x40, { s.core k with lpr := a.toNat }),
            (0x24, { s.core k with tcmp := putBits (s.core k).tcmp 0 32 a.toNat }),
            (0x37, { s.core k with apt := Tab.set 0 (s.core k).apt 7 (a.toNat % 2 ^ 25) }), (0x21, s.core k)],
        n = x.1 → Answers (Machine.exec (.mtsr k) s) fun t =>
          t.core k = { x.2 with pc := next, wdog := (t.core k).wdog } ∧ t.cpu.mem = s.cpu.mem ∧ SameMemory s t
            ∧ SameRegsBut [CPU_CORE.STATE.addr (coreEntry k)] s t))

/-- Packed decimal (R404, R405): for valid digits RD holds the digits of the sum, the difference or the shifted number, C and
Z are as R404 says and the other bits of DF stay; an invalid digit sets INV and writes nothing, and traps with cause 10 under
TRAPINV; DADJ gives what the algorithm of R405 gives, and turns the binary sum of two decimal words no two digits of which add
to 15, with the NCF and BC that ADD left, into their decimal sum. Readings of the model that clauses follow: log entry 33.
Completion: under premises on the state and the operands alone, a clause concludes that exec answers a next state with the
command's own effect, for dadd, daddc, dsub, dsubb, dadj, dsl and dsr. -/
def Obligations.FernDecimal : Prop :=
  ∀ (s : State) (k : Fin 257) (i : FernIns),
    let a := s.gpr k i.rs1
    let b := s.gpr k i.rs2
    let x := decimalOf a
    let y := decimalOf b
    let df := (s.core k).df
    let n := i.imm.toNat
    let cin := df % 2
    let next := ((s.core k).pc + i.len) % 2 ^ 32
    let ends := fun (c : Instr) (op : FernOp) (v : Nat) (cy : Bool) (keepZ : Bool) =>
      fernNext s k op = some i → Answers (Machine.exec c s) fun t =>
        (i.rd ≠ 0 → decimalOk (t.gpr k i.rd) = true ∧ decimalOf (t.gpr k i.rd) = v)
          ∧ (∀ r, r ≠ i.rd → t.gpr k r = s.gpr k r) ∧ (t.core k).pc = next
          ∧ bitOf (t.core k).df 0 = cy ∧ (bitOf (t.core k).df 1 = true ↔ v = 0 ∧ (keepZ = true → bitOf df 1 = true))
          ∧ (t.core k).df / 4 = df / 4 ∧ SameMemory s t ∧ SameRegsBut [CPU_CORE.STATE.addr (coreEntry k)] s t
    let bad := fun (c : Instr) (op : FernOp) =>
      fernNext s k op = some i →
        (bitOf df 3 = false → Answers (Machine.exec c s) fun t =>
          (∀ r, t.gpr k r = s.gpr k r) ∧ bitOf (t.core k).df 2 = true ∧ (t.core k).df % 4 = df % 4
            ∧ (t.core k).pc = next) ∧
        (bitOf df 3 = true → (s.core k).tip = false → Answers (Machine.exec c s) fun t =>
          (∀ r, t.gpr k r = s.gpr k r) ∧ bitOf (t.core k).df 2 = true ∧ (t.core k).tcause = 10
            ∧ (t.core k).tpc = (s.core k).pc ∧ (t.core k).pc = (s.core k).tvec)
    (decimalOk a = true → decimalOk b = true →
      ends (.dadd k) .dadd ((x + y) % 10 ^ 8) (decide (10 ^ 8 ≤ x + y)) false ∧
      ends (.daddc k) .daddc ((x + y + cin) % 10 ^ 8) (decide (10 ^ 8 ≤ x + y + cin)) true ∧
      ends (.dsub k) .dsub (if x < y then x + 10 ^ 8 - y else x - y) (decide (x < y)) false ∧
      ends (.dsubb k) .dsubb (if x < y + cin then x + 10 ^ 8 - (y + cin) else x - (y + cin)) (decide (x < y + cin)) true) ∧
    (decimalOk a = true → n ≤ 8 →
      ends (.dsl k) .dsl (x * 10 ^ n % 10 ^ 8) (decide (10 ^ 8 ≤ x * 10 ^ n)) false ∧
      ends (.dsr k) .dsr (x / 10 ^ n) (decide (x % 10 ^ n ≠ 0)) false) ∧
    (decimalOk a = false →
      bad (.dadd k) .dadd ∧ bad (.daddc k) .daddc ∧ bad (.dsub k) .dsub ∧ bad (.dsubb k) .dsubb ∧ bad (.dsl k) .dsl ∧
      bad (.dsr k) .dsr) ∧
    (decimalOk b = false → bad (.dadd k) .dadd ∧ bad (.daddc k) .daddc ∧ bad (.dsub k) .dsub ∧ bad (.dsubb k) .dsubb) ∧
    (fernNext s k .dadj = some i → Answers (Machine.exec (.dadj k) s) fun t =>
      (i.rd ≠ 0 → t.gpr k i.rd = (adjust df a).1 % 2 ^ 32) ∧ bitOf (t.core k).df 0 = (adjust df a).2
        ∧ (bitOf (t.core k).df 1 = true ↔ (adjust df a).1 = 0) ∧ (t.core k).df / 4 = df / 4 ∧ (t.core k).pc = next) ∧
    (∀ u v, u < 2 ^ 32 → v < 2 ^ 32 → (∀ j, j < 8 → bitsOf u (4 * j) 4 + bitsOf v (4 * j) 4 ≠ 15) → decimalOk u = true → decimalOk v = true → a = (u + v) % 2 ^ 32 →
      bitsOf df 4 8 = nibbleCarries u v → bitOf df 12 = decide (2 ^ 32 ≤ u + v) →
      ends (.dadj k) .dadj ((decimalOf u + decimalOf v) % 10 ^ 8) (decide (10 ^ 8 ≤ decimalOf u + decimalOf v)) false)

/-- Counter instructions (R409): CPOST adds RS2 to a counter that the core may name, CREAD reads it into a register pair,
CWAIT goes on at once when the counter has reached its target and waits otherwise; a counter outside the glade traps with
cause 5. Readings of the model that clauses follow: log entry 33. Completion: under premises on the state and the operands
alone, a clause concludes that exec answers a next state with the command's own effect, for cpost, cwait and cread. -/
def Obligations.FernCounters : Prop :=
  ∀ (s : State) (k : Fin 257) (i : FernIns),
    let c := s.gpr k i.rs1 % 65536
    let next := ((s.core k).pc + i.len) % 2 ^ 32
    let target := s.gpr k i.rs2 + 2 ^ 32 * s.gpr k (i.rs2 + 1)
    (coreCtr s k c = true → s.ustStopped = false →
      (fernNext s k .cpost = some i → Answers (Machine.exec (.cpost k) s) fun t =>
        t.ctr c = (s.ctr c + s.gpr k i.rs2) % 2 ^ 64 ∧ (t.core k).pc = next ∧ ∀ r, t.gpr k r = s.gpr k r) ∧
      (fernNext s k .cread = some i → i.rd % 2 = 0 → Answers (Machine.exec (.cread k) s) fun t =>
        t.gpr k (i.rd + 1) = s.ctr c / 2 ^ 32 % 2 ^ 32 ∧ (i.rd ≠ 0 → t.gpr k i.rd = s.ctr c % 2 ^ 32)
          ∧ (∀ r, r ≠ i.rd → r ≠ i.rd + 1 → t.gpr k r = s.gpr k r) ∧ (t.core k).pc = next ∧ SameMemory s t
          ∧ SameRegsBut [CPU_CORE.STATE.addr (coreEntry k)] s t)) ∧
    (fernNext s k .cwait = some i → coreCtr s k c = true →
      (satisfied (s.ctr c) target = true → Answers (Machine.exec (.cwait k) s) fun t => Retired s t k 0 0 next) ∧
      (satisfied (s.ctr c) target = false → Answers (Machine.exec (.cwait k) s) fun t =>
        t.core k = s.core k ∧ SameMemory s t ∧ ∃ w ∈ t.waits, w.who = .core k.val ∧ w.on = .counter c ∧ w.target = target)) ∧
    (coreCtr s k c = false → (s.core k).tip = false →
      (fernNext s k .cpost = some i → Answers (Machine.exec (.cpost k) s) fun t => Trapped s t k 5) ∧
      (fernNext s k .cread = some i → Answers (Machine.exec (.cread k) s) fun t => Trapped s t k 5) ∧
      (fernNext s k .cwait = some i → Answers (Machine.exec (.cwait k) s) fun t => Trapped s t k 5))

/-- The encodings of the Fern instructions (R397 to R400): for every register and every immediate, a word of each layout
decodes to its instruction with these very operands, and a nonzero bit that must be zero, an unlisted FUNCT and a count above
8 decode to nothing. Readings of the model that clauses follow: log entry 33. -/
def Obligations.FernEncodings : Prop :=
  ∀ (rd rs1 rs2 : Fin 32) (imm : BitVec 14) (wide : BitVec 19) (f : Fin 512),
    let word := fun (major funct : Nat) => 8 * major + 2 ^ 8 * rd.val + 2 ^ 13 * rs1.val + 2 ^ 18 * rs2.val + 2 ^ 23 * funct
    let iword := fun (major : Nat) => 8 * major + 2 ^ 8 * rd.val + 2 ^ 13 * rs1.val + 2 ^ 18 * imm.toNat
    let uword := fun (major : Nat) => 8 * major + 2 ^ 8 * rd.val + 2 ^ 13 * wide.toNat
    let three := fun (op : FernOp) =>
      ({ op := op, rd := rd.val, rs1 := rs1.val, rs2 := rs2.val, imm := (rs2.val : Int) } : FernIns)
    (∀ p ∈ arithFuncts, decode32 (word 0x01 p.1) = some (three p.2)) ∧
    ((∀ p ∈ arithFuncts, p.1 ≠ f.val) → decode32 (word 0x01 f) = none) ∧
    (∀ p ∈ [(0, FernOp.slli), (1, .srli), (2, .srai)], decode32 (word 0x07 p.1) = some (three p.2)) ∧
    (∀ p ∈ [(0x02, FernOp.addi), (0x06, .slti), (0x0A, .lb), (0x0B, .lbu), (0x0C, .lh), (0x0D, .lhu), (0x0E, .lw),
        (0x19, .jalr)],
      decode32 (iword p.1) = some { op := p.2, rd := rd.val, rs1 := rs1.val, imm := imm.toInt }) ∧
    (∀ p ∈ [(0x03, FernOp.andi), (0x04, .ori), (0x05, .xori)],
      decode32 (iword p.1) = some { op := p.2, rd := rd.val, rs1 := rs1.val, imm := (imm.toNat : Int) }) ∧
    (∀ p ∈ [(0x0F, FernOp.sb), (0x10, .sh), (0x11, .sw)],
      decode32 (iword p.1) = some { op := p.2, rs2 := rd.val, rs1 := rs1.val, imm := imm.toInt }) ∧
    (∀ p ∈ [(0x12, FernOp.beq), (0x13, .bne), (0x14, .blt), (0x15, .bge), (0x16, .bltu), (0x17, .bgeu)],
      decode32 (iword p.1) = some { op := p.2, rs1 := rd.val, rs2 := rs1.val, imm := imm.toInt }) ∧
    (∀ p ∈ [(0x08, FernOp.lui), (0x09, .auipc), (0x18, .jal)],
      decode32 (uword p.1) = some { op := p.2, rd := rd.val, imm := wide.toInt }) ∧
    (∀ p ∈ [(0, FernOp.dadd), (1, .daddc), (2, .dsub), (3, .dsubb)], decode32 (word 0x1A p.1) = some (three p.2)) ∧
    (decode32 (word 0x1A 4) = if rs2.val = 0 then some (three .dadj) else none) ∧
    (decode32 (word 0x1A 5) = if rs2.val ≤ 8 then some (three .dsl) else none) ∧
    (decode32 (word 0x1A 6) = if rs2.val ≤ 8 then some (three .dsr) else none) ∧
    (decode32 (word 0x1E 1) = if rs2.val % 2 = 0 then some (three .cwait) else none) ∧
    (decode32 (word 0x1E 2) = if rd.val % 2 = 0 then some (three .cread) else none) ∧
    (∀ p ∈ [(0, FernOp.amoadd), (1, .amoswap), (2, .amocas)], decode32 (word 0x1F p.1) = some (three p.2)) ∧
    decode32 (word 0x00 f) = none ∧ decode32 0x00A50CD0 = some { op := .daddc, rd := 12, rs1 := 8, rs2 := 9, imm := 9 } ∧
    decode16 0xFFC9 = some { op := .cAddi, rd := 9, rs1 := 9, imm := -1, len := 2 }

/-! ### The Trail port and the test access port (R456 to R466) -/

/-- Transactions (R456 to R458, R463): nothing answers while the port is off; a wrong CRC is answered 3, an address without a
register and an unknown OP 4, a locked register 2, and the rest is done and answered 0 with its data. -/
def TrailTransactionsHold : Prop :=
  ∀ (s : State) (off : BitVec 24) (v : Word) (crc : BitVec 8),
    let o := off.toNat
    let rd := Instr.trailRead off crc
    let wr := Instr.trailWrite off v crc
    let rcrc := crc.toNat = crc8 (requestBits 1 o none)
    let wcrc := crc.toNat = crc8 (requestBits 2 o (some v.toNat))
    let acks := fun (ack : Nat) (t : State) => t = trailAnswer s ack none
    (trailOn s = false → Answers (Machine.exec rd s) (fun t => t = s) ∧ Answers (Machine.exec wr s) (fun t => t = s)) ∧
    (trailOn s = true →
      (¬rcrc → Answers (Machine.exec rd s) (acks 3)) ∧ (¬wcrc → Answers (Machine.exec wr s) (acks 3)) ∧
      (trlThere o = false → (rcrc → Answers (Machine.exec rd s) (acks 4)) ∧ (wcrc → Answers (Machine.exec wr s) (acks 4))) ∧
      (trlThere o = true → trailLocked s = true → 0x200 ≤ o →
        (rcrc → Answers (Machine.exec rd s) (acks 2)) ∧ (wcrc → Answers (Machine.exec wr s) (acks 2))) ∧
      (∀ op : BitVec 8, op ≠ 1 → op ≠ 2 →
        Answers (Machine.exec (.trailBadOp op off crc) s)
          (acks (if crc.toNat = crc8 (requestBits op.toNat o none) then 4 else 3))) ∧
      (o = 0 ∨ o = 0x200 ∧ trailLocked s = false → rcrc → trlThere o = true →
        Answers (Machine.exec rd s) fun t => t = trailAnswer s 0 (some (s.readReg (0x2800000 + o)))) ∧
      (o = 0x200 → trailLocked s = false → wcrc → trlThere o = true →
        Answers (Machine.exec wr s) fun t =>
          t.rd TRL_CORE_SEL.UNIT = v.toNat % 2 ^ TRL_CORE_SEL.UNIT.width ∧ SameRegsBut [TRL_CORE_SEL.UNIT.addr 0] s t
            ∧ SameMemory s t)) ∧
    (s.cpu.probes = [] → s.sec.heldStarts = [] → (∀ ri, ri < 32 → ringLive s ri = false) → Answers (Machine.exec .trailRelock s) fun t =>
      t.rd TRL_STATUS.LOCK = 0 ∧ t.cpu.probes = [] ∧ t.cpu.job = none ∧ SameMemory s t)

/-- Debugging and the test access port (R459 to R462, R464 to R466): HALT, STEP and RESUME act on the selected core that the scope
reaches, or say why not in ERR; a core halts before a breakpoint's instruction and after a watchpoint's access; a register of a
halted core is read or written; one memory access at a time runs; EXTEST, CLAMP and HIGHZ lock the port and hold the device in warm
device reset until Test-Logic-Reset lets it go. -/
def DebugAndTestHold : Prop :=
  ∀ (s : State),
    let err := fun (e : Nat) (t : State) =>
      t.rd TRL_STATUS.ERR = e ∧ t.cpu.probes = s.cpu.probes ∧ SameRegsBut [TRL_STATUS.ERR.addr 0] s t ∧ SameMemory s t
    let all := [Instr.halt, .trailResume, .step]
    (∀ c ∈ all, trailLocked s = true → Answers (Machine.exec c s) fun t => t = s) ∧
    (∀ c ∈ all, trailLocked s = false → trailCore s = none → Answers (Machine.exec c s) (err 4)) ∧
    (∀ c ∈ all, ∀ d, trailLocked s = false → trailCore s = some d → inScope s d = false →
      Answers (Machine.exec c s) (err 2)) ∧
    (∀ d, trailLocked s = false → trailCore s = some d → inScope s d = true → d < 256 →
      ((s.debugOf d).halted = false →
        Answers (Machine.exec .halt s) (fun t =>
          (t.debugOf d).halted = true ∧ (t.debugOf d).reason = 0 ∧ t.rd CPU_CORE.STATE (coreEntry d) = 3
            ∧ t.rd TRL_STATUS.ERR = 0 ∧ (∀ j, j ≠ d → t.debugOf j = s.debugOf j) ∧ SameMemory s t) ∧
        Answers (Machine.exec .step s) (err 1)) ∧
      ((s.debugOf d).halted = true →
        Answers (Machine.exec .trailResume s) (fun t =>
          (t.debugOf d).halted = false ∧ (t.debugOf d).stepping = false ∧ (t.debugOf d).pass = true
            ∧ (∀ j, j ≠ d → t.debugOf j = s.debugOf j) ∧ SameMemory s t) ∧
        Answers (Machine.exec .step s) (fun t =>
          (t.debugOf d).halted = false ∧ (t.debugOf d).stepping = true ∧ SameMemory s t)) ∧
      (∀ v : Word, let w := putBits v.toNat 43 1 1
        let num := bitsOf w TRL_CORE_REG.NUM.lsb TRL_CORE_REG.NUM.width
        TRL_CORE_REG.SR.of w = 0 → num < 32 → (s.debugOf d).halted = true →
        (TRL_CORE_REG.WRITE.of w = 1 → Answers (Machine.exec (.coreRegAccess v) s) fun t =>
          (∀ r, t.gpr d r = if r = num ∧ r ≠ 0 then TRL_CORE_REG.DATA.of w else s.gpr d r) ∧ SameMemory s t) ∧
        (TRL_CORE_REG.WRITE.of w = 0 → Answers (Machine.exec (.coreRegAccess v) s) fun t =>
          t.rd TRL_CORE_REG.DATA = s.gpr d num ∧ (∀ r, t.gpr d r = s.gpr d r) ∧ SameMemory s t))) ∧
    (∀ (k : Fin 256) (j : Nat),
      (coreRuns s k = true → breakpointAt s k = some j → Answers (Machine.exec (.breakpointHit k.castSucc) s) fun t =>
        (t.debugOf k).halted = true ∧ (t.debugOf k).reason = 2 ∧ (t.debugOf k).which = j
          ∧ (t.core k).pc = (s.core k).pc ∧ SameMemory s t) ∧
      ((s.debugOf k).hit = some j → Answers (Machine.exec (.watchpointHit k.castSucc) s) fun t =>
        (t.debugOf k).halted = true ∧ (t.debugOf k).reason = 3 ∧ (t.debugOf k).which = j ∧ (t.debugOf k).hit = none
          ∧ SameMemory s t)) ∧
    (∀ w : Option Word, trailLocked s = false → s.cpu.job = none → s.flag TRL_MEM_ADDR.LOCAL = false →
      let a := s.rd TRL_MEM_ADDR.ADDR / 8 * 8
      (memScope s a = true → Answers (Machine.exec (.trailMemAccess w) s) fun t =>
        (∃ x, t.cpu.job = some x ∧ x.addr = a ∧ x.write = w.map (·.toNat) ∧ x.result = none) ∧ t.rd TRL_STATUS.ERR = 0
          ∧ SameMemory s t) ∧
      (memScope s a = false → Answers (Machine.exec (.trailMemAccess w) s) fun t =>
        t.cpu.job = none ∧ t.rd TRL_STATUS.ERR = 2 ∧ SameMemory s t)) ∧
    (∀ x : TrailJob, s.cpu.job = some x → x.result = none → x.onCore = false → inRegSpace x.addr 8 = false →
      (x.write = none → s.memBad x.addr 8 = false → Answers (Machine.exec .trailMemDone s) fun t =>
        t.cpu.job = some { x with result := some (leNat (s.bytes x.addr 8)) } ∧ SameMemory s t) ∧
      (∀ v, x.write = some v → Answers (Machine.exec .trailMemDone s) fun t =>
        t.mem = (s.writeMem x.addr (toLe 8 v)).1.mem)) ∧
    (s.pins.aux = true →
      (∀ c ∈ [(Instr.extest, 0), (.clamp, 4), (.highz, 5)], s.cpu.tapHold = false → powered s = true → s.boot.warm = 0 →
        s.cpu.probes = [] →
        Answers (Machine.exec c.1 s) fun t =>
          t.cpu.tap = c.2 ∧ t.cpu.tapHold = true ∧ t.boot.warm = 1 ∧ t.rd TRL_STATUS.LOCK = 0 ∧ trailLocked t = true
            ∧ SameMemory s t) ∧
      Answers (Machine.exec .idcode s) (fun t =>
        t.cpu.tap = 1 ∧ t.out = s.out ++ [.serial (toLe 4 0x14160C7B)] ∧ SameRegsBut [] s t ∧ SameMemory s t) ∧
      Answers (Machine.exec .samplePreload s) (fun t =>
        t.cpu.tap = 2 ∧ t.out.length = s.out.length + 1 ∧ SameRegsBut [] s t ∧ SameMemory s t) ∧
      Answers (Machine.exec .bypass s) (fun t => t.cpu.tap = 0xFF ∧ SameRegsBut [] s t ∧ SameMemory s t ∧ t.out = s.out) ∧
      Answers (Machine.exec .testLogicReset s) (fun t =>
        t.cpu.tap = 1 ∧ t.cpu.tapHold = false ∧ SameRegsBut [] s t ∧ SameMemory s t))

/-- The Trail port, debugging and the test access port. Readings of the model that clauses follow: log entry 34. Completion:
under premises on the state and the operands alone, a clause concludes that exec answers a next state with the command's own
effect, for trailRead, trailWrite, trailBadOp, trailRelock, halt, trailResume, step, breakpointHit, watchpointHit,
coreRegAccess, trailMemAccess, trailMemDone, extest, idcode, samplePreload, clamp, highz, bypass and testLogicReset. -/
def Obligations.TrailAndTest : Prop := TrailTransactionsHold ∧ DebugAndTestHold

/-! ### Single rules, stated whole -/

/-- R147: while feature bit 0 is not agreed, every decode command that is fetched completes with NOT_SUPPORTED, OPEN among
them; and while feature bit 1 is not agreed, SET_TREE, VERIFY and ATTEND with TREE do. Commands whose fields are outside their
values (R144) complete with BAD_DESCRIPTOR instead. Completion: under premises on the state and the operands alone, a clause
concludes that exec answers a next state with the command's own effect, for commandFetch. -/
def Obligations.DecodeFeatures : Prop :=
  ∀ (s : State) (n : Fin 256) (r : HostReply),
    let qid := decQid n
    let q := s.queue qid
    let a := q.cmdAddr qid q.head
    let l := s.bytes a 64
    let op := leAt l 0 1
    mayFetch s qid = true → q.state = .active → q.host = false → (s.gladeRead (s.queueGlade qid) a 64).2 = St.success →
    decFieldsOk l = true →
    s.feature 0 = false ∨ (s.feature 1 = false ∧ (op = 5 ∨ op = 7 ∨ (op = 4 ∧ bitOf (leAt l 27 1) 0 = true))) →
    Answers (Machine.exec (.commandFetch (BitVec.ofNat 24 qid) r) s) fun t =>
      ∃ d ∈ (t.queue qid).due, d.word0 = leAt l 4 4 ∧ d.status = St.notSupported ∧ d.entry = q.head

/-- R428: the control level is the thermal level, raised to THROTTLE (2) while the limiter is engaged; and whether a verified
commit is deferred (state 2) or starts (state 3), and whether a deferred activation starts, is decided by it. Completion:
under premises on the state and the operands alone, a clause concludes that exec answers a next state with the command's own
effect, for fwCommitVerified and deferredStartExpire. -/
def Obligations.ControlLevel : Prop :=
  ∀ (s : State),
    (s.flag PWR_STATUS.HW_LIMIT = false → controlLevel s = s.rd PWR_STATUS.LEVEL) ∧
    (s.flag PWR_STATUS.HW_LIMIT = true → controlLevel s = max 2 (s.rd PWR_STATUS.LEVEL)) ∧
    (∀ qid e a, s.fw.commit = some (qid, e, a) → s.rd PWR_ACT.STATE = 0 → a ≠ 0 →
      Answers (Machine.exec .fwCommitVerified s) fun t =>
        (t.rd PWR_ACT.STATE = 2 → 2 ≤ controlLevel s) ∧ (t.rd PWR_ACT.STATE = 3 → controlLevel s < 2)) ∧
    (s.rd PWR_ACT.STATE = 2 →
      (controlLevel s < 2 → Answers (Machine.exec .deferredStartExpire s) fun t => t.rd PWR_ACT.STATE = 3) ∧
      (2 ≤ controlLevel s → Answers (Machine.exec .deferredStartExpire s) fun t => t = s))

/-- R322: an image copy that is put into use verifies under the root key or under an owner key whose configuration bit is set,
the one that its signer key identifier selects; a copy whose identifier matches neither is invalid, and is not put into use.
Completion: under premises on the state and the operands alone, a clause concludes that exec answers a next state with the
command's own effect, for imageReadDone. -/
def Obligations.ImageKeys : Prop :=
  ∀ (s : State),
    let mayVerify := fun (k : List Byte) => k = Config.vendorRootKey ∨ ∃ u, (k, u) ∈ s.sec.owners ∧ bitOf u 0 = true
    (∀ a b log0 log1, alive s = true → bootState s = 2 →
      Answers (Machine.exec (.imageReadDone a b log0 log1) s) fun t =>
        bootState t = 3 → ∃ c ∈ [a, b], ∃ k, t.boot.image = bytesAt c 0 (lyTotal c) ∧ mayVerify k
          ∧ keyIdent k = bytesAt c 24 32
          ∧ Config.ecdsaVerify k (bytesAt c 0 (lyTotal c - 132)) (bytesAt c (lyTotal c - 132) 132) = true) ∧
    (∀ c, (∀ k, mayVerify k → keyIdent k ≠ bytesAt c 24 32) → lyValid s c = false)
end

