-- ==== Sys2Proof/Laws/Bits.lean ====
section
/-! SUPPORT. Bit fields of numbers: what a field reads as after a field has been replaced. -/
namespace Sys2Proof.Machine

theorem bitsOf_lt (v lsb w : Nat) : bitsOf v lsb w < 2 ^ w := Nat.mod_lt _ (Nat.two_pow_pos w)

theorem putBits_testBit (v lsb w f i : Nat) :
    (putBits v lsb w f).testBit i =
      if i < lsb then v.testBit i else if i < lsb + w then f.testBit (i - lsb) else v.testBit i := by
  have h1 : v % 2 ^ lsb < 2 ^ lsb := Nat.mod_lt _ (Nat.two_pow_pos lsb)
  have h2 : f % 2 ^ w < 2 ^ w := Nat.mod_lt _ (Nat.two_pow_pos w)
  have e : putBits v lsb w f = 2 ^ lsb * (2 ^ w * (v / 2 ^ (lsb + w)) + f % 2 ^ w) + v % 2 ^ lsb := by
    simp only [putBits, Nat.pow_add, Nat.mul_add]; ac_rfl
  rw [e, Nat.testBit_two_pow_mul_add _ h1]
  split
  · rename_i h; simp [Nat.testBit_mod_two_pow, h]
  · rename_i h
    rw [Nat.testBit_two_pow_mul_add _ h2]
    by_cases h3 : i < lsb + w
    · have : i - lsb < w := by omega
      simp [this, h3, Nat.testBit_mod_two_pow]
    · have h4 : ¬ i - lsb < w := by omega
      simp only [h4, h3, if_false]
      rw [Nat.testBit_div_two_pow]
      congr 1; omega

theorem bitsOf_testBit (v lsb w i : Nat) : (bitsOf v lsb w).testBit i = (decide (i < w) && v.testBit (i + lsb)) := by
  unfold bitsOf
  rw [Nat.testBit_mod_two_pow, Nat.testBit_div_two_pow]

/-- A replaced field reads as what was put there. -/
theorem bitsOf_putBits_self (v lsb w f : Nat) : bitsOf (putBits v lsb w f) lsb w = f % 2 ^ w := by
  apply Nat.eq_of_testBit_eq
  intro i
  rw [bitsOf_testBit, putBits_testBit, Nat.testBit_mod_two_pow]
  by_cases h : i < w
  · have h1 : ¬ i + lsb < lsb := by omega
    have h2 : i + lsb < lsb + w := by omega
    simp [h, h1, h2]
  · simp [h]

/-- A field that does not meet the replaced one reads as before. -/
theorem bitsOf_putBits_ne (v lsb w f l' w' : Nat) (h : l' + w' ≤ lsb ∨ lsb + w ≤ l') :
    bitsOf (putBits v lsb w f) l' w' = bitsOf v l' w' := by
  apply Nat.eq_of_testBit_eq
  intro i
  rw [bitsOf_testBit, bitsOf_testBit, putBits_testBit]
  by_cases hi : i < w'
  · rcases h with h | h
    · have : i + l' < lsb := by omega
      simp [this]
    · have h1 : ¬ i + l' < lsb := by omega
      have h2 : ¬ i + l' < lsb + w := by omega
      simp [h1, h2]
  · simp [hi]

/-- Fields below bit 64 do not see a reduction to 64 bits. -/
theorem bitsOf_mod64 (v l w : Nat) (h : l + w ≤ 64) : bitsOf (v % 2 ^ 64) l w = bitsOf v l w := by
  apply Nat.eq_of_testBit_eq
  intro i
  rw [bitsOf_testBit, bitsOf_testBit, Nat.testBit_mod_two_pow]
  by_cases hi : i < w
  · have : i + l < 64 := by omega
    simp [this]
  · simp [hi]

end Sys2Proof.Machine
end

