-- ==== Sys2Proof/Laws/Tab.lean ====
section
/-! SUPPORT. Reading after writing a sparse table, and the canonical form that every table operation keeps. -/
namespace Sys2Proof.Machine

variable {α : Type}

theorem Tab.find_put_self (t : Tab α) (k : Nat) (v : α) : Tab.find (Tab.put t k v) k = some v := by
  induction t with
  | nil => simp [Tab.put, Tab.find]
  | cons p t ih =>
    obtain ⟨a, w⟩ := p
    simp only [Tab.put]
    split
    · simp [Tab.find]
    · split
      · simp [Tab.find]
      · simp [Tab.find, *]

theorem Tab.find_put_ne (t : Tab α) {k j : Nat} (v : α) (h : k ≠ j) : Tab.find (Tab.put t k v) j = Tab.find t j := by
  induction t with
  | nil => simp [Tab.put, Tab.find, h]
  | cons p t ih =>
    obtain ⟨a, w⟩ := p
    simp only [Tab.put]
    split
    · simp [Tab.find, h]
    · split
      · rename_i h2; subst h2; simp [Tab.find, h]
      · simp [Tab.find, ih]

theorem Tab.find_del_self (t : Tab α) (k : Nat) : Tab.find (Tab.del t k) k = none := by
  induction t with
  | nil => rfl
  | cons p t ih =>
    obtain ⟨a, w⟩ := p
    simp only [Tab.del]
    split
    · exact ih
    · simp [Tab.find, *]

theorem Tab.find_del_ne (t : Tab α) {k j : Nat} (h : k ≠ j) : Tab.find (Tab.del t k) j = Tab.find t j := by
  induction t with
  | nil => rfl
  | cons p t ih =>
    obtain ⟨a, w⟩ := p
    simp only [Tab.del]
    split
    · rename_i h2; subst h2; simp [Tab.find, h, ih]
    · simp [Tab.find, ih]

/-- What was written is read back. -/
theorem Tab.getD_setD_self [DecidableEq α] (d : Nat → α) (t : Tab α) (k : Nat) (v : α) :
    Tab.getD d (Tab.setD d t k v) k = v := by
  by_cases h : v = d k
  · simp [Tab.setD, Tab.getD, h, Tab.find_del_self]
  · simp [Tab.setD, Tab.getD, h, Tab.find_put_self]

/-- A write leaves every other key alone. -/
theorem Tab.getD_setD_ne [DecidableEq α] (d : Nat → α) (t : Tab α) {k j : Nat} (v : α) (h : k ≠ j) :
    Tab.getD d (Tab.setD d t k v) j = Tab.getD d t j := by
  by_cases hv : v = d k
  · simp [Tab.setD, Tab.getD, hv, Tab.find_del_ne t h]
  · simp [Tab.setD, Tab.getD, hv, Tab.find_put_ne t v h]

@[simp] theorem Tab.get_set_self [DecidableEq α] (d : α) (t : Tab α) (k : Nat) (v : α) :
    Tab.get d (Tab.set d t k v) k = v := Tab.getD_setD_self _ t k v

theorem Tab.get_set_ne [DecidableEq α] (d : α) (t : Tab α) {k j : Nat} (v : α) (h : k ≠ j) :
    Tab.get d (Tab.set d t k v) j = Tab.get d t j := Tab.getD_setD_ne _ t v h

/-- Both cases of a read after a write. -/
theorem Tab.get_set [DecidableEq α] (d : α) (t : Tab α) (k j : Nat) (v : α) :
    Tab.get d (Tab.set d t k v) j = if k = j then v else Tab.get d t j := by
  split
  · rename_i h; subst h; simp
  · exact Tab.get_set_ne d t v ‹_›

@[simp] theorem Tab.get_nil (d : α) (k : Nat) : Tab.get d [] k = d := rfl

/-! ### The canonical form -/

/-- The lower bound of a table's keys may be weakened. -/
theorem Tab.above_mono [DecidableEq α] {d : Nat → α} {t : Tab α} {x y : Nat} (h : x ≤ y)
    (ht : Tab.above d (some y) t = true) : Tab.above d (some x) t = true := by
  cases t with
  | nil => rfl
  | cons p t =>
    obtain ⟨a, w⟩ := p
    simp only [Tab.above, Bool.and_eq_true, decide_eq_true_eq] at *
    exact ⟨⟨by omega, ht.1.2⟩, ht.2⟩

theorem Tab.above_none [DecidableEq α] {d : Nat → α} {t : Tab α} {x : Nat} (ht : Tab.above d (some x) t = true) :
    Tab.above d none t = true := by
  cases t with
  | nil => rfl
  | cons p t =>
    obtain ⟨a, w⟩ := p
    simp only [Tab.above, Bool.and_eq_true, decide_eq_true_eq] at *
    exact ⟨⟨trivial, ht.1.2⟩, ht.2⟩

/-- Whether a key may stand above a bound. -/
def Tab.over : Option Nat → Nat → Prop
  | none, _ => True
  | some x, k => x < k

theorem Tab.above_put [DecidableEq α] {d : Nat → α} {k : Nat} {v : α} (hv : v ≠ d k) :
    ∀ {t : Tab α} {b : Option Nat}, Tab.over b k → Tab.above d b t = true → Tab.above d b (Tab.put t k v) = true
  | [], b, hb, _ => by
    cases b <;> simp_all [Tab.put, Tab.above, Tab.over]
  | (a, w) :: t, b, hb, ht => by
    simp only [Tab.above, Bool.and_eq_true] at ht
    simp only [Tab.put]
    split
    · cases b <;> simp_all [Tab.above, Tab.over]
    · split
      · rename_i h1 h2
        subst h2
        cases b <;> simp_all [Tab.above, Tab.over]
      · rename_i h1 h2
        have h3 : a < k := by omega
        have := Tab.above_put hv (t := t) (b := some a) h3 ht.2
        simp only [Tab.above, Bool.and_eq_true]
        exact ⟨ht.1, this⟩

theorem Tab.above_del [DecidableEq α] {d : Nat → α} {k : Nat} :
    ∀ {t : Tab α} {b : Option Nat}, Tab.above d b t = true → Tab.above d b (Tab.del t k) = true
  | [], b, _ => rfl
  | (a, w) :: t, b, ht => by
    simp only [Tab.above, Bool.and_eq_true] at ht
    simp only [Tab.del]
    split
    · have h := Tab.above_del (k := k) ht.2
      cases b with
      | none => exact Tab.above_none h
      | some x => exact Tab.above_mono (Nat.le_of_lt (by simpa using ht.1.1)) h
    · simp only [Tab.above, Bool.and_eq_true]
      exact ⟨ht.1, Tab.above_del ht.2⟩

/-- Every write keeps the canonical form. -/
theorem Tab.setD_wf [DecidableEq α] {d : Nat → α} {t : Tab α} (k : Nat) (v : α) (h : Tab.wf d t = true) :
    Tab.wf d (Tab.setD d t k v) = true := by
  unfold Tab.setD
  split
  · exact Tab.above_del h
  · rename_i hv; exact Tab.above_put hv trivial h

/-- Keeping only some entries keeps the canonical form. -/
theorem Tab.above_filter [DecidableEq α] {d : Nat → α} (p : Nat × α → Bool) :
    ∀ {t : Tab α} {b : Option Nat}, Tab.above d b t = true → Tab.above d b (t.filter p) = true
  | [], b, _ => rfl
  | (a, w) :: t, b, ht => by
    simp only [Tab.above, Bool.and_eq_true] at ht
    simp only [List.filter_cons]
    split
    · simp only [Tab.above, Bool.and_eq_true]
      exact ⟨ht.1, Tab.above_filter p ht.2⟩
    · have h := Tab.above_filter p ht.2
      cases b with
      | none => exact Tab.above_none h
      | some x => exact Tab.above_mono (Nat.le_of_lt (by simpa using ht.1.1)) h

theorem Tab.filter_wf [DecidableEq α] {d : Nat → α} (p : Nat × α → Bool) {t : Tab α} (h : Tab.wf d t = true) :
    Tab.wf d (t.filter p) = true := Tab.above_filter p h

end Sys2Proof.Machine
end

