-- ==== Sys2Proof/Laws/State.lean ====
section
/-! SUPPORT. What the named updates of the state do to each of its fields, and how a register field reads after a write. -/
namespace Sys2Proof.Machine

open Sys2Proof

/-! ### Register fields over the register space alone -/

/-- The value of a field in a register space. -/
def Regs.rd (r : Tab Word) (f : Fld) (i : Nat) : Nat := bitsOf (Tab.getD resetAt r (f.addr i)).toNat f.lsb f.width

/-- A register space with a field replaced. -/
def Regs.wr (r : Tab Word) (f : Fld) (i v : Nat) : Tab Word :=
  Tab.setD resetAt r (f.addr i)
    (BitVec.ofNat 64 (putBits (Tab.getD resetAt r (f.addr i)).toNat f.lsb f.width v))

theorem State.rd_eq (s : State) (f : Fld) (i : Nat) : s.rd f i = Regs.rd s.regs f i := rfl

theorem State.flag_eq (s : State) (f : Fld) (i : Nat) : s.flag f i = (Regs.rd s.regs f i != 0) := rfl

@[simp] theorem State.wr_regs (s : State) (f : Fld) (i v : Nat) : (s.wr f i v).regs = Regs.wr s.regs f i v := rfl

theorem Regs.rd_lt (r : Tab Word) (f : Fld) (i : Nat) : Regs.rd r f i < 2 ^ f.width := bitsOf_lt _ _ _

/-- A written field reads as the low bits of what was written. -/
theorem Regs.rd_wr_self (r : Tab Word) (f : Fld) (i v : Nat) (h : f.lsb + f.width ≤ 64) :
    Regs.rd (Regs.wr r f i v) f i = v % 2 ^ f.width := by
  unfold Regs.rd Regs.wr
  rw [Tab.getD_setD_self, BitVec.toNat_ofNat, bitsOf_mod64 _ _ _ h, bitsOf_putBits_self]

/-- A field of another register reads as before. -/
theorem Regs.rd_wr_addr (r : Tab Word) (f g : Fld) (i j v : Nat) (h : f.addr i ≠ g.addr j) :
    Regs.rd (Regs.wr r f i v) g j = Regs.rd r g j := by
  unfold Regs.rd Regs.wr
  rw [Tab.getD_setD_ne _ _ _ h]

/-- Another field of the same register reads as before. -/
theorem Regs.rd_wr_bits (r : Tab Word) (f g : Fld) (i j v : Nat)
    (h : g.lsb + g.width ≤ f.lsb ∨ f.lsb + f.width ≤ g.lsb) (hg : g.lsb + g.width ≤ 64) :
    Regs.rd (Regs.wr r f i v) g j = Regs.rd r g j := by
  by_cases ha : f.addr i = g.addr j
  · unfold Regs.rd Regs.wr
    rw [← ha, Tab.getD_setD_self, BitVec.toNat_ofNat, bitsOf_mod64 _ _ _ hg, bitsOf_putBits_ne _ _ _ _ _ _ h]
  · exact Regs.rd_wr_addr r f g i j v ha

theorem State.rd_wr_self (s : State) (f : Fld) (i v : Nat) (h : f.lsb + f.width ≤ 64) :
    (s.wr f i v).rd f i = v % 2 ^ f.width := Regs.rd_wr_self s.regs f i v h

theorem State.rd_wr_addr (s : State) (f g : Fld) (i j v : Nat) (h : f.addr i ≠ g.addr j) :
    (s.wr f i v).rd g j = s.rd g j := Regs.rd_wr_addr s.regs f g i j v h

theorem State.rd_wr_bits (s : State) (f g : Fld) (i j v : Nat)
    (h : g.lsb + g.width ≤ f.lsb ∨ f.lsb + f.width ≤ g.lsb) (hg : g.lsb + g.width ≤ 64) :
    (s.wr f i v).rd g j = s.rd g j := Regs.rd_wr_bits s.regs f g i j v h hg

/-- The word of a register after a write of a field of another. -/
theorem State.reg_wr_ne (s : State) (f : Fld) (i v off : Nat) (h : f.addr i ≠ off) : (s.wr f i v).reg off = s.reg off :=
  Tab.getD_setD_ne _ _ _ h

@[simp] theorem State.reg_setReg_self (s : State) (off : Nat) (v : Word) : (s.setReg off v).reg off = v :=
  Tab.getD_setD_self _ _ _ _

theorem State.reg_setReg_ne (s : State) {off a : Nat} (v : Word) (h : off ≠ a) : (s.setReg off v).reg a = s.reg a :=
  Tab.getD_setD_ne _ _ _ h

/-- A list of fields written: the first alone, then the rest. -/
@[simp] theorem State.wrs_nil (s : State) (i : Nat) : s.wrs i [] = s := rfl

@[simp] theorem State.wrs_cons (s : State) (i : Nat) (p : Fld × Nat) (l : List (Fld × Nat)) :
    s.wrs i (p :: l) = (s.wr p.1 i p.2).wrs i l := rfl

/-! ### Fields of the state under the named updates -/

@[simp] theorem State.setReg_mem (s : State) (off : Nat) (v : Word) : (s.setReg off v).mem = s.mem := rfl
@[simp] theorem State.setReg_dram (s : State) (off : Nat) (v : Word) : (s.setReg off v).dram = s.dram := rfl
@[simp] theorem State.setReg_ports (s : State) (off : Nat) (v : Word) : (s.setReg off v).ports = s.ports := rfl
@[simp] theorem State.setReg_queues (s : State) (off : Nat) (v : Word) : (s.setReg off v).queues = s.queues := rfl
@[simp] theorem State.setReg_tiles (s : State) (off : Nat) (v : Word) : (s.setReg off v).tiles = s.tiles := rfl
@[simp] theorem State.setReg_waits (s : State) (off : Nat) (v : Word) : (s.setReg off v).waits = s.waits := rfl
@[simp] theorem State.setReg_rings (s : State) (off : Nat) (v : Word) : (s.setReg off v).rings = s.rings := rfl
@[simp] theorem State.setReg_ckpEarly (s : State) (off : Nat) (v : Word) : (s.setReg off v).ckpEarly = s.ckpEarly := rfl
@[simp] theorem State.setReg_twin (s : State) (off : Nat) (v : Word) : (s.setReg off v).twin = s.twin := rfl
@[simp] theorem State.setReg_sec (s : State) (off : Nat) (v : Word) : (s.setReg off v).sec = s.sec := rfl
@[simp] theorem State.setReg_overflow (s : State) (off : Nat) (v : Word) : (s.setReg off v).overflow = s.overflow := rfl
@[simp] theorem State.setReg_evr (s : State) (off : Nat) (v : Word) : (s.setReg off v).evr = s.evr := rfl
@[simp] theorem State.setReg_shrunk (s : State) (off : Nat) (v : Word) : (s.setReg off v).shrunk = s.shrunk := rfl
@[simp] theorem State.setReg_streams (s : State) (off : Nat) (v : Word) : (s.setReg off v).streams = s.streams := rfl
@[simp] theorem State.setReg_attends (s : State) (off : Nat) (v : Word) : (s.setReg off v).attends = s.attends := rfl
@[simp] theorem State.setReg_picked (s : State) (off : Nat) (v : Word) : (s.setReg off v).picked = s.picked := rfl
@[simp] theorem State.setReg_ustLinks (s : State) (off : Nat) (v : Word) : (s.setReg off v).ustLinks = s.ustLinks := rfl
@[simp] theorem State.setReg_ustGroups (s : State) (off : Nat) (v : Word) : (s.setReg off v).ustGroups = s.ustGroups := rfl
@[simp] theorem State.setReg_peers (s : State) (off : Nat) (v : Word) : (s.setReg off v).peers = s.peers := rfl
@[simp] theorem State.setReg_fab (s : State) (off : Nat) (v : Word) : (s.setReg off v).fab = s.fab := rfl
@[simp] theorem State.setReg_sched (s : State) (off : Nat) (v : Word) : (s.setReg off v).sched = s.sched := rfl
@[simp] theorem State.setReg_ended (s : State) (off : Nat) (v : Word) : (s.setReg off v).ended = s.ended := rfl
@[simp] theorem State.setReg_stq (s : State) (off : Nat) (v : Word) : (s.setReg off v).stq = s.stq := rfl
@[simp] theorem State.setReg_fw (s : State) (off : Nat) (v : Word) : (s.setReg off v).fw = s.fw := rfl
@[simp] theorem State.setReg_boot (s : State) (off : Nat) (v : Word) : (s.setReg off v).boot = s.boot := rfl
@[simp] theorem State.setReg_pins (s : State) (off : Nat) (v : Word) : (s.setReg off v).pins = s.pins := rfl
@[simp] theorem State.setReg_cpu (s : State) (off : Nat) (v : Word) : (s.setReg off v).cpu = s.cpu := rfl
@[simp] theorem State.setReg_pwr (s : State) (off : Nat) (v : Word) : (s.setReg off v).pwr = s.pwr := rfl
@[simp] theorem State.setReg_tlm (s : State) (off : Nat) (v : Word) : (s.setReg off v).tlm = s.tlm := rfl
@[simp] theorem State.setReg_events (s : State) (off : Nat) (v : Word) : (s.setReg off v).events = s.events := rfl
@[simp] theorem State.setReg_lastEvent (s : State) (off : Nat) (v : Word) : (s.setReg off v).lastEvent = s.lastEvent := rfl
@[simp] theorem State.setReg_out (s : State) (off : Nat) (v : Word) : (s.setReg off v).out = s.out := rfl
@[simp] theorem State.setReg_fresh (s : State) (off : Nat) (v : Word) : (s.setReg off v).fresh = s.fresh := rfl
@[simp] theorem State.setReg_pending (s : State) (off : Nat) (v : Word) : (s.setReg off v).pending = s.pending := rfl

@[simp] theorem State.wr_mem (s : State) (f : Fld) (i v : Nat) : (s.wr f i v).mem = s.mem := rfl
@[simp] theorem State.wr_dram (s : State) (f : Fld) (i v : Nat) : (s.wr f i v).dram = s.dram := rfl
@[simp] theorem State.wr_ports (s : State) (f : Fld) (i v : Nat) : (s.wr f i v).ports = s.ports := rfl
@[simp] theorem State.wr_queues (s : State) (f : Fld) (i v : Nat) : (s.wr f i v).queues = s.queues := rfl
@[simp] theorem State.wr_tiles (s : State) (f : Fld) (i v : Nat) : (s.wr f i v).tiles = s.tiles := rfl
@[simp] theorem State.wr_waits (s : State) (f : Fld) (i v : Nat) : (s.wr f i v).waits = s.waits := rfl
@[simp] theorem State.wr_rings (s : State) (f : Fld) (i v : Nat) : (s.wr f i v).rings = s.rings := rfl
@[simp] theorem State.wr_ckpEarly (s : State) (f : Fld) (i v : Nat) : (s.wr f i v).ckpEarly = s.ckpEarly := rfl
@[simp] theorem State.wr_twin (s : State) (f : Fld) (i v : Nat) : (s.wr f i v).twin = s.twin := rfl
@[simp] theorem State.wr_sec (s : State) (f : Fld) (i v : Nat) : (s.wr f i v).sec = s.sec := rfl
@[simp] theorem State.wr_overflow (s : State) (f : Fld) (i v : Nat) : (s.wr f i v).overflow = s.overflow := rfl
@[simp] theorem State.wr_evr (s : State) (f : Fld) (i v : Nat) : (s.wr f i v).evr = s.evr := rfl
@[simp] theorem State.wr_shrunk (s : State) (f : Fld) (i v : Nat) : (s.wr f i v).shrunk = s.shrunk := rfl
@[simp] theorem State.wr_streams (s : State) (f : Fld) (i v : Nat) : (s.wr f i v).streams = s.streams := rfl
@[simp] theorem State.wr_attends (s : State) (f : Fld) (i v : Nat) : (s.wr f i v).attends = s.attends := rfl
@[simp] theorem State.wr_picked (s : State) (f : Fld) (i v : Nat) : (s.wr f i v).picked = s.picked := rfl
@[simp] theorem State.wr_ustLinks (s : State) (f : Fld) (i v : Nat) : (s.wr f i v).ustLinks = s.ustLinks := rfl
@[simp] theorem State.wr_ustGroups (s : State) (f : Fld) (i v : Nat) : (s.wr f i v).ustGroups = s.ustGroups := rfl
@[simp] theorem State.wr_peers (s : State) (f : Fld) (i v : Nat) : (s.wr f i v).peers = s.peers := rfl
@[simp] theorem State.wr_fab (s : State) (f : Fld) (i v : Nat) : (s.wr f i v).fab = s.fab := rfl
@[simp] theorem State.wr_sched (s : State) (f : Fld) (i v : Nat) : (s.wr f i v).sched = s.sched := rfl
@[simp] theorem State.wr_ended (s : State) (f : Fld) (i v : Nat) : (s.wr f i v).ended = s.ended := rfl
@[simp] theorem State.wr_stq (s : State) (f : Fld) (i v : Nat) : (s.wr f i v).stq = s.stq := rfl
@[simp] theorem State.wr_fw (s : State) (f : Fld) (i v : Nat) : (s.wr f i v).fw = s.fw := rfl
@[simp] theorem State.wr_boot (s : State) (f : Fld) (i v : Nat) : (s.wr f i v).boot = s.boot := rfl
@[simp] theorem State.wr_pins (s : State) (f : Fld) (i v : Nat) : (s.wr f i v).pins = s.pins := rfl
@[simp] theorem State.wr_cpu (s : State) (f : Fld) (i v : Nat) : (s.wr f i v).cpu = s.cpu := rfl
@[simp] theorem State.wr_pwr (s : State) (f : Fld) (i v : Nat) : (s.wr f i v).pwr = s.pwr := rfl
@[simp] theorem State.wr_tlm (s : State) (f : Fld) (i v : Nat) : (s.wr f i v).tlm = s.tlm := rfl
@[simp] theorem State.wr_events (s : State) (f : Fld) (i v : Nat) : (s.wr f i v).events = s.events := rfl
@[simp] theorem State.wr_lastEvent (s : State) (f : Fld) (i v : Nat) : (s.wr f i v).lastEvent = s.lastEvent := rfl
@[simp] theorem State.wr_out (s : State) (f : Fld) (i v : Nat) : (s.wr f i v).out = s.out := rfl
@[simp] theorem State.wr_fresh (s : State) (f : Fld) (i v : Nat) : (s.wr f i v).fresh = s.fresh := rfl
@[simp] theorem State.wr_pending (s : State) (f : Fld) (i v : Nat) : (s.wr f i v).pending = s.pending := rfl

@[simp] theorem State.resetReg_mem (s : State) (f : Fld) (i : Nat) : (s.resetReg f i).mem = s.mem := rfl
@[simp] theorem State.resetReg_dram (s : State) (f : Fld) (i : Nat) : (s.resetReg f i).dram = s.dram := rfl
@[simp] theorem State.resetReg_ports (s : State) (f : Fld) (i : Nat) : (s.resetReg f i).ports = s.ports := rfl
@[simp] theorem State.resetReg_queues (s : State) (f : Fld) (i : Nat) : (s.resetReg f i).queues = s.queues := rfl
@[simp] theorem State.resetReg_tiles (s : State) (f : Fld) (i : Nat) : (s.resetReg f i).tiles = s.tiles := rfl
@[simp] theorem State.resetReg_waits (s : State) (f : Fld) (i : Nat) : (s.resetReg f i).waits = s.waits := rfl
@[simp] theorem State.resetReg_rings (s : State) (f : Fld) (i : Nat) : (s.resetReg f i).rings = s.rings := rfl
@[simp] theorem State.resetReg_ckpEarly (s : State) (f : Fld) (i : Nat) : (s.resetReg f i).ckpEarly = s.ckpEarly := rfl
@[simp] theorem State.resetReg_twin (s : State) (f : Fld) (i : Nat) : (s.resetReg f i).twin = s.twin := rfl
@[simp] theorem State.resetReg_sec (s : State) (f : Fld) (i : Nat) : (s.resetReg f i).sec = s.sec := rfl
@[simp] theorem State.resetReg_overflow (s : State) (f : Fld) (i : Nat) : (s.resetReg f i).overflow = s.overflow := rfl
@[simp] theorem State.resetReg_evr (s : State) (f : Fld) (i : Nat) : (s.resetReg f i).evr = s.evr := rfl
@[simp] theorem State.resetReg_shrunk (s : State) (f : Fld) (i : Nat) : (s.resetReg f i).shrunk = s.shrunk := rfl
@[simp] theorem State.resetReg_streams (s : State) (f : Fld) (i : Nat) : (s.resetReg f i).streams = s.streams := rfl
@[simp] theorem State.resetReg_attends (s : State) (f : Fld) (i : Nat) : (s.resetReg f i).attends = s.attends := rfl
@[simp] theorem State.resetReg_picked (s : State) (f : Fld) (i : Nat) : (s.resetReg f i).picked = s.picked := rfl
@[simp] theorem State.resetReg_ustLinks (s : State) (f : Fld) (i : Nat) : (s.resetReg f i).ustLinks = s.ustLinks := rfl
@[simp] theorem State.resetReg_ustGroups (s : State) (f : Fld) (i : Nat) : (s.resetReg f i).ustGroups = s.ustGroups := rfl
@[simp] theorem State.resetReg_peers (s : State) (f : Fld) (i : Nat) : (s.resetReg f i).peers = s.peers := rfl
@[simp] theorem State.resetReg_fab (s : State) (f : Fld) (i : Nat) : (s.resetReg f i).fab = s.fab := rfl
@[simp] theorem State.resetReg_sched (s : State) (f : Fld) (i : Nat) : (s.resetReg f i).sched = s.sched := rfl
@[simp] theorem State.resetReg_ended (s : State) (f : Fld) (i : Nat) : (s.resetReg f i).ended = s.ended := rfl
@[simp] theorem State.resetReg_stq (s : State) (f : Fld) (i : Nat) : (s.resetReg f i).stq = s.stq := rfl
@[simp] theorem State.resetReg_fw (s : State) (f : Fld) (i : Nat) : (s.resetReg f i).fw = s.fw := rfl
@[simp] theorem State.resetReg_boot (s : State) (f : Fld) (i : Nat) : (s.resetReg f i).boot = s.boot := rfl
@[simp] theorem State.resetReg_pins (s : State) (f : Fld) (i : Nat) : (s.resetReg f i).pins = s.pins := rfl
@[simp] theorem State.resetReg_cpu (s : State) (f : Fld) (i : Nat) : (s.resetReg f i).cpu = s.cpu := rfl
@[simp] theorem State.resetReg_pwr (s : State) (f : Fld) (i : Nat) : (s.resetReg f i).pwr = s.pwr := rfl
@[simp] theorem State.resetReg_tlm (s : State) (f : Fld) (i : Nat) : (s.resetReg f i).tlm = s.tlm := rfl
@[simp] theorem State.resetReg_events (s : State) (f : Fld) (i : Nat) : (s.resetReg f i).events = s.events := rfl
@[simp] theorem State.resetReg_lastEvent (s : State) (f : Fld) (i : Nat) : (s.resetReg f i).lastEvent = s.lastEvent := rfl
@[simp] theorem State.resetReg_out (s : State) (f : Fld) (i : Nat) : (s.resetReg f i).out = s.out := rfl
@[simp] theorem State.resetReg_fresh (s : State) (f : Fld) (i : Nat) : (s.resetReg f i).fresh = s.fresh := rfl
@[simp] theorem State.resetReg_pending (s : State) (f : Fld) (i : Nat) : (s.resetReg f i).pending = s.pending := rfl

@[simp] theorem State.resetRegsBut_mem (s : State) (keep : Nat → Bool) : (s.resetRegsBut keep).mem = s.mem := rfl
@[simp] theorem State.resetRegsBut_dram (s : State) (keep : Nat → Bool) : (s.resetRegsBut keep).dram = s.dram := rfl
@[simp] theorem State.resetRegsBut_ports (s : State) (keep : Nat → Bool) : (s.resetRegsBut keep).ports = s.ports := rfl
@[simp] theorem State.resetRegsBut_queues (s : State) (keep : Nat → Bool) : (s.resetRegsBut keep).queues = s.queues := rfl
@[simp] theorem State.resetRegsBut_tiles (s : State) (keep : Nat → Bool) : (s.resetRegsBut keep).tiles = s.tiles := rfl
@[simp] theorem State.resetRegsBut_waits (s : State) (keep : Nat → Bool) : (s.resetRegsBut keep).waits = s.waits := rfl
@[simp] theorem State.resetRegsBut_rings (s : State) (keep : Nat → Bool) : (s.resetRegsBut keep).rings = s.rings := rfl
@[simp] theorem State.resetRegsBut_ckpEarly (s : State) (keep : Nat → Bool) : (s.resetRegsBut keep).ckpEarly = s.ckpEarly := rfl
@[simp] theorem State.resetRegsBut_twin (s : State) (keep : Nat → Bool) : (s.resetRegsBut keep).twin = s.twin := rfl
@[simp] theorem State.resetRegsBut_sec (s : State) (keep : Nat → Bool) : (s.resetRegsBut keep).sec = s.sec := rfl
@[simp] theorem State.resetRegsBut_overflow (s : State) (keep : Nat → Bool) : (s.resetRegsBut keep).overflow = s.overflow := rfl
@[simp] theorem State.resetRegsBut_evr (s : State) (keep : Nat → Bool) : (s.resetRegsBut keep).evr = s.evr := rfl
@[simp] theorem State.resetRegsBut_shrunk (s : State) (keep : Nat → Bool) : (s.resetRegsBut keep).shrunk = s.shrunk := rfl
@[simp] theorem State.resetRegsBut_streams (s : State) (keep : Nat → Bool) : (s.resetRegsBut keep).streams = s.streams := rfl
@[simp] theorem State.resetRegsBut_attends (s : State) (keep : Nat → Bool) : (s.resetRegsBut keep).attends = s.attends := rfl
@[simp] theorem State.resetRegsBut_picked (s : State) (keep : Nat → Bool) : (s.resetRegsBut keep).picked = s.picked := rfl
@[simp] theorem State.resetRegsBut_ustLinks (s : State) (keep : Nat → Bool) : (s.resetRegsBut keep).ustLinks = s.ustLinks := rfl
@[simp] theorem State.resetRegsBut_ustGroups (s : State) (keep : Nat → Bool) : (s.resetRegsBut keep).ustGroups = s.ustGroups := rfl
@[simp] theorem State.resetRegsBut_peers (s : State) (keep : Nat → Bool) : (s.resetRegsBut keep).peers = s.peers := rfl
@[simp] theorem State.resetRegsBut_fab (s : State) (keep : Nat → Bool) : (s.resetRegsBut keep).fab = s.fab := rfl
@[simp] theorem State.resetRegsBut_sched (s : State) (keep : Nat → Bool) : (s.resetRegsBut keep).sched = s.sched := rfl
@[simp] theorem State.resetRegsBut_ended (s : State) (keep : Nat → Bool) : (s.resetRegsBut keep).ended = s.ended := rfl
@[simp] theorem State.resetRegsBut_stq (s : State) (keep : Nat → Bool) : (s.resetRegsBut keep).stq = s.stq := rfl
@[simp] theorem State.resetRegsBut_fw (s : State) (keep : Nat → Bool) : (s.resetRegsBut keep).fw = s.fw := rfl
@[simp] theorem State.resetRegsBut_boot (s : State) (keep : Nat → Bool) : (s.resetRegsBut keep).boot = s.boot := rfl
@[simp] theorem State.resetRegsBut_pins (s : State) (keep : Nat → Bool) : (s.resetRegsBut keep).pins = s.pins := rfl
@[simp] theorem State.resetRegsBut_cpu (s : State) (keep : Nat → Bool) : (s.resetRegsBut keep).cpu = s.cpu := rfl
@[simp] theorem State.resetRegsBut_pwr (s : State) (keep : Nat → Bool) : (s.resetRegsBut keep).pwr = s.pwr := rfl
@[simp] theorem State.resetRegsBut_tlm (s : State) (keep : Nat → Bool) : (s.resetRegsBut keep).tlm = s.tlm := rfl
@[simp] theorem State.resetRegsBut_events (s : State) (keep : Nat → Bool) : (s.resetRegsBut keep).events = s.events := rfl
@[simp] theorem State.resetRegsBut_lastEvent (s : State) (keep : Nat → Bool) : (s.resetRegsBut keep).lastEvent = s.lastEvent := rfl
@[simp] theorem State.resetRegsBut_out (s : State) (keep : Nat → Bool) : (s.resetRegsBut keep).out = s.out := rfl
@[simp] theorem State.resetRegsBut_fresh (s : State) (keep : Nat → Bool) : (s.resetRegsBut keep).fresh = s.fresh := rfl
@[simp] theorem State.resetRegsBut_pending (s : State) (keep : Nat → Bool) : (s.resetRegsBut keep).pending = s.pending := rfl

@[simp] theorem State.setByte_regs (s : State) (a : Nat) (b : Byte) : (s.setByte a b).regs = s.regs := rfl
@[simp] theorem State.setByte_dram (s : State) (a : Nat) (b : Byte) : (s.setByte a b).dram = s.dram := rfl
@[simp] theorem State.setByte_ports (s : State) (a : Nat) (b : Byte) : (s.setByte a b).ports = s.ports := rfl
@[simp] theorem State.setByte_queues (s : State) (a : Nat) (b : Byte) : (s.setByte a b).queues = s.queues := rfl
@[simp] theorem State.setByte_tiles (s : State) (a : Nat) (b : Byte) : (s.setByte a b).tiles = s.tiles := rfl
@[simp] theorem State.setByte_waits (s : State) (a : Nat) (b : Byte) : (s.setByte a b).waits = s.waits := rfl
@[simp] theorem State.setByte_rings (s : State) (a : Nat) (b : Byte) : (s.setByte a b).rings = s.rings := rfl
@[simp] theorem State.setByte_ckpEarly (s : State) (a : Nat) (b : Byte) : (s.setByte a b).ckpEarly = s.ckpEarly := rfl
@[simp] theorem State.setByte_twin (s : State) (a : Nat) (b : Byte) : (s.setByte a b).twin = s.twin := rfl
@[simp] theorem State.setByte_sec (s : State) (a : Nat) (b : Byte) : (s.setByte a b).sec = s.sec := rfl
@[simp] theorem State.setByte_overflow (s : State) (a : Nat) (b : Byte) : (s.setByte a b).overflow = s.overflow := rfl
@[simp] theorem State.setByte_evr (s : State) (a : Nat) (b : Byte) : (s.setByte a b).evr = s.evr := rfl
@[simp] theorem State.setByte_shrunk (s : State) (a : Nat) (b : Byte) : (s.setByte a b).shrunk = s.shrunk := rfl
@[simp] theorem State.setByte_streams (s : State) (a : Nat) (b : Byte) : (s.setByte a b).streams = s.streams := rfl
@[simp] theorem State.setByte_attends (s : State) (a : Nat) (b : Byte) : (s.setByte a b).attends = s.attends := rfl
@[simp] theorem State.setByte_picked (s : State) (a : Nat) (b : Byte) : (s.setByte a b).picked = s.picked := rfl
@[simp] theorem State.setByte_ustLinks (s : State) (a : Nat) (b : Byte) : (s.setByte a b).ustLinks = s.ustLinks := rfl
@[simp] theorem State.setByte_ustGroups (s : State) (a : Nat) (b : Byte) : (s.setByte a b).ustGroups = s.ustGroups := rfl
@[simp] theorem State.setByte_peers (s : State) (a : Nat) (b : Byte) : (s.setByte a b).peers = s.peers := rfl
@[simp] theorem State.setByte_fab (s : State) (a : Nat) (b : Byte) : (s.setByte a b).fab = s.fab := rfl
@[simp] theorem State.setByte_sched (s : State) (a : Nat) (b : Byte) : (s.setByte a b).sched = s.sched := rfl
@[simp] theorem State.setByte_ended (s : State) (a : Nat) (b : Byte) : (s.setByte a b).ended = s.ended := rfl
@[simp] theorem State.setByte_stq (s : State) (a : Nat) (b : Byte) : (s.setByte a b).stq = s.stq := rfl
@[simp] theorem State.setByte_fw (s : State) (a : Nat) (b : Byte) : (s.setByte a b).fw = s.fw := rfl
@[simp] theorem State.setByte_boot (s : State) (a : Nat) (b : Byte) : (s.setByte a b).boot = s.boot := rfl
@[simp] theorem State.setByte_pins (s : State) (a : Nat) (b : Byte) : (s.setByte a b).pins = s.pins := rfl
@[simp] theorem State.setByte_cpu (s : State) (a : Nat) (b : Byte) : (s.setByte a b).cpu = s.cpu := rfl
@[simp] theorem State.setByte_pwr (s : State) (a : Nat) (b : Byte) : (s.setByte a b).pwr = s.pwr := rfl
@[simp] theorem State.setByte_tlm (s : State) (a : Nat) (b : Byte) : (s.setByte a b).tlm = s.tlm := rfl
@[simp] theorem State.setByte_events (s : State) (a : Nat) (b : Byte) : (s.setByte a b).events = s.events := rfl
@[simp] theorem State.setByte_lastEvent (s : State) (a : Nat) (b : Byte) : (s.setByte a b).lastEvent = s.lastEvent := rfl
@[simp] theorem State.setByte_out (s : State) (a : Nat) (b : Byte) : (s.setByte a b).out = s.out := rfl
@[simp] theorem State.setByte_fresh (s : State) (a : Nat) (b : Byte) : (s.setByte a b).fresh = s.fresh := rfl
@[simp] theorem State.setByte_pending (s : State) (a : Nat) (b : Byte) : (s.setByte a b).pending = s.pending := rfl

@[simp] theorem State.store_regs (s : State) (a : Nat) (l : List Byte) : (s.store a l).regs = s.regs := rfl
@[simp] theorem State.store_dram (s : State) (a : Nat) (l : List Byte) : (s.store a l).dram = s.dram := rfl
@[simp] theorem State.store_ports (s : State) (a : Nat) (l : List Byte) : (s.store a l).ports = s.ports := rfl
@[simp] theorem State.store_queues (s : State) (a : Nat) (l : List Byte) : (s.store a l).queues = s.queues := rfl
@[simp] theorem State.store_tiles (s : State) (a : Nat) (l : List Byte) : (s.store a l).tiles = s.tiles := rfl
@[simp] theorem State.store_waits (s : State) (a : Nat) (l : List Byte) : (s.store a l).waits = s.waits := rfl
@[simp] theorem State.store_rings (s : State) (a : Nat) (l : List Byte) : (s.store a l).rings = s.rings := rfl
@[simp] theorem State.store_ckpEarly (s : State) (a : Nat) (l : List Byte) : (s.store a l).ckpEarly = s.ckpEarly := rfl
@[simp] theorem State.store_twin (s : State) (a : Nat) (l : List Byte) : (s.store a l).twin = s.twin := rfl
@[simp] theorem State.store_sec (s : State) (a : Nat) (l : List Byte) : (s.store a l).sec = s.sec := rfl
@[simp] theorem State.store_overflow (s : State) (a : Nat) (l : List Byte) : (s.store a l).overflow = s.overflow := rfl
@[simp] theorem State.store_evr (s : State) (a : Nat) (l : List Byte) : (s.store a l).evr = s.evr := rfl
@[simp] theorem State.store_shrunk (s : State) (a : Nat) (l : List Byte) : (s.store a l).shrunk = s.shrunk := rfl
@[simp] theorem State.store_streams (s : State) (a : Nat) (l : List Byte) : (s.store a l).streams = s.streams := rfl
@[simp] theorem State.store_attends (s : State) (a : Nat) (l : List Byte) : (s.store a l).attends = s.attends := rfl
@[simp] theorem State.store_picked (s : State) (a : Nat) (l : List Byte) : (s.store a l).picked = s.picked := rfl
@[simp] theorem State.store_ustLinks (s : State) (a : Nat) (l : List Byte) : (s.store a l).ustLinks = s.ustLinks := rfl
@[simp] theorem State.store_ustGroups (s : State) (a : Nat) (l : List Byte) : (s.store a l).ustGroups = s.ustGroups := rfl
@[simp] theorem State.store_peers (s : State) (a : Nat) (l : List Byte) : (s.store a l).peers = s.peers := rfl
@[simp] theorem State.store_fab (s : State) (a : Nat) (l : List Byte) : (s.store a l).fab = s.fab := rfl
@[simp] theorem State.store_sched (s : State) (a : Nat) (l : List Byte) : (s.store a l).sched = s.sched := rfl
@[simp] theorem State.store_ended (s : State) (a : Nat) (l : List Byte) : (s.store a l).ended = s.ended := rfl
@[simp] theorem State.store_stq (s : State) (a : Nat) (l : List Byte) : (s.store a l).stq = s.stq := rfl
@[simp] theorem State.store_fw (s : State) (a : Nat) (l : List Byte) : (s.store a l).fw = s.fw := rfl
@[simp] theorem State.store_boot (s : State) (a : Nat) (l : List Byte) : (s.store a l).boot = s.boot := rfl
@[simp] theorem State.store_pins (s : State) (a : Nat) (l : List Byte) : (s.store a l).pins = s.pins := rfl
@[simp] theorem State.store_cpu (s : State) (a : Nat) (l : List Byte) : (s.store a l).cpu = s.cpu := rfl
@[simp] theorem State.store_pwr (s : State) (a : Nat) (l : List Byte) : (s.store a l).pwr = s.pwr := rfl
@[simp] theorem State.store_tlm (s : State) (a : Nat) (l : List Byte) : (s.store a l).tlm = s.tlm := rfl
@[simp] theorem State.store_events (s : State) (a : Nat) (l : List Byte) : (s.store a l).events = s.events := rfl
@[simp] theorem State.store_lastEvent (s : State) (a : Nat) (l : List Byte) : (s.store a l).lastEvent = s.lastEvent := rfl
@[simp] theorem State.store_out (s : State) (a : Nat) (l : List Byte) : (s.store a l).out = s.out := rfl
@[simp] theorem State.store_fresh (s : State) (a : Nat) (l : List Byte) : (s.store a l).fresh = s.fresh := rfl
@[simp] theorem State.store_pending (s : State) (a : Nat) (l : List Byte) : (s.store a l).pending = s.pending := rfl

@[simp] theorem State.emit_regs (s : State) (o : Output) : (s.emit o).regs = s.regs := rfl
@[simp] theorem State.emit_mem (s : State) (o : Output) : (s.emit o).mem = s.mem := rfl
@[simp] theorem State.emit_dram (s : State) (o : Output) : (s.emit o).dram = s.dram := rfl
@[simp] theorem State.emit_ports (s : State) (o : Output) : (s.emit o).ports = s.ports := rfl
@[simp] theorem State.emit_queues (s : State) (o : Output) : (s.emit o).queues = s.queues := rfl
@[simp] theorem State.emit_tiles (s : State) (o : Output) : (s.emit o).tiles = s.tiles := rfl
@[simp] theorem State.emit_waits (s : State) (o : Output) : (s.emit o).waits = s.waits := rfl
@[simp] theorem State.emit_rings (s : State) (o : Output) : (s.emit o).rings = s.rings := rfl
@[simp] theorem State.emit_ckpEarly (s : State) (o : Output) : (s.emit o).ckpEarly = s.ckpEarly := rfl
@[simp] theorem State.emit_twin (s : State) (o : Output) : (s.emit o).twin = s.twin := rfl
@[simp] theorem State.emit_sec (s : State) (o : Output) : (s.emit o).sec = s.sec := rfl
@[simp] theorem State.emit_overflow (s : State) (o : Output) : (s.emit o).overflow = s.overflow := rfl
@[simp] theorem State.emit_evr (s : State) (o : Output) : (s.emit o).evr = s.evr := rfl
@[simp] theorem State.emit_shrunk (s : State) (o : Output) : (s.emit o).shrunk = s.shrunk := rfl
@[simp] theorem State.emit_streams (s : State) (o : Output) : (s.emit o).streams = s.streams := rfl
@[simp] theorem State.emit_attends (s : State) (o : Output) : (s.emit o).attends = s.attends := rfl
@[simp] theorem State.emit_picked (s : State) (o : Output) : (s.emit o).picked = s.picked := rfl
@[simp] theorem State.emit_ustLinks (s : State) (o : Output) : (s.emit o).ustLinks = s.ustLinks := rfl
@[simp] theorem State.emit_ustGroups (s : State) (o : Output) : (s.emit o).ustGroups = s.ustGroups := rfl
@[simp] theorem State.emit_peers (s : State) (o : Output) : (s.emit o).peers = s.peers := rfl
@[simp] theorem State.emit_fab (s : State) (o : Output) : (s.emit o).fab = s.fab := rfl
@[simp] theorem State.emit_sched (s : State) (o : Output) : (s.emit o).sched = s.sched := rfl
@[simp] theorem State.emit_ended (s : State) (o : Output) : (s.emit o).ended = s.ended := rfl
@[simp] theorem State.emit_stq (s : State) (o : Output) : (s.emit o).stq = s.stq := rfl
@[simp] theorem State.emit_fw (s : State) (o : Output) : (s.emit o).fw = s.fw := rfl
@[simp] theorem State.emit_boot (s : State) (o : Output) : (s.emit o).boot = s.boot := rfl
@[simp] theorem State.emit_pins (s : State) (o : Output) : (s.emit o).pins = s.pins := rfl
@[simp] theorem State.emit_cpu (s : State) (o : Output) : (s.emit o).cpu = s.cpu := rfl
@[simp] theorem State.emit_pwr (s : State) (o : Output) : (s.emit o).pwr = s.pwr := rfl
@[simp] theorem State.emit_tlm (s : State) (o : Output) : (s.emit o).tlm = s.tlm := rfl
@[simp] theorem State.emit_events (s : State) (o : Output) : (s.emit o).events = s.events := rfl
@[simp] theorem State.emit_lastEvent (s : State) (o : Output) : (s.emit o).lastEvent = s.lastEvent := rfl
@[simp] theorem State.emit_fresh (s : State) (o : Output) : (s.emit o).fresh = s.fresh := rfl
@[simp] theorem State.emit_pending (s : State) (o : Output) : (s.emit o).pending = s.pending := rfl

@[simp] theorem State.noteRaised_regs (s : State) (k : Nat) : (s.noteRaised k).regs = s.regs := rfl
@[simp] theorem State.noteRaised_mem (s : State) (k : Nat) : (s.noteRaised k).mem = s.mem := rfl
@[simp] theorem State.noteRaised_dram (s : State) (k : Nat) : (s.noteRaised k).dram = s.dram := rfl
@[simp] theorem State.noteRaised_ports (s : State) (k : Nat) : (s.noteRaised k).ports = s.ports := rfl
@[simp] theorem State.noteRaised_queues (s : State) (k : Nat) : (s.noteRaised k).queues = s.queues := rfl
@[simp] theorem State.noteRaised_tiles (s : State) (k : Nat) : (s.noteRaised k).tiles = s.tiles := rfl
@[simp] theorem State.noteRaised_waits (s : State) (k : Nat) : (s.noteRaised k).waits = s.waits := rfl
@[simp] theorem State.noteRaised_rings (s : State) (k : Nat) : (s.noteRaised k).rings = s.rings := rfl
@[simp] theorem State.noteRaised_ckpEarly (s : State) (k : Nat) : (s.noteRaised k).ckpEarly = s.ckpEarly := rfl
@[simp] theorem State.noteRaised_twin (s : State) (k : Nat) : (s.noteRaised k).twin = s.twin := rfl
@[simp] theorem State.noteRaised_sec (s : State) (k : Nat) : (s.noteRaised k).sec = s.sec := rfl
@[simp] theorem State.noteRaised_overflow (s : State) (k : Nat) : (s.noteRaised k).overflow = s.overflow := rfl
@[simp] theorem State.noteRaised_evr (s : State) (k : Nat) : (s.noteRaised k).evr = s.evr := rfl
@[simp] theorem State.noteRaised_shrunk (s : State) (k : Nat) : (s.noteRaised k).shrunk = s.shrunk := rfl
@[simp] theorem State.noteRaised_streams (s : State) (k : Nat) : (s.noteRaised k).streams = s.streams := rfl
@[simp] theorem State.noteRaised_attends (s : State) (k : Nat) : (s.noteRaised k).attends = s.attends := rfl
@[simp] theorem State.noteRaised_picked (s : State) (k : Nat) : (s.noteRaised k).picked = s.picked := rfl
@[simp] theorem State.noteRaised_ustLinks (s : State) (k : Nat) : (s.noteRaised k).ustLinks = s.ustLinks := rfl
@[simp] theorem State.noteRaised_ustGroups (s : State) (k : Nat) : (s.noteRaised k).ustGroups = s.ustGroups := rfl
@[simp] theorem State.noteRaised_peers (s : State) (k : Nat) : (s.noteRaised k).peers = s.peers := rfl
@[simp] theorem State.noteRaised_fab (s : State) (k : Nat) : (s.noteRaised k).fab = s.fab := rfl
@[simp] theorem State.noteRaised_sched (s : State) (k : Nat) : (s.noteRaised k).sched = s.sched := rfl
@[simp] theorem State.noteRaised_ended (s : State) (k : Nat) : (s.noteRaised k).ended = s.ended := rfl
@[simp] theorem State.noteRaised_stq (s : State) (k : Nat) : (s.noteRaised k).stq = s.stq := rfl
@[simp] theorem State.noteRaised_fw (s : State) (k : Nat) : (s.noteRaised k).fw = s.fw := rfl
@[simp] theorem State.noteRaised_boot (s : State) (k : Nat) : (s.noteRaised k).boot = s.boot := rfl
@[simp] theorem State.noteRaised_pins (s : State) (k : Nat) : (s.noteRaised k).pins = s.pins := rfl
@[simp] theorem State.noteRaised_cpu (s : State) (k : Nat) : (s.noteRaised k).cpu = s.cpu := rfl
@[simp] theorem State.noteRaised_pwr (s : State) (k : Nat) : (s.noteRaised k).pwr = s.pwr := rfl
@[simp] theorem State.noteRaised_tlm (s : State) (k : Nat) : (s.noteRaised k).tlm = s.tlm := rfl
@[simp] theorem State.noteRaised_events (s : State) (k : Nat) : (s.noteRaised k).events = s.events := rfl
@[simp] theorem State.noteRaised_out (s : State) (k : Nat) : (s.noteRaised k).out = s.out := rfl
@[simp] theorem State.noteRaised_fresh (s : State) (k : Nat) : (s.noteRaised k).fresh = s.fresh := rfl
@[simp] theorem State.noteRaised_pending (s : State) (k : Nat) : (s.noteRaised k).pending = s.pending := rfl

/-! ### Memory -/

@[simp] theorem State.byte_setByte_self (s : State) (a : Nat) (b : Byte) : (s.setByte a b).byte a = b :=
  Tab.get_set_self _ _ _ _

theorem State.byte_setByte_ne (s : State) {a x : Nat} (b : Byte) (h : a ≠ x) : (s.setByte a b).byte x = s.byte x :=
  Tab.get_set_ne _ _ _ h

theorem Mem.find_append (l m : List Host.Cell) (x : Nat) :
    Tab.find (l ++ m) x = (Tab.find l x).or (Tab.find m x) := by
  induction l with
  | nil => simp [Tab.find]
  | cons p l ih =>
    obtain ⟨a, b⟩ := p
    simp only [List.cons_append, Tab.find]
    split
    · simp
    · exact ih

theorem Mem.find_lower (m : List Host.Cell) (a x : Nat) :
    Tab.find (Mem.lower m a) x = if x < a then Tab.find m x else none := by
  induction m with
  | nil => simp [Mem.lower, Tab.find]
  | cons p m ih =>
    obtain ⟨y, b⟩ := p
    simp only [Mem.lower]
    split
    · simp only [Tab.find]
      split
      · rename_i h1 h2; subst h2; simp [h1]
      · rw [ih]
    · rw [ih]
      simp only [Tab.find]
      split
      · rename_i h1 h2
        have : y ≠ x := by omega
        simp [this]
      · rfl

theorem Mem.find_upper (m : List Host.Cell) (a x : Nat) :
    Tab.find (Mem.upper m a) x = if a ≤ x then Tab.find m x else none := by
  induction m with
  | nil => simp [Mem.upper, Tab.find]
  | cons p m ih =>
    obtain ⟨y, b⟩ := p
    simp only [Mem.upper]
    split
    · rw [ih]
      simp only [Tab.find]
      split
      · rename_i h1 h2
        have : y ≠ x := by omega
        simp [this]
      · rfl
    · simp only [Tab.find]
      split
      · rename_i h1 h2
        subst h2
        have : a ≤ y := by omega
        simp [this]
      · rw [ih]

theorem Mem.find_cells_out (l : List Byte) (a x : Nat) (h : x < a ∨ a + l.length ≤ x) :
    Tab.find (Mem.cells a l) x = none := by
  induction l generalizing a with
  | nil => simp [Mem.cells, Tab.find]
  | cons b l ih =>
    simp only [List.length_cons] at h
    have h2 := ih (a + 1) (by omega)
    simp only [Mem.cells]
    split
    · exact h2
    · have : a ≠ x := by omega
      simp [Tab.find, this, h2]

theorem Mem.get_cells_in (l : List Byte) (a i : Nat) (h : i < l.length) :
    Tab.get memDefault (Mem.cells a l) (a + i) = l[i] := by
  induction l generalizing a i with
  | nil => simp at h
  | cons b l ih =>
    simp only [Mem.cells]
    cases i with
    | zero =>
      split
      · rename_i hb
        have := Mem.find_cells_out l (a + 1) (a + 0) (by omega)
        simp only [Nat.add_zero] at this
        simp [Tab.get, Tab.getD, this, hb]
      · simp [Tab.get, Tab.getD, Tab.find]
    | succ i =>
      simp only [List.length_cons] at h
      have h2 := ih (a + 1) i (by omega)
      have e : a + (i + 1) = a + 1 + i := by omega
      split
      · rw [e, h2]; simp
      · have : ¬ a = a + 1 + i := by omega
        rw [e]
        simp only [Tab.get, Tab.getD, Tab.find, this, if_false] at h2 ⊢
        rw [h2]; simp

/-- A byte outside what is stored reads as before. -/
theorem State.byte_store_out (s : State) (a x : Nat) (l : List Byte) (h : x < a ∨ a + l.length ≤ x) :
    (s.store a l).byte x = s.byte x := by
  unfold State.byte State.store Mem.store Tab.get Tab.getD
  simp only [Mem.find_append, Mem.find_lower, Mem.find_upper, Mem.find_cells_out l a x h]
  rcases h with h | h
  · have : ¬ a + l.length ≤ x := by omega
    simp [h, this]
  · have : ¬ x < a := by omega
    simp [h, this]

/-- A stored byte is read back. -/
theorem State.byte_store_in (s : State) (a i : Nat) (l : List Byte) (h : i < l.length) :
    (s.store a l).byte (a + i) = l[i] := by
  have h1 : ¬ a + i < a := by omega
  have h2 : ¬ a + l.length ≤ a + i := by omega
  have h3 := Mem.get_cells_in l a i h
  unfold State.byte State.store Mem.store
  unfold Tab.get Tab.getD at *
  simp only [Mem.find_append, Mem.find_lower, Mem.find_upper, h1, h2, if_false]
  simpa using h3

end Sys2Proof.Machine
end

