-- ==== Sys2Proof/Laws/Canonical.lean ====
section
/-! SUPPORT. Every operation on memory and on the register space keeps the canonical form. -/
namespace Sys2Proof.Machine

open Sys2Proof

/-! ### The canonical form as a statement about the entries -/

theorem Tab.above_iff {α : Type} [DecidableEq α] {d : Nat → α} :
    ∀ {t : Tab α} {b : Option Nat}, Tab.above d b t = true ↔
      (∀ p ∈ t, Tab.over b p.1 ∧ p.2 ≠ d p.1) ∧ t.Pairwise fun p q => p.1 < q.1
  | [], b => by simp [Tab.above]
  | (a, v) :: t, b => by
    have ih := Tab.above_iff (d := d) (t := t) (b := some a)
    cases b <;> simp only [Tab.above, Bool.and_eq_true, Bool.not_eq_true', decide_eq_false_iff_not, decide_eq_true_eq, ih,
      List.pairwise_cons, List.mem_cons, Tab.over, true_and]
    · constructor
      · rintro ⟨hv, ha, hp⟩
        exact ⟨fun p hp => hp.elim (fun e => e ▸ hv) (fun h => (ha p h).2), fun p h => (ha p h).1, hp⟩
      · rintro ⟨h1, h2, h3⟩
        exact ⟨h1 _ (.inl rfl), fun p h => ⟨h2 p h, h1 p (.inr h)⟩, h3⟩
    · rename_i x
      constructor
      · rintro ⟨⟨hx, hv⟩, ha, hp⟩
        refine ⟨fun p hp => ?_, fun p h => (ha p h).1, hp⟩
        rcases hp with e | h
        · subst e; exact ⟨hx, hv⟩
        · exact ⟨Nat.lt_trans hx (ha p h).1, (ha p h).2⟩
      · rintro ⟨h1, h2, h3⟩
        exact ⟨h1 _ (.inl rfl), fun p h => ⟨h2 p h, (h1 p (.inr h)).2⟩, h3⟩

/-- A table is canonical when its keys rise strictly and no entry equals what an unlisted key reads as. -/
theorem Tab.wf_iff {α : Type} [DecidableEq α] {d : Nat → α} {t : Tab α} :
    Tab.wf d t = true ↔ (∀ p ∈ t, p.2 ≠ d p.1) ∧ t.Pairwise fun p q => p.1 < q.1 := by
  simp [Tab.wf, Tab.above_iff, Tab.over]

/-! ### Memory -/

theorem Mem.lower_eq (m : List Host.Cell) (a : Nat) : Mem.lower m a = m.filter fun p => decide (p.1 < a) := by
  induction m with
  | nil => rfl
  | cons p m ih => obtain ⟨x, b⟩ := p; simp only [Mem.lower, List.filter_cons, ih]; split <;> simp_all

theorem Mem.upper_eq (m : List Host.Cell) (a : Nat) : Mem.upper m a = m.filter fun p => decide (a ≤ p.1) := by
  induction m with
  | nil => rfl
  | cons p m ih =>
    obtain ⟨x, b⟩ := p
    simp only [Mem.upper, List.filter_cons, ih, decide_eq_true_eq]
    by_cases h : x < a
    · rw [if_pos h, if_neg (by omega)]
    · rw [if_neg h, if_pos (by omega)]

theorem Memory.lower_wf {m : List Host.Cell} (a : Nat) (h : Memory.wf m = true) : Memory.wf (Mem.lower m a) = true := by
  rw [Mem.lower_eq]; exact Tab.filter_wf _ h

theorem Memory.upper_wf {m : List Host.Cell} (a : Nat) (h : Memory.wf m = true) : Memory.wf (Mem.upper m a) = true := by
  rw [Mem.upper_eq]; exact Tab.filter_wf _ h

/-- Two canonical parts, one below the other, are canonical together. -/
theorem Memory.append_wf {m n : List Host.Cell} (hm : Memory.wf m = true) (hn : Memory.wf n = true)
    (h : ∀ p ∈ m, ∀ q ∈ n, p.1 < q.1) : Memory.wf (m ++ n) = true := by
  unfold Memory.wf at *
  rw [Tab.wf_iff] at *
  refine ⟨fun p hp => ?_, List.pairwise_append.2 ⟨hm.2, hn.2, h⟩⟩
  rcases List.mem_append.1 hp with hp | hp
  · exact hm.1 p hp
  · exact hn.1 p hp

theorem Mem.cells_mem {l : List Byte} : ∀ {a : Nat} {p : Host.Cell}, p ∈ Mem.cells a l →
    a ≤ p.1 ∧ p.1 < a + l.length ∧ p.2 ≠ memDefault := by
  induction l with
  | nil => intro a p h; simp [Mem.cells] at h
  | cons b l ih =>
    intro a p h
    simp only [Mem.cells] at h
    split at h
    · have := ih h; simp only [List.length_cons]; exact ⟨by omega, by omega, this.2.2⟩
    · rename_i hb
      rcases List.mem_cons.1 h with h | h
      · subst h; simp only [List.length_cons]; exact ⟨Nat.le_refl _, by omega, hb⟩
      · have := ih h; simp only [List.length_cons]; exact ⟨by omega, by omega, this.2.2⟩

theorem Memory.cells_wf (l : List Byte) : ∀ a : Nat, Memory.wf (Mem.cells a l) = true := by
  unfold Memory.wf
  induction l with
  | nil => intro a; rfl
  | cons b l ih =>
    intro a
    simp only [Mem.cells]
    split
    · exact ih _
    · rename_i hb
      have := Tab.wf_iff.1 (ih (a + 1))
      refine Tab.wf_iff.2 ⟨fun p hp => ?_, List.pairwise_cons.2 ⟨fun q hq => ?_, this.2⟩⟩
      · rcases List.mem_cons.1 hp with h | h
        · subst h; exact hb
        · exact this.1 p h
      · have := Mem.cells_mem hq; dsimp only; omega

/-- Storing bytes keeps memory canonical. -/
theorem Memory.store_wf {m : List Host.Cell} (a : Nat) (l : List Byte) (h : Memory.wf m = true) :
    Memory.wf (Mem.store m a l) = true := by
  unfold Mem.store
  refine Memory.append_wf (Memory.append_wf (Memory.lower_wf a h) (Memory.cells_wf l a) ?_) (Memory.upper_wf _ h) ?_
  · intro p hp q hq
    rw [Mem.lower_eq] at hp
    have h1 := (List.mem_filter.1 hp).2
    have h2 := Mem.cells_mem hq
    simp only [decide_eq_true_eq] at h1; omega
  · intro p hp q hq
    rw [Mem.upper_eq] at hq
    have h2 := (List.mem_filter.1 hq).2
    simp only [decide_eq_true_eq] at h2
    rcases List.mem_append.1 hp with hp | hp
    · rw [Mem.lower_eq] at hp
      have h1 := (List.mem_filter.1 hp).2
      simp only [decide_eq_true_eq] at h1; omega
    · have h1 := Mem.cells_mem hp; omega

/-- Writing one byte keeps memory canonical. -/
theorem Memory.set_wf {m : List Host.Cell} (a : Nat) (b : Byte) (h : Memory.wf m = true) :
    Memory.wf (Tab.set memDefault m a b) = true := Tab.setD_wf a b h

/-- Taking a range out keeps memory canonical. -/
theorem Memory.cut_wf {m : List Host.Cell} (a b : Nat) (hab : a ≤ b) (h : Memory.wf m = true) :
    Memory.wf (Mem.lower m a ++ Mem.upper m b) = true := by
  refine Memory.append_wf (Memory.lower_wf a h) (Memory.upper_wf b h) fun p hp q hq => ?_
  rw [Mem.lower_eq] at hp
  rw [Mem.upper_eq] at hq
  have h1 := (List.mem_filter.1 hp).2
  have h2 := (List.mem_filter.1 hq).2
  simp only [decide_eq_true_eq] at h1 h2; omega

@[simp] theorem Memory.nil_wf : Memory.wf [] = true := rfl

/-! ### The register space -/

@[simp] theorem Regs.nil_wf : Regs.wf [] = true := rfl

/-- Writing a register keeps the register space canonical. -/
theorem Regs.setD_wf {r : Tab Word} (off : Nat) (v : Word) (h : Regs.wf r = true) :
    Regs.wf (Tab.setD resetAt r off v) = true := Tab.setD_wf off v h

/-- Taking registers back to their reset words keeps the register space canonical. -/
theorem Regs.filter_wf {r : Tab Word} (p : Nat × Word → Bool) (h : Regs.wf r = true) :
    Regs.wf (r.filter p) = true := Tab.filter_wf p h

end Sys2Proof.Machine
end

