-- ==== Sys2Proof/Laws/Keeps.lean ====
section
/-! SUPPORT. What every shared operation keeps: the queue of waiting commands, and the canonical form of the registers and of
the memory. The files Laws/Keeps*.lean hold one lemma for each operation; this one holds the words and the rules. -/
namespace Sys2Proof.Machine

open Sys2Proof

/-- State `t` has the waiting commands of `s`, and is canonical if `s` is. -/
structure Keeps (s t : State) : Prop where
  pending : t.pending = s.pending
  canonical : s.Canonical → t.Canonical

/-- A value, if there is one, satisfies a predicate. -/
def OptAll {α : Type} (p : α → Prop) : Option α → Prop
  | none => True
  | some a => p a

/-- A next state, if there is one, satisfies a predicate. -/
def OutAll (p : State → Prop) : Out → Prop
  | .next t => p t
  | _ => True

/-- The state in the first place of a pair is kept. -/
def FstKeeps {α : Type} (s : State) (p : State × α) : Prop := Keeps s p.1

/-- The state in the second place of a pair is kept. -/
def SndKeeps {α : Type} (s : State) (p : α × State) : Prop := Keeps s p.2

theorem Keeps.refl (s : State) : Keeps s s := ⟨rfl, id⟩

theorem Keeps.trans {s t u : State} (h : Keeps s t) (g : Keeps t u) : Keeps s u :=
  ⟨g.pending.trans h.pending, fun c => g.canonical (h.canonical c)⟩

/-- An update of fields other than registers, memory and the queue. -/
theorem Keeps.upd {s t u : State} (hp : u.pending = t.pending) (hr : u.regs = t.regs) (hm : u.mem = t.mem)
    (h : Keeps s t) : Keeps s u :=
  ⟨hp.trans h.pending, fun c => by unfold State.Canonical; rw [hr, hm]; exact h.canonical c⟩

/-- An update of the registers. -/
theorem Keeps.updRegs {s t u : State} (hp : u.pending = t.pending) (hm : u.mem = t.mem)
    (hr : Regs.wf t.regs = true → Regs.wf u.regs = true) (h : Keeps s t) : Keeps s u :=
  ⟨hp.trans h.pending, fun c => ⟨hr (h.canonical c).1, by rw [hm]; exact (h.canonical c).2⟩⟩

/-- An update of the memory. -/
theorem Keeps.updMem {s t u : State} (hp : u.pending = t.pending) (hr : u.regs = t.regs)
    (hm : Memory.wf t.mem = true → Memory.wf u.mem = true) (h : Keeps s t) : Keeps s u :=
  ⟨hp.trans h.pending, fun c => ⟨by rw [hr]; exact (h.canonical c).1, hm (h.canonical c).2⟩⟩

/-- An update of registers and memory. -/
theorem Keeps.updBoth {s t u : State} (hp : u.pending = t.pending)
    (hr : Regs.wf t.regs = true → Regs.wf u.regs = true)
    (hm : Memory.wf t.mem = true → Memory.wf u.mem = true) (h : Keeps s t) : Keeps s u :=
  ⟨hp.trans h.pending, fun c => ⟨hr (h.canonical c).1, hm (h.canonical c).2⟩⟩

/-! ### Parts of a value -/

theorem Keeps.fst {α : Type} {s t : State} {a : α} {d : State × α} (e : d = (t, a)) (h : Keeps s d.1) : Keeps s t := by
  subst e; exact h

theorem Keeps.snd {α : Type} {s t : State} {a : α} {d : α × State} (e : d = (a, t)) (h : Keeps s d.2) : Keeps s t := by
  subst e; exact h

theorem Keeps.opt {α : Type} {p : α → Prop} {a : α} {d : Option α} (e : d = some a) (h : OptAll p d) : p a := by
  subst e; exact h

theorem Keeps.out {p : State → Prop} {t : State} {d : Out} (e : d = .next t) (h : OutAll p d) : p t := by
  subst e; exact h

theorem Keeps.optFst {α : Type} {s t : State} {a : α} {d : Option (State × α)} (e : d = some (t, a))
    (h : OptAll (fun r => Keeps s r.1) d) : Keeps s t := by
  subst e; exact h

theorem Keeps.optSnd {α : Type} {s t : State} {a : α} {d : Option (α × State)} (e : d = some (a, t))
    (h : OptAll (fun r => Keeps s r.2) d) : Keeps s t := by
  subst e; exact h

theorem Keeps.eq {s t d : State} (e : d = t) (h : Keeps s d) : Keeps s t := by
  subst e; exact h

theorem FstKeeps.of {α : Type} {s : State} {p : State × α} (h : Keeps s p.1) : FstKeeps s p := h

theorem SndKeeps.of {α : Type} {s : State} {p : α × State} (h : Keeps s p.2) : SndKeeps s p := h

theorem Keeps.mkFst {α : Type} {s t : State} {a : α} (h : Keeps s t) : Keeps s (t, a).1 := h

theorem Keeps.mkSnd {α : Type} {s t : State} {a : α} (h : Keeps s t) : Keeps s (a, t).2 := h

theorem OptAll.some {α : Type} {p : α → Prop} {a : α} (h : p a) : OptAll p (some a) := h

theorem OptAll.none {α : Type} {p : α → Prop} : OptAll p (none : Option α) := trivial

theorem OutAll.next {p : State → Prop} {t : State} (h : p t) : OutAll p (.next t) := h

theorem OptAll.map {α : Type} {p : α → Prop} {s : State} {f : State → α} {o : Option State} (h : OptAll (Keeps s) o)
    (hf : ∀ a, Keeps s a → p (f a)) : OptAll p (o.map f) := by
  cases o with
  | none => trivial
  | some a => exact hf a h

theorem OptAll.mapFst {α β : Type} {p : α → Prop} {s : State} {f : State × β → α} {o : Option (State × β)}
    (h : OptAll (fun r => Keeps s r.1) o) (hf : ∀ a, Keeps s a.1 → p (f a)) : OptAll p (o.map f) := by
  cases o with
  | none => trivial
  | some a => exact hf a h

theorem OptAll.mapSnd {α β : Type} {p : α → Prop} {s : State} {f : β × State → α} {o : Option (β × State)}
    (h : OptAll (fun r => Keeps s r.2) o) (hf : ∀ a, Keeps s a.2 → p (f a)) : OptAll p (o.map f) := by
  cases o with
  | none => trivial
  | some a => exact hf a h

theorem OptAll.mapAny {α β : Type} {p : α → Prop} {f : β → α} {o : Option β} (hf : ∀ a, p (f a)) : OptAll p (o.map f) := by
  cases o with
  | none => trivial
  | some a => exact hf a

/-! ### Both branches of a conditional -/

theorem Keeps.ite {s t u : State} {c : Prop} [Decidable c] (ht : c → Keeps s t) (hu : ¬c → Keeps s u) :
    Keeps s (if c then t else u) := by
  split
  · exact ht ‹_›
  · exact hu ‹_›

theorem Keeps.dite {s : State} {c : Prop} [Decidable c] {t : c → State} {u : ¬c → State} (ht : ∀ h, Keeps s (t h))
    (hu : ∀ h, Keeps s (u h)) : Keeps s (if h : c then t h else u h) := by
  split
  · exact ht _
  · exact hu _

/-! ### Recursion over lists -/

theorem Keeps.foldl {α : Type} {s t : State} {f : State → α → State} {l : List α} (h : Keeps s t)
    (hf : ∀ u a, Keeps s u → Keeps s (f u a)) : Keeps s (l.foldl f t) := by
  induction l generalizing t with
  | nil => exact h
  | cons a l ih => exact ih (hf t a h)

theorem Keeps.foldlFst {α β : Type} {s : State} {t : State × β} {f : State × β → α → State × β} {l : List α}
    (h : Keeps s t.1) (hf : ∀ u a, Keeps s u.1 → Keeps s (f u a).1) : Keeps s (l.foldl f t).1 := by
  induction l generalizing t with
  | nil => exact h
  | cons a l ih => exact ih (hf t a h)

theorem Keeps.foldlSnd {α β : Type} {s : State} {t : β × State} {f : β × State → α → β × State} {l : List α}
    (h : Keeps s t.2) (hf : ∀ u a, Keeps s u.2 → Keeps s (f u a).2) : Keeps s (l.foldl f t).2 := by
  induction l generalizing t with
  | nil => exact h
  | cons a l ih => exact ih (hf t a h)

theorem FstKeeps.mk {α : Type} {s t : State} {a : α} (h : Keeps s t) : FstKeeps s (t, a) := h

theorem FstKeeps.ite {α : Type} {s : State} {a b : State × α} {c : Prop} [Decidable c] (ha : c → FstKeeps s a)
    (hb : ¬c → FstKeeps s b) : FstKeeps s (if c then a else b) := by
  split
  · exact ha ‹_›
  · exact hb ‹_›

theorem FstKeeps.foldl {α β : Type} {s : State} {t : State × β} {f : State × β → α → State × β} {l : List α}
    (h : FstKeeps s t) (hf : ∀ u a, FstKeeps s u → FstKeeps s (f u a)) : FstKeeps s (l.foldl f t) :=
  Keeps.foldlFst h hf

theorem Keeps.foldlVia {α β : Type} {s : State} (g : α → State) {f : α → β → α} {l : List β} :
    ∀ {a : α} (_ : Keeps s (g a)) (_ : ∀ a b, Keeps s (g a) → Keeps s (g (f a b))), Keeps s (g (l.foldl f a)) := by
  induction l with
  | nil => intro a h _; exact h
  | cons b l ih => intro a h hf; exact ih (hf a b h) hf

theorem Keeps.getD {s t : State} {o : Option State} (ho : OptAll (Keeps s) o) (h : Keeps s t) :
    Keeps s (o.getD t) := by
  cases o with
  | none => exact h
  | some a => exact ho

end Sys2Proof.Machine
end

