-- ==== Sys2Proof/Laws/KeepsMachine.lean ====
section
/-! SUPPORT. What the shared operations on registers, memory, events, host access, queues and their entries keep: the waiting commands and the canonical form. One
lemma for each operation. -/
namespace Sys2Proof.Machine

open Sys2Proof

/-! ### Machine/Ops.lean -/

theorem State.setReg_keeps {s0 s : State} {off : Nat} {v : Word} (h0 : Keeps s0 s) : Keeps s0 (State.setReg s off v) := by
  unfold State.setReg
  refine Keeps.updRegs (t := s) rfl rfl (fun h => ?_) ?_
  · exact Regs.setD_wf _ _ h
  · assumption

theorem State.wr_keeps {s0 s : State} {f : Fld} {i v : Nat} (h0 : Keeps s0 s) : Keeps s0 (State.wr s f i v) := by
  unfold State.wr
  exact State.setReg_keeps ‹_›

theorem State.wrs_keeps {s0 s : State} {i : Nat} {l : List (Fld × Nat)} (h0 : Keeps s0 s) : Keeps s0 (State.wrs s i l) := by
  unfold State.wrs
  refine Keeps.foldl ?_ ?_
  · assumption
  · intro v1 v2 v3
    exact State.wr_keeps ‹_›

theorem State.resetReg_keeps {s0 s : State} {f : Fld} {i : Nat} (h0 : Keeps s0 s) : Keeps s0 (State.resetReg s f i) := by
  unfold State.resetReg
  exact State.setReg_keeps ‹_›

theorem State.resetRegsBut_keeps {s0 s : State} {keep : Nat → Bool} (h0 : Keeps s0 s) :
    Keeps s0 (State.resetRegsBut s keep) := by
  unfold State.resetRegsBut
  refine Keeps.updRegs (t := s) rfl rfl (fun h => ?_) ?_
  · exact Regs.filter_wf _ h
  · assumption

theorem State.freeWord_keeps {s0 s : State} (h0 : Keeps s0 s) : Keeps s0 (State.freeWord s).2 := by
  unfold State.freeWord
  exact Keeps.mkSnd (Keeps.upd (t := s) rfl rfl rfl ‹_›)

theorem State.freeBit_keeps {s0 s : State} (h0 : Keeps s0 s) : Keeps s0 (State.freeBit s).2 := by
  unfold State.freeBit
  exact Keeps.mkSnd (Keeps.upd (t := s) rfl rfl rfl ‹_›)

theorem State.freeBytes_keeps {s0 s : State} {n : Nat} (h0 : Keeps s0 s) : Keeps s0 (State.freeBytes s n).2 := by
  unfold State.freeBytes
  exact Keeps.mkSnd (Keeps.upd (t := s) rfl rfl rfl ‹_›)

theorem State.shuffled_keeps {s0 : State} {α : Type} {s : State} {l : List α} (h1 : Keeps s0 s) :
    Keeps s0 (State.shuffled s l).2 := by
  unfold State.shuffled
  exact Keeps.mkSnd (Keeps.upd (t := s) rfl rfl rfl ‹_›)

theorem State.setByte_keeps {s0 s : State} {a : Nat} {b : Byte} (h0 : Keeps s0 s) : Keeps s0 (State.setByte s a b) := by
  unfold State.setByte
  refine Keeps.updMem (t := s) rfl rfl (fun h => ?_) ?_
  · exact Memory.set_wf _ _ h
  · assumption

theorem State.store_keeps {s0 s : State} {a : Nat} {l : List Byte} (h0 : Keeps s0 s) : Keeps s0 (State.store s a l) := by
  unfold State.store
  refine Keeps.updMem (t := s) rfl rfl (fun h => ?_) ?_
  · exact Memory.store_wf _ _ h
  · assumption

theorem State.scramble_keeps {s0 s : State} {a n : Nat} (h0 : Keeps s0 s) : Keeps s0 (State.scramble s a n) := by
  unfold State.scramble
  extract_lets +onlyGivenNames u1
  have h1 : SndKeeps s0 u1 := by
    unfold u1
    exact SndKeeps.of (State.freeBytes_keeps ‹_›)
  clear_value u1
  exact State.store_keeps ‹_›

theorem raiseCore_keeps {s0 s : State} {e : EventRec} (h0 : Keeps s0 s) : Keeps s0 (raiseCore s e).1 := by
  unfold raiseCore
  split
  · extract_lets +onlyGivenNames u1
    clear_value u1
    split
    · exact Keeps.mkFst (State.wr_keeps ‹_›)
    · exact Keeps.mkFst ‹_›
  · exact Keeps.mkFst (Keeps.upd (t := s) rfl rfl rfl ‹_›)

theorem setOverflow_keeps {s0 s : State} {off : Nat} (h0 : Keeps s0 s) : Keeps s0 (setOverflow s off) := by
  unfold setOverflow
  extract_lets +onlyGivenNames u1
  have h1 : Keeps s0 u1 := Keeps.upd (t := s) rfl rfl rfl ‹_›
  clear_value u1
  split
  · exact State.wr_keeps ‹_›
  · assumption

theorem State.raise_keeps {s0 s : State} {type source glade inst status payload : Nat} (h0 : Keeps s0 s) :
    Keeps s0 (State.raise s type source glade inst status payload) := by
  unfold State.raise
  extract_lets +onlyGivenNames u1 u2
  clear_value u1 u2
  split
  · rename_i x1 x2 x3
    exact Keeps.fst ‹_› (raiseCore_keeps ‹_›)
  · rename_i x4 x5 x6
    extract_lets +onlyGivenNames u3
    clear_value u3
    exact raiseCore_keeps (setOverflow_keeps (Keeps.fst ‹_› (raiseCore_keeps ‹_›)))

theorem State.raiseUnit_keeps {s0 s : State} {type source payload : Nat} (h0 : Keeps s0 s) :
    Keeps s0 (State.raiseUnit s type source payload) := by
  unfold State.raiseUnit
  exact State.raise_keeps ‹_›

theorem State.noteRaised_keeps {s0 s : State} {key : Nat} (h0 : Keeps s0 s) : Keeps s0 (State.noteRaised s key) := by
  unfold State.noteRaised
  exact Keeps.upd (t := s) rfl rfl rfl ‹_›

theorem State.bump_keeps {s0 s : State} {f : Fld} {i n : Nat} (h0 : Keeps s0 s) : Keeps s0 (State.bump s f i n) := by
  unfold State.bump
  extract_lets +onlyGivenNames u1
  clear_value u1
  refine Keeps.ite (fun _ => ?_) (fun _ => ?_)
  · exact State.wr_keeps ‹_›
  · extract_lets +onlyGivenNames u2
    have h1 : Keeps s0 u2 := State.wr_keeps ‹_›
    clear_value u2
    refine Keeps.ite (fun _ => ?_) (fun _ => ?_)
    · assumption
    · exact raiseCore_keeps (setOverflow_keeps ‹_›)

theorem State.bumpSmall_keeps {s0 s : State} {f : Fld} {i n : Nat} (h0 : Keeps s0 s) :
    Keeps s0 (State.bumpSmall s f i n) := by
  unfold State.bumpSmall
  exact State.wr_keeps ‹_›

theorem State.setMeter_keeps {s0 s : State} {g : Nat} {m : Meter} (h0 : Keeps s0 s) : Keeps s0 (State.setMeter s g m) := by
  unfold State.setMeter
  extract_lets +onlyGivenNames u1
  clear_value u1
  extract_lets +onlyGivenNames u2
  have h1 : Keeps s0 u2 := Keeps.upd (t := s) rfl rfl rfl ‹_›
  clear_value u2
  exact State.wr_keeps ‹_›

theorem State.meterAdd_keeps {s0 s : State} {g f n : Nat} (h0 : Keeps s0 s) : Keeps s0 (State.meterAdd s g f n) := by
  unfold State.meterAdd
  refine Keeps.ite (fun _ => ?_) (fun _ => ?_)
  · exact State.setMeter_keeps ‹_›
  · assumption

theorem unlessNoImage_keeps {s0 s : State} {o : Out} (h0 : Keeps s0 s) (h1 : OutAll (Keeps s0) o) :
    OutAll (Keeps s0) (unlessNoImage s o) := by
  unfold unlessNoImage
  split
  · exact OutAll.next ‹_›
  · assumption

theorem flagAccess_keeps {s0 s : State} {off : Nat} {l : List Fld} (h0 : Keeps s0 s) : Keeps s0 (flagAccess s off l) := by
  unfold flagAccess
  extract_lets +onlyGivenNames u1
  clear_value u1
  extract_lets +onlyGivenNames u2
  have h1 : Keeps s0 u2 := by
    unfold u2
    refine Keeps.ite (fun _ => ?_) (fun _ => ?_)
    · exact State.wr_keeps ‹_›
    · assumption
  clear_value u2
  exact State.wrs_keeps ‹_›

theorem holdReg_keeps {s0 s : State} {h : HeldReg} (h0 : Keeps s0 s) : Keeps s0 (holdReg s h) := by
  unfold holdReg
  exact Keeps.upd (t := s) rfl rfl rfl ‹_›

theorem State.emit_keeps {s0 s : State} {o : Output} (h0 : Keeps s0 s) : Keeps s0 (State.emit s o) := by
  unfold State.emit
  exact Keeps.upd (t := s) rfl rfl rfl ‹_›

/-! ### Machine/HostOps.lean -/

theorem State.setPort_keeps {s0 s : State} {p : Nat} {h : HostPort} (h0 : Keeps s0 s) : Keeps s0 (State.setPort s p h) := by
  unfold State.setPort
  extract_lets +onlyGivenNames u1
  have h1 : Keeps s0 u1 := Keeps.upd (t := s) rfl rfl rfl ‹_›
  clear_value u1
  extract_lets +onlyGivenNames u2
  have h2 : Keeps s0 u2 := State.wr_keeps ‹_›
  clear_value u2
  exact State.wr_keeps ‹_›

theorem State.hostRefuses_keeps {s0 s : State} {p : Nat} (h0 : Keeps s0 s) : Keeps s0 (State.hostRefuses s p).2 := by
  unfold State.hostRefuses
  split
  · exact State.freeBit_keeps ‹_›
  · exact Keeps.mkSnd ‹_›

theorem State.portWrite_keeps {s0 s : State} {p : Nat} {pasid : Option Nat} {addr : Nat} {l : List Byte}
    {poisoned relaxed : Bool} (h0 : Keeps s0 s) : Keeps s0 (State.portWrite s p pasid addr l poisoned relaxed).1 := by
  unfold State.portWrite
  extract_lets +onlyGivenNames u1
  have h1 : SndKeeps s0 u1 := by
    unfold u1
    exact SndKeeps.of (State.hostRefuses_keeps ‹_›)
  clear_value u1
  split
  · exact Keeps.mkFst ‹_›
  · extract_lets +onlyGivenNames u2
    have h2 : Keeps s0 u2 := State.emit_keeps ‹_›
    clear_value u2
    refine Keeps.mkFst ?_
    refine Keeps.ite (fun _ => ?_) (fun _ => ?_)
    · exact State.bump_keeps ‹_›
    · assumption

theorem State.instWrite_keeps {s0 s : State} {inst addr : Nat} {l : List Byte} {poisoned : Bool} (h0 : Keeps s0 s) :
    Keeps s0 (State.instWrite s inst addr l poisoned).1 := by
  unfold State.instWrite
  split
  · exact State.portWrite_keeps ‹_›
  · exact Keeps.mkFst ‹_›

theorem State.hostWrite_keeps {s0 s : State} {inst addr : Nat} {l : List Byte} (h0 : Keeps s0 s) :
    Keeps s0 (State.hostWrite s inst addr l) := by
  unfold State.hostWrite
  refine Keeps.ite (fun _ => ?_) (fun _ => ?_)
  · exact State.portWrite_keeps ‹_›
  · assumption

theorem State.msix_keeps {s0 s : State} {p v : Nat} (h0 : Keeps s0 s) : Keeps s0 (State.msix s p v) := by
  unfold State.msix
  extract_lets +onlyGivenNames u1
  clear_value u1
  refine Keeps.ite (fun _ => ?_) (fun _ => ?_)
  · exact State.emit_keeps ‹_›
  · refine Keeps.ite (fun _ => ?_) (fun _ => ?_)
    · assumption
    · exact State.setPort_keeps ‹_›

theorem State.msixDrain_keeps {s0 s : State} {p : Nat} (h0 : Keeps s0 s) : Keeps s0 (State.msixDrain s p) := by
  unfold State.msixDrain
  refine Keeps.foldl ?_ ?_
  · assumption
  · intro v1 v2 v3
    refine Keeps.ite (fun _ => ?_) (fun _ => ?_)
    · extract_lets +onlyGivenNames u1
      clear_value u1
      extract_lets +onlyGivenNames u2
      have h1 : Keeps s0 u2 := State.setPort_keeps ‹_›
      clear_value u2
      exact State.emit_keeps ‹_›
    · assumption

theorem State.logAer_keeps {s0 s : State} {p : Nat} {e : AerErr} (h0 : Keeps s0 s) : Keeps s0 (State.logAer s p e) := by
  unfold State.logAer
  extract_lets +onlyGivenNames u1 u2
  clear_value u1 u2
  extract_lets +onlyGivenNames u3
  have h1 : SndKeeps s0 u3 := by
    unfold u3
    refine SndKeeps.of ?_
    split
    · exact State.freeBytes_keeps ‹_›
    · exact Keeps.mkSnd ‹_›
  clear_value u3
  exact State.setPort_keeps ‹_›

theorem unsupported_keeps {s0 s : State} {p tag : Nat} {posted : Bool} (h0 : Keeps s0 s) :
    Keeps s0 (unsupported s p tag posted) := by
  unfold unsupported
  extract_lets +onlyGivenNames u1
  have h1 : Keeps s0 u1 := State.bump_keeps (State.logAer_keeps ‹_›)
  clear_value u1
  refine Keeps.ite (fun _ => ?_) (fun _ => ?_)
  · assumption
  · exact State.emit_keeps ‹_›

theorem State.hostRequest_keeps {s0 s : State} {p : Nat} {r : HostReq} (h0 : Keeps s0 s) :
    Keeps s0 (State.hostRequest s p r) := by
  unfold State.hostRequest
  extract_lets +onlyGivenNames u1
  clear_value u1
  refine Keeps.ite (fun _ => ?_) (fun _ => ?_)
  · split
    · extract_lets +onlyGivenNames u2
      have h1 : Keeps s0 u2 := State.setPort_keeps ‹_›
      clear_value u2
      exact State.emit_keeps ‹_›
    · exact State.setPort_keeps ‹_›
  · exact State.setPort_keeps ‹_›

theorem State.cplTimeout_keeps {s0 s : State} {p tag addr : Nat} {silent : Bool} (h0 : Keeps s0 s) :
    Keeps s0 (State.cplTimeout s p tag addr silent) := by
  unfold State.cplTimeout
  extract_lets +onlyGivenNames u1
  clear_value u1
  extract_lets +onlyGivenNames u2
  have h1 : Keeps s0 u2 := State.setPort_keeps ‹_›
  clear_value u2
  extract_lets +onlyGivenNames u3
  have h2 : Keeps s0 u3 := State.bump_keeps ‹_›
  clear_value u3
  refine Keeps.ite (fun _ => ?_) (fun _ => ?_)
  · assumption
  · extract_lets +onlyGivenNames u4
    have h3 : Keeps s0 u4 := State.logAer_keeps ‹_›
    clear_value u4
    exact State.raiseUnit_keeps ‹_›

theorem State.poisonRx_keeps {s0 s : State} {p tag addr : Nat} (h0 : Keeps s0 s) :
    Keeps s0 (State.poisonRx s p tag addr) := by
  unfold State.poisonRx
  extract_lets +onlyGivenNames u1
  have h1 : Keeps s0 u1 := State.bump_keeps (State.logAer_keeps ‹_›)
  clear_value u1
  exact State.raiseUnit_keeps ‹_›

theorem State.hostReadOne_keeps {s0 s : State} {p : Nat} {pasid : Option Nat} {addr len : Nat} {reply : HostReply}
    (h0 : Keeps s0 s) : Keeps s0 (State.hostReadOne s p pasid addr len reply) := by
  unfold State.hostReadOne
  refine Keeps.ite (fun _ => ?_) (fun _ => ?_)
  · assumption
  · split
    · assumption
    · extract_lets +onlyGivenNames u1
      have h1 : Keeps s0 u1 := State.emit_keeps (State.setPort_keeps ‹_›)
      clear_value u1
      split
      · exact State.cplTimeout_keeps ‹_›
      · exact State.poisonRx_keeps (State.setPort_keeps ‹_›)
      · exact State.setPort_keeps ‹_›

theorem State.hostRead_keeps {s0 s : State} {p : Nat} {pasid : Option Nat} {addr len : Nat} {reply : HostReply}
    (h0 : Keeps s0 s) : Keeps s0 (State.hostRead s p pasid addr len reply) := by
  unfold State.hostRead
  split
  · assumption
  · extract_lets +onlyGivenNames u1
    have h1 : Keeps s0 u1 := State.hostReadOne_keeps ‹_›
    clear_value u1
    refine Keeps.ite (fun _ => ?_) (fun _ => ?_)
    · refine Keeps.foldl ?_ ?_
      · assumption
      · intro v1 v2 v3
        exact State.hostReadOne_keeps ‹_›
    · assumption

theorem State.instRead_keeps {s0 s : State} {inst addr len : Nat} {reply : HostReply} (h0 : Keeps s0 s) :
    Keeps s0 (State.instRead s inst addr len reply) := by
  unfold State.instRead
  refine Keeps.ite (fun _ => ?_) (fun _ => ?_)
  · exact State.hostRead_keeps ‹_›
  · assumption

/-! ### Machine/DramMap.lean -/

theorem onTile_keeps {s0 s : State} {n off v : Nat} {o : Out} (h0 : Keeps s0 s) (h4 : OutAll (Keeps s0) o) :
    OutAll (Keeps s0) (onTile s n off v o) := by
  unfold onTile
  split
  · exact OutAll.next ‹_›
  · split
    · exact OutAll.next (flagAccess_keeps ‹_›)
    · split
      · exact OutAll.next (holdReg_keeps ‹_›)
      · assumption

theorem memRaise_keeps {s0 s : State} {type ch a payload : Nat} (h0 : Keeps s0 s) :
    Keeps s0 (memRaise s type ch a payload) := by
  unfold memRaise
  exact State.raise_keeps ‹_›

theorem bankFaulty_keeps {s0 s : State} {b : Nat} (h0 : Keeps s0 s) : Keeps s0 (bankFaulty s b) := by
  unfold bankFaulty
  refine Keeps.ite (fun _ => ?_) (fun _ => ?_)
  · assumption
  · exact Keeps.upd (t := s) rfl rfl rfl ‹_›

theorem uncorrectable_keeps {s0 s : State} {ch bank row cw low : Nat} (h0 : Keeps s0 s) :
    Keeps s0 (uncorrectable s ch bank row cw low) := by
  unfold uncorrectable
  extract_lets +onlyGivenNames u1
  clear_value u1
  extract_lets +onlyGivenNames u2
  have h1 : Keeps s0 u2 := State.bump_keeps ‹_›
  clear_value u2
  extract_lets +onlyGivenNames u3
  have h2 : Keeps s0 u3 := memRaise_keeps ‹_›
  clear_value u3
  extract_lets +onlyGivenNames u4 u5 u6
  clear_value u4 u5 u6
  extract_lets +onlyGivenNames u7
  have h3 : Keeps s0 u7 := Keeps.upd (t := u3) rfl rfl rfl ‹_›
  clear_value u7
  refine Keeps.ite (fun _ => ?_) (fun _ => ?_)
  · exact bankFaulty_keeps ‹_›
  · assumption

theorem noteCw_keeps {s0 s : State} {cw : Nat} (h0 : Keeps s0 s) : Keeps s0 (noteCw s cw) := by
  unfold noteCw
  refine Keeps.ite (fun _ => ?_) (fun _ => ?_)
  · split
    · extract_lets +onlyGivenNames u1
      have h1 : SndKeeps s0 u1 := by
        unfold u1
        exact SndKeeps.of (State.freeWord_keeps ‹_›)
      clear_value u1
      exact uncorrectable_keeps ‹_›
    · assumption
  · assumption

theorem State.noteRead_keeps {s0 s : State} {a n : Nat} (h0 : Keeps s0 s) : Keeps s0 (State.noteRead s a n) := by
  unfold State.noteRead
  refine Keeps.foldl ?_ ?_
  · assumption
  · intro v1 v2 v3
    exact noteCw_keeps ‹_›

theorem State.noteStatus_keeps {s0 s : State} {status a n : Nat} (h0 : Keeps s0 s) :
    Keeps s0 (State.noteStatus s status a n) := by
  unfold State.noteStatus
  refine Keeps.ite (fun _ => ?_) (fun _ => ?_)
  · exact State.noteRead_keeps ‹_›
  · assumption

/-! ### Machine/Queues.lean -/

theorem State.setQueue_keeps {s0 s : State} {qid : Nat} {q : Queue} (h0 : Keeps s0 s) :
    Keeps s0 (State.setQueue s qid q) := by
  unfold State.setQueue
  split
  · extract_lets +onlyGivenNames u1
    have h1 : Keeps s0 u1 := Keeps.upd (t := s) rfl rfl rfl ‹_›
    clear_value u1
    exact State.wrs_keeps ‹_›
  · extract_lets +onlyGivenNames u2
    clear_value u2
    extract_lets +onlyGivenNames u3
    have h2 : Keeps s0 u3 := Keeps.upd (t := s) rfl rfl rfl ‹_›
    clear_value u3
    refine Keeps.ite (fun _ => ?_) (fun _ => ?_)
    · exact State.wrs_keeps ‹_›
    · assumption
  · extract_lets +onlyGivenNames u4
    clear_value u4
    extract_lets +onlyGivenNames u5
    have h3 : Keeps s0 u5 := Keeps.upd (t := s) rfl rfl rfl ‹_›
    clear_value u5
    refine Keeps.ite (fun _ => ?_) (fun _ => ?_)
    · exact State.wrs_keeps ‹_›
    · assumption
  · exact Keeps.upd (t := s) rfl rfl rfl ‹_›

theorem State.complete_keeps {s0 s : State} {qid : Nat} {c : Cmd} {status mid : Nat} (h0 : Keeps s0 s) :
    Keeps s0 (State.complete s qid c status mid) := by
  unfold State.complete
  extract_lets +onlyGivenNames u1 u2 u3 u4
  clear_value u1 u2 u3 u4
  extract_lets +onlyGivenNames u5
  have h1 : Keeps s0 u5 := State.setQueue_keeps ‹_›
  clear_value u5
  refine Keeps.ite (fun _ => ?_) (fun _ => ?_)
  · exact Keeps.upd (t := u5) rfl rfl rfl ‹_›
  · assumption

theorem State.setCmd_keeps {s0 s : State} {qid : Nat} {c : Cmd} (h0 : Keeps s0 s) : Keeps s0 (State.setCmd s qid c) := by
  unfold State.setCmd
  extract_lets +onlyGivenNames u1
  clear_value u1
  exact State.setQueue_keeps ‹_›

theorem State.setRing_keeps {s0 s : State} {ri : Nat} {x : CkpRing} (h0 : Keeps s0 s) : Keeps s0 (State.setRing s ri x) := by
  unfold State.setRing
  extract_lets +onlyGivenNames u1
  have h1 : Keeps s0 u1 := Keeps.upd (t := s) rfl rfl rfl ‹_›
  clear_value u1
  exact State.wr_keeps ‹_›

theorem tell_keeps {s0 s : State} {ri dest : Nat} {m : CkpMsg} (h0 : Keeps s0 s) : Keeps s0 (tell s ri dest m) := by
  unfold tell
  exact State.emit_keeps ‹_›

theorem tellAll_keeps {s0 s : State} {ri : Nat} {m : CkpMsg} (h0 : Keeps s0 s) : Keeps s0 (tellAll s ri m) := by
  unfold tellAll
  refine Keeps.foldl ?_ ?_
  · assumption
  · intro v1 v2 v3
    exact tell_keeps ‹_›

theorem ckpRaise_keeps {s0 s : State} {g type status payload : Nat} (h0 : Keeps s0 s) :
    Keeps s0 (ckpRaise s g type status payload) := by
  unfold ckpRaise
  exact State.raise_keeps ‹_›

theorem noteSeen_keeps {s0 s : State} {ri : Nat} {h : CkpHash} (h0 : Keeps s0 s) : Keeps s0 (noteSeen s ri h) := by
  unfold noteSeen
  extract_lets +onlyGivenNames u1
  clear_value u1
  exact State.setRing_keeps ‹_›

theorem sendHashes_keeps {s0 s : State} {ri : Nat} (h0 : Keeps s0 s) : Keeps s0 (sendHashes s ri) := by
  unfold sendHashes
  extract_lets +onlyGivenNames u1
  clear_value u1
  refine Keeps.ite (fun _ => ?_) (fun _ => ?_)
  · assumption
  · refine Keeps.foldl ?_ ?_
    · exact State.setRing_keeps ‹_›
    · intro v1 v2 v3
      extract_lets +onlyGivenNames u2
      clear_value u2
      refine Keeps.ite (fun _ => ?_) (fun _ => ?_)
      · exact noteSeen_keeps ‹_›
      · exact tell_keeps ‹_›

theorem ringStaging_keeps {s0 s : State} {ri : Nat} (h0 : Keeps s0 s) : Keeps s0 (ringStaging s ri) := by
  unfold ringStaging
  refine Keeps.ite (fun _ => ?_) (fun _ => ?_)
  · exact sendHashes_keeps (State.wr_keeps ‹_›)
  · assumption

theorem ringSettle_keeps {s0 s : State} {ri : Nat} (h0 : Keeps s0 s) : Keeps s0 (ringSettle s ri) := by
  unfold ringSettle
  extract_lets +onlyGivenNames u1
  clear_value u1
  refine Keeps.ite (fun _ => ?_) (fun _ => ?_)
  · extract_lets +onlyGivenNames u2
    have h1 : Keeps s0 u2 := State.setRing_keeps ‹_›
    clear_value u2
    extract_lets +onlyGivenNames u3
    have h2 : Keeps s0 u3 := by
      unfold u3
      split
      · split
        · exact State.complete_keeps ‹_›
        · assumption
      · assumption
    clear_value u3
    exact ringStaging_keeps (tellAll_keeps ‹_›)
  · assumption

theorem markCaptured_keeps {s0 s : State} {ri item : Nat} (h0 : Keeps s0 s) : Keeps s0 (markCaptured s ri item) := by
  unfold markCaptured
  extract_lets +onlyGivenNames u1
  clear_value u1
  split
  · assumption
  · extract_lets +onlyGivenNames u2
    have h1 : Keeps s0 u2 := State.setRing_keeps ‹_›
    clear_value u2
    exact ckpRaise_keeps ‹_›

theorem endRingCmd_keeps {s0 s : State} {p : Option (Nat × Nat)} {status result : Nat} (h0 : Keeps s0 s) :
    Keeps s0 (endRingCmd s p status result) := by
  unfold endRingCmd
  split
  · split
    · exact State.complete_keeps ‹_›
    · assumption
  · assumption

theorem dropRing_keeps {s0 s : State} {ri member status mine : Nat} (h0 : Keeps s0 s) :
    Keeps s0 (dropRing s ri member status mine) := by
  unfold dropRing
  extract_lets +onlyGivenNames u1
  clear_value u1
  extract_lets +onlyGivenNames u2
  have h1 : Keeps s0 u2 := State.setRing_keeps ‹_›
  clear_value u2
  extract_lets +onlyGivenNames u3
  have h2 : Keeps s0 u3 := State.wr_keeps ‹_›
  clear_value u3
  extract_lets +onlyGivenNames u4
  have h3 : Keeps s0 u4 := State.bump_keeps ‹_›
  clear_value u4
  extract_lets +onlyGivenNames u5
  have h4 : Keeps s0 u5 := ckpRaise_keeps ‹_›
  clear_value u5
  extract_lets +onlyGivenNames u6
  have h5 : Keeps s0 u6 := endRingCmd_keeps ‹_›
  clear_value u6
  exact endRingCmd_keeps ‹_›

theorem abandonRing_keeps {s0 s : State} {ri status : Nat} (h0 : Keeps s0 s) : Keeps s0 (abandonRing s ri status) := by
  unfold abandonRing
  exact dropRing_keeps (tellAll_keeps ‹_›)

theorem hashGranule_keeps {s0 s : State} {ri item g : Nat} {l : List Byte} (h0 : Keeps s0 s) :
    Keeps s0 (hashGranule s ri item g l) := by
  unfold hashGranule
  extract_lets +onlyGivenNames u1
  clear_value u1
  exact State.setRing_keeps ‹_›

theorem capturePushed_keeps {s0 s : State} {ri item : Nat} (h0 : Keeps s0 s) : Keeps s0 (capturePushed s ri item) := by
  unfold capturePushed
  split
  · assumption
  · extract_lets +onlyGivenNames u1
    clear_value u1
    refine Keeps.ite (fun _ => ?_) (fun _ => ?_)
    · exact abandonRing_keeps (State.noteRead_keeps ‹_›)
    · extract_lets +onlyGivenNames u2
      have h1 : Keeps s0 u2 := by
        unfold u2
        refine Keeps.foldl ?_ ?_
        · assumption
        · intro v1 v2 v3
          exact hashGranule_keeps ‹_›
      clear_value u2
      exact markCaptured_keeps ‹_›

theorem ckpPush_keeps {s0 s : State} (h0 : Keeps s0 s) : Keeps s0 (ckpPush s) := by
  unfold ckpPush
  refine Keeps.foldl ?_ ?_
  · assumption
  · intro v1 v2 v3
    split
    · assumption
    · apply ringSettle_keeps
      refine Keeps.foldl ?_ ?_
      · assumption
      · intro v4 v5 v6
        exact capturePushed_keeps ‹_›

theorem State.addCtr_keeps {s0 s : State} {c n : Nat} (h0 : Keeps s0 s) : Keeps s0 (State.addCtr s c n) := by
  unfold State.addCtr
  refine Keeps.ite (fun _ => ?_) (fun _ => ?_)
  · assumption
  · exact ckpPush_keeps (State.wr_keeps ‹_›)

theorem State.post_keeps {s0 s : State} {glade c n : Nat} (h0 : Keeps s0 s) : Keeps s0 (State.post s glade c n) := by
  unfold State.post
  refine Keeps.ite (fun _ => ?_) (fun _ => ?_)
  · exact State.addCtr_keeps ‹_›
  · assumption

theorem State.addWait_keeps {s0 s : State} {w : Wait} (h0 : Keeps s0 s) : Keeps s0 (State.addWait s w) := by
  unfold State.addWait
  exact Keeps.upd (t := s) rfl rfl rfl ‹_›

theorem State.dropWait_keeps {s0 s : State} {w : Waiter} (h0 : Keeps s0 s) : Keeps s0 (State.dropWait s w) := by
  unfold State.dropWait
  exact Keeps.upd (t := s) rfl rfl rfl ‹_›

/-! ### Machine/TwinFrame.lean -/

theorem State.twinSend_keeps {s0 s : State} {port type addr aux : Nat} {payload : List Byte} (h0 : Keeps s0 s) :
    Keeps s0 (State.twinSend s port type addr aux payload) := by
  unfold State.twinSend
  refine Keeps.ite (fun _ => ?_) (fun _ => ?_)
  · extract_lets +onlyGivenNames u1 u2 u3 u4
    clear_value u1 u2 u3 u4
    extract_lets +onlyGivenNames u5
    have h1 : Keeps s0 u5 := Keeps.upd (t := s) rfl rfl rfl ‹_›
    clear_value u5
    exact State.emit_keeps ‹_›
  · assumption

theorem State.twinWriteSend_keeps {s0 s : State} {w : TwinWrite} (h0 : Keeps s0 s) : Keeps s0 (State.twinWriteSend s w) := by
  unfold State.twinWriteSend
  exact State.twinSend_keeps ‹_›

theorem State.twinWriteNew_keeps {s0 s : State} {type region addr : Nat} {l : List Byte} (h0 : Keeps s0 s) :
    Keeps s0 (State.twinWriteNew s type region addr l) := by
  unfold State.twinWriteNew
  extract_lets +onlyGivenNames u1 u2
  clear_value u1 u2
  extract_lets +onlyGivenNames u3
  have h1 : Keeps s0 u3 := Keeps.upd (t := s) rfl rfl rfl ‹_›
  clear_value u3
  extract_lets +onlyGivenNames u4
  have h2 : Keeps s0 u4 := by
    unfold u4
    refine Keeps.ite (fun _ => ?_) (fun _ => ?_)
    · exact State.bump_keeps ‹_›
    · assumption
  clear_value u4
  exact State.twinWriteSend_keeps ‹_›

theorem State.mirrorRange_keeps {s0 s : State} {type region a n : Nat} (h0 : Keeps s0 s) :
    Keeps s0 (State.mirrorRange s type region a n) := by
  unfold State.mirrorRange
  refine Keeps.ite (fun _ => ?_) (fun _ => ?_)
  · assumption
  · refine Keeps.foldl ?_ ?_
    · assumption
    · intro v1 v2 v3
      exact State.twinWriteNew_keeps ‹_›

/-! ### Machine/Capture.lean -/

theorem putCw_keeps {s0 s : State} {a : Nat} {l : List Byte} {cw : Nat} (h0 : Keeps s0 s) : Keeps s0 (putCw s a l cw).1 := by
  unfold putCw
  extract_lets +onlyGivenNames u1
  clear_value u1
  split
  · split
    · exact Keeps.mkFst ‹_›
    · split
      · extract_lets +onlyGivenNames u2 u3
        clear_value u2 u3
        exact Keeps.mkFst (State.store_keeps (Keeps.upd (t := s) rfl rfl rfl ‹_›))
      · split
        · extract_lets +onlyGivenNames u4 u5
          clear_value u4 u5
          exact Keeps.mkFst (Keeps.upd (t := s) rfl rfl rfl ‹_›)
        · exact Keeps.mkFst (State.store_keeps ‹_›)
  · exact Keeps.mkFst (State.store_keeps ‹_›)

theorem State.putMem_keeps {s0 s : State} {a : Nat} {l : List Byte} (h0 : Keeps s0 s) : Keeps s0 (State.putMem s a l).1 := by
  unfold State.putMem
  refine Keeps.foldlFst ?_ ?_
  · exact Keeps.mkFst ‹_›
  · intro v1 v2 v3
    extract_lets +onlyGivenNames u1
    have h1 : FstKeeps s0 u1 := by
      unfold u1
      exact FstKeeps.of (putCw_keeps ‹_›)
    clear_value u1
    exact Keeps.mkFst ‹_›

theorem itemCaptured_keeps {s0 s : State} {ri item : Nat} (h0 : Keeps s0 s) : Keeps s0 (itemCaptured s ri item) := by
  unfold itemCaptured
  split
  · assumption
  · extract_lets +onlyGivenNames u1
    have h1 : Keeps s0 u1 := markCaptured_keeps ‹_›
    clear_value u1
    extract_lets +onlyGivenNames u2
    have h2 : Keeps s0 u2 := by
      unfold u2
      refine Keeps.ite (fun _ => ?_) (fun _ => ?_)
      · exact State.post_keeps ‹_›
      · assumption
    clear_value u2
    exact ringSettle_keeps ‹_›

theorem mirrorStored_keeps {s0 s : State} {a n : Nat} (h0 : Keeps s0 s) : Keeps s0 (mirrorStored s a n) := by
  unfold mirrorStored
  split
  · refine Keeps.ite (fun _ => ?_) (fun _ => ?_)
    · exact State.mirrorRange_keeps ‹_›
    · assumption
  · assumption

theorem holdWrite_keeps {s0 s : State} {a : Nat} {l : List Byte} (h0 : Keeps s0 s) : Keeps s0 (holdWrite s a l) := by
  unfold holdWrite
  refine Keeps.ite (fun _ => ?_) (fun _ => ?_)
  · exact Keeps.upd (t := s) rfl rfl rfl ‹_›
  · refine Keeps.ite (fun _ => ?_) (fun _ => ?_)
    · exact Keeps.upd (t := s) rfl rfl rfl ‹_›
    · exact Keeps.upd (t := s) rfl rfl rfl ‹_›

theorem placeGranule_keeps {s0 s : State} {ri item g : Nat} {l : List Byte} (h0 : Keeps s0 s) :
    Keeps s0 (placeGranule s ri item g l) := by
  unfold placeGranule
  extract_lets +onlyGivenNames u1
  clear_value u1
  split
  · exact hashGranule_keeps (mirrorStored_keeps (State.putMem_keeps ‹_›))
  · exact hashGranule_keeps (holdWrite_keeps ‹_›)
  · exact abandonRing_keeps ‹_›

theorem copyGranule_keeps {s0 s : State} {ri item g : Nat} (h0 : Keeps s0 s) : Keeps s0 (copyGranule s ri item g) := by
  unfold copyGranule
  extract_lets +onlyGivenNames u1
  clear_value u1
  split
  · assumption
  · refine Keeps.ite (fun _ => ?_) (fun _ => ?_)
    · exact abandonRing_keeps (State.noteRead_keeps ‹_›)
    · extract_lets +onlyGivenNames u2
      have h1 : Keeps s0 u2 := placeGranule_keeps ‹_›
      clear_value u2
      extract_lets +onlyGivenNames u3
      clear_value u3
      extract_lets +onlyGivenNames u4
      have h2 : Keeps s0 u4 := State.setRing_keeps ‹_›
      clear_value u4
      extract_lets +onlyGivenNames u5
      have h3 : Keeps s0 u5 := State.bump_keeps ‹_›
      clear_value u5
      refine Keeps.ite (fun _ => ?_) (fun _ => ?_)
      · assumption
      · exact itemCaptured_keeps ‹_›

theorem captureBefore_keeps {s0 s : State} {a n : Nat} (h0 : Keeps s0 s) : Keeps s0 (captureBefore s a n) := by
  unfold captureBefore
  refine Keeps.foldl ?_ ?_
  · assumption
  · intro v1 v2 v3
    refine Keeps.ite (fun _ => ?_) (fun _ => ?_)
    · exact copyGranule_keeps (State.bump_keeps ‹_›)
    · assumption

theorem applyWrite_keeps {s0 s : State} {a : Nat} {l : List Byte} (h0 : Keeps s0 s) : Keeps s0 (applyWrite s a l).1 := by
  unfold applyWrite
  extract_lets +onlyGivenNames u1
  have h1 : Keeps s0 u1 := captureBefore_keeps ‹_›
  clear_value u1
  extract_lets +onlyGivenNames u2
  have h2 : FstKeeps s0 u2 := by
    unfold u2
    exact FstKeeps.of (State.putMem_keeps ‹_›)
  clear_value u2
  exact Keeps.mkFst (mirrorStored_keeps ‹_›)

theorem State.writeMem_keeps {s0 s : State} {a : Nat} {l : List Byte} (h0 : Keeps s0 s) :
    Keeps s0 (State.writeMem s a l).1 := by
  unfold State.writeMem
  split
  · exact applyWrite_keeps ‹_›
  · exact Keeps.mkFst (holdWrite_keeps ‹_›)
  · exact Keeps.mkFst ‹_›

theorem orHold_keeps {s0 s t : State} (h0 : Keeps s0 s) (h1 : Keeps s0 t) : Keeps s0 (orHold s t) := by
  unfold orHold
  refine Keeps.ite (fun _ => ?_) (fun _ => ?_)
  · assumption
  · assumption

theorem outHold_keeps {s0 s : State} {a1 : Out} (h0 : Keeps s0 s) (h1 : OutAll (Keeps s0) a1) :
    OutAll (Keeps s0) (outHold s a1) := by
  unfold outHold
  split
  · rename_i x1 x2
    refine OutAll.next ?_
    apply orHold_keeps
    · assumption
    · assumption
  · rename_i x3 x4
    assumption

theorem State.write_keeps {s0 s : State} {a : Nat} {l : List Byte} (h0 : Keeps s0 s) : Keeps s0 (State.write s a l) := by
  unfold State.write
  exact State.writeMem_keeps ‹_›

theorem State.gladeWrite_keeps {s0 s : State} {glade a : Nat} {l : List Byte} (h0 : Keeps s0 s) :
    Keeps s0 (State.gladeWrite s glade a l).1 := by
  unfold State.gladeWrite
  split
  · exact State.writeMem_keeps ‹_›
  · exact Keeps.mkFst ‹_›

theorem State.locWrite_keeps {s0 s : State} {inst : Nat} {host : Bool} {a : Nat} {l : List Byte} (h0 : Keeps s0 s) :
    Keeps s0 (State.locWrite s inst host a l) := by
  unfold State.locWrite
  refine Keeps.ite (fun _ => ?_) (fun _ => ?_)
  · exact State.hostWrite_keeps ‹_›
  · refine Keeps.ite (fun _ => ?_) (fun _ => ?_)
    · exact State.write_keeps ‹_›
    · assumption

theorem releaseWrites_keeps {s0 s : State} {l : List (Nat × List Byte)} (h0 : Keeps s0 s) : Keeps s0 (releaseWrites s l) := by
  unfold releaseWrites
  refine Keeps.foldl ?_ ?_
  · assumption
  · intro v1 v2 v3
    exact State.write_keeps ‹_›

theorem answerCw_keeps {s0 s : State} {cw : Nat} {good : Bool} (h0 : Keeps s0 s) : Keeps s0 (answerCw s cw good) := by
  unfold answerCw
  refine Keeps.ite (fun _ => ?_) (fun _ => ?_)
  · exact State.emit_keeps ‹_›
  · exact State.emit_keeps ‹_›

theorem holdAccess_keeps {s0 s : State} {h : HeldMem} (h0 : Keeps s0 s) : Keeps s0 (holdAccess s h) := by
  unfold holdAccess
  exact Keeps.upd (t := s) rfl rfl rfl ‹_›

theorem writeCw_keeps {s0 s : State} {a : Nat} {l : List Byte} (h0 : Keeps s0 s) : Keeps s0 (writeCw s a l) := by
  unfold writeCw
  split
  · exact holdAccess_keeps ‹_›
  · extract_lets +onlyGivenNames u1
    have h1 : FstKeeps s0 u1 := by
      unfold u1
      exact FstKeeps.of (State.writeMem_keeps ‹_›)
    clear_value u1
    exact State.emit_keeps ‹_›

theorem releaseAccess_keeps {s0 s : State} {h : HeldMem} (h0 : Keeps s0 s) : Keeps s0 (releaseAccess s h) := by
  unfold releaseAccess
  split
  · exact writeCw_keeps ‹_›
  · exact answerCw_keeps (State.noteRead_keeps ‹_›)

theorem retryHeld_keeps {s0 s : State} (h0 : Keeps s0 s) : Keeps s0 (retryHeld s) := by
  unfold retryHeld
  extract_lets +onlyGivenNames u1
  clear_value u1
  refine Keeps.foldl ?_ ?_
  · exact Keeps.upd (t := s) rfl rfl rfl ‹_›
  · intro v1 v2 v3
    exact releaseAccess_keeps ‹_›

/-! ### Machine/EventRings.lean -/

theorem State.setEvr_keeps {s0 s : State} {r : Nat} {x : EvrRing} (h0 : Keeps s0 s) : Keeps s0 (State.setEvr s r x) := by
  unfold State.setEvr
  exact Keeps.upd (t := s) rfl rfl rfl ‹_›

theorem evrStore_keeps {s0 s : State} {r a : Nat} {l : List Byte} (h0 : Keeps s0 s) : Keeps s0 (evrStore s r a l) := by
  unfold evrStore
  refine Keeps.ite (fun _ => ?_) (fun _ => ?_)
  · exact State.emit_keeps ‹_›
  · exact State.write_keeps ‹_›

theorem evrPut_keeps {s0 s : State} {r : Nat} {e : EventRec} (h0 : Keeps s0 s) : Keeps s0 (evrPut s r e) := by
  unfold evrPut
  extract_lets +onlyGivenNames u1
  clear_value u1
  extract_lets +onlyGivenNames u2
  have h1 : Keeps s0 u2 := evrStore_keeps ‹_›
  clear_value u2
  exact State.wr_keeps ‹_›

theorem evrDrop_keeps {s0 s : State} {r : Nat} (h0 : Keeps s0 s) : Keeps s0 (evrDrop s r) := by
  unfold evrDrop
  extract_lets +onlyGivenNames u1
  have h1 : Keeps s0 u1 := State.bump_keeps ‹_›
  clear_value u1
  exact State.setEvr_keeps ‹_›

theorem evrNotify_keeps {s0 s : State} {r : Nat} (h0 : Keeps s0 s) : Keeps s0 (evrNotify s r) := by
  unfold evrNotify
  extract_lets +onlyGivenNames u1
  have h1 : Keeps s0 u1 := by
    unfold u1
    refine Keeps.ite (fun _ => ?_) (fun _ => ?_)
    · exact evrStore_keeps ‹_›
    · assumption
  clear_value u1
  extract_lets +onlyGivenNames u2 u3 u4
  clear_value u2 u3 u4
  split
  · extract_lets +onlyGivenNames u5
    have h2 : Keeps s0 u5 := State.msix_keeps ‹_›
    clear_value u5
    exact State.setEvr_keeps ‹_›
  · exact State.setEvr_keeps ‹_›

theorem evrRefused_keeps {s0 s : State} {r : Nat} (h0 : Keeps s0 s) : Keeps s0 (evrRefused s r).2 := by
  unfold evrRefused
  split
  · exact State.hostRefuses_keeps ‹_›
  · exact Keeps.mkSnd ‹_›

theorem evrPayOwed_keeps {s0 s : State} {r : Nat} (h0 : Keeps s0 s) : Keeps s0 (evrPayOwed s r) := by
  unfold evrPayOwed
  refine Keeps.ite (fun _ => ?_) (fun _ => ?_)
  · extract_lets +onlyGivenNames u1
    have h1 : SndKeeps s0 u1 := by
      unfold u1
      exact SndKeeps.of (evrRefused_keeps ‹_›)
    clear_value u1
    refine Keeps.ite (fun _ => ?_) (fun _ => ?_)
    · assumption
    · extract_lets +onlyGivenNames u2
      have h2 : Keeps s0 u2 := evrPut_keeps ‹_›
      clear_value u2
      exact State.setEvr_keeps ‹_›
  · assumption

theorem evrWrite_keeps {s0 s : State} {e : EventRec} {r : Nat} (h0 : Keeps s0 s) : Keeps s0 (evrWrite s e r) := by
  unfold evrWrite
  refine Keeps.ite (fun _ => ?_) (fun _ => ?_)
  · extract_lets +onlyGivenNames u1
    have h1 : Keeps s0 u1 := evrPayOwed_keeps ‹_›
    clear_value u1
    refine Keeps.ite (fun _ => ?_) (fun _ => ?_)
    · extract_lets +onlyGivenNames u2
      have h2 : SndKeeps s0 u2 := by
        unfold u2
        exact SndKeeps.of (evrRefused_keeps ‹_›)
      clear_value u2
      refine Keeps.ite (fun _ => ?_) (fun _ => ?_)
      · exact evrDrop_keeps ‹_›
      · exact evrNotify_keeps (evrPut_keeps ‹_›)
    · exact evrDrop_keeps ‹_›
  · exact evrDrop_keeps ‹_›

theorem evrDisable_keeps {s0 s : State} {r : Nat} (h0 : Keeps s0 s) : Keeps s0 (evrDisable s r) := by
  unfold evrDisable
  extract_lets +onlyGivenNames u1 u2
  clear_value u1 u2
  extract_lets +onlyGivenNames u3
  have h1 : Keeps s0 u3 := Keeps.upd (t := s) rfl rfl rfl ‹_›
  clear_value u3
  extract_lets +onlyGivenNames u4
  have h2 : Keeps s0 u4 := State.wr_keeps ‹_›
  clear_value u4
  refine Keeps.foldl ?_ ?_
  · assumption
  · intro v1 v2 v3
    exact evrDrop_keeps ‹_›

theorem evrEnable_keeps {s0 s : State} {r : Nat} (h0 : Keeps s0 s) : Keeps s0 (evrEnable s r) := by
  unfold evrEnable
  extract_lets +onlyGivenNames u1
  have h1 : Keeps s0 u1 := State.wr_keeps (State.wr_keeps ‹_›)
  clear_value u1
  extract_lets +onlyGivenNames u2
  have h2 : Keeps s0 u2 := State.wr_keeps ‹_›
  clear_value u2
  extract_lets +onlyGivenNames u3
  clear_value u3
  extract_lets +onlyGivenNames u4
  have h3 : Keeps s0 u4 := evrPayOwed_keeps ‹_›
  clear_value u4
  refine Keeps.ite (fun _ => ?_) (fun _ => ?_)
  · exact evrNotify_keeps ‹_›
  · assumption

theorem evrHead_keeps {s0 s : State} {r h : Nat} (h0 : Keeps s0 s) : Keeps s0 (evrHead s r h) := by
  unfold evrHead
  extract_lets +onlyGivenNames u1
  have h1 : Keeps s0 u1 := State.wr_keeps ‹_›
  clear_value u1
  extract_lets +onlyGivenNames u2
  clear_value u2
  extract_lets +onlyGivenNames u3
  have h2 : Keeps s0 u3 := evrPayOwed_keeps ‹_›
  clear_value u3
  refine Keeps.ite (fun _ => ?_) (fun _ => ?_)
  · exact evrNotify_keeps ‹_›
  · assumption

/-! ### Machine/Entries.lean -/

theorem State.queueMsix_keeps {s0 s : State} {qid : Nat} (h0 : Keeps s0 s) : Keeps s0 (State.queueMsix s qid) := by
  unfold State.queueMsix
  extract_lets +onlyGivenNames u1
  clear_value u1
  refine Keeps.ite (fun _ => ?_) (fun _ => ?_)
  · extract_lets +onlyGivenNames u2 u3
    clear_value u2 u3
    extract_lets +onlyGivenNames u4
    have h1 : ∀ a00 a01, Keeps s0 a00 → Keeps s0 (u4 a00 a01) := by
      unfold u4
      intro v1 v2 v3
      exact Keeps.upd (t := v1) rfl rfl rfl ‹_›
    clear_value u4
    refine Keeps.ite (fun _ => ?_) (fun _ => ?_)
    · exact State.msix_keeps ‹_›
    · split
      · apply h1
        exact State.msix_keeps ‹_›
      · split
        · assumption
        · apply h1
          assumption
  · exact State.msix_keeps ‹_›

theorem enqueueResponse_keeps {s0 s : State} {d : Nat} {p : Pkt} (h0 : Keeps s0 s) : Keeps s0 (enqueueResponse s d p) := by
  unfold enqueueResponse
  exact Keeps.upd (t := s) rfl rfl rfl ‹_›

theorem State.tell_keeps {s0 s : State} {a1 : Tell} (h0 : Keeps s0 s) : Keeps s0 (State.tell s a1) := by
  unfold State.tell
  split
  · exact enqueueResponse_keeps ‹_›
  · split
    · exact State.complete_keeps ‹_›
    · assumption

theorem tellSender_keeps {s0 s : State} {t : Option Tell} (h0 : Keeps s0 s) : Keeps s0 (tellSender s t) := by
  unfold tellSender
  split
  · exact State.tell_keeps ‹_›
  · assumption

theorem tellWhenWritten_keeps {s0 s : State} {qid entry : Nat} {t : Tell} (h0 : Keeps s0 s) :
    Keeps s0 (tellWhenWritten s qid entry t) := by
  unfold tellWhenWritten
  extract_lets +onlyGivenNames u1
  clear_value u1
  exact State.setQueue_keeps ‹_›

theorem dropTells_keeps {s0 s : State} {pick : Tell → Bool} (h0 : Keeps s0 s) : Keeps s0 (dropTells s pick) := by
  unfold dropTells
  refine Keeps.foldl ?_ ?_
  · assumption
  · intro v1 v2 v3
    split
    · extract_lets +onlyGivenNames u1
      clear_value u1
      exact State.setQueue_keeps ‹_›
    · assumption

theorem State.writeEntry_keeps {s0 s : State} {qid : Nat} (h0 : Keeps s0 s) : Keeps s0 (State.writeEntry s qid) := by
  unfold State.writeEntry
  extract_lets +onlyGivenNames u1
  clear_value u1
  split
  · assumption
  · refine Keeps.ite (fun _ => ?_) (fun _ => ?_)
    · extract_lets +onlyGivenNames u2
      have h1 : Keeps s0 u2 := State.locWrite_keeps ‹_›
      clear_value u2
      extract_lets +onlyGivenNames u3 u4
      clear_value u3 u4
      extract_lets +onlyGivenNames u5
      have h2 : Keeps s0 u5 := State.setQueue_keeps ‹_›
      clear_value u5
      extract_lets +onlyGivenNames u6
      have h3 : Keeps s0 u6 := by
        unfold u6
        refine Keeps.ite (fun _ => ?_) (fun _ => ?_)
        · exact State.queueMsix_keeps ‹_›
        · assumption
      clear_value u6
      extract_lets +onlyGivenNames u7
      have h4 : Keeps s0 u7 := by
        unfold u7
        split
        · exact State.post_keeps ‹_›
        · assumption
      clear_value u7
      exact tellSender_keeps ‹_›
    · exact tellSender_keeps (State.setQueue_keeps (State.bump_keeps ‹_›))

theorem State.writeEntries_keeps {s0 s : State} {qid : Nat} (h0 : Keeps s0 s) : Keeps s0 (State.writeEntries s qid) := by
  unfold State.writeEntries
  refine Keeps.foldl ?_ ?_
  · assumption
  · intro v1 v2 v3
    exact State.writeEntry_keeps ‹_›

theorem State.completeAll_keeps {s0 s : State} {qid status mid : Nat} (h0 : Keeps s0 s) :
    Keeps s0 (State.completeAll s qid status mid) := by
  unfold State.completeAll
  refine Keeps.foldl ?_ ?_
  · assumption
  · intro v1 v2 v3
    exact State.complete_keeps ‹_›

theorem completeQueued_keeps {s0 s : State} {qid status mid : Nat} (h0 : Keeps s0 s) :
    Keeps s0 (completeQueued s qid status mid) := by
  unfold completeQueued
  extract_lets +onlyGivenNames u1
  clear_value u1
  extract_lets +onlyGivenNames u2
  have h1 : SndKeeps s0 u2 := by
    unfold u2
    refine SndKeeps.of ?_
    split
    · exact State.freeBytes_keeps ‹_›
    · exact Keeps.mkSnd ‹_›
  clear_value u2
  extract_lets +onlyGivenNames u3
  clear_value u3
  extract_lets +onlyGivenNames u4
  have h2 : Keeps s0 u4 := State.setQueue_keeps ‹_›
  clear_value u4
  exact State.complete_keeps ‹_›

theorem completeRing_keeps {s0 s : State} {qid status mid : Nat} (h0 : Keeps s0 s) :
    Keeps s0 (completeRing s qid status mid) := by
  unfold completeRing
  refine Keeps.foldl ?_ ?_
  · assumption
  · intro v1 v2 v3
    exact completeQueued_keeps ‹_›

theorem restartRings_keeps {s0 s : State} {qid : Nat} (h0 : Keeps s0 s) : Keeps s0 (restartRings s qid) := by
  unfold restartRings
  exact State.setQueue_keeps ‹_›

theorem recordTail_keeps {s0 s : State} {qid tail : Nat} (h0 : Keeps s0 s) : Keeps s0 (recordTail s qid tail) := by
  unfold recordTail
  extract_lets +onlyGivenNames u1
  clear_value u1
  refine Keeps.ite (fun _ => ?_) (fun _ => ?_)
  · exact State.setQueue_keeps ‹_›
  · exact State.setQueue_keeps ‹_›

end Sys2Proof.Machine
end

