-- ==== Sys2Proof/Laws/KeepsTiles.lean ====
section
/-! SUPPORT. What the operations of the matrix tiles and of their pools keep: the waiting commands and the canonical form. One
lemma for each operation. -/
namespace Sys2Proof.Machine

open Sys2Proof

/-! ### Machine/TileOps.lean -/

theorem State.setTile_keeps {s0 s : State} {n : Nat} {t : Tile} (h0 : Keeps s0 s) : Keeps s0 (State.setTile s n t) := by
  unfold State.setTile
  exact Keeps.upd (t := s) rfl rfl rfl ‹_›

theorem padRead_keeps {s0 s : State} {n a len : Nat} (h0 : Keeps s0 s) : Keeps s0 (padRead s n a len).2 := by
  unfold padRead
  split
  · exact Keeps.mkSnd ‹_›
  · extract_lets +onlyGivenNames u1 u2
    clear_value u1 u2
    exact Keeps.mkSnd (Keeps.upd (t := s) rfl rfl rfl ‹_›)

theorem padWrite_keeps {s0 s : State} {n a : Nat} {l : List Byte} (h0 : Keeps s0 s) : Keeps s0 (padWrite s n a l) := by
  unfold padWrite
  exact State.store_keeps ‹_›

theorem cancelSlot_keeps {s0 s : State} {n k : Nat} (h0 : Keeps s0 s) : Keeps s0 (cancelSlot s n k) := by
  unfold cancelSlot
  split
  · exact State.setTile_keeps ‹_›
  · extract_lets +onlyGivenNames u1
    have h1 : SndKeeps s0 u1 := by
      unfold u1
      exact SndKeeps.of (State.freeWord_keeps ‹_›)
    clear_value u1
    extract_lets +onlyGivenNames u2 u3
    clear_value u2 u3
    extract_lets +onlyGivenNames u4
    have h2 : Keeps s0 u4 := by
      unfold u4
      refine Keeps.ite (fun _ => ?_) (fun _ => ?_)
      · exact State.write_keeps ‹_›
      · exact padWrite_keeps ‹_›
    clear_value u4
    exact State.setTile_keeps ‹_›

theorem cancelSlots_keeps {s0 s : State} {n : Nat} (h0 : Keeps s0 s) : Keeps s0 (cancelSlots s n) := by
  unfold cancelSlots
  refine Keeps.foldl ?_ ?_
  · assumption
  · intro v1 v2 v3
    exact cancelSlot_keeps ‹_›

theorem stopProgram_keeps {s0 s : State} {n : Nat} (h0 : Keeps s0 s) : Keeps s0 (stopProgram s n) := by
  unfold stopProgram
  extract_lets +onlyGivenNames u1
  have h1 : Keeps s0 u1 := cancelSlots_keeps ‹_›
  clear_value u1
  extract_lets +onlyGivenNames u2
  clear_value u2
  extract_lets +onlyGivenNames u3
  have h2 : Keeps s0 u3 := State.setTile_keeps ‹_›
  clear_value u3
  extract_lets +onlyGivenNames u4
  have h3 : Keeps s0 u4 := State.dropWait_keeps ‹_›
  clear_value u4
  exact State.wr_keeps ‹_›

theorem raiseFault_keeps {s0 s : State} {n q fault pc tag : Nat} (h0 : Keeps s0 s) :
    Keeps s0 (raiseFault s n q fault pc tag) := by
  unfold raiseFault
  exact State.raise_keeps ‹_›

theorem failCommand_keeps {s0 s : State} {i : Nat} {c : Cmd} {fault pc : Nat} (h0 : Keeps s0 s) :
    Keeps s0 (failCommand s i c fault pc) := by
  unfold failCommand
  extract_lets +onlyGivenNames u1
  have h1 : Keeps s0 u1 := State.complete_keeps ‹_›
  clear_value u1
  exact raiseFault_keeps ‹_›

theorem tileFault_keeps {s0 s : State} {n fault : Nat} (h0 : Keeps s0 s) : Keeps s0 (tileFault s n fault) := by
  unfold tileFault
  extract_lets +onlyGivenNames u1
  clear_value u1
  split
  · assumption
  · extract_lets +onlyGivenNames u2
    have h1 : Keeps s0 u2 := stopProgram_keeps ‹_›
    clear_value u2
    split
    · exact failCommand_keeps ‹_›
    · assumption

theorem tileAdvance_keeps {s0 s : State} {n : Nat} (h0 : Keeps s0 s) : Keeps s0 (tileAdvance s n) := by
  unfold tileAdvance
  extract_lets +onlyGivenNames u1
  clear_value u1
  refine Keeps.ite (fun _ => ?_) (fun _ => ?_)
  · exact tileFault_keeps ‹_›
  · exact State.wr_keeps (State.setTile_keeps ‹_›)

theorem tileJump_keeps {s0 s : State} {n target : Nat} (h0 : Keeps s0 s) : Keeps s0 (tileJump s n target) := by
  unfold tileJump
  exact State.wr_keeps (State.setTile_keeps ‹_›)

theorem tileWait_keeps {s0 s : State} {n : Nat} (h0 : Keeps s0 s) : Keeps s0 (tileWait s n) := by
  unfold tileWait
  exact State.wr_keeps ‹_›

theorem tileStall_keeps {s0 s : State} {n : Nat} (h0 : Keeps s0 s) : Keeps s0 (tileStall s n) := by
  unfold tileStall
  exact State.wr_keeps ‹_›

theorem tileIssue_keeps {s0 s : State} {n op : Nat} {checks : Tile → Nat → List Check} {body : State → Nat → State}
    (h0 : Keeps s0 s) (h4 : ∀ a00 a01, Keeps s0 a00 → Keeps s0 (body a00 a01)) : Keeps s0 (tileIssue s n op checks body) := by
  unfold tileIssue
  split
  · assumption
  · refine Keeps.ite (fun _ => ?_) (fun _ => ?_)
    · extract_lets +onlyGivenNames u1
      have h1 : Keeps s0 u1 := State.wr_keeps ‹_›
      clear_value u1
      split
      · exact tileFault_keeps ‹_›
      · apply h4
        assumption
    · refine Keeps.ite (fun _ => ?_) (fun _ => ?_)
      · assumption
      · exact tileFault_keeps (State.wr_keeps ‹_›)

theorem setFlags_keeps {s0 s : State} {n fl : Nat} (h0 : Keeps s0 s) : Keeps s0 (setFlags s n fl) := by
  unfold setFlags
  extract_lets +onlyGivenNames u1
  clear_value u1
  exact State.setReg_keeps ‹_›

theorem srAdvance_keeps {s0 s : State} {n : Nat} {sr : Bool} (h0 : Keeps s0 s) : Keeps s0 (srAdvance s n sr) := by
  unfold srAdvance
  refine Keeps.ite (fun _ => ?_) (fun _ => ?_)
  · exact State.wr_keeps ‹_›
  · assumption

theorem seedWrite_keeps {s0 s : State} {n v : Nat} (h0 : Keeps s0 s) : Keeps s0 (seedWrite s n v) := by
  unfold seedWrite
  exact State.wr_keeps (State.wr_keeps ‹_›)

/-! ### Machine/TileControl.lean -/

theorem afterSlots_keeps {s0 s : State} {n mask : Nat} {wait : State → Nat → State} {k : State → State}
    (h0 : Keeps s0 s) (h3 : ∀ a00 a01, Keeps s0 a00 → Keeps s0 (wait a00 a01))
    (h4 : ∀ a00, Keeps s0 a00 → Keeps s0 (k a00)) : Keeps s0 (afterSlots s n mask wait k) := by
  unfold afterSlots
  extract_lets +onlyGivenNames u1
  clear_value u1
  refine Keeps.ite (fun _ => ?_) (fun _ => ?_)
  · apply h3
    assumption
  · refine Keeps.ite (fun _ => ?_) (fun _ => ?_)
    · exact tileFault_keeps ‹_›
    · apply h4
      assumption

theorem endProgram_keeps {s0 s : State} {n : Nat} (h0 : Keeps s0 s) : Keeps s0 (endProgram s n) := by
  unfold endProgram
  split
  · assumption
  · extract_lets +onlyGivenNames u1
    have h1 : Keeps s0 u1 := stopProgram_keeps ‹_›
    clear_value u1
    split
    · exact State.complete_keeps ‹_›
    · assumption

theorem tileWaitOn_keeps {s0 s : State} {n : Nat} {on : WaitOn} {target : Nat} (h0 : Keeps s0 s) :
    Keeps s0 (tileWaitOn s n on target) := by
  unfold tileWaitOn
  refine Keeps.ite (fun _ => ?_) (fun _ => ?_)
  · exact tileAdvance_keeps ‹_›
  · exact tileWait_keeps (State.addWait_keeps ‹_›)

/-! ### Machine/TileMath.lean -/

theorem blockAt_keeps {s0 s : State} {n w : Nat} (h0 : Keeps s0 s) : Keeps s0 (blockAt s n w).2 := by
  unfold blockAt
  extract_lets +onlyGivenNames u1 u2
  clear_value u1 u2
  extract_lets +onlyGivenNames u3
  have h1 : SndKeeps s0 u3 := by
    unfold u3
    exact SndKeeps.of (padRead_keeps ‹_›)
  clear_value u3
  extract_lets +onlyGivenNames u4
  have h2 : SndKeeps s0 u4 := by
    unfold u4
    exact SndKeeps.of (padRead_keeps ‹_›)
  clear_value u4
  extract_lets +onlyGivenNames u5
  have h3 : SndKeeps s0 u5 := by
    unfold u5
    exact SndKeeps.of (padRead_keeps ‹_›)
  clear_value u5
  exact Keeps.mkSnd ‹_›

/-! ### Machine/TileCommands.lean -/

theorem qctrlFields_keeps {s0 s : State} {i v : Nat} (h0 : Keeps s0 s) : Keeps s0 (qctrlFields s i v) := by
  unfold qctrlFields
  exact State.wrs_keeps ‹_›

theorem tileEnable_keeps {s0 s : State} {i : Nat} (h0 : Keeps s0 s) : Keeps s0 (tileEnable s i) := by
  unfold tileEnable
  extract_lets +onlyGivenNames u1
  have h1 : Keeps s0 u1 := State.wr_keeps ‹_›
  clear_value u1
  refine Keeps.ite (fun _ => ?_) (fun _ => ?_)
  · assumption
  · exact State.setQueue_keeps ‹_›

theorem execTileQueueEnable_keeps {s0 : State} {i : Fin 512} {v : BitVec 64} {s : State} (h2 : Keeps s0 s) :
    OutAll (Keeps s0) (execTileQueueEnable i v s) := by
  unfold execTileQueueEnable
  apply onTile_keeps
  · assumption
  · split
    · exact OutAll.next ‹_›
    · extract_lets +onlyGivenNames u1
      have h1 : Keeps s0 u1 := qctrlFields_keeps ‹_›
      clear_value u1
      split
      · exact OutAll.next (tileEnable_keeps ‹_›)
      · exact OutAll.next ‹_›

theorem tileDisable_keeps {s0 s : State} {i : Nat} (h0 : Keeps s0 s) : Keeps s0 (tileDisable s i) := by
  unfold tileDisable
  extract_lets +onlyGivenNames u1
  have h1 : Keeps s0 u1 := State.wr_keeps ‹_›
  clear_value u1
  extract_lets +onlyGivenNames u2
  clear_value u2
  refine Keeps.ite (fun _ => ?_) (fun _ => ?_)
  · exact State.setQueue_keeps ‹_›
  · assumption

theorem tileQueueReset_keeps {s0 s : State} {i status : Nat} (h0 : Keeps s0 s) : Keeps s0 (tileQueueReset s i status) := by
  unfold tileQueueReset
  extract_lets +onlyGivenNames u1
  clear_value u1
  refine Keeps.ite (fun _ => ?_) (fun _ => ?_)
  · assumption
  · extract_lets +onlyGivenNames u2
    have h1 : Keeps s0 u2 := State.setQueue_keeps ‹_›
    clear_value u2
    extract_lets +onlyGivenNames u3
    have h2 : Keeps s0 u3 := by
      unfold u3
      refine Keeps.ite (fun _ => ?_) (fun _ => ?_)
      · exact stopProgram_keeps ‹_›
      · assumption
    clear_value u3
    exact State.completeAll_keeps ‹_›

theorem tileResume_keeps {s0 s : State} {i : Nat} (h0 : Keeps s0 s) : Keeps s0 (tileResume s i) := by
  unfold tileResume
  extract_lets +onlyGivenNames u1
  clear_value u1
  refine Keeps.ite (fun _ => ?_) (fun _ => ?_)
  · exact State.setQueue_keeps ‹_›
  · assumption

theorem tileFetched_keeps {s0 s : State} {i : Nat} {l : List Byte} {status : Nat} (h0 : Keeps s0 s) :
    Keeps s0 (tileFetched s i l status) := by
  unfold tileFetched
  extract_lets +onlyGivenNames u1 u2
  clear_value u1 u2
  extract_lets +onlyGivenNames u3
  have h1 : Keeps s0 u3 := State.setQueue_keeps ‹_›
  clear_value u3
  extract_lets +onlyGivenNames u4
  have h2 : Keeps s0 u4 := State.setTile_keeps ‹_›
  clear_value u4
  refine Keeps.ite (fun _ => ?_) (fun _ => ?_)
  · exact State.complete_keeps ‹_›
  · refine Keeps.ite (fun _ => ?_) (fun _ => ?_)
    · exact State.complete_keeps ‹_›
    · split
      · exact failCommand_keeps ‹_›
      · assumption

/-! ### Machine/Pools.lean -/

theorem refreshPools_keeps {s0 s : State} (h0 : Keeps s0 s) : Keeps s0 (refreshPools s) := by
  unfold refreshPools
  extract_lets +onlyGivenNames u1
  clear_value u1
  extract_lets +onlyGivenNames u2
  have h1 : Keeps s0 u2 := by
    unfold u2
    refine Keeps.foldl ?_ ?_
    · assumption
    · intro v1 v2 v3
      exact State.wr_keeps ‹_›
  clear_value u2
  extract_lets +onlyGivenNames u3
  have h2 : Keeps s0 u3 := State.wr_keeps ‹_›
  clear_value u3
  extract_lets +onlyGivenNames u4
  clear_value u4
  extract_lets +onlyGivenNames u5
  have h3 : Keeps s0 u5 := Keeps.upd (t := u3) rfl rfl rfl ‹_›
  clear_value u5
  refine Keeps.foldl ?_ ?_
  · assumption
  · intro v4 v5 v6
    exact State.raiseUnit_keeps ‹_›

theorem take_keeps {s0 s : State} {p : Pool} {g n : Nat} (h0 : Keeps s0 s) : Keeps s0 (take s p g n) := by
  unfold take
  exact refreshPools_keeps (State.wr_keeps ‹_›)

theorem give_keeps {s0 s : State} {p : Pool} {g n : Nat} (h0 : Keeps s0 s) : Keeps s0 (give s p g n) := by
  unfold give
  exact refreshPools_keeps (State.wr_keeps ‹_›)

end Sys2Proof.Machine
end

