-- ==== Sys2Proof/Laws/KeepsNetwork.lean ====
section
/-! SUPPORT. What the operations of the memory space, the transport, the decode engine, the Understory and the schedulers keep: the waiting commands and the canonical form. One
lemma for each operation. -/
namespace Sys2Proof.Machine

open Sys2Proof

/-! ### Machine/Saloa.lean -/

theorem State.setRegEntry_keeps {s0 s : State} {i : Nat} {e : RegEntry} (h0 : Keeps s0 s) :
    Keeps s0 (State.setRegEntry s i e) := by
  unfold State.setRegEntry
  exact State.putMem_keeps ‹_›

theorem remoteDenied_keeps {s0 s : State} {quad dev ftn check : Nat} (h0 : Keeps s0 s) :
    Keeps s0 (remoteDenied s quad dev ftn check) := by
  unfold remoteDenied
  extract_lets +onlyGivenNames u1
  have h1 : Keeps s0 u1 := State.bump_keeps ‹_›
  clear_value u1
  refine Keeps.ite (fun _ => ?_) (fun _ => ?_)
  · exact State.raiseUnit_keeps (State.noteRaised_keeps ‹_›)
  · assumption

theorem pdUse_keeps {s0 s : State} {pd : Nat} (h0 : Keeps s0 s) : Keeps s0 (pdUse s pd) := by
  unfold pdUse
  exact State.wr_keeps ‹_›

theorem pdRelease_keeps {s0 s : State} {pd : Nat} (h0 : Keeps s0 s) : Keeps s0 (pdRelease s pd) := by
  unfold pdRelease
  exact State.wr_keeps ‹_›

theorem removeReg_keeps {s0 s : State} {i : Nat} (h0 : Keeps s0 s) : Keeps s0 (removeReg s i) := by
  unfold removeReg
  extract_lets +onlyGivenNames u1
  clear_value u1
  refine Keeps.ite (fun _ => ?_) (fun _ => ?_)
  · exact pdRelease_keeps (State.setRegEntry_keeps ‹_›)
  · assumption

theorem noteLookup_keeps {s0 s : State} {key : Nat} (h0 : Keeps s0 s) : Keeps s0 (noteLookup s key) := by
  unfold noteLookup
  refine Keeps.ite (fun _ => ?_) (fun _ => ?_)
  · extract_lets +onlyGivenNames u1
    have h1 : SndKeeps s0 u1 := by
      unfold u1
      exact SndKeeps.of (State.freeBit_keeps ‹_›)
    clear_value u1
    refine Keeps.ite (fun _ => ?_) (fun _ => ?_)
    · exact State.bump_keeps ‹_›
    · assumption
  · assumption

theorem removeRegsIn_keeps {s0 s : State} {a n : Nat} (h0 : Keeps s0 s) : Keeps s0 (removeRegsIn s a n) := by
  unfold removeRegsIn
  refine Keeps.foldl ?_ ?_
  · assumption
  · intro v1 v2 v3
    exact removeReg_keeps ‹_›

theorem gladeAtomic_keeps {s0 s : State} {glade a : Nat} {f : Nat → Nat} (h0 : Keeps s0 s) :
    Keeps s0 (gladeAtomic s glade a f).1 := by
  unfold gladeAtomic
  split
  · exact Keeps.mkFst ‹_›
  · extract_lets +onlyGivenNames u1
    clear_value u1
    split
    · extract_lets +onlyGivenNames u2
      clear_value u2
      extract_lets +onlyGivenNames u3
      have h1 : FstKeeps s0 u3 := by
        unfold u3
        exact FstKeeps.of (State.gladeWrite_keeps ‹_›)
      clear_value u3
      exact Keeps.mkFst ‹_›
    · exact Keeps.mkFst (State.noteStatus_keeps ‹_›)

theorem rktWrite_keeps {s0 s : State} {v : Nat} (h0 : Keeps s0 s) : Keeps s0 (rktWrite s v) := by
  unfold rktWrite
  extract_lets +onlyGivenNames u1
  clear_value u1
  extract_lets +onlyGivenNames u2
  have h1 : Keeps s0 u2 := by
    unfold u2
    refine Keeps.ite (fun _ => ?_) (fun _ => ?_)
    · assumption
    · exact State.wrs_keeps ‹_›
  clear_value u2
  refine Keeps.ite (fun _ => ?_) (fun _ => ?_)
  · extract_lets +onlyGivenNames u3 u4
    clear_value u3 u4
    refine Keeps.ite (fun _ => ?_) (fun _ => ?_)
    · exact State.wr_keeps ‹_›
    · assumption
  · refine Keeps.ite (fun _ => ?_) (fun _ => ?_)
    · exact State.wr_keeps ‹_›
    · assumption

theorem execPdWrite_keeps {s0 : State} {p : Fin 4096} {v : BitVec 64} {s : State} (h2 : Keeps s0 s) :
    OutAll (Keeps s0) (execPdWrite p v s) := by
  unfold execPdWrite
  apply unlessNoImage_keeps
  · assumption
  · extract_lets +onlyGivenNames u1
    have h1 : Keeps s0 u1 := by
      unfold u1
      refine Keeps.ite (fun _ => ?_) (fun _ => ?_)
      · assumption
      · exact State.wr_keeps ‹_›
    clear_value u1
    split
    · exact OutAll.next (State.wr_keeps ‹_›)
    · split
      · exact OutAll.next (State.wr_keeps ‹_›)
      · exact OutAll.next ‹_›

theorem execFtnWrite_keeps {s0 : State} {g : Fin 256} {v : BitVec 16} {s : State} (h2 : Keeps s0 s) :
    OutAll (Keeps s0) (execFtnWrite g v s) := by
  unfold execFtnWrite
  apply unlessNoImage_keeps
  · assumption
  · split
    · exact OutAll.next ‹_›
    · exact OutAll.next (State.wr_keeps ‹_›)

/-! ### Machine/Transport.lean -/

theorem refreshCtx_keeps {s0 s : State} {q : Nat} (h0 : Keeps s0 s) : Keeps s0 (refreshCtx s q) := by
  unfold refreshCtx
  extract_lets +onlyGivenNames u1
  clear_value u1
  exact State.wrs_keeps ‹_›

theorem refreshPeerStat_keeps {s0 s : State} (h0 : Keeps s0 s) : Keeps s0 (refreshPeerStat s) := by
  unfold refreshPeerStat
  extract_lets +onlyGivenNames u1 u2
  clear_value u1 u2
  exact State.wrs_keeps ‹_›

theorem State.setPeer_keeps {s0 s : State} {d : Nat} {x : Peer} (h0 : Keeps s0 s) : Keeps s0 (State.setPeer s d x) := by
  unfold State.setPeer
  extract_lets +onlyGivenNames u1
  have h1 : Keeps s0 u1 := Keeps.upd (t := s) rfl rfl rfl ‹_›
  clear_value u1
  extract_lets +onlyGivenNames u2
  have h2 : Keeps s0 u2 := refreshCtx_keeps ‹_›
  clear_value u2
  refine Keeps.ite (fun _ => ?_) (fun _ => ?_)
  · exact refreshPeerStat_keeps ‹_›
  · assumption

theorem setCache_keeps {s0 s : State} {q : Nat} {l : List CtxKey} (h0 : Keeps s0 s) : Keeps s0 (setCache s q l) := by
  unfold setCache
  exact refreshPeerStat_keeps (refreshCtx_keeps (Keeps.upd (t := s) rfl rfl rfl ‹_›))

theorem ctxPlace_keeps {s0 s : State} (h0 : Keeps s0 s) : Keeps s0 (ctxPlace s).2 := by
  unfold ctxPlace
  extract_lets +onlyGivenNames u1
  have h1 : SndKeeps s0 u1 := by
    unfold u1
    exact SndKeeps.of (State.freeWord_keeps ‹_›)
  clear_value u1
  exact Keeps.mkSnd ‹_›

theorem ctxFetch_keeps {s0 s : State} (h0 : Keeps s0 s) : Keeps s0 (ctxFetch s) := by
  unfold ctxFetch
  refine Keeps.ite (fun _ => ?_) (fun _ => ?_)
  · extract_lets +onlyGivenNames u1
    have h1 : SndKeeps s0 u1 := by
      unfold u1
      exact SndKeeps.of (ctxPlace_keeps ‹_›)
    clear_value u1
    exact State.hostReadOne_keeps ‹_›
  · assumption

theorem ctxWriteBack_keeps {s0 s : State} (h0 : Keeps s0 s) : Keeps s0 (ctxWriteBack s) := by
  unfold ctxWriteBack
  extract_lets +onlyGivenNames u1
  have h1 : SndKeeps s0 u1 := by
    unfold u1
    exact SndKeeps.of (State.freeBit_keeps ‹_›)
  clear_value u1
  refine Keeps.ite (fun _ => ?_) (fun _ => ?_)
  · extract_lets +onlyGivenNames u2
    have h2 : SndKeeps s0 u2 := by
      unfold u2
      exact SndKeeps.of (ctxPlace_keeps ‹_›)
    clear_value u2
    extract_lets +onlyGivenNames u3
    have h3 : SndKeeps s0 u3 := by
      unfold u3
      exact SndKeeps.of (State.freeBytes_keeps ‹_›)
    clear_value u3
    refine Keeps.ite (fun _ => ?_) (fun _ => ?_)
    · refine Keeps.ite (fun _ => ?_) (fun _ => ?_)
      · exact State.emit_keeps ‹_›
      · assumption
    · exact State.putMem_keeps ‹_›
  · assumption

theorem placeCtx_keeps {s0 s : State} {k : CtxKey} (h0 : Keeps s0 s) : Keeps s0 (placeCtx s k) := by
  unfold placeCtx
  extract_lets +onlyGivenNames u1 u2
  clear_value u1 u2
  refine Keeps.ite (fun _ => ?_) (fun _ => ?_)
  · exact setCache_keeps ‹_›
  · refine Keeps.ite (fun _ => ?_) (fun _ => ?_)
    · exact setCache_keeps ‹_›
    · split
      · exact setCache_keeps (ctxWriteBack_keeps ‹_›)
      · assumption

theorem touchCtx_keeps {s0 s : State} {k : CtxKey} (h0 : Keeps s0 s) : Keeps s0 (touchCtx s k) := by
  unfold touchCtx
  refine Keeps.ite (fun _ => ?_) (fun _ => ?_)
  · exact placeCtx_keeps ‹_›
  · refine Keeps.ite (fun _ => ?_) (fun _ => ?_)
    · exact placeCtx_keeps (ctxFetch_keeps ‹_›)
    · assumption

theorem dropCtx_keeps {s0 s : State} {gone : CtxKey → Bool} (h0 : Keeps s0 s) : Keeps s0 (dropCtx s gone) := by
  unfold dropCtx
  refine Keeps.foldl ?_ ?_
  · assumption
  · intro v1 v2 v3
    refine Keeps.ite (fun _ => ?_) (fun _ => ?_)
    · exact setCache_keeps ‹_›
    · assumption

theorem transmit_keeps {s0 s : State} {p d type flags epoch ftn psn addr rkey msg moff aux opv : Nat} {l : List Byte}
    (h0 : Keeps s0 s) : Keeps s0 (transmit s p d type flags epoch ftn psn addr rkey msg moff aux opv l) := by
  unfold transmit
  extract_lets +onlyGivenNames u1
  clear_value u1
  extract_lets +onlyGivenNames u2
  have h1 : Keeps s0 u2 := by
    unfold u2
    refine Keeps.ite (fun _ => ?_) (fun _ => ?_)
    · exact touchCtx_keeps ‹_›
    · assumption
  clear_value u2
  extract_lets +onlyGivenNames u3
  clear_value u3
  extract_lets +onlyGivenNames u4
  have h2 : SndKeeps s0 u4 := by
    unfold u4
    exact SndKeeps.of (State.freeWord_keeps ‹_›)
  clear_value u4
  extract_lets +onlyGivenNames u5 u6
  clear_value u5 u6
  extract_lets +onlyGivenNames u7
  have h3 : Keeps s0 u7 := by
    unfold u7
    refine Keeps.ite (fun _ => ?_) (fun _ => ?_)
    · assumption
    · assumption
  clear_value u7
  extract_lets +onlyGivenNames u8 u9 u10 u11
  clear_value u8 u9 u10 u11
  extract_lets +onlyGivenNames u12
  have h4 : Keeps s0 u12 := State.emit_keeps ‹_›
  clear_value u12
  extract_lets +onlyGivenNames u13
  have h5 : Keeps s0 u13 := State.bump_keeps ‹_›
  clear_value u13
  refine Keeps.ite (fun _ => ?_) (fun _ => ?_)
  · extract_lets +onlyGivenNames u14
    clear_value u14
    exact State.setPeer_keeps ‹_›
  · assumption

theorem sendCtl_keeps {s0 s : State} {p : Nat} {c : Ctl} (h0 : Keeps s0 s) : Keeps s0 (sendCtl s p c) := by
  unfold sendCtl
  refine Keeps.ite (fun _ => ?_) (fun _ => ?_)
  · exact Keeps.upd (t := s) rfl rfl rfl ‹_›
  · assumption

theorem sendAck_keeps {s0 s : State} {d : Nat} (h0 : Keeps s0 s) : Keeps s0 (sendAck s d) := by
  unfold sendAck
  extract_lets +onlyGivenNames u1
  clear_value u1
  extract_lets +onlyGivenNames u2
  have h1 : Keeps s0 u2 := by
    unfold u2
    refine Keeps.ite (fun _ => ?_) (fun _ => ?_)
    · exact State.setPeer_keeps ‹_›
    · assumption
  clear_value u2
  exact sendCtl_keeps ‹_›

theorem sendNak_keeps {s0 s : State} {p d epoch psn code hint : Nat} (h0 : Keeps s0 s) :
    Keeps s0 (sendNak s p d epoch psn code hint) := by
  unfold sendNak
  extract_lets +onlyGivenNames u1
  have h1 : Keeps s0 u1 := by
    unfold u1
    refine Keeps.ite (fun _ => ?_) (fun _ => ?_)
    · exact State.bump_keeps ‹_›
    · refine Keeps.ite (fun _ => ?_) (fun _ => ?_)
      · exact State.bump_keeps ‹_›
      · assumption
  clear_value u1
  exact sendCtl_keeps ‹_›

theorem movePath_keeps {s0 s : State} {d : Nat} (h0 : Keeps s0 s) : Keeps s0 (movePath s d) := by
  unfold movePath
  extract_lets +onlyGivenNames u1 u2 u3 u4 u5 u6
  clear_value u1 u2 u3 u4 u5 u6
  extract_lets +onlyGivenNames u7
  have h1 : Keeps s0 u7 := Keeps.upd (t := s) rfl rfl rfl ‹_›
  clear_value u7
  extract_lets +onlyGivenNames u8
  have h2 : Keeps s0 u8 := by
    unfold u8
    refine Keeps.ite (fun _ => ?_) (fun _ => ?_)
    · exact dropCtx_keeps (ctxWriteBack_keeps ‹_›)
    · assumption
  clear_value u8
  extract_lets +onlyGivenNames u9
  have h3 : Keeps s0 u9 := State.setPeer_keeps ‹_›
  clear_value u9
  refine Keeps.foldl ?_ ?_
  · assumption
  · intro v1 v2 v3
    exact sendCtl_keeps ‹_›

theorem leavePort_keeps {s0 s : State} {p : Nat} (h0 : Keeps s0 s) : Keeps s0 (leavePort s p) := by
  unfold leavePort
  refine Keeps.foldl ?_ ?_
  · assumption
  · intro v1 v2 v3
    refine Keeps.ite (fun _ => ?_) (fun _ => ?_)
    · exact movePath_keeps ‹_›
    · assumption

theorem joinPort_keeps {s0 s : State} (h0 : Keeps s0 s) : Keeps s0 (joinPort s) := by
  unfold joinPort
  refine Keeps.foldl ?_ ?_
  · assumption
  · intro v1 v2 v3
    refine Keeps.ite (fun _ => ?_) (fun _ => ?_)
    · exact movePath_keeps ‹_›
    · assumption

theorem windowFault_keeps {s0 s : State} {port win offset status : Nat} {write : Bool} (h0 : Keeps s0 s) :
    Keeps s0 (windowFault s port win offset status write) := by
  unfold windowFault
  refine Keeps.ite (fun _ => ?_) (fun _ => ?_)
  · exact State.raise_keeps (State.noteRaised_keeps ‹_›)
  · assumption

theorem sendCompletions_keeps {s0 s : State} {port tag : Nat} {l : List Byte} {bad : List (Nat × Nat)} (h0 : Keeps s0 s)
    : Keeps s0 (sendCompletions s port tag l bad) := by
  unfold sendCompletions
  extract_lets +onlyGivenNames u1
  clear_value u1
  refine Keeps.foldl ?_ ?_
  · assumption
  · intro v1 v2 v3
    extract_lets +onlyGivenNames u2 u3
    clear_value u2 u3
    extract_lets +onlyGivenNames u4
    have h1 : Keeps s0 u4 := by
      unfold u4
      refine Keeps.ite (fun _ => ?_) (fun _ => ?_)
      · exact State.bump_keeps ‹_›
      · assumption
    clear_value u4
    exact State.emit_keeps ‹_›

theorem endWindow_keeps {s0 s : State} {port win offset tag : Nat} {write : Bool} {status : Nat} {l : List Byte}
    {bad : List (Nat × Nat)} (h0 : Keeps s0 s) : Keeps s0 (endWindow s port win offset tag write status l bad) := by
  unfold endWindow
  refine Keeps.ite (fun _ => ?_) (fun _ => ?_)
  · refine Keeps.ite (fun _ => ?_) (fun _ => ?_)
    · assumption
    · exact sendCompletions_keeps ‹_›
  · extract_lets +onlyGivenNames u1
    have h1 : Keeps s0 u1 := windowFault_keeps ‹_›
    clear_value u1
    refine Keeps.ite (fun _ => ?_) (fun _ => ?_)
    · assumption
    · exact State.emit_keeps (State.logAer_keeps (State.bump_keeps ‹_›))

theorem padBad_keeps {s0 s : State} {o : SalOp} {n : Nat} (h0 : Keeps s0 s) : Keeps s0 (padBad s o n).1 := by
  unfold padBad
  split
  · extract_lets +onlyGivenNames u1
    have h1 : SndKeeps s0 u1 := by
      unfold u1
      exact SndKeeps.of (State.freeBytes_keeps ‹_›)
    clear_value u1
    exact Keeps.mkFst ‹_›
  · exact Keeps.mkFst ‹_›

theorem endOp_keeps {s0 s : State} {o : SalOp} {status : Nat} (h0 : Keeps s0 s) : Keeps s0 (endOp s o status) := by
  unfold endOp
  split
  · refine Keeps.ite (fun _ => ?_) (fun _ => ?_)
    · split
      · exact State.complete_keeps ‹_›
      · assumption
    · exact Keeps.upd (t := s) rfl rfl rfl ‹_›
  · extract_lets +onlyGivenNames u1
    have h1 : FstKeeps s0 u1 := by
      unfold u1
      refine FstKeeps.of ?_
      split
      · exact padBad_keeps ‹_›
      · exact Keeps.mkFst ‹_›
    clear_value u1
    exact endWindow_keeps ‹_›
  · assumption
  · exact Keeps.upd (t := s) rfl rfl rfl ‹_›

theorem keepPackets_keeps {s0 s : State} {keep : Nat → Pkt → Bool} (h0 : Keeps s0 s) : Keeps s0 (keepPackets s keep) := by
  unfold keepPackets
  extract_lets +onlyGivenNames u1
  clear_value u1
  exact Keeps.upd (t := s) rfl rfl rfl ‹_›

theorem endOps_keeps {s0 s : State} {d : Nat} {pick : SalOp → Bool} {status : Nat} (h0 : Keeps s0 s) :
    Keeps s0 (endOps s d pick status) := by
  unfold endOps
  extract_lets +onlyGivenNames u1 u2
  clear_value u1 u2
  extract_lets +onlyGivenNames u3
  have h1 : Keeps s0 u3 := State.setPeer_keeps ‹_›
  clear_value u3
  extract_lets +onlyGivenNames u4
  have h2 : Keeps s0 u4 := keepPackets_keeps ‹_›
  clear_value u4
  refine Keeps.foldl ?_ ?_
  · assumption
  · intro v1 v2 v3
    exact endOp_keeps ‹_›

theorem dropResponses_keeps {s0 s : State} {d : Nat} (h0 : Keeps s0 s) : Keeps s0 (dropResponses s d) := by
  unfold dropResponses
  extract_lets +onlyGivenNames u1
  have h1 : Keeps s0 u1 := dropTells_keeps ‹_›
  clear_value u1
  extract_lets +onlyGivenNames u2
  have h2 : Keeps s0 u2 := keepPackets_keeps ‹_›
  clear_value u2
  exact Keeps.upd (t := u2) rfl rfl rfl ‹_›

theorem dropControl_keeps {s0 s : State} {d : Nat} (h0 : Keeps s0 s) : Keeps s0 (dropControl s d) := by
  unfold dropControl
  exact Keeps.upd (t := s) rfl rfl rfl ‹_›

theorem adoptEpoch_keeps {s0 s : State} {d epoch psn : Nat} {fresh : Bool} (h0 : Keeps s0 s) :
    Keeps s0 (adoptEpoch s d epoch psn fresh) := by
  unfold adoptEpoch
  extract_lets +onlyGivenNames u1
  clear_value u1
  extract_lets +onlyGivenNames u2
  have h1 : Keeps s0 u2 := dropControl_keeps (dropResponses_keeps (endOps_keeps ‹_›))
  clear_value u2
  extract_lets +onlyGivenNames u3
  clear_value u3
  extract_lets +onlyGivenNames u4
  have h2 : Keeps s0 u4 := State.setPeer_keeps ‹_›
  clear_value u4
  refine Keeps.ite (fun _ => ?_) (fun _ => ?_)
  · exact State.raiseUnit_keeps ‹_›
  · assumption

theorem sendHello_keeps {s0 s : State} {d epoch : Nat} {fresh : Bool} (h0 : Keeps s0 s) :
    Keeps s0 (sendHello s d epoch fresh) := by
  unfold sendHello
  extract_lets +onlyGivenNames u1
  clear_value u1
  extract_lets +onlyGivenNames u2
  have h1 : Keeps s0 u2 := State.setPeer_keeps ‹_›
  clear_value u2
  exact sendCtl_keeps ‹_›

theorem createPeer_keeps {s0 s : State} {d : Nat} (h0 : Keeps s0 s) : Keeps s0 (createPeer s d) := by
  unfold createPeer
  extract_lets +onlyGivenNames u1
  clear_value u1
  exact placeCtx_keeps (State.setPeer_keeps ‹_›)

theorem reachPeer_keeps {s0 s : State} {d : Nat} (h0 : Keeps s0 s) : Keeps s0 (reachPeer s d).1 := by
  unfold reachPeer
  split
  · exact Keeps.mkFst (State.raiseUnit_keeps ‹_›)
  · split
    · split
      · exact Keeps.mkFst (sendHello_keeps (createPeer_keeps ‹_›))
      · exact Keeps.mkFst ‹_›
    · split
      · exact Keeps.mkFst ‹_›
      · exact Keeps.mkFst (sendHello_keeps ‹_›)
    · exact Keeps.mkFst ‹_›

theorem enqueue_keeps {s0 s : State} {d : Nat} {f : Flow} {l : List Pkt} (h0 : Keeps s0 s) : Keeps s0 (enqueue s d f l) := by
  unfold enqueue
  extract_lets +onlyGivenNames u1 u2
  clear_value u1 u2
  exact Keeps.upd (t := s) rfl rfl rfl ‹_›

theorem startOp_keeps {s0 s : State} {r : OpReq} (h0 : Keeps s0 s) : Keeps s0 (startOp s r) := by
  unfold startOp
  extract_lets +onlyGivenNames u1
  have h1 : FstKeeps s0 u1 := by
    unfold u1
    exact FstKeeps.of (reachPeer_keeps ‹_›)
  clear_value u1
  extract_lets +onlyGivenNames u2
  have h2 : Keeps s0 u2 := by
    unfold u2
    assumption
  clear_value u2
  extract_lets +onlyGivenNames u3 u4
  clear_value u3 u4
  refine Keeps.ite (fun _ => ?_) (fun _ => ?_)
  · exact endOp_keeps ‹_›
  · extract_lets +onlyGivenNames u5
    clear_value u5
    extract_lets +onlyGivenNames u6
    have h3 : Keeps s0 u6 := State.setPeer_keeps ‹_›
    clear_value u6
    exact enqueue_keeps ‹_›

theorem peerLost_keeps {s0 s : State} {d : Nat} (h0 : Keeps s0 s) : Keeps s0 (peerLost s d) := by
  unfold peerLost
  extract_lets +onlyGivenNames u1
  have h1 : Keeps s0 u1 := dropResponses_keeps (endOps_keeps ‹_›)
  clear_value u1
  extract_lets +onlyGivenNames u2
  clear_value u2
  extract_lets +onlyGivenNames u3
  have h2 : Keeps s0 u3 := State.setPeer_keeps ‹_›
  clear_value u3
  exact State.raiseUnit_keeps ‹_›

theorem discardResponse_keeps {s0 s : State} {o : SalOp} (h0 : Keeps s0 s) : Keeps s0 (discardResponse s o) := by
  unfold discardResponse
  split
  · refine Keeps.ite (fun _ => ?_) (fun _ => ?_)
    · assumption
    · exact State.bump_keeps ‹_›
  · assumption

theorem forgetQueue_keeps {s0 s : State} {qid : Nat} (h0 : Keeps s0 s) : Keeps s0 (forgetQueue s qid) := by
  unfold forgetQueue
  extract_lets +onlyGivenNames u1 u2 u3
  clear_value u1 u2 u3
  extract_lets +onlyGivenNames u4
  have h1 : Keeps s0 u4 := keepPackets_keeps ‹_›
  clear_value u4
  extract_lets +onlyGivenNames u5
  have h2 : Keeps s0 u5 := dropTells_keeps ‹_›
  clear_value u5
  refine Keeps.foldl ?_ ?_
  · assumption
  · intro v1 v2 v3
    extract_lets +onlyGivenNames u6
    clear_value u6
    exact State.setPeer_keeps ‹_›

theorem takeApsn_keeps {s0 s : State} {d apsn : Nat} {ece : Bool} {sample : Option Nat} (h0 : Keeps s0 s) :
    Keeps s0 (takeApsn s d apsn ece sample) := by
  unfold takeApsn
  extract_lets +onlyGivenNames u1
  clear_value u1
  refine Keeps.ite (fun _ => ?_) (fun _ => ?_)
  · extract_lets +onlyGivenNames u2 u3 u4
    clear_value u2 u3 u4
    extract_lets +onlyGivenNames u5
    have h1 : SndKeeps s0 u5 := by
      unfold u5
      exact SndKeeps.of (State.freeWord_keeps ‹_›)
    clear_value u5
    extract_lets +onlyGivenNames u6
    have h2 : Keeps s0 u6 := by
      unfold u6
      refine Keeps.ite (fun _ => ?_) (fun _ => ?_)
      · assumption
      · assumption
    clear_value u6
    extract_lets +onlyGivenNames u7 u8
    clear_value u7 u8
    extract_lets +onlyGivenNames u9
    have h3 : Keeps s0 u9 := State.setPeer_keeps ‹_›
    clear_value u9
    extract_lets +onlyGivenNames u10
    clear_value u10
    extract_lets +onlyGivenNames u11
    have h4 : Keeps s0 u11 := by
      unfold u11
      refine Keeps.ite (fun _ => ?_) (fun _ => ?_)
      · exact Keeps.upd (t := u9) rfl rfl rfl ‹_›
      · assumption
    clear_value u11
    refine Keeps.ite (fun _ => ?_) (fun _ => ?_)
    · exact sendHello_keeps ‹_›
    · assumption
  · assumption

/-! ### Machine/KvCache.lean -/

theorem State.setStream_keeps {s0 s : State} {c : Nat} {x : Stream} (h0 : Keeps s0 s) : Keeps s0 (State.setStream s c x) := by
  unfold State.setStream
  exact Keeps.upd (t := s) rfl rfl rfl ‹_›

theorem decFault_keeps {s0 s : State} {qid : Nat} {c : Cmd} {status : Nat} (h0 : Keeps s0 s) :
    Keeps s0 (decFault s qid c status) := by
  unfold decFault
  extract_lets +onlyGivenNames u1
  clear_value u1
  exact State.raise_keeps ‹_›

theorem freeStream_keeps {s0 s : State} {qid : Nat} (h0 : Keeps s0 s) : Keeps s0 (freeStream s qid) := by
  unfold freeStream
  split
  · exact State.setStream_keeps ‹_›
  · assumption

theorem decEnd_keeps {s0 s : State} {qid : Nat} {c : Cmd} {status result : Nat} (h0 : Keeps s0 s) :
    Keeps s0 (decEnd s qid c status result) := by
  unfold decEnd
  extract_lets +onlyGivenNames u1
  have h1 : Keeps s0 u1 := freeStream_keeps ‹_›
  clear_value u1
  extract_lets +onlyGivenNames u2
  have h2 : Keeps s0 u2 := State.complete_keeps ‹_›
  clear_value u2
  refine Keeps.ite (fun _ => ?_) (fun _ => ?_)
  · assumption
  · exact decFault_keeps ‹_›

theorem preWait_keeps {s0 s : State} {qid : Nat} {c : Cmd} (h0 : Keeps s0 s) : Keeps s0 (preWait s qid c) := by
  unfold preWait
  refine Keeps.ite (fun _ => ?_) (fun _ => ?_)
  · exact State.addWait_keeps (State.setCmd_keeps ‹_›)
  · assumption

theorem notePick_keeps {s0 s : State} {engine qid : Nat} (h0 : Keeps s0 s) : Keeps s0 (notePick s engine qid) := by
  unfold notePick
  exact Keeps.upd (t := s) rfl rfl rfl ‹_›

theorem decStart_keeps {s0 s : State} {qid : Nat} (h0 : Keeps s0 s) : Keeps s0 (decStart s qid) := by
  unfold decStart
  extract_lets +onlyGivenNames u1
  have h1 : Keeps s0 u1 := notePick_keeps ‹_›
  clear_value u1
  split
  · extract_lets +onlyGivenNames u2
    clear_value u2
    refine Keeps.ite (fun _ => ?_) (fun _ => ?_)
    · exact touchCtx_keeps ‹_›
    · assumption
  · assumption

theorem onStream_keeps {s0 s : State} {q op : Nat} {body : State → Cmd → Nat → Stream → State × Nat × Nat}
    (h0 : Keeps s0 s) (h3 : ∀ a00 a01 a02 a03, Keeps s0 a00 → Keeps s0 (body a00 a01 a02 a03).1) :
    Keeps s0 (onStream s q op body) := by
  unfold onStream
  split
  · assumption
  · extract_lets +onlyGivenNames u1
    clear_value u1
    extract_lets +onlyGivenNames u2
    have h1 : Keeps s0 u2 := decStart_keeps ‹_›
    clear_value u2
    extract_lets +onlyGivenNames u3 u4
    clear_value u3 u4
    refine Keeps.ite (fun _ => ?_) (fun _ => ?_)
    · exact decEnd_keeps ‹_›
    · extract_lets +onlyGivenNames u5
      have h2 : FstKeeps s0 u5 := by
        unfold u5
        refine FstKeeps.of ?_
        apply h3
        assumption
      clear_value u5
      exact decEnd_keeps ‹_›

theorem closeStream_keeps {s0 s : State} {c : Nat} (h0 : Keeps s0 s) : Keeps s0 (closeStream s c) := by
  unfold closeStream
  extract_lets +onlyGivenNames u1
  clear_value u1
  extract_lets +onlyGivenNames u2
  have h1 : Keeps s0 u2 := dropCtx_keeps (State.setStream_keeps ‹_›)
  clear_value u2
  exact give_keeps ‹_›

theorem decFetched_keeps {s0 s : State} {qid : Nat} {l : List Byte} {status : Nat} (h0 : Keeps s0 s) :
    Keeps s0 (decFetched s qid l status) := by
  unfold decFetched
  extract_lets +onlyGivenNames u1 u2
  clear_value u1 u2
  extract_lets +onlyGivenNames u3
  have h1 : Keeps s0 u3 := State.setQueue_keeps ‹_›
  clear_value u3
  extract_lets +onlyGivenNames u4
  have h2 : Keeps s0 u4 := notePick_keeps ‹_›
  clear_value u4
  refine Keeps.ite (fun _ => ?_) (fun _ => ?_)
  · exact State.complete_keeps ‹_›
  · refine Keeps.ite (fun _ => ?_) (fun _ => ?_)
    · exact decEnd_keeps ‹_›
    · extract_lets +onlyGivenNames u5
      clear_value u5
      refine Keeps.ite (fun _ => ?_) (fun _ => ?_)
      · exact decEnd_keeps ‹_›
      · exact preWait_keeps ‹_›

/-! ### Machine/DecodeEngine.lean -/

theorem kvCopies_keeps {s0 s : State} {l : List KvCopy} (h0 : Keeps s0 s) : Keeps s0 (kvCopies s l).1 := by
  unfold kvCopies
  refine Keeps.foldlFst ?_ ?_
  · exact Keeps.mkFst ‹_›
  · intro v1 v2 v3
    extract_lets +onlyGivenNames u1
    have h1 : Keeps s0 u1 := by
      unfold u1
      assumption
    clear_value u1
    split
    · assumption
    · split
      · exact Keeps.mkFst (State.noteRead_keeps ‹_›)
      · split
        · exact Keeps.mkFst (State.noteRead_keeps ‹_›)
        · extract_lets +onlyGivenNames u2
          have h2 : FstKeeps s0 u2 := by
            unfold u2
            exact FstKeeps.of (State.writeMem_keeps ‹_›)
          clear_value u2
          extract_lets +onlyGivenNames u3
          have h3 : FstKeeps s0 u3 := by
            unfold u3
            exact FstKeeps.of (State.writeMem_keeps ‹_›)
          clear_value u3
          exact Keeps.mkFst ‹_›

theorem pageResult_keeps {s0 s : State} {x : Stream} {frame : Nat} {qv : List Num} {seen : List Nat} {page : Nat}
    (h0 : Keeps s0 s) : Keeps s0 (pageResult s x frame qv seen page).2 := by
  unfold pageResult
  split
  · exact Keeps.mkSnd ‹_›
  · extract_lets +onlyGivenNames u1 u2 u3 u4 u5
    clear_value u1 u2 u3 u4 u5
    extract_lets +onlyGivenNames u6
    have h1 : SndKeeps s0 u6 := by
      unfold u6
      exact SndKeeps.of (State.shuffled_keeps ‹_›)
    clear_value u6
    extract_lets +onlyGivenNames u7 u8 u9
    clear_value u7 u8 u9
    exact Keeps.mkSnd ‹_›

theorem dropItems_keeps {s0 s : State} {qid : Nat} (h0 : Keeps s0 s) : Keeps s0 (dropItems s qid) := by
  unfold dropItems
  exact Keeps.upd (t := s) rfl rfl rfl ‹_›

theorem attendFail_keeps {s0 s : State} {qid status : Nat} (h0 : Keeps s0 s) : Keeps s0 (attendFail s qid status) := by
  unfold attendFail
  extract_lets +onlyGivenNames u1 u2
  clear_value u1 u2
  extract_lets +onlyGivenNames u3
  have h1 : Keeps s0 u3 := dropItems_keeps (Keeps.upd (t := s) rfl rfl rfl ‹_›)
  clear_value u3
  extract_lets +onlyGivenNames u4
  have h2 : SndKeeps s0 u4 := by
    unfold u4
    exact SndKeeps.of (State.freeBytes_keeps ‹_›)
  clear_value u4
  extract_lets +onlyGivenNames u5
  have h3 : Keeps s0 u5 := State.write_keeps ‹_›
  clear_value u5
  split
  · exact decEnd_keeps ‹_›
  · assumption

theorem sampleNote_keeps {s0 s : State} {l : List Byte} {st srcLen : Nat} (h0 : Keeps s0 s) :
    Keeps s0 (sampleNote s l st srcLen) := by
  unfold sampleNote
  exact State.noteStatus_keeps ‹_›

theorem sampleTokens_keeps {s0 s : State} {k : Nat} {x : Stream} {l : List Byte} {base : Nat}
    {cands : List (List (Num × Nat))} (h0 : Keeps s0 s) : Keeps s0 (sampleTokens s k x l base cands).1 := by
  unfold sampleTokens
  split
  · exact Keeps.mkFst ‹_›
  · extract_lets +onlyGivenNames u1
    clear_value u1
    extract_lets +onlyGivenNames u2
    have h1 : FstKeeps s0 u2 := by
      unfold u2
      exact FstKeeps.of (State.writeMem_keeps ‹_›)
    clear_value u2
    split
    · exact Keeps.mkFst ‹_›
    · exact Keeps.mkFst (State.setStream_keeps ‹_›)

theorem onSample_keeps {s0 s : State} {q mode : Nat} {body : State → Cmd → Nat → Stream → State × Nat × Nat}
    (h0 : Keeps s0 s) (h3 : ∀ a00 a01 a02 a03, Keeps s0 a00 → Keeps s0 (body a00 a01 a02 a03).1) :
    Keeps s0 (onSample s q mode body) := by
  unfold onSample
  split
  · refine Keeps.ite (fun _ => ?_) (fun _ => ?_)
    · apply onStream_keeps
      · assumption
      · intro v1 v2 v3 v4 v5
        apply h3
        assumption
    · assumption
  · assumption

theorem decPartly_keeps {s0 s : State} {c : Cmd} {done : Nat} (h0 : Keeps s0 s) : Keeps s0 (decPartly s c done) := by
  unfold decPartly
  extract_lets +onlyGivenNames u1 u2 u3
  clear_value u1 u2 u3
  split
  · extract_lets +onlyGivenNames u4 u5
    clear_value u4 u5
    refine Keeps.ite (fun _ => ?_) (fun _ => ?_)
    · exact kvCopies_keeps ‹_›
    · assumption
  · extract_lets +onlyGivenNames u6
    clear_value u6
    refine Keeps.ite (fun _ => ?_) (fun _ => ?_)
    · exact State.write_keeps ‹_›
    · assumption
  · split
    · extract_lets +onlyGivenNames u7 u8
      clear_value u7 u8
      extract_lets +onlyGivenNames u9
      have h1 : Keeps s0 u9 := by
        unfold u9
        refine Keeps.ite (fun _ => ?_) (fun _ => ?_)
        · exact kvCopies_keeps ‹_›
        · assumption
      clear_value u9
      exact State.setStream_keeps ‹_›
    · assumption
  · assumption

theorem decAbort_keeps {s0 s : State} {qid status : Nat} (h0 : Keeps s0 s) : Keeps s0 (decAbort s qid status) := by
  unfold decAbort
  refine Keeps.foldl ?_ ?_
  · assumption
  · intro v1 v2 v3
    refine Keeps.ite (fun _ => ?_) (fun _ => ?_)
    · exact attendFail_keeps ‹_›
    · refine Keeps.ite (fun _ => ?_) (fun _ => ?_)
      · extract_lets +onlyGivenNames u1
        have h1 : SndKeeps s0 u1 := by
          unfold u1
          exact SndKeeps.of (State.freeBit_keeps ‹_›)
        clear_value u1
        extract_lets +onlyGivenNames u2
        have h2 : SndKeeps s0 u2 := by
          unfold u2
          exact SndKeeps.of (State.freeWord_keeps ‹_›)
        clear_value u2
        apply decEnd_keeps
        refine Keeps.ite (fun _ => ?_) (fun _ => ?_)
        · exact decPartly_keeps ‹_›
        · assumption
      · exact decEnd_keeps ‹_›

theorem closeStreams_keeps {s0 s : State} {inst : Nat} (h0 : Keeps s0 s) : Keeps s0 (closeStreams s inst) := by
  unfold closeStreams
  refine Keeps.foldl ?_ ?_
  · assumption
  · intro v1 v2 v3
    extract_lets +onlyGivenNames u1
    have h1 : Keeps s0 u1 := State.raise_keeps ‹_›
    clear_value u1
    exact closeStream_keeps ‹_›

theorem attendTileLost_keeps {s0 s : State} {n : Nat} (h0 : Keeps s0 s) : Keeps s0 (attendTileLost s n) := by
  unfold attendTileLost
  refine Keeps.foldl ?_ ?_
  · assumption
  · intro v1 v2 v3
    exact attendFail_keeps ‹_›

/-! ### Machine/Understory.lean -/

theorem State.setUstGroup_keeps {s0 s : State} {g : Nat} {x : UstGroup} (h0 : Keeps s0 s) :
    Keeps s0 (State.setUstGroup s g x) := by
  unfold State.setUstGroup
  exact Keeps.upd (t := s) rfl rfl rfl ‹_›

theorem linkEmit_keeps {s0 s : State} {k : Nat} {f : UstWaiting} (h0 : Keeps s0 s) : Keeps s0 (linkEmit s k f) := by
  unfold linkEmit
  extract_lets +onlyGivenNames u1 u2 u3 u4 u5
  clear_value u1 u2 u3 u4 u5
  exact State.emit_keeps (Keeps.upd (t := s) rfl rfl rfl ‹_›)

theorem linkPump_keeps {s0 : State} {k n : Nat} :
    ∀ {s : State} (_ : Keeps s0 s), Keeps s0 (linkPump s k n) := by
  induction n with
  | zero => intro s h; exact h
  | succ n ih =>
    intro s h
    unfold linkPump
    extract_lets +onlyGivenNames u1
    clear_value u1
    split
    · exact h
    · split
      · exact ih (linkEmit_keeps (Keeps.upd (t := s) rfl rfl rfl h))
      · exact h

theorem linkSend_keeps {s0 s : State} {k type group src dst gen opseq offset : Nat} {payload : List Byte}
    (h0 : Keeps s0 s) : Keeps s0 (linkSend s k type group src dst gen opseq offset payload) := by
  unfold linkSend
  extract_lets +onlyGivenNames u1 u2
  clear_value u1 u2
  refine Keeps.ite (fun _ => ?_) (fun _ => ?_)
  · exact linkEmit_keeps ‹_›
  · exact linkPump_keeps (Keeps.upd (t := s) rfl rfl rfl ‹_›)

theorem linkAcked_keeps {s0 s : State} {k lseq : Nat} (h0 : Keeps s0 s) : Keeps s0 (linkAcked s k lseq) := by
  unfold linkAcked
  extract_lets +onlyGivenNames u1 u2
  clear_value u1 u2
  refine Keeps.ite (fun _ => ?_) (fun _ => ?_)
  · exact linkPump_keeps (Keeps.upd (t := s) rfl rfl rfl ‹_›)
  · assumption

theorem linkSay_keeps {s0 s : State} {k opseq : Nat} {payload : List Byte} (h0 : Keeps s0 s) :
    Keeps s0 (linkSay s k opseq payload) := by
  unfold linkSay
  exact State.emit_keeps ‹_›

theorem grpSend_keeps {s0 s : State} {g : Nat} {links : List Nat} {type src dst opseq offset : Nat}
    {payload : List Byte} (h0 : Keeps s0 s) : Keeps s0 (grpSend s g links type src dst opseq offset payload) := by
  unfold grpSend
  refine Keeps.foldl ?_ ?_
  · assumption
  · intro v1 v2 v3
    exact linkSend_keeps ‹_›

theorem linkAck_keeps {s0 s : State} {k lseq : Nat} (h0 : Keeps s0 s) : Keeps s0 (linkAck s k lseq) := by
  unfold linkAck
  exact linkSay_keeps ‹_›

theorem linkTake_keeps {s0 s : State} {k lseq : Nat} (h0 : Keeps s0 s) : OptAll (Keeps s0) (linkTake s k lseq) := by
  unfold linkTake
  extract_lets +onlyGivenNames u1
  clear_value u1
  split
  · exact OptAll.some (linkAck_keeps (Keeps.upd (t := s) rfl rfl rfl ‹_›))
  · exact OptAll.none

theorem ustEnd_keeps {s0 s : State} {qid entry status result : Nat} (h0 : Keeps s0 s) :
    Keeps s0 (ustEnd s qid entry status result) := by
  unfold ustEnd
  split
  · exact State.complete_keeps ‹_›
  · assumption

theorem collEnd_keeps {s0 s : State} {g status result : Nat} (h0 : Keeps s0 s) : Keeps s0 (collEnd s g status result) := by
  unfold collEnd
  extract_lets +onlyGivenNames u1
  clear_value u1
  split
  · exact ustEnd_keeps (State.setUstGroup_keeps ‹_›)
  · assumption

theorem collFail_keeps {s0 s : State} {g status : Nat} (h0 : Keeps s0 s) : Keeps s0 (collFail s g status) := by
  unfold collFail
  exact collEnd_keeps ‹_›

theorem countUp_keeps {s0 s : State} (h0 : Keeps s0 s) : Keeps s0 (countUp s) := by
  unfold countUp
  exact State.wr_keeps ‹_›

theorem grpRaise_keeps {s0 s : State} {g type payload : Nat} (h0 : Keeps s0 s) : Keeps s0 (grpRaise s g type payload) := by
  unfold grpRaise
  exact State.raise_keeps ‹_›

theorem postsFail_keeps {s0 s : State} {g status : Nat} (h0 : Keeps s0 s) : Keeps s0 (postsFail s g status) := by
  unfold postsFail
  extract_lets +onlyGivenNames u1
  clear_value u1
  refine Keeps.foldl ?_ ?_
  · exact State.setUstGroup_keeps ‹_›
  · intro v1 v2 v3
    exact ustEnd_keeps ‹_›

theorem grpDown_keeps {s0 s : State} {g cause from_ : Nat} (h0 : Keeps s0 s) : Keeps s0 (grpDown s g cause from_) := by
  unfold grpDown
  refine Keeps.ite (fun _ => ?_) (fun _ => ?_)
  · extract_lets +onlyGivenNames u1
    have h1 : Keeps s0 u1 := countUp_keeps (State.wr_keeps ‹_›)
    clear_value u1
    extract_lets +onlyGivenNames u2
    have h2 : Keeps s0 u2 := grpSend_keeps ‹_›
    clear_value u2
    extract_lets +onlyGivenNames u3
    have h3 : Keeps s0 u3 := postsFail_keeps (collFail_keeps ‹_›)
    clear_value u3
    extract_lets +onlyGivenNames u4
    have h4 : Keeps s0 u4 := grpRaise_keeps ‹_›
    clear_value u4
    refine Keeps.ite (fun _ => ?_) (fun _ => ?_)
    · exact State.post_keeps ‹_›
    · assumption
  · assumption

theorem grpForm_keeps {s0 s : State} {g : Nat} (h0 : Keeps s0 s) : Keeps s0 (grpForm s g) := by
  unfold grpForm
  refine Keeps.ite (fun _ => ?_) (fun _ => ?_)
  · refine Keeps.foldl ?_ ?_
    · exact countUp_keeps (State.wr_keeps ‹_›)
    · intro v1 v2 v3
      exact linkSay_keeps ‹_›
  · assumption

theorem pieceDone_keeps {s0 s : State} {g p : Nat} {l : List Byte} (h0 : Keeps s0 s) : Keeps s0 (pieceDone s g p l) := by
  unfold pieceDone
  extract_lets +onlyGivenNames u1
  clear_value u1
  split
  · refine Keeps.ite (fun _ => ?_) (fun _ => ?_)
    · assumption
    · extract_lets +onlyGivenNames u2
      have h1 : FstKeeps s0 u2 := by
        unfold u2
        exact FstKeeps.of (State.writeMem_keeps ‹_›)
      clear_value u2
      extract_lets +onlyGivenNames u3
      have h2 : Keeps s0 u3 := by
        unfold u3
        assumption
      clear_value u3
      extract_lets +onlyGivenNames u4 u5
      clear_value u4 u5
      extract_lets +onlyGivenNames u6
      have h3 : Keeps s0 u6 := State.setUstGroup_keeps ‹_›
      clear_value u6
      refine Keeps.ite (fun _ => ?_) (fun _ => ?_)
      · exact collEnd_keeps ‹_›
      · assumption
  · assumption

theorem pieceFormed_keeps {s0 s : State} {g p : Nat} {ws : List Nat} (h0 : Keeps s0 s) : Keeps s0 (pieceFormed s g p ws) := by
  unfold pieceFormed
  split
  · extract_lets +onlyGivenNames u1
    clear_value u1
    extract_lets +onlyGivenNames u2
    have h1 : Keeps s0 u2 := grpSend_keeps ‹_›
    clear_value u2
    exact pieceDone_keeps ‹_›
  · assumption

theorem pieceNext_keeps {s0 s : State} {g p : Nat} (h0 : Keeps s0 s) : Keeps s0 (pieceNext s g p) := by
  unfold pieceNext
  split
  · refine Keeps.ite (fun _ => ?_) (fun _ => ?_)
    · extract_lets +onlyGivenNames u1
      clear_value u1
      refine Keeps.ite (fun _ => ?_) (fun _ => ?_)
      · exact pieceFormed_keeps ‹_›
      · extract_lets +onlyGivenNames u2
        clear_value u2
        exact grpSend_keeps ‹_›
    · assumption
  · assumption

theorem pieceReduce_keeps {s0 s : State} {g p : Nat} {ws : List Nat} (h0 : Keeps s0 s) : Keeps s0 (pieceReduce s g p ws) := by
  unfold pieceReduce
  extract_lets +onlyGivenNames u1
  clear_value u1
  split
  · extract_lets +onlyGivenNames u2
    clear_value u2
    exact pieceNext_keeps (State.setUstGroup_keeps ‹_›)
  · assumption

theorem pieceBcast_keeps {s0 s : State} {g k opseq p src : Nat} {l : List Byte} (h0 : Keeps s0 s) :
    Keeps s0 (pieceBcast s g k opseq p src l) := by
  unfold pieceBcast
  exact pieceDone_keeps (grpSend_keeps ‹_›)

theorem drainEarly_keeps {s0 s : State} {g opseq : Nat} {sig : CollSig} (h0 : Keeps s0 s) :
    Keeps s0 (drainEarly s g opseq sig) := by
  unfold drainEarly
  extract_lets +onlyGivenNames u1 u2
  clear_value u1 u2
  extract_lets +onlyGivenNames u3
  have h1 : Keeps s0 u3 := State.setUstGroup_keeps ‹_›
  clear_value u3
  refine Keeps.foldl ?_ ?_
  · assumption
  · intro v1 v2 v3
    split
    · refine Keeps.foldl ?_ ?_
      · assumption
      · intro v4 v5 v6
        exact pieceReduce_keeps ‹_›
    · refine Keeps.foldl ?_ ?_
      · assumption
      · intro v7 v8 v9
        exact pieceBcast_keeps ‹_›
    · assumption

theorem collRelease_keeps {s0 s : State} {g : Nat} (h0 : Keeps s0 s) : Keeps s0 (collRelease s g) := by
  unfold collRelease
  split
  · refine Keeps.ite (fun _ => ?_) (fun _ => ?_)
    · extract_lets +onlyGivenNames u1
      clear_value u1
      extract_lets +onlyGivenNames u2
      have h1 : Keeps s0 u2 := State.wr_keeps (State.wr_keeps ‹_›)
      clear_value u2
      extract_lets +onlyGivenNames u3
      have h2 : Keeps s0 u3 := grpRaise_keeps ‹_›
      clear_value u3
      exact collEnd_keeps ‹_›
    · exact collEnd_keeps ‹_›
  · assumption

theorem collFlow_keeps {s0 s : State} {g : Nat} (h0 : Keeps s0 s) : Keeps s0 (collFlow s g) := by
  unfold collFlow
  extract_lets +onlyGivenNames u1
  clear_value u1
  split
  · assumption
  · extract_lets +onlyGivenNames u2
    clear_value u2
    extract_lets +onlyGivenNames u3
    refine Keeps.ite (fun _ => ?_) (fun _ => ?_)
    · exact collFail_keeps (grpSend_keeps (State.noteRead_keeps ‹_›))
    · refine Keeps.ite (fun _ => ?_) (fun _ => ?_)
      · extract_lets +onlyGivenNames u4
        have h1 : Keeps s0 u4 := State.setUstGroup_keeps ‹_›
        clear_value u4
        extract_lets +onlyGivenNames u5
        have h2 : Keeps s0 u5 := by
          unfold u5
          refine Keeps.ite (fun _ => ?_) (fun _ => ?_)
          · refine Keeps.foldl ?_ ?_
            · assumption
            · intro v1 v2 v3
              extract_lets +onlyGivenNames u6
              clear_value u6
              exact pieceDone_keeps (grpSend_keeps ‹_›)
          · assumption
        clear_value u5
        exact drainEarly_keeps ‹_›
      · extract_lets +onlyGivenNames u7
        clear_value u7
        extract_lets +onlyGivenNames u8
        have h3 : Keeps s0 u8 := State.setUstGroup_keeps ‹_›
        clear_value u8
        extract_lets +onlyGivenNames u9
        have h4 : Keeps s0 u9 := by
          unfold u9
          refine Keeps.foldl ?_ ?_
          · assumption
          · intro v4 v5 v6
            refine Keeps.ite (fun _ => ?_) (fun _ => ?_)
            · exact pieceNext_keeps ‹_›
            · assumption
        clear_value u9
        exact drainEarly_keeps ‹_›

theorem collReady_keeps {s0 s : State} {g : Nat} (h0 : Keeps s0 s) : Keeps s0 (collReady s g) := by
  unfold collReady
  split
  · refine Keeps.ite (fun _ => ?_) (fun _ => ?_)
    · refine Keeps.ite (fun _ => ?_) (fun _ => ?_)
      · exact collRelease_keeps (grpSend_keeps ‹_›)
      · exact collFlow_keeps ‹_›
    · assumption
  · assumption

theorem collMismatch_keeps {s0 s : State} {g opseq : Nat} (h0 : Keeps s0 s) : Keeps s0 (collMismatch s g opseq) := by
  unfold collMismatch
  extract_lets +onlyGivenNames u1
  clear_value u1
  extract_lets +onlyGivenNames u2
  have h1 : Keeps s0 u2 := collEnd_keeps ‹_›
  clear_value u2
  exact grpRaise_keeps (State.setUstGroup_keeps ‹_›)

theorem resetWins_keeps {s0 s : State} {g status : Nat} (h0 : Keeps s0 s) : Keeps s0 (resetWins s g status) := by
  unfold resetWins
  split
  · extract_lets +onlyGivenNames u1
    clear_value u1
    extract_lets +onlyGivenNames u2
    have h1 : Keeps s0 u2 := State.setQueue_keeps ‹_›
    clear_value u2
    exact State.setUstGroup_keeps ‹_›
  · assumption

theorem collArrive_keeps {s0 s : State} {g member : Nat} {sig : CollSig} (h0 : Keeps s0 s) :
    Keeps s0 (collArrive s g member sig) := by
  unfold collArrive
  extract_lets +onlyGivenNames u1
  clear_value u1
  split
  · refine Keeps.ite (fun _ => ?_) (fun _ => ?_)
    · exact collMismatch_keeps ‹_›
    · refine Keeps.ite (fun _ => ?_) (fun _ => ?_)
      · assumption
      · exact collReady_keeps (State.setUstGroup_keeps ‹_›)
  · assumption

theorem onGroup_keeps {s0 s : State} {q op : Nat} {body : State → Cmd → Nat → State} (h0 : Keeps s0 s)
    (h3 : ∀ a00 a01 a02, Keeps s0 a00 → Keeps s0 (body a00 a01 a02)) : Keeps s0 (onGroup s q op body) := by
  unfold onGroup
  split
  · assumption
  · extract_lets +onlyGivenNames u1
    clear_value u1
    split
    · exact ustEnd_keeps ‹_›
    · assumption
    · exact ustEnd_keeps ‹_›
    · apply h3
      assumption

theorem holdFrame_keeps {s0 s : State} {g : Nat} {f : EarlyFrame} (h0 : Keeps s0 s) : Keeps s0 (holdFrame s g f) := by
  unfold holdFrame
  extract_lets +onlyGivenNames u1 u2
  clear_value u1 u2
  refine Keeps.ite (fun _ => ?_) (fun _ => ?_)
  · exact State.setUstGroup_keeps ‹_›
  · assumption

theorem collIssue_keeps {s0 s : State} {q : Nat} {c : Cmd} {g : Nat} (h0 : Keeps s0 s) : Keeps s0 (collIssue s q c g) := by
  unfold collIssue
  extract_lets +onlyGivenNames u1
  clear_value u1
  refine Keeps.ite (fun _ => ?_) (fun _ => ?_)
  · assumption
  · extract_lets +onlyGivenNames u2 u3 u4 u5
    clear_value u2 u3 u4 u5
    extract_lets +onlyGivenNames u6
    have h1 : Keeps s0 u6 := State.setCmd_keeps ‹_›
    clear_value u6
    extract_lets +onlyGivenNames u7 u8
    clear_value u7 u8
    extract_lets +onlyGivenNames u9
    have h2 : Keeps s0 u9 := State.setUstGroup_keeps ‹_›
    clear_value u9
    extract_lets +onlyGivenNames u10
    clear_value u10
    extract_lets +onlyGivenNames u11
    have h3 : Keeps s0 u11 := grpSend_keeps ‹_›
    clear_value u11
    refine Keeps.ite (fun _ => ?_) (fun _ => ?_)
    · exact collEnd_keeps (State.setUstGroup_keeps ‹_›)
    · refine Keeps.foldl ?_ ?_
      · exact collReady_keeps ‹_›
      · intro v1 v2 v3
        exact collArrive_keeps ‹_›

theorem collChecked_keeps {s0 s : State} {q : Nat} {c : Cmd} {g : Nat} {useSrc : Bool} (h0 : Keeps s0 s) :
    Keeps s0 (collChecked s q c g useSrc) := by
  unfold collChecked
  extract_lets +onlyGivenNames u1 u2 u3 u4
  clear_value u1 u2 u3 u4
  refine Keeps.ite (fun _ => ?_) (fun _ => ?_)
  · exact ustEnd_keeps ‹_›
  · refine Keeps.ite (fun _ => ?_) (fun _ => ?_)
    · exact ustEnd_keeps (State.noteRead_keeps ‹_›)
    · exact collIssue_keeps ‹_›

theorem onFrame_keeps {s0 s : State} {h : UstHeader} {body : State → Nat → State} (h0 : Keeps s0 s)
    (h2 : ∀ a00 a01, Keeps s0 a00 → Keeps s0 (body a00 a01)) : Keeps s0 (onFrame s h body) := by
  unfold onFrame
  extract_lets +onlyGivenNames u1 u2
  clear_value u1 u2
  refine Keeps.ite (fun _ => ?_) (fun _ => ?_)
  · assumption
  · split
    · rename_i x1 x2 x3
      assumption
    · rename_i x4 x5 x6 x7
      refine Keeps.ite (fun _ => ?_) (fun _ => ?_)
      · exact grpDown_keeps (State.bump_keeps (Keeps.opt (p := Keeps s0) ‹_› (linkTake_keeps ‹_›)))
      · apply h2
        exact Keeps.opt (p := Keeps s0) ‹_› (linkTake_keeps ‹_›)

theorem formGroups_keeps {s0 s : State} (h0 : Keeps s0 s) : Keeps s0 (formGroups s) := by
  unfold formGroups
  refine Keeps.foldl ?_ ?_
  · assumption
  · intro v1 v2 v3
    exact grpForm_keeps ‹_›

theorem linkEval_keeps {s0 s : State} {k : Nat} (h0 : Keeps s0 s) : Keeps s0 (linkEval s k) := by
  unfold linkEval
  extract_lets +onlyGivenNames u1 u2 u3
  clear_value u1 u2 u3
  extract_lets +onlyGivenNames u4
  have h1 : Keeps s0 u4 := State.wrs_keeps ‹_›
  clear_value u4
  exact State.wr_keeps ‹_›

theorem linkLost_keeps {s0 s : State} {k : Nat} (h0 : Keeps s0 s) : Keeps s0 (linkLost s k) := by
  unfold linkLost
  refine Keeps.foldl ?_ ?_
  · assumption
  · intro v1 v2 v3
    refine Keeps.ite (fun _ => ?_) (fun _ => ?_)
    · exact grpDown_keeps ‹_›
    · assumption

theorem linkDown_keeps {s0 s : State} {k : Nat} (h0 : Keeps s0 s) : Keeps s0 (linkDown s k) := by
  unfold linkDown
  extract_lets +onlyGivenNames u1
  have h1 : Keeps s0 u1 := Keeps.upd (t := s) rfl rfl rfl ‹_›
  clear_value u1
  exact linkLost_keeps (linkEval_keeps ‹_›)

theorem arriveFrame_keeps {s0 s : State} {h : UstHeader} {type g : Nat} {sig : CollSig} (h0 : Keeps s0 s) :
    Keeps s0 (arriveFrame s h type g sig) := by
  unfold arriveFrame
  extract_lets +onlyGivenNames u1 u2 u3 u4
  clear_value u1 u2 u3 u4
  extract_lets +onlyGivenNames u5
  have h1 : Keeps s0 u5 := grpSend_keeps ‹_›
  clear_value u5
  extract_lets +onlyGivenNames u6
  clear_value u6
  split
  · refine Keeps.ite (fun _ => ?_) (fun _ => ?_)
    · exact collArrive_keeps ‹_›
    · exact holdFrame_keeps ‹_›
  · exact holdFrame_keeps ‹_›

theorem reduceFrame_keeps {s0 s : State} {g o offset : Nat} {ws : List Nat} (h0 : Keeps s0 s) :
    Keeps s0 (reduceFrame s g o offset ws) := by
  unfold reduceFrame
  split
  · refine Keeps.ite (fun _ => ?_) (fun _ => ?_)
    · refine Keeps.ite (fun _ => ?_) (fun _ => ?_)
      · refine Keeps.foldl ?_ ?_
        · assumption
        · intro v1 v2 v3
          refine Keeps.ite (fun _ => ?_) (fun _ => ?_)
          · exact pieceReduce_keeps ‹_›
          · assumption
      · assumption
    · exact holdFrame_keeps ‹_›
  · exact holdFrame_keeps ‹_›

theorem bcastFrame_keeps {s0 s : State} {g k o src offset : Nat} {l : List Byte} (h0 : Keeps s0 s) :
    Keeps s0 (bcastFrame s g k o src offset l) := by
  unfold bcastFrame
  split
  · refine Keeps.ite (fun _ => ?_) (fun _ => ?_)
    · refine Keeps.foldl ?_ ?_
      · assumption
      · intro v1 v2 v3
        refine Keeps.ite (fun _ => ?_) (fun _ => ?_)
        · exact pieceBcast_keeps ‹_›
        · assumption
    · exact holdFrame_keeps ‹_›
  · exact holdFrame_keeps ‹_›

theorem grpEnable_keeps {s0 s : State} {g : Nat} (h0 : Keeps s0 s) : Keeps s0 (grpEnable s g) := by
  unfold grpEnable
  extract_lets +onlyGivenNames u1
  have h1 : Keeps s0 u1 := State.setUstGroup_keeps ‹_›
  clear_value u1
  exact grpForm_keeps (State.wrs_keeps ‹_›)

theorem execUstGroupValidSet_keeps {s0 : State} {g : Fin 64} {v : BitVec 64} {s : State} (h2 : Keeps s0 s) :
    OutAll (Keeps s0) (execUstGroupValidSet g v s) := by
  unfold execUstGroupValidSet
  apply unlessNoImage_keeps
  · assumption
  · split
    · exact OutAll.next ‹_›
    · extract_lets +onlyGivenNames u1
      clear_value u1
      extract_lets +onlyGivenNames u2
      have h1 : Keeps s0 u2 := State.wrs_keeps ‹_›
      clear_value u2
      exact OutAll.next (grpEnable_keeps ‹_›)

theorem execUstGroupValidClear_keeps {s0 : State} {g : Fin 64} {s : State} (h1 : Keeps s0 s) :
    OutAll (Keeps s0) (execUstGroupValidClear g s) := by
  unfold execUstGroupValidClear
  apply unlessNoImage_keeps
  · assumption
  · split
    · exact OutAll.next ‹_›
    · extract_lets +onlyGivenNames u1
      clear_value u1
      extract_lets +onlyGivenNames u2
      have h2 : Keeps s0 u2 := postsFail_keeps (collFail_keeps ‹_›)
      clear_value u2
      extract_lets +onlyGivenNames u3
      have h3 : Keeps s0 u3 := by
        unfold u3
        refine Keeps.foldl ?_ ?_
        · assumption
        · intro v1 v2 v3
          refine Keeps.ite (fun _ => ?_) (fun _ => ?_)
          · exact ustEnd_keeps ‹_›
          · assumption
      clear_value u3
      extract_lets +onlyGivenNames u4
      clear_value u4
      extract_lets +onlyGivenNames u5
      have h4 : Keeps s0 u5 := by
        unfold u5
        refine Keeps.ite (fun _ => ?_) (fun _ => ?_)
        · exact completeRing_keeps ‹_›
        · assumption
      clear_value u5
      exact OutAll.next (countUp_keeps (State.wrs_keeps (State.setUstGroup_keeps ‹_›)))

theorem execCtrBlockGrant_keeps {s0 : State} {b : Fin 256} {glade : BitVec 8} {s : State} (h2 : Keeps s0 s) :
    OutAll (Keeps s0) (execCtrBlockGrant b glade s) := by
  unfold execCtrBlockGrant
  apply unlessNoImage_keeps
  · assumption
  · split
    · exact OutAll.next ‹_›
    · extract_lets +onlyGivenNames u1
      have h1 : Keeps s0 u1 := State.wrs_keeps ‹_›
      clear_value u1
      refine OutAll.next ?_
      refine Keeps.foldl ?_ ?_
      · assumption
      · intro v1 v2 v3
        exact State.wr_keeps ‹_›

theorem ustFetched_keeps {s0 s : State} {qid : Nat} {l : List Byte} {status : Nat} (h0 : Keeps s0 s) :
    Keeps s0 (ustFetched s qid l status) := by
  unfold ustFetched
  extract_lets +onlyGivenNames u1 u2
  clear_value u1 u2
  extract_lets +onlyGivenNames u3
  have h1 : Keeps s0 u3 := State.setQueue_keeps ‹_›
  clear_value u3
  refine Keeps.ite (fun _ => ?_) (fun _ => ?_)
  · exact State.complete_keeps ‹_›
  · refine Keeps.ite (fun _ => ?_) (fun _ => ?_)
    · exact State.complete_keeps ‹_›
    · refine Keeps.ite (fun _ => ?_) (fun _ => ?_)
      · exact State.complete_keeps ‹_›
      · refine Keeps.ite (fun _ => ?_) (fun _ => ?_)
        · exact State.complete_keeps ‹_›
        · refine Keeps.ite (fun _ => ?_) (fun _ => ?_)
          · exact State.complete_keeps ‹_›
          · exact preWait_keeps ‹_›

theorem ustAbort_keeps {s0 s : State} {qid status : Nat} (h0 : Keeps s0 s) : Keeps s0 (ustAbort s qid status) := by
  unfold ustAbort
  extract_lets +onlyGivenNames u1
  have h1 : Keeps s0 u1 := by
    unfold u1
    refine Keeps.foldl ?_ ?_
    · assumption
    · intro v1 v2 v3
      split
      · split
        · extract_lets +onlyGivenNames u2
          have h2 : Keeps s0 u2 := grpSend_keeps ‹_›
          clear_value u2
          exact collFail_keeps ‹_›
        · assumption
      · split
        · split
          · exact resetWins_keeps (grpSend_keeps ‹_›)
          · assumption
        · assumption
  clear_value u1
  extract_lets +onlyGivenNames u3
  have h3 : Keeps s0 u3 := by
    unfold u3
    refine Keeps.foldl ?_ ?_
    · assumption
    · intro v4 v5 v6
      extract_lets +onlyGivenNames u4
      clear_value u4
      exact State.setUstGroup_keeps ‹_›
  clear_value u3
  exact State.completeAll_keeps ‹_›

/-! ### Machine/Scheduler.lean -/

theorem setHead_keeps {s0 s : State} {p : Nat} {f : Flow} {g : Pkt → Pkt} (h0 : Keeps s0 s) : Keeps s0 (setHead s p f g) := by
  unfold setHead
  split
  · assumption
  · refine Keeps.ite (fun _ => ?_) (fun _ => ?_)
    · extract_lets +onlyGivenNames u1
      clear_value u1
      exact State.setPeer_keeps ‹_›
    · extract_lets +onlyGivenNames u2
      clear_value u2
      exact Keeps.upd (t := s) rfl rfl rfl ‹_›

theorem setBucket_keeps {s0 s : State} {k : Nat} {b : Bucket} (h0 : Keeps s0 s) : Keeps s0 (setBucket s k b) := by
  unfold setBucket
  exact Keeps.upd (t := s) rfl rfl rfl ‹_›

theorem policed_keeps {s0 s : State} {k n : Nat} {p : Pkt} {input : Nat} (h0 : Keeps s0 s) :
    Keeps s0 (policed s k n p input).1 := by
  unfold policed
  extract_lets +onlyGivenNames u1
  clear_value u1
  extract_lets +onlyGivenNames u2
  have h1 : Keeps s0 u2 := setBucket_keeps ‹_›
  clear_value u2
  extract_lets +onlyGivenNames u3
  clear_value u3
  extract_lets +onlyGivenNames u4
  have h2 : Keeps s0 u4 := by
    unfold u4
    refine Keeps.ite (fun _ => ?_) (fun _ => ?_)
    · exact State.bump_keeps ‹_›
    · assumption
  clear_value u4
  extract_lets +onlyGivenNames u5 u6
  clear_value u5 u6
  exact Keeps.mkFst ‹_›

theorem meter_keeps {s0 s : State} {port : Nat} {p : Pkt} (h0 : Keeps s0 s) : Keeps s0 (meter s port p).1 := by
  unfold meter
  extract_lets +onlyGivenNames u1
  clear_value u1
  extract_lets +onlyGivenNames u2
  have h1 : FstKeeps s0 u2 := by
    unfold u2
    refine FstKeeps.of ?_
    refine Keeps.foldlFst ?_ ?_
    · exact Keeps.mkFst ‹_›
    · intro v1 v2 v3
      exact policed_keeps ‹_›
  clear_value u2
  exact Keeps.mkFst ‹_›

theorem meterHeads_keeps {s0 s : State} {port : Nat} (h0 : Keeps s0 s) : Keeps s0 (meterHeads s port) := by
  unfold meterHeads
  refine Keeps.foldl ?_ ?_
  · assumption
  · intro v1 v2 v3
    split
    · extract_lets +onlyGivenNames u1
      have h1 : FstKeeps s0 u1 := by
        unfold u1
        refine FstKeeps.of ?_
        split
        · exact meter_keeps ‹_›
        · exact Keeps.mkFst ‹_›
      clear_value u1
      extract_lets +onlyGivenNames u2
      clear_value u2
      extract_lets +onlyGivenNames u3
      have h2 : Keeps s0 u3 := setHead_keeps ‹_›
      clear_value u3
      refine Keeps.ite (fun _ => ?_) (fun _ => ?_)
      · exact setHead_keeps ‹_›
      · assumption
    · assumption

theorem releaseHeld_keeps {s0 s : State} {k : Nat} (h0 : Keeps s0 s) : Keeps s0 (releaseHeld s k) := by
  unfold releaseHeld
  refine Keeps.foldl ?_ ?_
  · assumption
  · intro v1 v2 v3
    refine Keeps.foldl ?_ ?_
    · assumption
    · intro v4 v5 v6
      split
      · refine Keeps.ite (fun _ => ?_) (fun _ => ?_)
        · extract_lets +onlyGivenNames u1 u2
          clear_value u1 u2
          refine Keeps.ite (fun _ => ?_) (fun _ => ?_)
          · assumption
          · extract_lets +onlyGivenNames u3
            have h1 : FstKeeps s0 u3 := by
              unfold u3
              exact FstKeeps.of (policed_keeps ‹_›)
            clear_value u3
            exact setHead_keeps ‹_›
        · assumption
      · assumption

theorem fullBucket_keeps {s0 s : State} {k : Nat} (h0 : Keeps s0 s) : Keeps s0 (fullBucket s k) := by
  unfold fullBucket
  exact setBucket_keeps ‹_›

theorem remeterHeld_keeps {s0 s : State} {k : Nat} (h0 : Keeps s0 s) : Keeps s0 (remeterHeld s k) := by
  unfold remeterHeld
  refine Keeps.foldl ?_ ?_
  · assumption
  · intro v1 v2 v3
    refine Keeps.foldl ?_ ?_
    · assumption
    · intro v4 v5 v6
      split
      · refine Keeps.ite (fun _ => ?_) (fun _ => ?_)
        · extract_lets +onlyGivenNames u1
          have h1 : FstKeeps s0 u1 := by
            unfold u1
            exact FstKeeps.of (policed_keeps ‹_›)
          clear_value u1
          exact setHead_keeps ‹_›
        · assumption
      · assumption

theorem execPolicerWrite_keeps {s0 : State} {k : Fin 1024} {b : Bool} {v : BitVec 64} {s : State} (h3 : Keeps s0 s) :
    OutAll (Keeps s0) (execPolicerWrite k b v s) := by
  unfold execPolicerWrite
  apply unlessNoImage_keeps
  · assumption
  · extract_lets +onlyGivenNames u1
    clear_value u1
    extract_lets +onlyGivenNames u2
    have h1 : Keeps s0 u2 := by
      unfold u2
      refine Keeps.ite (fun _ => ?_) (fun _ => ?_)
      · assumption
      · exact State.wr_keeps ‹_›
    clear_value u2
    extract_lets +onlyGivenNames u3
    have h2 : Keeps s0 u3 := by
      unfold u3
      refine Keeps.ite (fun _ => ?_) (fun _ => ?_)
      · exact State.wrs_keeps ‹_›
      · exact State.wrs_keeps ‹_›
    clear_value u3
    exact OutAll.next (remeterHeld_keeps (fullBucket_keeps ‹_›))

theorem State.setNode_keeps {s0 s : State} {k : Nat} {x : SchNode} (h0 : Keeps s0 s) : Keeps s0 (State.setNode s k x) := by
  unfold State.setNode
  exact Keeps.upd (t := s) rfl rfl rfl ‹_›

theorem accrueNode_keeps {s0 s : State} {k : Nat} {active backlog : Bool} (h0 : Keeps s0 s) :
    Keeps s0 (accrueNode s k active backlog) := by
  unfold accrueNode
  extract_lets +onlyGivenNames u1 u2 u3 u4 u5
  clear_value u1 u2 u3 u4 u5
  exact State.setNode_keeps ‹_›

theorem accruePort_keeps {s0 s : State} {port : Nat} {l : List Cand} (h0 : Keeps s0 s) : Keeps s0 (accruePort s port l) := by
  unfold accruePort
  extract_lets +onlyGivenNames u1 u2 u3
  clear_value u1 u2 u3
  extract_lets +onlyGivenNames u4
  have h1 : Keeps s0 u4 := by
    unfold u4
    refine Keeps.foldl ?_ ?_
    · assumption
    · intro v1 v2 v3
      exact accrueNode_keeps ‹_›
  clear_value u4
  refine Keeps.foldl ?_ ?_
  · assumption
  · intro v4 v5 v6
    exact accrueNode_keeps ‹_›

theorem noteLast_keeps {s0 s : State} {port list x : Nat} (h0 : Keeps s0 s) : Keeps s0 (noteLast s port list x) := by
  unfold noteLast
  exact Keeps.upd (t := s) rfl rfl rfl ‹_›

theorem setFlowDeficit_keeps {s0 s : State} {port code d : Nat} (h0 : Keeps s0 s) :
    Keeps s0 (setFlowDeficit s port code d) := by
  unfold setFlowDeficit
  exact Keeps.upd (t := s) rfl rfl rfl ‹_›

theorem pickFlow_keeps {s0 s : State} {port i : Nat} {l : List Cand} (h0 : Keeps s0 s) :
    OptAll (fun r => Keeps s0 r.2) (pickFlow s port i l) := by
  unfold pickFlow
  extract_lets +onlyGivenNames u1 u2
  clear_value u1 u2
  split
  · extract_lets +onlyGivenNames u3
    have h1 : Keeps s0 u3 := by
      unfold u3
      refine Keeps.foldl ?_ ?_
      · assumption
      · intro v1 v2 v3
        exact setFlowDeficit_keeps ‹_›
    clear_value u3
    refine OptAll.mapAny ?_
    intro v4
    exact Keeps.mkSnd (noteLast_keeps ‹_›)
  · exact OptAll.none

theorem pickInGlade_keeps {s0 s : State} {port g : Nat} {l : List Cand} (h0 : Keeps s0 s) :
    OptAll (fun r => Keeps s0 r.2) (pickInGlade s port g l) := by
  unfold pickInGlade
  extract_lets +onlyGivenNames u1 u2
  clear_value u1 u2
  split
  · refine OptAll.mapSnd (s := s0) ?_ ?_
    · exact pickFlow_keeps ‹_›
    · intro v1 v2
      exact Keeps.mkSnd (noteLast_keeps ‹_›)
  · split
    · extract_lets +onlyGivenNames u3
      have h1 : Keeps s0 u3 := by
        unfold u3
        refine Keeps.foldl ?_ ?_
        · assumption
        · intro v3 v4 v5
          refine Keeps.ite (fun _ => ?_) (fun _ => ?_)
          · exact State.setNode_keeps ‹_›
          · exact setFlowDeficit_keeps ‹_›
      clear_value u3
      extract_lets +onlyGivenNames u4
      have h2 : Keeps s0 u4 := noteLast_keeps ‹_›
      clear_value u4
      split
      · exact pickFlow_keeps ‹_›
      · refine OptAll.mapAny ?_
        intro v6
        exact Keeps.mkSnd ‹_›
    · exact OptAll.none

theorem pickData_keeps {s0 s : State} {port : Nat} {l : List Cand} (h0 : Keeps s0 s) :
    OptAll (fun r => Keeps s0 r.2) (pickData s port l) := by
  unfold pickData
  extract_lets +onlyGivenNames u1 u2
  clear_value u1 u2
  split
  · refine OptAll.mapSnd (s := s0) ?_ ?_
    · exact pickInGlade_keeps ‹_›
    · intro v1 v2
      exact Keeps.mkSnd (noteLast_keeps ‹_›)
  · split
    · refine OptAll.mapSnd (s := s0) ?_ ?_
      · exact pickInGlade_keeps ‹_›
      · intro v3 v4
        exact Keeps.mkSnd (noteLast_keeps ‹_›)
    · extract_lets +onlyGivenNames u3 u4
      clear_value u3 u4
      split
      · extract_lets +onlyGivenNames u5
        have h1 : Keeps s0 u5 := by
          unfold u5
          refine Keeps.foldl ?_ ?_
          · assumption
          · intro v5 v6 v7
            exact State.setNode_keeps ‹_›
        clear_value u5
        exact pickInGlade_keeps (noteLast_keeps ‹_›)
      · exact OptAll.none

theorem chargeNode_keeps {s0 s : State} {k n : Nat} (h0 : Keeps s0 s) : Keeps s0 (chargeNode s k n) := by
  unfold chargeNode
  extract_lets +onlyGivenNames u1 u2
  clear_value u1 u2
  exact State.setNode_keeps ‹_›

theorem countAhead_keeps {s0 s : State} {port n : Nat} (h0 : Keeps s0 s) : Keeps s0 (countAhead s port n) := by
  unfold countAhead
  exact Keeps.upd (t := s) rfl rfl rfl ‹_›

theorem sendControl_keeps {s0 s : State} {port : Nat} {c : Ctl} (h0 : Keeps s0 s) : Keeps s0 (sendControl s port c) := by
  unfold sendControl
  extract_lets +onlyGivenNames u1
  have h1 : Keeps s0 u1 := transmit_keeps ‹_›
  clear_value u1
  extract_lets +onlyGivenNames u2
  have h2 : Keeps s0 u2 := countAhead_keeps ‹_›
  clear_value u2
  extract_lets +onlyGivenNames u3
  clear_value u3
  refine Keeps.ite (fun _ => ?_) (fun _ => ?_)
  · exact sendHello_keeps ‹_›
  · assumption

theorem noteSource_keeps {s0 s : State} {k : Pkt} (h0 : Keeps s0 s) : Keeps s0 (noteSource s k) := by
  unfold noteSource
  split
  · exact State.noteRead_keeps ‹_›
  · assumption

theorem sendUnread_keeps {s0 s : State} {d : Nat} {k : Pkt} (h0 : Keeps s0 s) : Keeps s0 (sendUnread s d k).1 := by
  unfold sendUnread
  extract_lets +onlyGivenNames u1
  clear_value u1
  split
  · exact Keeps.mkFst ‹_›
  · extract_lets +onlyGivenNames u2 u3
    clear_value u2 u3
    extract_lets +onlyGivenNames u4
    have h1 : SndKeeps s0 u4 := by
      unfold u4
      exact SndKeeps.of (State.freeBytes_keeps (State.setPeer_keeps ‹_›))
    clear_value u4
    exact Keeps.mkFst ‹_›

theorem sendReliable_keeps {s0 s : State} {port d : Nat} {k : Pkt} (h0 : Keeps s0 s) :
    Keeps s0 (sendReliable s port d k) := by
  unfold sendReliable
  extract_lets +onlyGivenNames u1 u2 u3 u4 u5 u6
  clear_value u1 u2 u3 u4 u5 u6
  extract_lets +onlyGivenNames u7
  have h1 : Keeps s0 u7 := State.setPeer_keeps ‹_›
  clear_value u7
  extract_lets +onlyGivenNames u8
  clear_value u8
  extract_lets +onlyGivenNames u9
  have h2 : FstKeeps s0 u9 := by
    unfold u9
    exact FstKeeps.of (sendUnread_keeps (noteSource_keeps ‹_›))
  clear_value u9
  extract_lets +onlyGivenNames u10
  have h3 : Keeps s0 u10 := by
    unfold u10
    assumption
  clear_value u10
  extract_lets +onlyGivenNames u11
  clear_value u11
  extract_lets +onlyGivenNames u12
  have h4 : Keeps s0 u12 := transmit_keeps ‹_›
  clear_value u12
  refine Keeps.ite (fun _ => ?_) (fun _ => ?_)
  · exact State.bump_keeps ‹_›
  · split
    · exact State.emit_keeps ‹_›
    · assumption

theorem chargeGlade_keeps {s0 s : State} {port : Nat} {k : Pkt} {n : Nat} (h0 : Keeps s0 s) :
    Keeps s0 (chargeGlade s port k n) := by
  unfold chargeGlade
  extract_lets +onlyGivenNames u1
  have h1 : Keeps s0 u1 := State.meterAdd_keeps (State.bump_keeps ‹_›)
  clear_value u1
  extract_lets +onlyGivenNames u2
  have h2 : Keeps s0 u2 := chargeNode_keeps ‹_›
  clear_value u2
  split
  · exact chargeNode_keeps ‹_›
  · assumption

theorem takeFresh_keeps {s0 s : State} {port : Nat} {f : Flow} (h0 : Keeps s0 s) : Keeps s0 (takeFresh s port f) := by
  unfold takeFresh
  extract_lets +onlyGivenNames u1
  clear_value u1
  exact Keeps.upd (t := s) rfl rfl rfl ‹_›

theorem sendResponse_keeps {s0 s : State} {port d : Nat} {k : Pkt} (h0 : Keeps s0 s) :
    Keeps s0 (sendResponse s port d k) := by
  unfold sendResponse
  extract_lets +onlyGivenNames u1
  clear_value u1
  extract_lets +onlyGivenNames u2
  have h1 : Keeps s0 u2 := Keeps.upd (t := s) rfl rfl rfl ‹_›
  clear_value u2
  extract_lets +onlyGivenNames u3
  clear_value u3
  extract_lets +onlyGivenNames u4
  have h2 : Keeps s0 u4 := sendReliable_keeps ‹_›
  clear_value u4
  exact chargeGlade_keeps (countAhead_keeps ‹_›)

theorem sendData_keeps {s0 s : State} {port : Nat} {c : Cand} (h0 : Keeps s0 s) : Keeps s0 (sendData s port c) := by
  unfold sendData
  refine Keeps.ite (fun _ => ?_) (fun _ => ?_)
  · exact endOps_keeps (noteSource_keeps ‹_›)
  · extract_lets +onlyGivenNames u1
    have h1 : Keeps s0 u1 := by
      unfold u1
      refine Keeps.ite (fun _ => ?_) (fun _ => ?_)
      · assumption
      · exact takeFresh_keeps ‹_›
    clear_value u1
    extract_lets +onlyGivenNames u2
    have h2 : Keeps s0 u2 := by
      unfold u2
      refine Keeps.foldl ?_ ?_
      · assumption
      · intro v1 v2 v3
        refine Keeps.ite (fun _ => ?_) (fun _ => ?_)
        · exact State.bump_keeps ‹_›
        · assumption
    clear_value u2
    extract_lets +onlyGivenNames u3 u4 u5
    clear_value u3 u4 u5
    extract_lets +onlyGivenNames u6
    have h3 : Keeps s0 u6 := State.setNode_keeps ‹_›
    clear_value u6
    exact chargeGlade_keeps (sendReliable_keeps ‹_›)

theorem noteQual_keeps {s0 s : State} {port : Nat} {l : List Cand} (h0 : Keeps s0 s) : Keeps s0 (noteQual s port l) := by
  unfold noteQual
  refine Keeps.foldl ?_ ?_
  · assumption
  · intro v1 v2 v3
    split
    · assumption
    · extract_lets +onlyGivenNames u1
      clear_value u1
      extract_lets +onlyGivenNames u2
      have h1 : Keeps s0 u2 := State.setNode_keeps ‹_›
      clear_value u2
      split
      · exact State.setNode_keeps ‹_›
      · assumption

theorem schedUpdate_keeps {s0 s : State} {port : Nat} (h0 : Keeps s0 s) : Keeps s0 (schedUpdate s port) := by
  unfold schedUpdate
  extract_lets +onlyGivenNames u1
  have h1 : Keeps s0 u1 := meterHeads_keeps ‹_›
  clear_value u1
  exact noteQual_keeps (accruePort_keeps ‹_›)

theorem dropDeficits_keeps {s0 s : State} {port : Nat} (h0 : Keeps s0 s) : Keeps s0 (dropDeficits s port) := by
  unfold dropDeficits
  extract_lets +onlyGivenNames u1 u2
  clear_value u1 u2
  exact Keeps.upd (t := s) rfl rfl rfl ‹_›

theorem schedTick_keeps {s0 s : State} (h0 : Keeps s0 s) : Keeps s0 (schedTick s) := by
  unfold schedTick
  refine Keeps.foldl ?_ ?_
  · assumption
  · intro v1 v2 v3
    refine Keeps.ite (fun _ => ?_) (fun _ => ?_)
    · exact dropDeficits_keeps (schedUpdate_keeps ‹_›)
    · assumption

theorem decidePort_keeps {s0 s : State} {port : Nat} (h0 : Keeps s0 s) : Keeps s0 (decide_ s port) := by
  unfold decide_
  refine Keeps.ite (fun _ => ?_) (fun _ => ?_)
  · assumption
  · extract_lets +onlyGivenNames u1
    have h1 : Keeps s0 u1 := dropDeficits_keeps (schedUpdate_keeps ‹_›)
    clear_value u1
    extract_lets +onlyGivenNames u2 u3
    clear_value u2 u3
    split
    · exact sendControl_keeps (Keeps.upd (t := u1) rfl rfl rfl ‹_›)
    · split
      · exact sendResponse_keeps ‹_›
      · split
        · rename_i x1 x2 x3 x4 x5 x6 x7 x8 x9
          exact sendData_keeps (Keeps.optSnd ‹_› (pickData_keeps ‹_›))
        · rename_i x10 x11 x12 x13 x14 x15 x16
          assumption

theorem shortfall_keeps {s0 s : State} {port kind : Nat} {inst : Option Nat} {glade bound amount : Nat}
    (h0 : Keeps s0 s) : Keeps s0 (shortfall s port kind inst glade bound amount) := by
  unfold shortfall
  exact State.raise_keeps ‹_›

theorem reportNode_keeps {s0 s : State} {port : Nat} {inst : Option Nat} {glade : Nat} (h0 : Keeps s0 s) :
    Keeps s0 (reportNode s port inst glade) := by
  unfold reportNode
  extract_lets +onlyGivenNames u1 u2 u3 u4
  clear_value u1 u2 u3 u4
  extract_lets +onlyGivenNames u5
  have h1 : Keeps s0 u5 := by
    unfold u5
    refine Keeps.ite (fun _ => ?_) (fun _ => ?_)
    · exact shortfall_keeps ‹_›
    · assumption
  clear_value u5
  extract_lets +onlyGivenNames u6 u7
  clear_value u6 u7
  extract_lets +onlyGivenNames u8
  have h2 : Keeps s0 u8 := by
    unfold u8
    refine Keeps.ite (fun _ => ?_) (fun _ => ?_)
    · exact shortfall_keeps ‹_›
    · assumption
  clear_value u8
  exact State.setNode_keeps ‹_›

theorem scaleNodes_keeps {s0 s : State} {nodes : List Nat} {avail demand : Nat} (h0 : Keeps s0 s) :
    Keeps s0 (scaleNodes s nodes avail demand) := by
  unfold scaleNodes
  refine Keeps.foldl ?_ ?_
  · assumption
  · intro v1 v2 v3
    extract_lets +onlyGivenNames u1
    clear_value u1
    exact State.setNode_keeps ‹_›

theorem evalPort_keeps {s0 s : State} {port : Nat} (h0 : Keeps s0 s) : Keeps s0 (evalPort s port) := by
  unfold evalPort
  extract_lets +onlyGivenNames u1 u2 u3
  clear_value u1 u2 u3
  extract_lets +onlyGivenNames u4
  extract_lets +onlyGivenNames u5
  have h1 : Keeps s0 u5 := by
    unfold u5
    refine Keeps.ite (fun _ => ?_) (fun _ => ?_)
    · refine Keeps.foldl ?_ ?_
      · assumption
      · intro v1 v2 v3
        exact reportNode_keeps ‹_›
    · assumption
  clear_value u5
  extract_lets +onlyGivenNames u6
  have h2 : Keeps s0 u6 := by
    unfold u6
    refine Keeps.ite (fun _ => ?_) (fun _ => ?_)
    · refine Keeps.foldl ?_ ?_
      · assumption
      · intro v4 v5 v6
        exact reportNode_keeps ‹_›
    · assumption
  clear_value u6
  extract_lets +onlyGivenNames u7 u8 u9 u10 u11 u12
  clear_value u7 u8 u9 u10 u11 u12
  extract_lets +onlyGivenNames u13
  have h3 : Keeps s0 u13 := State.wrs_keeps ‹_›
  clear_value u13
  extract_lets +onlyGivenNames u14
  have h4 : Keeps s0 u14 := scaleNodes_keeps ‹_›
  clear_value u14
  extract_lets +onlyGivenNames u15
  have h5 : Keeps s0 u15 := by
    unfold u15
    refine Keeps.foldl ?_ ?_
    · assumption
    · intro v7 v8 v9
      exact scaleNodes_keeps ‹_›
  clear_value u15
  extract_lets +onlyGivenNames u16
  clear_value u16
  exact Keeps.upd (t := u15) rfl rfl rfl ‹_›

theorem endShortfalls_keeps {s0 s : State} {port : Nat} (h0 : Keeps s0 s) : Keeps s0 (endShortfalls s port) := by
  unfold endShortfalls
  refine Keeps.foldl ?_ ?_
  · assumption
  · intro v1 v2 v3
    refine Keeps.ite (fun _ => ?_) (fun _ => ?_)
    · extract_lets +onlyGivenNames u1 u2 u3
      clear_value u1 u2 u3
      extract_lets +onlyGivenNames u4
      have h1 : Keeps s0 u4 := by
        unfold u4
        refine Keeps.ite (fun _ => ?_) (fun _ => ?_)
        · exact shortfall_keeps ‹_›
        · assumption
      clear_value u4
      extract_lets +onlyGivenNames u5
      have h2 : Keeps s0 u5 := by
        unfold u5
        refine Keeps.ite (fun _ => ?_) (fun _ => ?_)
        · exact shortfall_keeps ‹_›
        · assumption
      clear_value u5
      exact State.setNode_keeps ‹_›
    · assumption

theorem schGladeReset_keeps {s0 s : State} {g : Nat} (h0 : Keeps s0 s) : Keeps s0 (schGladeReset s g) := by
  unfold schGladeReset
  extract_lets +onlyGivenNames u1
  have h1 : Keeps s0 u1 := by
    unfold u1
    refine Keeps.foldl ?_ ?_
    · assumption
    · intro v1 v2 v3
      exact State.setNode_keeps ‹_›
  clear_value u1
  refine Keeps.foldl ?_ ?_
  · assumption
  · intro v4 v5 v6
    refine Keeps.ite (fun _ => ?_) (fun _ => ?_)
    · exact fullBucket_keeps ‹_›
    · assumption

theorem cutCredits_keeps {s0 s : State} {n : Nat} (h0 : Keeps s0 s) : Keeps s0 (cutCredits s n) := by
  unfold cutCredits
  refine Keeps.foldl ?_ ?_
  · assumption
  · intro v1 v2 v3
    extract_lets +onlyGivenNames u1 u2
    clear_value u1 u2
    exact State.setNode_keeps ‹_›

theorem nodeB_keeps {s0 s : State} {inst : Bool} {n v : Nat} (h0 : Keeps s0 s) : Keeps s0 (nodeB s inst n v) := by
  unfold nodeB
  extract_lets +onlyGivenNames u1 u2 u3 u4
  clear_value u1 u2 u3 u4
  extract_lets +onlyGivenNames u5
  have h1 : Keeps s0 u5 := by
    unfold u5
    refine Keeps.ite (fun _ => ?_) (fun _ => ?_)
    · exact State.wrs_keeps ‹_›
    · exact State.wrs_keeps ‹_›
  clear_value u5
  extract_lets +onlyGivenNames u6
  have h2 : Keeps s0 u6 := by
    unfold u6
    refine Keeps.ite (fun _ => ?_) (fun _ => ?_)
    · exact State.wr_keeps ‹_›
    · assumption
  clear_value u6
  exact cutCredits_keeps ‹_›

theorem nodeA_keeps {s0 s : State} {inst : Bool} {n v : Nat} (h0 : Keeps s0 s) : Keeps s0 (nodeA s inst n v) := by
  unfold nodeA
  refine Keeps.ite (fun _ => ?_) (fun _ => ?_)
  · exact State.wrs_keeps ‹_›
  · exact State.wrs_keeps ‹_›

theorem execSchNodeWrite_keeps {s0 : State} {inst : Bool} {n : Fin 4096} {b : Bool} {v : BitVec 64} {s : State}
    (h4 : Keeps s0 s) : OutAll (Keeps s0) (execSchNodeWrite inst n b v s) := by
  unfold execSchNodeWrite
  apply unlessNoImage_keeps
  · assumption
  · split
    · exact OutAll.next ‹_›
    · split
      · exact OutAll.next (nodeB_keeps ‹_›)
      · exact OutAll.next (nodeA_keeps ‹_›)

/-! ### Machine/SaloaQueues.lean -/

theorem targetCheck_keeps {s0 s : State} {src ftn key need a n : Nat} (h0 : Keeps s0 s) :
    Keeps s0 (targetCheck s src ftn key need a n).1 := by
  unfold targetCheck
  extract_lets +onlyGivenNames u1
  clear_value u1
  extract_lets +onlyGivenNames u2
  have h1 : Keeps s0 u2 := noteLookup_keeps ‹_›
  clear_value u2
  extract_lets +onlyGivenNames u3
  have h2 : Keeps s0 u3 := by
    unfold u3
    refine Keeps.ite (fun _ => ?_) (fun _ => ?_)
    · assumption
    · exact remoteDenied_keeps ‹_›
  clear_value u3
  exact Keeps.mkFst ‹_›

theorem targetWrite_keeps {s0 s : State} {src ftn key a : Nat} {l : List Byte} (h0 : Keeps s0 s) :
    Keeps s0 (targetWrite s src ftn key a l).1 := by
  unfold targetWrite
  extract_lets +onlyGivenNames u1
  have h1 : FstKeeps s0 u1 := by
    unfold u1
    exact FstKeeps.of (targetCheck_keeps ‹_›)
  clear_value u1
  split
  · exact State.gladeWrite_keeps ‹_›
  · exact Keeps.mkFst ‹_›

theorem targetPost_keeps {s0 s : State} {key rctr rinc : Nat} (h0 : Keeps s0 s) :
    Keeps s0 (targetPost s key rctr rinc).1 := by
  unfold targetPost
  split
  · exact Keeps.mkFst ‹_›
  · split
    · exact Keeps.mkFst (State.addCtr_keeps ‹_›)
    · exact Keeps.mkFst ‹_›

theorem targetReadable_keeps {s0 s : State} {src ftn key a n : Nat} (h0 : Keeps s0 s) :
    Keeps s0 (targetReadable s src ftn key a n).1 := by
  unfold targetReadable
  extract_lets +onlyGivenNames u1
  have h1 : FstKeeps s0 u1 := by
    unfold u1
    exact FstKeeps.of (targetCheck_keeps ‹_›)
  clear_value u1
  split
  · exact Keeps.mkFst ‹_›
  · extract_lets +onlyGivenNames u2
    clear_value u2
    exact Keeps.mkFst (State.noteStatus_keeps ‹_›)

theorem targetAtomic_keeps {s0 s : State} {src ftn key a opv : Nat} {cas : Option Nat} (h0 : Keeps s0 s) :
    Keeps s0 (targetAtomic s src ftn key a opv cas).1 := by
  unfold targetAtomic
  extract_lets +onlyGivenNames u1
  have h1 : FstKeeps s0 u1 := by
    unfold u1
    exact FstKeeps.of (targetCheck_keeps ‹_›)
  clear_value u1
  split
  · exact Keeps.mkFst ‹_›
  · exact gladeAtomic_keeps ‹_›

theorem takeBuffer_keeps {s0 s : State} {qid : Nat} (h0 : Keeps s0 s) :
    OptAll (fun r => Keeps s0 r.2) (takeBuffer s qid) := by
  unfold takeBuffer
  extract_lets +onlyGivenNames u1
  clear_value u1
  extract_lets +onlyGivenNames u2
  have h1 : Keeps s0 u2 := touchCtx_keeps ‹_›
  clear_value u2
  split
  · exact OptAll.some (Keeps.mkSnd (State.setCmd_keeps ‹_›))
  · split
    · extract_lets +onlyGivenNames u3
      clear_value u3
      split
      · extract_lets +onlyGivenNames u4
        clear_value u4
        exact OptAll.some (Keeps.mkSnd (State.setQueue_keeps ‹_›))
      · exact OptAll.none
    · exact OptAll.none

theorem recvDone_keeps {s0 s : State} {qid entry written status src ftn : Nat} (h0 : Keeps s0 s) :
    Keeps s0 (recvDone s qid entry written status src ftn) := by
  unfold recvDone
  split
  · assumption
  · extract_lets +onlyGivenNames u1
    have h1 : Keeps s0 u1 := State.complete_keeps ‹_›
    clear_value u1
    extract_lets +onlyGivenNames u2
    clear_value u2
    exact State.setQueue_keeps ‹_›

theorem deliver_keeps {s0 s : State} {qid src ftn : Nat} {l : List Byte} (h0 : Keeps s0 s) :
    OptAll (fun r => Keeps s0 r.1) (deliver s qid src ftn l) := by
  unfold deliver
  split
  · exact OptAll.some (Keeps.mkFst ‹_›)
  · split
    · rename_i x1 x2 x3
      exact OptAll.none
    · rename_i x4 x5 x6 x7 x8
      extract_lets +onlyGivenNames u1
      clear_value u1
      extract_lets +onlyGivenNames u2
      have h1 : Keeps s0 u2 := noteLookup_keeps (Keeps.optSnd ‹_› (takeBuffer_keeps ‹_›))
      clear_value u2
      split
      · exact OptAll.some (Keeps.mkFst (recvDone_keeps ‹_›))
      · extract_lets +onlyGivenNames u3 u4
        clear_value u3 u4
        extract_lets +onlyGivenNames u5
        have h2 : FstKeeps s0 u5 := by
          unfold u5
          exact FstKeeps.of (State.gladeWrite_keeps ‹_›)
        clear_value u5
        extract_lets +onlyGivenNames u6
        clear_value u6
        exact OptAll.some (Keeps.mkFst (recvDone_keeps ‹_›))

theorem salEnd_keeps {s0 s : State} {t : Nat} {c : Cmd} {status : Nat} (h0 : Keeps s0 s) :
    Keeps s0 (salEnd s t c status) := by
  unfold salEnd
  exact State.complete_keeps ‹_›

theorem salRun_keeps {s0 s : State} {t op : Nat} {own : State → Cmd → State} (h0 : Keeps s0 s)
    (h3 : ∀ a00 a01, Keeps s0 a00 → Keeps s0 (own a00 a01)) : Keeps s0 (salRun s t op own) := by
  unfold salRun
  split
  · assumption
  · extract_lets +onlyGivenNames u1 u2
    clear_value u1 u2
    extract_lets +onlyGivenNames u3
    have h1 : Keeps s0 u3 := by
      unfold u3
      refine Keeps.ite (fun _ => ?_) (fun _ => ?_)
      · assumption
      · exact noteLookup_keeps ‹_›
    clear_value u3
    extract_lets +onlyGivenNames u4
    have h2 : Keeps s0 u4 := State.noteStatus_keeps ‹_›
    clear_value u4
    refine Keeps.ite (fun _ => ?_) (fun _ => ?_)
    · exact salEnd_keeps ‹_›
    · refine Keeps.ite (fun _ => ?_) (fun _ => ?_)
      · apply h3
        assumption
      · exact startOp_keeps (State.setCmd_keeps ‹_›)

theorem salLand_keeps {s0 s : State} {t : Nat} {c : Cmd} {off : Nat} {l : List Byte} (h0 : Keeps s0 s) :
    Keeps s0 (salLand s t c off l).1 := by
  unfold salLand
  exact State.gladeWrite_keeps ‹_›

theorem salAtomicEnd_keeps {s0 : State} {t : Nat} {c : Cmd} {r : State × Nat × Nat} (h2 : Keeps s0 r.1) :
    Keeps s0 (salAtomicEnd t c r) := by
  unfold salAtomicEnd
  refine Keeps.ite (fun _ => ?_) (fun _ => ?_)
  · exact salEnd_keeps ‹_›
  · extract_lets +onlyGivenNames u1
    have h1 : FstKeeps s0 u1 := by
      unfold u1
      exact FstKeeps.of (salLand_keeps ‹_›)
    clear_value u1
    exact salEnd_keeps ‹_›

theorem withdrawSend_keeps {s0 s : State} {d psn msg : Nat} (h0 : Keeps s0 s) : Keeps s0 (withdrawSend s d psn msg) := by
  unfold withdrawSend
  extract_lets +onlyGivenNames u1 u2 u3 u4
  clear_value u1 u2 u3 u4
  extract_lets +onlyGivenNames u5
  have h1 : Keeps s0 u5 := State.setPeer_keeps ‹_›
  clear_value u5
  extract_lets +onlyGivenNames u6
  have h2 : Keeps s0 u6 := keepPackets_keeps ‹_›
  clear_value u6
  refine Keeps.foldl ?_ ?_
  · assumption
  · intro v1 v2 v3
    split
    · exact Keeps.upd (t := v1) rfl rfl rfl ‹_›
    · extract_lets +onlyGivenNames u7
      have h3 : Keeps s0 u7 := by
        unfold u7
        refine Keeps.ite (fun _ => ?_) (fun _ => ?_)
        · assumption
        · exact enqueue_keeps ‹_›
      clear_value u7
      extract_lets +onlyGivenNames u8
      clear_value u8
      exact Keeps.upd (t := u7) rfl rfl rfl ‹_›

theorem giveUpSend_keeps {s0 s : State} {d : Nat} {p : Pkt} (h0 : Keeps s0 s) : Keeps s0 (giveUpSend s d p) := by
  unfold giveUpSend
  extract_lets +onlyGivenNames u1
  clear_value u1
  extract_lets +onlyGivenNames u2
  have h1 : Keeps s0 u2 := withdrawSend_keeps ‹_›
  clear_value u2
  split
  · split
    · refine Keeps.ite (fun _ => ?_) (fun _ => ?_)
      · exact State.complete_keeps ‹_›
      · assumption
    · assumption
  · assumption

theorem salFetched_keeps {s0 s : State} {qid : Nat} {l : List Byte} {status : Nat} (h0 : Keeps s0 s) :
    Keeps s0 (salFetched s qid l status) := by
  unfold salFetched
  extract_lets +onlyGivenNames u1 u2
  clear_value u1 u2
  extract_lets +onlyGivenNames u3
  have h1 : Keeps s0 u3 := State.setQueue_keeps ‹_›
  clear_value u3
  refine Keeps.ite (fun _ => ?_) (fun _ => ?_)
  · exact State.complete_keeps ‹_›
  · refine Keeps.ite (fun _ => ?_) (fun _ => ?_)
    · exact State.complete_keeps ‹_›
    · refine Keeps.ite (fun _ => ?_) (fun _ => ?_)
      · assumption
      · refine Keeps.ite (fun _ => ?_) (fun _ => ?_)
        · exact State.complete_keeps ‹_›
        · refine Keeps.ite (fun _ => ?_) (fun _ => ?_)
          · exact State.complete_keeps ‹_›
          · exact preWait_keeps ‹_›

theorem salAbort_keeps {s0 s : State} {qid status : Nat} (h0 : Keeps s0 s) : Keeps s0 (salAbort s qid status) := by
  unfold salAbort
  extract_lets +onlyGivenNames u1
  have h1 : Keeps s0 u1 := forgetQueue_keeps ‹_›
  clear_value u1
  extract_lets +onlyGivenNames u2
  clear_value u2
  extract_lets +onlyGivenNames u3
  have h2 : Keeps s0 u3 := Keeps.upd (t := u1) rfl rfl rfl ‹_›
  clear_value u3
  exact State.completeAll_keeps ‹_›

end Sys2Proof.Machine
end

