-- ==== Sys2Proof/Laws/KeepsStorage.lean ====
section
/-! SUPPORT. What the operations of storage, security, the growth rings and the twin keep: the waiting commands and the canonical form. One
lemma for each operation. -/
namespace Sys2Proof.Machine

open Sys2Proof

/-! ### Machine/Storage.lean -/

theorem State.setTag_keeps {s0 s : State} {q t : Nat} {x : StqTag} (h0 : Keeps s0 s) : Keeps s0 (State.setTag s q t x) := by
  unfold State.setTag
  exact Keeps.upd (t := s) rfl rfl rfl ‹_›

theorem State.setStqInst_keeps {s0 s : State} {i : Nat} {x : StqInst} (h0 : Keeps s0 s) :
    Keeps s0 (State.setStqInst s i x) := by
  unfold State.setStqInst
  exact Keeps.upd (t := s) rfl rfl rfl ‹_›

theorem volStat_keeps {s0 s : State} {g : Nat} {v : Vol} {k n : Nat} (h0 : Keeps s0 s) : Keeps s0 (volStat s g v k n) := by
  unfold volStat
  extract_lets +onlyGivenNames u1 u2 u3 u4
  clear_value u1 u2 u3 u4
  extract_lets +onlyGivenNames u5
  have h1 : Keeps s0 u5 := Keeps.upd (t := s) rfl rfl rfl ‹_›
  clear_value u5
  refine Keeps.ite (fun _ => ?_) (fun _ => ?_)
  · exact State.meterAdd_keeps ‹_›
  · assumption

theorem State.setSlots_keeps {s0 s : State} {g : Nat} {l : List StqSlot} (h0 : Keeps s0 s) :
    Keeps s0 (State.setSlots s g l) := by
  unfold State.setSlots
  extract_lets +onlyGivenNames u1
  clear_value u1
  extract_lets +onlyGivenNames u2
  have h1 : Keeps s0 u2 := Keeps.upd (t := s) rfl rfl rfl ‹_›
  clear_value u2
  exact State.wr_keeps ‹_›

theorem releaseSlot_keeps {s0 s : State} {g q t uses : Nat} (h0 : Keeps s0 s) : Keeps s0 (releaseSlot s g q t uses) := by
  unfold releaseSlot
  exact State.setSlots_keeps ‹_›

theorem quarantineSlot_keeps {s0 s : State} {g q t uses : Nat} (h0 : Keeps s0 s) :
    Keeps s0 (quarantineSlot s g q t uses) := by
  unfold quarantineSlot
  exact State.setSlots_keeps ‹_›

theorem execStagingEnable_keeps {s0 : State} {g : Fin 256} {v : BitVec 64} {b : BitVec 16} {s : State} (h3 : Keeps s0 s)
    : OutAll (Keeps s0) (execStagingEnable g v b s) := by
  unfold execStagingEnable
  apply unlessNoImage_keeps
  · assumption
  · extract_lets +onlyGivenNames u1 u2
    clear_value u1 u2
    extract_lets +onlyGivenNames u3
    have h1 : Keeps s0 u3 := by
      unfold u3
      refine Keeps.ite (fun _ => ?_) (fun _ => ?_)
      · assumption
      · exact State.wrs_keeps ‹_›
    clear_value u3
    split
    · split
      · exact OutAll.next ‹_›
      · extract_lets +onlyGivenNames u4 u5 u6
        clear_value u4 u5 u6
        split
        · exact OutAll.next (State.setSlots_keeps (State.wrs_keeps ‹_›))
        · exact OutAll.next (State.wr_keeps ‹_›)
    · exact OutAll.next (State.wr_keeps ‹_›)

theorem State.setDirty_keeps {s0 s : State} {q : Nat} {l : List Nat} (h0 : Keeps s0 s) : Keeps s0 (State.setDirty s q l) := by
  unfold State.setDirty
  exact Keeps.upd (t := s) rfl rfl rfl ‹_›

theorem stqFail_keeps {s0 s : State} {q : Nat} {c : Cmd} {status result : Nat} (h0 : Keeps s0 s) :
    Keeps s0 (stqFail s q c status result) := by
  unfold stqFail
  extract_lets +onlyGivenNames u1 u2 u3 u4 u5
  clear_value u1 u2 u3 u4 u5
  extract_lets +onlyGivenNames u6
  have h1 : Keeps s0 u6 := State.setStqInst_keeps ‹_›
  clear_value u6
  extract_lets +onlyGivenNames u7
  have h2 : Keeps s0 u7 := State.bump_keeps ‹_›
  clear_value u7
  extract_lets +onlyGivenNames u8
  clear_value u8
  refine Keeps.ite (fun _ => ?_) (fun _ => ?_)
  · exact State.raise_keeps ‹_›
  · assumption

theorem stqFinish_keeps {s0 s : State} {q entry status result : Nat} (h0 : Keeps s0 s) :
    Keeps s0 (stqFinish s q entry status result) := by
  unfold stqFinish
  extract_lets +onlyGivenNames u1
  clear_value u1
  split
  · extract_lets +onlyGivenNames u2 u3
    clear_value u2 u3
    extract_lets +onlyGivenNames u4
    have h1 : Keeps s0 u4 := by
      unfold u4
      refine Keeps.ite (fun _ => ?_) (fun _ => ?_)
      · exact quarantineSlot_keeps ‹_›
      · exact releaseSlot_keeps ‹_›
    clear_value u4
    extract_lets +onlyGivenNames u5
    have h2 : Keeps s0 u5 := State.setTag_keeps ‹_›
    clear_value u5
    extract_lets +onlyGivenNames u6
    have h3 : Keeps s0 u6 := State.bump_keeps ‹_›
    clear_value u6
    extract_lets +onlyGivenNames u7 u8 u9
    clear_value u7 u8 u9
    extract_lets +onlyGivenNames u10
    have h4 : ∀ a00, Keeps s0 a00 → Keeps s0 (u10 a00) := by
      unfold u10
      intro v1 v2
      exact State.setDirty_keeps ‹_›
    clear_value u10
    extract_lets +onlyGivenNames u11
    have h5 : Keeps s0 u11 := by
      unfold u11
      refine Keeps.ite (fun _ => ?_) (fun _ => ?_)
      · exact volStat_keeps ‹_›
      · assumption
    clear_value u11
    extract_lets +onlyGivenNames u12
    have h6 : Keeps s0 u12 := by
      unfold u12
      refine Keeps.ite (fun _ => ?_) (fun _ => ?_)
      · exact State.setDirty_keeps ‹_›
      · assumption
    clear_value u12
    extract_lets +onlyGivenNames u13
    have h7 : Keeps s0 u13 := stqFail_keeps ‹_›
    clear_value u13
    extract_lets +onlyGivenNames u14
    have h8 : Keeps s0 u14 := by
      unfold u14
      refine Keeps.ite (fun _ => ?_) (fun _ => ?_)
      · split
        · exact volStat_keeps (State.bump_keeps ‹_›)
        · apply h4
          exact volStat_keeps (State.bump_keeps ‹_›)
        · exact State.bump_keeps ‹_›
        · apply h4
          assumption
        · assumption
      · refine Keeps.ite (fun _ => ?_) (fun _ => ?_)
        · exact volStat_keeps ‹_›
        · assumption
    clear_value u14
    exact State.complete_keeps ‹_›
  · exact State.complete_keeps ‹_›
  · assumption

theorem sendVolume_keeps {s0 s : State} {q t entry : Nat} {v : Vol} {op fua lba nblk : Nat} {slot : Option Nat}
    (h0 : Keeps s0 s) : Keeps s0 (sendVolume s q t entry v op fua lba nblk slot) := by
  unfold sendVolume
  extract_lets +onlyGivenNames u1 u2 u3 u4 u5 u6 u7
  clear_value u1 u2 u3 u4 u5 u6 u7
  extract_lets +onlyGivenNames u8
  have h1 : Keeps s0 u8 := State.setTag_keeps ‹_›
  clear_value u8
  refine Keeps.ite (fun _ => ?_) (fun _ => ?_)
  · exact Keeps.upd (t := u8) rfl rfl rfl ‹_›
  · refine Keeps.ite (fun _ => ?_) (fun _ => ?_)
    · split
      · rename_i x1 x2 x3 x4 x5 x6 x7
        exact Keeps.upd (t := x4) rfl rfl rfl (Keeps.optFst ‹_› (deliver_keeps ‹_›))
      · rename_i x8 x9 x10 x11
        exact Keeps.upd (t := u8) rfl rfl rfl ‹_›
    · exact startOp_keeps ‹_›

theorem flushStart_keeps {s0 s : State} {q t entry : Nat} {x : StqTag} {named : Nat} (h0 : Keeps s0 s) :
    Keeps s0 (flushStart s q t entry x named) := by
  unfold flushStart
  extract_lets +onlyGivenNames u1 u2 u3
  clear_value u1 u2 u3
  extract_lets +onlyGivenNames u4
  have h1 : Keeps s0 u4 := State.setTag_keeps ‹_›
  clear_value u4
  extract_lets +onlyGivenNames u5
  have h2 : Keeps s0 u5 := State.setDirty_keeps ‹_›
  clear_value u5
  refine Keeps.foldl ?_ ?_
  · assumption
  · intro v1 v2 v3
    exact sendVolume_keeps ‹_›

theorem stqStep_keeps {s0 s : State} {q t : Nat} (h0 : Keeps s0 s) : Keeps s0 (stqStep s q t) := by
  unfold stqStep
  extract_lets +onlyGivenNames u1
  clear_value u1
  split
  · assumption
  · split
    · assumption
    · refine Keeps.ite (fun _ => ?_) (fun _ => ?_)
      · assumption
      · extract_lets +onlyGivenNames u2
        clear_value u2
        extract_lets +onlyGivenNames u3
        have h1 : Keeps s0 u3 := by
          unfold u3
          refine Keeps.ite (fun _ => ?_) (fun _ => ?_)
          · exact flushStart_keeps ‹_›
          · assumption
        clear_value u3
        extract_lets +onlyGivenNames u4 u5 u6
        clear_value u4 u5 u6
        refine Keeps.ite (fun _ => ?_) (fun _ => ?_)
        · extract_lets +onlyGivenNames u7
          clear_value u7
          extract_lets +onlyGivenNames u8
          have h2 : Keeps s0 u8 := State.setTag_keeps ‹_›
          clear_value u8
          exact stqFinish_keeps ‹_›
        · assumption

theorem stqKick_keeps {s0 s : State} {q : Nat} (h0 : Keeps s0 s) : Keeps s0 (stqKick s q) := by
  unfold stqKick
  refine Keeps.foldl ?_ ?_
  · assumption
  · intro v1 v2 v3
    exact stqStep_keeps ‹_›

theorem stqEnd_keeps {s0 s : State} {q entry status result : Nat} (h0 : Keeps s0 s) :
    Keeps s0 (stqEnd s q entry status result) := by
  unfold stqEnd
  exact stqKick_keeps (stqFinish_keeps ‹_›)

theorem stqFences_keeps {s0 s : State} (h0 : Keeps s0 s) : Keeps s0 (stqFences s) := by
  unfold stqFences
  refine Keeps.foldl ?_ ?_
  · assumption
  · intro v1 v2 v3
    exact stqStep_keeps ‹_›

theorem serviceLost_keeps {s0 s : State} {q t status : Nat} (h0 : Keeps s0 s) : Keeps s0 (serviceLost s q t status) := by
  unfold serviceLost
  extract_lets +onlyGivenNames u1 u2 u3
  clear_value u1 u2 u3
  exact State.raise_keeps ‹_›

theorem stqSendEnded_keeps {s0 s : State} {qid entry status : Nat} (h0 : Keeps s0 s) :
    Keeps s0 (stqSendEnded s qid entry status) := by
  unfold stqSendEnded
  extract_lets +onlyGivenNames u1
  clear_value u1
  refine Keeps.ite (fun _ => ?_) (fun _ => ?_)
  · assumption
  · split
    · assumption
    · extract_lets +onlyGivenNames u2
      clear_value u2
      extract_lets +onlyGivenNames u3
      have h1 : Keeps s0 u3 := serviceLost_keeps ‹_›
      clear_value u3
      extract_lets +onlyGivenNames u4
      clear_value u4
      refine Keeps.ite (fun _ => ?_) (fun _ => ?_)
      · extract_lets +onlyGivenNames u5
        have h2 : Keeps s0 u5 := State.setTag_keeps ‹_›
        clear_value u5
        exact stqKick_keeps ‹_›
      · exact stqEnd_keeps ‹_›

theorem stqSettle_keeps {s0 s : State} (h0 : Keeps s0 s) : Keeps s0 (stqSettle s) := by
  unfold stqSettle
  extract_lets +onlyGivenNames u1 u2
  clear_value u1 u2
  extract_lets +onlyGivenNames u3
  have h1 : Keeps s0 u3 := Keeps.upd (t := s) rfl rfl rfl ‹_›
  clear_value u3
  refine Keeps.foldl ?_ ?_
  · assumption
  · intro v1 v2 v3
    split
    · exact stqSendEnded_keeps ‹_›
    · assumption

theorem listRead_keeps {s0 s : State} {qid : Nat} {l : List Byte} {reply : HostReply} (h0 : Keeps s0 s) :
    Keeps s0 (listRead s qid l reply) := by
  unfold listRead
  refine Keeps.ite (fun _ => ?_) (fun _ => ?_)
  · exact State.instRead_keeps ‹_›
  · exact State.noteStatus_keeps ‹_›

theorem dataRead_keeps {s0 s : State} {qid : Nat} {l : List Byte} {segs : List (Nat × Nat)} {reply : HostReply}
    (h0 : Keeps s0 s) : Keeps s0 (dataRead s qid l segs reply) := by
  unfold dataRead
  refine Keeps.ite (fun _ => ?_) (fun _ => ?_)
  · refine Keeps.foldl ?_ ?_
    · assumption
    · intro v1 v2 v3
      refine Keeps.ite (fun _ => ?_) (fun _ => ?_)
      · exact State.noteRead_keeps ‹_›
      · assumption
  · split
    · assumption
    · extract_lets +onlyGivenNames u1
      have h1 : Keeps s0 u1 := State.instRead_keeps ‹_›
      clear_value u1
      refine Keeps.ite (fun _ => ?_) (fun _ => ?_)
      · refine Keeps.foldl ?_ ?_
        · assumption
        · intro v4 v5 v6
          exact State.instRead_keeps ‹_›
      · assumption

theorem scatter_keeps {s0 : State} {qid : Nat} {dloc : Bool} {segs : List (Nat × Nat)} :
    ∀ {s : State} {l : List Byte} (_ : Keeps s0 s), Keeps s0 (scatter s qid dloc segs l).1 := by
  induction segs with
  | nil => intro s l h; exact h
  | cons p t ih =>
    intro s l h
    obtain ⟨a, n⟩ := p
    unfold scatter
    extract_lets +onlyGivenNames u1
    split
    · exact h
    · split
      · split
        · extract_lets +onlyGivenNames u2
          have h1 : Keeps s0 u2.1 := State.writeMem_keeps h
          split
          · exact ih h1
          · exact h1
        · exact h
      · extract_lets +onlyGivenNames u2
        have h1 : Keeps s0 u2.1 := State.instWrite_keeps h
        split
        · exact ih h1
        · exact h1

theorem poisonBlock_keeps {s0 s : State} {qid : Nat} {l : List Byte} {segs : List (Nat × Nat)} {k bs : Nat}
    (h0 : Keeps s0 s) : Keeps s0 (poisonBlock s qid l segs k bs) := by
  unfold poisonBlock
  refine Keeps.ite (fun _ => ?_) (fun _ => ?_)
  · assumption
  · refine Keeps.foldlFst ?_ ?_
    · exact Keeps.mkFst ‹_›
    · intro v1 v2 v3
      extract_lets +onlyGivenNames u1
      clear_value u1
      split
      · assumption
      · extract_lets +onlyGivenNames u2
        have h1 : SndKeeps s0 u2 := by
          unfold u2
          exact SndKeeps.of (State.freeBytes_keeps ‹_›)
        clear_value u2
        exact Keeps.mkFst (State.instWrite_keeps ‹_›)

theorem deliverRead_keeps {s0 s : State} {qid : Nat} {l : List Byte} {segs : List (Nat × Nat)} {d : List Byte}
    (h0 : Keeps s0 s) : Keeps s0 (deliverRead s qid l segs d).1 := by
  unfold deliverRead
  extract_lets +onlyGivenNames u1
  clear_value u1
  split
  · exact Keeps.mkFst ‹_›
  · exact scatter_keeps ‹_›

theorem stqFetched_keeps {s0 s : State} {qid : Nat} {l : List Byte} {status : Nat} (h0 : Keeps s0 s) :
    Keeps s0 (stqFetched s qid l status) := by
  unfold stqFetched
  extract_lets +onlyGivenNames u1 u2 u3
  clear_value u1 u2 u3
  split
  · assumption
  · extract_lets +onlyGivenNames u4 u5 u6
    clear_value u4 u5 u6
    extract_lets +onlyGivenNames u7
    have h1 : Keeps s0 u7 := State.setQueue_keeps ‹_›
    clear_value u7
    extract_lets +onlyGivenNames u8
    have h2 : Keeps s0 u8 := State.setTag_keeps ‹_›
    clear_value u8
    extract_lets +onlyGivenNames u9
    have h3 : Keeps s0 u9 := touchCtx_keeps ‹_›
    clear_value u9
    extract_lets +onlyGivenNames u10
    have h4 : Keeps s0 u10 := State.setQueue_keeps ‹_›
    clear_value u10
    refine Keeps.ite (fun _ => ?_) (fun _ => ?_)
    · exact stqEnd_keeps ‹_›
    · refine Keeps.ite (fun _ => ?_) (fun _ => ?_)
      · exact stqEnd_keeps ‹_›
      · refine Keeps.ite (fun _ => ?_) (fun _ => ?_)
        · exact stqEnd_keeps ‹_›
        · extract_lets +onlyGivenNames u11
          clear_value u11
          refine Keeps.ite (fun _ => ?_) (fun _ => ?_)
          · exact stqEnd_keeps ‹_›
          · exact preWait_keeps ‹_›

theorem stqStarted_keeps {s0 s : State} {q : Nat} {c : Cmd} (h0 : Keeps s0 s) : Keeps s0 (stqStarted s q c) := by
  unfold stqStarted
  exact State.setCmd_keeps ‹_›

theorem takeSlot_keeps {s0 s : State} {q t : Nat} (h0 : Keeps s0 s) : Keeps s0 (takeSlot s q t).1 := by
  unfold takeSlot
  extract_lets +onlyGivenNames u1
  clear_value u1
  split
  · extract_lets +onlyGivenNames u2
    clear_value u2
    exact Keeps.mkFst (State.setTag_keeps (State.setSlots_keeps ‹_›))
  · refine Keeps.mkFst ?_
    refine Keeps.ite (fun _ => ?_) (fun _ => ?_)
    · assumption
    · exact State.setTag_keeps (State.bump_keeps ‹_›)

theorem stqDurable_keeps {s0 s : State} {q t : Nat} {c : Cmd} {v : Vol} {n : Nat} (h0 : Keeps s0 s) :
    Keeps s0 (stqDurable s q t c v n) := by
  unfold stqDurable
  refine Keeps.ite (fun _ => ?_) (fun _ => ?_)
  · extract_lets +onlyGivenNames u1
    clear_value u1
    extract_lets +onlyGivenNames u2
    have h1 : Keeps s0 u2 := stqStarted_keeps (State.setTag_keeps ‹_›)
    clear_value u2
    exact stqStep_keeps ‹_›
  · exact stqEnd_keeps ‹_›

theorem putBlocks_keeps {s0 s : State} {v : Vol} {lba : Nat} {l : List Byte} (h0 : Keeps s0 s) :
    Keeps s0 (putBlocks s v lba l).1 := by
  unfold putBlocks
  refine Keeps.foldlFst ?_ ?_
  · exact Keeps.mkFst ‹_›
  · intro v1 v2 v3
    split
    · assumption
    · exact State.writeMem_keeps ‹_›

theorem stqReply_keeps {s0 s : State} {g : Nat} {m : List Byte} (h0 : Keeps s0 s) : Keeps s0 (stqReply s g m) := by
  unfold stqReply
  extract_lets +onlyGivenNames u1 u2 u3 u4 u5 u6 u7 u8
  clear_value u1 u2 u3 u4 u5 u6 u7 u8
  split
  · extract_lets +onlyGivenNames u9
    have h1 : Keeps s0 u9 := State.setSlots_keeps ‹_›
    clear_value u9
    extract_lets +onlyGivenNames u10
    have h2 : Keeps s0 u10 := State.bump_keeps ‹_›
    clear_value u10
    refine Keeps.ite (fun _ => ?_) (fun _ => ?_)
    · exact State.bump_keeps ‹_›
    · assumption
  · refine Keeps.ite (fun _ => ?_) (fun _ => ?_)
    · exact State.bump_keeps ‹_›
    · extract_lets +onlyGivenNames u11 u12 u13 u14
      clear_value u11 u12 u13 u14
      refine Keeps.ite (fun _ => ?_) (fun _ => ?_)
      · extract_lets +onlyGivenNames u15
        clear_value u15
        extract_lets +onlyGivenNames u16
        have h3 : Keeps s0 u16 := State.setTag_keeps ‹_›
        clear_value u16
        exact stqKick_keeps ‹_›
      · extract_lets +onlyGivenNames u17
        have h4 : Keeps s0 u17 := State.setTag_keeps ‹_›
        clear_value u17
        refine Keeps.ite (fun _ => ?_) (fun _ => ?_)
        · extract_lets +onlyGivenNames u18 u19 u20 u21
          clear_value u18 u19 u20 u21
          extract_lets +onlyGivenNames u22
          have h5 : Keeps s0 u22 := by
            unfold u22
            refine Keeps.ite (fun _ => ?_) (fun _ => ?_)
            · exact State.noteRead_keeps ‹_›
            · assumption
          clear_value u22
          extract_lets +onlyGivenNames u23
          clear_value u23
          extract_lets +onlyGivenNames u24
          have h6 : FstKeeps s0 u24 := by
            unfold u24
            exact FstKeeps.of (deliverRead_keeps ‹_›)
          clear_value u24
          extract_lets +onlyGivenNames u25
          have h7 : FstKeeps s0 u25 := by
            unfold u25
            refine FstKeeps.of ?_
            split
            · exact Keeps.mkFst (poisonBlock_keeps ‹_›)
            · assumption
          clear_value u25
          refine Keeps.ite (fun _ => ?_) (fun _ => ?_)
          · exact stqEnd_keeps ‹_›
          · refine Keeps.ite (fun _ => ?_) (fun _ => ?_)
            · exact stqEnd_keeps ‹_›
            · exact stqEnd_keeps ‹_›
        · exact stqEnd_keeps ‹_›

theorem stqReceive_keeps {s0 s : State} {g : Nat} {l : List Byte} (h0 : Keeps s0 s) : Keeps s0 (stqReceive s g l) := by
  unfold stqReceive
  extract_lets +onlyGivenNames u1 u2
  clear_value u1 u2
  extract_lets +onlyGivenNames u3
  have h1 : Keeps s0 u3 := Keeps.upd (t := s) rfl rfl rfl ‹_›
  clear_value u3
  extract_lets +onlyGivenNames u4
  clear_value u4
  exact stqReply_keeps (State.write_keeps ‹_›)

theorem stqAbort_keeps {s0 s : State} {qid status : Nat} (h0 : Keeps s0 s) : Keeps s0 (stqAbort s qid status) := by
  unfold stqAbort
  extract_lets +onlyGivenNames u1
  have h1 : Keeps s0 u1 := forgetQueue_keeps ‹_›
  clear_value u1
  refine Keeps.foldl ?_ ?_
  · assumption
  · intro v1 v2 v3
    exact stqFinish_keeps ‹_›

theorem execVolumeValidSet_keeps {s0 : State} {v : Fin 4096} {w : BitVec 64} {s : State} (h2 : Keeps s0 s) :
    OutAll (Keeps s0) (execVolumeValidSet v w s) := by
  unfold execVolumeValidSet
  apply unlessNoImage_keeps
  · assumption
  · split
    · exact OutAll.next ‹_›
    · extract_lets +onlyGivenNames u1
      clear_value u1
      extract_lets +onlyGivenNames u2
      have h1 : Keeps s0 u2 := State.wrs_keeps ‹_›
      clear_value u2
      split
      · exact OutAll.next (State.wr_keeps ‹_›)
      · exact OutAll.next (State.wr_keeps ‹_›)

theorem loseVolumes_keeps {s0 s : State} {region : Nat} (h0 : Keeps s0 s) : Keeps s0 (loseVolumes s region) := by
  unfold loseVolumes
  refine Keeps.foldl ?_ ?_
  · assumption
  · intro v1 v2 v3
    refine Keeps.ite (fun _ => ?_) (fun _ => ?_)
    · exact State.raise_keeps (State.wr_keeps ‹_›)
    · assumption

theorem adminData_keeps {s0 s : State} {q : Nat} {c : Cmd} {l : List Byte} {result : Nat} (h0 : Keeps s0 s) :
    Keeps s0 (adminData s q c l result) := by
  unfold adminData
  extract_lets +onlyGivenNames u1
  clear_value u1
  extract_lets +onlyGivenNames u2
  have h1 : FstKeeps s0 u2 := by
    unfold u2
    exact FstKeeps.of (State.instWrite_keeps ‹_›)
  clear_value u2
  exact stqEnd_keeps ‹_›

/-! ### Machine/Security.lean -/

theorem State.setWords_keeps {s0 s : State} {f : Fld} {i n : Nat} {l : List Byte} (h0 : Keeps s0 s) :
    Keeps s0 (State.setWords s f i n l) := by
  unfold State.setWords
  refine Keeps.foldl ?_ ?_
  · assumption
  · intro v1 v2 v3
    exact State.wr_keeps ‹_›

theorem eraseSlot_keeps {s0 s : State} {k : Nat} (h0 : Keeps s0 s) : Keeps s0 (eraseSlot s k) := by
  unfold eraseSlot
  refine Keeps.ite (fun _ => ?_) (fun _ => ?_)
  · assumption
  · extract_lets +onlyGivenNames u1 u2
    clear_value u1 u2
    extract_lets +onlyGivenNames u3
    have h1 : Keeps s0 u3 := Keeps.upd (t := s) rfl rfl rfl ‹_›
    clear_value u3
    exact give_keeps (State.wrs_keeps ‹_›)

theorem eraseGladeKeys_keeps {s0 s : State} {g : Nat} (h0 : Keeps s0 s) : Keeps s0 (eraseGladeKeys s g) := by
  unfold eraseGladeKeys
  refine Keeps.foldl ?_ ?_
  · assumption
  · intro v1 v2 v3
    exact eraseSlot_keeps ‹_›

theorem eraseAllKeys_keeps {s0 s : State} (h0 : Keeps s0 s) : Keeps s0 (eraseAllKeys s) := by
  unfold eraseAllKeys
  refine Keeps.foldl ?_ ?_
  · assumption
  · intro v1 v2 v3
    exact eraseSlot_keeps ‹_›

theorem loadKey_keeps {s0 s : State} {k : KeyOp} {type : Nat} {key : List Byte} (h0 : Keeps s0 s) :
    Keeps s0 (loadKey s k type key).1 := by
  unfold loadKey
  split
  · exact Keeps.mkFst ‹_›
  · split
    · exact Keeps.mkFst ‹_›
    · split
      · exact Keeps.mkFst ‹_›
      · extract_lets +onlyGivenNames u1
        clear_value u1
        extract_lets +onlyGivenNames u2
        have h1 : Keeps s0 u2 := Keeps.upd (t := s) rfl rfl rfl ‹_›
        clear_value u2
        exact Keeps.mkFst (take_keeps (State.wrs_keeps ‹_›))

theorem plainEffect_keeps {s0 s : State} {k : KeyOp} (h0 : Keeps s0 s) : Keeps s0 (plainEffect s k).1 := by
  unfold plainEffect
  exact loadKey_keeps ‹_›

theorem wrappedEffect_keeps {s0 s : State} {k : KeyOp} (h0 : Keeps s0 s) : Keeps s0 (wrappedEffect s k).1 := by
  unfold wrappedEffect
  split
  · exact Keeps.mkFst ‹_›
  · split
    · exact Keeps.mkFst ‹_›
    · split
      · exact Keeps.mkFst ‹_›
      · split
        · exact loadKey_keeps ‹_›
        · exact Keeps.mkFst ‹_›

theorem ecdhEffect_keeps {s0 s : State} {k : KeyOp} (h0 : Keeps s0 s) : Keeps s0 (ecdhEffect s k).1 := by
  unfold ecdhEffect
  split
  · exact Keeps.mkFst ‹_›
  · split
    · exact Keeps.mkFst ‹_›
    · split
      · exact loadKey_keeps ‹_›
      · exact Keeps.mkFst ‹_›

theorem eraseEffect_keeps {s0 s : State} {k : KeyOp} (h0 : Keeps s0 s) : Keeps s0 (eraseEffect s k).1 := by
  unfold eraseEffect
  split
  · exact Keeps.mkFst ‹_›
  · split
    · exact Keeps.mkFst ‹_›
    · split
      · exact Keeps.mkFst ‹_›
      · exact Keeps.mkFst (eraseSlot_keeps ‹_›)

theorem keyEffect_keeps {s0 s : State} {k : KeyOp} (h0 : Keeps s0 s) : Keeps s0 (keyEffect s k).1 := by
  unfold keyEffect
  split
  · exact plainEffect_keeps ‹_›
  · exact wrappedEffect_keeps ‹_›
  · exact ecdhEffect_keeps ‹_›
  · exact eraseEffect_keeps ‹_›
  · exact Keeps.mkFst ‹_›

theorem keyEnd_keeps {s0 s : State} (h0 : Keeps s0 s) : Keeps s0 (keyEnd s) := by
  unfold keyEnd
  split
  · assumption
  · extract_lets +onlyGivenNames u1
    have h1 : FstKeeps s0 u1 := by
      unfold u1
      exact FstKeeps.of (keyEffect_keeps ‹_›)
    clear_value u1
    extract_lets +onlyGivenNames u2
    have h2 : Keeps s0 u2 := by
      unfold u2
      assumption
    clear_value u2
    extract_lets +onlyGivenNames u3
    clear_value u3
    extract_lets +onlyGivenNames u4
    have h3 : Keeps s0 u4 := Keeps.upd (t := u2) rfl rfl rfl ‹_›
    clear_value u4
    extract_lets +onlyGivenNames u5
    have h4 : Keeps s0 u5 := State.setWords_keeps ‹_›
    clear_value u5
    exact State.wrs_keeps ‹_›

theorem holdStart_keeps {s0 s : State} {h : HeldStart} (h0 : Keeps s0 s) : Keeps s0 (holdStart s h) := by
  unfold holdStart
  exact Keeps.upd (t := s) rfl rfl rfl ‹_›

theorem keyStart_keeps {s0 s : State} {op type glade slot kek : Nat} (h0 : Keeps s0 s) :
    Keeps s0 (keyStart s op type glade slot kek) := by
  unfold keyStart
  extract_lets +onlyGivenNames u1
  have h1 : Keeps s0 u1 := State.wrs_keeps ‹_›
  clear_value u1
  refine Keeps.ite (fun _ => ?_) (fun _ => ?_)
  · exact holdStart_keeps ‹_›
  · refine Keeps.ite (fun _ => ?_) (fun _ => ?_)
    · assumption
    · refine Keeps.ite (fun _ => ?_) (fun _ => ?_)
      · exact State.wr_keeps (State.setWords_keeps ‹_›)
      · extract_lets +onlyGivenNames u2 u3
        clear_value u2 u3
        extract_lets +onlyGivenNames u4
        have h2 : Keeps s0 u4 := Keeps.upd (t := u1) rfl rfl rfl ‹_›
        clear_value u4
        exact State.wrs_keeps ‹_›

theorem attStart_keeps {s0 s : State} {g : Nat} (h0 : Keeps s0 s) : Keeps s0 (attStart s g) := by
  unfold attStart
  extract_lets +onlyGivenNames u1
  have h1 : Keeps s0 u1 := State.wr_keeps ‹_›
  clear_value u1
  refine Keeps.ite (fun _ => ?_) (fun _ => ?_)
  · exact holdStart_keeps ‹_›
  · refine Keeps.ite (fun _ => ?_) (fun _ => ?_)
    · assumption
    · refine Keeps.ite (fun _ => ?_) (fun _ => ?_)
      · exact State.wr_keeps ‹_›
      · refine Keeps.ite (fun _ => ?_) (fun _ => ?_)
        · exact State.wr_keeps ‹_›
        · refine Keeps.ite (fun _ => ?_) (fun _ => ?_)
          · exact State.wr_keeps ‹_›
          · extract_lets +onlyGivenNames u2
            clear_value u2
            extract_lets +onlyGivenNames u3
            have h2 : Keeps s0 u3 := Keeps.upd (t := u1) rfl rfl rfl ‹_›
            clear_value u3
            exact State.wr_keeps ‹_›

theorem extendMeasurement_keeps {s0 s : State} {g : Nat} {d : List Byte} (h0 : Keeps s0 s) :
    Keeps s0 (extendMeasurement s g d) := by
  unfold extendMeasurement
  exact State.setWords_keeps ‹_›

theorem execRollbackAdvance_keeps {s0 s : State} (h0 : Keeps s0 s) : OutAll (Keeps s0) (execRollbackAdvance s) := by
  unfold execRollbackAdvance
  apply unlessNoImage_keeps
  · assumption
  · split
    · exact OutAll.next ‹_›
    · split
      · exact OutAll.next (State.wr_keeps ‹_›)
      · exact OutAll.next (State.wr_keeps ‹_›)

theorem fabGrpA_keeps {s0 s : State} {k v : Nat} (h0 : Keeps s0 s) : Keeps s0 (fabGrpA s k v) := by
  unfold fabGrpA
  extract_lets +onlyGivenNames u1
  have h1 : Keeps s0 u1 := State.wr_keeps ‹_›
  clear_value u1
  refine Keeps.ite (fun _ => ?_) (fun _ => ?_)
  · exact State.wr_keeps ‹_›
  · extract_lets +onlyGivenNames u2
    have h2 : Keeps s0 u2 := State.wrs_keeps ‹_›
    clear_value u2
    extract_lets +onlyGivenNames u3
    clear_value u3
    refine Keeps.ite (fun _ => ?_) (fun _ => ?_)
    · exact State.wr_keeps ‹_›
    · assumption

theorem fabGrpB_keeps {s0 s : State} {k v : Nat} (h0 : Keeps s0 s) : Keeps s0 (fabGrpB s k v) := by
  unfold fabGrpB
  refine Keeps.ite (fun _ => ?_) (fun _ => ?_)
  · assumption
  · exact State.wrs_keeps ‹_›

theorem sealRelease_keeps {s0 s : State} (h0 : Keeps s0 s) : Keeps s0 (sealRelease s) := by
  unfold sealRelease
  extract_lets +onlyGivenNames u1
  clear_value u1
  extract_lets +onlyGivenNames u2
  have h1 : Keeps s0 u2 := Keeps.upd (t := s) rfl rfl rfl ‹_›
  clear_value u2
  extract_lets +onlyGivenNames u3
  have h2 : Keeps s0 u3 := State.setWords_keeps ‹_›
  clear_value u3
  exact State.wrs_keeps ‹_›

theorem sealExpire_keeps {s0 s : State} (h0 : Keeps s0 s) : Keeps s0 (sealExpire s) := by
  unfold sealExpire
  exact State.raiseUnit_keeps (sealRelease_keeps ‹_›)

theorem execSealLockTake_keeps {s0 : State} {token : BitVec 16} {mgmt : Bool} {s : State} (h2 : Keeps s0 s) :
    OutAll (Keeps s0) (execSealLockTake token mgmt s) := by
  unfold execSealLockTake
  apply unlessNoImage_keeps
  · assumption
  · split
    · exact OutAll.next ‹_›
    · extract_lets +onlyGivenNames u1
      clear_value u1
      extract_lets +onlyGivenNames u2
      have h1 : Keeps s0 u2 := Keeps.upd (t := s) rfl rfl rfl ‹_›
      clear_value u2
      exact OutAll.next (State.wrs_keeps ‹_›)

theorem execSealLockRelease_keeps {s0 : State} {token : BitVec 16} {s : State} (h1 : Keeps s0 s) :
    OutAll (Keeps s0) (execSealLockRelease token s) := by
  unfold execSealLockRelease
  apply unlessNoImage_keeps
  · assumption
  · split
    · exact OutAll.next (sealRelease_keeps ‹_›)
    · exact OutAll.next ‹_›

theorem execSealMsgWrite_keeps {s0 : State} {i : Fin 512} {v : BitVec 64} {s : State} (h2 : Keeps s0 s) :
    OutAll (Keeps s0) (execSealMsgWrite i v s) := by
  unfold execSealMsgWrite
  apply unlessNoImage_keeps
  · assumption
  · exact OutAll.next (Keeps.upd (t := s) rfl rfl rfl ‹_›)

theorem sealFields_keeps {s0 s : State} {mode token slot len : Nat} {more replay : Bool} (h0 : Keeps s0 s) :
    Keeps s0 (sealFields s mode token slot len more replay).1 := by
  unfold sealFields
  exact Keeps.mkFst (State.wrs_keeps ‹_›)

theorem sealRefuse_keeps {s0 s : State} {status : Nat} (h0 : Keeps s0 s) : Keeps s0 (sealRefuse s status) := by
  unfold sealRefuse
  exact State.wr_keeps ‹_›

theorem sealBegin_keeps {s0 s : State} {o : SealOp} (h0 : Keeps s0 s) : Keeps s0 (sealBegin s o) := by
  unfold sealBegin
  extract_lets +onlyGivenNames u1
  clear_value u1
  extract_lets +onlyGivenNames u2
  have h1 : Keeps s0 u2 := Keeps.upd (t := s) rfl rfl rfl ‹_›
  clear_value u2
  exact State.wrs_keeps ‹_›

theorem sealStart_keeps {s0 s : State} {slot len : Nat} {more mgmt : Bool} (h0 : Keeps s0 s) :
    Keeps s0 (sealStart s slot len more mgmt) := by
  unfold sealStart
  refine Keeps.ite (fun _ => ?_) (fun _ => ?_)
  · exact sealRefuse_keeps ‹_›
  · split
    · exact sealRefuse_keeps ‹_›
    · split
      · exact sealBegin_keeps ‹_›
      · extract_lets +onlyGivenNames u1
        clear_value u1
        refine Keeps.ite (fun _ => ?_) (fun _ => ?_)
        · exact sealRefuse_keeps ‹_›
        · extract_lets +onlyGivenNames u2
          have h1 : Keeps s0 u2 := State.wr_keeps (State.wr_keeps ‹_›)
          clear_value u2
          exact sealBegin_keeps ‹_›

theorem execSeal_keeps {s0 : State} {token : BitVec 16} {slot : Fin 16} {len : BitVec 13} {more mgmt : Bool} {s : State}
    (h5 : Keeps s0 s) : OutAll (Keeps s0) (execSeal token slot len more mgmt s) := by
  unfold execSeal
  apply unlessNoImage_keeps
  · assumption
  · split
    · exact OutAll.next (sealRefuse_keeps ‹_›)
    · extract_lets +onlyGivenNames u1
      have h1 : FstKeeps s0 u1 := by
        unfold u1
        exact FstKeeps.of (sealFields_keeps ‹_›)
      clear_value u1
      split
      · exact OutAll.next ‹_›
      · exact OutAll.next (sealStart_keeps ‹_›)

theorem verifyStart_keeps {s0 s : State} {slot len : Nat} {more replay mgmt : Bool} (h0 : Keeps s0 s) :
    Keeps s0 (verifyStart s slot len more replay mgmt) := by
  unfold verifyStart
  refine Keeps.ite (fun _ => ?_) (fun _ => ?_)
  · exact sealRefuse_keeps ‹_›
  · split
    · exact sealRefuse_keeps ‹_›
    · extract_lets +onlyGivenNames u1
      clear_value u1
      exact sealBegin_keeps ‹_›

theorem execSealVerify_keeps {s0 : State} {token : BitVec 16} {slot : Fin 16} {len : BitVec 13}
    {more replay mgmt : Bool} {s : State} (h6 : Keeps s0 s) :
    OutAll (Keeps s0) (execSealVerify token slot len more replay mgmt s) := by
  unfold execSealVerify
  apply unlessNoImage_keeps
  · assumption
  · split
    · exact OutAll.next (sealRefuse_keeps ‹_›)
    · extract_lets +onlyGivenNames u1
      have h1 : FstKeeps s0 u1 := by
        unfold u1
        exact FstKeeps.of (sealFields_keeps ‹_›)
      clear_value u1
      split
      · exact OutAll.next ‹_›
      · exact OutAll.next (verifyStart_keeps ‹_›)

theorem execLoadkey_keeps {s0 : State} {token : BitVec 16} {slot : Fin 16} {s : State} (h2 : Keeps s0 s) :
    OutAll (Keeps s0) (execLoadkey token slot s) := by
  unfold execLoadkey
  apply unlessNoImage_keeps
  · assumption
  · split
    · exact OutAll.next (sealRefuse_keeps ‹_›)
    · extract_lets +onlyGivenNames u1
      have h1 : FstKeeps s0 u1 := by
        unfold u1
        exact FstKeeps.of (sealFields_keeps ‹_›)
      clear_value u1
      split
      · exact OutAll.next ‹_›
      · split
        · exact OutAll.next (sealRefuse_keeps ‹_›)
        · exact OutAll.next (sealBegin_keeps ‹_›)

theorem verifyEnd_keeps {s0 s : State} {o : SealOp} (h0 : Keeps s0 s) : Keeps s0 (verifyEnd s o) := by
  unfold verifyEnd
  extract_lets +onlyGivenNames u1
  clear_value u1
  refine Keeps.ite (fun _ => ?_) (fun _ => ?_)
  · exact State.wrs_keeps ‹_›
  · refine Keeps.ite (fun _ => ?_) (fun _ => ?_)
    · extract_lets +onlyGivenNames u2
      have h1 : Keeps s0 u2 := State.wr_keeps ‹_›
      clear_value u2
      exact State.wrs_keeps ‹_›
    · refine Keeps.ite (fun _ => ?_) (fun _ => ?_)
      · exact State.wrs_keeps ‹_›
      · exact State.wrs_keeps ‹_›

theorem execChallenge_keeps {s0 s : State} (h0 : Keeps s0 s) : OutAll (Keeps s0) (execChallenge s) := by
  unfold execChallenge
  split
  · exact OutAll.next ‹_›
  · extract_lets +onlyGivenNames u1
    have h1 : SndKeeps s0 u1 := by
      unfold u1
      exact SndKeeps.of (State.freeBytes_keeps ‹_›)
    clear_value u1
    exact OutAll.next (State.wr_keeps (State.setWords_keeps ‹_›))

theorem debugRefused_keeps {s0 s : State} (h0 : Keeps s0 s) : Keeps s0 (debugRefused s) := by
  unfold debugRefused
  extract_lets +onlyGivenNames u1 u2
  clear_value u1 u2
  extract_lets +onlyGivenNames u3
  have h1 : Keeps s0 u3 := Keeps.upd (t := s) rfl rfl rfl ‹_›
  clear_value u3
  refine Keeps.ite (fun _ => ?_) (fun _ => ?_)
  · exact State.wr_keeps ‹_›
  · exact State.raiseUnit_keeps (State.wrs_keeps ‹_›)

theorem execSubmit_keeps {s0 s : State} (h0 : Keeps s0 s) : OutAll (Keeps s0) (execSubmit s) := by
  unfold execSubmit
  extract_lets +onlyGivenNames u1 u2 u3
  clear_value u1 u2 u3
  extract_lets +onlyGivenNames u4
  have h1 : Keeps s0 u4 := State.setWords_keeps ‹_›
  clear_value u4
  split
  · exact OutAll.next (State.wrs_keeps ‹_›)
  · split
    · exact OutAll.next ‹_›
    · split
      · extract_lets +onlyGivenNames u5
        clear_value u5
        extract_lets +onlyGivenNames u6
        have h2 : Keeps s0 u6 := Keeps.upd (t := u4) rfl rfl rfl ‹_›
        clear_value u6
        exact OutAll.next (State.wrs_keeps ‹_›)
      · exact OutAll.next (debugRefused_keeps ‹_›)

theorem debugUnlock_keeps {s0 s : State} {scope : Nat} (h0 : Keeps s0 s) : Keeps s0 (debugUnlock s scope) := by
  unfold debugUnlock
  refine Keeps.ite (fun _ => ?_) (fun _ => ?_)
  · extract_lets +onlyGivenNames u1
    have h1 : Keeps s0 u1 := eraseAllKeys_keeps (keyEnd_keeps ‹_›)
    clear_value u1
    extract_lets +onlyGivenNames u2
    clear_value u2
    extract_lets +onlyGivenNames u3
    have h2 : Keeps s0 u3 := Keeps.upd (t := u1) rfl rfl rfl ‹_›
    clear_value u3
    exact State.wrs_keeps (State.wrs_keeps ‹_›)
  · extract_lets +onlyGivenNames u4
    clear_value u4
    extract_lets +onlyGivenNames u5
    have h3 : Keeps s0 u5 := eraseGladeKeys_keeps ‹_›
    clear_value u5
    extract_lets +onlyGivenNames u6
    clear_value u6
    extract_lets +onlyGivenNames u7
    have h4 : Keeps s0 u7 := Keeps.upd (t := u5) rfl rfl rfl ‹_›
    clear_value u7
    exact State.wrs_keeps ‹_›

/-! ### Machine/GrowthRings.lean -/

theorem ckpGrpWrite_keeps {s0 s : State} {g v : Nat} (h0 : Keeps s0 s) : Keeps s0 (ckpGrpWrite s g v) := by
  unfold ckpGrpWrite
  extract_lets +onlyGivenNames u1
  clear_value u1
  extract_lets +onlyGivenNames u2
  have h1 : Keeps s0 u2 := by
    unfold u2
    refine Keeps.ite (fun _ => ?_) (fun _ => ?_)
    · assumption
    · exact State.wrs_keeps ‹_›
  clear_value u2
  refine Keeps.ite (fun _ => ?_) (fun _ => ?_)
  · refine Keeps.ite (fun _ => ?_) (fun _ => ?_)
    · assumption
    · refine Keeps.ite (fun _ => ?_) (fun _ => ?_)
      · exact State.wr_keeps ‹_›
      · exact State.wr_keeps ‹_›
  · exact State.wr_keeps ‹_›

theorem ckpFetched_keeps {s0 s : State} {qid : Nat} {l : List Byte} {status : Nat} (h0 : Keeps s0 s) :
    Keeps s0 (ckpFetched s qid l status) := by
  unfold ckpFetched
  extract_lets +onlyGivenNames u1 u2 u3
  clear_value u1 u2 u3
  extract_lets +onlyGivenNames u4
  have h1 : Keeps s0 u4 := State.setQueue_keeps ‹_›
  clear_value u4
  refine Keeps.ite (fun _ => ?_) (fun _ => ?_)
  · exact State.complete_keeps ‹_›
  · refine Keeps.ite (fun _ => ?_) (fun _ => ?_)
    · exact State.complete_keeps ‹_›
    · refine Keeps.ite (fun _ => ?_) (fun _ => ?_)
      · exact State.complete_keeps ‹_›
      · refine Keeps.ite (fun _ => ?_) (fun _ => ?_)
        · exact State.complete_keeps ‹_›
        · exact preWait_keeps ‹_›

theorem checkPlaced_keeps {s0 s : State} {ri : Nat} (h0 : Keeps s0 s) : Keeps s0 (checkPlaced s ri) := by
  unfold checkPlaced
  extract_lets +onlyGivenNames u1 u2 u3
  clear_value u1 u2 u3
  refine Keeps.ite (fun _ => ?_) (fun _ => ?_)
  · exact tellAll_keeps (State.setRing_keeps ‹_›)
  · assumption

theorem ringOp_keeps {s0 s : State} {ri tag dev kind key aux : Nat} {l : List Byte} {out : Output} (h0 : Keeps s0 s) :
    Keeps s0 (ringOp s ri tag dev kind key aux l out) := by
  unfold ringOp
  extract_lets +onlyGivenNames u1 u2 u3
  clear_value u1 u2 u3
  refine Keeps.ite (fun _ => ?_) (fun _ => ?_)
  · exact State.emit_keeps ‹_›
  · extract_lets +onlyGivenNames u4
    have h1 : SndKeeps s0 u4 := by
      unfold u4
      exact SndKeeps.of (State.freeWord_keeps ‹_›)
    clear_value u4
    exact startOp_keeps ‹_›

theorem tellData_keeps {s0 s : State} {ri dest : Nat} {l : List Byte} {m : CkpMsg} (h0 : Keeps s0 s) :
    Keeps s0 (tellData s ri dest l m) := by
  unfold tellData
  extract_lets +onlyGivenNames u1
  clear_value u1
  exact ringOp_keeps ‹_›

theorem placeShard_keeps {s0 s : State} {ri owner stripe : Nat} {l : List Byte} (h0 : Keeps s0 s) :
    Keeps s0 (placeShard s ri owner stripe l) := by
  unfold placeShard
  extract_lets +onlyGivenNames u1
  clear_value u1
  refine Keeps.ite (fun _ => ?_) (fun _ => ?_)
  · assumption
  · extract_lets +onlyGivenNames u2
    have h1 : FstKeeps s0 u2 := by
      unfold u2
      exact FstKeeps.of (State.writeMem_keeps ‹_›)
    clear_value u2
    refine Keeps.ite (fun _ => ?_) (fun _ => ?_)
    · exact abandonRing_keeps ‹_›
    · extract_lets +onlyGivenNames u3
      clear_value u3
      exact checkPlaced_keeps (State.setRing_keeps ‹_›)

theorem sendStripe_keeps {s0 s : State} {ri t : Nat} (h0 : Keeps s0 s) : Keeps s0 (sendStripe s ri t) := by
  unfold sendStripe
  extract_lets +onlyGivenNames u1 u2 u3 u4 u5 u6
  clear_value u1 u2 u3 u4 u5 u6
  refine Keeps.ite (fun _ => ?_) (fun _ => ?_)
  · assumption
  · extract_lets +onlyGivenNames u7 u8
    clear_value u7 u8
    extract_lets +onlyGivenNames u9
    have h1 : Keeps s0 u9 := State.setRing_keeps ‹_›
    clear_value u9
    refine Keeps.foldl ?_ ?_
    · assumption
    · intro v1 v2 v3
      extract_lets +onlyGivenNames u10
      clear_value u10
      refine Keeps.ite (fun _ => ?_) (fun _ => ?_)
      · exact placeShard_keeps ‹_›
      · exact State.bump_keeps (tellData_keeps ‹_›)

theorem gotWinner_keeps {s0 s : State} {ri member item granule : Nat} {l : List Byte} (h0 : Keeps s0 s) :
    Keeps s0 (gotWinner s ri member item granule l) := by
  unfold gotWinner
  extract_lets +onlyGivenNames u1
  clear_value u1
  split
  · extract_lets +onlyGivenNames u2
    have h1 : Keeps s0 u2 := State.setRing_keeps ‹_›
    clear_value u2
    exact sendStripe_keeps ‹_›
  · assumption

theorem noteRef_keeps {s0 s : State} {ri : Nat} {r : CkpRef} {winner : Bool} (h0 : Keeps s0 s) :
    Keeps s0 (noteRef s ri r winner) := by
  unfold noteRef
  extract_lets +onlyGivenNames u1
  clear_value u1
  extract_lets +onlyGivenNames u2
  have h1 : Keeps s0 u2 := State.setRing_keeps ‹_›
  clear_value u2
  refine Keeps.ite (fun _ => ?_) (fun _ => ?_)
  · extract_lets +onlyGivenNames u3
    clear_value u3
    refine Keeps.ite (fun _ => ?_) (fun _ => ?_)
    · exact gotWinner_keeps ‹_›
    · exact tellData_keeps ‹_›
  · assumption

theorem dedupEnd_keeps {s0 s : State} {ri : Nat} (h0 : Keeps s0 s) : Keeps s0 (dedupEnd s ri) := by
  unfold dedupEnd
  extract_lets +onlyGivenNames u1 u2 u3 u4 u5
  clear_value u1 u2 u3 u4 u5
  extract_lets +onlyGivenNames u6
  have h1 : Keeps s0 u6 := State.setRing_keeps ‹_›
  clear_value u6
  extract_lets +onlyGivenNames u7
  have h2 : Keeps s0 u7 := State.bump_keeps ‹_›
  clear_value u7
  extract_lets +onlyGivenNames u8
  have h3 : Keeps s0 u8 := tellAll_keeps ‹_›
  clear_value u8
  extract_lets +onlyGivenNames u9
  have h4 : Keeps s0 u9 := by
    unfold u9
    refine Keeps.foldl ?_ ?_
    · assumption
    · intro v1 v2 v3
      split
      · extract_lets +onlyGivenNames u10
        clear_value u10
        split
        · exact noteRef_keeps ‹_›
        · exact tell_keeps ‹_›
      · assumption
  clear_value u9
  exact checkPlaced_keeps ‹_›

theorem sendBlocks_keeps {s0 s : State} {ri : Nat} {v : Vol} {lba : Nat} {l : List Byte} (h0 : Keeps s0 s) :
    Keeps s0 (sendBlocks s ri v lba l) := by
  unfold sendBlocks
  extract_lets +onlyGivenNames u1
  have h1 : SndKeeps s0 u1 := by
    unfold u1
    exact SndKeeps.of (State.freeBytes_keeps ‹_›)
  clear_value u1
  extract_lets +onlyGivenNames u2 u3
  clear_value u2 u3
  exact ringOp_keeps ‹_›

theorem volumeWrite_keeps {s0 s : State} {ri : Nat} {v : Vol} {off : Nat} {l : List Byte} (h0 : Keeps s0 s) :
    Keeps s0 (volumeWrite s ri v off l).1 := by
  unfold volumeWrite
  extract_lets +onlyGivenNames u1 u2
  clear_value u1 u2
  split
  · exact State.writeMem_keeps ‹_›
  · refine Keeps.mkFst ?_
    refine Keeps.foldl ?_ ?_
    · assumption
    · intro v1 v2 v3
      exact sendBlocks_keeps ‹_›

theorem failDrain_keeps {s0 s : State} {ri status : Nat} (h0 : Keeps s0 s) : Keeps s0 (failDrain s ri status) := by
  unfold failDrain
  extract_lets +onlyGivenNames u1
  clear_value u1
  refine Keeps.ite (fun _ => ?_) (fun _ => ?_)
  · extract_lets +onlyGivenNames u2
    have h1 : Keeps s0 u2 := State.setRing_keeps ‹_›
    clear_value u2
    exact endRingCmd_keeps (State.wr_keeps ‹_›)
  · assumption

theorem writeRegion_keeps {s0 s : State} {ri : Nat} {d : CkpDrain} (h0 : Keeps s0 s) :
    Keeps s0 (writeRegion s ri d).1 := by
  unfold writeRegion
  extract_lets +onlyGivenNames u1 u2 u3 u4 u5
  clear_value u1 u2 u3 u4 u5
  extract_lets +onlyGivenNames u6
  have h1 : FstKeeps s0 u6 := by
    unfold u6
    refine FstKeeps.foldl (t := (s, St.success)) (FstKeeps.mk h0) fun v1 v2 h2 => ?_
    refine FstKeeps.ite (fun _ => h2) (fun _ => ?_)
    extract_lets +onlyGivenNames u7
    clear_value u7
    refine FstKeeps.ite (fun _ => FstKeeps.mk (State.noteRead_keeps h2)) (fun _ => ?_)
    extract_lets +onlyGivenNames u8
    have h3 : FstKeeps s0 u8 := FstKeeps.of (volumeWrite_keeps h2)
    clear_value u8
    exact FstKeeps.mk (State.meterAdd_keeps (State.bump_keeps h3))
  clear_value u6
  extract_lets +onlyGivenNames u9
  clear_value u9
  refine Keeps.foldlVia (fun a : (State × Nat) × Nat => a.1.1) h1 fun a m h => ?_
  extract_lets +onlyGivenNames u10
  clear_value u10
  split
  · exact h
  · exact volumeWrite_keeps h

theorem drainStep_keeps {s0 s : State} {ri : Nat} (h0 : Keeps s0 s) : Keeps s0 (drainStep s ri) := by
  unfold drainStep
  extract_lets +onlyGivenNames u1
  clear_value u1
  split
  · assumption
  · extract_lets +onlyGivenNames u2 u3 u4
    clear_value u2 u3 u4
    refine Keeps.ite (fun _ => ?_) (fun _ => ?_)
    · assumption
    · extract_lets +onlyGivenNames u5 u6
      clear_value u5 u6
      refine Keeps.ite (fun _ => ?_) (fun _ => ?_)
      · exact failDrain_keeps (tellAll_keeps ‹_›)
      · extract_lets +onlyGivenNames u7
        have h1 : FstKeeps s0 u7 := by
          unfold u7
          exact FstKeeps.of (writeRegion_keeps ‹_›)
        clear_value u7
        refine Keeps.ite (fun _ => ?_) (fun _ => ?_)
        · exact failDrain_keeps ‹_›
        · refine Keeps.ite (fun _ => ?_) (fun _ => ?_)
          · extract_lets +onlyGivenNames u8
            clear_value u8
            exact tellAll_keeps (State.setRing_keeps ‹_›)
          · assumption

theorem ringSealed_keeps {s0 s : State} {ri : Nat} (h0 : Keeps s0 s) : Keeps s0 (ringSealed s ri) := by
  unfold ringSealed
  extract_lets +onlyGivenNames u1
  clear_value u1
  extract_lets +onlyGivenNames u2
  have h1 : Keeps s0 u2 := State.wr_keeps (State.setRing_keeps ‹_›)
  clear_value u2
  extract_lets +onlyGivenNames u3
  have h2 : Keeps s0 u3 := endRingCmd_keeps ‹_›
  clear_value u3
  exact ckpRaise_keeps ‹_›

theorem sealUsed_keeps {s0 s : State} {slot ctr : Nat} {tag : List Byte} (h0 : Keeps s0 s) :
    Keeps s0 (sealUsed s slot ctr tag) := by
  unfold sealUsed
  extract_lets +onlyGivenNames u1
  have h1 : SndKeeps s0 u1 := by
    unfold u1
    exact SndKeeps.of (State.freeBytes_keeps ‹_›)
  clear_value u1
  extract_lets +onlyGivenNames u2
  have h2 : Keeps s0 u2 := State.setWords_keeps ‹_›
  clear_value u2
  exact sealRelease_keeps (State.wrs_keeps ‹_›)

theorem writeRoot_keeps {s0 s : State} {ri : Nat} {d : CkpDrain} (h0 : Keeps s0 s) : Keeps s0 (writeRoot s ri d) := by
  unfold writeRoot
  extract_lets +onlyGivenNames u1 u2 u3
  clear_value u1 u2 u3
  refine Keeps.ite (fun _ => ?_) (fun _ => ?_)
  · exact failDrain_keeps ‹_›
  · extract_lets +onlyGivenNames u4
    clear_value u4
    extract_lets +onlyGivenNames u5
    have h1 : Keeps s0 u5 := State.wr_keeps ‹_›
    clear_value u5
    extract_lets +onlyGivenNames u6 u7
    clear_value u6 u7
    extract_lets +onlyGivenNames u8
    have h2 : FstKeeps s0 u8 := by
      unfold u8
      exact FstKeeps.of (volumeWrite_keeps ‹_›)
    clear_value u8
    extract_lets +onlyGivenNames u9
    have h3 : Keeps s0 u9 := sealUsed_keeps ‹_›
    clear_value u9
    refine Keeps.ite (fun _ => ?_) (fun _ => ?_)
    · exact failDrain_keeps ‹_›
    · refine Keeps.ite (fun _ => ?_) (fun _ => ?_)
      · exact ringSealed_keeps (tellAll_keeps ‹_›)
      · exact State.setRing_keeps ‹_›

theorem memberLost_keeps {s0 s : State} {ri m : Nat} (h0 : Keeps s0 s) : Keeps s0 (memberLost s ri m) := by
  unfold memberLost
  extract_lets +onlyGivenNames u1 u2
  clear_value u1 u2
  extract_lets +onlyGivenNames u3
  have h1 : Keeps s0 u3 := tellAll_keeps ‹_›
  clear_value u3
  refine Keeps.ite (fun _ => ?_) (fun _ => ?_)
  · exact dropRing_keeps ‹_›
  · refine Keeps.ite (fun _ => ?_) (fun _ => ?_)
    · refine Keeps.ite (fun _ => ?_) (fun _ => ?_)
      · exact dropRing_keeps ‹_›
      · exact drainStep_keeps (State.setRing_keeps ‹_›)
    · assumption

theorem ckpSettle_keeps {s0 s : State} (h0 : Keeps s0 s) : Keeps s0 (ckpSettle s) := by
  unfold ckpSettle
  extract_lets +onlyGivenNames u1
  clear_value u1
  refine Keeps.foldl ?_ ?_
  · exact Keeps.upd (t := s) rfl rfl rfl ‹_›
  · intro v1 v2 v3
    split
    · split
      · assumption
      · split
        · exact failDrain_keeps ‹_›
        · exact memberLost_keeps ‹_›
    · assumption

theorem ringMessage_keeps {s0 s : State} {ri m : Nat} {msg : CkpMsg} (h0 : Keeps s0 s) :
    Keeps s0 (ringMessage s ri m msg) := by
  unfold ringMessage
  extract_lets +onlyGivenNames u1 u2
  clear_value u1 u2
  split
  · assumption
  · assumption
  · refine Keeps.ite (fun _ => ?_) (fun _ => ?_)
    · assumption
    · exact ringStaging_keeps (State.setRing_keeps ‹_›)
  · exact noteSeen_keeps ‹_›
  · exact noteRef_keeps ‹_›
  · exact gotWinner_keeps ‹_›
  · exact checkPlaced_keeps (State.setRing_keeps ‹_›)
  · exact placeShard_keeps ‹_›
  · refine Keeps.ite (fun _ => ?_) (fun _ => ?_)
    · assumption
    · exact State.setRing_keeps ‹_›
  · exact drainStep_keeps (State.setRing_keeps ‹_›)
  · refine Keeps.ite (fun _ => ?_) (fun _ => ?_)
    · assumption
    · exact State.setRing_keeps ‹_›
  · refine Keeps.ite (fun _ => ?_) (fun _ => ?_)
    · assumption
    · refine Keeps.ite (fun _ => ?_) (fun _ => ?_)
      · exact ringSealed_keeps ‹_›
      · refine Keeps.ite (fun _ => ?_) (fun _ => ?_)
        · exact ringSealed_keeps (tellAll_keeps ‹_›)
        · assumption
  · exact dropRing_keeps ‹_›
  · exact failDrain_keeps ‹_›
  · exact memberLost_keeps ‹_›

theorem State.setEarly_keeps {s0 s : State} {g : Nat} {l : List (Nat × Nat × CkpMsg)} (h0 : Keeps s0 s) :
    Keeps s0 (State.setEarly s g l) := by
  unfold State.setEarly
  exact Keeps.upd (t := s) rfl rfl rfl ‹_›

theorem replayEarly_keeps {s0 s : State} {ri : Nat} (h0 : Keeps s0 s) : Keeps s0 (replayEarly s ri) := by
  unfold replayEarly
  extract_lets +onlyGivenNames u1 u2
  clear_value u1 u2
  extract_lets +onlyGivenNames u3
  have h1 : Keeps s0 u3 := State.setEarly_keeps ‹_›
  clear_value u3
  refine Keeps.foldl ?_ ?_
  · assumption
  · intro v1 v2 v3
    refine Keeps.ite (fun _ => ?_) (fun _ => ?_)
    · exact ringMessage_keeps ‹_›
    · assumption

theorem learnStep_keeps {s0 s : State} {ri step : Nat} (h0 : Keeps s0 s) : Keeps s0 (learnStep s ri step) := by
  unfold learnStep
  extract_lets +onlyGivenNames u1
  clear_value u1
  extract_lets +onlyGivenNames u2
  have h1 : Keeps s0 u2 := State.wr_keeps (State.setRing_keeps ‹_›)
  clear_value u2
  refine Keeps.ite (fun _ => ?_) (fun _ => ?_)
  · exact abandonRing_keeps ‹_›
  · exact replayEarly_keeps ‹_›

theorem memberMessage_keeps {s0 s : State} {g m step : Nat} {msg : CkpMsg} (h0 : Keeps s0 s) :
    Keeps s0 (memberMessage s g m step msg) := by
  unfold memberMessage
  split
  · exact ringMessage_keeps ‹_›
  · split
    · refine Keeps.ite (fun _ => ?_) (fun _ => ?_)
      · exact learnStep_keeps ‹_›
      · assumption
    · exact dropRing_keeps ‹_›
    · exact memberLost_keeps ‹_›
    · assumption
    · refine Keeps.ite (fun _ => ?_) (fun _ => ?_)
      · assumption
      · exact State.setEarly_keeps ‹_›

theorem ckpResume_keeps {s0 s : State} (h0 : Keeps s0 s) : Keeps s0 (ckpResume s) := by
  unfold ckpResume
  refine Keeps.ite (fun _ => ?_) (fun _ => ?_)
  · assumption
  · refine Keeps.foldl ?_ ?_
    · assumption
    · intro v1 v2 v3
      extract_lets +onlyGivenNames u1
      have h1 : Keeps s0 u1 := by
        unfold u1
        refine Keeps.ite (fun _ => ?_) (fun _ => ?_)
        · exact sendHashes_keeps ‹_›
        · assumption
      clear_value u1
      exact drainStep_keeps (replayEarly_keeps ‹_›)

theorem issuePulls_keeps {s0 s : State} {ri : Nat} (h0 : Keeps s0 s) : Keeps s0 (issuePulls s ri) := by
  unfold issuePulls
  extract_lets +onlyGivenNames u1
  clear_value u1
  refine Keeps.foldl ?_ ?_
  · assumption
  · intro v1 v2 v3
    split
    · exact State.hostRequest_keeps ‹_›
    · assumption

theorem pullLanded_keeps {s0 s : State} {ri port addr : Nat} {l : List Byte} (h0 : Keeps s0 s) :
    Keeps s0 (pullLanded s ri port addr l) := by
  unfold pullLanded
  extract_lets +onlyGivenNames u1 u2
  clear_value u1 u2
  split
  · assumption
  · extract_lets +onlyGivenNames u3 u4
    clear_value u3 u4
    extract_lets +onlyGivenNames u5
    have h1 : FstKeeps s0 u5 := by
      unfold u5
      exact FstKeeps.of (State.writeMem_keeps ‹_›)
    clear_value u5
    extract_lets +onlyGivenNames u6
    have h2 : Keeps s0 u6 := by
      unfold u6
      assumption
    clear_value u6
    extract_lets +onlyGivenNames u7 u8
    clear_value u7 u8
    extract_lets +onlyGivenNames u9
    have h3 : Keeps s0 u9 := State.setRing_keeps ‹_›
    clear_value u9
    refine Keeps.ite (fun _ => ?_) (fun _ => ?_)
    · exact abandonRing_keeps ‹_›
    · refine Keeps.ite (fun _ => ?_) (fun _ => ?_)
      · assumption
      · extract_lets +onlyGivenNames u10
        clear_value u10
        extract_lets +onlyGivenNames u11
        have h4 : Keeps s0 u11 := State.write_keeps ‹_›
        clear_value u11
        extract_lets +onlyGivenNames u12
        have h5 : Keeps s0 u12 := hashGranule_keeps ‹_›
        clear_value u12
        refine Keeps.ite (fun _ => ?_) (fun _ => ?_)
        · assumption
        · exact itemCaptured_keeps ‹_›

theorem placeRestored_keeps {s0 s : State} {ri : Nat} {i : CkpItem} {g : Nat} {l : List Byte} (h0 : Keeps s0 s) :
    Keeps s0 (placeRestored s ri i g l).1 := by
  unfold placeRestored
  extract_lets +onlyGivenNames u1 u2
  clear_value u1 u2
  split
  · exact State.writeMem_keeps ‹_›
  · split
    · exact State.portWrite_keeps ‹_›
    · exact Keeps.mkFst ‹_›
  · exact State.writeMem_keeps ‹_›

theorem restoreItems_keeps {s0 s : State} {ri : Nat} {root : List Byte} {v : RootView} {items : List CkpItem}
    (h0 : Keeps s0 s) : Keeps s0 (restoreItems s ri root v items).1 := by
  unfold restoreItems
  extract_lets +onlyGivenNames u1 u2 u3 u4
  clear_value u1 u2 u3 u4
  extract_lets +onlyGivenNames u5
  have h1 : FstKeeps s0 u5 := by
    unfold u5
    refine FstKeeps.of ?_
    refine Keeps.foldlFst ?_ ?_
    · exact Keeps.mkFst ‹_›
    · intro v1 v2 v3
      split
      · assumption
      · extract_lets +onlyGivenNames u6 u7 u8 u9 u10 u11 u12 u13 u14 u15
        clear_value u6 u7 u8 u9 u10 u11 u12 u13 u14 u15
        split
        · extract_lets +onlyGivenNames u16
          have h2 : FstKeeps s0 u16 := by
            unfold u16
            exact FstKeeps.of (placeRestored_keeps ‹_›)
          clear_value u16
          refine Keeps.mkFst ?_
          refine Keeps.ite (fun _ => ?_) (fun _ => ?_)
          · exact State.bump_keeps ‹_›
          · assumption
        · assumption
  clear_value u5
  assumption

theorem tryRoots_keeps {s0 : State} {ri : Nat} {items : List CkpItem} {agreed : List Nat}
    {roots : List (CkpArea × List Byte)} :
    ∀ {s : State} {rep : List (List Byte)} (_ : Keeps s0 s), Keeps s0 (tryRoots ri items agreed roots s rep).1 := by
  induction roots with
  | nil => intro s rep h; exact h
  | cons p t ih =>
    intro s rep h
    obtain ⟨a, root⟩ := p
    unfold tryRoots
    extract_lets +onlyGivenNames u1 u2 u3
    have h1 : Keeps s0 u3 := by
      unfold u3
      refine Keeps.foldl h fun _ _ h => ?_
      exact State.emit_keeps h
    clear_value u1 u2 u3
    extract_lets +onlyGivenNames u4
    have h2 : Keeps s0 u4 := State.bump_keeps h1
    clear_value u4
    split
    · extract_lets +onlyGivenNames u5
      have h3 : FstKeeps s0 u5 := FstKeeps.of (restoreItems_keeps h2)
      clear_value u5
      exact Keeps.mkFst h3
    · extract_lets +onlyGivenNames u6
      have h3 : Keeps s0 u6 := ckpRaise_keeps h2
      clear_value u6
      exact ih h3

theorem verified_keeps {s0 s : State} {slot ctr : Nat} (h0 : Keeps s0 s) : Keeps s0 (verified s slot ctr) := by
  unfold verified
  refine Keeps.ite (fun _ => ?_) (fun _ => ?_)
  · exact State.wr_keeps ‹_›
  · assumption

theorem noteAreas_keeps {s0 s : State} {l : List CkpArea} (h0 : Keeps s0 s) : Keeps s0 (noteAreas s l) := by
  unfold noteAreas
  refine Keeps.foldl ?_ ?_
  · assumption
  · intro v1 v2 v3
    split
    · exact State.noteRead_keeps ‹_›
    · assumption

theorem forgetRings_keeps {s0 s : State} {q : Nat} (h0 : Keeps s0 s) : Keeps s0 (forgetRings s q) := by
  unfold forgetRings
  extract_lets +onlyGivenNames u1
  clear_value u1
  extract_lets +onlyGivenNames u2
  have h1 : Keeps s0 u2 := keepPackets_keeps ‹_›
  clear_value u2
  refine Keeps.foldl ?_ ?_
  · assumption
  · intro v1 v2 v3
    exact State.setPeer_keeps ‹_›

theorem ckpAbort_keeps {s0 s : State} {qid status : Nat} {all : Bool} (h0 : Keeps s0 s) :
    Keeps s0 (ckpAbort s qid status all) := by
  unfold ckpAbort
  extract_lets +onlyGivenNames u1
  have h1 : Keeps s0 u1 := by
    unfold u1
    refine Keeps.foldl ?_ ?_
    · assumption
    · intro v1 v2 v3
      extract_lets +onlyGivenNames u2
      clear_value u2
      refine Keeps.ite (fun _ => ?_) (fun _ => ?_)
      · exact abandonRing_keeps ‹_›
      · refine Keeps.ite (fun _ => ?_) (fun _ => ?_)
        · exact failDrain_keeps ‹_›
        · assumption
  clear_value u1
  exact State.completeAll_keeps (forgetRings_keeps ‹_›)

theorem ckpRegionLost_keeps {s0 s : State} {rgn : Nat} (h0 : Keeps s0 s) : Keeps s0 (ckpRegionLost s rgn) := by
  unfold ckpRegionLost
  refine Keeps.foldl ?_ ?_
  · assumption
  · intro v1 v2 v3
    exact abandonRing_keeps ‹_›

theorem ckpDeviceLost_keeps {s0 s : State} {dev : Nat} (h0 : Keeps s0 s) : Keeps s0 (ckpDeviceLost s dev) := by
  unfold ckpDeviceLost
  refine Keeps.foldl ?_ ?_
  · assumption
  · intro v1 v2 v3
    split
    · exact memberLost_keeps ‹_›
    · assumption

theorem pullFailed_keeps {s0 s : State} {qid entry status : Nat} (h0 : Keeps s0 s) :
    Keeps s0 (pullFailed s qid entry status) := by
  unfold pullFailed
  split
  · exact abandonRing_keeps ‹_›
  · assumption

/-! ### Machine/Twin.lean -/

theorem markStale_keeps {s0 s : State} {i : Nat} (h0 : Keeps s0 s) : Keeps s0 (markStale s i) := by
  unfold markStale
  extract_lets +onlyGivenNames u1 u2 u3
  clear_value u1 u2 u3
  extract_lets +onlyGivenNames u4
  have h1 : Keeps s0 u4 := Keeps.upd (t := s) rfl rfl rfl ‹_›
  clear_value u4
  extract_lets +onlyGivenNames u5
  have h2 : Keeps s0 u5 := by
    unfold u5
    split
    · assumption
    · exact State.raise_keeps (State.wr_keeps ‹_›)
  clear_value u5
  refine Keeps.foldl ?_ ?_
  · assumption
  · intro v1 v2 v3
    exact applyWrite_keeps ‹_›

theorem copyNext_keeps {s0 : State} {i n : Nat} :
    ∀ {s : State} (_ : Keeps s0 s), Keeps s0 (copyNext s i n) := by
  induction n with
  | zero => intro s h; exact h
  | succ n ih =>
    intro s h
    unfold copyNext
    split
    · exact h
    · extract_lets u1 u2 u3 u4
      have h1 : Keeps s0 u4 := Keeps.upd (t := s) rfl rfl rfl h
      clear_value u4
      exact ih (State.mirrorRange_keeps h1)

theorem copiesGoOn_keeps {s0 s : State} (h0 : Keeps s0 s) : Keeps s0 (copiesGoOn s) := by
  unfold copiesGoOn
  refine Keeps.foldl ?_ ?_
  · assumption
  · intro v1 v2 v3
    exact copyNext_keeps ‹_›

theorem startResync_keeps {s0 s : State} {i : Nat} (h0 : Keeps s0 s) : Keeps s0 (startResync s i) := by
  unfold startResync
  refine Keeps.ite (fun _ => ?_) (fun _ => ?_)
  · extract_lets +onlyGivenNames u1 u2
    clear_value u1 u2
    exact copyNext_keeps (Keeps.upd (t := s) rfl rfl rfl ‹_›)
  · assumption

theorem fenceEnd_keeps {s0 s : State} {status : Nat} (h0 : Keeps s0 s) : Keeps s0 (fenceEnd s status) := by
  unfold fenceEnd
  extract_lets +onlyGivenNames u1
  clear_value u1
  extract_lets +onlyGivenNames u2
  have h1 : Keeps s0 u2 := Keeps.upd (t := s) rfl rfl rfl ‹_›
  clear_value u2
  exact State.wrs_keeps ‹_›

theorem execMirrorFenceStart_keeps {s0 : State} {r : Fin 1024} {s : State} (h1 : Keeps s0 s) :
    OutAll (Keeps s0) (execMirrorFenceStart r s) := by
  unfold execMirrorFenceStart
  apply unlessNoImage_keeps
  · assumption
  · extract_lets +onlyGivenNames u1
    clear_value u1
    extract_lets +onlyGivenNames u2
    have h2 : Keeps s0 u2 := State.wr_keeps ‹_›
    clear_value u2
    split
    · exact OutAll.next ‹_›
    · split
      · exact OutAll.next (State.wr_keeps ‹_›)
      · extract_lets +onlyGivenNames u3
        clear_value u3
        extract_lets +onlyGivenNames u4
        have h3 : Keeps s0 u4 := Keeps.upd (t := u2) rfl rfl rfl ‹_›
        clear_value u4
        split
        · refine OutAll.next ?_
          refine Keeps.ite (fun _ => ?_) (fun _ => ?_)
          · exact fenceEnd_keeps ‹_›
          · exact State.wr_keeps ‹_›
        · exact OutAll.next (State.wr_keeps ‹_›)

theorem setPair_keeps {s0 s : State} {new : Nat} (h0 : Keeps s0 s) : Keeps s0 (setPair s new) := by
  unfold setPair
  extract_lets +onlyGivenNames u1
  clear_value u1
  refine Keeps.ite (fun _ => ?_) (fun _ => ?_)
  · assumption
  · extract_lets +onlyGivenNames u2
    have h1 : Keeps s0 u2 := State.wr_keeps ‹_›
    clear_value u2
    extract_lets +onlyGivenNames u3
    have h2 : Keeps s0 u3 := State.raiseUnit_keeps ‹_›
    clear_value u3
    extract_lets +onlyGivenNames u4
    clear_value u4
    extract_lets +onlyGivenNames u5
    have h3 : Keeps s0 u5 := Keeps.upd (t := u3) rfl rfl rfl ‹_›
    clear_value u5
    extract_lets +onlyGivenNames u6
    have h4 : Keeps s0 u6 := by
      unfold u6
      refine Keeps.ite (fun _ => ?_) (fun _ => ?_)
      · refine Keeps.foldl ?_ ?_
        · assumption
        · intro v1 v2 v3
          exact markStale_keeps ‹_›
      · assumption
    clear_value u6
    extract_lets +onlyGivenNames u7
    have h5 : Keeps s0 u7 := by
      unfold u7
      refine Keeps.ite (fun _ => ?_) (fun _ => ?_)
      · refine Keeps.foldl ?_ ?_
        · assumption
        · intro v4 v5 v6
          exact startResync_keeps ‹_›
      · assumption
    clear_value u7
    refine Keeps.ite (fun _ => ?_) (fun _ => ?_)
    · extract_lets +onlyGivenNames u8 u9 u10
      clear_value u8 u9 u10
      extract_lets +onlyGivenNames u11
      have h6 : Keeps s0 u11 := Keeps.upd (t := u7) rfl rfl rfl ‹_›
      clear_value u11
      exact stqFences_keeps (retryHeld_keeps (releaseWrites_keeps ‹_›))
    · exact stqFences_keeps ‹_›

theorem showGrants_keeps {s0 s : State} (h0 : Keeps s0 s) : Keeps s0 (showGrants s) := by
  unfold showGrants
  exact State.wr_keeps ‹_›

theorem grantOutcome_keeps {s0 s : State} {w old : Nat} (h0 : Keeps s0 s) : Keeps s0 (grantOutcome s w old) := by
  unfold grantOutcome
  extract_lets +onlyGivenNames u1
  clear_value u1
  refine Keeps.ite (fun _ => ?_) (fun _ => ?_)
  · assumption
  · refine Keeps.ite (fun _ => ?_) (fun _ => ?_)
    · exact setPair_keeps ‹_›
    · extract_lets +onlyGivenNames u2 u3 u4
      clear_value u2 u3 u4
      extract_lets +onlyGivenNames u5
      have h1 : Keeps s0 u5 := showGrants_keeps (Keeps.upd (t := s) rfl rfl rfl ‹_›)
      clear_value u5
      refine Keeps.ite (fun _ => ?_) (fun _ => ?_)
      · exact Keeps.upd (t := u5) rfl rfl rfl ‹_›
      · refine Keeps.ite (fun _ => ?_) (fun _ => ?_)
        · exact setPair_keeps ‹_›
        · assumption

theorem sendGrant_keeps {s0 s : State} {w : Nat} (h0 : Keeps s0 s) : Keeps s0 (sendGrant s w) := by
  unfold sendGrant
  extract_lets +onlyGivenNames u1 u2 u3 u4
  clear_value u1 u2 u3 u4
  refine Keeps.ite (fun _ => ?_) (fun _ => ?_)
  · extract_lets +onlyGivenNames u5
    have h1 : FstKeeps s0 u5 := by
      unfold u5
      exact FstKeeps.of (targetAtomic_keeps ‹_›)
    clear_value u5
    refine Keeps.ite (fun _ => ?_) (fun _ => ?_)
    · exact grantOutcome_keeps ‹_›
    · assumption
  · exact startOp_keeps ‹_›

theorem attemptGrants_keeps {s0 s : State} (h0 : Keeps s0 s) : Keeps s0 (attemptGrants s) := by
  unfold attemptGrants
  extract_lets +onlyGivenNames u1
  clear_value u1
  extract_lets +onlyGivenNames u2
  have h1 : Keeps s0 u2 := showGrants_keeps (Keeps.upd (t := s) rfl rfl rfl ‹_›)
  clear_value u2
  extract_lets +onlyGivenNames u3
  have h2 : Keeps s0 u3 := State.bump_keeps ‹_›
  clear_value u3
  extract_lets +onlyGivenNames u4
  clear_value u4
  refine Keeps.ite (fun _ => ?_) (fun _ => ?_)
  · refine Keeps.foldl ?_ ?_
    · assumption
    · intro v1 v2 v3
      exact sendGrant_keeps ‹_›
  · assumption

theorem twinSettle_keeps {s0 s : State} (h0 : Keeps s0 s) : Keeps s0 (twinSettle s) := by
  unfold twinSettle
  extract_lets +onlyGivenNames u1 u2
  clear_value u1 u2
  refine Keeps.foldl ?_ ?_
  · exact Keeps.upd (t := s) rfl rfl rfl ‹_›
  · intro v1 v2 v3
    split
    · split
      · exact grantOutcome_keeps ‹_›
      · assumption
    · assumption

theorem enterSuspect_keeps {s0 s : State} (h0 : Keeps s0 s) : Keeps s0 (enterSuspect s) := by
  unfold enterSuspect
  exact twinSettle_keeps (attemptGrants_keeps (setPair_keeps ‹_›))

theorem linkDead_keeps {s0 s : State} (h0 : Keeps s0 s) : Keeps s0 (linkDead s) := by
  unfold linkDead
  refine Keeps.ite (fun _ => ?_) (fun _ => ?_)
  · refine Keeps.ite (fun _ => ?_) (fun _ => ?_)
    · exact setPair_keeps ‹_›
    · exact enterSuspect_keeps ‹_›
  · assumption

theorem enterPairing_keeps {s0 s : State} {epoch : Nat} (h0 : Keeps s0 s) : Keeps s0 (enterPairing s epoch) := by
  unfold enterPairing
  extract_lets +onlyGivenNames u1 u2 u3
  clear_value u1 u2 u3
  extract_lets +onlyGivenNames u4
  have h1 : Keeps s0 u4 := Keeps.upd (t := s) rfl rfl rfl ‹_›
  clear_value u4
  exact setPair_keeps (showGrants_keeps (State.wr_keeps ‹_›))

theorem takeAck_keeps {s0 s : State} {n : Nat} (h0 : Keeps s0 s) : Keeps s0 (takeAck s n) := by
  unfold takeAck
  extract_lets +onlyGivenNames u1 u2
  clear_value u1 u2
  refine Keeps.ite (fun _ => ?_) (fun _ => ?_)
  · extract_lets +onlyGivenNames u3
    clear_value u3
    extract_lets +onlyGivenNames u4
    have h1 : Keeps s0 u4 := Keeps.upd (t := s) rfl rfl rfl ‹_›
    clear_value u4
    extract_lets +onlyGivenNames u5 u6
    clear_value u5 u6
    extract_lets +onlyGivenNames u7
    have h2 : Keeps s0 u7 := Keeps.upd (t := u4) rfl rfl rfl ‹_›
    clear_value u7
    apply stqFences_keeps
    apply copiesGoOn_keeps
    apply retryHeld_keeps
    refine Keeps.foldl ?_ ?_
    · assumption
    · intro v1 v2 v3
      exact State.write_keeps ‹_›
  · assumption

theorem twinReceive_keeps {s0 s : State} {f : TwinFrame} (h0 : Keeps s0 s) : Keeps s0 (twinReceive s f).1 := by
  unfold twinReceive
  split
  · exact Keeps.mkFst ‹_›
  · split
    · exact Keeps.mkFst (State.bump_keeps ‹_›)
    · extract_lets +onlyGivenNames u1
      have h1 : Keeps s0 u1 := by
        unfold u1
        refine Keeps.ite (fun _ => ?_) (fun _ => ?_)
        · exact State.wr_keeps ‹_›
        · exact State.wr_keeps ‹_›
      clear_value u1
      extract_lets +onlyGivenNames u2
      clear_value u2
      refine Keeps.mkFst ?_
      refine Keeps.ite (fun _ => ?_) (fun _ => ?_)
      · exact setPair_keeps ‹_›
      · assumption

theorem heartbeatState_keeps {s0 s : State} {f : TwinFrame} {mine : Bool} (h0 : Keeps s0 s) :
    Keeps s0 (heartbeatState s f mine) := by
  unfold heartbeatState
  refine Keeps.ite (fun _ => ?_) (fun _ => ?_)
  · assumption
  · refine Keeps.ite (fun _ => ?_) (fun _ => ?_)
    · assumption
    · refine Keeps.ite (fun _ => ?_) (fun _ => ?_)
      · exact setPair_keeps ‹_›
      · refine Keeps.ite (fun _ => ?_) (fun _ => ?_)
        · exact setPair_keeps ‹_›
        · assumption

theorem sendMirrorAck_keeps {s0 s : State} (h0 : Keeps s0 s) : Keeps s0 (sendMirrorAck s) := by
  unfold sendMirrorAck
  extract_lets +onlyGivenNames u1
  clear_value u1
  extract_lets +onlyGivenNames u2
  have h1 : Keeps s0 u2 := Keeps.upd (t := s) rfl rfl rfl ‹_›
  clear_value u2
  exact State.twinSend_keeps ‹_›

theorem twinWrite_keeps {s0 s : State} {f : TwinFrame} (h0 : Keeps s0 s) : Keeps s0 (twinWrite s f) := by
  unfold twinWrite
  extract_lets +onlyGivenNames u1 u2
  clear_value u1 u2
  refine Keeps.ite (fun _ => ?_) (fun _ => ?_)
  · assumption
  · extract_lets +onlyGivenNames u3
    have h1 : Keeps s0 u3 := applyWrite_keeps ‹_›
    clear_value u3
    extract_lets +onlyGivenNames u4 u5
    clear_value u4 u5
    extract_lets +onlyGivenNames u6
    have h2 : Keeps s0 u6 := by
      unfold u6
      refine Keeps.ite (fun _ => ?_) (fun _ => ?_)
      · exact Keeps.upd (t := u3) rfl rfl rfl ‹_›
      · refine Keeps.ite (fun _ => ?_) (fun _ => ?_)
        · exact Keeps.upd (t := s) rfl rfl rfl ‹_›
        · assumption
    clear_value u6
    refine Keeps.ite (fun _ => ?_) (fun _ => ?_)
    · exact sendMirrorAck_keeps ‹_›
    · assumption

theorem twinPortDown_keeps {s0 s : State} {t : Nat} (h0 : Keeps s0 s) : Keeps s0 (twinPortDown s t) := by
  unfold twinPortDown
  extract_lets +onlyGivenNames u1
  clear_value u1
  extract_lets +onlyGivenNames u2
  have h1 : Keeps s0 u2 := by
    unfold u2
    refine Keeps.ite (fun _ => ?_) (fun _ => ?_)
    · exact State.wr_keeps ‹_›
    · exact State.wr_keeps ‹_›
  clear_value u2
  refine Keeps.ite (fun _ => ?_) (fun _ => ?_)
  · exact linkDead_keeps ‹_›
  · assumption

theorem pairWrite_keeps {s0 s : State} {epoch : Nat} (h0 : Keeps s0 s) : Keeps s0 (pairWrite s epoch) := by
  unfold pairWrite
  extract_lets +onlyGivenNames u1
  have h1 : Keeps s0 u1 := State.wr_keeps ‹_›
  clear_value u1
  extract_lets +onlyGivenNames u2
  clear_value u2
  refine Keeps.ite (fun _ => ?_) (fun _ => ?_)
  · assumption
  · exact enterPairing_keeps ‹_›

theorem twinDisabled_keeps {s0 s : State} (h0 : Keeps s0 s) : Keeps s0 (twinDisabled s) := by
  unfold twinDisabled
  exact setPair_keeps ‹_›

theorem twinStart_keeps {s0 s : State} (h0 : Keeps s0 s) : Keeps s0 (twinStart s) := by
  unfold twinStart
  refine Keeps.ite (fun _ => ?_) (fun _ => ?_)
  · exact enterPairing_keeps ‹_›
  · assumption

/-! ### Machine/Faults.lean -/

theorem recordFault_keeps {s0 s : State} {unit kind a b origin : Nat} (h0 : Keeps s0 s) :
    Keeps s0 (recordFault s unit kind a b origin) := by
  unfold recordFault
  extract_lets +onlyGivenNames u1 u2
  clear_value u1 u2
  refine Keeps.ite (fun _ => ?_) (fun _ => ?_)
  · assumption
  · refine Keeps.ite (fun _ => ?_) (fun _ => ?_)
    · extract_lets +onlyGivenNames u3
      clear_value u3
      extract_lets +onlyGivenNames u4
      have h1 : Keeps s0 u4 := Keeps.upd (t := s) rfl rfl rfl ‹_›
      clear_value u4
      extract_lets +onlyGivenNames u5
      have h2 : Keeps s0 u5 := State.wr_keeps ‹_›
      clear_value u5
      refine Keeps.ite (fun _ => ?_) (fun _ => ?_)
      · exact State.wr_keeps ‹_›
      · assumption
    · extract_lets +onlyGivenNames u6
      clear_value u6
      extract_lets +onlyGivenNames u7
      have h3 : Keeps s0 u7 := Keeps.upd (t := s) rfl rfl rfl ‹_›
      clear_value u7
      exact State.wrs_keeps ‹_›

theorem serviceDue_keeps {s0 s : State} {cause unit : Nat} (h0 : Keeps s0 s) : Keeps s0 (serviceDue s cause unit) := by
  unfold serviceDue
  refine Keeps.ite (fun _ => ?_) (fun _ => ?_)
  · assumption
  · extract_lets +onlyGivenNames u1
    clear_value u1
    extract_lets +onlyGivenNames u2
    have h1 : Keeps s0 u2 := Keeps.upd (t := s) rfl rfl rfl ‹_›
    clear_value u2
    exact State.raiseUnit_keeps ‹_›

theorem groveOut_keeps {s0 s : State} {g : Nat} (h0 : Keeps s0 s) : Keeps s0 (groveOut s g) := by
  unfold groveOut
  refine Keeps.ite (fun _ => ?_) (fun _ => ?_)
  · exact State.wr_keeps ‹_›
  · assumption

end Sys2Proof.Machine
end

