-- ==== Sys2Proof/Laws/KeepsFabric.lean ====
section
/-! SUPPORT. What the operations of ports and lanes, received packets, windows, failing units, traps and telemetry keep: the waiting commands and the canonical form. One
lemma for each operation. -/
namespace Sys2Proof.Machine

open Sys2Proof

/-! ### Machine/Optics.lean -/

theorem putLane_keeps {s0 s : State} {l v : Nat} (h0 : Keeps s0 s) : Keeps s0 (putLane s l v) := by
  unfold putLane
  extract_lets +onlyGivenNames u1
  have h1 : Keeps s0 u1 := State.wr_keeps ‹_›
  clear_value u1
  refine Keeps.ite (fun _ => ?_) (fun _ => ?_)
  · exact State.wr_keeps ‹_›
  · assumption

theorem setFabPort_keeps {s0 s : State} {p new : Nat} (h0 : Keeps s0 s) : Keeps s0 (setFabPort s p new) := by
  unfold setFabPort
  extract_lets +onlyGivenNames u1
  clear_value u1
  refine Keeps.ite (fun _ => ?_) (fun _ => ?_)
  · assumption
  · extract_lets +onlyGivenNames u2
    have h1 : Keeps s0 u2 := State.raiseUnit_keeps (State.wr_keeps ‹_›)
    clear_value u2
    refine Keeps.ite (fun _ => ?_) (fun _ => ?_)
    · exact leavePort_keeps (endShortfalls_keeps ‹_›)
    · refine Keeps.ite (fun _ => ?_) (fun _ => ?_)
      · exact joinPort_keeps ‹_›
      · assumption

theorem linkReplay_keeps {s0 s : State} {k : Nat} (h0 : Keeps s0 s) : Keeps s0 (linkReplay s k) := by
  unfold linkReplay
  extract_lets +onlyGivenNames u1
  clear_value u1
  refine Keeps.foldl ?_ ?_
  · assumption
  · intro v1 v2 v3
    exact State.emit_keeps (State.bump_keeps ‹_›)

theorem setUstLane_keeps {s0 s : State} {u new : Nat} (h0 : Keeps s0 s) : Keeps s0 (setUstLane s u new) := by
  unfold setUstLane
  extract_lets +onlyGivenNames u1
  clear_value u1
  refine Keeps.ite (fun _ => ?_) (fun _ => ?_)
  · assumption
  · extract_lets +onlyGivenNames u2
    have h1 : Keeps s0 u2 := State.wr_keeps ‹_›
    clear_value u2
    extract_lets +onlyGivenNames u3
    have h2 : Keeps s0 u3 := State.wr_keeps ‹_›
    clear_value u3
    extract_lets +onlyGivenNames u4
    clear_value u4
    extract_lets +onlyGivenNames u5
    have h3 : Keeps s0 u5 := by
      unfold u5
      refine Keeps.ite (fun _ => ?_) (fun _ => ?_)
      · exact State.raiseUnit_keeps ‹_›
      · refine Keeps.ite (fun _ => ?_) (fun _ => ?_)
        · exact State.raiseUnit_keeps ‹_›
        · assumption
    clear_value u5
    split
    · extract_lets +onlyGivenNames u6
      have h4 : Keeps s0 u6 := by
        unfold u6
        refine Keeps.ite (fun _ => ?_) (fun _ => ?_)
        · exact linkReplay_keeps ‹_›
        · assumption
      clear_value u6
      refine Keeps.ite (fun _ => ?_) (fun _ => ?_)
      · exact linkDown_keeps ‹_›
      · refine Keeps.ite (fun _ => ?_) (fun _ => ?_)
        · exact formGroups_keeps (linkEval_keeps ‹_›)
        · exact linkEval_keeps ‹_›
    · assumption

theorem portEval_keeps {s0 s : State} {p : Nat} (h0 : Keeps s0 s) : Keeps s0 (portEval s p) := by
  unfold portEval
  extract_lets +onlyGivenNames u1 u2 u3
  clear_value u1 u2 u3
  refine Keeps.ite (fun _ => ?_) (fun _ => ?_)
  · refine Keeps.ite (fun _ => ?_) (fun _ => ?_)
    · exact setFabPort_keeps ‹_›
    · refine Keeps.ite (fun _ => ?_) (fun _ => ?_)
      · exact setFabPort_keeps ‹_›
      · exact setFabPort_keeps ‹_›
  · assumption

theorem setLane_keeps {s0 s : State} {l new : Nat} (h0 : Keeps s0 s) : Keeps s0 (setLane s l new) := by
  unfold setLane
  extract_lets +onlyGivenNames u1
  have h1 : Keeps s0 u1 := putLane_keeps ‹_›
  clear_value u1
  refine Keeps.ite (fun _ => ?_) (fun _ => ?_)
  · exact portEval_keeps ‹_›
  · refine Keeps.ite (fun _ => ?_) (fun _ => ?_)
    · exact setUstLane_keeps ‹_›
    · assumption

theorem laneSettled_keeps {s0 s : State} {l : Nat} (h0 : Keeps s0 s) : Keeps s0 (laneSettled s l) := by
  unfold laneSettled
  exact Keeps.upd (t := s) rfl rfl rfl ‹_›

theorem portStart_keeps {s0 s : State} {p : Nat} (h0 : Keeps s0 s) : Keeps s0 (portStart s p) := by
  unfold portStart
  refine Keeps.ite (fun _ => ?_) (fun _ => ?_)
  · assumption
  · refine Keeps.ite (fun _ => ?_) (fun _ => ?_)
    · exact setFabPort_keeps ‹_›
    · extract_lets +onlyGivenNames u1
      have h1 : Keeps s0 u1 := setFabPort_keeps ‹_›
      clear_value u1
      refine Keeps.ite (fun _ => ?_) (fun _ => ?_)
      · extract_lets +onlyGivenNames u2
        clear_value u2
        extract_lets +onlyGivenNames u3
        have h2 : Keeps s0 u3 := by
          unfold u3
          refine Keeps.foldl ?_ ?_
          · assumption
          · intro v1 v2 v3
            exact putLane_keeps ‹_›
        clear_value u3
        exact portEval_keeps (setFabPort_keeps ‹_›)
      · assumption

theorem portStop_keeps {s0 s : State} {p : Nat} (h0 : Keeps s0 s) : Keeps s0 (portStop s p) := by
  unfold portStop
  extract_lets +onlyGivenNames u1
  have h1 : Keeps s0 u1 := laneSettled_keeps (laneSettled_keeps ‹_›)
  clear_value u1
  exact setFabPort_keeps (putLane_keeps (putLane_keeps ‹_›))

theorem portWrite_keeps {s0 s : State} {p v : Nat} (h0 : Keeps s0 s) : Keeps s0 (portWrite s p v) := by
  unfold portWrite
  refine Keeps.ite (fun _ => ?_) (fun _ => ?_)
  · assumption
  · extract_lets +onlyGivenNames u1
    have h1 : Keeps s0 u1 := State.wrs_keeps ‹_›
    clear_value u1
    extract_lets +onlyGivenNames u2
    clear_value u2
    refine Keeps.ite (fun _ => ?_) (fun _ => ?_)
    · refine Keeps.ite (fun _ => ?_) (fun _ => ?_)
      · assumption
      · exact portStop_keeps ‹_›
    · refine Keeps.ite (fun _ => ?_) (fun _ => ?_)
      · exact portStart_keeps ‹_›
      · assumption

theorem tileTrain_keeps {s0 s : State} {t : Nat} (h0 : Keeps s0 s) : Keeps s0 (tileTrain s t) := by
  unfold tileTrain
  refine Keeps.ite (fun _ => ?_) (fun _ => ?_)
  · extract_lets +onlyGivenNames u1
    have h1 : Keeps s0 u1 := by
      unfold u1
      refine Keeps.foldl ?_ ?_
      · assumption
      · intro v1 v2 v3
        exact portEval_keeps (setFabPort_keeps ‹_›)
    clear_value u1
    refine Keeps.ite (fun _ => ?_) (fun _ => ?_)
    · refine Keeps.foldl ?_ ?_
      · assumption
      · intro v4 v5 v6
        exact setLane_keeps ‹_›
    · assumption
  · assumption

theorem twinLanesOn_keeps {s0 s : State} (h0 : Keeps s0 s) : Keeps s0 (twinLanesOn s) := by
  unfold twinLanesOn
  refine Keeps.foldl ?_ ?_
  · assumption
  · intro v1 v2 v3
    exact tileTrain_keeps ‹_›

theorem twinLanesOff_keeps {s0 s : State} (h0 : Keeps s0 s) : Keeps s0 (twinLanesOff s) := by
  unfold twinLanesOff
  refine Keeps.foldl ?_ ?_
  · assumption
  · intro v1 v2 v3
    refine Keeps.ite (fun _ => ?_) (fun _ => ?_)
    · assumption
    · exact setLane_keeps (laneSettled_keeps ‹_›)

theorem tileDark_keeps {s0 s : State} {t : Nat} (h0 : Keeps s0 s) : Keeps s0 (tileDark s t) := by
  unfold tileDark
  extract_lets +onlyGivenNames u1
  have h1 : Keeps s0 u1 := by
    unfold u1
    refine Keeps.foldl ?_ ?_
    · assumption
    · intro v1 v2 v3
      exact laneSettled_keeps ‹_›
  clear_value u1
  extract_lets +onlyGivenNames u2
  have h2 : Keeps s0 u2 := by
    unfold u2
    refine Keeps.foldl ?_ ?_
    · assumption
    · intro v4 v5 v6
      exact setFabPort_keeps ‹_›
  clear_value u2
  refine Keeps.foldl ?_ ?_
  · assumption
  · intro v7 v8 v9
    exact setLane_keeps ‹_›

theorem lightEvent_keeps {s0 s : State} {i : Nat} {back : Bool} (h0 : Keeps s0 s) : Keeps s0 (lightEvent s i back) := by
  unfold lightEvent
  exact State.raiseUnit_keeps ‹_›

theorem reportLight_keeps {s0 s : State} {t : Nat} (h0 : Keeps s0 s) : Keeps s0 (reportLight s t) := by
  unfold reportLight
  refine Keeps.ite (fun _ => ?_) (fun _ => ?_)
  · extract_lets +onlyGivenNames u1
    clear_value u1
    refine Keeps.foldl ?_ ?_
    · exact Keeps.upd (t := s) rfl rfl rfl ‹_›
    · intro v1 v2 v3
      exact lightEvent_keeps ‹_›
  · assumption

theorem fecCounts_keeps {s0 s : State} {l : Nat} (h0 : Keeps s0 s) : Keeps s0 (fecCounts s l) := by
  unfold fecCounts
  extract_lets +onlyGivenNames u1
  have h1 : SndKeeps s0 u1 := by
    unfold u1
    exact SndKeeps.of (State.freeWord_keeps ‹_›)
  clear_value u1
  extract_lets +onlyGivenNames u2
  have h2 : SndKeeps s0 u2 := by
    unfold u2
    exact SndKeeps.of (State.freeWord_keeps ‹_›)
  clear_value u2
  exact State.bump_keeps (State.bump_keeps ‹_›)

theorem laneFailed_keeps {s0 s : State} {l cause : Nat} (h0 : Keeps s0 s) : Keeps s0 (laneFailed s l cause) := by
  unfold laneFailed
  extract_lets +onlyGivenNames u1
  have h1 : Keeps s0 u1 := State.raiseUnit_keeps (setLane_keeps ‹_›)
  clear_value u1
  refine Keeps.ite (fun _ => ?_) (fun _ => ?_)
  · exact serviceDue_keeps ‹_›
  · assumption

theorem carryLane_keeps {s0 s : State} {l : Nat} (h0 : Keeps s0 s) : Keeps s0 (carryLane s l) := by
  unfold carryLane
  extract_lets +onlyGivenNames u1
  clear_value u1
  extract_lets +onlyGivenNames u2
  have h1 : Keeps s0 u2 := State.wrs_keeps ‹_›
  clear_value u2
  extract_lets +onlyGivenNames u3
  have h2 : Keeps s0 u3 := State.wrs_keeps ‹_›
  clear_value u3
  extract_lets +onlyGivenNames u4
  have h3 : Keeps s0 u4 := State.wr_keeps ‹_›
  clear_value u4
  refine Keeps.ite (fun _ => ?_) (fun _ => ?_)
  · exact State.wr_keeps ‹_›
  · assumption

/-! ### Machine/FabricReceive.lean -/

theorem settleEnded_keeps {s0 s : State} (h0 : Keeps s0 s) : Keeps s0 (settleEnded s) := by
  unfold settleEnded
  exact twinSettle_keeps (ckpSettle_keeps (stqSettle_keeps ‹_›))

theorem authFail_keeps {s0 s : State} {p src : Nat} (h0 : Keeps s0 s) : Keeps s0 (authFail s p src) := by
  unfold authFail
  extract_lets +onlyGivenNames u1
  have h1 : Keeps s0 u1 := State.bump_keeps ‹_›
  clear_value u1
  extract_lets +onlyGivenNames u2
  clear_value u2
  refine Keeps.ite (fun _ => ?_) (fun _ => ?_)
  · extract_lets +onlyGivenNames u3
    clear_value u3
    extract_lets +onlyGivenNames u4
    have h2 : Keeps s0 u4 := Keeps.upd (t := u1) rfl rfl rfl ‹_›
    clear_value u4
    exact State.raiseUnit_keeps (State.noteRaised_keeps ‹_›)
  · exact Keeps.upd (t := u1) rfl rfl rfl ‹_›

theorem acceptPacket_keeps {s0 s : State} {h : SalHeader} (h0 : Keeps s0 s) : Keeps s0 (acceptPacket s h).1 := by
  unfold acceptPacket
  split
  · exact Keeps.mkFst ‹_›
  · split
    · exact Keeps.mkFst (State.bump_keeps ‹_›)
    · split
      · exact Keeps.mkFst (State.bump_keeps ‹_›)
      · split
        · exact Keeps.mkFst (authFail_keeps ‹_›)
        · extract_lets +onlyGivenNames u1
          have h1 : Keeps s0 u1 := State.bump_keeps ‹_›
          clear_value u1
          refine Keeps.mkFst ?_
          refine Keeps.ite (fun _ => ?_) (fun _ => ?_)
          · exact State.bump_keeps ‹_›
          · assumption

theorem rxKeep_keeps {s0 s : State} {p : RxPkt} {o : RxOp} {glade : Nat} (h0 : Keeps s0 s) :
    Keeps s0 (rxKeep s p o glade) := by
  unfold rxKeep
  extract_lets +onlyGivenNames u1 u2
  clear_value u1 u2
  refine Keeps.ite (fun _ => ?_) (fun _ => ?_)
  · exact enqueueResponse_keeps (State.setPeer_keeps ‹_›)
  · exact State.setPeer_keeps ‹_›

theorem readsFirst_keeps {s0 s : State} {d a n : Nat} (h0 : Keeps s0 s) : Keeps s0 (readsFirst s d a n) := by
  unfold readsFirst
  extract_lets +onlyGivenNames u1 u2
  clear_value u1 u2
  exact Keeps.upd (t := s) rfl rfl rfl ‹_›

theorem rxWrite_keeps {s0 s : State} {p : RxPkt} (h0 : Keeps s0 s) : Keeps s0 (rxWrite s p) := by
  unfold rxWrite
  extract_lets +onlyGivenNames u1
  have h1 : FstKeeps s0 u1 := by
    unfold u1
    exact FstKeeps.of (targetWrite_keeps (readsFirst_keeps ‹_›))
  clear_value u1
  extract_lets +onlyGivenNames u2
  have h2 : Keeps s0 u2 := by
    unfold u2
    assumption
  clear_value u2
  extract_lets +onlyGivenNames u3
  clear_value u3
  extract_lets +onlyGivenNames u4
  have h3 : FstKeeps s0 u4 := by
    unfold u4
    exact FstKeeps.of (targetPost_keeps ‹_›)
  clear_value u4
  extract_lets +onlyGivenNames u5
  have h4 : FstKeeps s0 u5 := by
    unfold u5
    refine FstKeeps.of ?_
    split
    · exact Keeps.mkFst ‹_›
    · exact Keeps.mkFst ‹_›
  clear_value u5
  extract_lets +onlyGivenNames u6
  clear_value u6
  apply rxKeep_keeps
  refine Keeps.ite (fun _ => ?_) (fun _ => ?_)
  · exact State.meterAdd_keeps ‹_›
  · assumption

theorem rxRead_keeps {s0 s : State} {p : RxPkt} (h0 : Keeps s0 s) : Keeps s0 (rxRead s p) := by
  unfold rxRead
  extract_lets +onlyGivenNames u1
  have h1 : FstKeeps s0 u1 := by
    unfold u1
    exact FstKeeps.of (targetReadable_keeps ‹_›)
  clear_value u1
  extract_lets +onlyGivenNames u2
  have h2 : Keeps s0 u2 := by
    unfold u2
    assumption
  clear_value u2
  extract_lets +onlyGivenNames u3
  clear_value u3
  refine Keeps.ite (fun _ => ?_) (fun _ => ?_)
  · exact enqueue_keeps ‹_›
  · exact enqueue_keeps ‹_›

theorem rxAtomic_keeps {s0 s : State} {p : RxPkt} (h0 : Keeps s0 s) : Keeps s0 (rxAtomic s p) := by
  unfold rxAtomic
  extract_lets +onlyGivenNames u1
  have h1 : FstKeeps s0 u1 := by
    unfold u1
    exact FstKeeps.of (targetAtomic_keeps (readsFirst_keeps ‹_›))
  clear_value u1
  extract_lets +onlyGivenNames u2
  clear_value u2
  extract_lets +onlyGivenNames u3
  have h2 : SndKeeps s0 u3 := by
    unfold u3
    refine SndKeeps.of ?_
    split
    · exact Keeps.mkSnd ‹_›
    · exact State.freeBytes_keeps ‹_›
  clear_value u3
  exact enqueueResponse_keeps ‹_›

theorem rxSendFirst_keeps {s0 s : State} {p : RxPkt} (h0 : Keeps s0 s) :
    OptAll (fun r => Keeps s0 r.1) (rxSendFirst s p) := by
  unfold rxSendFirst
  extract_lets +onlyGivenNames u1 u2
  clear_value u1 u2
  split
  · exact OptAll.some (Keeps.mkFst ‹_›)
  · split
    · exact OptAll.some (Keeps.mkFst ‹_›)
    · split
      · rename_i x1 x2 x3 x4 x5
        exact OptAll.none
      · rename_i x6 x7 x8 x9 x10 x11 x12
        extract_lets +onlyGivenNames u3
        clear_value u3
        extract_lets +onlyGivenNames u4
        have h1 : Keeps s0 u4 := noteLookup_keeps (Keeps.optSnd ‹_› (takeBuffer_keeps ‹_›))
        clear_value u4
        split
        · exact OptAll.some (Keeps.mkFst (recvDone_keeps ‹_›))
        · exact OptAll.some (Keeps.mkFst ‹_›)

theorem rxSendKeep_keeps {s0 s : State} {p : RxPkt} {o : RxOp} {glade : Nat} (h0 : Keeps s0 s) :
    Keeps s0 (rxSendKeep s p o glade) := by
  unfold rxSendKeep
  refine Keeps.ite (fun _ => ?_) (fun _ => ?_)
  · extract_lets +onlyGivenNames u1
    clear_value u1
    exact tellWhenWritten_keeps (State.setPeer_keeps ‹_›)
  · exact rxKeep_keeps ‹_›

theorem rxSendData_keeps {s0 s : State} {p : RxPkt} {o : RxOp} (h0 : Keeps s0 s) : Keeps s0 (rxSendData s p o) := by
  unfold rxSendData
  split
  · extract_lets +onlyGivenNames u1
    clear_value u1
    apply rxKeep_keeps
    refine Keeps.ite (fun _ => ?_) (fun _ => ?_)
    · exact stqReceive_keeps ‹_›
    · assumption
  · extract_lets +onlyGivenNames u2 u3
    clear_value u2 u3
    extract_lets +onlyGivenNames u4
    have h1 : FstKeeps s0 u4 := by
      unfold u4
      exact FstKeeps.of (State.gladeWrite_keeps (readsFirst_keeps ‹_›))
    clear_value u4
    extract_lets +onlyGivenNames u5
    clear_value u5
    extract_lets +onlyGivenNames u6
    have h2 : Keeps s0 u6 := by
      unfold u6
      apply State.meterAdd_keeps
      refine Keeps.ite (fun _ => ?_) (fun _ => ?_)
      · assumption
      · assumption
    clear_value u6
    extract_lets +onlyGivenNames u7 u8
    clear_value u7 u8
    apply rxSendKeep_keeps
    refine Keeps.ite (fun _ => ?_) (fun _ => ?_)
    · exact recvDone_keeps ‹_›
    · assumption
  · exact rxSendKeep_keeps ‹_›

theorem setOp_keeps {s0 s : State} {d : Nat} {o : SalOp} (h0 : Keeps s0 s) : Keeps s0 (setOp s d o) := by
  unfold setOp
  extract_lets +onlyGivenNames u1
  clear_value u1
  exact State.setPeer_keeps ‹_›

theorem opEnd_keeps {s0 s : State} {d : Nat} {o : SalOp} (h0 : Keeps s0 s) : Keeps s0 (opEnd s d o) := by
  unfold opEnd
  extract_lets +onlyGivenNames u1
  clear_value u1
  exact discardResponse_keeps (endOp_keeps (State.setPeer_keeps ‹_›))

theorem opData_keeps {s0 s : State} {o : SalOp} {off : Nat} {l : List Byte} (h0 : Keeps s0 s) :
    Keeps s0 (opData s o off l).1 := by
  unfold opData
  split
  · split
    · extract_lets +onlyGivenNames u1
      have h1 : FstKeeps s0 u1 := by
        unfold u1
        exact FstKeeps.of (State.gladeWrite_keeps ‹_›)
      clear_value u1
      exact Keeps.mkFst ‹_›
    · exact Keeps.mkFst ‹_›
  · exact Keeps.mkFst ‹_›
  · extract_lets +onlyGivenNames u2
    have h2 : FstKeeps s0 u2 := by
      unfold u2
      exact FstKeeps.of (padBad_keeps ‹_›)
    clear_value u2
    exact Keeps.mkFst ‹_›
  · exact Keeps.mkFst ‹_›

theorem rxResponse_keeps {s0 s : State} {p : RxPkt} (h0 : Keeps s0 s) : Keeps s0 (rxResponse s p) := by
  unfold rxResponse
  extract_lets +onlyGivenNames u1
  clear_value u1
  split
  · assumption
  · extract_lets +onlyGivenNames u2 u3
    clear_value u2 u3
    extract_lets +onlyGivenNames u4
    have h1 : FstKeeps s0 u4 := by
      unfold u4
      refine FstKeeps.of ?_
      split
      · exact opData_keeps ‹_›
      · exact Keeps.mkFst ‹_›
    clear_value u4
    refine Keeps.ite (fun _ => ?_) (fun _ => ?_)
    · exact opEnd_keeps ‹_›
    · exact setOp_keeps ‹_›

theorem rxApply_keeps {s0 s : State} {p : RxPkt} (h0 : Keeps s0 s) : OptAll (Keeps s0) (rxApply s p) := by
  unfold rxApply
  split
  · exact OptAll.some (rxWrite_keeps ‹_›)
  · split
    · exact OptAll.some (rxRead_keeps ‹_›)
    · split
      · exact OptAll.some (rxAtomic_keeps ‹_›)
      · split
        · split
          · refine OptAll.mapFst (s := s0) ?_ ?_
            · exact rxSendFirst_keeps ‹_›
            · intro v1 v2
              exact rxSendData_keeps ‹_›
          · exact OptAll.some (rxSendData_keeps ‹_›)
        · exact OptAll.some (rxResponse_keeps ‹_›)

theorem rxProcess_keeps {s0 s : State} {p : RxPkt} (h0 : Keeps s0 s) : Keeps s0 (rxProcess s p) := by
  unfold rxProcess
  extract_lets +onlyGivenNames u1
  clear_value u1
  refine Keeps.ite (fun _ => ?_) (fun _ => ?_)
  · exact sendNak_keeps ‹_›
  · extract_lets +onlyGivenNames u2
    have h1 : Keeps s0 u2 := takeApsn_keeps ‹_›
    clear_value u2
    extract_lets +onlyGivenNames u3 u4
    clear_value u3 u4
    refine Keeps.ite (fun _ => ?_) (fun _ => ?_)
    · exact sendAck_keeps (State.bump_keeps ‹_›)
    · refine Keeps.ite (fun _ => ?_) (fun _ => ?_)
      · extract_lets +onlyGivenNames u5
        have h2 : Keeps s0 u5 := State.bump_keeps ‹_›
        clear_value u5
        refine Keeps.ite (fun _ => ?_) (fun _ => ?_)
        · assumption
        · exact sendNak_keeps (State.setPeer_keeps ‹_›)
      · split
        · rename_i x1 x2 x3 x4 x5
          exact sendNak_keeps ‹_›
        · rename_i x6 x7 x8 x9 x10 x11
          extract_lets +onlyGivenNames u6 u7
          clear_value u6 u7
          extract_lets +onlyGivenNames u8
          have h3 : Keeps s0 u8 := State.setPeer_keeps (Keeps.opt (p := Keeps s0) ‹_› (rxApply_keeps ‹_›))
          clear_value u8
          refine Keeps.ite (fun _ => ?_) (fun _ => ?_)
          · exact sendAck_keeps ‹_›
          · assumption

theorem rxAck_keeps {s0 s : State} {p : RxPkt} (h0 : Keeps s0 s) : Keeps s0 (rxAck s p) := by
  unfold rxAck
  refine Keeps.ite (fun _ => ?_) (fun _ => ?_)
  · extract_lets +onlyGivenNames u1
    have h1 : Keeps s0 u1 := takeApsn_keeps ‹_›
    clear_value u1
    refine Keeps.ite (fun _ => ?_) (fun _ => ?_)
    · exact Keeps.upd (t := u1) rfl rfl rfl ‹_›
    · assumption
  · assumption

theorem rxEpochNak_keeps {s0 s : State} {d epoch : Nat} (h0 : Keeps s0 s) : Keeps s0 (rxEpochNak s d epoch) := by
  unfold rxEpochNak
  extract_lets +onlyGivenNames u1
  clear_value u1
  refine Keeps.ite (fun _ => ?_) (fun _ => ?_)
  · assumption
  · refine Keeps.ite (fun _ => ?_) (fun _ => ?_)
    · extract_lets +onlyGivenNames u2 u3
      clear_value u2 u3
      extract_lets +onlyGivenNames u4
      have h1 : Keeps s0 u4 := dropResponses_keeps (endOps_keeps ‹_›)
      clear_value u4
      extract_lets +onlyGivenNames u5
      have h2 : Keeps s0 u5 := by
        unfold u5
        refine Keeps.ite (fun _ => ?_) (fun _ => ?_)
        · exact State.raiseUnit_keeps ‹_›
        · assumption
      clear_value u5
      exact sendHello_keeps ‹_›
    · refine Keeps.ite (fun _ => ?_) (fun _ => ?_)
      · assumption
      · exact sendHello_keeps ‹_›

theorem rxNak_keeps {s0 s : State} {p : RxPkt} (h0 : Keeps s0 s) : Keeps s0 (rxNak s p) := by
  unfold rxNak
  extract_lets +onlyGivenNames u1 u2
  clear_value u1 u2
  refine Keeps.ite (fun _ => ?_) (fun _ => ?_)
  · exact rxEpochNak_keeps ‹_›
  · refine Keeps.ite (fun _ => ?_) (fun _ => ?_)
    · assumption
    · extract_lets +onlyGivenNames u3
      have h1 : Keeps s0 u3 := takeApsn_keeps ‹_›
      clear_value u3
      extract_lets +onlyGivenNames u4
      clear_value u4
      refine Keeps.ite (fun _ => ?_) (fun _ => ?_)
      · refine Keeps.ite (fun _ => ?_) (fun _ => ?_)
        · assumption
        · exact State.setPeer_keeps ‹_›
      · refine Keeps.ite (fun _ => ?_) (fun _ => ?_)
        · extract_lets +onlyGivenNames u5
          clear_value u5
          split
          · extract_lets +onlyGivenNames u6
            have h2 : Keeps s0 u6 := State.setPeer_keeps ‹_›
            clear_value u6
            refine Keeps.ite (fun _ => ?_) (fun _ => ?_)
            · exact giveUpSend_keeps ‹_›
            · assumption
          · assumption
        · assumption

theorem rxProbe_keeps {s0 s : State} {p : RxPkt} (h0 : Keeps s0 s) : Keeps s0 (rxProbe s p) := by
  unfold rxProbe
  refine Keeps.ite (fun _ => ?_) (fun _ => ?_)
  · exact sendAck_keeps (takeApsn_keeps ‹_›)
  · assumption

theorem rxHello_keeps {s0 s : State} {h : RxPkt} (h0 : Keeps s0 s) : Keeps s0 (rxHello s h) := by
  unfold rxHello
  extract_lets +onlyGivenNames u1 u2 u3
  clear_value u1 u2 u3
  refine Keeps.ite (fun _ => ?_) (fun _ => ?_)
  · assumption
  · refine Keeps.ite (fun _ => ?_) (fun _ => ?_)
    · assumption
    · refine Keeps.ite (fun _ => ?_) (fun _ => ?_)
      · assumption
      · extract_lets +onlyGivenNames u4
        have h1 : Keeps s0 u4 := by
          unfold u4
          refine Keeps.ite (fun _ => ?_) (fun _ => ?_)
          · exact createPeer_keeps ‹_›
          · assumption
        clear_value u4
        extract_lets +onlyGivenNames u5
        clear_value u5
        extract_lets +onlyGivenNames u6
        have h2 : Keeps s0 u6 := adoptEpoch_keeps ‹_›
        clear_value u6
        extract_lets +onlyGivenNames u7
        clear_value u7
        exact sendCtl_keeps ‹_›

theorem rxHelloAck_keeps {s0 s : State} {p : RxPkt} (h0 : Keeps s0 s) : Keeps s0 (rxHelloAck s p) := by
  unfold rxHelloAck
  refine Keeps.ite (fun _ => ?_) (fun _ => ?_)
  · exact adoptEpoch_keeps ‹_›
  · assumption

theorem rxAny_keeps {s0 s : State} {p : RxPkt} (h0 : Keeps s0 s) : Keeps s0 (rxAny s p) := by
  unfold rxAny
  refine Keeps.ite (fun _ => ?_) (fun _ => ?_)
  · exact rxProcess_keeps ‹_›
  · refine Keeps.ite (fun _ => ?_) (fun _ => ?_)
    · exact rxAck_keeps ‹_›
    · refine Keeps.ite (fun _ => ?_) (fun _ => ?_)
      · exact rxNak_keeps ‹_›
      · refine Keeps.ite (fun _ => ?_) (fun _ => ?_)
        · exact rxProbe_keeps ‹_›
        · refine Keeps.ite (fun _ => ?_) (fun _ => ?_)
          · exact rxHello_keeps ‹_›
          · exact rxHelloAck_keeps ‹_›

theorem missDrop_keeps {s0 s : State} {p : RxPkt} (h0 : Keeps s0 s) : Keeps s0 (missDrop s p) := by
  unfold missDrop
  extract_lets +onlyGivenNames u1
  clear_value u1
  extract_lets +onlyGivenNames u2
  have h1 : Keeps s0 u2 := State.bump_keeps ‹_›
  clear_value u2
  extract_lets +onlyGivenNames u3
  clear_value u3
  extract_lets +onlyGivenNames u4
  have h2 : Keeps s0 u4 := by
    unfold u4
    refine Keeps.ite (fun _ => ?_) (fun _ => ?_)
    · assumption
    · exact sendNak_keeps ‹_›
  clear_value u4
  extract_lets +onlyGivenNames u5
  clear_value u5
  refine Keeps.ite (fun _ => ?_) (fun _ => ?_)
  · extract_lets +onlyGivenNames u6
    clear_value u6
    extract_lets +onlyGivenNames u7
    have h3 : Keeps s0 u7 := Keeps.upd (t := u4) rfl rfl rfl ‹_›
    clear_value u7
    exact State.raiseUnit_keeps (State.noteRaised_keeps ‹_›)
  · exact Keeps.upd (t := u4) rfl rfl rfl ‹_›

theorem rxPacket_keeps {s0 s : State} {p : RxPkt} (h0 : Keeps s0 s) : Keeps s0 (rxPacket s p) := by
  unfold rxPacket
  extract_lets +onlyGivenNames u1
  clear_value u1
  refine Keeps.ite (fun _ => ?_) (fun _ => ?_)
  · refine Keeps.ite (fun _ => ?_) (fun _ => ?_)
    · exact sendNak_keeps ‹_›
    · refine Keeps.ite (fun _ => ?_) (fun _ => ?_)
      · exact rxHello_keeps ‹_›
      · assumption
  · refine Keeps.ite (fun _ => ?_) (fun _ => ?_)
    · extract_lets +onlyGivenNames u2
      have h1 : Keeps s0 u2 := by
        unfold u2
        refine Keeps.ite (fun _ => ?_) (fun _ => ?_)
        · exact State.bump_keeps ‹_›
        · assumption
      clear_value u2
      refine Keeps.ite (fun _ => ?_) (fun _ => ?_)
      · exact State.setPeer_keeps ‹_›
      · exact missDrop_keeps ‹_›
    · exact rxAny_keeps (touchCtx_keeps ‹_›)

theorem receive_keeps {s0 s : State} {type : Nat} {h : SalHeader} {l : List Byte} (h0 : Keeps s0 s) :
    Keeps s0 (receive s type h l) := by
  unfold receive
  extract_lets +onlyGivenNames u1
  have h1 : FstKeeps s0 u1 := by
    unfold u1
    exact FstKeeps.of (acceptPacket_keeps ‹_›)
  clear_value u1
  refine Keeps.ite (fun _ => ?_) (fun _ => ?_)
  · apply orHold_keeps
    · assumption
    · exact settleEnded_keeps (rxPacket_keeps ‹_›)
  · assumption

theorem ctxCfgWrite_keeps {s0 s : State} {v : Nat} (h0 : Keeps s0 s) : Keeps s0 (ctxCfgWrite s v) := by
  unfold ctxCfgWrite
  extract_lets +onlyGivenNames u1
  clear_value u1
  extract_lets +onlyGivenNames u2
  have h1 : Keeps s0 u2 := State.wrs_keeps ‹_›
  clear_value u2
  extract_lets +onlyGivenNames u3
  have h2 : Keeps s0 u3 := by
    unfold u3
    refine Keeps.ite (fun _ => ?_) (fun _ => ?_)
    · assumption
    · refine Keeps.ite (fun _ => ?_) (fun _ => ?_)
      · assumption
      · exact refreshPools_keeps (State.wr_keeps ‹_›)
  clear_value u3
  refine Keeps.ite (fun _ => ?_) (fun _ => ?_)
  · extract_lets +onlyGivenNames u4 u5
    clear_value u4 u5
    refine Keeps.ite (fun _ => ?_) (fun _ => ?_)
    · exact State.wr_keeps ‹_›
    · assumption
  · refine Keeps.ite (fun _ => ?_) (fun _ => ?_)
    · assumption
    · exact State.wr_keeps ‹_›

/-! ### Machine/Windows.lean -/

theorem partlyBad_keeps {s0 s : State} {a len : Nat} (h0 : Keeps s0 s) : Keeps s0 (partlyBad s a len).1 := by
  unfold partlyBad
  refine Keeps.foldlFst ?_ ?_
  · exact Keeps.mkFst ‹_›
  · intro v1 v2 v3
    extract_lets +onlyGivenNames u1 u2
    clear_value u1 u2
    split
    · extract_lets +onlyGivenNames u3
      have h1 : SndKeeps s0 u3 := by
        unfold u3
        exact SndKeeps.of (State.freeBytes_keeps ‹_›)
      clear_value u3
      exact Keeps.mkFst ‹_›
    · exact Keeps.mkFst ‹_›

theorem winAccess_keeps {s0 s : State} {p x len tag : Nat} {write : Option (List Byte)} (h0 : Keeps s0 s) :
    Keeps s0 (winAccess s p x len tag write) := by
  unfold winAccess
  extract_lets +onlyGivenNames u1 u2
  clear_value u1 u2
  refine Keeps.ite (fun _ => ?_) (fun _ => ?_)
  · exact endWindow_keeps ‹_›
  · extract_lets +onlyGivenNames u3 u4 u5 u6
    clear_value u3 u4 u5 u6
    refine Keeps.ite (fun _ => ?_) (fun _ => ?_)
    · split
      · extract_lets +onlyGivenNames u7
        have h1 : FstKeeps s0 u7 := by
          unfold u7
          exact FstKeeps.of (targetWrite_keeps ‹_›)
        clear_value u7
        exact endWindow_keeps ‹_›
      · extract_lets +onlyGivenNames u8
        have h2 : FstKeeps s0 u8 := by
          unfold u8
          exact FstKeeps.of (targetReadable_keeps ‹_›)
        clear_value u8
        extract_lets +onlyGivenNames u9
        have h3 : FstKeeps s0 u9 := by
          unfold u9
          exact FstKeeps.of (partlyBad_keeps ‹_›)
        clear_value u9
        refine Keeps.ite (fun _ => ?_) (fun _ => ?_)
        · exact endWindow_keeps ‹_›
        · exact endWindow_keeps ‹_›
    · extract_lets +onlyGivenNames u10 u11
      clear_value u10 u11
      extract_lets +onlyGivenNames u12
      have h4 : Keeps s0 u12 := Keeps.upd (t := s) rfl rfl rfl ‹_›
      clear_value u12
      exact startOp_keeps ‹_›

theorem winWrite_keeps {s0 s : State} {i v : Nat} (h0 : Keeps s0 s) : Keeps s0 (winWrite s i v) := by
  unfold winWrite
  extract_lets +onlyGivenNames u1
  have h1 : Keeps s0 u1 := State.wrs_keeps ‹_›
  clear_value u1
  refine Keeps.ite (fun _ => ?_) (fun _ => ?_)
  · refine Keeps.ite (fun _ => ?_) (fun _ => ?_)
    · exact State.wr_keeps ‹_›
    · exact State.wrs_keeps (State.wr_keeps ‹_›)
  · exact State.wr_keeps ‹_›

theorem fenceWrite_keeps {s0 s : State} {v : Nat} (h0 : Keeps s0 s) : Keeps s0 (fenceWrite s v) := by
  unfold fenceWrite
  extract_lets +onlyGivenNames u1
  have h1 : Keeps s0 u1 := State.wr_keeps ‹_›
  clear_value u1
  refine Keeps.ite (fun _ => ?_) (fun _ => ?_)
  · extract_lets +onlyGivenNames u2
    clear_value u2
    extract_lets +onlyGivenNames u3
    have h2 : Keeps s0 u3 := Keeps.upd (t := u1) rfl rfl rfl ‹_›
    clear_value u3
    exact State.wr_keeps ‹_›
  · assumption

/-! ### Machine/CoreOps.lean -/

theorem State.setCore_keeps {s0 s : State} {k : Nat} {c : Core} (h0 : Keeps s0 s) : Keeps s0 (State.setCore s k c) := by
  unfold State.setCore
  exact Keeps.upd (t := s) rfl rfl rfl ‹_›

theorem State.setDebug_keeps {s0 s : State} {d : Nat} {x : Debug} (h0 : Keeps s0 s) : Keeps s0 (State.setDebug s d x) := by
  unfold State.setDebug
  exact Keeps.upd (t := s) rfl rfl rfl ‹_›

theorem showCore_keeps {s0 s : State} {k st : Nat} (h0 : Keeps s0 s) : Keeps s0 (showCore s k st) := by
  unfold showCore
  refine Keeps.ite (fun _ => ?_) (fun _ => ?_)
  · exact State.wr_keeps ‹_›
  · assumption

theorem localStore_keeps {s0 s : State} {k a : Nat} {l : List Byte} (h0 : Keeps s0 s) : Keeps s0 (localStore s k a l) := by
  unfold localStore
  exact Keeps.upd (t := s) rfl rfl rfl ‹_›

theorem localZero_keeps {s0 s : State} {k : Nat} (h0 : Keeps s0 s) : Keeps s0 (localZero s k) := by
  unfold localZero
  exact Keeps.upd (t := s) rfl rfl rfl ‹_›

theorem startFirmware_keeps {s0 s : State} {k : Nat} {code : List Byte} (h0 : Keeps s0 s) :
    Keeps s0 (startFirmware s k code) := by
  unfold startFirmware
  extract_lets +onlyGivenNames u1
  have h1 : SndKeeps s0 u1 := by
    unfold u1
    exact SndKeeps.of (State.freeWord_keeps ‹_›)
  clear_value u1
  extract_lets +onlyGivenNames u2
  have h2 : SndKeeps s0 u2 := by
    unfold u2
    exact SndKeeps.of (State.freeWord_keeps ‹_›)
  clear_value u2
  extract_lets +onlyGivenNames u3
  clear_value u3
  extract_lets +onlyGivenNames u4
  have h3 : Keeps s0 u4 := localStore_keeps ‹_›
  clear_value u4
  extract_lets +onlyGivenNames u5
  have h4 : Keeps s0 u5 := State.dropWait_keeps ‹_›
  clear_value u5
  extract_lets +onlyGivenNames u6
  have h5 : Keeps s0 u6 := State.setCore_keeps ‹_›
  clear_value u6
  exact showCore_keeps ‹_›

theorem startImage_keeps {s0 s : State} {img : List Byte} (h0 : Keeps s0 s) : Keeps s0 (startImage s img) := by
  unfold startImage
  extract_lets +onlyGivenNames u1
  clear_value u1
  extract_lets +onlyGivenNames u2
  have h1 : Keeps s0 u2 := Keeps.upd (t := s) rfl rfl rfl ‹_›
  clear_value u2
  extract_lets +onlyGivenNames u3
  have h2 : Keeps s0 u3 := startFirmware_keeps ‹_›
  clear_value u3
  refine Keeps.foldl ?_ ?_
  · assumption
  · intro v1 v2 v3
    exact startFirmware_keeps ‹_›

theorem stopImage_keeps {s0 s : State} (h0 : Keeps s0 s) : Keeps s0 (stopImage s) := by
  unfold stopImage
  extract_lets +onlyGivenNames u1
  clear_value u1
  extract_lets +onlyGivenNames u2
  have h1 : Keeps s0 u2 := Keeps.upd (t := s) rfl rfl rfl ‹_›
  clear_value u2
  extract_lets +onlyGivenNames u3
  have h2 : Keeps s0 u3 := State.dropWait_keeps ‹_›
  clear_value u3
  refine Keeps.foldl ?_ ?_
  · assumption
  · intro v1 v2 v3
    exact State.dropWait_keeps (showCore_keeps ‹_›)

theorem slotHalt_keeps {s0 s : State} {slot : Nat} (h0 : Keeps s0 s) : Keeps s0 (slotHalt s slot) := by
  unfold slotHalt
  refine Keeps.foldl ?_ ?_
  · assumption
  · intro v1 v2 v3
    exact State.dropWait_keeps (showCore_keeps (State.setCore_keeps ‹_›))

theorem slotFault_keeps {s0 s : State} {k tcause : Nat} (h0 : Keeps s0 s) : Keeps s0 (slotFault s k tcause) := by
  unfold slotFault
  extract_lets +onlyGivenNames u1
  clear_value u1
  refine Keeps.ite (fun _ => ?_) (fun _ => ?_)
  · extract_lets +onlyGivenNames u2
    clear_value u2
    extract_lets +onlyGivenNames u3
    have h1 : Keeps s0 u3 := State.wr_keeps (slotHalt_keeps ‹_›)
    clear_value u3
    extract_lets +onlyGivenNames u4
    have h2 : Keeps s0 u4 := by
      unfold u4
      refine Keeps.ite (fun _ => ?_) (fun _ => ?_)
      · exact State.post_keeps ‹_›
      · assumption
    clear_value u4
    extract_lets +onlyGivenNames u5
    have h3 : Keeps s0 u5 := State.bump_keeps ‹_›
    clear_value u5
    exact State.raise_keeps ‹_›
  · assumption

/-! ### Machine/Activation.lean -/

theorem setAct_keeps {s0 s : State} {new : Nat} (h0 : Keeps s0 s) : Keeps s0 (setAct s new) := by
  unfold setAct
  extract_lets +onlyGivenNames u1
  clear_value u1
  refine Keeps.ite (fun _ => ?_) (fun _ => ?_)
  · assumption
  · extract_lets +onlyGivenNames u2
    have h1 : Keeps s0 u2 := State.wr_keeps ‹_›
    clear_value u2
    exact State.raiseUnit_keeps ‹_›

theorem showClocks_keeps {s0 s : State} (h0 : Keeps s0 s) : Keeps s0 (showClocks s) := by
  unfold showClocks
  extract_lets +onlyGivenNames u1
  clear_value u1
  exact State.wrs_keeps ‹_›

theorem showTemps_keeps {s0 s : State} (h0 : Keeps s0 s) : Keeps s0 (showTemps s) := by
  unfold showTemps
  extract_lets +onlyGivenNames u1
  have h1 : Keeps s0 u1 := by
    unfold u1
    refine Keeps.foldl ?_ ?_
    · assumption
    · intro v1 v2 v3
      split
      · exact State.wr_keeps ‹_›
      · assumption
  clear_value u1
  exact State.wrs_keeps ‹_›

theorem thermEvent_keeps {s0 s : State} {sensor new old : Nat} {failed : Bool} (h0 : Keeps s0 s) :
    Keeps s0 (thermEvent s sensor new old failed) := by
  unfold thermEvent
  exact State.raiseUnit_keeps ‹_›

theorem setLevel_keeps {s0 s : State} {new : Nat} (h0 : Keeps s0 s) : Keeps s0 (setLevel s new) := by
  unfold setLevel
  extract_lets +onlyGivenNames u1
  clear_value u1
  extract_lets +onlyGivenNames u2
  have h1 : Keeps s0 u2 := showClocks_keeps (State.wr_keeps ‹_›)
  clear_value u2
  refine Keeps.ite (fun _ => ?_) (fun _ => ?_)
  · exact State.bump_keeps ‹_›
  · assumption

theorem raiseLevel_keeps {s0 s : State} (h0 : Keeps s0 s) : Keeps s0 (raiseLevel s) := by
  unfold raiseLevel
  extract_lets +onlyGivenNames u1
  have h1 : Keeps s0 u1 := showTemps_keeps ‹_›
  clear_value u1
  extract_lets +onlyGivenNames u2 u3
  clear_value u2 u3
  refine Keeps.ite (fun _ => ?_) (fun _ => ?_)
  · exact thermEvent_keeps (setLevel_keeps ‹_›)
  · assumption

theorem defaultClocks_keeps {s0 s : State} (h0 : Keeps s0 s) : Keeps s0 (defaultClocks s) := by
  unfold defaultClocks
  exact showClocks_keeps (State.wrs_keeps ‹_›)

theorem limitApply_keeps {s0 s : State} {v : Nat} (h0 : Keeps s0 s) : Keeps s0 (limitApply s v) := by
  unfold limitApply
  extract_lets +onlyGivenNames u1 u2
  clear_value u1 u2
  extract_lets +onlyGivenNames u3
  have h1 : Keeps s0 u3 := by
    unfold u3
    refine Keeps.ite (fun _ => ?_) (fun _ => ?_)
    · exact State.wr_keeps ‹_›
    · assumption
  clear_value u3
  refine Keeps.ite (fun _ => ?_) (fun _ => ?_)
  · exact State.wr_keeps ‹_›
  · assumption

theorem resumeLoops_keeps {s0 s : State} (h0 : Keeps s0 s) : Keeps s0 (resumeLoops s) := by
  unfold resumeLoops
  refine Keeps.ite (fun _ => ?_) (fun _ => ?_)
  · extract_lets +onlyGivenNames u1
    clear_value u1
    extract_lets +onlyGivenNames u2
    have h1 : Keeps s0 u2 := by
      unfold u2
      split
      · exact limitApply_keeps (Keeps.upd (t := s) rfl rfl rfl ‹_›)
      · assumption
    clear_value u2
    exact State.wr_keeps ‹_›
  · assumption

theorem fallback_keeps {s0 s : State} {result : Nat} (h0 : Keeps s0 s) : Keeps s0 (fallback s result) := by
  unfold fallback
  refine Keeps.ite (fun _ => ?_) (fun _ => ?_)
  · extract_lets +onlyGivenNames u1
    have h1 : Keeps s0 u1 := State.bump_keeps (State.wr_keeps ‹_›)
    clear_value u1
    exact setAct_keeps (startImage_keeps (stopImage_keeps ‹_›))
  · assumption

/-! ### Machine/Resilience.lean -/

theorem showSpares_keeps {s0 s : State} (h0 : Keeps s0 s) : Keeps s0 (showSpares s) := by
  unfold showSpares
  extract_lets +onlyGivenNames u1 u2
  clear_value u1 u2
  exact State.wrs_keeps ‹_›

theorem showUnits_keeps {s0 s : State} (h0 : Keeps s0 s) : Keeps s0 (showUnits s) := by
  unfold showUnits
  extract_lets +onlyGivenNames u1 u2 u3
  clear_value u1 u2 u3
  exact showSpares_keeps (State.wrs_keeps ‹_›)

theorem showSpareCore_keeps {s0 s : State} {c : Nat} (h0 : Keeps s0 s) : Keeps s0 (showSpareCore s c) := by
  unfold showSpareCore
  extract_lets +onlyGivenNames u1
  clear_value u1
  extract_lets +onlyGivenNames u2
  have h1 : Keeps s0 u2 := State.setReg_keeps ‹_›
  clear_value u2
  refine Keeps.ite (fun _ => ?_) (fun _ => ?_)
  · assumption
  · refine Keeps.ite (fun _ => ?_) (fun _ => ?_)
    · exact State.wr_keeps ‹_›
    · exact State.wr_keeps ‹_›

theorem unitFault_keeps {s0 s : State} {source phys : Nat} {spare : Bool} {cause : Nat} (h0 : Keeps s0 s) :
    Keeps s0 (unitFault s source phys spare cause) := by
  unfold unitFault
  exact State.raiseUnit_keeps ‹_›

theorem markFailed_keeps {s0 s : State} {phys cause : Nat} (h0 : Keeps s0 s) : Keeps s0 (markFailed s phys cause) := by
  unfold markFailed
  extract_lets +onlyGivenNames u1
  have h1 : Keeps s0 u1 := by
    unfold u1
    refine Keeps.ite (fun _ => ?_) (fun _ => ?_)
    · assumption
    · exact recordFault_keeps ‹_›
  clear_value u1
  exact Keeps.upd (t := u1) rfl rfl rfl ‹_›

theorem zeroTile_keeps {s0 s : State} {n : Nat} (h0 : Keeps s0 s) : Keeps s0 (zeroTile s n) := by
  unfold zeroTile
  extract_lets +onlyGivenNames u1
  have h1 : Keeps s0 u1 := Keeps.updMem (t := s) rfl rfl (fun h => Memory.cut_wf _ _ (by unfold padAddr; omega) h) h0
  exact State.setTile_keeps h1

theorem loadsLost_keeps {s0 s : State} {n : Nat} (h0 : Keeps s0 s) : Keeps s0 (loadsLost s n) := by
  unfold loadsLost
  refine Keeps.foldl ?_ ?_
  · assumption
  · intro v1 v2 v3
    split
    · exact failCommand_keeps ‹_›
    · assumption

theorem tileWorkLost_keeps {s0 s : State} {n : Nat} {spare : Bool} (h0 : Keeps s0 s) : Keeps s0 (tileWorkLost s n spare) := by
  unfold tileWorkLost
  extract_lets +onlyGivenNames u1
  have h1 : Keeps s0 u1 := loadsLost_keeps (tileFault_keeps ‹_›)
  clear_value u1
  extract_lets +onlyGivenNames u2
  have h2 : Keeps s0 u2 := attendTileLost_keeps ‹_›
  clear_value u2
  extract_lets +onlyGivenNames u3
  have h3 : Keeps s0 u3 := removeRegsIn_keeps (zeroTile_keeps ‹_›)
  clear_value u3
  extract_lets +onlyGivenNames u4
  have h4 : Keeps s0 u4 := by
    unfold u4
    refine Keeps.ite (fun _ => ?_) (fun _ => ?_)
    · exact State.resetReg_keeps (State.wr_keeps ‹_›)
    · assumption
  clear_value u4
  refine Keeps.ite (fun _ => ?_) (fun _ => ?_)
  · assumption
  · extract_lets +onlyGivenNames u5
    clear_value u5
    extract_lets +onlyGivenNames u6
    have h5 : Keeps s0 u6 := State.setTile_keeps ‹_›
    clear_value u6
    exact State.raise_keeps ‹_›

theorem tileQueueLost_keeps {s0 s : State} {i : Nat} (h0 : Keeps s0 s) : Keeps s0 (tileQueueLost s i) := by
  unfold tileQueueLost
  extract_lets +onlyGivenNames u1
  have h1 : Keeps s0 u1 := State.completeAll_keeps ‹_›
  clear_value u1
  extract_lets +onlyGivenNames u2
  have h2 : Keeps s0 u2 := completeRing_keeps ‹_›
  clear_value u2
  extract_lets +onlyGivenNames u3
  clear_value u3
  refine Keeps.ite (fun _ => ?_) (fun _ => ?_)
  · exact State.setQueue_keeps ‹_›
  · assumption

theorem dropHeldPad_keeps {s0 s : State} {n : Nat} (h0 : Keeps s0 s) : Keeps s0 (dropHeldPad s n) := by
  unfold dropHeldPad
  exact Keeps.upd (t := s) rfl rfl rfl ‹_›

theorem dropHeldRegs_keeps {s0 s : State} {unit : Nat} (h0 : Keeps s0 s) : Keeps s0 (dropHeldRegs s unit) := by
  unfold dropHeldRegs
  extract_lets +onlyGivenNames u1 u2
  clear_value u1 u2
  extract_lets +onlyGivenNames u3
  have h1 : Keeps s0 u3 := Keeps.upd (t := s) rfl rfl rfl ‹_›
  clear_value u3
  refine Keeps.foldl ?_ ?_
  · assumption
  · intro v1 v2 v3
    exact flagAccess_keeps ‹_›

theorem tileOutOfService_keeps {s0 s : State} {n : Nat} (h0 : Keeps s0 s) : Keeps s0 (tileOutOfService s n) := by
  unfold tileOutOfService
  extract_lets +onlyGivenNames u1
  have h1 : Keeps s0 u1 := dropHeldPad_keeps (dropHeldRegs_keeps ‹_›)
  clear_value u1
  extract_lets +onlyGivenNames u2
  clear_value u2
  extract_lets +onlyGivenNames u3
  have h2 : Keeps s0 u3 := State.wr_keeps ‹_›
  clear_value u3
  extract_lets +onlyGivenNames u4
  have h3 : Keeps s0 u4 := by
    unfold u4
    refine Keeps.foldl ?_ ?_
    · assumption
    · intro v1 v2 v3
      exact tileQueueLost_keeps ‹_›
  clear_value u4
  extract_lets +onlyGivenNames u5
  have h4 : Keeps s0 u5 := State.wr_keeps (State.resetReg_keeps ‹_›)
  clear_value u5
  exact serviceDue_keeps (refreshPools_keeps (showUnits_keeps ‹_›))

theorem tileFail_keeps {s0 s : State} {n cause : Nat} (h0 : Keeps s0 s) : Keeps s0 (tileFail s n cause) := by
  unfold tileFail
  refine Keeps.ite (fun _ => ?_) (fun _ => ?_)
  · assumption
  · extract_lets +onlyGivenNames u1 u2 u3 u4
    clear_value u1 u2 u3 u4
    extract_lets +onlyGivenNames u5
    have h1 : Keeps s0 u5 := markFailed_keeps ‹_›
    clear_value u5
    extract_lets +onlyGivenNames u6
    have h2 : Keeps s0 u6 := by
      unfold u6
      refine Keeps.ite (fun _ => ?_) (fun _ => ?_)
      · exact State.wrs_keeps ‹_›
      · assumption
    clear_value u6
    extract_lets +onlyGivenNames u7
    have h3 : Keeps s0 u7 := tileWorkLost_keeps ‹_›
    clear_value u7
    extract_lets +onlyGivenNames u8
    have h4 : Keeps s0 u8 := unitFault_keeps ‹_›
    clear_value u8
    extract_lets +onlyGivenNames u9
    clear_value u9
    refine Keeps.ite (fun _ => ?_) (fun _ => ?_)
    · exact Keeps.upd (t := u8) rfl rfl rfl ‹_›
    · exact tileOutOfService_keeps (Keeps.upd (t := u8) rfl rfl rfl ‹_›)

theorem spareTileFail_keeps {s0 s : State} {q cause : Nat} (h0 : Keeps s0 s) : Keeps s0 (spareTileFail s q cause) := by
  unfold spareTileFail
  refine Keeps.ite (fun _ => ?_) (fun _ => ?_)
  · assumption
  · extract_lets +onlyGivenNames u1
    have h1 : Keeps s0 u1 := State.wr_keeps (markFailed_keeps ‹_›)
    clear_value u1
    exact showSpares_keeps (unitFault_keeps ‹_›)

theorem coreStorageLost_keeps {s0 s : State} {qid : Nat} (h0 : Keeps s0 s) : Keeps s0 (coreStorageLost s qid) := by
  unfold coreStorageLost
  extract_lets +onlyGivenNames u1
  have h1 : Keeps s0 u1 := by
    unfold u1
    refine Keeps.foldl ?_ ?_
    · assumption
    · intro v1 v2 v3
      extract_lets +onlyGivenNames u2
      have h2 : SndKeeps s0 u2 := by
        unfold u2
        exact SndKeeps.of (State.freeBit_keeps ‹_›)
      clear_value u2
      split
      · exact stqFinish_keeps ‹_›
      · assumption
  clear_value u1
  refine Keeps.foldl ?_ ?_
  · assumption
  · intro v4 v5 v6
    extract_lets +onlyGivenNames u3
    have h3 : SndKeeps s0 u3 := by
      unfold u3
      exact SndKeeps.of (State.freeBit_keeps ‹_›)
    clear_value u3
    refine Keeps.ite (fun _ => ?_) (fun _ => ?_)
    · exact State.bump_keeps ‹_›
    · assumption

theorem coreCkpLost_keeps {s0 s : State} {qid : Nat} (h0 : Keeps s0 s) : Keeps s0 (coreCkpLost s qid) := by
  unfold coreCkpLost
  extract_lets +onlyGivenNames u1
  have h1 : SndKeeps s0 u1 := by
    unfold u1
    exact SndKeeps.of (State.freeBit_keeps ‹_›)
  clear_value u1
  refine Keeps.ite (fun _ => ?_) (fun _ => ?_)
  · exact ckpAbort_keeps ‹_›
  · assumption

theorem coreWorkLost_keeps {s0 s : State} {k : Nat} (h0 : Keeps s0 s) : Keeps s0 (coreWorkLost s k) := by
  unfold coreWorkLost
  extract_lets +onlyGivenNames u1
  clear_value u1
  extract_lets +onlyGivenNames u2
  have h1 : Keeps s0 u2 := State.bump_keeps ‹_›
  clear_value u2
  extract_lets +onlyGivenNames u3
  have h2 : Keeps s0 u3 := by
    unfold u3
    refine Keeps.foldl ?_ ?_
    · assumption
    · intro v1 v2 v3
      exact coreStorageLost_keeps ‹_›
  clear_value u3
  extract_lets +onlyGivenNames u4
  have h3 : Keeps s0 u4 := by
    unfold u4
    refine Keeps.foldl ?_ ?_
    · assumption
    · intro v4 v5 v6
      exact coreCkpLost_keeps ‹_›
  clear_value u4
  exact fallback_keeps ‹_›

theorem zeroCore_keeps {s0 s : State} {k : Nat} (h0 : Keeps s0 s) : Keeps s0 (zeroCore s k) := by
  unfold zeroCore
  exact State.dropWait_keeps (localZero_keeps (State.setCore_keeps ‹_›))

theorem coreOutOfService_keeps {s0 s : State} {k : Nat} (h0 : Keeps s0 s) : Keeps s0 (coreOutOfService s k) := by
  unfold coreOutOfService
  extract_lets +onlyGivenNames u1 u2
  clear_value u1 u2
  extract_lets +onlyGivenNames u3
  have h1 : Keeps s0 u3 := by
    unfold u3
    refine Keeps.ite (fun _ => ?_) (fun _ => ?_)
    · exact State.wr_keeps ‹_›
    · assumption
  clear_value u3
  extract_lets +onlyGivenNames u4
  have h2 : Keeps s0 u4 := State.wr_keeps ‹_›
  clear_value u4
  extract_lets +onlyGivenNames u5
  have h3 : Keeps s0 u5 := State.wrs_keeps ‹_›
  clear_value u5
  exact serviceDue_keeps (refreshPools_keeps (showUnits_keeps ‹_›))

theorem coreFail_keeps {s0 s : State} {k cause : Nat} {alone : Bool} (h0 : Keeps s0 s) :
    Keeps s0 (coreFail s k cause alone) := by
  unfold coreFail
  refine Keeps.ite (fun _ => ?_) (fun _ => ?_)
  · assumption
  · extract_lets +onlyGivenNames u1 u2 u3 u4 u5
    clear_value u1 u2 u3 u4 u5
    extract_lets +onlyGivenNames u6
    have h1 : Keeps s0 u6 := markFailed_keeps ‹_›
    clear_value u6
    extract_lets +onlyGivenNames u7
    have h2 : Keeps s0 u7 := by
      unfold u7
      refine Keeps.ite (fun _ => ?_) (fun _ => ?_)
      · exact State.wrs_keeps ‹_›
      · assumption
    clear_value u7
    extract_lets +onlyGivenNames u8
    have h3 : Keeps s0 u8 := by
      unfold u8
      refine Keeps.ite (fun _ => ?_) (fun _ => ?_)
      · exact coreWorkLost_keeps ‹_›
      · exact slotFault_keeps ‹_›
    clear_value u8
    extract_lets +onlyGivenNames u9
    have h4 : Keeps s0 u9 := showCore_keeps (zeroCore_keeps ‹_›)
    clear_value u9
    extract_lets +onlyGivenNames u10
    have h5 : Keeps s0 u10 := by
      unfold u10
      refine Keeps.ite (fun _ => ?_) (fun _ => ?_)
      · exact unitFault_keeps ‹_›
      · assumption
    clear_value u10
    extract_lets +onlyGivenNames u11
    clear_value u11
    refine Keeps.ite (fun _ => ?_) (fun _ => ?_)
    · exact showSpareCore_keeps (Keeps.upd (t := u10) rfl rfl rfl ‹_›)
    · exact showSpareCore_keeps (coreOutOfService_keeps (Keeps.upd (t := u10) rfl rfl rfl ‹_›))

theorem spareCoreFail_keeps {s0 s : State} {c cause : Nat} (h0 : Keeps s0 s) : Keeps s0 (spareCoreFail s c cause) := by
  unfold spareCoreFail
  refine Keeps.ite (fun _ => ?_) (fun _ => ?_)
  · assumption
  · extract_lets +onlyGivenNames u1
    have h1 : Keeps s0 u1 := State.wr_keeps (markFailed_keeps ‹_›)
    clear_value u1
    exact showSpareCore_keeps (showSpares_keeps (unitFault_keeps ‹_›))

theorem softCrash_keeps {s0 s : State} {k : Nat} (h0 : Keeps s0 s) : Keeps s0 (softCrash s k) := by
  unfold softCrash
  extract_lets +onlyGivenNames u1
  clear_value u1
  refine Keeps.ite (fun _ => ?_) (fun _ => ?_)
  · exact coreFail_keeps ‹_›
  · extract_lets +onlyGivenNames u2
    have h1 : Keeps s0 u2 := coreWorkLost_keeps ‹_›
    clear_value u2
    extract_lets +onlyGivenNames u3
    have h2 : Keeps s0 u3 := State.dropWait_keeps (showCore_keeps ‹_›)
    clear_value u3
    extract_lets +onlyGivenNames u4
    have h3 : Keeps s0 u4 := State.bumpSmall_keeps ‹_›
    clear_value u4
    exact State.setCore_keeps ‹_›

theorem coreArrives_keeps {s0 s : State} {k : Nat} (h0 : Keeps s0 s) : Keeps s0 (coreArrives s k) := by
  unfold coreArrives
  refine Keeps.ite (fun _ => ?_) (fun _ => ?_)
  · exact startFirmware_keeps ‹_›
  · exact showCore_keeps ‹_›

theorem spareArrives_keeps {s0 s : State} {unit : Nat} (h0 : Keeps s0 s) : Keeps s0 (spareArrives s unit) := by
  unfold spareArrives
  refine Keeps.ite (fun _ => ?_) (fun _ => ?_)
  · extract_lets +onlyGivenNames u1
    clear_value u1
    exact showSpares_keeps (State.bump_keeps (State.wrs_keeps ‹_›))
  · extract_lets +onlyGivenNames u2
    clear_value u2
    extract_lets +onlyGivenNames u3
    have h1 : Keeps s0 u3 := State.wrs_keeps ‹_›
    clear_value u3
    exact coreArrives_keeps (showSpareCore_keeps (showSpares_keeps (State.bump_keeps ‹_›)))

theorem unitReturns_keeps {s0 s : State} {unit phys : Nat} (h0 : Keeps s0 s) : Keeps s0 (unitReturns s unit phys) := by
  unfold unitReturns
  extract_lets +onlyGivenNames u1
  clear_value u1
  extract_lets +onlyGivenNames u2
  have h1 : Keeps s0 u2 := Keeps.upd (t := s) rfl rfl rfl ‹_›
  clear_value u2
  refine Keeps.ite (fun _ => ?_) (fun _ => ?_)
  · extract_lets +onlyGivenNames u3
    clear_value u3
    extract_lets +onlyGivenNames u4
    have h2 : Keeps s0 u4 := by
      unfold u4
      refine Keeps.ite (fun _ => ?_) (fun _ => ?_)
      · assumption
      · exact State.wrs_keeps ‹_›
    clear_value u4
    extract_lets +onlyGivenNames u5
    have h3 : Keeps s0 u5 := State.wr_keeps ‹_›
    clear_value u5
    exact refreshPools_keeps (showUnits_keeps (State.wr_keeps ‹_›))
  · extract_lets +onlyGivenNames u6 u7
    clear_value u6 u7
    extract_lets +onlyGivenNames u8
    have h4 : Keeps s0 u8 := by
      unfold u8
      refine Keeps.ite (fun _ => ?_) (fun _ => ?_)
      · assumption
      · exact State.wrs_keeps ‹_›
    clear_value u8
    extract_lets +onlyGivenNames u9
    have h5 : Keeps s0 u9 := State.wr_keeps ‹_›
    clear_value u9
    extract_lets +onlyGivenNames u10
    have h6 : Keeps s0 u10 := by
      unfold u10
      refine Keeps.ite (fun _ => ?_) (fun _ => ?_)
      · exact State.wr_keeps ‹_›
      · assumption
    clear_value u10
    exact coreArrives_keeps (refreshPools_keeps (showUnits_keeps (showSpareCore_keeps ‹_›)))

theorem svcSettle_keeps {s0 s : State} (h0 : Keeps s0 s) : Keeps s0 (svcSettle s) := by
  unfold svcSettle
  extract_lets +onlyGivenNames u1 u2
  clear_value u1 u2
  refine Keeps.ite (fun _ => ?_) (fun _ => ?_)
  · exact State.wrs_keeps ‹_›
  · assumption

theorem markOut_keeps {s0 s : State} {unit : Nat} (h0 : Keeps s0 s) : Keeps s0 (markOut s unit) := by
  unfold markOut
  refine Keeps.ite (fun _ => ?_) (fun _ => ?_)
  · assumption
  · extract_lets +onlyGivenNames u1
    have h1 : Keeps s0 u1 := by
      unfold u1
      split
      · exact groveOut_keeps ‹_›
      · assumption
    clear_value u1
    exact Keeps.upd (t := u1) rfl rfl rfl ‹_›

theorem clusterOut_keeps {s0 s : State} {c cause : Nat} (h0 : Keeps s0 s) : Keeps s0 (clusterOut s c cause) := by
  unfold clusterOut
  extract_lets +onlyGivenNames u1
  have h1 : Keeps s0 u1 := markOut_keeps ‹_›
  clear_value u1
  extract_lets +onlyGivenNames u2
  have h2 : Keeps s0 u2 := by
    unfold u2
    refine Keeps.foldl ?_ ?_
    · assumption
    · intro v1 v2 v3
      refine Keeps.ite (fun _ => ?_) (fun _ => ?_)
      · assumption
      · exact tileFail_keeps ‹_›
  clear_value u2
  extract_lets +onlyGivenNames u3
  have h3 : Keeps s0 u3 := by
    unfold u3
    refine Keeps.ite (fun _ => ?_) (fun _ => ?_)
    · assumption
    · exact State.wr_keeps (markFailed_keeps ‹_›)
  clear_value u3
  apply showSpareCore_keeps
  apply showSpares_keeps
  refine Keeps.foldl ?_ ?_
  · assumption
  · intro v4 v5 v6
    exact coreFail_keeps ‹_›

theorem portsFail_keeps {s0 s : State} {q : Nat} (h0 : Keeps s0 s) : Keeps s0 (portsFail s q) := by
  unfold portsFail
  refine Keeps.foldl ?_ ?_
  · assumption
  · intro v1 v2 v3
    exact setFabPort_keeps ‹_›

theorem transportFail_keeps {s0 s : State} {q unit : Nat} (h0 : Keeps s0 s) : Keeps s0 (transportFail s q unit) := by
  unfold transportFail
  exact portsFail_keeps (markOut_keeps ‹_›)

theorem oweDegraded_keeps {s0 s : State} {what : Nat} (h0 : Keeps s0 s) : Keeps s0 (oweDegraded s what) := by
  unfold oweDegraded
  extract_lets +onlyGivenNames u1
  clear_value u1
  exact Keeps.upd (t := s) rfl rfl rfl ‹_›

theorem quadrantLost_keeps {s0 s : State} {q : Nat} (h0 : Keeps s0 s) : Keeps s0 (quadrantLost s q) := by
  unfold quadrantLost
  refine Keeps.ite (fun _ => ?_) (fun _ => ?_)
  · assumption
  · extract_lets +onlyGivenNames u1
    clear_value u1
    extract_lets +onlyGivenNames u2
    have h1 : Keeps s0 u2 := oweDegraded_keeps (Keeps.upd (t := s) rfl rfl rfl ‹_›)
    clear_value u2
    extract_lets +onlyGivenNames u3
    have h2 : Keeps s0 u3 := by
      unfold u3
      split
      · exact tileFail_keeps ‹_›
      · exact State.wr_keeps (markFailed_keeps ‹_›)
    clear_value u3
    extract_lets +onlyGivenNames u4
    have h3 : Keeps s0 u4 := by
      unfold u4
      refine Keeps.foldl ?_ ?_
      · assumption
      · intro v1 v2 v3
        exact clusterOut_keeps ‹_›
    clear_value u4
    extract_lets +onlyGivenNames u5
    have h4 : Keeps s0 u5 := by
      unfold u5
      refine Keeps.ite (fun _ => ?_) (fun _ => ?_)
      · exact twinPortDown_keeps ‹_›
      · assumption
    clear_value u5
    exact showUnits_keeps (portsFail_keeps (markOut_keeps ‹_›))

theorem channelsOut_keeps {s0 s : State} {k : Nat} (h0 : Keeps s0 s) : Keeps s0 (channelsOut s k) := by
  unfold channelsOut
  refine Keeps.ite (fun _ => ?_) (fun _ => ?_)
  · assumption
  · extract_lets +onlyGivenNames u1
    clear_value u1
    extract_lets +onlyGivenNames u2
    have h1 : Keeps s0 u2 := groveOut_keeps (Keeps.upd (t := s) rfl rfl rfl ‹_›)
    clear_value u2
    exact showUnits_keeps (oweDegraded_keeps ‹_›)

theorem channelOut_keeps {s0 s : State} {ch : Nat} (h0 : Keeps s0 s) : Keeps s0 (channelOut s ch) := by
  unfold channelOut
  refine Keeps.ite (fun _ => ?_) (fun _ => ?_)
  · assumption
  · exact showUnits_keeps (oweDegraded_keeps (Keeps.upd (t := s) rfl rfl rfl ‹_›))

theorem opticalOut_keeps {s0 s : State} {t : Nat} (h0 : Keeps s0 s) : Keeps s0 (opticalOut s t) := by
  unfold opticalOut
  refine Keeps.foldl ?_ ?_
  · assumption
  · intro v1 v2 v3
    exact setLane_keeps (laneSettled_keeps ‹_›)

theorem holdCtl_keeps {s0 s : State} {h : HeldCtl} (h0 : Keeps s0 s) : Keeps s0 (holdCtl s h) := by
  unfold holdCtl
  exact Keeps.upd (t := s) rfl rfl rfl ‹_›

theorem spareSiteFail_keeps {s0 s : State} {q : Nat} (h0 : Keeps s0 s) : Keeps s0 (spareSiteFail s q) := by
  unfold spareSiteFail
  split
  · exact tileFail_keeps ‹_›
  · exact spareTileFail_keeps ‹_›

theorem controllersOut_keeps {s0 s : State} {k : Nat} (h0 : Keeps s0 s) : Keeps s0 (controllersOut s k) := by
  unfold controllersOut
  extract_lets +onlyGivenNames u1 u2 u3
  clear_value u1 u2 u3
  extract_lets +onlyGivenNames u4
  have h1 : Keeps s0 u4 := by
    unfold u4
    refine Keeps.foldl ?_ ?_
    · assumption
    · intro v1 v2 v3
      exact clusterOut_keeps ‹_›
  clear_value u4
  extract_lets +onlyGivenNames u5
  have h2 : Keeps s0 u5 := by
    unfold u5
    refine Keeps.foldl ?_ ?_
    · assumption
    · intro v4 v5 v6
      exact channelOut_keeps ‹_›
  clear_value u5
  extract_lets +onlyGivenNames u6
  have h3 : Keeps s0 u6 := by
    unfold u6
    refine Keeps.foldl ?_ ?_
    · assumption
    · intro v7 v8 v9
      exact setFabPort_keeps ‹_›
  clear_value u6
  extract_lets +onlyGivenNames u7
  have h4 : Keeps s0 u7 := by
    unfold u7
    refine Keeps.foldl ?_ ?_
    · assumption
    · intro v10 v11 v12
      exact spareSiteFail_keeps ‹_›
  clear_value u7
  extract_lets +onlyGivenNames u8
  have h5 : Keeps s0 u8 := by
    unfold u8
    refine Keeps.foldl ?_ ?_
    · assumption
    · intro v13 v14 v15
      exact quadrantLost_keeps ‹_›
  clear_value u8
  extract_lets +onlyGivenNames u9
  have h6 : Keeps s0 u9 := by
    unfold u9
    refine Keeps.foldl ?_ ?_
    · assumption
    · intro v16 v17 v18
      exact opticalOut_keeps ‹_›
  clear_value u9
  exact serviceDue_keeps ‹_›

theorem controllerFail_keeps {s0 s : State} {k : Nat} (h0 : Keeps s0 s) : Keeps s0 (controllerFail s k) := by
  unfold controllerFail
  refine Keeps.ite (fun _ => ?_) (fun _ => ?_)
  · assumption
  · extract_lets +onlyGivenNames u1
    have h1 : Keeps s0 u1 := recordFault_keeps ‹_›
    clear_value u1
    extract_lets +onlyGivenNames u2
    clear_value u2
    extract_lets +onlyGivenNames u3
    have h2 : Keeps s0 u3 := Keeps.upd (t := u1) rfl rfl rfl ‹_›
    clear_value u3
    extract_lets +onlyGivenNames u4
    have h3 : Keeps s0 u4 := groveOut_keeps ‹_›
    clear_value u4
    refine Keeps.ite (fun _ => ?_) (fun _ => ?_)
    · exact controllersOut_keeps (Keeps.upd (t := u4) rfl rfl rfl ‹_›)
    · extract_lets +onlyGivenNames u5
      have h4 : Keeps s0 u5 := State.raiseUnit_keeps ‹_›
      clear_value u5
      exact Keeps.upd (t := u5) rfl rfl rfl ‹_›

theorem pairFail_keeps {s0 s : State} {p : Nat} (h0 : Keeps s0 s) : Keeps s0 (pairFail s p) := by
  unfold pairFail
  refine Keeps.ite (fun _ => ?_) (fun _ => ?_)
  · extract_lets +onlyGivenNames u1
    have h1 : Keeps s0 u1 := groveOut_keeps (State.wr_keeps ‹_›)
    clear_value u1
    extract_lets +onlyGivenNames u2
    have h2 : Keeps s0 u2 := serviceDue_keeps ‹_›
    clear_value u2
    refine Keeps.ite (fun _ => ?_) (fun _ => ?_)
    · extract_lets +onlyGivenNames u3
      have h3 : Keeps s0 u3 := fallback_keeps (defaultClocks_keeps ‹_›)
      clear_value u3
      refine Keeps.ite (fun _ => ?_) (fun _ => ?_)
      · extract_lets +onlyGivenNames u4
        have h4 : Keeps s0 u4 := State.raiseUnit_keeps (State.bump_keeps ‹_›)
        clear_value u4
        exact Keeps.upd (t := u4) rfl rfl rfl ‹_›
      · exact Keeps.upd (t := u3) rfl rfl rfl ‹_›
    · exact Keeps.upd (t := u2) rfl rfl rfl ‹_›
  · assumption

theorem svcRefuse_keeps {s0 s : State} {r : Nat} (h0 : Keeps s0 s) : Keeps s0 (svcRefuse s r) := by
  unfold svcRefuse
  exact State.wr_keeps ‹_›

theorem svcBegin_keeps {s0 s : State} (h0 : Keeps s0 s) : Keeps s0 (svcBegin s) := by
  unfold svcBegin
  exact svcSettle_keeps (State.wrs_keeps ‹_›)

theorem svcTakeOut_keeps {s0 s : State} {unit : Nat} {force : Bool} (h0 : Keeps s0 s) :
    Keeps s0 (svcTakeOut s unit force) := by
  unfold svcTakeOut
  extract_lets +onlyGivenNames u1
  clear_value u1
  split
  · refine Keeps.ite (fun _ => ?_) (fun _ => ?_)
    · exact svcRefuse_keeps ‹_›
    · refine Keeps.ite (fun _ => ?_) (fun _ => ?_)
      · exact svcRefuse_keeps ‹_›
      · refine Keeps.ite (fun _ => ?_) (fun _ => ?_)
        · exact svcRefuse_keeps ‹_›
        · exact svcBegin_keeps (tileFail_keeps ‹_›)
  · extract_lets +onlyGivenNames u2
    clear_value u2
    refine Keeps.ite (fun _ => ?_) (fun _ => ?_)
    · exact svcRefuse_keeps ‹_›
    · refine Keeps.ite (fun _ => ?_) (fun _ => ?_)
      · exact svcRefuse_keeps ‹_›
      · refine Keeps.ite (fun _ => ?_) (fun _ => ?_)
        · exact svcRefuse_keeps ‹_›
        · exact svcBegin_keeps (coreFail_keeps ‹_›)
  · refine Keeps.ite (fun _ => ?_) (fun _ => ?_)
    · exact svcRefuse_keeps ‹_›
    · refine Keeps.ite (fun _ => ?_) (fun _ => ?_)
      · exact svcRefuse_keeps ‹_›
      · refine Keeps.ite (fun _ => ?_) (fun _ => ?_)
        · exact svcRefuse_keeps ‹_›
        · exact svcBegin_keeps (clusterOut_keeps (unitFault_keeps ‹_›))
  · refine Keeps.ite (fun _ => ?_) (fun _ => ?_)
    · exact svcRefuse_keeps ‹_›
    · refine Keeps.ite (fun _ => ?_) (fun _ => ?_)
      · exact svcRefuse_keeps ‹_›
      · refine Keeps.ite (fun _ => ?_) (fun _ => ?_)
        · exact svcRefuse_keeps ‹_›
        · exact svcBegin_keeps (transportFail_keeps (unitFault_keeps ‹_›))
  · exact svcRefuse_keeps ‹_›

theorem tileReturn_keeps {s0 s : State} {n : Nat} (h0 : Keeps s0 s) : Keeps s0 (tileReturn s n) := by
  unfold tileReturn
  extract_lets +onlyGivenNames u1
  have h1 : Keeps s0 u1 := by
    unfold u1
    refine Keeps.ite (fun _ => ?_) (fun _ => ?_)
    · assumption
    · exact tileWorkLost_keeps ‹_›
  clear_value u1
  exact Keeps.upd (t := u1) rfl rfl rfl ‹_›

theorem coreReturn_keeps {s0 s : State} {k : Nat} (h0 : Keeps s0 s) : Keeps s0 (coreReturn s k) := by
  unfold coreReturn
  extract_lets +onlyGivenNames u1
  have h1 : Keeps s0 u1 := by
    unfold u1
    refine Keeps.ite (fun _ => ?_) (fun _ => ?_)
    · assumption
    · refine Keeps.ite (fun _ => ?_) (fun _ => ?_)
      · exact coreWorkLost_keeps ‹_›
      · exact slotFault_keeps ‹_›
  clear_value u1
  extract_lets +onlyGivenNames u2
  clear_value u2
  exact Keeps.upd (t := u1) rfl rfl rfl ‹_›

theorem markIn_keeps {s0 s : State} {unit : Nat} (h0 : Keeps s0 s) : Keeps s0 (markIn s unit) := by
  unfold markIn
  extract_lets +onlyGivenNames u1
  have h1 : Keeps s0 u1 := by
    unfold u1
    split
    · split
      · exact State.wr_keeps ‹_›
      · assumption
    · assumption
  clear_value u1
  exact Keeps.upd (t := u1) rfl rfl rfl ‹_›

theorem clusterReturn_keeps {s0 s : State} {c : Nat} (h0 : Keeps s0 s) : Keeps s0 (clusterReturn s c) := by
  unfold clusterReturn
  extract_lets +onlyGivenNames u1
  clear_value u1
  extract_lets +onlyGivenNames u2
  have h1 : Keeps s0 u2 := markIn_keeps ‹_›
  clear_value u2
  extract_lets +onlyGivenNames u3
  clear_value u3
  extract_lets +onlyGivenNames u4
  have h2 : Keeps s0 u4 := by
    unfold u4
    refine Keeps.ite (fun _ => ?_) (fun _ => ?_)
    · exact State.wr_keeps (Keeps.upd (t := u2) rfl rfl rfl ‹_›)
    · assumption
  clear_value u4
  extract_lets +onlyGivenNames u5
  have h3 : Keeps s0 u5 := by
    unfold u5
    refine Keeps.foldl ?_ ?_
    · assumption
    · intro v1 v2 v3
      refine Keeps.ite (fun _ => ?_) (fun _ => ?_)
      · exact tileReturn_keeps ‹_›
      · refine Keeps.ite (fun _ => ?_) (fun _ => ?_)
        · exact coreReturn_keeps ‹_›
        · assumption
  clear_value u5
  exact showSpareCore_keeps (showSpares_keeps ‹_›)

theorem svcReturn_keeps {s0 s : State} {unit : Nat} (h0 : Keeps s0 s) : Keeps s0 (svcReturn s unit) := by
  unfold svcReturn
  extract_lets +onlyGivenNames u1 u2
  clear_value u1 u2
  split
  · refine Keeps.ite (fun _ => ?_) (fun _ => ?_)
    · exact svcRefuse_keeps ‹_›
    · refine Keeps.ite (fun _ => ?_) (fun _ => ?_)
      · exact svcRefuse_keeps ‹_›
      · refine Keeps.ite (fun _ => ?_) (fun _ => ?_)
        · exact svcRefuse_keeps ‹_›
        · refine Keeps.ite (fun _ => ?_) (fun _ => ?_)
          · exact svcBegin_keeps (tileReturn_keeps ‹_›)
          · extract_lets +onlyGivenNames u3
            clear_value u3
            extract_lets +onlyGivenNames u4
            have h1 : Keeps s0 u4 := Keeps.upd (t := s) rfl rfl rfl ‹_›
            clear_value u4
            exact svcBegin_keeps (showSpares_keeps (State.wr_keeps ‹_›))
  · extract_lets +onlyGivenNames u5
    clear_value u5
    refine Keeps.ite (fun _ => ?_) (fun _ => ?_)
    · exact svcRefuse_keeps ‹_›
    · refine Keeps.ite (fun _ => ?_) (fun _ => ?_)
      · exact svcRefuse_keeps ‹_›
      · refine Keeps.ite (fun _ => ?_) (fun _ => ?_)
        · exact svcRefuse_keeps ‹_›
        · refine Keeps.ite (fun _ => ?_) (fun _ => ?_)
          · exact svcBegin_keeps (coreReturn_keeps ‹_›)
          · extract_lets +onlyGivenNames u6
            clear_value u6
            extract_lets +onlyGivenNames u7
            have h2 : Keeps s0 u7 := Keeps.upd (t := s) rfl rfl rfl ‹_›
            clear_value u7
            exact svcBegin_keeps (showSpareCore_keeps (showSpares_keeps (State.wr_keeps ‹_›)))
  · refine Keeps.ite (fun _ => ?_) (fun _ => ?_)
    · exact svcRefuse_keeps ‹_›
    · refine Keeps.ite (fun _ => ?_) (fun _ => ?_)
      · exact svcRefuse_keeps ‹_›
      · refine Keeps.ite (fun _ => ?_) (fun _ => ?_)
        · exact svcRefuse_keeps ‹_›
        · exact svcBegin_keeps (clusterReturn_keeps ‹_›)
  · refine Keeps.ite (fun _ => ?_) (fun _ => ?_)
    · exact svcRefuse_keeps ‹_›
    · refine Keeps.ite (fun _ => ?_) (fun _ => ?_)
      · exact svcRefuse_keeps ‹_›
      · refine Keeps.ite (fun _ => ?_) (fun _ => ?_)
        · exact svcRefuse_keeps ‹_›
        · exact svcBegin_keeps (markIn_keeps ‹_›)
  · exact svcRefuse_keeps ‹_›

theorem svcRun_keeps {s0 s : State} {action unit : Nat} {force : Bool} (h0 : Keeps s0 s) :
    Keeps s0 (svcRun s action unit force) := by
  unfold svcRun
  refine Keeps.ite (fun _ => ?_) (fun _ => ?_)
  · exact svcTakeOut_keeps ‹_›
  · refine Keeps.ite (fun _ => ?_) (fun _ => ?_)
    · exact svcReturn_keeps ‹_›
    · assumption

theorem svcWrite_keeps {s0 s : State} {unit action : Nat} {force start : Bool} (h0 : Keeps s0 s) :
    Keeps s0 (svcWrite s unit action force start) := by
  unfold svcWrite
  refine Keeps.ite (fun _ => ?_) (fun _ => ?_)
  · assumption
  · extract_lets +onlyGivenNames u1
    have h1 : Keeps s0 u1 := State.wrs_keeps ‹_›
    clear_value u1
    refine Keeps.ite (fun _ => ?_) (fun _ => ?_)
    · assumption
    · refine Keeps.ite (fun _ => ?_) (fun _ => ?_)
      · exact holdStart_keeps ‹_›
      · refine Keeps.ite (fun _ => ?_) (fun _ => ?_)
        · exact holdCtl_keeps (State.wrs_keeps ‹_›)
        · exact svcRun_keeps ‹_›

theorem marchRun_keeps {s0 s : State} {unit mode : Nat} (h0 : Keeps s0 s) : Keeps s0 (marchRun s unit mode) := by
  unfold marchRun
  refine Keeps.ite (fun _ => ?_) (fun _ => ?_)
  · exact State.wr_keeps ‹_›
  · refine Keeps.ite (fun _ => ?_) (fun _ => ?_)
    · exact State.wr_keeps ‹_›
    · exact State.wrs_keeps (Keeps.upd (t := s) rfl rfl rfl ‹_›)

theorem marchWrite_keeps {s0 s : State} {unit mode : Nat} {start : Bool} (h0 : Keeps s0 s) :
    Keeps s0 (marchWrite s unit mode start) := by
  unfold marchWrite
  extract_lets +onlyGivenNames u1
  clear_value u1
  extract_lets +onlyGivenNames u2
  have h1 : Keeps s0 u2 := State.wrs_keeps ‹_›
  clear_value u2
  refine Keeps.ite (fun _ => ?_) (fun _ => ?_)
  · assumption
  · refine Keeps.ite (fun _ => ?_) (fun _ => ?_)
    · exact holdCtl_keeps (State.wrs_keeps ‹_›)
    · exact marchRun_keeps ‹_›

theorem missZero_keeps {s0 s : State} {q : Nat} (h0 : Keeps s0 s) : Keeps s0 (missZero s q) := by
  unfold missZero
  refine Keeps.foldl ?_ ?_
  · assumption
  · intro v1 v2 v3
    refine Keeps.ite (fun _ => ?_) (fun _ => ?_)
    · exact State.setPeer_keeps ‹_›
    · assumption

theorem marchZero_keeps {s0 s : State} {unit : Nat} (h0 : Keeps s0 s) : Keeps s0 (marchZero s unit) := by
  unfold marchZero
  extract_lets +onlyGivenNames u1
  clear_value u1
  split
  · exact Keeps.upd (t := s) rfl rfl rfl ‹_›
  · refine Keeps.ite (fun _ => ?_) (fun _ => ?_)
    · exact Keeps.upd (t := s) rfl rfl rfl ‹_›
    · exact missZero_keeps ‹_›
  · assumption

theorem marchAbandon_keeps {s0 s : State} {result : Nat} (h0 : Keeps s0 s) : Keeps s0 (marchAbandon s result) := by
  unfold marchAbandon
  exact State.wrs_keeps (Keeps.upd (t := s) rfl rfl rfl ‹_›)

/-! ### Machine/Traps.lean -/

theorem wdogFlip_keeps {s0 s : State} {d : Nat} (h0 : Keeps s0 s) : Keeps s0 (wdogFlip s d) := by
  unfold wdogFlip
  refine Keeps.ite (fun _ => ?_) (fun _ => ?_)
  · exact State.setCore_keeps ‹_›
  · assumption

theorem dbgHalt_keeps {s0 s : State} {d reason which : Nat} (h0 : Keeps s0 s) : Keeps s0 (dbgHalt s d reason which) := by
  unfold dbgHalt
  extract_lets +onlyGivenNames u1
  have h1 : Keeps s0 u1 := by
    unfold u1
    refine Keeps.ite (fun _ => ?_) (fun _ => ?_)
    · assumption
    · exact wdogFlip_keeps ‹_›
  clear_value u1
  extract_lets +onlyGivenNames u2
  clear_value u2
  extract_lets +onlyGivenNames u3
  have h2 : Keeps s0 u3 := State.setDebug_keeps ‹_›
  clear_value u3
  refine Keeps.ite (fun _ => ?_) (fun _ => ?_)
  · exact showCore_keeps ‹_›
  · assumption

theorem showLive_keeps {s0 s : State} {k : Nat} (h0 : Keeps s0 s) : Keeps s0 (showLive s k) := by
  unfold showLive
  refine Keeps.ite (fun _ => ?_) (fun _ => ?_)
  · exact showCore_keeps ‹_›
  · assumption

theorem dbgResume_keeps {s0 s : State} {d : Nat} {step : Bool} (h0 : Keeps s0 s) : Keeps s0 (dbgResume s d step) := by
  unfold dbgResume
  extract_lets +onlyGivenNames u1
  clear_value u1
  refine Keeps.ite (fun _ => ?_) (fun _ => ?_)
  · extract_lets +onlyGivenNames u2
    have h1 : Keeps s0 u2 := wdogFlip_keeps (State.setDebug_keeps ‹_›)
    clear_value u2
    exact showLive_keeps ‹_›
  · assumption

theorem trailRelock_keeps {s0 s : State} (h0 : Keeps s0 s) : Keeps s0 (trailRelock s) := by
  unfold trailRelock
  extract_lets +onlyGivenNames u1
  have h1 : Keeps s0 u1 := by
    unfold u1
    refine Keeps.foldl ?_ ?_
    · assumption
    · intro v1 v2 v3
      exact dbgResume_keeps ‹_›
  clear_value u1
  extract_lets +onlyGivenNames u2
  clear_value u2
  extract_lets +onlyGivenNames u3
  have h2 : Keeps s0 u3 := Keeps.upd (t := u1) rfl rfl rfl ‹_›
  clear_value u3
  exact State.wrs_keeps ‹_›

theorem instrEnd_keeps {s0 s : State} {k : Nat} (h0 : Keeps s0 s) : Keeps s0 (instrEnd s k) := by
  unfold instrEnd
  extract_lets +onlyGivenNames u1 u2
  clear_value u1 u2
  refine Keeps.ite (fun _ => ?_) (fun _ => ?_)
  · exact dbgHalt_keeps ‹_›
  · refine Keeps.ite (fun _ => ?_) (fun _ => ?_)
    · exact State.setDebug_keeps ‹_›
    · assumption

theorem doubleTrap_keeps {s0 s : State} {k cause : Nat} (h0 : Keeps s0 s) : Keeps s0 (doubleTrap s k cause) := by
  unfold doubleTrap
  refine Keeps.ite (fun _ => ?_) (fun _ => ?_)
  · exact Keeps.upd (t := s) rfl rfl rfl ‹_›
  · refine Keeps.ite (fun _ => ?_) (fun _ => ?_)
    · exact softCrash_keeps ‹_›
    · exact slotFault_keeps ‹_›

theorem trap_keeps {s0 s : State} {k cause tval : Nat} (h0 : Keeps s0 s) : Keeps s0 (trap s k cause tval) := by
  unfold trap
  extract_lets +onlyGivenNames u1
  clear_value u1
  refine Keeps.ite (fun _ => ?_) (fun _ => ?_)
  · exact doubleTrap_keeps ‹_›
  · extract_lets +onlyGivenNames u2
    have h1 : Keeps s0 u2 := State.setCore_keeps ‹_›
    clear_value u2
    refine Keeps.ite (fun _ => ?_) (fun _ => ?_)
    · exact showCore_keeps ‹_›
    · assumption

theorem trapOpen_keeps {s0 s : State} {k cause : Nat} (h0 : Keeps s0 s) : Keeps s0 (trapOpen s k cause) := by
  unfold trapOpen
  extract_lets +onlyGivenNames u1
  have h1 : SndKeeps s0 u1 := by
    unfold u1
    exact SndKeeps.of (State.freeWord_keeps ‹_›)
  clear_value u1
  exact trap_keeps ‹_›

theorem trapReturn_keeps {s0 s : State} {k : Nat} (h0 : Keeps s0 s) : Keeps s0 (trapReturn s k) := by
  unfold trapReturn
  extract_lets +onlyGivenNames u1
  clear_value u1
  exact State.setCore_keeps ‹_›

theorem endCmd_keeps {s0 s : State} {qid : Nat} {c : Cmd} {status : Nat} (h0 : Keeps s0 s) :
    Keeps s0 (endCmd s qid c status) := by
  unfold endCmd
  split
  · refine Keeps.ite (fun _ => ?_) (fun _ => ?_)
    · exact State.complete_keeps ‹_›
    · exact failCommand_keeps ‹_›
  · exact decEnd_keeps ‹_›
  · exact stqEnd_keeps ‹_›
  · exact State.complete_keeps ‹_›

theorem waitPassed_keeps {s0 s : State} {w : Wait} (h0 : Keeps s0 s) : Keeps s0 (waitPassed s w) := by
  unfold waitPassed
  extract_lets +onlyGivenNames u1
  have h1 : Keeps s0 u1 := State.dropWait_keeps ‹_›
  clear_value u1
  split
  · split
    · refine Keeps.ite (fun _ => ?_) (fun _ => ?_)
      · exact endCmd_keeps ‹_›
      · exact State.setCmd_keeps ‹_›
    · assumption
  · exact tileAdvance_keeps ‹_›
  · exact showLive_keeps (instrEnd_keeps (State.setCore_keeps ‹_›))

theorem waitRefused_keeps {s0 s : State} {w : Wait} (h0 : Keeps s0 s) : Keeps s0 (waitRefused s w) := by
  unfold waitRefused
  extract_lets +onlyGivenNames u1
  have h1 : Keeps s0 u1 := State.dropWait_keeps ‹_›
  clear_value u1
  split
  · split
    · exact endCmd_keeps ‹_›
    · assumption
  · exact tileFault_keeps ‹_›
  · exact instrEnd_keeps (trapOpen_keeps ‹_›)

theorem endWaits_keeps {s0 s : State} {p : WaitOn → Bool} (h0 : Keeps s0 s) : Keeps s0 (endWaits s p) := by
  unfold endWaits
  refine Keeps.foldl ?_ ?_
  · assumption
  · intro v1 v2 v3
    refine Keeps.ite (fun _ => ?_) (fun _ => ?_)
    · exact waitRefused_keeps ‹_›
    · assumption

theorem ctrRevoke_keeps {s0 s : State} {b : Nat} (h0 : Keeps s0 s) : Keeps s0 (ctrRevoke s b) := by
  unfold ctrRevoke
  refine Keeps.ite (fun _ => ?_) (fun _ => ?_)
  · exact endWaits_keeps (State.wr_keeps ‹_›)
  · assumption

/-! ### Machine/RegWrite.lean -/

theorem State.writeFields_keeps {s0 s : State} {l : List Fld} {i v : Nat} (h0 : Keeps s0 s) :
    Keeps s0 (State.writeFields s l i v) := by
  unfold State.writeFields
  refine Keeps.foldl ?_ ?_
  · assumption
  · intro v1 v2 v3
    exact State.wr_keeps ‹_›

/-! ### Machine/Telemetry.lean -/

theorem showOverflow_keeps {s0 s : State} (h0 : Keeps s0 s) : Keeps s0 (showOverflow s) := by
  unfold showOverflow
  exact State.wr_keeps ‹_›

theorem clearCounter_keeps {s0 s : State} {off : Nat} (h0 : Keeps s0 s) : Keeps s0 (clearCounter s off) := by
  unfold clearCounter
  apply showOverflow_keeps
  extract_lets +onlyGivenNames u1
  have h1 : Keeps s0 u1 := State.setReg_keeps ‹_›
  clear_value u1
  exact Keeps.upd (t := u1) rfl rfl rfl ‹_›

theorem counterCmd_keeps {s0 s : State} {op off : Nat} (h0 : Keeps s0 s) : Keeps s0 (counterCmd s op off) := by
  unfold counterCmd
  extract_lets +onlyGivenNames u1
  have h1 : Keeps s0 u1 := State.wrs_keeps ‹_›
  clear_value u1
  refine Keeps.ite (fun _ => ?_) (fun _ => ?_)
  · split
    · exact State.wr_keeps ‹_›
    · exact clearCounter_keeps ‹_›
    · refine Keeps.foldl ?_ ?_
      · assumption
      · intro v1 v2 v3
        exact clearCounter_keeps ‹_›
    · assumption
  · exact State.wr_keeps ‹_›

theorem teleStore_keeps {s0 s : State} {host : Bool} {p a : Nat} {l : List Byte} (h0 : Keeps s0 s) :
    Keeps s0 (teleStore s host p a l) := by
  unfold teleStore
  refine Keeps.ite (fun _ => ?_) (fun _ => ?_)
  · exact State.emit_keeps ‹_›
  · exact State.write_keeps ‹_›

theorem strCfgWrite_keeps {s0 s : State} {k v : Nat} (h0 : Keeps s0 s) : Keeps s0 (strCfgWrite s k v) := by
  unfold strCfgWrite
  extract_lets +onlyGivenNames u1
  clear_value u1
  extract_lets +onlyGivenNames u2
  have h1 : Keeps s0 u2 := by
    unfold u2
    refine Keeps.ite (fun _ => ?_) (fun _ => ?_)
    · assumption
    · exact State.writeFields_keeps ‹_›
  clear_value u2
  refine Keeps.ite (fun _ => ?_) (fun _ => ?_)
  · exact State.wr_keeps ‹_›
  · refine Keeps.ite (fun _ => ?_) (fun _ => ?_)
    · assumption
    · refine Keeps.ite (fun _ => ?_) (fun _ => ?_)
      · extract_lets +onlyGivenNames u3
        clear_value u3
        extract_lets +onlyGivenNames u4
        have h2 : Keeps s0 u4 := Keeps.upd (t := u2) rfl rfl rfl ‹_›
        clear_value u4
        exact State.wr_keeps (State.wr_keeps (State.wr_keeps ‹_›))
      · assumption

theorem meterTick_keeps {s0 s : State} {n g : Nat} (h0 : Keeps s0 s) : Keeps s0 (meterTick s n g) := by
  unfold meterTick
  refine Keeps.foldl ?_ ?_
  · assumption
  · intro v1 v2 v3
    exact State.meterAdd_keeps ‹_›

theorem meterCut_keeps {s0 s : State} {g stop flags : Nat} (h0 : Keeps s0 s) : Keeps s0 (meterCut s g stop flags).2 := by
  unfold meterCut
  extract_lets +onlyGivenNames u1 u2
  clear_value u1 u2
  exact Keeps.mkSnd (State.setMeter_keeps ‹_›)

theorem mtrClose_keeps {s0 s : State} {g : Nat} (h0 : Keeps s0 s) : Keeps s0 (mtrClose s g) := by
  unfold mtrClose
  extract_lets +onlyGivenNames u1
  have h1 : SndKeeps s0 u1 := by
    unfold u1
    exact SndKeeps.of (meterCut_keeps ‹_›)
  clear_value u1
  exact State.setMeter_keeps ‹_›

theorem tick_keeps {s0 s : State} (h0 : Keeps s0 s) : Keeps s0 (tick s) := by
  unfold tick
  refine Keeps.ite (fun _ => ?_) (fun _ => ?_)
  · assumption
  · extract_lets +onlyGivenNames u1
    have h1 : Keeps s0 u1 := by
      unfold u1
      refine Keeps.foldl ?_ ?_
      · exact State.wr_keeps ‹_›
      · intro v1 v2 v3
        exact meterTick_keeps ‹_›
    clear_value u1
    refine Keeps.ite (fun _ => ?_) (fun _ => ?_)
    · refine Keeps.foldl ?_ ?_
      · assumption
      · intro v4 v5 v6
        exact mtrClose_keeps ‹_›
    · assumption

theorem mtrPut_keeps {s0 s : State} {g : Nat} {r : MeterRec} (h0 : Keeps s0 s) : Keeps s0 (mtrPut s g r) := by
  unfold mtrPut
  extract_lets +onlyGivenNames u1 u2
  clear_value u1 u2
  extract_lets +onlyGivenNames u3
  have h1 : Keeps s0 u3 := teleStore_keeps ‹_›
  clear_value u3
  exact State.msix_keeps (State.wr_keeps ‹_›)

theorem mtrHold_keeps {s0 s : State} {g : Nat} {r : MeterRec} (h0 : Keeps s0 s) : Keeps s0 (mtrHold s g r) := by
  unfold mtrHold
  extract_lets +onlyGivenNames u1 u2
  clear_value u1 u2
  extract_lets +onlyGivenNames u3
  have h1 : Keeps s0 u3 := State.setMeter_keeps ‹_›
  clear_value u3
  refine Keeps.ite (fun _ => ?_) (fun _ => ?_)
  · exact State.raise_keeps ‹_›
  · assumption

theorem mtrFlush_keeps {s0 s : State} {g : Nat} (h0 : Keeps s0 s) : Keeps s0 (mtrFlush s g) := by
  unfold mtrFlush
  refine Keeps.foldl ?_ ?_
  · assumption
  · intro v1 v2 v3
    split
    · refine Keeps.ite (fun _ => ?_) (fun _ => ?_)
      · exact State.setMeter_keeps (mtrPut_keeps ‹_›)
      · assumption
    · assumption

theorem mtrFlushAll_keeps {s0 s : State} (h0 : Keeps s0 s) : Keeps s0 (mtrFlushAll s) := by
  unfold mtrFlushAll
  refine Keeps.foldl ?_ ?_
  · assumption
  · intro v1 v2 v3
    exact mtrFlush_keeps ‹_›

theorem mtrRecord_keeps {s0 s : State} {g : Nat} {r : MeterRec} (h0 : Keeps s0 s) : Keeps s0 (mtrRecord s g r) := by
  unfold mtrRecord
  extract_lets +onlyGivenNames u1
  have h1 : Keeps s0 u1 := mtrFlush_keeps ‹_›
  clear_value u1
  refine Keeps.ite (fun _ => ?_) (fun _ => ?_)
  · exact mtrPut_keeps ‹_›
  · exact mtrHold_keeps ‹_›

theorem mtrNext_keeps {s0 s : State} {g : Nat} (h0 : Keeps s0 s) : Keeps s0 (mtrNext s g) := by
  unfold mtrNext
  split
  · exact mtrRecord_keeps (State.setMeter_keeps ‹_›)
  · assumption

theorem mtrCfgWrite_keeps {s0 s : State} {v : Nat} (h0 : Keeps s0 s) : Keeps s0 (mtrCfgWrite s v) := by
  unfold mtrCfgWrite
  extract_lets +onlyGivenNames u1
  clear_value u1
  extract_lets +onlyGivenNames u2
  have h1 : Keeps s0 u2 := by
    unfold u2
    refine Keeps.ite (fun _ => ?_) (fun _ => ?_)
    · assumption
    · exact State.writeFields_keeps ‹_›
  clear_value u2
  extract_lets +onlyGivenNames u3 u4 u5
  clear_value u3 u4 u5
  refine Keeps.ite (fun _ => ?_) (fun _ => ?_)
  · exact State.wr_keeps ‹_›
  · refine Keeps.ite (fun _ => ?_) (fun _ => ?_)
    · assumption
    · refine Keeps.ite (fun _ => ?_) (fun _ => ?_)
      · exact mtrFlushAll_keeps (State.wr_keeps (State.wr_keeps (State.wr_keeps ‹_›)))
      · assumption

theorem mtrGladeWrite_keeps {s0 s : State} {g v : Nat} (h0 : Keeps s0 s) : Keeps s0 (mtrGladeWrite s g v) := by
  unfold mtrGladeWrite
  extract_lets +onlyGivenNames u1
  clear_value u1
  extract_lets +onlyGivenNames u2
  have h1 : Keeps s0 u2 := State.wr_keeps ‹_›
  clear_value u2
  refine Keeps.ite (fun _ => ?_) (fun _ => ?_)
  · exact State.setMeter_keeps ‹_›
  · assumption

theorem mtrFinal_keeps {s0 s : State} {g : Nat} (h0 : Keeps s0 s) : Keeps s0 (mtrFinal s g) := by
  unfold mtrFinal
  refine Keeps.ite (fun _ => ?_) (fun _ => ?_)
  · extract_lets +onlyGivenNames u1
    have h1 : Keeps s0 u1 := by
      unfold u1
      refine Keeps.foldl ?_ ?_
      · assumption
      · intro v1 v2 v3
        exact mtrNext_keeps ‹_›
    clear_value u1
    extract_lets +onlyGivenNames u2
    have h2 : SndKeeps s0 u2 := by
      unfold u2
      exact SndKeeps.of (meterCut_keeps ‹_›)
    clear_value u2
    exact State.wr_keeps (mtrRecord_keeps ‹_›)
  · assumption

end Sys2Proof.Machine
end

