-- ==== Sys2Proof/Laws/KeepsSystem.lean ====
section
/-! SUPPORT. What the operations of glades, host ports, memory stacks, bring-up, pins, power and crossings keep: the waiting commands and the canonical form. One
lemma for each operation. -/
namespace Sys2Proof.Machine

open Sys2Proof

/-! ### Machine/Glades.lean -/

theorem queueReset_keeps {s0 s : State} {qid status : Nat} (h0 : Keeps s0 s) : Keeps s0 (queueReset s qid status) := by
  unfold queueReset
  extract_lets +onlyGivenNames u1
  clear_value u1
  refine Keeps.ite (fun _ => ?_) (fun _ => ?_)
  · assumption
  · refine Keeps.ite (fun _ => ?_) (fun _ => ?_)
    · exact tileQueueReset_keeps ‹_›
    · extract_lets +onlyGivenNames u2
      have h1 : Keeps s0 u2 := State.setQueue_keeps ‹_›
      clear_value u2
      split
      · exact decAbort_keeps ‹_›
      · exact ustAbort_keeps ‹_›
      · exact salAbort_keeps ‹_›
      · exact stqAbort_keeps ‹_›
      · exact ckpAbort_keeps ‹_›

theorem queueRestart_keeps {s0 s : State} {qid : Nat} (h0 : Keeps s0 s) : Keeps s0 (queueRestart s qid) := by
  unfold queueRestart
  extract_lets +onlyGivenNames u1
  have h1 : Keeps s0 u1 := restartRings_keeps ‹_›
  clear_value u1
  extract_lets +onlyGivenNames u2
  clear_value u2
  exact State.setQueue_keeps ‹_›

theorem queueClear_keeps {s0 s : State} {qid status : Nat} (h0 : Keeps s0 s) : Keeps s0 (queueClear s qid status) := by
  unfold queueClear
  extract_lets +onlyGivenNames u1
  have h1 : Keeps s0 u1 := queueReset_keeps ‹_›
  clear_value u1
  extract_lets +onlyGivenNames u2
  have h2 : Keeps s0 u2 := by
    unfold u2
    refine Keeps.ite (fun _ => ?_) (fun _ => ?_)
    · assumption
    · exact completeRing_keeps ‹_›
  clear_value u2
  exact queueRestart_keeps (State.writeEntries_keeps ‹_›)

theorem sqEnd_keeps {s0 s : State} {c : Cmd} {status result : Nat} (h0 : Keeps s0 s) :
    Keeps s0 (sqEnd s c status result) := by
  unfold sqEnd
  extract_lets +onlyGivenNames u1
  have h1 : Keeps s0 u1 := State.complete_keeps ‹_›
  clear_value u1
  refine Keeps.ite (fun _ => ?_) (fun _ => ?_)
  · exact State.setQueue_keeps ‹_›
  · assumption

theorem sqFetched_keeps {s0 s : State} {l : List Byte} {status : Nat} (h0 : Keeps s0 s) :
    Keeps s0 (sqFetched s l status) := by
  unfold sqFetched
  extract_lets +onlyGivenNames u1 u2
  clear_value u1 u2
  extract_lets +onlyGivenNames u3
  have h1 : Keeps s0 u3 := State.setQueue_keeps ‹_›
  clear_value u3
  refine Keeps.ite (fun _ => ?_) (fun _ => ?_)
  · exact sqEnd_keeps ‹_›
  · refine Keeps.ite (fun _ => ?_) (fun _ => ?_)
    · exact sqEnd_keeps ‹_›
    · assumption

theorem doorbellRefuse_keeps {s0 s : State} {p i v : Nat} (h0 : Keeps s0 s) : Keeps s0 (doorbellRefuse s p i v) := by
  unfold doorbellRefuse
  extract_lets +onlyGivenNames u1
  have h1 : Keeps s0 u1 := State.bump_keeps ‹_›
  clear_value u1
  refine Keeps.ite (fun _ => ?_) (fun _ => ?_)
  · exact State.raise_keeps (State.noteRaised_keeps ‹_›)
  · assumption

theorem onFunction_keeps {s0 s : State} {p : Nat} {o : Out} (h0 : Keeps s0 s) (h2 : OutAll (Keeps s0) o) :
    OutAll (Keeps s0) (onFunction s p o) := by
  unfold onFunction
  split
  · exact OutAll.next (unsupported_keeps ‹_›)
  · assumption

theorem bar2Drop_keeps {s0 s : State} {p : Nat} (h0 : Keeps s0 s) : Keeps s0 (bar2Drop s p) := by
  unfold bar2Drop
  exact State.bump_keeps ‹_›

theorem queueResume_keeps {s0 s : State} {qid : Nat} (h0 : Keeps s0 s) : Keeps s0 (queueResume s qid) := by
  unfold queueResume
  extract_lets +onlyGivenNames u1
  clear_value u1
  refine Keeps.ite (fun _ => ?_) (fun _ => ?_)
  · exact tileResume_keeps ‹_›
  · refine Keeps.ite (fun _ => ?_) (fun _ => ?_)
    · exact State.setQueue_keeps ‹_›
    · assumption

theorem controlDoorbell_keeps {s0 s : State} {p i v : Nat} (h0 : Keeps s0 s) : Keeps s0 (controlDoorbell s p i v) := by
  unfold controlDoorbell
  extract_lets +onlyGivenNames u1 u2
  clear_value u1 u2
  refine Keeps.ite (fun _ => ?_) (fun _ => ?_)
  · exact bar2Drop_keeps ‹_›
  · refine Keeps.ite (fun _ => ?_) (fun _ => ?_)
    · exact doorbellRefuse_keeps ‹_›
    · refine Keeps.ite (fun _ => ?_) (fun _ => ?_)
      · exact queueReset_keeps ‹_›
      · exact queueResume_keeps ‹_›

theorem nextGen_keeps {s0 s : State} {i : Nat} (h0 : Keeps s0 s) : Keeps s0 (nextGen s i) := by
  unfold nextGen
  exact State.wr_keeps ‹_›

theorem instReset_keeps {s0 s : State} {i : Nat} (h0 : Keeps s0 s) : Keeps s0 (instReset s i) := by
  unfold instReset
  extract_lets +onlyGivenNames u1
  have h1 : Keeps s0 u1 := by
    unfold u1
    refine Keeps.foldl ?_ ?_
    · assumption
    · intro v1 v2 v3
      exact queueClear_keeps ‹_›
  clear_value u1
  exact nextGen_keeps (closeStreams_keeps ‹_›)

theorem showStq_keeps {s0 s : State} (h0 : Keeps s0 s) : Keeps s0 (showStq s) := by
  unfold showStq
  exact State.wr_keeps ‹_›

theorem queueDelete_keeps {s0 s : State} {qid : Nat} (h0 : Keeps s0 s) : Keeps s0 (queueDelete s qid) := by
  unfold queueDelete
  extract_lets +onlyGivenNames u1 u2
  clear_value u1 u2
  extract_lets +onlyGivenNames u3
  have h1 : Keeps s0 u3 := give_keeps ‹_›
  clear_value u3
  extract_lets +onlyGivenNames u4
  have h2 : Keeps s0 u4 := by
    unfold u4
    refine Keeps.ite (fun _ => ?_) (fun _ => ?_)
    · exact pdRelease_keeps ‹_›
    · assumption
  clear_value u4
  extract_lets +onlyGivenNames u5
  have h3 : Keeps s0 u5 := State.wr_keeps (give_keeps ‹_›)
  clear_value u5
  extract_lets +onlyGivenNames u6
  clear_value u6
  extract_lets +onlyGivenNames u7
  have h4 : Keeps s0 u7 := by
    unfold u7
    refine Keeps.ite (fun _ => ?_) (fun _ => ?_)
    · exact Keeps.upd (t := u5) rfl rfl rfl ‹_›
    · assumption
  clear_value u7
  extract_lets +onlyGivenNames u8
  have h5 : Keeps s0 u8 := showStq_keeps (State.setQueue_keeps ‹_›)
  clear_value u8
  extract_lets +onlyGivenNames u9
  have h6 : Keeps s0 u9 := dropCtx_keeps ‹_›
  clear_value u9
  exact endWaits_keeps (State.dropWait_keeps ‹_›)

theorem instDestroy_keeps {s0 s : State} {i : Nat} (h0 : Keeps s0 s) : Keeps s0 (instDestroy s i) := by
  unfold instDestroy
  extract_lets +onlyGivenNames u1 u2
  clear_value u1 u2
  extract_lets +onlyGivenNames u3
  have h1 : Keeps s0 u3 := instReset_keeps ‹_›
  clear_value u3
  extract_lets +onlyGivenNames u4
  have h2 : Keeps s0 u4 := by
    unfold u4
    refine Keeps.foldl ?_ ?_
    · assumption
    · intro v1 v2 v3
      exact queueDelete_keeps ‹_›
  clear_value u4
  extract_lets +onlyGivenNames u5
  have h3 : Keeps s0 u5 := by
    unfold u5
    refine Keeps.foldl ?_ ?_
    · assumption
    · intro v4 v5 v6
      extract_lets +onlyGivenNames u6
      have h4 : Keeps s0 u6 := State.wrs_keeps ‹_›
      clear_value u6
      exact State.setQueue_keeps ‹_›
  clear_value u5
  extract_lets +onlyGivenNames u7
  have h5 : Keeps s0 u7 := State.wrs_keeps ‹_›
  clear_value u7
  exact give_keeps ‹_›

theorem gladeReset_keeps {s0 s : State} {g : Nat} (h0 : Keeps s0 s) : Keeps s0 (gladeReset s g) := by
  unfold gladeReset
  extract_lets +onlyGivenNames u1
  have h1 : Keeps s0 u1 := by
    unfold u1
    refine Keeps.foldl ?_ ?_
    · assumption
    · intro v1 v2 v3
      exact instReset_keeps ‹_›
  clear_value u1
  extract_lets +onlyGivenNames u2
  have h2 : Keeps s0 u2 := by
    unfold u2
    refine Keeps.foldl ?_ ?_
    · assumption
    · intro v4 v5 v6
      exact State.wr_keeps (slotHalt_keeps ‹_›)
  clear_value u2
  exact schGladeReset_keeps ‹_›

theorem gladeDestroy_keeps {s0 s : State} {g : Nat} (h0 : Keeps s0 s) : Keeps s0 (gladeDestroy s g) := by
  unfold gladeDestroy
  extract_lets +onlyGivenNames u1
  have h1 : Keeps s0 u1 := by
    unfold u1
    refine Keeps.ite (fun _ => ?_) (fun _ => ?_)
    · exact keyEnd_keeps ‹_›
    · assumption
  clear_value u1
  extract_lets +onlyGivenNames u2
  have h2 : Keeps s0 u2 := eraseGladeKeys_keeps (mtrFinal_keeps ‹_›)
  clear_value u2
  extract_lets +onlyGivenNames u3
  clear_value u3
  extract_lets +onlyGivenNames u4
  have h3 : Keeps s0 u4 := Keeps.upd (t := u2) rfl rfl rfl ‹_›
  clear_value u4
  extract_lets +onlyGivenNames u5
  have h4 : Keeps s0 u5 := by
    unfold u5
    refine Keeps.ite (fun _ => ?_) (fun _ => ?_)
    · exact trailRelock_keeps ‹_›
    · assumption
  clear_value u5
  exact refreshPools_keeps (State.setReg_keeps (State.setReg_keeps ‹_›))

theorem onSetup_keeps {s0 s : State} {op : Nat} {f : State → List Byte → State × Nat × Nat} (h0 : Keeps s0 s)
    (h2 : ∀ a00 a01, Keeps s0 a00 → Keeps s0 (f a00 a01).1) : Keeps s0 (onSetup s op f) := by
  unfold onSetup
  split
  · extract_lets +onlyGivenNames u1
    have h1 : FstKeeps s0 u1 := by
      unfold u1
      refine FstKeeps.of ?_
      apply h2
      assumption
    clear_value u1
    exact sqEnd_keeps ‹_›
  · assumption

theorem setQuotas_keeps {s0 s : State} {g : Nat} {w : Nat × Nat} (h0 : Keeps s0 s) : Keeps s0 (setQuotas s g w) := by
  unfold setQuotas
  apply refreshPools_keeps
  refine Keeps.foldl ?_ ?_
  · assumption
  · intro v1 v2 v3
    exact State.wr_keeps ‹_›

theorem queueCreate_keeps {s0 s : State} {l : List Byte} (h0 : Keeps s0 s) : Keeps s0 (queueCreate s l).1 := by
  unfold queueCreate
  extract_lets +onlyGivenNames u1 u2 u3 u4 u5 u6 u7 u8
  clear_value u1 u2 u3 u4 u5 u6 u7 u8
  split
  · exact Keeps.mkFst ‹_›
  · split
    · exact Keeps.mkFst ‹_›
    · split
      · exact Keeps.mkFst ‹_›
      · split
        · split
          · exact Keeps.mkFst ‹_›
          · split
            · exact Keeps.mkFst ‹_›
            · split
              · exact Keeps.mkFst ‹_›
              · extract_lets +onlyGivenNames u9
                clear_value u9
                extract_lets +onlyGivenNames u10
                have h1 : Keeps s0 u10 := placeCtx_keeps (State.setQueue_keeps ‹_›)
                clear_value u10
                extract_lets +onlyGivenNames u11
                have h2 : Keeps s0 u11 := take_keeps ‹_›
                clear_value u11
                extract_lets +onlyGivenNames u12
                have h3 : Keeps s0 u12 := by
                  unfold u12
                  refine Keeps.ite (fun _ => ?_) (fun _ => ?_)
                  · exact pdUse_keeps ‹_›
                  · assumption
                clear_value u12
                extract_lets +onlyGivenNames u13
                have h4 : Keeps s0 u13 := showStq_keeps (State.wr_keeps (take_keeps ‹_›))
                clear_value u13
                exact Keeps.mkFst ‹_›
        · split
          · exact Keeps.mkFst ‹_›
          · split
            · exact Keeps.mkFst ‹_›
            · split
              · exact Keeps.mkFst ‹_›
              · extract_lets +onlyGivenNames u14
                clear_value u14
                extract_lets +onlyGivenNames u15
                have h5 : Keeps s0 u15 := placeCtx_keeps (State.setQueue_keeps ‹_›)
                clear_value u15
                extract_lets +onlyGivenNames u16
                have h6 : Keeps s0 u16 := take_keeps ‹_›
                clear_value u16
                extract_lets +onlyGivenNames u17
                have h7 : Keeps s0 u17 := by
                  unfold u17
                  refine Keeps.ite (fun _ => ?_) (fun _ => ?_)
                  · exact pdUse_keeps ‹_›
                  · assumption
                clear_value u17
                extract_lets +onlyGivenNames u18
                have h8 : Keeps s0 u18 := by
                  unfold u18
                  assumption
                clear_value u18
                exact Keeps.mkFst ‹_›

theorem queueRemove_keeps {s0 s : State} {qid : Nat} (h0 : Keeps s0 s) : Keeps s0 (queueRemove s qid).1 := by
  unfold queueRemove
  split
  · exact Keeps.mkFst ‹_›
  · split
    · exact Keeps.mkFst ‹_›
    · exact Keeps.mkFst (queueDelete_keeps (queueClear_keeps ‹_›))

theorem adminEnd_keeps {s0 s : State} {q entry status result : Nat} (h0 : Keeps s0 s) :
    Keeps s0 (adminEnd s q entry status result) := by
  unfold adminEnd
  refine Keeps.ite (fun _ => ?_) (fun _ => ?_)
  · exact stqEnd_keeps ‹_›
  · assumption

theorem sqDisable_keeps {s0 s : State} (h0 : Keeps s0 s) : Keeps s0 (sqDisable s) := by
  unfold sqDisable
  extract_lets +onlyGivenNames u1
  have h1 : Keeps s0 u1 := State.wr_keeps ‹_›
  clear_value u1
  extract_lets +onlyGivenNames u2
  clear_value u2
  exact State.setQueue_keeps ‹_›

theorem sqCtrlWrite_keeps {s0 s : State} {v : Nat} (h0 : Keeps s0 s) : Keeps s0 (sqCtrlWrite s v) := by
  unfold sqCtrlWrite
  extract_lets +onlyGivenNames u1
  clear_value u1
  extract_lets +onlyGivenNames u2
  have h1 : Keeps s0 u2 := State.wr_keeps ‹_›
  clear_value u2
  extract_lets +onlyGivenNames u3
  have h2 : Keeps s0 u3 := by
    unfold u3
    refine Keeps.ite (fun _ => ?_) (fun _ => ?_)
    · assumption
    · exact State.wr_keeps ‹_›
  clear_value u3
  extract_lets +onlyGivenNames u4
  clear_value u4
  refine Keeps.ite (fun _ => ?_) (fun _ => ?_)
  · refine Keeps.ite (fun _ => ?_) (fun _ => ?_)
    · exact sqDisable_keeps ‹_›
    · assumption
  · refine Keeps.ite (fun _ => ?_) (fun _ => ?_)
    · assumption
    · extract_lets +onlyGivenNames u5
      have h3 : Keeps s0 u5 := State.wr_keeps ‹_›
      clear_value u5
      exact State.setQueue_keeps ‹_›

theorem execTileCfgWrite_keeps {s0 : State} {n : Fin 64} {v : Word} {s : State} (h2 : Keeps s0 s) :
    OutAll (Keeps s0) (execTileCfgWrite n v s) := by
  unfold execTileCfgWrite
  apply onTile_keeps
  · assumption
  · extract_lets +onlyGivenNames u1 u2 u3 u4 u5
    clear_value u1 u2 u3 u4 u5
    split
    · exact OutAll.next ‹_›
    · extract_lets +onlyGivenNames u6
      have h1 : Keeps s0 u6 := by
        unfold u6
        refine Keeps.ite (fun _ => ?_) (fun _ => ?_)
        · exact give_keeps (removeRegsIn_keeps ‹_›)
        · assumption
      clear_value u6
      extract_lets +onlyGivenNames u7
      have h3 : Keeps s0 u7 := State.wrs_keeps ‹_›
      clear_value u7
      split
      · exact OutAll.next (State.wr_keeps (take_keeps ‹_›))
      · exact OutAll.next ‹_›

/-! ### Machine/HostPort.lean -/

theorem requestFailed_keeps {s0 s : State} {p : Nat} {r : HostReq} {status : Nat} (h0 : Keeps s0 s) :
    Keeps s0 (requestFailed s p r status) := by
  unfold requestFailed
  split
  · assumption
  · extract_lets +onlyGivenNames u1
    clear_value u1
    extract_lets +onlyGivenNames u2
    have h1 : Keeps s0 u2 := State.setPort_keeps ‹_›
    clear_value u2
    exact pullFailed_keeps ‹_›

theorem requestData_keeps {s0 s : State} {p : Nat} {r : HostReq} {l : List Byte} (h0 : Keeps s0 s) :
    Keeps s0 (requestData s p r l) := by
  unfold requestData
  split
  · split
    · exact pullLanded_keeps ‹_›
    · assumption
  · assumption

theorem unexpectedCpl_keeps {s0 s : State} {p tag completer : Nat} (h0 : Keeps s0 s) :
    Keeps s0 (unexpectedCpl s p tag completer) := by
  unfold unexpectedCpl
  extract_lets +onlyGivenNames u1
  have h1 : Keeps s0 u1 := State.logAer_keeps (State.bump_keeps ‹_›)
  clear_value u1
  extract_lets +onlyGivenNames u2 u3
  clear_value u2 u3
  refine Keeps.ite (fun _ => ?_) (fun _ => ?_)
  · extract_lets +onlyGivenNames u4
    have h2 : Keeps s0 u4 := State.noteRaised_keeps (State.setPort_keeps ‹_›)
    clear_value u4
    exact State.raiseUnit_keeps ‹_›
  · exact State.setPort_keeps ‹_›

theorem storageHostOff_keeps {s0 s : State} {i : Nat} (h0 : Keeps s0 s) : Keeps s0 (storageHostOff s i) := by
  unfold storageHostOff
  refine Keeps.foldl ?_ ?_
  · assumption
  · intro v1 v2 v3
    refine Keeps.foldl ?_ ?_
    · assumption
    · intro v4 v5 v6
      exact stqFinish_keeps ‹_›

theorem loadFailed_keeps {s0 s : State} {status : Nat} (h0 : Keeps s0 s) : Keeps s0 (loadFailed s status) := by
  unfold loadFailed
  exact State.wrs_keeps (Keeps.upd (t := s) rfl rfl rfl ‹_›)

theorem hostAccessOff_keeps {s0 s : State} {p : Nat} (h0 : Keeps s0 s) : Keeps s0 (hostAccessOff s p) := by
  unfold hostAccessOff
  extract_lets +onlyGivenNames u1 u2
  clear_value u1 u2
  extract_lets +onlyGivenNames u3
  have h1 : Keeps s0 u3 := State.setPort_keeps ‹_›
  clear_value u3
  extract_lets +onlyGivenNames u4
  have h2 : Keeps s0 u4 := by
    unfold u4
    refine Keeps.foldl ?_ ?_
    · assumption
    · intro v1 v2 v3
      split
      · exact pullFailed_keeps ‹_›
      · assumption
  clear_value u4
  extract_lets +onlyGivenNames u5
  have h3 : Keeps s0 u5 := by
    unfold u5
    refine Keeps.foldl ?_ ?_
    · assumption
    · intro v4 v5 v6
      exact storageHostOff_keeps ‹_›
  clear_value u5
  split
  · refine Keeps.ite (fun _ => ?_) (fun _ => ?_)
    · exact loadFailed_keeps ‹_›
    · assumption
  · assumption

theorem raiseInto_keeps {s0 s : State} {e : EventRec} {due : List Nat} (h0 : Keeps s0 s) : Keeps s0 (raiseInto s e due) := by
  unfold raiseInto
  refine Keeps.ite (fun _ => ?_) (fun _ => ?_)
  · refine Keeps.ite (fun _ => ?_) (fun _ => ?_)
    · exact raiseCore_keeps ‹_›
    · assumption
  · exact Keeps.upd (t := s) rfl rfl rfl ‹_›

theorem pasidOff_keeps {s0 s : State} {p : Nat} (h0 : Keeps s0 s) : Keeps s0 (pasidOff s p) := by
  unfold pasidOff
  extract_lets +onlyGivenNames u1 u2 u3
  clear_value u1 u2 u3
  extract_lets +onlyGivenNames u4
  have h1 : Keeps s0 u4 := State.setPort_keeps ‹_›
  clear_value u4
  extract_lets +onlyGivenNames u5
  have h2 : Keeps s0 u5 := by
    unfold u5
    refine Keeps.foldl ?_ ?_
    · assumption
    · intro v1 v2 v3
      split
      · exact pullFailed_keeps ‹_›
      · assumption
  clear_value u5
  refine Keeps.foldl ?_ ?_
  · assumption
  · intro v4 v5 v6
    exact storageHostOff_keeps ‹_›

theorem instDiscard_keeps {s0 s : State} {i : Nat} (h0 : Keeps s0 s) : Keeps s0 (instDiscard s i) := by
  unfold instDiscard
  extract_lets +onlyGivenNames u1
  have h1 : Keeps s0 u1 := nextGen_keeps ‹_›
  clear_value u1
  extract_lets +onlyGivenNames u2
  have h2 : Keeps s0 u2 := by
    unfold u2
    refine Keeps.foldl ?_ ?_
    · assumption
    · intro v1 v2 v3
      exact queueClear_keeps ‹_›
  clear_value u2
  exact closeStreams_keeps ‹_›

theorem functionReset_keeps {s0 s : State} {p : Nat} (h0 : Keeps s0 s) : Keeps s0 (functionReset s p) := by
  unfold functionReset
  extract_lets +onlyGivenNames u1
  clear_value u1
  extract_lets +onlyGivenNames u2
  have h1 : Keeps s0 u2 := State.setPort_keeps ‹_›
  clear_value u2
  extract_lets +onlyGivenNames u3
  have h2 : Keeps s0 u3 := State.wrs_keeps ‹_›
  clear_value u3
  exact State.resetReg_keeps ‹_›

theorem portLosses_keeps {s0 s : State} {p kind : Nat} (h0 : Keeps s0 s) : Keeps s0 (portLosses s p kind) := by
  unfold portLosses
  extract_lets +onlyGivenNames u1
  clear_value u1
  extract_lets +onlyGivenNames u2
  have h1 : Keeps s0 u2 := by
    unfold u2
    refine Keeps.ite (fun _ => ?_) (fun _ => ?_)
    · apply hostAccessOff_keeps
      refine Keeps.foldl ?_ ?_
      · assumption
      · intro v1 v2 v3
        exact instDiscard_keeps ‹_›
    · refine Keeps.foldl ?_ ?_
      · exact hostAccessOff_keeps ‹_›
      · intro v4 v5 v6
        exact instDiscard_keeps ‹_›
  clear_value u2
  extract_lets +onlyGivenNames u3
  have h2 : Keeps s0 u3 := by
    unfold u3
    refine Keeps.foldl ?_ ?_
    · assumption
    · intro v7 v8 v9
      exact evrDisable_keeps ‹_›
  clear_value u3
  extract_lets +onlyGivenNames u4
  have h3 : Keeps s0 u4 := by
    unfold u4
    refine Keeps.ite (fun _ => ?_) (fun _ => ?_)
    · exact sqDisable_keeps ‹_›
    · assumption
  clear_value u4
  exact State.raiseUnit_keeps ‹_›

theorem setLink_keeps {s0 s : State} {p : Nat} {up : Bool} {speed width : Nat} {flit : Bool} (h0 : Keeps s0 s) :
    Keeps s0 (setLink s p up speed width flit) := by
  unfold setLink
  extract_lets +onlyGivenNames u1 u2 u3 u4
  clear_value u1 u2 u3 u4
  extract_lets +onlyGivenNames u5
  have h1 : Keeps s0 u5 := State.wrs_keeps ‹_›
  clear_value u5
  refine Keeps.ite (fun _ => ?_) (fun _ => ?_)
  · assumption
  · exact State.raiseUnit_keeps ‹_›

theorem portReset_keeps {s0 s : State} {p kind : Nat} (h0 : Keeps s0 s) : Keeps s0 (portReset s p kind) := by
  unfold portReset
  extract_lets +onlyGivenNames u1
  have h1 : Keeps s0 u1 := functionReset_keeps (portLosses_keeps ‹_›)
  clear_value u1
  extract_lets +onlyGivenNames u2
  have h2 : Keeps s0 u2 := State.resetReg_keeps (State.wr_keeps ‹_›)
  clear_value u2
  extract_lets +onlyGivenNames u3
  have h3 : Keeps s0 u3 := setLink_keeps ‹_›
  clear_value u3
  extract_lets +onlyGivenNames u4
  clear_value u4
  exact State.setPort_keeps ‹_›

theorem hostLinkLost_keeps {s0 s : State} {p : Nat} (h0 : Keeps s0 s) : Keeps s0 (hostLinkLost s p) := by
  unfold hostLinkLost
  refine Keeps.ite (fun _ => ?_) (fun _ => ?_)
  · exact portReset_keeps ‹_›
  · assumption

theorem cfgWrite_keeps {s0 s : State} {p : Nat} {w : CfgWrite} (h0 : Keeps s0 s) : Keeps s0 (cfgWrite s p w) := by
  unfold cfgWrite
  extract_lets +onlyGivenNames u1
  clear_value u1
  split
  · exact State.wrs_keeps ‹_›
  · exact State.wr_keeps ‹_›
  · exact State.setPort_keeps ‹_›
  · exact State.setPort_keeps ‹_›
  · exact State.setPort_keeps ‹_›
  · exact State.setPort_keeps ‹_›
  · exact State.wr_keeps ‹_›
  · exact State.setPort_keeps ‹_›
  · exact State.setPort_keeps ‹_›
  · exact State.setPort_keeps ‹_›
  · exact State.setPort_keeps ‹_›
  · exact State.setPort_keeps ‹_›
  · exact State.setPort_keeps ‹_›
  · refine Keeps.ite (fun _ => ?_) (fun _ => ?_)
    · assumption
    · exact State.setPort_keeps ‹_›
  · exact State.setPort_keeps ‹_›

theorem evrCfgWrite_keeps {s0 s : State} {r v : Nat} (h0 : Keeps s0 s) : Keeps s0 (evrCfgWrite s r v) := by
  unfold evrCfgWrite
  extract_lets +onlyGivenNames u1
  clear_value u1
  extract_lets +onlyGivenNames u2
  have h1 : Keeps s0 u2 := by
    unfold u2
    refine Keeps.ite (fun _ => ?_) (fun _ => ?_)
    · assumption
    · exact State.writeFields_keeps ‹_›
  clear_value u2
  extract_lets +onlyGivenNames u3
  clear_value u3
  refine Keeps.ite (fun _ => ?_) (fun _ => ?_)
  · refine Keeps.ite (fun _ => ?_) (fun _ => ?_)
    · exact evrDisable_keeps ‹_›
    · assumption
  · refine Keeps.ite (fun _ => ?_) (fun _ => ?_)
    · assumption
    · refine Keeps.ite (fun _ => ?_) (fun _ => ?_)
      · exact evrEnable_keeps ‹_›
      · assumption

/-! ### Machine/Memory.lean -/

theorem decodeCw_keeps {s0 s : State} {ch cw : Nat} {a3 : CwFind} (h0 : Keeps s0 s) : Keeps s0 (decodeCw s ch cw a3).1 := by
  unfold decodeCw
  split
  · exact Keeps.mkFst ‹_›
  · split
    · exact Keeps.mkFst ‹_›
    · split
      · exact Keeps.mkFst ‹_›
      · split
        · exact Keeps.mkFst ‹_›
        · extract_lets +onlyGivenNames u1
          have h1 : SndKeeps s0 u1 := by
            unfold u1
            exact SndKeeps.of (State.freeBit_keeps ‹_›)
          clear_value u1
          split
          · extract_lets +onlyGivenNames u2
            have h2 : SndKeeps s0 u2 := by
              unfold u2
              exact SndKeeps.of (State.freeWord_keeps ‹_›)
            clear_value u2
            extract_lets +onlyGivenNames u3
            have h3 : SndKeeps s0 u3 := by
              unfold u3
              exact SndKeeps.of (State.freeWord_keeps ‹_›)
            clear_value u3
            exact Keeps.mkFst (State.scramble_keeps ‹_›)
          · exact Keeps.mkFst ‹_›

theorem spareRow_keeps {s0 s : State} {ch bank row cw : Nat} (h0 : Keeps s0 s) : Keeps s0 (spareRow s ch bank row cw) := by
  unfold spareRow
  extract_lets +onlyGivenNames u1
  clear_value u1
  refine Keeps.ite (fun _ => ?_) (fun _ => ?_)
  · assumption
  · split
    · extract_lets +onlyGivenNames u2
      clear_value u2
      extract_lets +onlyGivenNames u3
      have h1 : Keeps s0 u3 := by
        unfold u3
        refine Keeps.ite (fun _ => ?_) (fun _ => ?_)
        · assumption
        · exact memRaise_keeps (Keeps.upd (t := s) rfl rfl rfl ‹_›)
      clear_value u3
      exact bankFaulty_keeps ‹_›
    · exact Keeps.upd (t := s) rfl rfl rfl ‹_›

theorem addErasure_keeps {s0 s : State} {ch sym cw : Nat} (h0 : Keeps s0 s) : Keeps s0 (addErasure s ch sym cw) := by
  unfold addErasure
  extract_lets +onlyGivenNames u1
  have h1 : Keeps s0 u1 := by
    unfold u1
    refine Keeps.ite (fun _ => ?_) (fun _ => ?_)
    · exact State.wrs_keeps ‹_›
    · exact State.wrs_keeps ‹_›
  clear_value u1
  exact memRaise_keeps ‹_›

theorem persists_keeps {s0 s : State} {ch bank row cw sym : Nat} (h0 : Keeps s0 s) :
    Keeps s0 (persists s ch bank row cw sym) := by
  unfold persists
  extract_lets +onlyGivenNames u1 u2 u3 u4
  clear_value u1 u2 u3 u4
  extract_lets +onlyGivenNames u5
  have h1 : Keeps s0 u5 := Keeps.upd (t := s) rfl rfl rfl ‹_›
  clear_value u5
  refine Keeps.ite (fun _ => ?_) (fun _ => ?_)
  · exact addErasure_keeps ‹_›
  · exact spareRow_keeps ‹_›

theorem correctable_keeps {s0 s : State} {ch bank row cw n low : Nat} {still : Option Nat} (h0 : Keeps s0 s) :
    Keeps s0 (correctable s ch bank row cw n low still) := by
  unfold correctable
  extract_lets +onlyGivenNames u1
  clear_value u1
  extract_lets +onlyGivenNames u2
  have h1 : Keeps s0 u2 := State.bump_keeps ‹_›
  clear_value u2
  extract_lets +onlyGivenNames u3
  clear_value u3
  extract_lets +onlyGivenNames u4
  have h2 : Keeps s0 u4 := by
    unfold u4
    refine Keeps.ite (fun _ => ?_) (fun _ => ?_)
    · exact memRaise_keeps ‹_›
    · assumption
  clear_value u4
  split
  · exact persists_keeps ‹_›
  · assumption

theorem readCw_keeps {s0 s : State} {ch bank row cw : Nat} {find : CwFind} (h0 : Keeps s0 s) :
    Keeps s0 (readCw s ch bank row cw find).1 := by
  unfold readCw
  split
  · exact Keeps.mkFst ‹_›
  · extract_lets +onlyGivenNames u1
    have h1 : FstKeeps s0 u1 := by
      unfold u1
      exact FstKeeps.of (decodeCw_keeps ‹_›)
    clear_value u1
    extract_lets +onlyGivenNames u2
    have h2 : Keeps s0 u2 := by
      unfold u2
      assumption
    clear_value u2
    extract_lets +onlyGivenNames u3
    clear_value u3
    extract_lets +onlyGivenNames u4
    have h3 : Keeps s0 u4 := Keeps.upd (t := u2) rfl rfl rfl ‹_›
    clear_value u4
    split
    · exact Keeps.mkFst ‹_›
    · exact Keeps.mkFst (correctable_keeps ‹_›)
    · exact Keeps.mkFst (uncorrectable_keeps ‹_›)

theorem scrubPass_keeps {s0 s : State} (h0 : Keeps s0 s) : Keeps s0 (scrubPass s) := by
  unfold scrubPass
  extract_lets +onlyGivenNames u1
  have h1 : Keeps s0 u1 := State.raiseUnit_keeps ‹_›
  clear_value u1
  extract_lets +onlyGivenNames u2
  clear_value u2
  extract_lets +onlyGivenNames u3
  have h2 : Keeps s0 u3 := Keeps.upd (t := u1) rfl rfl rfl ‹_›
  clear_value u3
  exact State.wr_keeps ‹_›

theorem scrubCw_keeps {s0 s : State} {cw : Nat} {find : CwFind} (h0 : Keeps s0 s) : Keeps s0 (scrubCw s cw find) := by
  unfold scrubCw
  split
  · assumption
  · refine Keeps.ite (fun _ => ?_) (fun _ => ?_)
    · assumption
    · exact readCw_keeps ‹_›

theorem execScrubCfgWrite_keeps {s0 : State} {v : Word} {s : State} (h1 : Keeps s0 s) :
    OutAll (Keeps s0) (execScrubCfgWrite v s) := by
  unfold execScrubCfgWrite
  apply unlessNoImage_keeps
  · assumption
  · extract_lets +onlyGivenNames u1
    clear_value u1
    extract_lets +onlyGivenNames u2
    have h2 : Keeps s0 u2 := State.wrs_keeps ‹_›
    clear_value u2
    refine OutAll.next ?_
    refine Keeps.ite (fun _ => ?_) (fun _ => ?_)
    · exact State.wr_keeps ‹_›
    · assumption

theorem dropDram_keeps {s0 s : State} (h0 : Keeps s0 s) : Keeps s0 (dropDram s) := by
  unfold dropDram
  refine Keeps.updMem (t := s) rfl rfl (fun h => ?_) ?_
  · exact Memory.upper_wf _ h
  · assumption

theorem execMemLayoutWrite_keeps {s0 : State} {v : Word} {s : State} (h1 : Keeps s0 s) :
    OutAll (Keeps s0) (execMemLayoutWrite v s) := by
  unfold execMemLayoutWrite
  apply unlessNoImage_keeps
  · assumption
  · extract_lets +onlyGivenNames u1
    clear_value u1
    split
    · exact OutAll.next (State.wr_keeps ‹_›)
    · split
      · exact OutAll.next (State.wr_keeps ‹_›)
      · extract_lets +onlyGivenNames u2
        have h2 : Keeps s0 u2 := State.wrs_keeps ‹_›
        clear_value u2
        exact OutAll.next (State.wr_keeps (dropDram_keeps ‹_›))

theorem checkTarget_keeps {s0 s : State} {i : Nat} {target : Bool} (h0 : Keeps s0 s) : Keeps s0 (checkTarget s i target) := by
  unfold checkTarget
  refine Keeps.ite (fun _ => ?_) (fun _ => ?_)
  · assumption
  · extract_lets +onlyGivenNames u1
    clear_value u1
    extract_lets +onlyGivenNames u2
    have h1 : Keeps s0 u2 := by
      unfold u2
      refine Keeps.ite (fun _ => ?_) (fun _ => ?_)
      · exact Keeps.upd (t := s) rfl rfl rfl ‹_›
      · assumption
    clear_value u2
    exact markStale_keeps ‹_›

theorem execRegionValidSet_keeps {s0 : State} {i : Fin 1024} {v : Word} {target : Bool} {s : State} (h3 : Keeps s0 s) :
    OutAll (Keeps s0) (execRegionValidSet i v target s) := by
  unfold execRegionValidSet
  apply unlessNoImage_keeps
  · assumption
  · extract_lets +onlyGivenNames u1 u2
    clear_value u1 u2
    split
    · exact OutAll.next ‹_›
    · extract_lets +onlyGivenNames u3
      have h1 : Keeps s0 u3 := State.wrs_keeps ‹_›
      clear_value u3
      split
      · extract_lets +onlyGivenNames u4
        have h2 : Keeps s0 u4 := take_keeps (State.wr_keeps ‹_›)
        clear_value u4
        exact OutAll.next (checkTarget_keeps ‹_›)
      · exact OutAll.next (State.wr_keeps ‹_›)

theorem regionGone_keeps {s0 s : State} {k : Nat} (h0 : Keeps s0 s) : Keeps s0 (regionGone s k) := by
  unfold regionGone
  refine Keeps.ite (fun _ => ?_) (fun _ => ?_)
  · extract_lets +onlyGivenNames u1
    clear_value u1
    extract_lets +onlyGivenNames u2
    have h1 : Keeps s0 u2 := Keeps.upd (t := s) rfl rfl rfl ‹_›
    clear_value u2
    extract_lets +onlyGivenNames u3
    have h2 : Keeps s0 u3 := ckpRegionLost_keeps (loseVolumes_keeps ‹_›)
    clear_value u3
    extract_lets +onlyGivenNames u4 u5
    clear_value u4 u5
    extract_lets +onlyGivenNames u6
    have h3 : Keeps s0 u6 := Keeps.upd (t := u3) rfl rfl rfl ‹_›
    clear_value u6
    extract_lets +onlyGivenNames u7
    have h4 : Keeps s0 u7 := by
      unfold u7
      refine Keeps.foldl ?_ ?_
      · assumption
      · intro v1 v2 v3
        exact applyWrite_keeps ‹_›
    clear_value u7
    extract_lets +onlyGivenNames u8
    have h5 : Keeps s0 u8 := State.wrs_keeps ‹_›
    clear_value u8
    extract_lets +onlyGivenNames u9
    clear_value u9
    extract_lets +onlyGivenNames u10
    have h6 : Keeps s0 u10 := Keeps.upd (t := u8) rfl rfl rfl ‹_›
    clear_value u10
    exact give_keeps ‹_›
  · assumption

theorem regionClearing_keeps {s0 s : State} {k : Nat} (h0 : Keeps s0 s) : Keeps s0 (regionClearing s k) := by
  unfold regionClearing
  extract_lets +onlyGivenNames u1
  clear_value u1
  extract_lets +onlyGivenNames u2
  have h1 : Keeps s0 u2 := removeRegsIn_keeps ‹_›
  clear_value u2
  extract_lets +onlyGivenNames u3
  clear_value u3
  refine Keeps.ite (fun _ => ?_) (fun _ => ?_)
  · exact regionGone_keeps ‹_›
  · exact Keeps.upd (t := u2) rfl rfl rfl ‹_›

theorem regionClear_keeps {s0 s : State} {k : Nat} (h0 : Keeps s0 s) : Keeps s0 (regionClear s k) := by
  unfold regionClear
  refine Keeps.ite (fun _ => ?_) (fun _ => ?_)
  · exact regionClearing_keeps ‹_›
  · assumption

theorem clearRegions_keeps {s0 s : State} (h0 : Keeps s0 s) : Keeps s0 (clearRegions s) := by
  unfold clearRegions
  refine Keeps.foldl ?_ ?_
  · assumption
  · intro v1 v2 v3
    exact regionClearing_keeps ‹_›

/-! ### Machine/BringUp.lean -/

theorem powerLost_keeps {s0 s : State} (h0 : Keeps s0 s) : Keeps s0 (powerLost s) := by
  unfold powerLost
  refine Keeps.updBoth (t := s) rfl (fun h => ?_) (fun h => ?_) ?_
  · exact Regs.filter_wf _ h
  · exact Regs.nil_wf
  · assumption

theorem warmState_keeps {s0 s : State} (h0 : Keeps s0 s) : Keeps s0 (warmState s) := by
  unfold warmState
  extract_lets +onlyGivenNames u1 u2 u3 u4 u5 u6 u7
  clear_value u1 u2 u3 u4 u5 u6 u7
  extract_lets +onlyGivenNames u8
  have h1 : Keeps s0 u8 := by
    unfold u8
    refine Keeps.updBoth (t := s) rfl (fun h => ?_) (fun h => ?_) ?_
    · exact Regs.filter_wf _ h
    · exact Memory.lower_wf _ h
    · assumption
  clear_value u8
  extract_lets +onlyGivenNames u9
  have h2 : Keeps s0 u9 := by
    unfold u9
    refine Keeps.foldl ?_ ?_
    · assumption
    · intro v1 v2 v3
      exact State.wr_keeps ‹_›
  clear_value u9
  exact State.wrs_keeps ‹_›

theorem portsRelease_keeps {s0 s : State} (h0 : Keeps s0 s) : Keeps s0 (portsRelease s) := by
  unfold portsRelease
  refine Keeps.foldl ?_ ?_
  · assumption
  · intro v1 v2 v3
    exact State.setPort_keeps ‹_›

theorem portSilent_keeps {s0 s : State} {p : Nat} (h0 : Keeps s0 s) : Keeps s0 (portSilent s p) := by
  unfold portSilent
  exact State.wrs_keeps (State.setPort_keeps ‹_›)

theorem warmBegin_keeps {s0 s : State} {cause : Nat} (h0 : Keeps s0 s) : Keeps s0 (warmBegin s cause) := by
  unfold warmBegin
  refine Keeps.ite (fun _ => ?_) (fun _ => ?_)
  · extract_lets +onlyGivenNames u1
    have h1 : Keeps s0 u1 := State.wr_keeps ‹_›
    clear_value u1
    extract_lets +onlyGivenNames u2
    have h2 : Keeps s0 u2 := State.bumpSmall_keeps ‹_›
    clear_value u2
    exact portSilent_keeps (portSilent_keeps (Keeps.upd (t := u2) rfl rfl rfl ‹_›))
  · assumption

theorem execWarmReset_keeps {s0 : State} {key : BitVec 8} {s : State} (h1 : Keeps s0 s) :
    OutAll (Keeps s0) (execWarmReset key s) := by
  unfold execWarmReset
  refine OutAll.next ?_
  refine Keeps.ite (fun _ => ?_) (fun _ => ?_)
  · exact warmBegin_keeps ‹_›
  · assumption

theorem maybeStore_keeps {s0 s : State} {a : Nat} {l : List Byte} (h0 : Keeps s0 s) : Keeps s0 (maybeStore s a l) := by
  unfold maybeStore
  extract_lets +onlyGivenNames u1
  have h1 : SndKeeps s0 u1 := by
    unfold u1
    exact SndKeeps.of (State.freeBit_keeps ‹_›)
  clear_value u1
  refine Keeps.ite (fun _ => ?_) (fun _ => ?_)
  · exact State.putMem_keeps ‹_›
  · assumption

theorem enterNoImage_keeps {s0 s : State} (h0 : Keeps s0 s) : Keeps s0 (enterNoImage s) := by
  unfold enterNoImage
  extract_lets +onlyGivenNames u1
  have h1 : Keeps s0 u1 := State.wr_keeps ‹_›
  clear_value u1
  extract_lets +onlyGivenNames u2
  clear_value u2
  exact State.wr_keeps (State.setPort_keeps ‹_›)

theorem takeLog_keeps {s0 s : State} {log0 log1 : List Byte} (h0 : Keeps s0 s) : Keeps s0 (takeLog s log0 log1) := by
  unfold takeLog
  extract_lets +onlyGivenNames u1 u2
  clear_value u1 u2
  split
  · exact State.wr_keeps ‹_›
  · extract_lets +onlyGivenNames u3
    clear_value u3
    extract_lets +onlyGivenNames u4
    have h1 : Keeps s0 u4 := Keeps.upd (t := s) rfl rfl rfl ‹_›
    clear_value u4
    refine Keeps.ite (fun _ => ?_) (fun _ => ?_)
    · exact State.wr_keeps ‹_›
    · assumption

theorem applyRows_keeps {s0 s : State} (h0 : Keeps s0 s) : Keeps s0 (applyRows s) := by
  unfold applyRows
  refine Keeps.foldl ?_ ?_
  · assumption
  · intro v1 v2 v3
    extract_lets +onlyGivenNames u1 u2 u3
    clear_value u1 u2 u3
    extract_lets +onlyGivenNames u4
    have h1 : Keeps s0 u4 := Keeps.upd (t := v1) rfl rfl rfl ‹_›
    clear_value u4
    exact State.wr_keeps ‹_›

theorem writeRetire_keeps {s0 s : State} {l : List Nat} (h0 : Keeps s0 s) : Keeps s0 (writeRetire s l) := by
  unfold writeRetire
  refine Keeps.foldl ?_ ?_
  · assumption
  · intro v1 v2 v3
    split
    · exact State.wrs_keeps ‹_›
    · exact State.wrs_keeps ‹_›

theorem applyBanks_keeps {s0 s : State} (h0 : Keeps s0 s) : Keeps s0 (applyBanks s) := by
  unfold applyBanks
  extract_lets +onlyGivenNames u1 u2 u3 u4
  clear_value u1 u2 u3 u4
  extract_lets +onlyGivenNames u5
  have h1 : Keeps s0 u5 := writeRetire_keeps ‹_›
  clear_value u5
  extract_lets +onlyGivenNames u6
  clear_value u6
  extract_lets +onlyGivenNames u7
  have h2 : Keeps s0 u7 := Keeps.upd (t := u5) rfl rfl rfl ‹_›
  clear_value u7
  extract_lets +onlyGivenNames u8
  have h3 : Keeps s0 u8 := State.wrs_keeps ‹_›
  clear_value u8
  extract_lets +onlyGivenNames u9
  clear_value u9
  extract_lets +onlyGivenNames u10
  have h4 : Keeps s0 u10 := by
    unfold u10
    refine Keeps.foldl ?_ ?_
    · assumption
    · intro v1 v2 v3
      exact State.raiseUnit_keeps ‹_›
  clear_value u10
  extract_lets +onlyGivenNames u11
  have h5 : Keeps s0 u11 := by
    unfold u11
    refine Keeps.foldl ?_ ?_
    · assumption
    · intro v4 v5 v6
      exact serviceDue_keeps ‹_›
  clear_value u11
  refine Keeps.ite (fun _ => ?_) (fun _ => ?_)
  · assumption
  · exact dropDram_keeps (Keeps.upd (t := u11) rfl rfl rfl ‹_›)

theorem applyLayout_keeps {s0 s : State} (h0 : Keeps s0 s) : Keeps s0 (applyLayout s) := by
  unfold applyLayout
  extract_lets +onlyGivenNames u1 u2
  clear_value u1 u2
  refine Keeps.ite (fun _ => ?_) (fun _ => ?_)
  · assumption
  · extract_lets +onlyGivenNames u3
    clear_value u3
    exact dropDram_keeps (State.wrs_keeps (Keeps.upd (t := s) rfl rfl rfl ‹_›))

theorem noteFailed_keeps {s0 s : State} {u : Nat} (h0 : Keeps s0 s) : Keeps s0 (noteFailed s u) := by
  unfold noteFailed
  refine Keeps.ite (fun _ => ?_) (fun _ => ?_)
  · assumption
  · exact Keeps.upd (t := s) rfl rfl rfl ‹_›

theorem startTileOut_keeps {s0 s : State} {n : Nat} (h0 : Keeps s0 s) : Keeps s0 (startTileOut s n) := by
  unfold startTileOut
  extract_lets +onlyGivenNames u1
  clear_value u1
  exact serviceDue_keeps (State.wr_keeps (State.wr_keeps ‹_›))

theorem startCoreOut_keeps {s0 s : State} {k : Nat} (h0 : Keeps s0 s) : Keeps s0 (startCoreOut s k) := by
  unfold startCoreOut
  extract_lets +onlyGivenNames u1
  clear_value u1
  exact serviceDue_keeps (State.wr_keeps ‹_›)

theorem startTileFail_keeps {s0 s : State} {i : Nat} (h0 : Keeps s0 s) : Keeps s0 (startTileFail s i) := by
  unfold startTileFail
  extract_lets +onlyGivenNames u1
  have h1 : Keeps s0 u1 := noteFailed_keeps ‹_›
  clear_value u1
  refine Keeps.ite (fun _ => ?_) (fun _ => ?_)
  · extract_lets +onlyGivenNames u2 u3
    clear_value u2 u3
    refine Keeps.ite (fun _ => ?_) (fun _ => ?_)
    · exact startTileOut_keeps (State.wrs_keeps ‹_›)
    · exact State.wr_keeps ‹_›
  · refine Keeps.ite (fun _ => ?_) (fun _ => ?_)
    · assumption
    · refine Keeps.ite (fun _ => ?_) (fun _ => ?_)
      · exact State.wrs_keeps ‹_›
      · exact startTileOut_keeps ‹_›

theorem startCoreFail_keeps {s0 s : State} {c j : Nat} (h0 : Keeps s0 s) : Keeps s0 (startCoreFail s c j) := by
  unfold startCoreFail
  extract_lets +onlyGivenNames u1
  have h1 : Keeps s0 u1 := noteFailed_keeps ‹_›
  clear_value u1
  refine Keeps.ite (fun _ => ?_) (fun _ => ?_)
  · extract_lets +onlyGivenNames u2
    clear_value u2
    refine Keeps.ite (fun _ => ?_) (fun _ => ?_)
    · exact startCoreOut_keeps (State.wrs_keeps ‹_›)
    · exact State.wr_keeps ‹_›
  · refine Keeps.ite (fun _ => ?_) (fun _ => ?_)
    · assumption
    · refine Keeps.ite (fun _ => ?_) (fun _ => ?_)
      · exact State.wrs_keeps ‹_›
      · exact startCoreOut_keeps ‹_›

theorem startUnitMark_keeps {s0 s : State} {u : Nat} (h0 : Keeps s0 s) : Keeps s0 (startUnitMark s u) := by
  unfold startUnitMark
  extract_lets +onlyGivenNames u1
  clear_value u1
  split
  · refine Keeps.ite (fun _ => ?_) (fun _ => ?_)
    · assumption
    · exact Keeps.upd (t := s) rfl rfl rfl ‹_›
  · exact markOut_keeps ‹_›
  · assumption
  · assumption
  · refine Keeps.ite (fun _ => ?_) (fun _ => ?_)
    · assumption
    · exact Keeps.upd (t := s) rfl rfl rfl ‹_›
  · extract_lets +onlyGivenNames u2
    have h1 : Keeps s0 u2 := markOut_keeps ‹_›
    clear_value u2
    refine Keeps.ite (fun _ => ?_) (fun _ => ?_)
    · extract_lets +onlyGivenNames u3
      clear_value u3
      extract_lets +onlyGivenNames u4
      have h2 : Keeps s0 u4 := Keeps.upd (t := u2) rfl rfl rfl ‹_›
      clear_value u4
      refine Keeps.foldl ?_ ?_
      · assumption
      · intro v1 v2 v3
        exact markOut_keeps ‹_›
    · assumption
  · exact noteFailed_keeps ‹_›

theorem startFailures_keeps {s0 s : State} {units : List Nat} (h0 : Keeps s0 s) : Keeps s0 (startFailures s units) := by
  unfold startFailures
  extract_lets +onlyGivenNames u1
  clear_value u1
  extract_lets +onlyGivenNames u2
  have h1 : Keeps s0 u2 := by
    unfold u2
    refine Keeps.foldl ?_ ?_
    · assumption
    · intro v1 v2 v3
      exact startUnitMark_keeps ‹_›
  clear_value u2
  extract_lets +onlyGivenNames u3 u4
  clear_value u3 u4
  extract_lets +onlyGivenNames u5
  have h2 : Keeps s0 u5 := by
    unfold u5
    refine Keeps.foldl ?_ ?_
    · assumption
    · intro v4 v5 v6
      exact startTileFail_keeps ‹_›
  clear_value u5
  refine Keeps.foldl ?_ ?_
  · assumption
  · intro v7 v8 v9
    exact startCoreFail_keeps ‹_›

theorem startLaneFail_keeps {s0 s : State} {l : Nat} (h0 : Keeps s0 s) : Keeps s0 (startLaneFail s l) := by
  unfold startLaneFail
  extract_lets +onlyGivenNames u1
  clear_value u1
  refine Keeps.ite (fun _ => ?_) (fun _ => ?_)
  · exact State.wr_keeps ‹_›
  · refine Keeps.ite (fun _ => ?_) (fun _ => ?_)
    · refine Keeps.ite (fun _ => ?_) (fun _ => ?_)
      · exact State.wr_keeps ‹_›
      · assumption
    · refine Keeps.ite (fun _ => ?_) (fun _ => ?_)
      · exact carryLane_keeps ‹_›
      · extract_lets +onlyGivenNames u2
        have h1 : Keeps s0 u2 := State.wr_keeps ‹_›
        clear_value u2
        extract_lets +onlyGivenNames u3
        have h2 : Keeps s0 u3 := by
          unfold u3
          refine Keeps.ite (fun _ => ?_) (fun _ => ?_)
          · exact State.wr_keeps ‹_›
          · assumption
        clear_value u3
        refine Keeps.ite (fun _ => ?_) (fun _ => ?_)
        · assumption
        · exact serviceDue_keeps ‹_›

theorem showLaneSpares_keeps {s0 s : State} (h0 : Keeps s0 s) : Keeps s0 (showLaneSpares s) := by
  unfold showLaneSpares
  extract_lets +onlyGivenNames u1
  clear_value u1
  exact State.wr_keeps ‹_›

theorem showRoles_keeps {s0 s : State} (h0 : Keeps s0 s) : Keeps s0 (showRoles s) := by
  unfold showRoles
  extract_lets +onlyGivenNames u1
  have h1 : Keeps s0 u1 := by
    unfold u1
    refine Keeps.foldl ?_ ?_
    · assumption
    · intro v1 v2 v3
      exact State.wr_keeps ‹_›
  clear_value u1
  refine Keeps.foldl ?_ ?_
  · assumption
  · intro v4 v5 v6
    exact showSpareCore_keeps ‹_›

theorem applyUnits_keeps {s0 s : State} (h0 : Keeps s0 s) : Keeps s0 (applyUnits s) := by
  unfold applyUnits
  extract_lets +onlyGivenNames u1 u2
  clear_value u1 u2
  extract_lets +onlyGivenNames u3
  have h1 : Keeps s0 u3 := Keeps.upd (t := s) rfl rfl rfl ‹_›
  clear_value u3
  extract_lets +onlyGivenNames u4
  have h2 : Keeps s0 u4 := by
    unfold u4
    refine Keeps.foldl ?_ ?_
    · assumption
    · intro v1 v2 v3
      split
      · exact spareArrives_keeps ‹_›
      · exact unitReturns_keeps ‹_›
  clear_value u4
  extract_lets +onlyGivenNames u5
  have h3 : Keeps s0 u5 := by
    unfold u5
    refine Keeps.ite (fun _ => ?_) (fun _ => ?_)
    · refine Keeps.foldl ?_ ?_
      · assumption
      · intro v4 v5 v6
        exact State.wr_keeps ‹_›
    · exact startFailures_keeps ‹_›
  clear_value u5
  extract_lets +onlyGivenNames u6
  have h4 : Keeps s0 u6 := by
    unfold u6
    refine Keeps.foldl ?_ ?_
    · assumption
    · intro v7 v8 v9
      exact startLaneFail_keeps ‹_›
  clear_value u6
  extract_lets +onlyGivenNames u7
  have h5 : Keeps s0 u7 := by
    unfold u7
    refine Keeps.ite (fun _ => ?_) (fun _ => ?_)
    · assumption
    · exact showLaneSpares_keeps ‹_›
  clear_value u7
  exact refreshPools_keeps (showUnits_keeps (showRoles_keeps (Keeps.upd (t := u7) rfl rfl rfl ‹_›)))

theorem putWord_keeps {s0 s : State} {f : Fld} {i v : Nat} (h0 : Keeps s0 s) : Keeps s0 (putWord s f i v) := by
  unfold putWord
  exact State.setReg_keeps ‹_›

theorem applyHostRecord_keeps {s0 s : State} {r : List Byte} (h0 : Keeps s0 s) : Keeps s0 (applyHostRecord s r) := by
  unfold applyHostRecord
  extract_lets +onlyGivenNames u1 u2
  clear_value u1 u2
  extract_lets +onlyGivenNames u3
  have h1 : Keeps s0 u3 := State.setPort_keeps ‹_›
  clear_value u3
  extract_lets +onlyGivenNames u4
  have h2 : Keeps s0 u4 := State.wr_keeps ‹_›
  clear_value u4
  refine Keeps.ite (fun _ => ?_) (fun _ => ?_)
  · exact State.wr_keeps ‹_›
  · assumption

theorem applyFabricRecord_keeps {s0 s : State} {r : List Byte} (h0 : Keeps s0 s) : Keeps s0 (applyFabricRecord s r) := by
  unfold applyFabricRecord
  extract_lets +onlyGivenNames u1
  clear_value u1
  extract_lets +onlyGivenNames u2
  have h1 : Keeps s0 u2 := putWord_keeps ‹_›
  clear_value u2
  extract_lets +onlyGivenNames u3
  have h2 : Keeps s0 u3 := State.wr_keeps (State.wr_keeps ‹_›)
  clear_value u3
  extract_lets +onlyGivenNames u4
  have h3 : Keeps s0 u4 := State.wr_keeps ‹_›
  clear_value u4
  exact State.wrs_keeps ‹_›

theorem applyPortRecord_keeps {s0 s : State} {r : List Byte} (h0 : Keeps s0 s) : Keeps s0 (applyPortRecord s r) := by
  unfold applyPortRecord
  extract_lets +onlyGivenNames u1
  clear_value u1
  exact State.wrs_keeps ‹_›

theorem applyLinks_keeps {s0 s : State} {b : List Byte} (h0 : Keeps s0 s) : Keeps s0 (applyLinks s b) := by
  unfold applyLinks
  split
  · assumption
  · extract_lets +onlyGivenNames u1
    have h1 : Keeps s0 u1 := by
      unfold u1
      refine Keeps.foldl ?_ ?_
      · assumption
      · intro v1 v2 v3
        exact applyHostRecord_keeps ‹_›
    clear_value u1
    extract_lets +onlyGivenNames u2
    have h2 : Keeps s0 u2 := by
      unfold u2
      refine Keeps.foldl ?_ ?_
      · assumption
      · intro v4 v5 v6
        exact applyFabricRecord_keeps ‹_›
    clear_value u2
    refine Keeps.foldl ?_ ?_
    · assumption
    · intro v7 v8 v9
      exact applyPortRecord_keeps ‹_›

theorem applyPoolDefaults_keeps {s0 s : State} {b : List Byte} (h0 : Keeps s0 s) : Keeps s0 (applyPoolDefaults s b) := by
  unfold applyPoolDefaults
  exact putWord_keeps (putWord_keeps ‹_›)

theorem applyTwin_keeps {s0 s : State} {b : List Byte} (h0 : Keeps s0 s) : Keeps s0 (applyTwin s b) := by
  unfold applyTwin
  extract_lets +onlyGivenNames u1
  have h1 : Keeps s0 u1 := State.wrs_keeps ‹_›
  clear_value u1
  extract_lets +onlyGivenNames u2
  have h2 : Keeps s0 u2 := by
    unfold u2
    refine Keeps.foldl ?_ ?_
    · assumption
    · intro v1 v2 v3
      exact State.wr_keeps (State.wr_keeps ‹_›)
  clear_value u2
  refine Keeps.ite (fun _ => ?_) (fun _ => ?_)
  · exact enterPairing_keeps ‹_›
  · assumption

theorem applyUst_keeps {s0 s : State} {b : List Byte} (h0 : Keeps s0 s) : Keeps s0 (applyUst s b) := by
  unfold applyUst
  extract_lets +onlyGivenNames u1
  have h1 : Keeps s0 u1 := by
    unfold u1
    refine Keeps.foldl ?_ ?_
    · assumption
    · intro v1 v2 v3
      exact State.wrs_keeps ‹_›
  clear_value u1
  extract_lets +onlyGivenNames u2
  have h2 : Keeps s0 u2 := by
    unfold u2
    refine Keeps.foldl ?_ ?_
    · assumption
    · intro v4 v5 v6
      extract_lets +onlyGivenNames u3
      clear_value u3
      exact grpEnable_keeps (putWord_keeps (putWord_keeps ‹_›))
  clear_value u2
  exact State.wr_keeps ‹_›

theorem applyCrossings_keeps {s0 s : State} {b : List Byte} (h0 : Keeps s0 s) : Keeps s0 (applyCrossings s b) := by
  unfold applyCrossings
  exact State.wrs_keeps ‹_›

theorem applyPower_keeps {s0 s : State} {b : List Byte} (h0 : Keeps s0 s) : Keeps s0 (applyPower s b) := by
  unfold applyPower
  extract_lets +onlyGivenNames u1
  have h1 : Keeps s0 u1 := State.wrs_keeps ‹_›
  clear_value u1
  exact raiseLevel_keeps (State.wr_keeps (defaultClocks_keeps ‹_›))

theorem withSection_keeps {s0 s : State} {type : Nat} {f : State → List Byte → State} (h0 : Keeps s0 s)
    (h2 : ∀ a00 a01, Keeps s0 a00 → Keeps s0 (f a00 a01)) : Keeps s0 (withSection s type f) := by
  unfold withSection
  split
  · apply h2
    assumption
  · assumption

theorem applyPolicies_keeps {s0 s : State} (h0 : Keeps s0 s) : Keeps s0 (applyPolicies s) := by
  unfold applyPolicies
  apply withSection_keeps
  · assumption
  · intro v1 v2 v3
    exact Keeps.upd (t := v1) rfl rfl rfl ‹_›

theorem twinDefaults_keeps {s0 s : State} (h0 : Keeps s0 s) : Keeps s0 (twinDefaults s) := by
  unfold twinDefaults
  exact State.wrs_keeps ‹_›

theorem applySettings_keeps {s0 s : State} (h0 : Keeps s0 s) : Keeps s0 (applySettings s) := by
  unfold applySettings
  extract_lets +onlyGivenNames u1
  have h1 : Keeps s0 u1 := twinDefaults_keeps ‹_›
  clear_value u1
  extract_lets +onlyGivenNames u2
  have h2 : Keeps s0 u2 := by
    unfold u2
    apply withSection_keeps
    · assumption
    · intro v1 v2 v3
      exact applyLinks_keeps ‹_›
  clear_value u2
  extract_lets +onlyGivenNames u3
  have h3 : Keeps s0 u3 := by
    unfold u3
    apply withSection_keeps
    · assumption
    · intro v4 v5 v6
      exact applyPoolDefaults_keeps ‹_›
  clear_value u3
  extract_lets +onlyGivenNames u4
  have h4 : Keeps s0 u4 := by
    unfold u4
    apply withSection_keeps
    · assumption
    · intro v7 v8 v9
      exact applyPower_keeps ‹_›
  clear_value u4
  extract_lets +onlyGivenNames u5
  have h5 : Keeps s0 u5 := by
    unfold u5
    apply withSection_keeps
    · assumption
    · intro v10 v11 v12
      exact applyCrossings_keeps ‹_›
  clear_value u5
  extract_lets +onlyGivenNames u6
  have h6 : Keeps s0 u6 := by
    unfold u6
    apply withSection_keeps
    · assumption
    · intro v13 v14 v15
      exact applyUst_keeps ‹_›
  clear_value u6
  apply withSection_keeps
  · assumption
  · intro v16 v17 v18
    exact applyTwin_keeps ‹_›

theorem startLinks_keeps {s0 s : State} (h0 : Keeps s0 s) : Keeps s0 (startLinks s) := by
  unfold startLinks
  extract_lets +onlyGivenNames u1
  have h1 : Keeps s0 u1 := by
    unfold u1
    refine Keeps.foldl ?_ ?_
    · assumption
    · intro v1 v2 v3
      exact State.wr_keeps ‹_›
  clear_value u1
  extract_lets +onlyGivenNames u2
  have h2 : Keeps s0 u2 := by
    unfold u2
    refine Keeps.foldl ?_ ?_
    · assumption
    · intro v4 v5 v6
      exact State.wr_keeps ‹_›
  clear_value u2
  extract_lets +onlyGivenNames u3
  have h3 : Keeps s0 u3 := by
    unfold u3
    refine Keeps.foldl ?_ ?_
    · assumption
    · intro v7 v8 v9
      exact portStart_keeps ‹_›
  clear_value u3
  refine Keeps.foldl ?_ ?_
  · assumption
  · intro v10 v11 v12
    exact tileTrain_keeps ‹_›

theorem writebackStart_keeps {s0 s : State} (h0 : Keeps s0 s) : Keeps s0 (writebackStart s) := by
  unfold writebackStart
  refine Keeps.ite (fun _ => ?_) (fun _ => ?_)
  · assumption
  · refine Keeps.ite (fun _ => ?_) (fun _ => ?_)
    · exact State.wr_keeps ‹_›
    · extract_lets +onlyGivenNames u1
      clear_value u1
      exact Keeps.upd (t := s) rfl rfl rfl ‹_›

theorem fwStatus_keeps {s0 s : State} {st : Nat} (h0 : Keeps s0 s) : Keeps s0 (fwStatus s st) := by
  unfold fwStatus
  exact State.wr_keeps ‹_›

theorem fwLoad_keeps {s0 s : State} {p : Nat} (h0 : Keeps s0 s) : Keeps s0 (fwLoad s p) := by
  unfold fwLoad
  extract_lets +onlyGivenNames u1
  clear_value u1
  refine Keeps.ite (fun _ => ?_) (fun _ => ?_)
  · assumption
  · refine Keeps.ite (fun _ => ?_) (fun _ => ?_)
    · exact fwStatus_keeps ‹_›
    · refine Keeps.ite (fun _ => ?_) (fun _ => ?_)
      · exact fwStatus_keeps ‹_›
      · refine Keeps.ite (fun _ => ?_) (fun _ => ?_)
        · exact fwStatus_keeps ‹_›
        · refine Keeps.ite (fun _ => ?_) (fun _ => ?_)
          · exact fwStatus_keeps ‹_›
          · exact State.wrs_keeps (Keeps.upd (t := s) rfl rfl rfl ‹_›)

theorem fwDiscard_keeps {s0 s : State} {st : Nat} (h0 : Keeps s0 s) : Keeps s0 (fwDiscard s st) := by
  unfold fwDiscard
  extract_lets +onlyGivenNames u1
  have h1 : Keeps s0 u1 := loadFailed_keeps (stopImage_keeps ‹_›)
  clear_value u1
  exact State.wr_keeps (Keeps.upd (t := u1) rfl rfl rfl ‹_›)

theorem publishFeatures_keeps {s0 s : State} {img : List Byte} (h0 : Keeps s0 s) : Keeps s0 (publishFeatures s img) := by
  unfold publishFeatures
  extract_lets +onlyGivenNames u1
  have h1 : Keeps s0 u1 := State.wr_keeps (State.wr_keeps ‹_›)
  clear_value u1
  exact State.wrs_keeps ‹_›

theorem negotiateCmd_keeps {s0 s : State} (h0 : Keeps s0 s) : Keeps s0 (negotiateCmd s) := by
  unfold negotiateCmd
  refine Keeps.ite (fun _ => ?_) (fun _ => ?_)
  · assumption
  · refine Keeps.ite (fun _ => ?_) (fun _ => ?_)
    · exact fwStatus_keeps ‹_›
    · refine Keeps.ite (fun _ => ?_) (fun _ => ?_)
      · exact fwStatus_keeps ‹_›
      · refine Keeps.ite (fun _ => ?_) (fun _ => ?_)
        · exact fwStatus_keeps (State.wr_keeps (State.wr_keeps ‹_›))
        · extract_lets +onlyGivenNames u1
          clear_value u1
          extract_lets +onlyGivenNames u2
          have h1 : Keeps s0 u2 := State.wr_keeps (State.wr_keeps ‹_›)
          clear_value u2
          extract_lets +onlyGivenNames u3
          have h2 : Keeps s0 u3 := by
            unfold u3
            refine Keeps.ite (fun _ => ?_) (fun _ => ?_)
            · assumption
            · exact State.wr_keeps (State.wr_keeps (State.wr_keeps ‹_›))
          clear_value u3
          exact fwStatus_keeps (refreshPools_keeps ‹_›)

/-! ### Machine/Pins.lean -/

theorem powerDown_keeps {s0 s : State} {cause dead : Nat} (h0 : Keeps s0 s) : Keeps s0 (powerDown s cause dead) := by
  unfold powerDown
  extract_lets +onlyGivenNames u1
  have h1 : Keeps s0 u1 := State.wr_keeps (powerLost_keeps ‹_›)
  clear_value u1
  exact Keeps.upd (t := u1) rfl rfl rfl ‹_›

theorem portLeaves_keeps {s0 s : State} {p : Nat} (h0 : Keeps s0 s) : Keeps s0 (portLeaves s p) := by
  unfold portLeaves
  refine Keeps.ite (fun _ => ?_) (fun _ => ?_)
  · exact State.setPort_keeps ‹_›
  · assumption

theorem lanesStop_keeps {s0 s : State} (h0 : Keeps s0 s) : Keeps s0 (lanesStop s) := by
  unfold lanesStop
  extract_lets +onlyGivenNames u1
  clear_value u1
  extract_lets +onlyGivenNames u2
  have h1 : Keeps s0 u2 := Keeps.upd (t := s) rfl rfl rfl ‹_›
  clear_value u2
  extract_lets +onlyGivenNames u3
  have h2 : Keeps s0 u3 := by
    unfold u3
    refine Keeps.foldl ?_ ?_
    · assumption
    · intro v1 v2 v3
      exact State.wr_keeps ‹_›
  clear_value u3
  extract_lets +onlyGivenNames u4
  have h3 : Keeps s0 u4 := by
    unfold u4
    refine Keeps.foldl ?_ ?_
    · assumption
    · intro v4 v5 v6
      exact State.wr_keeps ‹_›
  clear_value u4
  extract_lets +onlyGivenNames u5
  have h4 : Keeps s0 u5 := by
    unfold u5
    refine Keeps.foldl ?_ ?_
    · assumption
    · intro v7 v8 v9
      exact State.wr_keeps (State.wr_keeps ‹_›)
  clear_value u5
  exact State.wrs_keeps ‹_›

/-! ### Machine/Power.lean -/

theorem fwStoreWrite_keeps {s0 s : State} {v : Nat} (h0 : Keeps s0 s) : Keeps s0 (fwStoreWrite s v) := by
  unfold fwStoreWrite
  extract_lets +onlyGivenNames u1 u2
  clear_value u1 u2
  refine Keeps.ite (fun _ => ?_) (fun _ => ?_)
  · refine Keeps.ite (fun _ => ?_) (fun _ => ?_)
    · assumption
    · exact State.wr_keeps ‹_›
  · extract_lets +onlyGivenNames u3
    have h1 : Keeps s0 u3 := State.wr_keeps ‹_›
    clear_value u3
    refine Keeps.ite (fun _ => ?_) (fun _ => ?_)
    · exact State.wr_keeps (Keeps.upd (t := u3) rfl rfl rfl ‹_›)
    · assumption

theorem fwRestart_keeps {s0 s : State} (h0 : Keeps s0 s) : Keeps s0 (fwRestart s) := by
  unfold fwRestart
  extract_lets +onlyGivenNames u1
  clear_value u1
  extract_lets +onlyGivenNames u2
  have h1 : Keeps s0 u2 := Keeps.upd (t := s) rfl rfl rfl ‹_›
  clear_value u2
  split
  · exact State.wr_keeps (setAct_keeps ‹_›)
  · exact State.wr_keeps (setAct_keeps (State.wr_keeps ‹_›))
  · assumption

theorem fwPiece_keeps {s0 s : State} {q : Nat} {c : Cmd} {off n : Nat} {l : List Byte} (h0 : Keeps s0 s) :
    Keeps s0 (fwPiece s q c off n l) := by
  unfold fwPiece
  extract_lets +onlyGivenNames u1
  have h1 : Keeps s0 u1 := by
    unfold u1
    refine Keeps.ite (fun _ => ?_) (fun _ => ?_)
    · exact fwRestart_keeps ‹_›
    · assumption
  clear_value u1
  extract_lets +onlyGivenNames u2
  have h2 : FstKeeps s0 u2 := by
    unfold u2
    exact FstKeeps.of (State.putMem_keeps ‹_›)
  clear_value u2
  refine Keeps.ite (fun _ => ?_) (fun _ => ?_)
  · exact stqEnd_keeps ‹_›
  · extract_lets +onlyGivenNames u3
    have h3 : Keeps s0 u3 := by
      unfold u3
      assumption
    clear_value u3
    extract_lets +onlyGivenNames u4
    clear_value u4
    extract_lets +onlyGivenNames u5
    have h4 : Keeps s0 u5 := Keeps.upd (t := u3) rfl rfl rfl ‹_›
    clear_value u5
    exact stqEnd_keeps ‹_›

theorem commitEnd_keeps {s0 s : State} {status : Nat} (h0 : Keeps s0 s) : Keeps s0 (commitEnd s status) := by
  unfold commitEnd
  split
  · exact stqEnd_keeps (Keeps.upd (t := s) rfl rfl rfl ‹_›)
  · assumption

theorem enterQuiesce_keeps {s0 s : State} (h0 : Keeps s0 s) : Keeps s0 (enterQuiesce s) := by
  unfold enterQuiesce
  extract_lets +onlyGivenNames u1
  clear_value u1
  extract_lets +onlyGivenNames u2
  have h1 : Keeps s0 u2 := Keeps.upd (t := s) rfl rfl rfl ‹_›
  clear_value u2
  extract_lets +onlyGivenNames u3
  have h2 : Keeps s0 u3 := defaultClocks_keeps (setAct_keeps ‹_›)
  clear_value u3
  refine Keeps.foldl ?_ ?_
  · assumption
  · intro v1 v2 v3
    extract_lets +onlyGivenNames u4
    have h3 : Keeps s0 u4 := dbgResume_keeps ‹_›
    clear_value u4
    exact Keeps.upd (t := u4) rfl rfl rfl ‹_›

theorem activate_keeps {s0 s : State} (h0 : Keeps s0 s) : Keeps s0 (activate s) := by
  unfold activate
  refine Keeps.ite (fun _ => ?_) (fun _ => ?_)
  · exact commitEnd_keeps (setAct_keeps (State.wr_keeps ‹_›))
  · exact enterQuiesce_keeps ‹_›

theorem showPause_keeps {s0 s : State} (h0 : Keeps s0 s) : Keeps s0 (showPause s) := by
  unfold showPause
  exact State.wr_keeps ‹_›

/-! ### Machine/Offload.lean -/

theorem oflStatus_keeps {s0 s : State} {st : Nat} (h0 : Keeps s0 s) : Keeps s0 (oflStatus s st) := by
  unfold oflStatus
  exact State.wrs_keeps (Keeps.upd (t := s) rfl rfl rfl ‹_›)

theorem oflBusy_keeps {s0 s : State} {op slot : Nat} (h0 : Keeps s0 s) : Keeps s0 (oflBusy s op slot) := by
  unfold oflBusy
  exact State.wrs_keeps (Keeps.upd (t := s) rfl rfl rfl ‹_›)

theorem takeCore_keeps {s0 s : State} {slot g : Nat} {body : List Byte} {k : Nat} (h0 : Keeps s0 s) :
    Keeps s0 (takeCore s slot g body k) := by
  unfold takeCore
  extract_lets +onlyGivenNames u1
  have h1 : Keeps s0 u1 := localStore_keeps (zeroCore_keeps ‹_›)
  clear_value u1
  exact State.wrs_keeps ‹_›

theorem oflLoad_keeps {s0 s : State} {slot : Nat} (h0 : Keeps s0 s) : Keeps s0 (oflLoad s slot) := by
  unfold oflLoad
  split
  · apply oflStatus_keeps
    refine Keeps.ite (fun _ => ?_) (fun _ => ?_)
    · exact State.noteRead_keeps ‹_›
    · assumption
  · extract_lets +onlyGivenNames u1 u2 u3 u4
    clear_value u1 u2 u3 u4
    extract_lets +onlyGivenNames u5
    have h1 : Keeps s0 u5 := by
      unfold u5
      refine Keeps.foldl ?_ ?_
      · assumption
      · intro v1 v2 v3
        exact takeCore_keeps ‹_›
    clear_value u5
    extract_lets +onlyGivenNames u6
    clear_value u6
    extract_lets +onlyGivenNames u7
    have h2 : Keeps s0 u7 := Keeps.upd (t := u5) rfl rfl rfl ‹_›
    clear_value u7
    extract_lets +onlyGivenNames u8
    have h3 : Keeps s0 u8 := extendMeasurement_keeps (take_keeps ‹_›)
    clear_value u8
    exact oflBusy_keeps ‹_›

theorem coreStart_keeps {s0 s : State} {slot n : Nat} {p : Nat × Nat} (h0 : Keeps s0 s) :
    Keeps s0 (coreStart s slot n p) := by
  unfold coreStart
  extract_lets +onlyGivenNames u1
  clear_value u1
  extract_lets +onlyGivenNames u2
  have h1 : Keeps s0 u2 := State.setCore_keeps (State.dropWait_keeps ‹_›)
  clear_value u2
  exact showCore_keeps ‹_›

theorem oflRun_keeps {s0 s : State} {slot : Nat} (h0 : Keeps s0 s) : Keeps s0 (oflRun s slot) := by
  unfold oflRun
  refine Keeps.ite (fun _ => ?_) (fun _ => ?_)
  · extract_lets +onlyGivenNames u1
    clear_value u1
    extract_lets +onlyGivenNames u2
    have h1 : Keeps s0 u2 := by
      unfold u2
      refine Keeps.foldl ?_ ?_
      · exact State.wr_keeps ‹_›
      · intro v1 v2 v3
        exact coreStart_keeps ‹_›
    clear_value u2
    exact oflStatus_keeps ‹_›
  · exact oflStatus_keeps ‹_›

theorem oflStop_keeps {s0 s : State} {slot : Nat} (h0 : Keeps s0 s) : Keeps s0 (oflStop s slot) := by
  unfold oflStop
  refine Keeps.ite (fun _ => ?_) (fun _ => ?_)
  · exact oflBusy_keeps ‹_›
  · exact oflStatus_keeps ‹_›

theorem freeCore_keeps {s0 s : State} {k : Nat} (h0 : Keeps s0 s) : Keeps s0 (freeCore s k) := by
  unfold freeCore
  exact State.wrs_keeps (zeroCore_keeps ‹_›)

theorem oflUnload_keeps {s0 s : State} {slot : Nat} (h0 : Keeps s0 s) : Keeps s0 (oflUnload s slot) := by
  unfold oflUnload
  refine Keeps.ite (fun _ => ?_) (fun _ => ?_)
  · extract_lets +onlyGivenNames u1
    clear_value u1
    extract_lets +onlyGivenNames u2
    have h1 : Keeps s0 u2 := by
      unfold u2
      refine Keeps.foldl ?_ ?_
      · assumption
      · intro v1 v2 v3
        exact freeCore_keeps ‹_›
    clear_value u2
    extract_lets +onlyGivenNames u3
    clear_value u3
    extract_lets +onlyGivenNames u4
    have h2 : Keeps s0 u4 := Keeps.upd (t := u2) rfl rfl rfl ‹_›
    clear_value u4
    exact oflStatus_keeps (give_keeps (State.wr_keeps ‹_›))
  · exact oflStatus_keeps ‹_›

theorem oflStart_keeps {s0 s : State} {op slot : Nat} (h0 : Keeps s0 s) : Keeps s0 (oflStart s op slot) := by
  unfold oflStart
  extract_lets +onlyGivenNames u1
  have h1 : Keeps s0 u1 := State.wrs_keeps ‹_›
  clear_value u1
  refine Keeps.ite (fun _ => ?_) (fun _ => ?_)
  · exact holdStart_keeps ‹_›
  · refine Keeps.ite (fun _ => ?_) (fun _ => ?_)
    · assumption
    · split
      · exact oflLoad_keeps ‹_›
      · exact oflRun_keeps ‹_›
      · exact oflStop_keeps ‹_›
      · exact oflUnload_keeps ‹_›
      · exact oflStatus_keeps ‹_›

theorem runHeld_keeps {s0 s : State} (h0 : Keeps s0 s) : Keeps s0 (runHeld s) := by
  unfold runHeld
  refine Keeps.foldl ?_ ?_
  · exact Keeps.upd (t := s) rfl rfl rfl ‹_›
  · intro v1 v2 v3
    split
    · exact keyStart_keeps ‹_›
    · exact attStart_keeps ‹_›
    · exact oflStart_keeps ‹_›
    · refine Keeps.ite (fun _ => ?_) (fun _ => ?_)
      · assumption
      · exact svcRun_keeps ‹_›

theorem controlBack_keeps {s0 s : State} (h0 : Keeps s0 s) : Keeps s0 (controlBack s) := by
  unfold controlBack
  apply ckpResume_keeps
  refine Keeps.ite (fun _ => ?_) (fun _ => ?_)
  · exact resumeLoops_keeps (runHeld_keeps ‹_›)
  · assumption

/-! ### Machine/Thermal.lean -/

theorem levelSettled_keeps {s0 s : State} (h0 : Keeps s0 s) : Keeps s0 (levelSettled s) := by
  unfold levelSettled
  refine Keeps.ite (fun _ => ?_) (fun _ => ?_)
  · extract_lets +onlyGivenNames u1
    have h1 : Keeps s0 u1 := State.wr_keeps (showPause_keeps ‹_›)
    clear_value u1
    exact controlBack_keeps (commitEnd_keeps (setAct_keeps ‹_›))
  · assumption

theorem setLimiter_keeps {s0 s : State} {on : Bool} {avg : Nat} (h0 : Keeps s0 s) : Keeps s0 (setLimiter s on avg) := by
  unfold setLimiter
  extract_lets +onlyGivenNames u1
  have h1 : Keeps s0 u1 := showClocks_keeps (State.wr_keeps ‹_›)
  clear_value u1
  extract_lets +onlyGivenNames u2
  have h2 : Keeps s0 u2 := by
    unfold u2
    refine Keeps.ite (fun _ => ?_) (fun _ => ?_)
    · exact State.bump_keeps ‹_›
    · assumption
  clear_value u2
  exact State.raiseUnit_keeps ‹_›

theorem limiterStep_keeps {s0 s : State} (h0 : Keeps s0 s) : Keeps s0 (limiterStep s) := by
  unfold limiterStep
  extract_lets +onlyGivenNames u1 u2 u3
  clear_value u1 u2 u3
  refine Keeps.ite (fun _ => ?_) (fun _ => ?_)
  · refine Keeps.ite (fun _ => ?_) (fun _ => ?_)
    · exact setLimiter_keeps ‹_›
    · assumption
  · refine Keeps.ite (fun _ => ?_) (fun _ => ?_)
    · exact setLimiter_keeps ‹_›
    · assumption

theorem capTick_keeps {s0 s : State} (h0 : Keeps s0 s) : Keeps s0 (capTick s) := by
  unfold capTick
  refine Keeps.ite (fun _ => ?_) (fun _ => ?_)
  · refine Keeps.ite (fun _ => ?_) (fun _ => ?_)
    · exact State.bump_keeps (Keeps.upd (t := s) rfl rfl rfl ‹_›)
    · exact Keeps.upd (t := s) rfl rfl rfl ‹_›
  · assumption

theorem pwrLimitWrite_keeps {s0 s : State} {v : Nat} (h0 : Keeps s0 s) : Keeps s0 (pwrLimitWrite s v) := by
  unfold pwrLimitWrite
  refine Keeps.ite (fun _ => ?_) (fun _ => ?_)
  · exact Keeps.upd (t := s) rfl rfl rfl ‹_›
  · exact limitApply_keeps ‹_›

theorem thermCfgWrite_keeps {s0 s : State} {v : Nat} (h0 : Keeps s0 s) : Keeps s0 (thermCfgWrite s v) := by
  unfold thermCfgWrite
  extract_lets +onlyGivenNames u1 u2 u3 u4 u5
  clear_value u1 u2 u3 u4 u5
  refine Keeps.ite (fun _ => ?_) (fun _ => ?_)
  · assumption
  · refine Keeps.ite (fun _ => ?_) (fun _ => ?_)
    · exact levelSettled_keeps (raiseLevel_keeps (State.wrs_keeps ‹_›))
    · assumption

theorem hwCfgWrite_keeps {s0 s : State} {v : Nat} (h0 : Keeps s0 s) : Keeps s0 (hwCfgWrite s v) := by
  unfold hwCfgWrite
  refine Keeps.ite (fun _ => ?_) (fun _ => ?_)
  · assumption
  · refine Keeps.ite (fun _ => ?_) (fun _ => ?_)
    · exact State.wrs_keeps ‹_›
    · assumption

/-! ### Machine/Crossings.lean -/

theorem flagCrossing_keeps {s0 s : State} {f : Fld} {near far class_ : Nat} (h0 : Keeps s0 s) :
    Keeps s0 (flagCrossing s f near far class_) := by
  unfold flagCrossing
  extract_lets +onlyGivenNames u1
  have h1 : Keeps s0 u1 := by
    unfold u1
    refine Keeps.ite (fun _ => ?_) (fun _ => ?_)
    · assumption
    · exact State.wrs_keeps ‹_›
  clear_value u1
  exact State.wr_keeps ‹_›

theorem secLost_keeps {s0 s : State} (h0 : Keeps s0 s) : Keeps s0 (secLost s) := by
  unfold secLost
  extract_lets +onlyGivenNames u1
  have h1 : Keeps s0 u1 := by
    unfold u1
    refine Keeps.ite (fun _ => ?_) (fun _ => ?_)
    · exact State.wrs_keeps ‹_›
    · assumption
  clear_value u1
  extract_lets +onlyGivenNames u2
  have h2 : Keeps s0 u2 := by
    unfold u2
    refine Keeps.ite (fun _ => ?_) (fun _ => ?_)
    · exact State.wrs_keeps ‹_›
    · assumption
  clear_value u2
  extract_lets +onlyGivenNames u3
  have h3 : Keeps s0 u3 := by
    unfold u3
    refine Keeps.ite (fun _ => ?_) (fun _ => ?_)
    · exact State.wrs_keeps ‹_›
    · assumption
  clear_value u3
  extract_lets +onlyGivenNames u4
  have h4 : Keeps s0 u4 := by
    unfold u4
    refine Keeps.ite (fun _ => ?_) (fun _ => ?_)
    · exact State.wr_keeps ‹_›
    · assumption
  clear_value u4
  extract_lets +onlyGivenNames u5
  have h5 : Keeps s0 u5 := by
    unfold u5
    refine Keeps.ite (fun _ => ?_) (fun _ => ?_)
    · exact State.wr_keeps ‹_›
    · assumption
  clear_value u5
  exact Keeps.upd (t := u5) rfl rfl rfl ‹_›

theorem flashLost_keeps {s0 s : State} (h0 : Keeps s0 s) : Keeps s0 (flashLost s) := by
  unfold flashLost
  extract_lets +onlyGivenNames u1
  have h1 : Keeps s0 u1 := by
    unfold u1
    refine Keeps.ite (fun _ => ?_) (fun _ => ?_)
    · exact State.wr_keeps ‹_›
    · assumption
  clear_value u1
  refine Keeps.ite (fun _ => ?_) (fun _ => ?_)
  · exact State.wr_keeps (Keeps.upd (t := u1) rfl rfl rfl ‹_›)
  · assumption

theorem trailLost_keeps {s0 s : State} (h0 : Keeps s0 s) : Keeps s0 (trailLost s) := by
  unfold trailLost
  exact Keeps.upd (t := s) rfl rfl rfl ‹_›

theorem ctrWaitLost_keeps {s0 s : State} {w : Wait} (h0 : Keeps s0 s) : Keeps s0 (ctrWaitLost s w) := by
  unfold ctrWaitLost
  split
  · split
    · exact State.complete_keeps (State.dropWait_keeps ‹_›)
    · assumption
  · assumption

theorem ustLost_keeps {s0 s : State} (h0 : Keeps s0 s) : Keeps s0 (ustLost s) := by
  unfold ustLost
  extract_lets +onlyGivenNames u1
  have h1 : Keeps s0 u1 := by
    unfold u1
    refine Keeps.foldl ?_ ?_
    · assumption
    · intro v1 v2 v3
      exact linkDown_keeps ‹_›
  clear_value u1
  extract_lets +onlyGivenNames u2
  have h2 : Keeps s0 u2 := by
    unfold u2
    refine Keeps.foldl ?_ ?_
    · assumption
    · intro v4 v5 v6
      exact grpDown_keeps ‹_›
  clear_value u2
  refine Keeps.foldl ?_ ?_
  · assumption
  · intro v7 v8 v9
    exact ctrWaitLost_keeps ‹_›

theorem twinPortLost_keeps {s0 s : State} {t lane : Nat} (h0 : Keeps s0 s) : Keeps s0 (twinPortLost s t lane) := by
  unfold twinPortLost
  extract_lets +onlyGivenNames u1
  clear_value u1
  extract_lets +onlyGivenNames u2
  have h1 : Keeps s0 u2 := by
    unfold u2
    refine Keeps.ite (fun _ => ?_) (fun _ => ?_)
    · exact State.wr_keeps ‹_›
    · exact State.wr_keeps ‹_›
  clear_value u2
  extract_lets +onlyGivenNames u3
  have h2 : Keeps s0 u3 := setLane_keeps (laneSettled_keeps ‹_›)
  clear_value u3
  extract_lets +onlyGivenNames u4
  have h3 : Keeps s0 u4 := setLane_keeps (laneSettled_keeps ‹_›)
  clear_value u4
  refine Keeps.ite (fun _ => ?_) (fun _ => ?_)
  · exact linkDead_keeps ‹_›
  · assumption

theorem groveLost_keeps {s0 s : State} {g : Nat} (h0 : Keeps s0 s) : Keeps s0 (groveLost s g) := by
  unfold groveLost
  refine Keeps.ite (fun _ => ?_) (fun _ => ?_)
  · exact pairFail_keeps ‹_›
  · refine Keeps.ite (fun _ => ?_) (fun _ => ?_)
    · exact secLost_keeps ‹_›
    · refine Keeps.ite (fun _ => ?_) (fun _ => ?_)
      · exact flashLost_keeps ‹_›
      · refine Keeps.ite (fun _ => ?_) (fun _ => ?_)
        · refine Keeps.ite (fun _ => ?_) (fun _ => ?_)
          · exact powerDown_keeps ‹_›
          · assumption
        · refine Keeps.ite (fun _ => ?_) (fun _ => ?_)
          · exact trailLost_keeps ‹_›
          · refine Keeps.ite (fun _ => ?_) (fun _ => ?_)
            · exact ustLost_keeps ‹_›
            · refine Keeps.ite (fun _ => ?_) (fun _ => ?_)
              · exact setLane_keeps (laneSettled_keeps ‹_›)
              · refine Keeps.ite (fun _ => ?_) (fun _ => ?_)
                · exact hostLinkLost_keeps ‹_›
                · refine Keeps.ite (fun _ => ?_) (fun _ => ?_)
                  · exact controllerFail_keeps ‹_›
                  · refine Keeps.ite (fun _ => ?_) (fun _ => ?_)
                    · exact clusterOut_keeps ‹_›
                    · refine Keeps.ite (fun _ => ?_) (fun _ => ?_)
                      · exact spareSiteFail_keeps ‹_›
                      · refine Keeps.ite (fun _ => ?_) (fun _ => ?_)
                        · exact quadrantLost_keeps ‹_›
                        · refine Keeps.ite (fun _ => ?_) (fun _ => ?_)
                          · exact transportFail_keeps ‹_›
                          · refine Keeps.ite (fun _ => ?_) (fun _ => ?_)
                            · exact transportFail_keeps ‹_›
                            · refine Keeps.ite (fun _ => ?_) (fun _ => ?_)
                              · exact markOut_keeps ‹_›
                              · refine Keeps.ite (fun _ => ?_) (fun _ => ?_)
                                · exact setFabPort_keeps ‹_›
                                · refine Keeps.ite (fun _ => ?_) (fun _ => ?_)
                                  · exact twinPortLost_keeps ‹_›
                                  · refine Keeps.ite (fun _ => ?_) (fun _ => ?_)
                                    · exact opticalOut_keeps ‹_›
                                    · exact channelsOut_keeps ‹_›

theorem tileReset_keeps {s0 s : State} {n : Nat} (h0 : Keeps s0 s) : Keeps s0 (tileReset s n) := by
  unfold tileReset
  refine Keeps.ite (fun _ => ?_) (fun _ => ?_)
  · assumption
  · extract_lets +onlyGivenNames u1
    have h1 : Keeps s0 u1 := attendTileLost_keeps (tileFault_keeps ‹_›)
    clear_value u1
    extract_lets +onlyGivenNames u2
    clear_value u2
    extract_lets +onlyGivenNames u3
    have h2 : Keeps s0 u3 := State.setTile_keeps ‹_›
    clear_value u3
    refine Keeps.foldl ?_ ?_
    · assumption
    · intro v1 v2 v3
      exact State.resetReg_keeps ‹_›

theorem coreReset_keeps {s0 s : State} {k : Nat} (h0 : Keeps s0 s) : Keeps s0 (coreReset s k) := by
  unfold coreReset
  refine Keeps.ite (fun _ => ?_) (fun _ => ?_)
  · assumption
  · refine Keeps.ite (fun _ => ?_) (fun _ => ?_)
    · extract_lets +onlyGivenNames u1
      have h1 : Keeps s0 u1 := State.dropWait_keeps (coreWorkLost_keeps ‹_›)
      clear_value u1
      exact showCore_keeps (State.setCore_keeps ‹_›)
    · extract_lets +onlyGivenNames u2
      have h2 : Keeps s0 u2 := State.dropWait_keeps (slotFault_keeps ‹_›)
      clear_value u2
      exact showCore_keeps (State.setCore_keeps ‹_›)

theorem clusterReset_keeps {s0 s : State} {c : Nat} (h0 : Keeps s0 s) : Keeps s0 (clusterReset s c) := by
  unfold clusterReset
  extract_lets +onlyGivenNames u1
  have h1 : Keeps s0 u1 := by
    unfold u1
    refine Keeps.foldl ?_ ?_
    · assumption
    · intro v1 v2 v3
      refine Keeps.ite (fun _ => ?_) (fun _ => ?_)
      · assumption
      · exact tileReset_keeps ‹_›
  clear_value u1
  extract_lets +onlyGivenNames u2
  have h2 : Keeps s0 u2 := by
    unfold u2
    refine Keeps.foldl ?_ ?_
    · assumption
    · intro v4 v5 v6
      exact attendFail_keeps ‹_›
  clear_value u2
  refine Keeps.foldl ?_ ?_
  · assumption
  · intro v7 v8 v9
    exact coreReset_keeps ‹_›

theorem pairReset_keeps {s0 s : State} {p : Nat} (h0 : Keeps s0 s) : Keeps s0 (pairReset s p) := by
  unfold pairReset
  refine Keeps.ite (fun _ => ?_) (fun _ => ?_)
  · extract_lets +onlyGivenNames u1
    have h1 : Keeps s0 u1 := State.bump_keeps (defaultClocks_keeps ‹_›)
    clear_value u1
    exact State.raiseUnit_keeps (Keeps.upd (t := u1) rfl rfl rfl ‹_›)
  · assumption

theorem portReset1_keeps {s0 s : State} {p : Nat} (h0 : Keeps s0 s) : Keeps s0 (portReset1 s p) := by
  unfold portReset1
  extract_lets +onlyGivenNames u1
  have h1 : Keeps s0 u1 := laneSettled_keeps (laneSettled_keeps ‹_›)
  clear_value u1
  refine Keeps.foldl ?_ ?_
  · assumption
  · intro v1 v2 v3
    refine Keeps.ite (fun _ => ?_) (fun _ => ?_)
    · assumption
    · exact setLane_keeps ‹_›

theorem opticalReset_keeps {s0 s : State} {t : Nat} (h0 : Keeps s0 s) : Keeps s0 (opticalReset s t) := by
  unfold opticalReset
  refine Keeps.foldl ?_ ?_
  · assumption
  · intro v1 v2 v3
    refine Keeps.ite (fun _ => ?_) (fun _ => ?_)
    · assumption
    · exact setLane_keeps (laneSettled_keeps ‹_›)

theorem ustReset_keeps {s0 s : State} (h0 : Keeps s0 s) : Keeps s0 (ustReset s) := by
  unfold ustReset
  extract_lets +onlyGivenNames u1
  have h1 : Keeps s0 u1 := ustLost_keeps ‹_›
  clear_value u1
  refine Keeps.updRegs (t := u1) rfl rfl (fun h => ?_) ?_
  · exact Regs.filter_wf _ h
  · assumption

theorem secReset_keeps {s0 s : State} (h0 : Keeps s0 s) : Keeps s0 (secReset s) := by
  unfold secReset
  exact State.setWords_keeps (sealRelease_keeps (secLost_keeps ‹_›))

theorem groveResetLoss_keeps {s0 s : State} {g : Nat} (h0 : Keeps s0 s) : Keeps s0 (groveResetLoss s g) := by
  unfold groveResetLoss
  extract_lets +onlyGivenNames u1
  have h1 : Keeps s0 u1 := by
    unfold u1
    split
    · refine Keeps.ite (fun _ => ?_) (fun _ => ?_)
      · exact marchAbandon_keeps ‹_›
      · assumption
    · assumption
  clear_value u1
  refine Keeps.ite (fun _ => ?_) (fun _ => ?_)
  · exact pairReset_keeps ‹_›
  · refine Keeps.ite (fun _ => ?_) (fun _ => ?_)
    · exact secReset_keeps ‹_›
    · refine Keeps.ite (fun _ => ?_) (fun _ => ?_)
      · exact flashLost_keeps ‹_›
      · refine Keeps.ite (fun _ => ?_) (fun _ => ?_)
        · assumption
        · refine Keeps.ite (fun _ => ?_) (fun _ => ?_)
          · exact trailLost_keeps ‹_›
          · refine Keeps.ite (fun _ => ?_) (fun _ => ?_)
            · exact ustReset_keeps ‹_›
            · refine Keeps.ite (fun _ => ?_) (fun _ => ?_)
              · refine Keeps.ite (fun _ => ?_) (fun _ => ?_)
                · assumption
                · exact setLane_keeps (laneSettled_keeps ‹_›)
              · refine Keeps.ite (fun _ => ?_) (fun _ => ?_)
                · exact hostLinkLost_keeps ‹_›
                · refine Keeps.ite (fun _ => ?_) (fun _ => ?_)
                  · assumption
                  · refine Keeps.ite (fun _ => ?_) (fun _ => ?_)
                    · exact clusterReset_keeps ‹_›
                    · refine Keeps.ite (fun _ => ?_) (fun _ => ?_)
                      · split
                        · exact tileReset_keeps ‹_›
                        · assumption
                      · refine Keeps.ite (fun _ => ?_) (fun _ => ?_)
                        · assumption
                        · refine Keeps.ite (fun _ => ?_) (fun _ => ?_)
                          · refine Keeps.foldl ?_ ?_
                            · assumption
                            · intro v1 v2 v3
                              exact portReset1_keeps ‹_›
                          · refine Keeps.ite (fun _ => ?_) (fun _ => ?_)
                            · assumption
                            · refine Keeps.ite (fun _ => ?_) (fun _ => ?_)
                              · exact portReset1_keeps ‹_›
                              · refine Keeps.ite (fun _ => ?_) (fun _ => ?_)
                                · exact twinPortLost_keeps ‹_›
                                · refine Keeps.ite (fun _ => ?_) (fun _ => ?_)
                                  · exact opticalReset_keeps ‹_›
                                  · assumption

theorem groveReset_keeps {s0 s : State} {g : Nat} (h0 : Keeps s0 s) : Keeps s0 (groveReset s g) := by
  unfold groveReset
  refine Keeps.ite (fun _ => ?_) (fun _ => ?_)
  · exact groveResetLoss_keeps (State.wr_keeps (State.wr_keeps ‹_›))
  · assumption

theorem runCtl_keeps {s0 s : State} {a1 : HeldCtl} (h0 : Keeps s0 s) : Keeps s0 (runCtl s a1) := by
  unfold runCtl
  split
  · exact svcRun_keeps (State.wr_keeps ‹_›)
  · exact marchRun_keeps (State.wr_keeps ‹_›)
  · exact groveReset_keeps ‹_›

theorem releaseCtl_keeps {s0 s : State} (h0 : Keeps s0 s) : Keeps s0 (releaseCtl s) := by
  unfold releaseCtl
  extract_lets +onlyGivenNames u1 u2
  clear_value u1 u2
  refine Keeps.foldl ?_ ?_
  · exact Keeps.upd (t := s) rfl rfl rfl ‹_›
  · intro v1 v2 v3
    exact runCtl_keeps ‹_›

theorem clusterRestart_keeps {s0 s : State} {c : Nat} (h0 : Keeps s0 s) : Keeps s0 (clusterRestart s c) := by
  unfold clusterRestart
  refine Keeps.foldl ?_ ?_
  · assumption
  · intro v1 v2 v3
    extract_lets +onlyGivenNames u1
    clear_value u1
    refine Keeps.ite (fun _ => ?_) (fun _ => ?_)
    · exact startFirmware_keeps ‹_›
    · assumption

theorem sramRead_keeps {s0 s : State} {unit : Nat} (h0 : Keeps s0 s) : Keeps s0 (sramRead s unit) := by
  unfold sramRead
  extract_lets +onlyGivenNames u1
  clear_value u1
  refine Keeps.ite (fun _ => ?_) (fun _ => ?_)
  · exact tileFault_keeps ‹_›
  · refine Keeps.ite (fun _ => ?_) (fun _ => ?_)
    · extract_lets +onlyGivenNames u2
      clear_value u2
      refine Keeps.ite (fun _ => ?_) (fun _ => ?_)
      · extract_lets +onlyGivenNames u3
        have h1 : SndKeeps s0 u3 := by
          unfold u3
          exact SndKeeps.of (State.freeWord_keeps ‹_›)
        clear_value u3
        exact trap_keeps ‹_›
      · assumption
    · assumption

theorem sramFail_keeps {s0 s : State} {unit : Nat} (h0 : Keeps s0 s) : Keeps s0 (sramFail s unit) := by
  unfold sramFail
  extract_lets +onlyGivenNames u1
  clear_value u1
  refine Keeps.ite (fun _ => ?_) (fun _ => ?_)
  · refine Keeps.ite (fun _ => ?_) (fun _ => ?_)
    · exact tileFail_keeps ‹_›
    · refine Keeps.ite (fun _ => ?_) (fun _ => ?_)
      · refine Keeps.ite (fun _ => ?_) (fun _ => ?_)
        · assumption
        · exact spareTileFail_keeps ‹_›
      · assumption
  · refine Keeps.ite (fun _ => ?_) (fun _ => ?_)
    · refine Keeps.ite (fun _ => ?_) (fun _ => ?_)
      · exact coreFail_keeps ‹_›
      · refine Keeps.ite (fun _ => ?_) (fun _ => ?_)
        · refine Keeps.ite (fun _ => ?_) (fun _ => ?_)
          · assumption
          · exact spareCoreFail_keeps ‹_›
        · assumption
    · assumption

end Sys2Proof.Machine
end

