-- ==== Sys2Proof/Laws/KeepsRegisters.lean ====
section
/-! SUPPORT. What register writes, the Trail port and the Fern cores keep: the waiting commands and the canonical form. One
lemma for each operation. -/
namespace Sys2Proof.Machine

open Sys2Proof

/-! ### Machine/Registers.lean -/

theorem nextOf_keeps {s0 s : State} {o : Out} (h0 : Keeps s0 s) (h1 : OutAll (Keeps s0) o) : Keeps s0 (nextOf s o) := by
  unfold nextOf
  split
  · rename_i x1 x2
    assumption
  · rename_i x3 x4
    assumption

theorem writeBoot_keeps {s0 s : State} {p base v : Nat} (h0 : Keeps s0 s) : OptAll (Keeps s0) (writeBoot s p base v) := by
  unfold writeBoot
  split
  · extract_lets +onlyGivenNames u1
    have h1 : Keeps s0 u1 := by
      unfold u1
      refine Keeps.ite (fun _ => ?_) (fun _ => ?_)
      · exact writebackStart_keeps ‹_›
      · assumption
    clear_value u1
    refine OptAll.some ?_
    refine Keeps.ite (fun _ => ?_) (fun _ => ?_)
    · apply nextOf_keeps
      · assumption
      · exact execWarmReset_keeps ‹_›
    · assumption
  · split
    · split
      · exact OptAll.some ‹_›
      · split
        · exact OptAll.some (fwLoad_keeps ‹_›)
        · split
          · exact OptAll.some (negotiateCmd_keeps ‹_›)
          · exact OptAll.some ‹_›
    · split
      · exact OptAll.some (marchWrite_keeps ‹_›)
      · exact OptAll.none

theorem writePwr_keeps {s0 s : State} {base v : Nat} (h0 : Keeps s0 s) : OptAll (Keeps s0) (writePwr s base v) := by
  unfold writePwr
  split
  · exact OptAll.some (pwrLimitWrite_keeps ‹_›)
  · split
    · exact OptAll.some (hwCfgWrite_keeps ‹_›)
    · split
      · exact OptAll.some (thermCfgWrite_keeps ‹_›)
      · split
        · exact OptAll.some (fwStoreWrite_keeps ‹_›)
        · exact OptAll.none

theorem writeMem_keeps {s0 s : State} {base i v : Nat} (h0 : Keeps s0 s) : OptAll (Keeps s0) (writeMem s base i v) := by
  unfold writeMem
  split
  · refine OptAll.some ?_
    apply nextOf_keeps
    · assumption
    · exact execMemLayoutWrite_keeps ‹_›
  · split
    · refine OptAll.some ?_
      apply nextOf_keeps
      · assumption
      · exact execScrubCfgWrite_keeps ‹_›
    · split
      · split
        · refine OptAll.some ?_
          apply nextOf_keeps
          · assumption
          · exact execMirrorFenceStart_keeps ‹_›
        · exact OptAll.none
      · split
        · split
          · extract_lets +onlyGivenNames u1
            have h1 : SndKeeps s0 u1 := by
              unfold u1
              exact SndKeeps.of (State.freeBit_keeps ‹_›)
            clear_value u1
            refine OptAll.some ?_
            apply nextOf_keeps
            · assumption
            · exact execRegionValidSet_keeps ‹_›
          · split
            · exact OptAll.some (regionClear_keeps ‹_›)
            · exact OptAll.none
        · split
          · split
            · exact OptAll.some ‹_›
            · exact OptAll.none
          · exact OptAll.none

theorem writeTile_keeps {s0 s : State} {base i v : Nat} (h0 : Keeps s0 s) : OptAll (Keeps s0) (writeTile s base i v) := by
  unfold writeTile
  split
  · refine OptAll.some ?_
    apply nextOf_keeps
    · assumption
    · exact execTileCfgWrite_keeps ‹_›
  · split
    · exact OptAll.some (seedWrite_keeps ‹_›)
    · split
      · split
        · exact OptAll.some ‹_›
        · exact OptAll.none
      · split
        · extract_lets +onlyGivenNames u1
          clear_value u1
          extract_lets +onlyGivenNames u2
          have h1 : Keeps s0 u2 := by
            unfold u2
            refine Keeps.ite (fun _ => ?_) (fun _ => ?_)
            · refine Keeps.ite (fun _ => ?_) (fun _ => ?_)
              · assumption
              · exact tileDisable_keeps ‹_›
            · refine Keeps.ite (fun _ => ?_) (fun _ => ?_)
              · apply nextOf_keeps
                · assumption
                · exact execTileQueueEnable_keeps ‹_›
              · exact qctrlFields_keeps ‹_›
          clear_value u2
          extract_lets +onlyGivenNames u3
          have h2 : Keeps s0 u3 := by
            unfold u3
            refine Keeps.ite (fun _ => ?_) (fun _ => ?_)
            · exact tileQueueReset_keeps ‹_›
            · assumption
          clear_value u3
          refine OptAll.some ?_
          refine Keeps.ite (fun _ => ?_) (fun _ => ?_)
          · exact tileResume_keeps ‹_›
          · assumption
        · exact OptAll.none

theorem writeUst_keeps {s0 s : State} {base i v : Nat} (h0 : Keeps s0 s) : OptAll (Keeps s0) (writeUst s base i v) := by
  unfold writeUst
  split
  · extract_lets +onlyGivenNames u1
    clear_value u1
    extract_lets +onlyGivenNames u2
    have h1 : Keeps s0 u2 := linkEval_keeps (State.writeFields_keeps ‹_›)
    clear_value u2
    refine OptAll.some ?_
    refine Keeps.ite (fun _ => ?_) (fun _ => ?_)
    · exact linkDown_keeps ‹_›
    · exact formGroups_keeps ‹_›
  · split
    · split
      · refine OptAll.some ?_
        apply nextOf_keeps
        · assumption
        · exact execUstGroupValidSet_keeps ‹_›
      · split
        · refine OptAll.some ?_
          apply nextOf_keeps
          · assumption
          · exact execUstGroupValidClear_keeps ‹_›
        · exact OptAll.none
    · split
      · split
        · exact OptAll.some ‹_›
        · exact OptAll.none
      · split
        · split
          · refine OptAll.some ?_
            apply nextOf_keeps
            · assumption
            · exact execCtrBlockGrant_keeps ‹_›
          · split
            · exact OptAll.some (ctrRevoke_keeps ‹_›)
            · exact OptAll.some (State.wr_keeps ‹_›)
        · split
          · exact OptAll.some (State.addCtr_keeps ‹_›)
          · exact OptAll.none

theorem writeFab_keeps {s0 s : State} {base i v : Nat} (h0 : Keeps s0 s) : OptAll (Keeps s0) (writeFab s base i v) := by
  unfold writeFab
  split
  · exact OptAll.some (ctxCfgWrite_keeps ‹_›)
  · split
    · split
      · exact OptAll.some ‹_›
      · exact OptAll.none
    · split
      · exact OptAll.some (refreshPeerStat_keeps (State.wr_keeps ‹_›))
      · split
        · exact OptAll.some (portWrite_keeps ‹_›)
        · split
          · exact OptAll.some (rktWrite_keeps ‹_›)
          · split
            · refine OptAll.some ?_
              apply nextOf_keeps
              · assumption
              · exact execFtnWrite_keeps ‹_›
            · split
              · refine OptAll.some ?_
                apply nextOf_keeps
                · assumption
                · exact execPdWrite_keeps ‹_›
              · exact OptAll.none

theorem writeSch_keeps {s0 s : State} {base i v : Nat} (h0 : Keeps s0 s) : OptAll (Keeps s0) (writeSch s base i v) := by
  unfold writeSch
  extract_lets +onlyGivenNames u1 u2 u3
  clear_value u1 u2 u3
  split
  · refine OptAll.some ?_
    apply nextOf_keeps
    · assumption
    · exact execSchNodeWrite_keeps ‹_›
  · split
    · refine OptAll.some ?_
      apply nextOf_keeps
      · assumption
      · exact execSchNodeWrite_keeps ‹_›
    · split
      · refine OptAll.some ?_
        apply nextOf_keeps
        · assumption
        · exact execSchNodeWrite_keeps ‹_›
      · split
        · refine OptAll.some ?_
          apply nextOf_keeps
          · assumption
          · exact execSchNodeWrite_keeps ‹_›
        · split
          · refine OptAll.some ?_
            apply nextOf_keeps
            · assumption
            · exact execPolicerWrite_keeps ‹_›
          · split
            · refine OptAll.some ?_
              apply nextOf_keeps
              · assumption
              · exact execPolicerWrite_keeps ‹_›
            · exact OptAll.none

theorem writeHep_keeps {s0 s : State} {base i v : Nat} (h0 : Keeps s0 s) : OptAll (Keeps s0) (writeHep s base i v) := by
  unfold writeHep
  split
  · split
    · exact OptAll.some ‹_›
    · exact OptAll.none
  · split
    · exact OptAll.some (evrCfgWrite_keeps ‹_›)
    · split
      · exact OptAll.some (evrHead_keeps ‹_›)
      · split
        · exact OptAll.some (winWrite_keeps ‹_›)
        · split
          · exact OptAll.some (fenceWrite_keeps ‹_›)
          · exact OptAll.none

theorem writeGld_keeps {s0 s : State} {base v : Nat} (h0 : Keeps s0 s) : OptAll (Keeps s0) (writeGld s base v) := by
  unfold writeGld
  split
  · split
    · exact OptAll.some ‹_›
    · exact OptAll.none
  · split
    · exact OptAll.some (sqCtrlWrite_keeps ‹_›)
    · split
      · exact OptAll.some (recordTail_keeps ‹_›)
      · exact OptAll.none

theorem writeStq_keeps {s0 s : State} {base i v : Nat} (h0 : Keeps s0 s) : OptAll (Keeps s0) (writeStq s base i v) := by
  unfold writeStq
  split
  · refine OptAll.some ?_
    apply nextOf_keeps
    · assumption
    · exact execStagingEnable_keeps ‹_›
  · split
    · split
      · exact OptAll.some ‹_›
      · exact OptAll.none
    · split
      · split
        · refine OptAll.some ?_
          apply nextOf_keeps
          · assumption
          · exact execVolumeValidSet_keeps ‹_›
        · split
          · exact OptAll.some (State.wr_keeps ‹_›)
          · exact OptAll.none
      · split
        · split
          · exact OptAll.some ‹_›
          · exact OptAll.none
        · exact OptAll.none

theorem sealLockWrite_keeps {s0 s : State} {mgmt : Bool} {v : Nat} (h0 : Keeps s0 s) : Keeps s0 (sealLockWrite s mgmt v) := by
  unfold sealLockWrite
  extract_lets +onlyGivenNames u1
  clear_value u1
  apply nextOf_keeps
  · assumption
  · split
    · exact execSealLockRelease_keeps ‹_›
    · exact execSealLockTake_keeps ‹_›

theorem sealCtrlStart_keeps {s0 s : State} {mgmt : Bool} {v : Nat} (h0 : Keeps s0 s) : Keeps s0 (sealCtrlStart s mgmt v) := by
  unfold sealCtrlStart
  extract_lets +onlyGivenNames u1 u2 u3
  clear_value u1 u2 u3
  refine Keeps.ite (fun _ => ?_) (fun _ => ?_)
  · exact sealRefuse_keeps ‹_›
  · extract_lets +onlyGivenNames u4
    have h1 : Keeps s0 u4 := State.writeFields_keeps ‹_›
    clear_value u4
    split
    · apply nextOf_keeps
      · assumption
      · exact execSeal_keeps ‹_›
    · apply nextOf_keeps
      · assumption
      · exact execSealVerify_keeps ‹_›
    · apply nextOf_keeps
      · assumption
      · exact execLoadkey_keeps ‹_›
    · extract_lets +onlyGivenNames u5
      have h2 : Keeps s0 u5 := State.writeFields_keeps ‹_›
      clear_value u5
      refine Keeps.ite (fun _ => ?_) (fun _ => ?_)
      · assumption
      · exact sealRefuse_keeps ‹_›

theorem writeSec_keeps {s0 s : State} {mgmt : Bool} {base i v : Nat} (h0 : Keeps s0 s) :
    OptAll (Keeps s0) (writeSec s mgmt base i v) := by
  unfold writeSec
  split
  · refine OptAll.some ?_
    refine Keeps.ite (fun _ => ?_) (fun _ => ?_)
    · apply nextOf_keeps
      · assumption
      · exact execRollbackAdvance_keeps ‹_›
    · assumption
  · split
    · split
      · exact OptAll.some (attStart_keeps ‹_›)
      · exact OptAll.none
    · split
      · exact OptAll.some (State.wr_keeps ‹_›)
      · split
        · split
          · exact OptAll.some (keyStart_keeps ‹_›)
          · exact OptAll.none
        · split
          · exact OptAll.some (fabGrpA_keeps ‹_›)
          · split
            · exact OptAll.some (fabGrpB_keeps ‹_›)
            · split
              · exact OptAll.some (sealLockWrite_keeps ‹_›)
              · split
                · exact OptAll.some (State.wr_keeps ‹_›)
                · split
                  · split
                    · exact OptAll.some (sealCtrlStart_keeps ‹_›)
                    · exact OptAll.none
                  · exact OptAll.none

theorem writeCkp_keeps {s0 s : State} {base i v : Nat} (h0 : Keeps s0 s) : OptAll (Keeps s0) (writeCkp s base i v) := by
  unfold writeCkp
  split
  · split
    · exact OptAll.none
    · exact OptAll.some ‹_›
  · split
    · exact OptAll.some (ckpGrpWrite_keeps ‹_›)
    · split
      · split
        · exact OptAll.some ‹_›
        · exact OptAll.none
      · split
        · split
          · exact OptAll.some ‹_›
          · exact OptAll.none
        · exact OptAll.none

theorem writeTwn_keeps {s0 s : State} {base v : Nat} (h0 : Keeps s0 s) : OptAll (Keeps s0) (writeTwn s base v) := by
  unfold writeTwn
  split
  · extract_lets +onlyGivenNames u1
    clear_value u1
    extract_lets +onlyGivenNames u2
    have h1 : Keeps s0 u2 := State.writeFields_keeps ‹_›
    clear_value u2
    refine OptAll.some ?_
    refine Keeps.ite (fun _ => ?_) (fun _ => ?_)
    · exact twinLanesOff_keeps (twinDisabled_keeps ‹_›)
    · refine Keeps.ite (fun _ => ?_) (fun _ => ?_)
      · exact twinLanesOn_keeps ‹_›
      · assumption
  · split
    · split
      · exact OptAll.some (pairWrite_keeps ‹_›)
      · exact OptAll.none
    · split
      · exact OptAll.some (svcWrite_keeps ‹_›)
      · exact OptAll.none

theorem writeTlm_keeps {s0 s : State} {base i v : Nat} (h0 : Keeps s0 s) : OptAll (Keeps s0) (writeTlm s base i v) := by
  unfold writeTlm
  split
  · split
    · exact OptAll.some (counterCmd_keeps ‹_›)
    · exact OptAll.none
  · split
    · split
      · exact OptAll.some ‹_›
      · exact OptAll.none
    · split
      · exact OptAll.some (strCfgWrite_keeps ‹_›)
      · split
        · exact OptAll.some (State.wr_keeps ‹_›)
        · split
          · split
            · exact OptAll.some ‹_›
            · exact OptAll.none
          · split
            · exact OptAll.some (mtrCfgWrite_keeps ‹_›)
            · split
              · exact OptAll.some (mtrFlushAll_keeps (State.wr_keeps ‹_›))
              · split
                · exact OptAll.some (mtrGladeWrite_keeps ‹_›)
                · exact OptAll.none

theorem writeCpu_keeps {s0 s : State} {base i v : Nat} (h0 : Keeps s0 s) : OptAll (Keeps s0) (writeCpu s base i v) := by
  unfold writeCpu
  split
  · extract_lets +onlyGivenNames u1
    have h1 : Keeps s0 u1 := by
      unfold u1
      refine Keeps.ite (fun _ => ?_) (fun _ => ?_)
      · exact State.wr_keeps ‹_›
      · assumption
    clear_value u1
    exact OptAll.some (State.writeFields_keeps ‹_›)
  · split
    · split
      · exact OptAll.some (oflStart_keeps ‹_›)
      · exact OptAll.none
    · exact OptAll.none

theorem writeSpecial_keeps {s0 s : State} {src : Nat} {b : Blk} {base i v : Nat} (h0 : Keeps s0 s) :
    OptAll (Keeps s0) (writeSpecial s src b base i v) := by
  unfold writeSpecial
  split
  · exact writeBoot_keeps ‹_›
  · exact writePwr_keeps ‹_›
  · exact writeMem_keeps ‹_›
  · exact writeTile_keeps ‹_›
  · exact writeUst_keeps ‹_›
  · exact writeFab_keeps ‹_›
  · exact writeSch_keeps ‹_›
  · exact writeHep_keeps ‹_›
  · exact writeGld_keeps ‹_›
  · exact writeStq_keeps ‹_›
  · exact writeSec_keeps ‹_›
  · exact writeCkp_keeps ‹_›
  · exact writeTwn_keeps ‹_›
  · exact writeTlm_keeps ‹_›
  · exact writeCpu_keeps ‹_›
  · exact OptAll.none
  · exact OptAll.none
  · exact OptAll.none
  · exact OptAll.none

theorem regWord_keeps {s0 s : State} {src : Nat} {b : Blk} {r : Reg} {i v : Nat} (h0 : Keeps s0 s) :
    Keeps s0 (regWord s src b r i v) := by
  unfold regWord
  split
  · rename_i x1 x2 x3
    exact Keeps.opt (p := Keeps s0) ‹_› (writeSpecial_keeps ‹_›)
  · rename_i x4 x5
    exact State.writeFields_keeps ‹_›

theorem msixTableWrite_keeps {s0 s : State} {p k : Nat} {high : Bool} {v : Nat} (h0 : Keeps s0 s) :
    Keeps s0 (msixTableWrite s p k high v) := by
  unfold msixTableWrite
  extract_lets +onlyGivenNames u1 u2
  clear_value u1 u2
  refine Keeps.ite (fun _ => ?_) (fun _ => ?_)
  · extract_lets +onlyGivenNames u3
    have h1 : Keeps s0 u3 := State.setPort_keeps ‹_›
    clear_value u3
    extract_lets +onlyGivenNames u4
    clear_value u4
    refine Keeps.ite (fun _ => ?_) (fun _ => ?_)
    · exact State.setPort_keeps ‹_›
    · exact State.msixDrain_keeps (State.setPort_keeps ‹_›)
  · exact State.setPort_keeps ‹_›

theorem regWrite_keeps {s0 s : State} {src off : Nat} {wide : Bool} {v : Nat} (h0 : Keeps s0 s) :
    Keeps s0 (regWrite s src off wide v) := by
  unfold regWrite
  split
  · exact msixTableWrite_keeps ‹_›
  · refine Keeps.ite (fun _ => ?_) (fun _ => ?_)
    · refine Keeps.ite (fun _ => ?_) (fun _ => ?_)
      · apply nextOf_keeps
        · assumption
        · exact execSealMsgWrite_keeps ‹_›
      · assumption
    · split
      · split
        · exact regWord_keeps ‹_›
        · assumption
      · assumption

theorem bar0Write_keeps {s0 s : State} {p o : Nat} {wide : Bool} {v : Nat} (h0 : Keeps s0 s) :
    Keeps s0 (bar0Write s p o wide v) := by
  unfold bar0Write
  split
  · exact flagAccess_keeps ‹_›
  · refine Keeps.ite (fun _ => ?_) (fun _ => ?_)
    · assumption
    · refine Keeps.ite (fun _ => ?_) (fun _ => ?_)
      · exact flagAccess_keeps ‹_›
      · refine Keeps.ite (fun _ => ?_) (fun _ => ?_)
        · assumption
        · split
          · exact holdReg_keeps ‹_›
          · exact regWrite_keeps ‹_›

theorem releaseRegs_keeps {s0 s : State} {unit : Nat} (h0 : Keeps s0 s) : Keeps s0 (releaseRegs s unit) := by
  unfold releaseRegs
  extract_lets +onlyGivenNames u1 u2
  clear_value u1 u2
  extract_lets +onlyGivenNames u3
  have h1 : Keeps s0 u3 := Keeps.upd (t := s) rfl rfl rfl ‹_›
  clear_value u3
  refine Keeps.foldl ?_ ?_
  · assumption
  · intro v1 v2 v3
    exact bar0Write_keeps ‹_›

theorem releasePad_keeps {s0 s : State} {unit : Nat} (h0 : Keeps s0 s) : Keeps s0 (releasePad s unit) := by
  unfold releasePad
  extract_lets +onlyGivenNames u1 u2
  clear_value u1 u2
  extract_lets +onlyGivenNames u3
  have h1 : Keeps s0 u3 := Keeps.upd (t := s) rfl rfl rfl ‹_›
  clear_value u3
  exact releaseWrites_keeps ‹_›

theorem idle_keeps {s0 s : State} (h0 : Keeps s0 s) : Keeps s0 (idle s) := by
  unfold idle
  exact clearRegions_keeps (schedTick_keeps (tick_keeps ‹_›))

/-! ### Machine/FernDecode.lean -/

theorem readPlace_keeps {s0 s : State} {k : Nat} {p : Place} {n : Nat} (h0 : Keeps s0 s) :
    OptAll (fun r => Keeps s0 r.2) (readPlace s k p n) := by
  unfold readPlace
  split
  · exact OptAll.some (Keeps.mkSnd ‹_›)
  · exact OptAll.some (Keeps.mkSnd ‹_›)
  · split
    · split
      · exact OptAll.some (Keeps.mkSnd ‹_›)
      · extract_lets +onlyGivenNames u1
        have h1 : SndKeeps s0 u1 := by
          unfold u1
          exact SndKeeps.of (State.freeWord_keeps ‹_›)
        clear_value u1
        exact OptAll.some (Keeps.mkSnd ‹_›)
    · split
      · exact OptAll.none
      · exact OptAll.some (Keeps.mkSnd ‹_›)

theorem badPlace_keeps {s0 s : State} {p : Place} {n : Nat} (h0 : Keeps s0 s) : Keeps s0 (badPlace s p n) := by
  unfold badPlace
  split
  · refine Keeps.ite (fun _ => ?_) (fun _ => ?_)
    · assumption
    · exact State.noteRead_keeps ‹_›
  · assumption

theorem writePlace_keeps {s0 s : State} {k : Nat} {p : Place} {n v : Nat} (h0 : Keeps s0 s) :
    Keeps s0 (writePlace s k p n v).1 := by
  unfold writePlace
  split
  · exact Keeps.mkFst (localStore_keeps ‹_›)
  · exact Keeps.mkFst (Keeps.upd (t := s) rfl rfl rfl ‹_›)
  · split
    · split
      · exact Keeps.mkFst (regWrite_keeps ‹_›)
      · exact Keeps.mkFst ‹_›
    · extract_lets +onlyGivenNames u1
      have h1 : FstKeeps s0 u1 := by
        unfold u1
        exact FstKeeps.of (State.writeMem_keeps ‹_›)
      clear_value u1
      exact Keeps.mkFst ‹_›

theorem fernRun_keeps {s0 s : State} {k : Nat} {op : FernOp} {body : FernIns → State → State} (h0 : Keeps s0 s)
    (h3 : ∀ a00 a01, Keeps s0 a01 → Keeps s0 (body a00 a01)) : OutAll (Keeps s0) (fernRun s k op body) := by
  unfold fernRun
  split
  · refine OutAll.next ?_
    apply instrEnd_keeps
    apply h3
    assumption
  · exact OutAll.next ‹_›

/-! ### Machine/Fern.lean -/

theorem setRd_keeps {s0 s : State} {k : Nat} {i : FernIns} {v : Nat} (h0 : Keeps s0 s) : Keeps s0 (setRd s k i v) := by
  unfold setRd
  extract_lets +onlyGivenNames u1
  clear_value u1
  exact State.setCore_keeps ‹_›

theorem fernSkip_keeps {s0 s : State} {k : Nat} {i : FernIns} (h0 : Keeps s0 s) : Keeps s0 (fernSkip s k i) := by
  unfold fernSkip
  exact State.setCore_keeps ‹_›

theorem fernBranch_keeps {s0 s : State} {k : Nat} {d : Int} (h0 : Keeps s0 s) : Keeps s0 (fernBranch s k d) := by
  unfold fernBranch
  exact State.setCore_keeps ‹_›

theorem aluR_keeps {s0 : State} {k : Nat} {f : Nat → Nat → Nat} {i : FernIns} {s : State} (h3 : Keeps s0 s) :
    Keeps s0 (aluR k f i s) := by
  unfold aluR
  exact setRd_keeps ‹_›

theorem aluI_keeps {s0 : State} {k : Nat} {f : Nat → Nat → Nat} {i : FernIns} {s : State} (h3 : Keeps s0 s) :
    Keeps s0 (aluI k f i s) := by
  unfold aluI
  exact setRd_keeps ‹_›

theorem branchIf_keeps {s0 : State} {k : Nat} {f : Nat → Nat → Bool} {i : FernIns} {s : State} (h3 : Keeps s0 s) :
    Keeps s0 (branchIf k f i s) := by
  unfold branchIf
  refine Keeps.ite (fun _ => ?_) (fun _ => ?_)
  · exact fernBranch_keeps ‹_›
  · exact fernSkip_keeps ‹_›

theorem State.setDf_keeps {s0 s : State} {k df : Nat} (h0 : Keeps s0 s) : Keeps s0 (State.setDf s k df) := by
  unfold State.setDf
  exact State.setCore_keeps ‹_›

theorem watch_keeps {s0 s : State} {k a n : Nat} {store : Bool} (h0 : Keeps s0 s) : Keeps s0 (watch s k a n store) := by
  unfold watch
  extract_lets +onlyGivenNames u1 u2 u3
  clear_value u1 u2 u3
  split
  · refine Keeps.ite (fun _ => ?_) (fun _ => ?_)
    · exact State.setDebug_keeps ‹_›
    · assumption
  · assumption

theorem loadMem_keeps {s0 : State} {k n : Nat} {signed : Bool} {i : FernIns} {s : State} (h4 : Keeps s0 s) :
    Keeps s0 (loadMem k n signed i s) := by
  unfold loadMem
  extract_lets +onlyGivenNames u1
  clear_value u1
  refine Keeps.ite (fun _ => ?_) (fun _ => ?_)
  · exact trap_keeps ‹_›
  · split
    · exact trap_keeps ‹_›
    · split
      · rename_i x1 x2 x3 x4 x5 x6
        exact trap_keeps (badPlace_keeps ‹_›)
      · rename_i x7 x8 x9 x10 x11 x12 x13 x14
        exact watch_keeps (setRd_keeps (Keeps.optSnd ‹_› (readPlace_keeps ‹_›)))

theorem storeMem_keeps {s0 : State} {k n : Nat} {i : FernIns} {s : State} (h3 : Keeps s0 s) :
    Keeps s0 (storeMem k n i s) := by
  unfold storeMem
  extract_lets +onlyGivenNames u1
  clear_value u1
  refine Keeps.ite (fun _ => ?_) (fun _ => ?_)
  · exact trap_keeps ‹_›
  · split
    · exact trap_keeps ‹_›
    · extract_lets +onlyGivenNames u2
      have h1 : FstKeeps s0 u2 := by
        unfold u2
        exact FstKeeps.of (writePlace_keeps ‹_›)
      clear_value u2
      refine Keeps.ite (fun _ => ?_) (fun _ => ?_)
      · exact trap_keeps ‹_›
      · exact watch_keeps (fernSkip_keeps ‹_›)

theorem amo_keeps {s0 : State} {k : Nat} {f : Nat → Option Nat} {i : FernIns} {s : State} (h3 : Keeps s0 s) :
    Keeps s0 (amo k f i s) := by
  unfold amo
  extract_lets +onlyGivenNames u1
  clear_value u1
  refine Keeps.ite (fun _ => ?_) (fun _ => ?_)
  · exact trap_keeps ‹_›
  · split
    · exact trap_keeps ‹_›
    · split
      · rename_i x1 x2 x3 x4 x5 x6
        exact trap_keeps (badPlace_keeps ‹_›)
      · rename_i x7 x8 x9 x10 x11 x12 x13 x14
        split
        · exact watch_keeps (setRd_keeps (Keeps.optSnd ‹_› (readPlace_keeps ‹_›)))
        · extract_lets +onlyGivenNames u2
          have h1 : FstKeeps s0 u2 := by
            unfold u2
            exact FstKeeps.of (writePlace_keeps (Keeps.optSnd ‹_› (readPlace_keeps ‹_›)))
          clear_value u2
          refine Keeps.ite (fun _ => ?_) (fun _ => ?_)
          · exact trap_keeps ‹_›
          · exact watch_keeps (watch_keeps (setRd_keeps ‹_›))

theorem jumpLink_keeps {s0 s : State} {k : Nat} {i : FernIns} {target : Nat} (h0 : Keeps s0 s) :
    Keeps s0 (jumpLink s k i target) := by
  unfold jumpLink
  extract_lets +onlyGivenNames u1
  clear_value u1
  exact State.setCore_keeps ‹_›

theorem decimalEnd_keeps {s0 s : State} {k : Nat} {i : FernIns} {v : Nat} {c z : Bool} (h0 : Keeps s0 s) :
    Keeps s0 (decimalEnd s k i v c z) := by
  unfold decimalEnd
  exact setRd_keeps (State.setDf_keeps ‹_›)

theorem decimalInvalid_keeps {s0 s : State} {k : Nat} {i : FernIns} (h0 : Keeps s0 s) : Keeps s0 (decimalInvalid s k i) := by
  unfold decimalInvalid
  extract_lets +onlyGivenNames u1
  have h1 : Keeps s0 u1 := State.setDf_keeps ‹_›
  clear_value u1
  refine Keeps.ite (fun _ => ?_) (fun _ => ?_)
  · exact trapOpen_keeps ‹_›
  · exact fernSkip_keeps ‹_›

theorem decimalSum_keeps {s0 : State} {k : Nat} {sub chain : Bool} {i : FernIns} {s : State} (h4 : Keeps s0 s) :
    Keeps s0 (decimalSum k sub chain i s) := by
  unfold decimalSum
  extract_lets +onlyGivenNames u1 u2 u3 u4
  clear_value u1 u2 u3 u4
  refine Keeps.ite (fun _ => ?_) (fun _ => ?_)
  · exact decimalInvalid_keeps ‹_›
  · extract_lets +onlyGivenNames u5 u6
    clear_value u5 u6
    extract_lets +onlyGivenNames u7
    exact decimalEnd_keeps ‹_›

theorem decimalShift_keeps {s0 : State} {k : Nat} {left : Bool} {i : FernIns} {s : State} (h3 : Keeps s0 s) :
    Keeps s0 (decimalShift k left i s) := by
  unfold decimalShift
  extract_lets +onlyGivenNames u1 u2
  clear_value u1 u2
  refine Keeps.ite (fun _ => ?_) (fun _ => ?_)
  · exact decimalInvalid_keeps ‹_›
  · extract_lets +onlyGivenNames u3 u4
    clear_value u3 u4
    exact decimalEnd_keeps ‹_›

theorem ecall_keeps {s0 s : State} {k : Nat} (h0 : Keeps s0 s) : Keeps s0 (ecall s k) := by
  unfold ecall
  split
  · exact trapOpen_keeps ‹_›
  · exact trapOpen_keeps ‹_›
  · extract_lets +onlyGivenNames u1
    have h1 : SndKeeps s0 u1 := by
      unfold u1
      exact SndKeeps.of (State.freeWord_keeps ‹_›)
    clear_value u1
    exact trapOpen_keeps ‹_›

theorem srRead_keeps {s0 s : State} {k n : Nat} (h0 : Keeps s0 s) : Keeps s0 (srRead s k n).2 := by
  unfold srRead
  extract_lets +onlyGivenNames u1
  clear_value u1
  split
  · exact Keeps.mkSnd ‹_›
  · exact Keeps.mkSnd ‹_›
  · exact Keeps.mkSnd ‹_›
  · exact Keeps.mkSnd ‹_›
  · exact Keeps.mkSnd ‹_›
  · exact Keeps.mkSnd ‹_›
  · exact Keeps.mkSnd ‹_›
  · exact Keeps.mkSnd ‹_›
  · exact Keeps.mkSnd ‹_›
  · exact Keeps.mkSnd ‹_›
  · exact Keeps.mkSnd ‹_›
  · extract_lets +onlyGivenNames u2
    have h1 : SndKeeps s0 u2 := by
      unfold u2
      exact SndKeeps.of (State.freeWord_keeps ‹_›)
    clear_value u2
    exact Keeps.mkSnd ‹_›
  · exact Keeps.mkSnd ‹_›
  · split
    · exact Keeps.mkSnd ‹_›
    · exact Keeps.mkSnd ‹_›

theorem srWrite_keeps {s0 s : State} {k n v : Nat} (h0 : Keeps s0 s) : Keeps s0 (srWrite s k n v) := by
  unfold srWrite
  extract_lets +onlyGivenNames u1
  clear_value u1
  split
  · exact State.setCore_keeps ‹_›
  · exact State.setCore_keeps ‹_›
  · exact State.setCore_keeps ‹_›
  · exact State.setCore_keeps ‹_›
  · exact State.setCore_keeps ‹_›
  · exact State.setCore_keeps ‹_›
  · exact State.setCore_keeps ‹_›
  · exact State.setCore_keeps ‹_›
  · exact State.setCore_keeps ‹_›
  · exact State.setCore_keeps ‹_›
  · refine Keeps.ite (fun _ => ?_) (fun _ => ?_)
    · exact State.setCore_keeps ‹_›
    · assumption

theorem srTrap_keeps {s0 s : State} {k cause : Nat} (h0 : Keeps s0 s) : Keeps s0 (srTrap s k cause) := by
  unfold srTrap
  refine Keeps.ite (fun _ => ?_) (fun _ => ?_)
  · exact trap_keeps ‹_›
  · exact trapOpen_keeps ‹_›

theorem ctrRead_keeps {s0 s : State} {c : Nat} (h0 : Keeps s0 s) : Keeps s0 (ctrRead s c).2 := by
  unfold ctrRead
  split
  · extract_lets +onlyGivenNames u1
    have h1 : SndKeeps s0 u1 := by
      unfold u1
      exact SndKeeps.of (State.freeWord_keeps ‹_›)
    clear_value u1
    exact Keeps.mkSnd ‹_›
  · exact Keeps.mkSnd ‹_›

theorem setPair2_keeps {s0 s : State} {k : Nat} {i : FernIns} {v : Nat} (h0 : Keeps s0 s) : Keeps s0 (setPair2 s k i v) := by
  unfold setPair2
  extract_lets +onlyGivenNames u1
  clear_value u1
  exact State.setCore_keeps ‹_›

theorem fetchTrap_keeps {s0 s : State} {k : Nat} (h0 : Keeps s0 s) : OptAll (Keeps s0) (fetchTrap s k) := by
  unfold fetchTrap
  split
  · exact OptAll.none
  · exact OptAll.some (trap_keeps ‹_›)
  · exact OptAll.some (trap_keeps ‹_›)
  · extract_lets +onlyGivenNames u1
    have h1 : Keeps s0 u1 := by
      unfold u1
      split
      · exact badPlace_keeps ‹_›
      · assumption
    clear_value u1
    exact OptAll.some (trap_keeps ‹_›)

/-! ### Machine/Trail.lean -/

theorem trailAnswer_keeps {s0 s : State} {ack : Nat} {data : Option Nat} (h0 : Keeps s0 s) :
    Keeps s0 (trailAnswer s ack data) := by
  unfold trailAnswer
  extract_lets +onlyGivenNames u1
  clear_value u1
  exact State.emit_keeps ‹_›

theorem trailErr_keeps {s0 s : State} {e : Nat} (h0 : Keeps s0 s) : Keeps s0 (trailErr s e) := by
  unfold trailErr
  exact State.wr_keeps ‹_›

theorem onCore_keeps {s0 s : State} {f : State → Nat → State} (h0 : Keeps s0 s)
    (h1 : ∀ a00 a01, Keeps s0 a00 → Keeps s0 (f a00 a01)) : Keeps s0 (onCore s f) := by
  unfold onCore
  split
  · exact trailErr_keeps ‹_›
  · refine Keeps.ite (fun _ => ?_) (fun _ => ?_)
    · apply h1
      exact trailErr_keeps ‹_›
    · exact trailErr_keeps ‹_›

theorem readCore_keeps {s0 s : State} {f : Nat → Nat} (h0 : Keeps s0 s) : Keeps s0 (readCore s f).1 := by
  unfold readCore
  split
  · exact Keeps.mkFst (trailErr_keeps ‹_›)
  · split
    · exact Keeps.mkFst (trailErr_keeps ‹_›)
    · exact Keeps.mkFst (trailErr_keeps ‹_›)

theorem haltedPair_keeps {s0 s : State} {d : Nat} (h0 : Keeps s0 s) : Keeps s0 (haltedPair s d) := by
  unfold haltedPair
  refine Keeps.ite (fun _ => ?_) (fun _ => ?_)
  · exact defaultClocks_keeps ‹_›
  · assumption

theorem resumedPair_keeps {s0 s : State} {d : Nat} (h0 : Keeps s0 s) : Keeps s0 (resumedPair s d) := by
  unfold resumedPair
  refine Keeps.ite (fun _ => ?_) (fun _ => ?_)
  · exact controlBack_keeps ‹_›
  · assumption

theorem trailHalt_keeps {s0 s : State} {d : Nat} (h0 : Keeps s0 s) : Keeps s0 (trailHalt s d) := by
  unfold trailHalt
  refine Keeps.ite (fun _ => ?_) (fun _ => ?_)
  · assumption
  · exact haltedPair_keeps (dbgHalt_keeps ‹_›)

theorem trailResume_keeps {s0 s : State} {d : Nat} (h0 : Keeps s0 s) : Keeps s0 (trailResume s d) := by
  unfold trailResume
  refine Keeps.ite (fun _ => ?_) (fun _ => ?_)
  · exact resumedPair_keeps (dbgResume_keeps ‹_›)
  · assumption

theorem trailStep_keeps {s0 s : State} {d : Nat} (h0 : Keeps s0 s) : Keeps s0 (trailStep s d) := by
  unfold trailStep
  refine Keeps.ite (fun _ => ?_) (fun _ => ?_)
  · exact dbgResume_keeps ‹_›
  · exact trailErr_keeps ‹_›

theorem coreCtrlWrite_keeps {s0 s : State} {v : Nat} (h0 : Keeps s0 s) : Keeps s0 (coreCtrlWrite s v) := by
  unfold coreCtrlWrite
  apply onCore_keeps
  · assumption
  · intro v1 v2 v3
    extract_lets +onlyGivenNames u1
    have h1 : Keeps s0 u1 := by
      unfold u1
      refine Keeps.ite (fun _ => ?_) (fun _ => ?_)
      · exact trailHalt_keeps ‹_›
      · assumption
    clear_value u1
    extract_lets +onlyGivenNames u2
    have h2 : Keeps s0 u2 := by
      unfold u2
      refine Keeps.ite (fun _ => ?_) (fun _ => ?_)
      · exact trailResume_keeps ‹_›
      · assumption
    clear_value u2
    refine Keeps.ite (fun _ => ?_) (fun _ => ?_)
    · exact trailStep_keeps ‹_›
    · assumption

theorem setBreak_keeps {s0 s : State} {d j v : Nat} (h0 : Keeps s0 s) : Keeps s0 (setBreak s d j v) := by
  unfold setBreak
  exact State.setDebug_keeps ‹_›

theorem setWatch_keeps {s0 s : State} {d j v : Nat} (h0 : Keeps s0 s) : Keeps s0 (setWatch s d j v) := by
  unfold setWatch
  exact State.setDebug_keeps ‹_›

theorem debugRead_keeps {s0 s : State} {k num : Nat} {sr : Bool} (h0 : Keeps s0 s) : Keeps s0 (debugRead s k num sr).2 := by
  unfold debugRead
  split
  · split
    · exact srRead_keeps ‹_›
    · extract_lets +onlyGivenNames u1
      have h1 : SndKeeps s0 u1 := by
        unfold u1
        exact SndKeeps.of (State.freeWord_keeps ‹_›)
      clear_value u1
      exact Keeps.mkSnd ‹_›
  · split
    · exact Keeps.mkSnd ‹_›
    · split
      · exact Keeps.mkSnd ‹_›
      · extract_lets +onlyGivenNames u2
        have h2 : SndKeeps s0 u2 := by
          unfold u2
          exact SndKeeps.of (State.freeWord_keeps ‹_›)
        clear_value u2
        exact Keeps.mkSnd ‹_›

theorem debugWrite_keeps {s0 s : State} {k num : Nat} {sr : Bool} {v : Nat} (h0 : Keeps s0 s) :
    Keeps s0 (debugWrite s k num sr v) := by
  unfold debugWrite
  refine Keeps.ite (fun _ => ?_) (fun _ => ?_)
  · refine Keeps.ite (fun _ => ?_) (fun _ => ?_)
    · exact srWrite_keeps ‹_›
    · assumption
  · refine Keeps.ite (fun _ => ?_) (fun _ => ?_)
    · exact State.setCore_keeps ‹_›
    · refine Keeps.ite (fun _ => ?_) (fun _ => ?_)
      · exact State.setCore_keeps ‹_›
      · assumption

theorem coreRegGo_keeps {s0 s : State} {d : Nat} (h0 : Keeps s0 s) : Keeps s0 (coreRegGo s d) := by
  unfold coreRegGo
  extract_lets +onlyGivenNames u1 u2
  clear_value u1 u2
  refine Keeps.ite (fun _ => ?_) (fun _ => ?_)
  · exact trailErr_keeps ‹_›
  · refine Keeps.ite (fun _ => ?_) (fun _ => ?_)
    · exact debugWrite_keeps ‹_›
    · extract_lets +onlyGivenNames u3
      have h1 : SndKeeps s0 u3 := by
        unfold u3
        exact SndKeeps.of (debugRead_keeps ‹_›)
      clear_value u3
      exact State.wr_keeps ‹_›

theorem coreRegWrite_keeps {s0 s : State} {v : Nat} (h0 : Keeps s0 s) : Keeps s0 (coreRegWrite s v) := by
  unfold coreRegWrite
  extract_lets +onlyGivenNames u1
  have h1 : Keeps s0 u1 := State.writeFields_keeps ‹_›
  clear_value u1
  refine Keeps.ite (fun _ => ?_) (fun _ => ?_)
  · apply onCore_keeps
    · assumption
    · intro v1 v2 v3
      exact coreRegGo_keeps ‹_›
  · assumption

theorem memStart_keeps {s0 s : State} {write : Option Nat} (h0 : Keeps s0 s) : Keeps s0 (memStart s write) := by
  unfold memStart
  refine Keeps.ite (fun _ => ?_) (fun _ => ?_)
  · assumption
  · extract_lets +onlyGivenNames u1
    clear_value u1
    extract_lets +onlyGivenNames u2
    have h1 : ∀ a00 a01 a02, Keeps s0 a00 → Keeps s0 (u2 a00 a01 a02) := by
      unfold u2
      intro v1 v2 v3 v4
      extract_lets +onlyGivenNames u3
      have h2 : Keeps s0 u3 := trailErr_keeps ‹_›
      clear_value u3
      exact Keeps.upd (t := u3) rfl rfl rfl ‹_›
    clear_value u2
    refine Keeps.ite (fun _ => ?_) (fun _ => ?_)
    · split
      · exact trailErr_keeps ‹_›
      · refine Keeps.ite (fun _ => ?_) (fun _ => ?_)
        · apply h1
          assumption
        · exact trailErr_keeps ‹_›
    · refine Keeps.ite (fun _ => ?_) (fun _ => ?_)
      · apply h1
        assumption
      · exact trailErr_keeps ‹_›

theorem memAdvance_keeps {s0 s : State} (h0 : Keeps s0 s) : Keeps s0 (memAdvance s) := by
  unfold memAdvance
  refine Keeps.ite (fun _ => ?_) (fun _ => ?_)
  · exact State.wr_keeps ‹_›
  · assumption

theorem memDone_keeps {s0 s : State} {j : TrailJob} (h0 : Keeps s0 s) : Keeps s0 (memDone s j) := by
  unfold memDone
  extract_lets +onlyGivenNames u1
  clear_value u1
  extract_lets +onlyGivenNames u2
  have h1 : FstKeeps s0 u2 := by
    unfold u2
    refine FstKeeps.of ?_
    split
    · split
      · rename_i x1 x2 x3 x4 x5 x6
        exact Keeps.mkFst (Keeps.optSnd ‹_› (readPlace_keeps ‹_›))
      · rename_i x7 x8 x9 x10
        exact Keeps.mkFst (trailErr_keeps (badPlace_keeps ‹_›))
    · exact Keeps.mkFst (writePlace_keeps ‹_›)
  clear_value u2
  apply memAdvance_keeps
  extract_lets +onlyGivenNames u3
  have h2 : Keeps s0 u3 := by
    unfold u3
    assumption
  clear_value u3
  exact Keeps.upd (t := u3) rfl rfl rfl ‹_›

theorem memTransaction_keeps {s0 s : State} {write : Option Nat} (h0 : Keeps s0 s) : Keeps s0 (memTransaction s write) := by
  unfold memTransaction
  extract_lets +onlyGivenNames u1
  clear_value u1
  split
  · split
    · exact trailAnswer_keeps (Keeps.upd (t := s) rfl rfl rfl ‹_›)
    · exact trailAnswer_keeps ‹_›
  · extract_lets +onlyGivenNames u2
    have h1 : Keeps s0 u2 := memStart_keeps ‹_›
    clear_value u2
    refine Keeps.ite (fun _ => ?_) (fun _ => ?_)
    · exact trailAnswer_keeps ‹_›
    · extract_lets +onlyGivenNames u3
      have h2 : SndKeeps s0 u3 := by
        unfold u3
        exact SndKeeps.of (State.freeWord_keeps ‹_›)
      clear_value u3
      exact trailAnswer_keeps ‹_›

theorem trailRead_keeps {s0 s : State} {off : Nat} (h0 : Keeps s0 s) : Keeps s0 (trailRead s off).1 := by
  unfold trailRead
  split
  · exact readCore_keeps ‹_›
  · split
    · exact readCore_keeps ‹_›
    · split
      · exact readCore_keeps ‹_›
      · exact Keeps.mkFst ‹_›

theorem authWrite_keeps {s0 s : State} {v : Nat} (h0 : Keeps s0 s) : Keeps s0 (authWrite s v) := by
  unfold authWrite
  extract_lets +onlyGivenNames u1
  have h1 : Keeps s0 u1 := by
    unfold u1
    refine Keeps.ite (fun _ => ?_) (fun _ => ?_)
    · apply nextOf_keeps
      · assumption
      · exact execChallenge_keeps ‹_›
    · assumption
  clear_value u1
  extract_lets +onlyGivenNames u2
  have h2 : Keeps s0 u2 := by
    unfold u2
    refine Keeps.ite (fun _ => ?_) (fun _ => ?_)
    · apply nextOf_keeps
      · assumption
      · exact execSubmit_keeps ‹_›
    · assumption
  clear_value u2
  refine Keeps.ite (fun _ => ?_) (fun _ => ?_)
  · exact controlBack_keeps (trailRelock_keeps ‹_›)
  · assumption

theorem trailWrite_keeps {s0 s : State} {off v : Nat} (h0 : Keeps s0 s) : Keeps s0 (trailWrite s off v) := by
  unfold trailWrite
  refine Keeps.ite (fun _ => ?_) (fun _ => ?_)
  · exact authWrite_keeps ‹_›
  · refine Keeps.ite (fun _ => ?_) (fun _ => ?_)
    · exact State.wr_keeps ‹_›
    · refine Keeps.ite (fun _ => ?_) (fun _ => ?_)
      · exact State.wr_keeps ‹_›
      · refine Keeps.ite (fun _ => ?_) (fun _ => ?_)
        · exact coreCtrlWrite_keeps ‹_›
        · refine Keeps.ite (fun _ => ?_) (fun _ => ?_)
          · exact coreRegWrite_keeps ‹_›
          · refine Keeps.ite (fun _ => ?_) (fun _ => ?_)
            · apply onCore_keeps
              · assumption
              · intro v1 v2 v3
                exact setBreak_keeps ‹_›
            · refine Keeps.ite (fun _ => ?_) (fun _ => ?_)
              · apply onCore_keeps
                · assumption
                · intro v4 v5 v6
                  exact setWatch_keeps ‹_›
              · refine Keeps.ite (fun _ => ?_) (fun _ => ?_)
                · exact State.writeFields_keeps ‹_›
                · assumption

theorem tapSet_keeps {s0 s : State} {code : Nat} (h0 : Keeps s0 s) : Keeps s0 (tapSet s code) := by
  unfold tapSet
  exact Keeps.upd (t := s) rfl rfl rfl ‹_›

theorem tapHoldBegin_keeps {s0 s : State} {code : Nat} (h0 : Keeps s0 s) : Keeps s0 (tapHoldBegin s code) := by
  unfold tapHoldBegin
  refine Keeps.ite (fun _ => ?_) (fun _ => ?_)
  · assumption
  · refine Keeps.ite (fun _ => ?_) (fun _ => ?_)
    · exact tapSet_keeps ‹_›
    · extract_lets +onlyGivenNames u1
      have h1 : SndKeeps s0 u1 := by
        unfold u1
        exact SndKeeps.of (State.freeWord_keeps ‹_›)
      clear_value u1
      extract_lets +onlyGivenNames u2
      have h2 : Keeps s0 u2 := trailRelock_keeps (tapSet_keeps ‹_›)
      clear_value u2
      exact warmBegin_keeps (Keeps.upd (t := u2) rfl rfl rfl ‹_›)

end Sys2Proof.Machine
end

