-- ==== Sys2Proof/WellFormed.lean ====
section
/-! DEFINITION. What a command must be for the outside to be able to send it: the sizes of its data and the ranges that its
operand types do not already give. Choices and readings of the model: log entry 35. -/
namespace Sys2Proof

/-- An offset is a multiple of 8 for a 64-bit access and of 4 for a 32-bit one (R22). -/
def aligned (off : Nat) (wide : Bool) : Bool := off % (if wide then 8 else 4) == 0

/-- Whether a command is well formed. -/
def Instr.wf (i : Instr) : Bool :=
  match i with
  | .auxPwrgdRise => true
  | .auxPwrgdFall => true
  | .pwrgdRise _ _ _ => true
  | .pwrgdFall => true
  | .sysRstNAssert => true
  | .sysRstNRelease => true
  | .perstAssert _ => true
  | .perstRelease _ => true
  | .perstHoldExpire _ => true
  | .railSag _ => true
  | .sysclkStop => true
  | .hclkLoss _ => true
  | .hclkReturn _ => true
  | .oclkLoss _ => true
  | .thermalTrip => true
  | .laserLightLoss _ => true
  | .laserLightRestore _ => true
  | .romDone _ _ => true
  | .identityDone h _ => h.length == 0x10000
  | .imageReadDone a b l m => a.length == 0x100000 && b.length == 0x100000 && l.length == 0x10000 && m.length == 0x10000
  | .repairDone => true
  | .marchDone _ _ => true
  | .trainDone => true
  | .opticalBringupDone => true
  | .warmReset _ => true
  | .dramDrainDone => true
  | .selfRefreshEntered => true
  | .writebackRequest => true
  | .writebackDone => true
  | .writebackTimeout => true
  | .load _ => true
  | .fwLoadVerified _ => true
  | .fwReady => true
  | .fwReadyTimeout => true
  | .negotiate => true
  | .marchRequest _ _ => true
  | .marchRequestDone _ => true
  | .regionControllerFail _ => true
  | .agentMoveDone _ => true
  | .quadrantLoss _ => true
  | .memRegionDegraded _ => true
  | .mgmtPairDisagree _ => true
  | .mgmtFailoverDone => true
  | .tileHardFault _ _ => true
  | .spareBringInDone _ => true
  | .sramError _ _ _ _ _ => true
  | .bar0BadAccess o n _ => !((n.toNat == 4 || n.toNat == 8) && o.toNat % n.toNat == 0)
  | .bar0UnmappedAccess o w _ => 0x2A00000 ≤ o.toNat && aligned o.toNat w
  | .bar0OutOfSvcAccess o w _ => 0x800000 ≤ o.toNat && o.toNat < 0xC00000 && aligned o.toNat w
  | .registerWrite _ o w _ => aligned o.toNat w && o.toNat < 0x2A00000
  | .pcieConfigWrite _ _ => true
  | .memRead _ _ => true
  | .memWrite a d _ => 1 ≤ d.length && a.toNat % 64 + d.length ≤ 64
  | .rowSpareDone => true
  | .bankFence _ => true
  | .scrubRead _ => true
  | .refreshTick _ => true
  | .scrubCfgWrite _ => true
  | .memLayoutWrite _ => true
  | .regionValidSet _ _ _ => true
  | .regionValidClear _ => true
  | .mirrorResyncDone _ => true
  | .mirrorFenceStart _ => true
  | .mirrorFenceDone => true
  | .srSeedWrite _ _ => true
  | .tileCfgWrite _ _ => true
  | .tileQueueEnable _ _ => true
  | .tileQueueDisable _ => true
  | .tileQueueReset _ => true
  | .tileQueueResume _ => true
  | .doorbellTail _ _ _ => true
  | .queueResetDoorbell _ _ _ => true
  | .resumeDoorbell _ _ _ => true
  | .evrHeadDoorbell _ _ _ => true
  | .bar2BadWrite _ _ _ _ => true
  | .queueResetDone _ => true
  | .commandFetch _ _ => true
  | .completionWrite _ => true
  | .waitSatisfied _ => true
  | .run _ => true
  | .tileLoad _ => true
  | .tileCmdWait _ => true
  | .tileCmdPost _ => true
  | .nop _ => true
  | .endCmd _ => true
  | .jmp _ => true
  | .loop _ => true
  | .br _ => true
  | .sli _ => true
  | .salu _ => true
  | .stream _ => true
  | .streamComplete _ _ => true
  | .stout _ => true
  | .stoutComplete _ _ => true
  | .swait _ => true
  | .wload _ => true
  | .mma _ => true
  | .drain _ => true
  | .vop _ => true
  | .post _ => true
  | .waitc _ => true
  | .waitq _ => true
  | .fence _ => true
  | .srseed _ => true
  | .tileWatchdogExpire _ => true
  | .tileDmaStarved _ _ => true
  | .attendItem _ => true
  | .openCmd _ => true
  | .close _ => true
  | .appendKv _ => true
  | .attend _ => true
  | .setTree _ => true
  | .sampleFull _ => true
  | .samplePartial _ => true
  | .sampleMerge _ => true
  | .verify _ => true
  | .commit _ => true
  | .truncate _ => true
  | .contextFetchDone _ => true
  | .ustLinkFrame _ _ _ _ _ _ _ => true
  | .ustPostFrame _ _ _ => true
  | .ustArriveFrame _ _ => true
  | .ustReleaseFrame _ => true
  | .ustReduceData _ _ l => 1 ≤ l.length && l.length ≤ 128
  | .ustBcastData _ _ l => 1 ≤ l.length && l.length ≤ 512
  | .ustAbortFrame _ => true
  | .ustMarkFrame _ => true
  | .ustDownFrame _ => true
  | .ustHeartbeatTick _ => true
  | .ustLinkTimeout _ => true
  | .ustGroupValidSet _ _ => true
  | .ustGroupValidClear _ => true
  | .ustFormingTimeout _ => true
  | .ctrBlockGrant _ _ => true
  | .ctrBlockRevoke _ => true
  | .ustCtrWrite _ _ => true
  | .ustCtrAdd _ _ => true
  | .ustLockSet => true
  | .barrier _ => true
  | .bcast _ => true
  | .allreduce _ => true
  | .rpost _ => true
  | .mark _ => true
  | .write _ => true
  | .writePost _ => true
  | .read _ => true
  | .fadd _ => true
  | .cas _ => true
  | .send _ => true
  | .sendRetryExpire _ => true
  | .bar4Read _ _ n _ => 1 ≤ n.toNat && n.toNat ≤ 4096
  | .bar4Write _ _ l => 1 ≤ l.length && l.length ≤ 4096
  | .bar4ReadTimeout _ _ => true
  | .windowValidSet _ _ => true
  | .windowFenceStart _ => true
  | .windowFenceDone => true
  | .rktEnable _ => true
  | .pdWrite _ _ => true
  | .ftnWrite _ _ => true
  | .fabSalLockSet => true
  | .pktWrite _ l => l.length ≤ 9216
  | .pktWritePost _ l => l.length ≤ 9216
  | .readReq _ => true
  | .pktFadd _ => true
  | .pktCas _ _ => true
  | .pktSend _ l => l.length ≤ 9216
  | .readResp _ l => l.length ≤ 9216
  | .atomicResp _ _ => true
  | .opResp _ => true
  | .ack _ => true
  | .nak _ => true
  | .probe _ => true
  | .hello _ => true
  | .helloAck _ => true
  | .arpRequest _ _ _ _ => true
  | .neighbourSolicitation _ _ _ _ => true
  | .ethFrameDrop _ _ => true
  | .schedulerDecision _ => true
  | .ackTimerExpire _ => true
  | .rtoExpire _ => true
  | .peerTimeout _ => true
  | .holdoffExpire _ => true
  | .notReadyPauseExpire _ => true
  | .fabPortEnable _ _ => true
  | .laneFault _ => true
  | .laneRetrainDone _ _ _ => true
  | .laneSpareDone _ => true
  | .laneUp _ => true
  | .ctxStoreCfgWrite _ => true
  | .fabLockSet => true
  | .schedInterval => true
  | .schNodeWrite i n _ _ => i || n.val < 256
  | .policerWrite _ _ _ => true
  | .policerBind i n _ => i || n.val < 256
  | .policerRelease _ => true
  | .bmeClear _ => true
  | .bmeSet _ => true
  | .flr _ => true
  | .flrDone _ => true
  | .hotReset _ => true
  | .dlDown _ => true
  | .linkStateChange _ _ _ _ _ => true
  | .pasidEnableClear _ => true
  | .d3hotEntry _ => true
  | .bar4Resize _ _ => true
  | .msixUnmask _ _ _ => true
  | .hostUnsupportedRequest _ _ _ => true
  | .poisonedWriteReceived _ => true
  | .hostReadIssue _ => true
  | .hostCompletion _ _ _ _ => true
  | .completionTimeout _ _ => true
  | .tagQuarantineExpire _ _ => true
  | .eventWrite => true
  | .evrHoldoffExpire _ => true
  | .evrEnable _ _ => true
  | .evrHeadWrite _ _ => true
  | .sqEnable _ => true
  | .sqTailWrite _ => true
  | .gladeCreate => true
  | .gladeQuota => true
  | .gladeReset => true
  | .gladeDestroy => true
  | .instCreate => true
  | .instReset => true
  | .instDestroy => true
  | .queueCreate => true
  | .queueDelete => true
  | .regCreate => true
  | .regRemove => true
  | .regRemoveDrained => true
  | .stqRead _ _ => true
  | .stqWrite _ _ _ => true
  | .flush _ => true
  | .deallocate _ => true
  | .identify _ => true
  | .getLog _ => true
  | .getFeature _ => true
  | .setFeature _ => true
  | .fwDownload _ _ => true
  | .fwCommit _ => true
  | .createQueue _ => true
  | .deleteQueue _ => true
  | .volumeValidSet _ _ => true
  | .volumeValidClear _ => true
  | .stagingEnable _ _ _ => true
  | .serviceTimeout _ _ => true
  | .slotQuarantineExpire _ _ => true
  | .activationDrainTimeout => true
  | .loadPlain _ _ _ => true
  | .loadWrapped _ _ _ _ => true
  | .ecdhKek _ _ => true
  | .erase _ _ => true
  | .keyCmdDone => true
  | .attestStart _ => true
  | .attestDone => true
  | .rollbackAdvance => true
  | .advanceDone => true
  | .fabKeyGroupWrite _ _ _ => true
  | .sealLockTake _ _ => true
  | .sealLockRelease _ => true
  | .sealLockExpire => true
  | .sealMsgWrite _ _ => true
  | .seal _ _ _ _ _ => true
  | .sealVerify _ _ _ _ _ _ => true
  | .loadkey _ _ => true
  | .sealChunkDone => true
  | .secDebugLockSet => true
  | .capture _ => true
  | .ckpDrain _ => true
  | .restore _ _ _ => true
  | .abandon _ => true
  | .ringGroupValidSet _ _ => true
  | .ckpMemberMessage _ _ _ _ => true
  | .ckpTimerExpire _ _ => true
  | .ckpTrigger _ _ => true
  | .copyGranule _ _ => true
  | .ckpDedupDone _ _ => true
  | .ckpStaged _ _ => true
  | .ckpRootSealed _ _ => true
  | .heartbeat _ => true
  | .mirrorWrite _ => true
  | .mirrorAck _ => true
  | .resyncWrite _ => true
  | .twinHeartbeatTick _ => true
  | .twinPortTimeout _ => true
  | .mirrorAckTimer => true
  | .mirrorRetransmitTimer => true
  | .twinProbeTick => true
  | .grantTimeout => true
  | .isolatedRetryTick => true
  | .takeoverWaitExpire => true
  | .pair _ => true
  | .twnLockSet => true
  | .takeOut _ _ => true
  | .returnCmd _ => true
  | .add _ => true
  | .sub _ => true
  | .andCmd _ => true
  | .orCmd _ => true
  | .xorCmd _ => true
  | .sll _ => true
  | .srl _ => true
  | .sra _ => true
  | .slt _ => true
  | .sltu _ => true
  | .mul _ => true
  | .mulh _ => true
  | .mulhu _ => true
  | .div _ => true
  | .divu _ => true
  | .rem _ => true
  | .remu _ => true
  | .addi _ => true
  | .andi _ => true
  | .ori _ => true
  | .xori _ => true
  | .slti _ => true
  | .slli _ => true
  | .srli _ => true
  | .srai _ => true
  | .lui _ => true
  | .auipc _ => true
  | .lb _ => true
  | .lbu _ => true
  | .lh _ => true
  | .lhu _ => true
  | .lw _ => true
  | .sb _ => true
  | .sh _ => true
  | .sw _ => true
  | .beq _ => true
  | .bne _ => true
  | .blt _ => true
  | .bge _ => true
  | .bltu _ => true
  | .bgeu _ => true
  | .jal _ => true
  | .jalr _ => true
  | .dadd _ => true
  | .daddc _ => true
  | .dsub _ => true
  | .dsubb _ => true
  | .dadj _ => true
  | .dsl _ => true
  | .dsr _ => true
  | .ecall _ => true
  | .ebreak _ => true
  | .tret _ => true
  | .wfi _ => true
  | .fernFence _ => true
  | .mfsr _ => true
  | .mtsr _ => true
  | .cpost _ => true
  | .cwait _ => true
  | .cread _ => true
  | .amoadd _ => true
  | .amoswap _ => true
  | .amocas _ => true
  | .cAddi _ => true
  | .cLw _ => true
  | .cSw _ => true
  | .cAlu _ => true
  | .cBz _ => true
  | .cJ _ => true
  | .cLi _ => true
  | .illegalInstruction _ => true
  | .timerInterrupt _ => true
  | .coreWatchdogExpire _ => true
  | .coreRestartDone _ => true
  | .oflLoad _ => true
  | .oflLoadDone => true
  | .oflStart _ => true
  | .oflStop _ => true
  | .oflStopDone => true
  | .oflUnload _ => true
  | .fwStoreEnable _ => true
  | .fwCommitVerified => true
  | .deferredStartExpire => true
  | .quiesceDone => true
  | .handoverReady _ => true
  | .handoverTimeout => true
  | .activationResumeDone => true
  | .fallbackDone => true
  | .thermalLevelEnter _ _ => true
  | .thermalLevelExit l => l.length == 16
  | .sensorFault _ => true
  | .powerSample _ => true
  | .fwLoopTick => true
  | .pwrLimitWrite _ => true
  | .thermCfgWrite _ => true
  | .pwrLockSet => true
  | .query _ => true
  | .clear _ => true
  | .clearBlock _ => true
  | .tlmStreamEnable _ _ => true
  | .streamSample _ => true
  | .meterRingEnable _ => true
  | .meteringInterval => true
  | .crossingTimeout _ _ _ => true
  | .crossingHoldLong _ _ _ => true
  | .farClockReturn _ => true
  | .groveReset _ => true
  | .groveResetDone _ => true
  | .clkLockSet => true
  | .trailRead o _ => o.toNat % 8 == 0
  | .trailWrite o _ _ => o.toNat % 8 == 0
  | .trailBadOp o _ _ => o.toNat != 1 && o.toNat != 2
  | .challenge => true
  | .submit => true
  | .debugResponseChecked => true
  | .debugRefusalExpire => true
  | .trailRelock => true
  | .halt => true
  | .trailResume => true
  | .step => true
  | .breakpointHit _ => true
  | .watchpointHit _ => true
  | .coreRegAccess _ => true
  | .trailMemAccess _ => true
  | .trailMemDone => true
  | .extest => true
  | .idcode => true
  | .samplePreload => true
  | .clamp => true
  | .highz => true
  | .bypass => true
  | .testLogicReset => true
  | .oclkReturn _ => true
  | .tlpErrorReceived _ _ => true
  | .hostPortInternalError _ _ => true
  | .stqMsixHoldoffExpire _ => true

end Sys2Proof
end

