-- ==== Sys2Proof/Tests/Slice0.lean ====
section
/-! SUPPORT. The model's own tests: an ill-formed term for each check of WellFormed, the worked examples of the spec and some
calculations by hand, and for each statement states and operands that meet the hypotheses of its clauses. -/
namespace Sys2Proof.Tests
open Sys2Proof Sys2Proof.Machine

set_option Elab.async false

/-! ### States -/

/-- The machine with firmware ready. -/
def ready : State := State.reset.wrs 0 [(BOOT_STATE.STATE, 8), (CPU_MGMT.PAIR0_OK, 1), (CPU_MGMT.PAIR1_OK, 1)]

/-- The machine at a stage of the start sequence. -/
def stage (n : Nat) : State := State.reset.wr BOOT_STATE.STATE 0 n

/-- The state with a part of it changed. -/
def inBoot (s : State) (f : Boot → Boot) : State := { s with boot := f s.boot }
def inDram (s : State) (f : Dram → Dram) : State := { s with dram := f s.dram }
def inPins (s : State) (f : Pins → Pins) : State := { s with pins := f s.pins }
def inCpu (s : State) (f : Cpu → Cpu) : State := { s with cpu := f s.cpu }
def inFw (s : State) (f : Fw → Fw) : State := { s with fw := f s.fw }
def inSec (s : State) (f : Sec → Sec) : State := { s with sec := f s.sec }
def inTwin (s : State) (f : Twin → Twin) : State := { s with twin := f s.twin }
def inPwr (s : State) (f : Pwr → Pwr) : State := { s with pwr := f s.pwr }

/-- The state with bytes of memory written. -/
def holding (s : State) (a : Nat) (l : List Byte) : State := (s.putMem a l).1

/-- Core 5 with an instruction word at its PC, operands in gp1 and gp2, and more of its registers changed. -/
def fern (w a b : Nat) (f : Core → Core := id) : State :=
  let s := localStore (ready.wr CPU_CORE.STATE (coreEntry 5) 1) 5 0x100 (toLe 4 w)
  s.setCore 5 (f ((({ pc := 0x100 } : Core).setGpr 1 a).setGpr 2 b))

/-- A word of layout R with RD 3, RS1 1 and RS2 2. -/
def rw (major funct : Nat) : Nat := 8 * major + 2 ^ 8 * 3 + 2 ^ 13 * 1 + 2 ^ 18 * 2 + 2 ^ 23 * funct

/-- A word of layouts I, S and B with 3 and 1 in the register fields. -/
def iw (major imm : Nat) : Nat := 8 * major + 2 ^ 8 * 3 + 2 ^ 13 * 1 + 2 ^ 18 * imm

/-- What layout R decodes to. -/
def ri (op : FernOp) : FernIns := { op := op, rd := 3, rs1 := 1, rs2 := 2, imm := 2 }

/-- What layout I decodes to. -/
def ii (op : FernOp) (imm : Int) : FernIns := { op := op, rd := 3, rs1 := 1, imm := imm }

/-- An image with boot options that permit write-backs. -/
def wbImage : List Byte :=
  toLe 4 0x5352594C ++ toLe 2 1 ++ toLe 2 1 ++ toLe 4 1 ++ toLe 4 256 ++ List.replicate 48 0 ++ toLe 2 1 ++ toLe 2 1 ++ toLe 4 80
    ++ toLe 4 8 ++ toLe 4 0 ++ [0, 1, 0, 0, 0, 0, 0, 0]

/-- The state with both host ports out of reset and able to be bus master. -/
def hosted (s : State) : State :=
  ((s.setPort 0 { s.port 0 with inReset := false, retry := false, msixEn := true, training := true, bar4On := true }).setPort 1
      { s.port 1 with inReset := false, retry := false, msixEn := true, training := true, bar4On := true }).wr
    HEP_PORT_STAT.BME 0 1 |>.wr HEP_PORT_STAT.BME 1 1

/-- A command of 64 bytes with fields at offsets: offset, length, value. -/
def fields (l : List (Nat × Nat × Nat)) : List Byte := toLe 64 (l.foldl (fun n x => n + x.2.2 % 256 ^ x.2.1 * 256 ^ x.1) 0)

/-- The fetched command with such bytes. -/
def cmd (l : List (Nat × Nat × Nat)) : Cmd := { bytes := fields l, entry := 0, stamp := 0, started := false, waiting := false }

/-- A queue that holds one fetched command. -/
def queued (s : State) (qid : Nat) (c : Cmd) (q : Queue := {}) : State :=
  s.setQueue qid { q with valid := true, state := .active, cmds := [c], head := 1, tail := 1 }

/-- Storage queue 3 with one command, which holds tag 0 on a volume. -/
def stored (s : State) (c : Cmd) (v : Vol := {}) (q : Queue := {}) : State :=
  (queued s (stqQid 3) c q).setTag 3 0 { entry := some 0, vol := v }

/-- Region 1 of glade `g` with `n` units of 2 MiB from unit 1 on. -/
def region (s : State) (g n : Nat) : State :=
  s.wrs 1 [(MEM_RGN_A.VALID, 1), (MEM_RGN_A.GLADE, g), (MEM_RGN_A.BASE, 1), (MEM_RGN_B.SIZE, n)]

/-- An image with thermal and power limits. -/
def pwrImage : List Byte :=
  toLe 4 0x5352594C ++ toLe 2 1 ++ toLe 2 1 ++ toLe 4 1 ++ toLe 4 256 ++ List.replicate 48 0 ++ toLe 2 7 ++ toLe 2 1 ++ toLe 4 80
    ++ toLe 4 24 ++ toLe 4 0 ++ [1, 0] ++ toLe 2 200 ++ toLe 2 400 ++ toLe 2 20 ++ [90, 95, 100, 5, 8, 8, 8, 0]
    ++ List.replicate 8 0

/-- The state with event ring 0 in force for every glade. -/
def listen (s : State) : State := s.wr HEP_EVR_CFG.ENABLE 0 1

/-- Tile 5 about to issue the word `w` of a program, more of it changed. -/
def tiled (w : Nat) (f : Tile → Tile := id) (s : State := ready) : State :=
  s.setTile 5 (f { prog := [(0, w)], run := some 0 })

/-- The state with the sync counters of block 0 granted to glade 0. -/
def counting (s : State) : State := s.wr UST_CTR_BLK.GRANTED 0 1

/-- The state with tile queue 40, which is queue 0 of tile 5, that holds such a command. -/
def tileCommand (c : Cmd) (s : State := ready) : State := queued s (tileQid 40) c

/-- A stream with one layer, one head and 512 positions of 64 bytes, its page table at 0x210000. -/
def stream1 : Stream :=
  { valid := true, kvFmt := 2, qFmt := 2, layers := 1, heads := 1, group := 1, dim := 64, maxLen := 512, len := 4,
    scale := 0x3F800000, table := 0x210000, seed := 7 }

/-- Decode queue 3 with one command and stream 5, in glade 0 with a region from 0x200000 on that holds some bytes, a page
table and the tile 5 of its mask. -/
def decoding (c : Cmd) (x : Stream := stream1) (s : State := ready) : State :=
  let s := holding (region s 0 1) 0x200040 ((List.range 16).map fun i => BitVec.ofNat 8 (i * 37 + 5))
  ((queued (holding s 0x210000 (toLe 4 0x80000022)) (decQid 3) c).setStream 5 x).wrs 5 [(TILE_CFG.ASSIGNED, 1)]

/-- Tile 5 with a decode item of a command that has two to go. -/
def attending (c : Cmd) : State :=
  let s := decoding c { stream1 with busy := some (decQid 3) }
  let a : Attend :=
    { ctx := 5, count := 1, left := 2, parts := [none], fmt := 4, q := 0x200040, out := 0x201000, mask := 32 }
  { s with attends := [(decQid 3, a)] }.setTile 5 { items := [{ qid := decQid 3, head := 0, page := 0, prio := 0 }] }

/-- Group 1, UP, this member 1 of four in a ring over the links 2 and 3, which are UP, and a command of its queue 3. -/
def grouped (c : Cmd) (x : UstGroup := {}) (n : Nat := 4) : State :=
  let s := (queued (counting (region ready 0 1)) (ustQid 3) c).setUstGroup 1 x
  let s := s.wrs 1 [(UST_GRP_A.VALID, 1), (UST_GRP_A.STATE, 2), (UST_GRP_A.MEMBERS, n), (UST_GRP_A.SELF, 1), (UST_GRP_A.GEN, 5),
    (UST_GRP_B.NEXT_VALID, 1), (UST_GRP_B.NEXT, 2), (UST_GRP_B.PREV_VALID, 1), (UST_GRP_B.PREV, 3)]
  (s.wr UST_LINK.UP 2 1).wr UST_LINK.UP 3 1

/-- A collective of that command, operation 9 of the group. -/
def coll (op dtype : Nat) (flowing : Bool) : Coll :=
  { qid := ustQid 3, entry := 0, opseq := 9, sig := { op := op, len := if op = 2 ∨ op = 3 then 256 else 0, dtype := dtype, redop := 0, root := 0 },
    src := 0x200000, dst := 0x201000, arrived := [1], since := 0, flowing := flowing }

/-- Region 1 of glade 0 and the registration table in region 2; glade 0 has tenant number 9; entry 0 covers 0x210000 to 0x220000 in
domain 3 with every right and generation 2. -/
def registered (s : State) : State :=
  let s := (region (counting s) 0 1).wrs 2 [(MEM_RGN_A.VALID, 1), (MEM_RGN_A.BASE, 2), (MEM_RGN_B.SIZE, 1)]
  let s := s.wrs 0 [(FAB_SAL_RKT_CFG.REGION, 2), (FAB_SAL_RKT_CFG.LOG2N, 10), (FAB_SAL_RKT_CFG.ENABLE, 1), (FAB_SAL_FTN.FTN, 9)]
  let s := s.wrs 3 [(FAB_SAL_PD.VALID, 1), (FAB_SAL_PD.USERS, 1)]
  let e : RegEntry := { base := 0x210000, length := 0x10000, pd := 3, rights := 15, gen := 2, valid := true, glade := 0 }
  holding (s.setRegEntry 0 e) 0x210000 [1, 2, 3, 4, 5, 6, 7, 8, 9, 10, 11, 12, 13, 14, 15, 16]

/-- Device 9 as a peer with keys, its context OPEN on port 3. -/
def peered (s : State) (x : Peer := {}) : State :=
  let s := s.wrs 0 [(SEC_FAB_GRP_A.VALID, 1), (SEC_FAB_GRP_A.HI, 65535)]
  (s.wrs 3 [(FAB_PORT.STATE, 3), (FAB_PORT.MTU, 4096)]).setPeer 9 { x with state := 2, port := 3, epoch := 1, win := 65536 }

/-- The headers of a frame for data port 3, as the settings of these states give them. -/
def frame3 : FrameHead :=
  { eth := { dst := 0, tags := [] }, v6 := false, proto := 17, ihl := 5, mf := false, frag := 0, ipSum := true, dst := 3,
    udpPort := 0, udpSum := true }

/-- Initiator queue 7 in domain 3 with one command, and receive queue 8 with one posted buffer. -/
def sending (c : Cmd) (q : Queue := { pd := 3 }) : State :=
  let b := cmd [(0, 8, 0x211000), (8, 4, 2), (12, 4, 4096)]
  peered (queued (queued (registered ready) (salQid 8) b { pd := 3, kind := true }) (salQid 7) c q)

/-- A lookup of a key that misses the registration cache, or hits it. -/
def noteAs (s : State) (key : Nat) (miss : Bool) : State :=
  if key < 2 ^ 28 && keyIndex key < rktSize s && s.flag FAB_SAL_RKT_CFG.ENABLE then
    if miss then { s with fresh := s.fresh + 1 }.bump FAB_SAL_RKT_MISS.COUNT else { s with fresh := s.fresh + 1 }
  else s

/-- Which one it is is a free value. -/
theorem noteLookup_eq (s : State) (key : Nat) : noteLookup s key = noteAs s key (Config.freeBit s.fresh) := rfl

/-- The state for storage: host ports in order, region 1 of glade 0 with some bytes, and the registration table. -/
def storing (c : Cmd) (v : Vol) (q : Queue := {}) : State :=
  stored (holding (hosted (listen (registered ready))) 0x200000 ((List.range 16).map fun i => BitVec.ofNat 8 (i * 37 + 5))) c v q

/-- A volume in region 1. -/
def localVol : Vol := { num := 6, local_ := true, target := 1, capacity := 100 }

/-- A volume served by device 9. -/
def remoteVol : Vol := { num := 6, dev := 9, target := 40, svol := 2, capacity := 100 }

/-- Two granules, and part of a third, of a kind 1 item. -/
def item1 : CkpItem :=
  { kind := 1, port := 0, usePasid := false, doneEn := false, doneCtr := 0, id := 7, addr := 0x220000, len := 0x30000, pasid := 0,
    captured := false, atTrigger := 0 }

/-- Ring group 1: member 1 of three with one parity shard, queue 3 with a command, its reserve in region 4, seal slot 2; its
first ring in a state with step 10. -/
def ringing (st : Nat) (c : Cmd) (x : CkpRing := {}) : State :=
  let s := (region (counting (listen ready)) 0 1).wrs 4 [(MEM_RGN_A.VALID, 1), (MEM_RGN_A.BASE, 64), (MEM_RGN_B.SIZE, 34)]
  let s := (holding s 0x201000 item1.bytes).wrs 1 [(CKP_GRP_A.VALID, 1), (CKP_GRP_A.QUEUE, 3), (CKP_GRP_A.MEMBERS, 3),
    (CKP_GRP_A.PARITY, 1), (CKP_GRP_A.SELF, 1), (CKP_GRP_A.RESERVE, 4), (CKP_GRP_A.SEAL_SLOT, 2)]
  let s := (queued s (ckpQid 3) c).wrs 6 [(STQ_VOL_A.VALID, 1), (STQ_VOL_A.BACKEND, 1), (STQ_VOL_B.TARGET, 1), (STQ_VOL_C.CAPACITY, 4096)]
  (s.setRing 2 x).wrs 2 [(CKP_RING_A.STATE, st), (CKP_RING_STEP.STEP, 10)]

/-- A twin pair in a state, the twin being device 9: region 1 is mirrored, region 2 takes the twin's writes. -/
def twinned (st : Nat) (s : State := ready) : State :=
  let s := ((peered (region (listen s) 0 1)).wrs 1 [(MEM_RGN_A.MIRROR, 1)]).wrs 2
    [(MEM_RGN_A.VALID, 1), (MEM_RGN_A.BASE, 2), (MEM_RGN_B.SIZE, 1), (MEM_RGN_A.MIRROR_TARGET, 1)]
  let s := s.wrs 0 [(TWN_CFG.ENABLE, 1), (TWN_CFG.TWIN_DEV, 9), (TWN_CFG.KEY_SLOT, 4), (TWN_STATUS.STATE, st), (TWN_STATUS.PAIR_EPOCH, 6)]
  [32, 33, 34, 35].foldl (fun s l => s.wr OPT_LANE.STATE l 2) (s.wr SEC_KEY_SLOT.TYPE 4 1)

/-- Instance 1, of glade 0, at home on port 0. -/
def owned (s : State) : State := s.wr GLD_INST.VALID 1 1

/-- Queue 7 of the transport class, of instance 1. -/
def belled (q : Queue) (s : State := ready) : State := (owned s).setQueue (salQid 7) { q with valid := true, inst := 1 }

/-- The set-up queue in force, its ring of 16 entries in host memory, with one more command in it. -/
def setUp (s : State) : State :=
  (hosted s).wrs 0 [(GLD_SQ_CTRL.ENABLE, 1), (GLD_SQ_CTRL.LOG2SIZE, 4), (GLD_SQ_BASE.LOC, 1), (GLD_SQ_TAIL.TAIL, 1)]

/-- The set-up queue in force, with a command fetched. -/
def settingUp (c : Cmd) (s : State) : State :=
  ((hosted s).wrs 0 [(GLD_SQ_CTRL.ENABLE, 1), (GLD_SQ_CTRL.LOG2SIZE, 4), (GLD_SQ_TAIL.TAIL, 1)]).setQueue 0
    { ((hosted s).wrs 0 [(GLD_SQ_CTRL.ENABLE, 1)]).queue 0 with cmds := [c], head := 1, tail := 1 }

/-! ### What is not well formed -/

theorem test_wf_identityDone : (Instr.identityDone [] none).wf = false := by decide
theorem test_wf_imageReadDone : (Instr.imageReadDone [] [] [] []).wf = false := by decide
theorem test_wf_bar0BadAccess : (Instr.bar0BadAccess 8 8 true).wf = false := by decide
theorem test_wf_bar0UnmappedAccess_below : (Instr.bar0UnmappedAccess 0x29FFFF8 true true).wf = false := by decide
theorem test_wf_bar0UnmappedAccess_aligned : (Instr.bar0UnmappedAccess 0x2A00004 true true).wf = false := by decide
theorem test_wf_bar0OutOfSvcAccess_below : (Instr.bar0OutOfSvcAccess 0x7FFFF8 true true).wf = false := by decide
theorem test_wf_bar0OutOfSvcAccess_above : (Instr.bar0OutOfSvcAccess 0xC00000 true true).wf = false := by decide
theorem test_wf_bar0OutOfSvcAccess_aligned : (Instr.bar0OutOfSvcAccess 0x800002 false true).wf = false := by decide
theorem test_wf_registerWrite_aligned : (Instr.registerWrite 0 4 true 0).wf = false := by decide
theorem test_wf_registerWrite_range : (Instr.registerWrite 0 0x2A00000 true 0).wf = false := by decide
theorem test_wf_memWrite_empty : (Instr.memWrite 0 [] .clean).wf = false := by decide
theorem test_wf_memWrite_across : (Instr.memWrite 63 [1, 2] .clean).wf = false := by decide
theorem test_wf_ustReduceData :
    (Instr.ustReduceData { link := 3, group := 1, src := 2, dst := 1, gen := 5, lseq := 0, opseq := 9 } 0 []).wf = false := by
  decide
theorem test_wf_ustReduceData_long :
    (Instr.ustReduceData { link := 3, group := 1, src := 2, dst := 1, gen := 5, lseq := 0, opseq := 9 } 0
      (List.replicate 129 0)).wf = false := by decide +kernel
theorem test_wf_ustBcastData :
    (Instr.ustBcastData { link := 3, group := 1, src := 2, dst := 1, gen := 5, lseq := 0, opseq := 9 } 0 []).wf = false := by
  decide
theorem test_wf_ustBcastData_long :
    (Instr.ustBcastData { link := 3, group := 1, src := 2, dst := 1, gen := 5, lseq := 0, opseq := 9 } 0
      (List.replicate 513 0)).wf = false := by decide +kernel
theorem test_wf_bar4Read_none : (Instr.bar4Read 0 0 0 0).wf = false := by decide
theorem test_wf_bar4Read_long : (Instr.bar4Read 0 0 4097 0).wf = false := by decide
theorem test_wf_bar4Write_none : (Instr.bar4Write 0 0 []).wf = false := by decide
theorem test_wf_bar4Write_long : (Instr.bar4Write 0 0 (List.replicate 4097 0)).wf = false := by decide +kernel
/-- The header of a packet of device 9. -/
def packet : SalHeader :=
  { port := 3, frame := frame3, authentic := true, ce := false, version := 1, first := true, last := true, ackreq := false,
    ece := false, fresh := false, src := 9, dst := 0, epoch := 1, ftn := 9, psn := 5, apsn := 3, ts := 0, tse := 0, addr := 0x210000, rkey := 2,
    msg := 7, moff := 0, aux := 0, opv := 0 }

theorem test_wf_pktWrite : (Instr.pktWrite packet (List.replicate 9217 0)).wf = false := by decide +kernel
theorem test_wf_pktWritePost : (Instr.pktWritePost packet (List.replicate 9217 0)).wf = false := by decide +kernel
theorem test_wf_pktSend : (Instr.pktSend packet (List.replicate 9217 0)).wf = false := by decide +kernel
theorem test_wf_readResp : (Instr.readResp packet (List.replicate 9217 0)).wf = false := by decide +kernel
theorem test_wf_schNodeWrite : (Instr.schNodeWrite false 256 false 0).wf = false := by decide
theorem test_wf_policerBind : (Instr.policerBind false 256 0).wf = false := by decide
theorem test_wf_thermalLevelExit : (Instr.thermalLevelExit [1]).wf = false := by decide
theorem test_wf_trailRead : (Instr.trailRead 4 0).wf = false := by decide
theorem test_wf_trailWrite : (Instr.trailWrite 4 0 0).wf = false := by decide
theorem test_wf_trailBadOp : (Instr.trailBadOp 2 0 0).wf = false := by decide
theorem test_wf_memWrite_whole : (Instr.memWrite 64 (List.replicate 64 7) .clean).wf = true := by decide

/-! ### The spec's worked examples -/

/-- L = 4 and bank 2 of channel 37 retired, the example of spec/04_memory_stacks.md. -/
def tiered : State :=
  (ready.wr MEM_LAYOUT.LOCAL_GIB 0 4).wrs 0
    [(MEM_RETIRE.CHANNEL, 37), (MEM_RETIRE.BANK, 2), (MEM_RETIRE.STATE, 2), (MEM_STATUS.TOP_MIB, 163520)]

/-- Channel 1, bank 7, row 4,161 of that example. -/
theorem test_memory_tier1 : mapAddr tiered 0x1F40000000 = some (1, 7, 4161) := by decide +kernel

/-- Model K of spec/07_decode_engine.md: 8 KV heads, D of 128 in FP8, MAX_LEN 32,768. -/
def modelK : Stream := { kvFmt := 2, layers := 60, heads := 8, dim := 128, maxLen := 32768 }

/-- Its page table has 245,760 bytes, and position 20,000 of layer 5, head 3 lies in page 78 at offset 32. -/
theorem test_kv_pages :
    modelK.tableBytes = 245760 ∧ 20000 / modelK.perPage = 78 ∧ modelK.entryAddr 5 3 78 = 0x5738
      ∧ modelK.keyOff 20000 = 0x1000 := by decide +kernel

/-- The state after a command. -/
def after (c : Instr) (s : State) : State :=
  match exec c s with
  | .next t => t
  | _ => s

/-- Storage queue 0x0840 of instance 0x021. -/
def ringed : State := (ready.wr GLD_INST.VALID 0x21 1).setQueue (stqQid 0x840) { valid := true, inst := 0x21, state := .active }

/-- The doorbell of spec/13_glades_instances.md moves its tail to 12. -/
theorem test_doorbell_tail :
    ((after (.doorbellTail 0 0x21 0x0000000C00500840) ringed).queue (stqQid 0x840)).tail = 12 := by decide +kernel

/-- C.ADDI gp9, -1 is 0xFFC9 (spec/18_control_processors.md). -/
theorem test_fern_cAddi : decode16 0xFFC9 = some { op := .cAddi, rd := 9, rs1 := 9, imm := -1, len := 2 } := by
  decide +kernel

/-- DADDC gp12, gp8, gp9 is 0x00A50CD0. -/
theorem test_fern_daddc :
    (decode32 0x00A50CD0).map (fun i => (i.op, i.rd, i.rs1, i.rs2)) = some (.daddc, 12, 8, 9) := by decide +kernel

/-- A core with a decimal instruction ahead, its operands, and C. -/
def decimal (funct a b df : Nat) : State := fern (rw 0x1A funct) a b (fun c => { c with df := df })

/-- 199,999,999 + 2, low word. -/
theorem test_fern_dadd_low :
    let c := (after (.dadd 5) (decimal 0 0x99999999 2 0)).core 5
    c.gpr 3 = 1 ∧ c.df % 4 = 1 := by decide +kernel

/-- 199,999,999 + 2, high word. -/
theorem test_fern_daddc_high :
    let c := (after (.daddc 5) (decimal 1 1 0 1)).core 5
    c.gpr 3 = 2 ∧ c.df % 4 = 0 := by decide +kernel

/-- 5 - 7, low and high word: the ten's complement of 2. -/
theorem test_fern_dsub :
    ((after (.dsub 5) (decimal 2 5 7 0)).core 5).gpr 3 = 0x99999998
      ∧ ((after (.dsubb 5) (decimal 3 0 0 1)).core 5).gpr 3 = 0x99999999 := by decide +kernel

/-- 0x99 + 0x99 adjusted: 0x132 becomes 0x198. -/
theorem test_fern_dadj :
    ((after (.dadj 5) (fern (8 * 0x1A + 2 ^ 8 * 3 + 2 ^ 13 + 2 ^ 23 * 4) 0x132 0
      (fun c => { c with df := sumFlags 0 0x99 0x99 }))).core 5).gpr 3 = 0x198 := by decide +kernel

/-- The fields 412,345,678,912 and 10,368,000,000,000,000 of spec/20_telemetry_counters.md. -/
theorem test_metering_field :
    toLe 8 (packed16 412345678912) = [0x12, 0x89, 0x67, 0x45, 0x23, 0x41, 0, 0]
      ∧ packed16 10368000000000000 = 0x9999999999999999 := by decide +kernel

/-- The lock of the sealing example of spec/15_security.md. -/
theorem test_seal_lock :
    let t := after (.sealLockTake 0x5A01 false) ready
    t.flag SEC_SEAL_LOCK.HELD = true ∧ t.rd SEC_SEAL_LOCK.TOKEN = 0x5A01 := by decide +kernel

/-! ### What the statements' hypotheses are met by -/

/-- States and operands meet the hypotheses of `StepKeepsCanonical`. -/
theorem witness_stepKeepsCanonical :
    ∃ s t : State, s.Canonical ∧ step s = .next t :=
  ⟨State.reset, _, by unfold State.Canonical; decide +kernel, rfl⟩

/-- States and operands meet the hypotheses of each clause of `StepIdlesOrTakesOne`. -/
theorem witness_stepIdlesOrTakesOne :
    (∃ s t : State, step s = .next t) ∧
    (∃ (s : State), s.pending = [] ∧ s.dram.clearing = [] ∧ (∀ (p : Nat), p < 16 → s.rd FAB_PORT.STATE p ≠ 3)) :=
  ⟨⟨State.reset, _, rfl⟩,
   ⟨ready, by decide +kernel⟩⟩

/-- States and operands meet the hypotheses of each clause of `TileFlowAndSync`. -/
theorem witness_tileFlowAndSync :
    (∃ (s : State) (n : Fin 64) (x : Nat) (y : Nat) (tgt : Nat) (cond : Nat) (mask : Nat), x < 16 ∧ y < 16 ∧ tgt < 4096 ∧
      cond < 4 ∧ mask < 16 ∧ TileAt s n.val 0 ∧ (s.tile n.val).pc ≠ 4095) ∧
    (∃ (s : State) (n : Fin 64) (x : Nat) (y : Nat) (tgt : Nat) (cond : Nat) (mask : Nat), x < 16 ∧ y < 16 ∧ tgt < 4096 ∧
      cond < 4 ∧ mask < 16 ∧ TileAt s n.val (2 + 2 ^ 32 * tgt)) ∧
    (∃ (s : State) (n : Fin 64) (x : Nat) (y : Nat) (tgt : Nat) (cond : Nat) (mask : Nat), x < 16 ∧ y < 16 ∧ tgt < 4096 ∧
      cond < 4 ∧ mask < 16 ∧ TileAt s n.val (3 + 2 ^ 32 * x + 2 ^ 36 * tgt) ∧ x ≠ 0 ∧ (s.tile n.val).sreg x ≠ 1 ∧ (s.tile
      n.val).sreg x < 2 ^ 64) ∧
    (∃ (s : State) (n : Fin 64) (x : Nat) (y : Nat) (tgt : Nat) (cond : Nat) (mask : Nat), x < 16 ∧ y < 16 ∧ tgt < 4096 ∧
      cond < 4 ∧ mask < 16 ∧ TileAt s n.val (3 + 2 ^ 32 * x + 2 ^ 36 * tgt) ∧ x ≠ 0 ∧ (s.tile n.val).sreg x = 1 ∧ (s.tile
      n.val).pc ≠ 4095) ∧
    (∃ (s : State) (n : Fin 64) (x : Nat) (y : Nat) (tgt : Nat) (cond : Nat) (mask : Nat), x < 16 ∧ y < 16 ∧ tgt < 4096 ∧
      cond < 4 ∧ mask < 16 ∧ TileAt s n.val (4 + cond * 2 ^ 8 + 2 ^ 32 * x + 2 ^ 36 * y + 2 ^ 40 * tgt) ∧ (s.tile n.val).pc ≠
      4095) ∧
    (∃ (s : State) (n : Fin 64) (x : Nat) (y : Nat) (tgt : Nat) (cond : Nat) (mask : Nat), x < 16 ∧ y < 16 ∧ tgt < 4096 ∧
      cond < 4 ∧ mask < 16 ∧ TileAt s n.val (18 + mask * 2 ^ 8) ∧ SlotsClear (s.tile n.val) ∧ (s.tile n.val).pc ≠ 4095) ∧
    (∃ (s : State) (n : Fin 64) (x : Nat) (y : Nat) (tgt : Nat) (cond : Nat) (mask : Nat), x < 16 ∧ y < 16 ∧ tgt < 4096 ∧
      cond < 4 ∧ mask < 16 ∧ TileAt s n.val 67 ∧ SlotsClear (s.tile n.val) ∧ (s.tile n.val).pc ≠ 4095) ∧
    (∃ (s : State) (n : Fin 64) (c : Nat) (x : Nat) (qid : Nat), c < 2 ^ 16 ∧ x < 16 ∧ qid < 2 ^ 24 ∧ TileAt s n.val (64 + 2
      ^ 8 + 2 ^ 32 * c) ∧ SlotsClear (s.tile n.val) ∧ (s.tile n.val).pc ≠ 4095 ∧ s.ctrGranted c (s.tileGlade n.val) = true ∧
      s.ustStopped = false) ∧
    (∃ (s : State) (n : Fin 64) (c : Nat) (x : Nat) (qid : Nat), c < 2 ^ 16 ∧ x < 16 ∧ qid < 2 ^ 24 ∧ TileAt s n.val (64 + 2
      ^ 32 * c + 2 ^ 48 * x) ∧ SlotsClear (s.tile n.val) ∧ (s.tile n.val).pc ≠ 4095 ∧ s.ctrGranted c (s.tileGlade n.val) =
      true ∧ s.ustStopped = false) ∧
    (∃ (s : State) (n : Fin 64) (c : Nat) (x : Nat) (qid : Nat), c < 2 ^ 16 ∧ x < 16 ∧ qid < 2 ^ 24 ∧ TileAt s n.val (65 + 2
      ^ 32 * c + 2 ^ 48 * x) ∧ s.ctrGranted c (s.tileGlade n.val) = true ∧ (s.tile n.val).pc ≠ 4095) ∧
    (∃ (s : State) (n : Fin 64) (c : Nat) (x : Nat) (qid : Nat), c < 2 ^ 16 ∧ x < 16 ∧ qid < 2 ^ 24 ∧ TileAt s n.val (66 + 2
      ^ 32 * qid + 2 ^ 56 * x) ∧ s.mayWait (s.tileGlade n.val) (WaitOn.count qid) = true ∧ (s.tile n.val).pc ≠ 4095) ∧
    (∃ (s : State) (n : Fin 64) (c : Nat) (x : Nat) (qid : Nat) (q : Nat) (d : Cmd), c < 2 ^ 16 ∧ x < 16 ∧ qid < 2 ^ 24 ∧
      TileAt s n.val 1 ∧ SlotsClear (s.tile n.val) ∧ (s.tile n.val).run = some q ∧ q < 8 ∧ (s.queue (tileQid (8 * n.val +
      q))).cmds = [d] ∧ (s.queue (tileQid (8 * n.val + q))).due = []) :=
  ⟨⟨tiled (0), 5, 1, 1, 1, 1, 1, by decide +kernel⟩,
   ⟨tiled (0x02 + 5 * 2 ^ 32), 5, 1, 1, 5, 1, 1, by decide +kernel⟩,
   ⟨tiled (0x03 + 1 * 2 ^ 32 + 5 * 2 ^ 36) (fun t => t.setSreg 1 0), 5, 1, 1, 5, 1, 1, by decide +kernel⟩,
   ⟨tiled (0x03 + 1 * 2 ^ 32 + 5 * 2 ^ 36) (fun t => t.setSreg 1 1), 5, 1, 1, 5, 1, 1, by decide +kernel⟩,
   ⟨tiled (0x04 + 0 * 2 ^ 8 + 1 * 2 ^ 32 + 2 * 2 ^ 36 + 5 * 2 ^ 40) (fun t => (t.setSreg 1 3).setSreg 2 3), 5, 1, 2, 5, 0,
     1, by decide +kernel⟩,
   ⟨tiled (0x12 + 3 * 2 ^ 8), 5, 1, 1, 1, 1, 3, by decide +kernel⟩,
   ⟨tiled (0x43), 5, 1, 1, 1, 1, 1, by decide +kernel⟩,
   ⟨tiled (0x40 + 2 ^ 8 + 5 * 2 ^ 32) id (counting ready), 5, 5, 1, 1, by decide +kernel⟩,
   ⟨tiled (0x40 + 5 * 2 ^ 32 + 1 * 2 ^ 48) (fun t => t.setSreg 1 9) (counting ready), 5, 5, 1, 1, by decide +kernel⟩,
   ⟨tiled (0x41 + 5 * 2 ^ 32 + 1 * 2 ^ 48) (fun t => t.setSreg 1 0) (counting ready), 5, 5, 1, 1, by decide +kernel⟩,
   ⟨tiled (0x42 + 0x100003 * 2 ^ 32 + 1 * 2 ^ 56) (fun t => t.setSreg 1 0), 5, 1, 1, 0x100003, by decide +kernel⟩,
   ⟨tiled (0x01) id (tileCommand (cmd [(0, 1, 1), (4, 4, 77)])), 5, 1, 1, 1, 0, cmd [(0, 1, 1), (4, 4, 77)],
     by decide +kernel⟩⟩

/-- States and operands meet the hypotheses of each clause of `TileScalarsAndStreams`. -/
theorem witness_tileScalarsAndStreams :
    (∃ (s : State) (n : Fin 64) (x : Nat) (y : Nat) (z : Nat) (opn : Nat) (v : Nat) (imm : Nat), x < 16 ∧ y < 16 ∧ z < 16 ∧
      opn < 8 ∧ v < 2 ^ 64 ∧ imm < 2 ^ 32 ∧ (s.tile n.val).pc ≠ 4095 ∧ TileAt s n.val (8 + 2 ^ 32 * x + 2 ^ 64 * v)) ∧
    (∃ (s : State) (n : Fin 64) (x : Nat) (y : Nat) (z : Nat) (opn : Nat) (v : Nat) (imm : Nat), x < 16 ∧ y < 16 ∧ z < 16 ∧
      opn < 8 ∧ v < 2 ^ 64 ∧ imm < 2 ^ 32 ∧ (s.tile n.val).pc ≠ 4095 ∧ TileAt s n.val (9 + opn * 2 ^ 8 + 2 ^ 32 * x + 2 ^ 36 *
      y + 2 ^ 40 * z)) ∧
    (∃ (s : State) (n : Fin 64) (x : Nat) (y : Nat) (z : Nat) (opn : Nat) (v : Nat) (imm : Nat), x < 16 ∧ y < 16 ∧ z < 16 ∧
      opn < 8 ∧ v < 2 ^ 64 ∧ imm < 2 ^ 32 ∧ (s.tile n.val).pc ≠ 4095 ∧ TileAt s n.val (9 + opn * 2 ^ 8 + 2048 + 2 ^ 32 * x + 2
      ^ 36 * y + 2 ^ 64 * imm)) ∧
    (∃ (s : State) (n : Fin 64) (x : Nat) (y : Nat) (z : Nat) (opn : Nat) (v : Nat) (imm : Nat), x < 16 ∧ y < 16 ∧ z < 16 ∧
      opn < 8 ∧ v < 2 ^ 64 ∧ imm < 2 ^ 32 ∧ (s.tile n.val).pc ≠ 4095 ∧ TileAt s n.val (68 + 2 ^ 32 * x)) ∧
    (∃ (s : State) (n : Fin 64) (k : Fin 4) (x : Nat) (y : Nat) (spo : Nat), x < 16 ∧ y < 16 ∧ spo < 2 ^ 25 ∧ (s.tile
      n.val).pc ≠ 4095 ∧ (s.tile n.val).busy k.val = false ∧ TileAt s n.val (16 + k.val * 2 ^ 8 + 2 ^ 32 * x + 2 ^ 36 * y + 2
      ^ 40 * spo) ∧ (streamShape ((s.tile n.val).sreg x) ((s.tile n.val).sreg y)).fst = true ∧ padOut (spoAddr (s.tile n.val)
      spo) ((s.tile n.val).sreg y) = false ∧ (farCheck s n.val ((s.tile n.val).sreg x) ((s.tile n.val).sreg y)).fst = true ∧
      (s.tile n.val).streamOver (spoAddr (s.tile n.val) spo) ((s.tile n.val).sreg y) = false) ∧
    (∃ (s : State) (n : Fin 64) (k : Fin 4) (x : Nat) (y : Nat) (spo : Nat), x < 16 ∧ y < 16 ∧ spo < 2 ^ 25 ∧ (s.tile
      n.val).pc ≠ 4095 ∧ (s.tile n.val).busy k.val = false ∧ TileAt s n.val (17 + k.val * 2 ^ 8 + 2 ^ 32 * x + 2 ^ 36 * y + 2
      ^ 40 * spo) ∧ (streamShape ((s.tile n.val).sreg x) ((s.tile n.val).sreg y)).fst = true ∧ padOut (spoAddr (s.tile n.val)
      spo) ((s.tile n.val).sreg y) = false ∧ (farCheck s n.val ((s.tile n.val).sreg x) ((s.tile n.val).sreg y)).fst = true ∧
      (s.tile n.val).streamOver (spoAddr (s.tile n.val) spo) ((s.tile n.val).sreg y) = false) ∧
    (∃ (s : State) (n : Fin 64) (k : Fin 4) (f : Flight), ((s.tile n.val).slot k.val).flight = some f ∧ f.out = false ∧
      (s.tile n.val).oldest f = true) ∧
    (∃ (s : State) (n : Fin 64) (k : Fin 4) (f : Flight), ((s.tile n.val).slot k.val).flight = some f ∧ f.out = true ∧
      (s.tile n.val).oldest f = true ∧ (s.gladeWrite (s.tileGlade n.val) f.addr f.data).snd = St.success ∧ NoneHeld s
      (s.gladeWrite (s.tileGlade n.val) f.addr f.data).fst) :=
  ⟨⟨tiled (0x08 + 1 * 2 ^ 32 + 0 * 2 ^ 64), 5, 1, 1, 1, 1, 0, 1, by decide +kernel⟩,
   ⟨tiled (0x09 + 0 * 2 ^ 8 + 1 * 2 ^ 32 + 2 * 2 ^ 36 + 3 * 2 ^ 40) (fun t => (t.setSreg 2 0x123456789ABCDEF0).setSreg 3 65),
     5, 1, 2, 3, 0, 1, 1, by decide +kernel⟩,
   ⟨tiled (0x09 + 0 * 2 ^ 8 + 2 ^ 11 + 1 * 2 ^ 32 + 2 * 2 ^ 36 + 0xFFFFFFF3 * 2 ^ 64) (fun t => (t.setSreg 2 0x123456789ABCDEF0).setSreg 3 65),
     5, 1, 2, 1, 0, 1, 0xFFFFFFF3, by decide +kernel⟩,
   ⟨tiled (0x44 + 1 * 2 ^ 32) (fun t => t.setSreg 1 77), 5, 1, 1, 1, 1, 1, 1, by decide +kernel⟩,
   ⟨tiled (0x10 + 1 * 2 ^ 8 + 1 * 2 ^ 32 + 2 * 2 ^ 36 + (3 * 2 ^ 4 * 64) * 2 ^ 40) (fun t => (t.setSreg 1 0x200000).setSreg 2 128) (holding (region ready 0 1) 0x200000 [1,
     2, 3]), 5, 1, 1, 2, 3 * 2 ^ 4 * 64, by decide +kernel⟩,
   ⟨tiled (0x11 + 1 * 2 ^ 8 + 1 * 2 ^ 32 + 2 * 2 ^ 36 + (3 * 2 ^ 4 * 64) * 2 ^ 40) (fun t => (t.setSreg 1 0x200000).setSreg 2 128) (holding (region ready 0 1) (padAddr 5 0) [1,
     2, 3]), 5, 1, 1, 2, 3 * 2 ^ 4 * 64, by decide +kernel⟩,
   ⟨tiled (0) (fun t => t.setSlot 1 { flight := some ({ out := false, zeroMask := false, addr := 0x200000, spad := 192, len := 128, data := [] }) }) (holding (region ready 0 1) 0x200000 [1,
     2, 3]), 5, 1, { out := false, zeroMask := false, addr := 0x200000, spad := 192, len := 128, data := [] },
     by decide +kernel⟩,
   ⟨tiled (0) (fun t => t.setSlot 1 { flight := some ({ out := true, zeroMask := false, addr := 0x200000, spad := 192, len := 64, data := List.replicate 64 7 }) }) (region ready 0 1),
     5, 1, { out := true, zeroMask := false, addr := 0x200000, spad := 192, len := 64, data := List.replicate 64 7 },
     by decide +kernel⟩⟩

/-- States and operands meet the hypotheses of each clause of `TileArithmetic`. -/
theorem witness_tileArithmetic :
    (∃ (s : State) (n : Fin 64) (w : Nat), TileAt s n.val w ∧ (s.tile n.val).pc ≠ 4095 ∧ bitsOf w 0 8 = 32 ∧ lowestFault
      (wloadChecks s n.val (s.tile n.val) w) = none ∧ (∀ (k : Nat), k < 4 → (s.tile n.val).busy k = false)) ∧
    (∃ (s : State) (n : Fin 64) (w : Nat) (b : WBlock), TileAt s n.val w ∧ (s.tile n.val).pc ≠ 4095 ∧ bitsOf w 0 8 = 33 ∧
      lowestFault (mmaChecks s (s.tile n.val) w) = none ∧ bitsOf w 32 5 = 0 ∧ (∀ (k : Nat), k < 4 → (s.tile n.val).busy k =
      false) ∧ (s.tile n.val).wreg = some b) ∧
    (∃ (s : State) (n : Fin 64) (w : Nat), TileAt s n.val w ∧ (s.tile n.val).pc ≠ 4095 ∧ (∀ (k : Nat), k < 4 → (s.tile
      n.val).busy k = false) ∧ bitsOf w 0 8 = 34 ∧ lowestFault (drainChecks s (s.tile n.val) w) = none ∧ bitsOf w 32 5 = 0 ∧
      fmtMx (bitsOf w 24 4) = false) ∧
    (∃ (s : State) (n : Fin 64) (w : Nat), TileAt s n.val w ∧ (s.tile n.val).pc ≠ 4095 ∧ (∀ (k : Nat), k < 4 → (s.tile
      n.val).busy k = false) ∧ bitsOf w 0 8 = 48 ∧ lowestFault (vopChecks s (s.tile n.val) w) = none ∧ bitOf w 14 = false ∧
      bitsOf w 8 6 = 0) :=
  ⟨⟨tiled (0x20 + 0 * 2 ^ 16 + 0) id (holding ready (padAddr 5 0) ((List.range 3000).map fun i => BitVec.ofNat 8 (i * 37 + 5))),
     5, 0x20 + 0 * 2 ^ 16 + 0, by decide +kernel⟩,
   ⟨tiled (0x21 + 3 * 2 ^ 9 + 0 * 2 ^ 16 + 0 * 2 ^ 20) (fun t => { t with wreg := some ({ fmt := 0, sparse := false, vals := (List.range 1024).map fun i => BitVec.ofNat 8 (i * 11 + 5), scales := (List.range 64).map fun i => BitVec.ofNat 8 (i + 100), metas := [] }), cls := [(3, 1)] }) (holding ready (padAddr 5 0) ((List.range 3000).map fun i => BitVec.ofNat 8 (i * 37 + 5))),
     5, 0x21 + 3 * 2 ^ 9 + 0 * 2 ^ 16 + 0 * 2 ^ 20, { fmt := 0, sparse := false, vals := (List.range 1024).map fun i => BitVec.ofNat 8 (i * 11 + 5), scales := (List.range 64).map fun i => BitVec.ofNat 8 (i + 100), metas := [] },
     by decide +kernel⟩,
   ⟨tiled (0x22 + 3 * 2 ^ 9 + 2 * 2 ^ 24 + 16 * 2 ^ 37 + 0 * 2 ^ 29) (fun t => { t with cls := [(3, 2)], acc := (List.range 32).map fun i => (96 + i, BitVec.ofNat 32 (0x40490fdb + i * 0x01234567)) }) (holding ready (padAddr 5 0) ((List.range 3000).map fun i => BitVec.ofNat 8 (i * 37 + 5))),
     5, 0x22 + 3 * 2 ^ 9 + 2 * 2 ^ 24 + 16 * 2 ^ 37 + 0 * 2 ^ 29, by decide +kernel⟩,
   ⟨tiled (0x30 + 2 * 2 ^ 20 + 2 * 2 ^ 24 + (1024 * 2 ^ 4) * 2 ^ 32 + (256 * 2 ^ 4) * 2 ^ 82 + 0 * 2 ^ 107) id (holding ready (padAddr 5 0) ((List.range 3000).map fun i => BitVec.ofNat 8 (i * 37 + 5))),
     5, 0x30 + 2 * 2 ^ 20 + 2 * 2 ^ 24 + (1024 * 2 ^ 4) * 2 ^ 32 + (256 * 2 ^ 4) * 2 ^ 82 + 0 * 2 ^ 107, by decide +kernel⟩⟩

/-- States and operands meet the hypotheses of each clause of `TileQueuesAndRegisters`. -/
theorem witness_tileQueuesAndRegisters :
    (∃ (s : State) (j : Fin 512) (c : Cmd), Fresh s (tileQid j.val) 1 c ∧ (s.tile (j.val / 8)).run = none ∧ s.tileOut (j.val
      / 8) = false) ∧
    (∃ (s : State) (j : Fin 512) (c : Cmd), Fresh s (tileQid j.val) 2 c ∧ (s.tile (j.val / 8)).run = none ∧ s.inGladeRgn
      (s.tileGlade (j.val / 8)) (leAt c.bytes 16 8) (16 * leAt c.bytes 10 2) = true ∧ s.memBad (leAt c.bytes 16 8) (16 * leAt
      c.bytes 10 2) = false) ∧
    (∃ (s : State) (j : Fin 512) (c : Cmd), Fresh s (tileQid j.val) 3 c ∧ s.mayWait (s.tileGlade (j.val / 8)) (waitOnOf
      c.bytes) = true ∧ s.ustStopped = false) ∧
    (∃ (s : State) (j : Fin 512) (c : Cmd), Fresh s (tileQid j.val) 4 c ∧ s.ctrGranted (leAt c.bytes 12 4) (s.tileGlade
      (j.val / 8)) = true ∧ s.ustStopped = false) ∧
    (∃ (s : State) (j : Fin 512) (c : Cmd) (n : Fin 64), (s.tile (j.val / 8)).run = some (j.val % 8) ∧ s.rd TILE_WDOG.LIMIT
      (j.val / 8) ≠ 0 ∧ (s.queue (tileQid j.val)).cmds = [c] ∧ (∀ (k : Nat), k < 4 → (s.tile (j.val / 8)).busy k = false) ∧
      n.val = j.val / 8) ∧
    (∃ (s : State) (j : Fin 512) (v : BitVec 64), TileOpen s (j.val / 8) ∧ (s.queue (tileQid j.val)).state ≠
      QState.resetting ∧ s.flag TILE_QCTRL.ENABLE j.val = false ∧ s.flag TILE_CFG.ASSIGNED (j.val / 8) = true ∧ 4 ≤ bitsOf
      v.toNat 1 4 ∧ bitsOf v.toNat 1 4 ≤ 12 ∧ s.flag GLD_INST.VALID (bitsOf v.toNat 8 12) = true ∧ s.gladeOf (bitsOf v.toNat 8
      12) = s.tileGlade (j.val / 8)) ∧
    (∃ (s : State) (j : Fin 512), TileOpen s (j.val / 8) ∧ (s.queue (tileQid j.val)).cmds = [] ∧ (s.queue (tileQid
      j.val)).state ≠ QState.resetting) ∧
    (∃ (s : State) (j : Fin 512), TileOpen s (j.val / 8) ∧ (s.queue (tileQid j.val)).state = QState.active ∧ (s.tile (j.val
      / 8)).run ≠ some (j.val % 8)) ∧
    (∃ (s : State) (j : Fin 512), TileOpen s (j.val / 8) ∧ (s.queue (tileQid j.val)).state = QState.halted) ∧
    (∃ (s : State) (n : Fin 64), TileOpen s n.val) ∧
    (∃ (s : State) (n : Fin 64) (v : BitVec 64), TileOpen s n.val ∧ s.flag TILE_CFG.ASSIGNED n.val = false ∧ bitOf v.toNat 8
      = true ∧ (∀ (q : Nat), q < 8 → s.flag TILE_QCTRL.ENABLE (8 * n.val + q) = false) ∧ s.gladeExists (bitsOf v.toNat 0 8) =
      true ∧ mayTake s Pool.tiles (bitsOf v.toNat 0 8) 1 = true) :=
  ⟨⟨tileCommand (cmd [(0, 1, 1), (8, 2, 5), (16, 8, 9)]) (counting (holding (region ready 0 1) 0x200000 ((List.range 48).map fun i => BitVec.ofNat 8 (i + 1)))),
     40, cmd [(0, 1, 1), (8, 2, 5), (16, 8, 9)], by decide +kernel⟩,
   ⟨tileCommand (cmd [(0, 1, 2), (8, 2, 5), (10, 2, 3), (16, 8, 0x200000)]) (counting (holding (region ready 0 1) 0x200000 ((List.range 48).map fun i => BitVec.ofNat 8 (i + 1)))),
     40, cmd [(0, 1, 2), (8, 2, 5), (10, 2, 3), (16, 8, 0x200000)], by decide +kernel⟩,
   ⟨tileCommand (cmd [(0, 1, 3), (12, 4, 5), (16, 8, 0)]) (counting (holding (region ready 0 1) 0x200000 ((List.range 48).map fun i => BitVec.ofNat 8 (i + 1)))),
     40, cmd [(0, 1, 3), (12, 4, 5), (16, 8, 0)], by decide +kernel⟩,
   ⟨tileCommand (cmd [(0, 1, 4), (12, 4, 5), (16, 8, 7)]) (counting (holding (region ready 0 1) 0x200000 ((List.range 48).map fun i => BitVec.ofNat 8 (i + 1)))),
     40, cmd [(0, 1, 4), (12, 4, 5), (16, 8, 7)], by decide +kernel⟩,
   ⟨tileCommand { cmd [(0, 1, 1), (8, 2, 5), (16, 8, 9)] with started := true } ((tiled 0).wr TILE_WDOG.LIMIT 5 9), 40, { cmd [(0, 1, 1), (8, 2, 5), (16, 8, 9)] with started := true },
     5, by decide +kernel⟩,
   ⟨(ready.wr TILE_CFG.ASSIGNED 5 1).wr GLD_INST.VALID 7 1, 40, 1 + 2 * 6 + 2 ^ 8 * 7 + 2 ^ 20 * 3, by decide +kernel⟩,
   ⟨tileCommand (cmd [(0, 1, 1), (8, 2, 5), (16, 8, 9)]) (counting (holding (region ready 0 1) 0x200000 ((List.range 48).map fun i => BitVec.ofNat 8 (i + 1)))),
     41, by decide +kernel⟩,
   ⟨tileCommand (cmd [(0, 1, 1), (8, 2, 5), (16, 8, 9)]) (counting (holding (region ready 0 1) 0x200000 ((List.range 48).map fun i => BitVec.ofNat 8 (i + 1)))),
     40, by decide +kernel⟩,
   ⟨queued ready (tileQid 40) (cmd []) { count := 3 } |> fun s => s.wr TILE_QSTATUS.STATE 40 2, 40, by decide +kernel⟩,
   ⟨tileCommand (cmd [(0, 1, 1), (8, 2, 5), (16, 8, 9)]) (counting (holding (region ready 0 1) 0x200000 ((List.range 48).map fun i => BitVec.ofNat 8 (i + 1)))),
     5, by decide +kernel⟩,
   ⟨ready.wrs 0 [(GLD_QUOTA_A.EXISTS, 1), (GLB_UNITS.TILES_IN_SERVICE, 64)], 5, 2 ^ 8, by decide +kernel⟩⟩

/-- States and operands meet the hypotheses of each clause of `DecodeSampling`. -/
theorem witness_decodeSampling :
    (∃ (s : State) (q : Fin 256) (c : Cmd) (k : Nat), OnStream s q.val 6 c k ∧ leAt c.bytes 24 1 = 0 ∧ sampleStatus
      (decStart s (decQid q.val)) (s.stream k) c.bytes (leAt c.bytes 25 1 * fmtBytes (leAt c.bytes 35 1) (leAt c.bytes 36 4))
      (4 * leAt c.bytes 25 1) = St.success ∧ (List.map (logitCands (decStart s (decQid q.val)) c.bytes) (List.range (leAt
      c.bytes 25 1))).any List.isEmpty = false ∧ ((decStart s (decQid q.val)).writeMem (leAt c.bytes 48 8) (List.flatMap (toLe
      4) (List.map (fun e => (drawToken (leAt c.bytes 28 4) (leAt c.bytes 32 2) (sampleDraw (s.stream k).seed (samplePos
      (s.stream k) e.snd)) e.fst + leAt c.bytes 56 4) % 2 ^ 32) (List.map (logitCands (decStart s (decQid q.val)) c.bytes)
      (List.range (leAt c.bytes 25 1))).zipIdx))).snd = St.success ∧ NoneHeld s ((decStart s (decQid q.val)).writeMem (leAt
      c.bytes 48 8) (List.flatMap (toLe 4) (List.map (fun e => (drawToken (leAt c.bytes 28 4) (leAt c.bytes 32 2) (sampleDraw
      (s.stream k).seed (samplePos (s.stream k) e.snd)) e.fst + leAt c.bytes 56 4) % 2 ^ 32) (List.map (logitCands (decStart s
      (decQid q.val)) c.bytes) (List.range (leAt c.bytes 25 1))).zipIdx))).fst) ∧
    (∃ (s : State) (q : Fin 256) (c : Cmd) (k : Nat), OnStream s q.val 6 c k ∧ leAt c.bytes 24 1 = 1 ∧ sampleStatus
      (decStart s (decQid q.val)) (s.stream k) c.bytes (leAt c.bytes 25 1 * fmtBytes (leAt c.bytes 35 1) (leAt c.bytes 36 4))
      (8 * leAt c.bytes 25 1 * sampleK c.bytes) = St.success ∧ ((decStart s (decQid q.val)).writeMem (leAt c.bytes 48 8)
      (List.flatMap (fun i => (List.map (partialEntry (leAt c.bytes 56 4)) (logitCands (decStart s (decQid q.val)) c.bytes i)
      ++ List.replicate (sampleK c.bytes - (List.map (partialEntry (leAt c.bytes 56 4)) (logitCands (decStart s (decQid
      q.val)) c.bytes i)).length) (toLe 4 4286578688 ++ toLe 4 4294967295)).flatten) (List.range (leAt c.bytes 25 1)))).snd =
      St.success ∧ NoneHeld s ((decStart s (decQid q.val)).writeMem (leAt c.bytes 48 8) (List.flatMap (fun i => (List.map
      (partialEntry (leAt c.bytes 56 4)) (logitCands (decStart s (decQid q.val)) c.bytes i) ++ List.replicate (sampleK c.bytes
      - (List.map (partialEntry (leAt c.bytes 56 4)) (logitCands (decStart s (decQid q.val)) c.bytes i)).length) (toLe 4
      4286578688 ++ toLe 4 4294967295)).flatten) (List.range (leAt c.bytes 25 1)))).fst) ∧
    (∃ (s : State) (q : Fin 256) (c : Cmd) (k : Nat), OnStream s q.val 6 c k ∧ leAt c.bytes 24 1 = 2 ∧ sampleStatus
      (decStart s (decQid q.val)) (s.stream k) c.bytes (8 * leAt c.bytes 25 1 * leAt c.bytes 36 4) (4 * leAt c.bytes 25 1) =
      St.success ∧ (List.map (mergeCands (decStart s (decQid q.val)) c.bytes) (List.range (leAt c.bytes 25 1))).any
      List.isEmpty = false ∧ ((decStart s (decQid q.val)).writeMem (leAt c.bytes 48 8) (List.flatMap (toLe 4) (List.map (fun e
      => (drawToken (leAt c.bytes 28 4) (leAt c.bytes 32 2) (sampleDraw (s.stream k).seed (samplePos (s.stream k) e.snd))
      e.fst + 0) % 2 ^ 32) (List.map (mergeCands (decStart s (decQid q.val)) c.bytes) (List.range (leAt c.bytes 25
      1))).zipIdx))).snd = St.success ∧ NoneHeld s ((decStart s (decQid q.val)).writeMem (leAt c.bytes 48 8) (List.flatMap
      (toLe 4) (List.map (fun e => (drawToken (leAt c.bytes 28 4) (leAt c.bytes 32 2) (sampleDraw (s.stream k).seed (samplePos
      (s.stream k) e.snd)) e.fst + 0) % 2 ^ 32) (List.map (mergeCands (decStart s (decQid q.val)) c.bytes) (List.range (leAt
      c.bytes 25 1))).zipIdx))).fst) ∧
    (∃ (s : State) (q : Fin 256) (c : Cmd) (k : Nat) (tr : Tree) (samples : List Nat), OnStream s q.val 7 c k ∧ (s.stream
      k).tree = some tr ∧ (s.stream k).samples = some samples ∧ 0 :: treePath tr samples 17 0 = List.range (0 :: treePath tr
      samples 17 0).length ∧ decAddrOk (decStart s (decQid q.val)) (s.stream k).glade (leAt c.bytes 32 8) (4 * (0 :: treePath
      tr samples 17 0).length) = true ∧ (s.stream k).len + (0 :: treePath tr samples 17 0).length ≤ (s.stream k).maxLen ∧
      ((decStart s (decQid q.val)).writeMem (leAt c.bytes 32 8) (List.flatMap (toLe 4) (List.map (fun u => tr.tokens[u]?.getD
      0) (List.drop 1 (0 :: treePath tr samples 17 0)) ++ [samples[(0 :: treePath tr samples 17 0).getLastD 0]?.getD 0]))).snd
      = St.success ∧ NoneHeld s ((decStart s (decQid q.val)).writeMem (leAt c.bytes 32 8) (List.flatMap (toLe 4) (List.map
      (fun u => tr.tokens[u]?.getD 0) (List.drop 1 (0 :: treePath tr samples 17 0)) ++ [samples[(0 :: treePath tr samples 17
      0).getLastD 0]?.getD 0]))).fst) :=
  ⟨⟨decoding (cmd [(0, 1, 6), (8, 4, 5), (24, 1, 0), (25, 1, 1), (26, 2, 3), (28, 4, 0), (32, 2, 65535), (35, 1, 5), (36, 4,
     8), (40, 8, 2097216), (48, 8, 2101248), (56, 4, 100)]), 3, cmd [(0, 1, 6), (8, 4, 5), (24, 1, 0), (25, 1, 1), (26, 2, 3),
     (28, 4, 0), (32, 2, 65535), (35, 1, 5), (36, 4, 8), (40, 8, 2097216), (48, 8, 2101248), (56, 4, 100)], 5,
     by decide +kernel⟩,
   ⟨decoding (cmd [(0, 1, 6), (8, 4, 5), (24, 1, 1), (25, 1, 1), (26, 2, 3), (28, 4, 0), (32, 2, 65535), (35, 1, 5), (36, 4,
     8), (40, 8, 2097216), (48, 8, 2101248), (56, 4, 100)]), 3, cmd [(0, 1, 6), (8, 4, 5), (24, 1, 1), (25, 1, 1), (26, 2, 3),
     (28, 4, 0), (32, 2, 65535), (35, 1, 5), (36, 4, 8), (40, 8, 2097216), (48, 8, 2101248), (56, 4, 100)], 5,
     by decide +kernel⟩,
   ⟨decoding (cmd [(0, 1, 6), (8, 4, 5), (24, 1, 2), (25, 1, 1), (26, 2, 3), (28, 4, 0), (32, 2, 65535), (35, 1, 5), (36, 4,
     8), (40, 8, 2097216), (48, 8, 2101248), (56, 4, 100)]), 3, cmd [(0, 1, 6), (8, 4, 5), (24, 1, 2), (25, 1, 1), (26, 2, 3),
     (28, 4, 0), (32, 2, 65535), (35, 1, 5), (36, 4, 8), (40, 8, 2097216), (48, 8, 2101248), (56, 4, 100)], 5,
     by decide +kernel⟩,
   ⟨decoding (cmd [(0, 1, 7), (8, 4, 5), (32, 8, 2101248)]) { stream1 with tree := some ({ parents := [255, 0, 1], tokens := [10, 11, 12] }), samples := some [11, 12, 99] },
     3, cmd [(0, 1, 7), (8, 4, 5), (32, 8, 2101248)], 5, { parents := [255, 0, 1], tokens := [10, 11, 12] }, [11, 12, 99],
     by decide +kernel⟩⟩

/-- States and operands meet the hypotheses of each clause of `DecodeStreamsAndKv`. -/
theorem witness_decodeStreamsAndKv :
    (∃ (s : State) (q : Fin 256) (c : Cmd), Fresh s (decQid q.val) 1 c ∧ decTurn s (decQid q.val) = true ∧ (∀ (p : Nat ×
      Machine.Stream), p ∈ s.streams → p.snd.busy ≠ some (decQid q.val)) ∧ decAddrOk s (s.queueGlade (decQid q.val)) (leAt
      c.bytes 24 8) 256 = true ∧ s.memBad (leAt c.bytes 24 8) 256 = false ∧ descriptorOk (s.bytes (leAt c.bytes 24 8) 256) =
      true ∧ s.inGladeRgn (s.queueGlade (decQid q.val)) (streamOf (s.bytes (leAt c.bytes 24 8) 256)).table (streamOf (s.bytes
      (leAt c.bytes 24 8) 256)).tableBytes = true ∧ mayTakeCtx s (s.queueGlade (decQid q.val)) 1 = true ∧ (s.cached ((s.queue
      (decQid q.val)).home / 4)).length < cacheSize ∧ (∃ i, i < 65536 ∧ (s.stream (65536 * ((s.queue (decQid q.val)).home / 4)
      + i)).valid = false)) ∧
    (∃ (s : State) (q : Fin 256) (c : Cmd) (k : Nat), OnStream s q.val 2 c k) ∧
    (∃ (s : State) (q : Fin 256) (c : Cmd) (k : Nat), OnStream s q.val 5 c k ∧ (s.stream k).tree = none ∧ decAddrOk s
      (s.stream k).glade (leAt c.bytes 48 8) (4 * leAt c.bytes 24 1) = true ∧ s.memBad (leAt c.bytes 48 8) (4 * leAt c.bytes
      24 1) = false) ∧
    (∃ (s : State) (q : Fin 256) (c : Cmd) (k : Nat), OnStream s q.val 8 c k ∧ (s.stream k).tree = none ∧ (s.stream k).len +
      leAt c.bytes 24 1 ≤ (s.stream k).maxLen) ∧
    (∃ (s : State) (q : Fin 256) (c : Cmd) (k : Nat), OnStream s q.val 9 c k ∧ leAt c.bytes 24 4 < (s.stream k).len) ∧
    (∃ (s : State) (q : Fin 256) (c : Cmd) (k : Nat), OnStream s q.val 9 c k ∧ leAt c.bytes 24 4 = (s.stream k).len) ∧
    (∃ (s : State) (q : Fin 256) (c : Cmd) (k : Nat), OnStream s q.val 3 c k ∧ (s.stream k).heads = 1 ∧ leAt c.bytes 26 1 =
      1 ∧ leAt c.bytes 24 2 < (s.stream k).layers ∧ decAddrOk (decStart s (decQid q.val)) (s.stream k).glade (leAt c.bytes 32
      8) (2 * (s.stream k).posBytes) = true ∧ (s.stream k).len + 1 ≤ (s.stream k).maxLen ∧ (pageFor (decStart s (decQid
      q.val)) (s.stream k) true (leAt c.bytes 24 2) 0 ((s.stream k).len / (s.stream k).perPage)).snd = St.success ∧ (decStart
      s (decQid q.val)).memBad (leAt c.bytes 32 8) (2 * (s.stream k).posBytes) = false ∧ ((decStart s (decQid q.val)).writeMem
      ((pageFor (decStart s (decQid q.val)) (s.stream k) true (leAt c.bytes 24 2) 0 ((s.stream k).len / (s.stream
      k).perPage)).fst + (s.stream k).keyOff (s.stream k).len) ((decStart s (decQid q.val)).bytes (leAt c.bytes 32 8)
      (s.stream k).posBytes)).snd = St.success ∧ (((decStart s (decQid q.val)).writeMem ((pageFor (decStart s (decQid q.val))
      (s.stream k) true (leAt c.bytes 24 2) 0 ((s.stream k).len / (s.stream k).perPage)).fst + (s.stream k).keyOff (s.stream
      k).len) ((decStart s (decQid q.val)).bytes (leAt c.bytes 32 8) (s.stream k).posBytes)).fst.writeMem (32768 + ((pageFor
      (decStart s (decQid q.val)) (s.stream k) true (leAt c.bytes 24 2) 0 ((s.stream k).len / (s.stream k).perPage)).fst +
      (s.stream k).keyOff (s.stream k).len)) ((decStart s (decQid q.val)).bytes (leAt c.bytes 32 8 + (s.stream k).posBytes)
      (s.stream k).posBytes)).snd = St.success ∧ NoneHeld s (((decStart s (decQid q.val)).writeMem ((pageFor (decStart s
      (decQid q.val)) (s.stream k) true (leAt c.bytes 24 2) 0 ((s.stream k).len / (s.stream k).perPage)).fst + (s.stream
      k).keyOff (s.stream k).len) ((decStart s (decQid q.val)).bytes (leAt c.bytes 32 8) (s.stream k).posBytes)).fst.writeMem
      (32768 + ((pageFor (decStart s (decQid q.val)) (s.stream k) true (leAt c.bytes 24 2) 0 ((s.stream k).len / (s.stream
      k).perPage)).fst + (s.stream k).keyOff (s.stream k).len)) ((decStart s (decQid q.val)).bytes (leAt c.bytes 32 8 +
      (s.stream k).posBytes) (s.stream k).posBytes)).fst) ∧
    (∃ (s : State) (q : Fin 256) (c : Cmd) (k : Nat), OnStream s q.val 4 c k ∧ leAt c.bytes 24 2 < (s.stream k).layers ∧
      (s.stream k).group * leAt c.bytes 26 1 * (s.stream k).dim * (s.stream k).b ≤ 96 * 1024 ∧ bitOf (leAt c.bytes 27 1) 0 =
      false ∧ (s.stream k).len + leAt c.bytes 26 1 ≤ (s.stream k).maxLen ∧ (∀ (n : Nat), n ∈ below 64 (bitOf (leAt c.bytes 48
      8)) → s.flag TILE_CFG.ASSIGNED n = true ∧ s.tileGlade n = (s.stream k).glade) ∧ (∀ (n : Nat), n ∈ below 64 (bitOf (leAt
      c.bytes 48 8)) → s.tileOut n = false) ∧ decAddrOk s (s.stream k).glade (leAt c.bytes 32 8) (fmtBytes (s.stream k).qFmt
      (leAt c.bytes 26 1 * (s.stream k).qHeads * (s.stream k).dim)) = true ∧ decAddrOk s (s.stream k).glade (leAt c.bytes 40
      8) (fmtBytes (leAt c.bytes 28 1) (leAt c.bytes 26 1 * (s.stream k).qHeads * (s.stream k).dim)) = true ∧ s.memBad (leAt
      c.bytes 32 8) (fmtBytes (s.stream k).qFmt (leAt c.bytes 26 1 * (s.stream k).qHeads * (s.stream k).dim)) = false) ∧
    (∃ (s : State) (n : Fin 64) (i : Item), nextItem (s.tile n.val).items = some i ∧ tileBoundary s n.val = true ∧ tilePick
      s n.val = some 8 ∧ 1 < (Tab.get { } s.attends i.qid).left ∧ (pageFor s (s.stream (Tab.get { } s.attends i.qid).ctx)
      false (Tab.get { } s.attends i.qid).layer i.head i.page).snd = St.success ∧ s.memBad (pageFor s (s.stream (Tab.get { }
      s.attends i.qid).ctx) false (Tab.get { } s.attends i.qid).layer i.head i.page).fst 65536 = false) :=
  ⟨⟨((holding (decoding (cmd [(0, 1, 1), (24, 8, 0x201000)])) 0x201000 (toLe 64 (1 + 2 * 2 ^ 8 + 2 * 2 ^ 16 + 2 ^ 32 + 2 ^ 48 + 2 ^ 56 + 64 * 2 ^ 64 + 512 * 2 ^ 96 + 4 * 2 ^ 128 + 0x3F800000 * 2 ^ 160 + 0x210000 * 2 ^ 192))).wrs 0 [(FAB_CTX_CFG.ENABLE,
     1)]), 3, cmd [(0, 1, 1), (24, 8, 0x201000)], by decide +kernel, by decide +kernel, by decide +kernel, by decide +kernel,
     by decide +kernel, by decide +kernel, by decide +kernel, by decide +kernel, by decide +kernel, 0, by decide +kernel,
     by decide +kernel⟩,
   ⟨decoding (cmd [(0, 1, 2), (8, 4, 5)]), 3, cmd [(0, 1, 2), (8, 4, 5)], 5, by decide +kernel⟩,
   ⟨decoding (cmd [(0, 1, 5), (8, 4, 5), (24, 1, 3), (32, 1, 255), (48, 8, 2097280)]), 3, cmd [(0, 1, 5), (8, 4, 5), (24, 1,
     3), (32, 1, 255), (48, 8, 2097280)], 5, by decide +kernel⟩,
   ⟨decoding (cmd [(0, 1, 8), (8, 4, 5), (24, 1, 4)]), 3, cmd [(0, 1, 8), (8, 4, 5), (24, 1, 4)], 5, by decide +kernel⟩,
   ⟨decoding (cmd [(0, 1, 9), (8, 4, 5), (24, 4, 3)]), 3, cmd [(0, 1, 9), (8, 4, 5), (24, 4, 3)], 5, by decide +kernel⟩,
   ⟨decoding (cmd [(0, 1, 9), (8, 4, 5), (24, 4, 4)]), 3, cmd [(0, 1, 9), (8, 4, 5), (24, 4, 4)], 5, by decide +kernel⟩,
   ⟨decoding (cmd [(0, 1, 3), (8, 4, 5), (26, 1, 1), (32, 8, 2097216)]), 3, cmd [(0, 1, 3), (8, 4, 5), (26, 1, 1), (32, 8,
     2097216)], 5, by decide +kernel⟩,
   ⟨decoding (cmd [(0, 1, 4), (8, 4, 5), (26, 1, 1), (28, 1, 4), (32, 8, 2097216), (40, 8, 2101248), (48, 8, 32)]), 3, cmd [(0,
     1, 4), (8, 4, 5), (26, 1, 1), (28, 1, 4), (32, 8, 2097216), (40, 8, 2101248), (48, 8, 32)], 5, by decide +kernel⟩,
   ⟨attending (cmd [(0, 1, 4), (8, 4, 5), (26, 1, 1), (28, 1, 4), (32, 8, 2097216), (40, 8, 2101248), (48, 8, 32)]), 5, { qid := decQid 3, head := 0, page := 0, prio := 0 },
     by decide +kernel⟩⟩

/-- States and operands meet the hypotheses of each clause of `UnderstoryTraffic`. -/
theorem witness_understoryTraffic :
    (∃ (s : State) (q : Fin 256) (c : Cmd) (g : Nat), (s.ustGroup g).early = [] ∧ LinksClear s g ∧ (s.ustGroup g).cur = none
      ∧ s.grpN g ≠ 1 ∧ OnGroup s q.val 1 c g) ∧
    (∃ (s : State) (q : Fin 256) (c : Cmd) (g : Nat), (s.ustGroup g).early = [] ∧ LinksClear s g ∧ (s.ustGroup g).cur = none
      ∧ s.grpN g ≠ 1 ∧ OnGroup s q.val 5 c g) ∧
    (∃ (s : State) (q : Fin 256) (c : Cmd) (g : Nat), (s.ustGroup g).early = [] ∧ LinksClear s g ∧ (s.ustGroup g).cur = none
      ∧ s.grpN g ≠ 1 ∧ OnGroup s q.val 2 c g ∧ ustAddrOk s (s.queueGlade (ustQid q.val)) (leAt c.bytes 40 8) (leAt c.bytes 28
      4) = true ∧ (leAt c.bytes 26 1 = s.grpSelf g → ustAddrOk s (s.queueGlade (ustQid q.val)) (leAt c.bytes 32 8) (leAt
      c.bytes 28 4) = true ∧ s.memBad (leAt c.bytes 32 8) (leAt c.bytes 28 4) = false)) ∧
    (∃ (s : State) (q : Fin 256) (c : Cmd) (g : Nat), (s.ustGroup g).early = [] ∧ LinksClear s g ∧ (s.ustGroup g).cur = none
      ∧ s.grpN g ≠ 1 ∧ OnGroup s q.val 3 c g ∧ ustAddrOk s (s.queueGlade (ustQid q.val)) (leAt c.bytes 40 8) (leAt c.bytes 28
      4) = true ∧ ustAddrOk s (s.queueGlade (ustQid q.val)) (leAt c.bytes 32 8) (leAt c.bytes 28 4) = true ∧ s.memBad (leAt
      c.bytes 32 8) (leAt c.bytes 28 4) = false) ∧
    (∃ (s : State) (q : Fin 256) (c : Cmd) (g : Nat), (s.ustGroup g).early = [] ∧ LinksClear s g ∧ OnGroup s q.val 4 c g ∧
      leAt c.bytes 27 1 ≠ s.grpSelf g) ∧
    (∃ (s : State) (q : Fin 256) (c : Cmd) (g : Nat), (s.ustGroup g).early = [] ∧ LinksClear s g ∧ OnGroup s q.val 4 c g ∧
      leAt c.bytes 27 1 = s.grpSelf g ∧ s.ustStopped = false ∧ s.ctrGranted (leAt c.bytes 48 2) (s.rd UST_GRP_A.GLADE g) =
      true) ∧
    (∃ (s : State) (h : UstHeader) (g : Nat) (ctr : BitVec 16), UstIn s h g ∧ h.dst.toNat = s.grpSelf g ∧ s.ctrGranted
      ctr.toNat (s.rd UST_GRP_A.GLADE g) = true ∧ s.ustStopped = false) ∧
    (∃ (s : State) (h : UstHeader) (g : Nat) (o : UstOp) (x : Coll), UstIn s h g ∧ (s.ustGroup g).cur = some x ∧ x.opseq =
      h.opseq.toNat ∧ x.sig = { op := o.op.toNat, len := o.len.toNat, dtype := o.dtype.toNat, redop := o.redop.toNat, root := o.root.toNat }
      ∧ ¬h.src.toNat ∈ x.arrived ∧ x.arrived.length + 1 ≠ s.grpN g) ∧
    (∃ (s : State) (h : UstHeader) (g : Nat) (x : Coll), UstIn s h g ∧ (s.ustGroup g).cur = some x ∧ x.opseq = h.opseq.toNat
      ∧ x.sig = { op := 5, len := 0, dtype := 0, redop := 0, root := 0 } ∧ ¬h.src.toNat ∈ x.arrived ∧ x.arrived.length + 1 ≠
      s.grpN g) ∧
    (∃ (s : State) (h : UstHeader) (g : Nat) (x : Coll) (c : Cmd), UstIn s h g ∧ (s.ustGroup g).cur = some x ∧ x.opseq =
      h.opseq.toNat ∧ x.sig.op = 1 ∧ (s.queue x.qid).cmdAt x.entry = some c) ∧
    (∃ (s : State) (h : UstHeader) (g : Nat) (offset : BitVec 16) (words : List (BitVec 32)) (x : Coll), UstIn s h g ∧
      (s.ustGroup g).cur = some x ∧ x.opseq = h.opseq.toNat ∧ x.flowing = true ∧ x.sig.op = 3 ∧ offset.toNat + (cutWords
      (pieceElems x.sig.dtype) (List.map (fun x => x.toNat) words)).length ≤ x.pieces ∧ (∀ (i : Nat), i < (cutWords
      (pieceElems x.sig.dtype) (List.map (fun x => x.toNat) words)).length → formsPiece s g (offset.toNat + i) = false)) ∧
    (∃ (s : State) (h : UstHeader) (g : Nat) (offset : BitVec 16) (bytes : List (BitVec 8)) (x : Coll), UstIn s h g ∧
      (s.ustGroup g).cur = some x ∧ x.opseq = h.opseq.toNat ∧ x.flowing = true ∧ offset.toNat + bytes.length / 64 ≤ x.pieces ∧
      (∀ (i : Nat), i < bytes.length / 64 → x.done.contains (offset.toNat + i) = false) ∧ x.done.length + bytes.length / 64 <
      x.pieces ∧ NoneHeld s (List.foldl (fun a i => ((a.fst.writeMem (x.dst + 64 * (offset.toNat + i)) (bytesAt bytes (64 * i)
      64)).fst, if a.snd = St.success then (a.fst.writeMem (x.dst + 64 * (offset.toNat + i)) (bytesAt bytes (64 * i) 64)).snd
      else a.snd)) (s, x.status) (List.range (bytes.length / 64))).fst) ∧
    (∃ (s : State) (h : UstHeader) (g : Nat) (x : Coll) (c : Cmd), UstIn s h g ∧ (s.ustGroup g).cur = some x ∧ x.opseq =
      h.opseq.toNat ∧ (s.queue x.qid).cmdAt x.entry = some c) ∧
    (∃ (s : State) (h : UstHeader) (g : Nat), UstIn s h g) :=
  ⟨⟨grouped (cmd [(0, 1, 1), (2, 1, 1)]), 3, cmd [(0, 1, 1), (2, 1, 1)], 1, by decide +kernel⟩,
   ⟨grouped (cmd [(0, 1, 5), (2, 1, 1)]), 3, cmd [(0, 1, 5), (2, 1, 1)], 1, by decide +kernel⟩,
   ⟨grouped (cmd [(0, 1, 2), (2, 1, 1), (26, 1, 1), (28, 4, 128), (32, 8, 2097152), (40, 8, 2101248)]), 3, cmd [(0, 1, 2),
     (2, 1, 1), (26, 1, 1), (28, 4, 128), (32, 8, 2097152), (40, 8, 2101248)], 1, by decide +kernel⟩,
   ⟨grouped (cmd [(0, 1, 3), (2, 1, 1), (24, 1, 5), (28, 4, 256), (32, 8, 2097152), (40, 8, 2101248)]), 3, cmd [(0, 1, 3),
     (2, 1, 1), (24, 1, 5), (28, 4, 256), (32, 8, 2097152), (40, 8, 2101248)], 1, by decide +kernel⟩,
   ⟨grouped (cmd [(0, 1, 4), (2, 1, 1), (27, 1, 2), (48, 2, 7), (56, 8, 5)]), 3, cmd [(0, 1, 4), (2, 1, 1), (27, 1, 2), (48,
     2, 7), (56, 8, 5)], 1, by decide +kernel⟩,
   ⟨grouped (cmd [(0, 1, 4), (2, 1, 1), (27, 1, 1), (48, 2, 7), (56, 8, 5)]), 3, cmd [(0, 1, 4), (2, 1, 1), (27, 1, 1), (48,
     2, 7), (56, 8, 5)], 1, by decide +kernel⟩,
   ⟨grouped (cmd [(0, 1, 1), (2, 1, 1)]), { link := 3, group := 1, src := 2, dst := 1, gen := 5, lseq := 0, opseq := 9 }, 1,
     1, by decide +kernel⟩,
   ⟨grouped (cmd [(0, 1, 3), (2, 1, 1)]) { cur := some (coll 3 5 true) }, { link := 3, group := 1, src := 2, dst := 1, gen := 5, lseq := 0, opseq := 9 },
     1, { op := 3, len := 256, dtype := 5, redop := 0, root := 0 }, coll 3 5 true, by decide +kernel⟩,
   ⟨grouped (cmd [(0, 1, 5), (2, 1, 1)]) { cur := some (coll 5 0 false) }, { link := 3, group := 1, src := 2, dst := 1, gen := 5, lseq := 0, opseq := 9 },
     1, coll 5 0 false, by decide +kernel⟩,
   ⟨grouped (cmd [(0, 1, 1), (2, 1, 1)]) { cur := some (coll 1 0 false) }, { link := 3, group := 1, src := 2, dst := 1, gen := 5, lseq := 0, opseq := 9 },
     1, coll 1 0 false, cmd [(0, 1, 1), (2, 1, 1)], by decide +kernel⟩,
   ⟨grouped (cmd [(0, 1, 3), (2, 1, 1)]) { cur := some (coll 3 5 true) }, { link := 3, group := 1, src := 2, dst := 1, gen := 5, lseq := 0, opseq := 9 },
     1, 1, List.replicate 16 0x40000000, coll 3 5 true, by decide +kernel⟩,
   ⟨grouped (cmd [(0, 1, 3), (2, 1, 1)]) { cur := some (coll 3 5 true) }, { link := 3, group := 1, src := 2, dst := 1, gen := 5, lseq := 0, opseq := 9 },
     1, 1, List.replicate 64 7, coll 3 5 true, by decide +kernel⟩,
   ⟨grouped (cmd [(0, 1, 1), (2, 1, 1)]) { cur := some (coll 1 0 false) }, { link := 3, group := 1, src := 2, dst := 1, gen := 5, lseq := 0, opseq := 9 },
     1, coll 1 0 false, cmd [(0, 1, 1), (2, 1, 1)], by decide +kernel⟩,
   ⟨grouped (cmd [(0, 1, 1), (2, 1, 1)]), { link := 3, group := 1, src := 2, dst := 1, gen := 5, lseq := 0, opseq := 9 }, 1,
     by decide +kernel⟩⟩

/-- States and operands meet the hypotheses of each clause of `UnderstoryState`. -/
theorem witness_understoryState :
    (∃ (s : State) (k : Fin 8), lanesUp s k.val = true) ∧
    (∃ (s : State) (k : Fin 8), s.flag UST_LINK.UP k.val = true) ∧
    (∃ (s : State) (g : Fin 64), s.noImage = false ∧ s.flag UST_LOCK.LOCKED = false ∧ s.flag UST_GRP_A.VALID g.val = false) ∧
    (∃ (s : State) (g : Fin 64), s.noImage = false ∧ s.flag UST_LOCK.LOCKED = false ∧ s.flag UST_GRP_A.VALID g.val = true) ∧
    (∃ (s : State) (g : Fin 64), s.grpState g.val = 1) ∧
    (∃ (s : State), s.noImage = false) ∧
    (∃ (s : State) (b : Fin 256), s.noImage = false ∧ s.flag UST_CTR_BLK.GRANTED b.val = false) ∧
    (∃ (s : State), s.noImage = false ∧ s.ustStopped = false) :=
  ⟨⟨(((grouped (cmd [(0, 1, 1), (2, 1, 1)]) { opseq := 7 }).wr UST_LINK.LANES 3 4).wr UST_LANE.STATE 2 2).wr UST_LINK.ANY 3 1,
     3, by decide +kernel⟩,
   ⟨(((grouped (cmd [(0, 1, 1), (2, 1, 1)]) { opseq := 7 }).wr UST_LINK.LANES 3 4).wr UST_LANE.STATE 2 2).wr UST_LINK.ANY 3 1,
     3, by decide +kernel⟩,
   ⟨ready, 1, by decide +kernel⟩,
   ⟨(((grouped (cmd [(0, 1, 1), (2, 1, 1)]) { opseq := 7 }).wr UST_LINK.LANES 3 4).wr UST_LANE.STATE 2 2).wr UST_LINK.ANY 3 1,
     1, by decide +kernel⟩,
   ⟨((((grouped (cmd [(0, 1, 1), (2, 1, 1)]) { opseq := 7 }).wr UST_LINK.LANES 3 4).wr UST_LANE.STATE 2 2).wr UST_LINK.ANY 3 1).wr UST_GRP_A.STATE 1 1,
     1, by decide +kernel⟩,
   ⟨ready, by decide +kernel⟩,
   ⟨ready, 0, by decide +kernel⟩,
   ⟨ready, by decide +kernel⟩⟩

/-- States and operands meet the hypotheses of each clause of `SaloaTables`. -/
theorem witness_saloaTables :
    (∃ (s : State) (v : BitVec 64), s.noImage = false ∧ s.flag FAB_SAL_RKT_CFG.ENABLE = false ∧ s.flag FAB_SAL_LOCK.LOCKED =
      false ∧ bitOf v.toNat 24 = true ∧ 10 ≤ bitsOf v.toNat 16 5 ∧ bitsOf v.toNat 16 5 ≤ 20 ∧ s.flag MEM_RGN_A.VALID (bitsOf
      v.toNat 0 10) = true ∧ 32 * 2 ^ bitsOf v.toNat 16 5 ≤ rgnLen s (bitsOf v.toNat 0 10)) ∧
    (∃ (s : State) (p : Fin 4096) (v : BitVec 64), s.noImage = false ∧ s.flag FAB_SAL_PD.VALID p.val = false ∧ bitOf v.toNat
      0 = true) ∧
    (∃ (s : State) (p : Fin 4096) (v : BitVec 64), s.noImage = false ∧ s.flag FAB_SAL_PD.VALID p.val = true ∧ bitOf v.toNat
      0 = false ∧ s.rd FAB_SAL_PD.USERS p.val ≠ 0) ∧
    (∃ (s : State) (g : Fin 256), s.noImage = false ∧ gladeFabricUse s g.val = false) ∧
    (∃ (s : State), s.noImage = false) :=
  ⟨⟨(region ready 0 1), 1 + 2 ^ 16 * 10 + 2 ^ 24, by decide +kernel⟩,
   ⟨ready, 3, 1 + 2 ^ 16 * 10 + 2 ^ 24, by decide +kernel⟩,
   ⟨registered ready, 3, 0, by decide +kernel⟩,
   ⟨ready, 0, by decide +kernel⟩,
   ⟨ready, by decide +kernel⟩⟩

/-- States and operands meet the hypotheses of each clause of `SaloaRemoteCommands`. -/
theorem witness_saloaRemoteCommands :
    (∃ (q : Fin 65536) (s : State) (c : Cmd), SalReady s q.val 1 c ∧ salLocal s q.val c.bytes = St.success ∧ globalDev (leAt
      c.bytes 32 8) ≠ s.devNum ∧ fabKeyed s (globalDev (leAt c.bytes 32 8)) = true ∧ (s.peer (globalDev (leAt c.bytes 32
      8))).state = Ps.open_) ∧
    (∃ (q : Fin 65536) (s : State) (c : Cmd), SalReady s q.val 2 c ∧ salLocal s q.val c.bytes = St.success ∧ globalDev (leAt
      c.bytes 32 8) ≠ s.devNum ∧ fabKeyed s (globalDev (leAt c.bytes 32 8)) = true ∧ (s.peer (globalDev (leAt c.bytes 32
      8))).state = Ps.open_) ∧
    (∃ (q : Fin 65536) (s : State) (c : Cmd), SalReady s q.val 3 c ∧ salLocal s q.val c.bytes = St.success ∧ globalDev (leAt
      c.bytes 32 8) ≠ s.devNum ∧ fabKeyed s (globalDev (leAt c.bytes 32 8)) = true ∧ (s.peer (globalDev (leAt c.bytes 32
      8))).state = Ps.open_) ∧
    (∃ (q : Fin 65536) (s : State) (c : Cmd), SalReady s q.val 4 c ∧ salLocal s q.val c.bytes = St.success ∧ globalDev (leAt
      c.bytes 32 8) ≠ s.devNum ∧ fabKeyed s (globalDev (leAt c.bytes 32 8)) = true ∧ (s.peer (globalDev (leAt c.bytes 32
      8))).state = Ps.open_) ∧
    (∃ (q : Fin 65536) (s : State) (c : Cmd), SalReady s q.val 5 c ∧ salLocal s q.val c.bytes = St.success ∧ globalDev (leAt
      c.bytes 32 8) ≠ s.devNum ∧ fabKeyed s (globalDev (leAt c.bytes 32 8)) = true ∧ (s.peer (globalDev (leAt c.bytes 32
      8))).state = Ps.open_) ∧
    (∃ (q : Fin 65536) (s : State) (c : Cmd), SalReady s q.val 6 c ∧ salLocal s q.val c.bytes = St.success ∧ globalDev (leAt
      c.bytes 32 8) ≠ s.devNum ∧ fabKeyed s (globalDev (leAt c.bytes 32 8)) = true ∧ (s.peer (globalDev (leAt c.bytes 32
      8))).state = Ps.open_) :=
  ⟨⟨7, sending (cmd [(0, 1, 1), (4, 4, 77), (8, 4, 2), (24, 8, 0x210000), (32, 8, 9 * 2 ^ 40 + 0x212000), (40, 4, 2), (44,
     4, 16)]), cmd [(0, 1, 1), (4, 4, 77), (8, 4, 2), (24, 8, 0x210000), (32, 8, 9 * 2 ^ 40 + 0x212000), (40, 4, 2), (44, 4,
     16)], by decide +kernel⟩,
   ⟨7, sending (cmd [(0, 1, 2), (4, 4, 77), (8, 4, 2), (24, 8, 0x210000), (32, 8, 9 * 2 ^ 40 + 0x212000), (40, 4, 2), (44,
     4, 16), (48, 2, 7), (56, 8, 5)]), cmd [(0, 1, 2), (4, 4, 77), (8, 4, 2), (24, 8, 0x210000), (32, 8, 9 * 2 ^ 40 + 0x212000),
     (40, 4, 2), (44, 4, 16), (48, 2, 7), (56, 8, 5)], by decide +kernel⟩,
   ⟨7, sending (cmd [(0, 1, 3), (4, 4, 77), (8, 4, 2), (24, 8, 0x210000), (32, 8, 9 * 2 ^ 40 + 0x212000), (40, 4, 2), (44,
     4, 16)]), cmd [(0, 1, 3), (4, 4, 77), (8, 4, 2), (24, 8, 0x210000), (32, 8, 9 * 2 ^ 40 + 0x212000), (40, 4, 2), (44, 4,
     16)], by decide +kernel⟩,
   ⟨7, sending (cmd [(0, 1, 4), (4, 4, 77), (8, 4, 2), (24, 8, 0x210000), (32, 8, 9 * 2 ^ 40 + 0x212000), (40, 4, 2), (44,
     4, 8), (48, 8, 5)]), cmd [(0, 1, 4), (4, 4, 77), (8, 4, 2), (24, 8, 0x210000), (32, 8, 9 * 2 ^ 40 + 0x212000), (40, 4,
     2), (44, 4, 8), (48, 8, 5)], by decide +kernel⟩,
   ⟨7, sending (cmd [(0, 1, 5), (4, 4, 77), (8, 4, 2), (24, 8, 0x210000), (32, 8, 9 * 2 ^ 40 + 0x212000), (40, 4, 2), (44,
     4, 8), (48, 8, 0), (56, 8, 6)]), cmd [(0, 1, 5), (4, 4, 77), (8, 4, 2), (24, 8, 0x210000), (32, 8, 9 * 2 ^ 40 + 0x212000),
     (40, 4, 2), (44, 4, 8), (48, 8, 0), (56, 8, 6)], by decide +kernel⟩,
   ⟨7, sending (cmd [(0, 1, 6), (4, 4, 77), (8, 4, 2), (24, 8, 0x210000), (32, 8, 9 * 2 ^ 40), (44, 4, 16), (48, 8, 8)]),
     cmd [(0, 1, 6), (4, 4, 77), (8, 4, 2), (24, 8, 0x210000), (32, 8, 9 * 2 ^ 40), (44, 4, 16), (48, 8, 8)],
     by decide +kernel⟩⟩

/-- States and operands meet the hypotheses of each clause of `SaloaLocalCommands`. -/
theorem witness_saloaLocalCommands :
    (∃ (s : State) (q : Fin 65536) (c : Cmd), salLocal s q.val c.bytes = St.success ∧ globalDev (leAt c.bytes 32 8) =
      s.devNum ∧ SalReady s q.val 1 c ∧ keyCheck s (leAt c.bytes 40 4) (salFtn s q.val) none (some Rt.write) (globalOff (leAt
      c.bytes 32 8)) (salBytes s c).length = 0 ∧ ((noteLookup (if leAt c.bytes 44 4 = 0 then s else noteLookup s (leAt c.bytes
      8 4)) (leAt c.bytes 40 4)).gladeWrite (s.regEntry (keyIndex (leAt c.bytes 40 4))).glade (globalOff (leAt c.bytes 32 8))
      (salBytes s c)).snd = St.success ∧ NoneHeld s ((noteLookup (if leAt c.bytes 44 4 = 0 then s else noteLookup s (leAt
      c.bytes 8 4)) (leAt c.bytes 40 4)).gladeWrite (s.regEntry (keyIndex (leAt c.bytes 40 4))).glade (globalOff (leAt c.bytes
      32 8)) (salBytes s c)).fst) ∧
    (∃ (s : State) (q : Fin 65536) (c : Cmd), salLocal s q.val c.bytes = St.success ∧ globalDev (leAt c.bytes 32 8) =
      s.devNum ∧ SalReady s q.val 2 c ∧ keyCheck s (leAt c.bytes 40 4) (salFtn s q.val) none (some Rt.write) (globalOff (leAt
      c.bytes 32 8)) (salBytes s c).length = 0 ∧ ((noteLookup (if leAt c.bytes 44 4 = 0 then s else noteLookup s (leAt c.bytes
      8 4)) (leAt c.bytes 40 4)).gladeWrite (s.regEntry (keyIndex (leAt c.bytes 40 4))).glade (globalOff (leAt c.bytes 32 8))
      (salBytes s c)).snd = St.success ∧ NoneHeld s ((noteLookup (if leAt c.bytes 44 4 = 0 then s else noteLookup s (leAt
      c.bytes 8 4)) (leAt c.bytes 40 4)).gladeWrite (s.regEntry (keyIndex (leAt c.bytes 40 4))).glade (globalOff (leAt c.bytes
      32 8)) (salBytes s c)).fst ∧ s.ustStopped = false ∧ ((noteLookup (if leAt c.bytes 44 4 = 0 then s else noteLookup s
      (leAt c.bytes 8 4)) (leAt c.bytes 40 4)).gladeWrite (s.regEntry (keyIndex (leAt c.bytes 40 4))).glade (globalOff (leAt
      c.bytes 32 8)) (salBytes s c)).fst.ctrGranted (leAt c.bytes 48 2) (((noteLookup (if leAt c.bytes 44 4 = 0 then s else
      noteLookup s (leAt c.bytes 8 4)) (leAt c.bytes 40 4)).gladeWrite (s.regEntry (keyIndex (leAt c.bytes 40 4))).glade
      (globalOff (leAt c.bytes 32 8)) (salBytes s c)).fst.regEntry (keyIndex (leAt c.bytes 40 4))).glade = true) ∧
    (∃ (s : State) (q : Fin 65536) (c : Cmd), salLocal s q.val c.bytes = St.success ∧ globalDev (leAt c.bytes 32 8) =
      s.devNum ∧ SalReady s q.val 3 c ∧ keyCheck s (leAt c.bytes 40 4) (salFtn s q.val) none (some Rt.read) (globalOff (leAt
      c.bytes 32 8)) (leAt c.bytes 44 4) = 0 ∧ ((noteLookup (if leAt c.bytes 44 4 = 0 then s else noteLookup s (leAt c.bytes 8
      4)) (leAt c.bytes 40 4)).gladeRead (s.regEntry (keyIndex (leAt c.bytes 40 4))).glade (globalOff (leAt c.bytes 32 8))
      (leAt c.bytes 44 4)).snd = St.success ∧ ((noteLookup (if leAt c.bytes 44 4 = 0 then s else noteLookup s (leAt c.bytes 8
      4)) (leAt c.bytes 40 4)).gladeWrite ((noteLookup (if leAt c.bytes 44 4 = 0 then s else noteLookup s (leAt c.bytes 8 4))
      (leAt c.bytes 40 4)).queueGlade (salQid q.val)) (leAt c.bytes 24 8) (s.bytes (globalOff (leAt c.bytes 32 8)) (leAt
      c.bytes 44 4))).snd = St.success ∧ NoneHeld s ((noteLookup (if leAt c.bytes 44 4 = 0 then s else noteLookup s (leAt
      c.bytes 8 4)) (leAt c.bytes 40 4)).gladeWrite ((noteLookup (if leAt c.bytes 44 4 = 0 then s else noteLookup s (leAt
      c.bytes 8 4)) (leAt c.bytes 40 4)).queueGlade (salQid q.val)) (leAt c.bytes 24 8) (s.bytes (globalOff (leAt c.bytes 32
      8)) (leAt c.bytes 44 4))).fst) ∧
    (∃ (s : State) (q : Fin 65536) (c : Cmd), salLocal s q.val c.bytes = St.success ∧ globalDev (leAt c.bytes 32 8) =
      s.devNum ∧ SalReady s q.val 4 c ∧ keyCheck s (leAt c.bytes 40 4) (salFtn s q.val) none (some Rt.atomic) (globalOff (leAt
      c.bytes 32 8)) 8 = 0 ∧ tileAt (globalOff (leAt c.bytes 32 8)) = none ∧ ((noteLookup (if leAt c.bytes 44 4 = 0 then s
      else noteLookup s (leAt c.bytes 8 4)) (leAt c.bytes 40 4)).gladeRead (s.regEntry (keyIndex (leAt c.bytes 40 4))).glade
      (globalOff (leAt c.bytes 32 8)) 8).snd = St.success ∧ ((noteLookup (if leAt c.bytes 44 4 = 0 then s else noteLookup s
      (leAt c.bytes 8 4)) (leAt c.bytes 40 4)).gladeWrite (s.regEntry (keyIndex (leAt c.bytes 40 4))).glade (globalOff (leAt
      c.bytes 32 8)) (toLe 8 ((leNat (s.bytes (globalOff (leAt c.bytes 32 8)) 8) + leAt c.bytes 48 8) % 2 ^ 64))).snd =
      St.success ∧ (((noteLookup (if leAt c.bytes 44 4 = 0 then s else noteLookup s (leAt c.bytes 8 4)) (leAt c.bytes 40
      4)).gladeWrite (s.regEntry (keyIndex (leAt c.bytes 40 4))).glade (globalOff (leAt c.bytes 32 8)) (toLe 8 ((leNat
      (s.bytes (globalOff (leAt c.bytes 32 8)) 8) + leAt c.bytes 48 8) % 2 ^ 64))).fst.gladeWrite (((noteLookup (if leAt
      c.bytes 44 4 = 0 then s else noteLookup s (leAt c.bytes 8 4)) (leAt c.bytes 40 4)).gladeWrite (s.regEntry (keyIndex
      (leAt c.bytes 40 4))).glade (globalOff (leAt c.bytes 32 8)) (toLe 8 ((leNat (s.bytes (globalOff (leAt c.bytes 32 8)) 8)
      + leAt c.bytes 48 8) % 2 ^ 64))).fst.queueGlade (salQid q.val)) (leAt c.bytes 24 8) (toLe 8 (leNat (s.bytes (globalOff
      (leAt c.bytes 32 8)) 8)))).snd = St.success ∧ NoneHeld s (((noteLookup (if leAt c.bytes 44 4 = 0 then s else noteLookup
      s (leAt c.bytes 8 4)) (leAt c.bytes 40 4)).gladeWrite (s.regEntry (keyIndex (leAt c.bytes 40 4))).glade (globalOff (leAt
      c.bytes 32 8)) (toLe 8 ((leNat (s.bytes (globalOff (leAt c.bytes 32 8)) 8) + leAt c.bytes 48 8) % 2 ^
      64))).fst.gladeWrite (((noteLookup (if leAt c.bytes 44 4 = 0 then s else noteLookup s (leAt c.bytes 8 4)) (leAt c.bytes
      40 4)).gladeWrite (s.regEntry (keyIndex (leAt c.bytes 40 4))).glade (globalOff (leAt c.bytes 32 8)) (toLe 8 ((leNat
      (s.bytes (globalOff (leAt c.bytes 32 8)) 8) + leAt c.bytes 48 8) % 2 ^ 64))).fst.queueGlade (salQid q.val)) (leAt
      c.bytes 24 8) (toLe 8 (leNat (s.bytes (globalOff (leAt c.bytes 32 8)) 8)))).fst) ∧
    (∃ (s : State) (q : Fin 65536) (c : Cmd), salLocal s q.val c.bytes = St.success ∧ globalDev (leAt c.bytes 32 8) =
      s.devNum ∧ SalReady s q.val 5 c ∧ keyCheck s (leAt c.bytes 40 4) (salFtn s q.val) none (some Rt.atomic) (globalOff (leAt
      c.bytes 32 8)) 8 = 0 ∧ tileAt (globalOff (leAt c.bytes 32 8)) = none ∧ ((noteLookup (if leAt c.bytes 44 4 = 0 then s
      else noteLookup s (leAt c.bytes 8 4)) (leAt c.bytes 40 4)).gladeRead (s.regEntry (keyIndex (leAt c.bytes 40 4))).glade
      (globalOff (leAt c.bytes 32 8)) 8).snd = St.success ∧ ((noteLookup (if leAt c.bytes 44 4 = 0 then s else noteLookup s
      (leAt c.bytes 8 4)) (leAt c.bytes 40 4)).gladeWrite (s.regEntry (keyIndex (leAt c.bytes 40 4))).glade (globalOff (leAt
      c.bytes 32 8)) (toLe 8 (if leNat (s.bytes (globalOff (leAt c.bytes 32 8)) 8) = leAt c.bytes 48 8 then leAt c.bytes 56 8
      else leNat (s.bytes (globalOff (leAt c.bytes 32 8)) 8)))).snd = St.success ∧ (((noteLookup (if leAt c.bytes 44 4 = 0
      then s else noteLookup s (leAt c.bytes 8 4)) (leAt c.bytes 40 4)).gladeWrite (s.regEntry (keyIndex (leAt c.bytes 40
      4))).glade (globalOff (leAt c.bytes 32 8)) (toLe 8 (if leNat (s.bytes (globalOff (leAt c.bytes 32 8)) 8) = leAt c.bytes
      48 8 then leAt c.bytes 56 8 else leNat (s.bytes (globalOff (leAt c.bytes 32 8)) 8)))).fst.gladeWrite (((noteLookup (if
      leAt c.bytes 44 4 = 0 then s else noteLookup s (leAt c.bytes 8 4)) (leAt c.bytes 40 4)).gladeWrite (s.regEntry (keyIndex
      (leAt c.bytes 40 4))).glade (globalOff (leAt c.bytes 32 8)) (toLe 8 (if leNat (s.bytes (globalOff (leAt c.bytes 32 8))
      8) = leAt c.bytes 48 8 then leAt c.bytes 56 8 else leNat (s.bytes (globalOff (leAt c.bytes 32 8)) 8)))).fst.queueGlade
      (salQid q.val)) (leAt c.bytes 24 8) (toLe 8 (leNat (s.bytes (globalOff (leAt c.bytes 32 8)) 8)))).snd = St.success ∧
      NoneHeld s (((noteLookup (if leAt c.bytes 44 4 = 0 then s else noteLookup s (leAt c.bytes 8 4)) (leAt c.bytes 40
      4)).gladeWrite (s.regEntry (keyIndex (leAt c.bytes 40 4))).glade (globalOff (leAt c.bytes 32 8)) (toLe 8 (if leNat
      (s.bytes (globalOff (leAt c.bytes 32 8)) 8) = leAt c.bytes 48 8 then leAt c.bytes 56 8 else leNat (s.bytes (globalOff
      (leAt c.bytes 32 8)) 8)))).fst.gladeWrite (((noteLookup (if leAt c.bytes 44 4 = 0 then s else noteLookup s (leAt c.bytes
      8 4)) (leAt c.bytes 40 4)).gladeWrite (s.regEntry (keyIndex (leAt c.bytes 40 4))).glade (globalOff (leAt c.bytes 32 8))
      (toLe 8 (if leNat (s.bytes (globalOff (leAt c.bytes 32 8)) 8) = leAt c.bytes 48 8 then leAt c.bytes 56 8 else leNat
      (s.bytes (globalOff (leAt c.bytes 32 8)) 8)))).fst.queueGlade (salQid q.val)) (leAt c.bytes 24 8) (toLe 8 (leNat
      (s.bytes (globalOff (leAt c.bytes 32 8)) 8)))).fst) ∧
    (∃ (s : State) (q : Fin 65536) (c : Cmd) (r : Nat) (b : Cmd), salLocal s q.val c.bytes = St.success ∧ globalDev (leAt
      c.bytes 32 8) = s.devNum ∧ SalReady s q.val 6 c ∧ r = leAt c.bytes 48 8 ∧ r < 65536 ∧ sendAllowed s (salQid r) (salFtn s
      q.val) = true ∧ replyGlade s r = none ∧ List.find? (fun d => !d.started) (s.queue (salQid r)).cmds = some b ∧ AtHand s
      (CtxKey.queue (salQid r)) ∧ bufferStatus ((touchCtx (if leAt c.bytes 44 4 = 0 then s else noteLookup s (leAt c.bytes 8
      4)) (CtxKey.queue (salQid r))).setCmd (salQid r) { bytes := b.bytes, entry := b.entry, stamp := b.stamp, started := true, waiting := b.waiting })
      (salQid r) b = St.success ∧ leAt c.bytes 44 4 ≤ leAt b.bytes 12 4 ∧ ((noteLookup ((touchCtx (if leAt c.bytes 44 4 = 0
      then s else noteLookup s (leAt c.bytes 8 4)) (CtxKey.queue (salQid r))).setCmd (salQid r) { bytes := b.bytes, entry := b.entry, stamp := b.stamp, started := true, waiting := b.waiting })
      (leAt b.bytes 8 4)).gladeWrite (s.queueGlade (salQid r)) (leAt b.bytes 0 8) (salBytes s c)).snd = St.success ∧ NoneHeld
      s ((noteLookup ((touchCtx (if leAt c.bytes 44 4 = 0 then s else noteLookup s (leAt c.bytes 8 4)) (CtxKey.queue (salQid
      r))).setCmd (salQid r) { bytes := b.bytes, entry := b.entry, stamp := b.stamp, started := true, waiting := b.waiting })
      (leAt b.bytes 8 4)).gladeWrite (s.queueGlade (salQid r)) (leAt b.bytes 0 8) (salBytes s c)).fst) ∧
    (∃ (s : State) (q : Fin 65536) (e : Nat) (c : Cmd), List.find? (fun k => k.fst == salQid q.val) s.fab.selfRefused = some
      (salQid q.val, e) ∧ (s.queue (salQid q.val)).kind = false ∧ (s.queue (salQid q.val)).cmdAt e = some c) :=
  ⟨⟨sending (cmd [(0, 1, 1), (4, 4, 77), (8, 4, 2), (24, 8, 0x210000), (32, 8, 0 * 2 ^ 40 + 0x212000), (40, 4, 2), (44, 4,
     16)]), 7, cmd [(0, 1, 1), (4, 4, 77), (8, 4, 2), (24, 8, 0x210000), (32, 8, 0 * 2 ^ 40 + 0x212000), (40, 4, 2), (44, 4,
     16)], by decide +kernel, by decide +kernel, by decide +kernel, by decide +kernel, by simp only [noteLookup_eq]; generalize Config.freeBit _ = x; generalize Config.freeBit _ = y; cases x <;> cases y <;> decide +kernel,
     by simp only [noteLookup_eq]; generalize Config.freeBit _ = x; generalize Config.freeBit _ = y; cases x <;> cases y <;> decide +kernel⟩,
   ⟨sending (cmd [(0, 1, 2), (4, 4, 77), (8, 4, 2), (24, 8, 0x210000), (32, 8, 0 * 2 ^ 40 + 0x212000), (40, 4, 2), (44, 4,
     16), (48, 2, 7), (56, 8, 5)]), 7, cmd [(0, 1, 2), (4, 4, 77), (8, 4, 2), (24, 8, 0x210000), (32, 8, 0 * 2 ^ 40 + 0x212000),
     (40, 4, 2), (44, 4, 16), (48, 2, 7), (56, 8, 5)], by decide +kernel, by decide +kernel, by decide +kernel,
     by decide +kernel, by simp only [noteLookup_eq]; generalize Config.freeBit _ = x; generalize Config.freeBit _ = y; cases x <;> cases y <;> decide +kernel,
     by simp only [noteLookup_eq]; generalize Config.freeBit _ = x; generalize Config.freeBit _ = y; cases x <;> cases y <;> decide +kernel,
     by decide +kernel, by simp only [noteLookup_eq]; generalize Config.freeBit _ = x; generalize Config.freeBit _ = y; cases x <;> cases y <;> decide +kernel⟩,
   ⟨sending (cmd [(0, 1, 3), (4, 4, 77), (8, 4, 2), (24, 8, 0x210000), (32, 8, 0 * 2 ^ 40 + 0x212000), (40, 4, 2), (44, 4,
     16)]), 7, cmd [(0, 1, 3), (4, 4, 77), (8, 4, 2), (24, 8, 0x210000), (32, 8, 0 * 2 ^ 40 + 0x212000), (40, 4, 2), (44, 4,
     16)], by decide +kernel, by decide +kernel, by decide +kernel, by decide +kernel, by simp only [noteLookup_eq]; generalize Config.freeBit _ = x; generalize Config.freeBit _ = y; cases x <;> cases y <;> decide +kernel,
     by simp only [noteLookup_eq]; generalize Config.freeBit _ = x; generalize Config.freeBit _ = y; cases x <;> cases y <;> decide +kernel,
     by simp only [noteLookup_eq]; generalize Config.freeBit _ = x; generalize Config.freeBit _ = y; cases x <;> cases y <;> decide +kernel⟩,
   ⟨sending (cmd [(0, 1, 4), (4, 4, 77), (8, 4, 2), (24, 8, 0x210000), (32, 8, 0 * 2 ^ 40 + 0x212000), (40, 4, 2), (44, 4,
     8), (48, 8, 5)]), 7, cmd [(0, 1, 4), (4, 4, 77), (8, 4, 2), (24, 8, 0x210000), (32, 8, 0 * 2 ^ 40 + 0x212000), (40, 4,
     2), (44, 4, 8), (48, 8, 5)], by decide +kernel, by decide +kernel, by decide +kernel, by decide +kernel,
     by decide +kernel, by simp only [noteLookup_eq]; generalize Config.freeBit _ = x; generalize Config.freeBit _ = y; cases x <;> cases y <;> decide +kernel,
     by simp only [noteLookup_eq]; generalize Config.freeBit _ = x; generalize Config.freeBit _ = y; cases x <;> cases y <;> decide +kernel,
     by simp only [noteLookup_eq]; generalize Config.freeBit _ = x; generalize Config.freeBit _ = y; cases x <;> cases y <;> decide +kernel,
     by simp only [noteLookup_eq]; generalize Config.freeBit _ = x; generalize Config.freeBit _ = y; cases x <;> cases y <;> decide +kernel⟩,
   ⟨sending (cmd [(0, 1, 5), (4, 4, 77), (8, 4, 2), (24, 8, 0x210000), (32, 8, 0 * 2 ^ 40 + 0x212000), (40, 4, 2), (44, 4,
     8), (48, 8, 0), (56, 8, 6)]), 7, cmd [(0, 1, 5), (4, 4, 77), (8, 4, 2), (24, 8, 0x210000), (32, 8, 0 * 2 ^ 40 + 0x212000),
     (40, 4, 2), (44, 4, 8), (48, 8, 0), (56, 8, 6)], by decide +kernel, by decide +kernel, by decide +kernel,
     by decide +kernel, by decide +kernel, by simp only [noteLookup_eq]; generalize Config.freeBit _ = x; generalize Config.freeBit _ = y; cases x <;> cases y <;> decide +kernel,
     by simp only [noteLookup_eq]; generalize Config.freeBit _ = x; generalize Config.freeBit _ = y; cases x <;> cases y <;> decide +kernel,
     by simp only [noteLookup_eq]; generalize Config.freeBit _ = x; generalize Config.freeBit _ = y; cases x <;> cases y <;> decide +kernel,
     by simp only [noteLookup_eq]; generalize Config.freeBit _ = x; generalize Config.freeBit _ = y; cases x <;> cases y <;> decide +kernel⟩,
   ⟨sending (cmd [(0, 1, 6), (4, 4, 77), (8, 4, 2), (24, 8, 0x210000), (32, 8, 0 * 2 ^ 40), (44, 4, 16), (48, 8, 8)]), 7,
     cmd [(0, 1, 6), (4, 4, 77), (8, 4, 2), (24, 8, 0x210000), (32, 8, 0 * 2 ^ 40), (44, 4, 16), (48, 8, 8)], 8, cmd [(0, 8,
     0x211000), (8, 4, 2), (12, 4, 4096)], by decide +kernel, by decide +kernel, by decide +kernel, by decide +kernel,
     by decide +kernel, by decide +kernel, by decide +kernel, by decide +kernel, by decide +kernel, by simp only [noteLookup_eq]; generalize Config.freeBit _ = x; cases x <;> decide +kernel,
     by decide +kernel, by simp only [noteLookup_eq]; generalize Config.freeBit _ = x; generalize Config.freeBit _ = y; cases x <;> cases y <;> decide +kernel,
     by simp only [noteLookup_eq]; generalize Config.freeBit _ = x; generalize Config.freeBit _ = y; cases x <;> cases y <;> decide +kernel⟩,
   ⟨{ sending (cmd [(0, 1, 6), (4, 4, 77), (8, 4, 2), (24, 8, 0x210000), (32, 8, 0 * 2 ^ 40), (44, 4, 16), (48, 8, 8)]) with fab := { selfRefused := [(salQid 7, 0)] } },
     7, 0, cmd [(0, 1, 6), (4, 4, 77), (8, 4, 2), (24, 8, 0x210000), (32, 8, 0 * 2 ^ 40), (44, 4, 16), (48, 8, 8)],
     by decide +kernel⟩⟩

/-- States and operands meet the hypotheses of each clause of `Scheduler`. -/
theorem witness_scheduler :
    (∃ (s : State) (p : Fin 16) (c : Ctl) (rest : List Ctl), s.rd FAB_PORT.STATE p.val = 3 ∧ Tab.get [] s.fab.control p.val
      = c :: rest ∧ ctxCached s (CtxKey.peer c.device) = true ∧ (s.peer c.device).state = Ps.open_ ∧ (s.peer c.device).xseq +
      1 ≠ 2 ^ 47) ∧
    (∃ (s : State) (p : Fin 16) (d : Nat) (k : Pkt), s.rd FAB_PORT.STATE p.val = 3 ∧ Tab.get [] s.fab.control p.val = [] ∧
      s.fab.flows = [] ∧ (∀ (x : Nat × Peer), x ∈ s.peers → x.snd.resends = []) ∧ nextResponse s p.val = some (d, k) ∧ k.psn =
      none ∧ k.out = none ∧ ctxCached s (CtxKey.peer d) = true) ∧
    (∃ (s : State) (n : Fin 4096), s.noImage = false ∧ n.val < 256) ∧
    (∃ (s : State), s.noImage = false) ∧
    (∃ (s : State), s.noImage = false ∧ s.fab.flows = [] ∧ (∀ (x : Nat × Peer), x ∈ s.peers → x.snd.resends = [])) ∧
    (∃ (s : State) (n : Fin 4096) (v : BitVec 64), s.noImage = false ∧ n.val < 256 ∧ s.rd SCH_POL_A.GLADE (bitsOf v.toNat 24
      10) = n.val) ∧
    (∃ (s : State) (n : Fin 4096) (v : BitVec 64), s.noImage = false ∧ n.val < 256 ∧ s.rd SCH_POL_A.GLADE (bitsOf v.toNat 24
      10) ≠ n.val) ∧
    (∃ (s : State) (k : Fin 1024) (f : Flow) (d : Nat) (x : Pkt), s.noImage = false ∧ s.fab.flows = [(f, [(d, x)])] ∧ (∀ (y
      : Nat × Peer), y ∈ s.peers → y.snd.resends = []) ∧ (s.peer d).port < 16 ∧ x.heldBy = some k.val ∧ x.psn = none ∧
      (colourOf s k.val (counted s (s.peer d).port x.plen) (heldInput s k.val x)).fst ≠ 2) :=
  ⟨⟨{ peered ready with fab := { control := [(3, [{ device := 9, type := 0x10, epoch := 1, psn := 0, addr := 0, aux := 0, fresh := false, ece := false }])], cache := [(0, [.peer 9])] } },
     3, { device := 9, type := 0x10, epoch := 1, psn := 0, addr := 0, aux := 0, fresh := false, ece := false }, [],
     by decide +kernel⟩,
   ⟨{ peered ready with fab := { responses := [(9, { type := Pt.opResp, first := true, last := true, ftn := 9, addr := 0, rkey := 0, msg := 1, moff := 0, aux := 0, opv := 0, src := none, data := [], flow := .response 0, glade := 0, inst := 0, owner := none })], cache := [(0, [.peer 9])] }, sched := { ahead := [(3, 500)] } },
     3, 9, { type := Pt.opResp, first := true, last := true, ftn := 9, addr := 0, rkey := 0, msg := 1, moff := 0, aux := 0, opv := 0, src := none, data := [], flow := .response 0, glade := 0, inst := 0, owner := none },
     by decide +kernel⟩,
   ⟨peered ready, 7, by decide +kernel⟩,
   ⟨peered ready, by decide +kernel⟩,
   ⟨peered ready, by decide +kernel⟩,
   ⟨peered ready, 0, 100 + 2 ^ 20 * 200 + 2 ^ 40 * 3 + 2 ^ 48 * 9, by decide +kernel⟩,
   ⟨peered ready, 7, 100 + 2 ^ 20 * 200 + 2 ^ 40 * 3 + 2 ^ 48 * 9, by decide +kernel⟩,
   ⟨{ (peered ready).wrs 5 [(SCH_POL_B.CBS, 4096)] with fab := { flows := [(.queue 7, [(9, { type := Pt.write, first := true, last := true, ftn := 9, addr := 0, rkey := 0, msg := 1, moff := 0, aux := 0, opv := 0, src := none, data := [1, 2], flow := .queue 7, glade := 0, inst := 0, owner := none, heldBy := some 5, action := some 2, since := none })])] }, sched := { buckets := [(5, { tc := 4096 * 8000, te := 0, time := 0 })] } },
     5, .queue 7, 9, { type := Pt.write, first := true, last := true, ftn := 9, addr := 0, rkey := 0, msg := 1, moff := 0, aux := 0, opv := 0, src := none, data := [1, 2], flow := .queue 7, glade := 0, inst := 0, owner := none, heldBy := some 5, action := some 2, since := none },
     by decide +kernel⟩⟩

/-- States and operands meet the hypotheses of each clause of `StorageLocal`. -/
theorem witness_storageLocal :
    (∃ (s : State) (q : Fin 8192) (c : Cmd) (k : Nat), StqReady s q.val 1 c k ∧ (s.stqTag q.val k).vol.local_ = true ∧
      (s.stqTag q.val k).vol.encrypt = false ∧ bitOf (leAt c.bytes 1 1) 4 = false ∧ bitOf (leAt c.bytes 1 1) 5 = false ∧
      s.hostOn (s.queue (stqQid q.val)).inst = true ∧ s.flag HEP_PORT_STAT.ATS_EN (s.homePort (s.queue (stqQid q.val)).inst) =
      false ∧ 1 ≤ leAt c.bytes 32 4 ∧ (∀ (j : Nat), j < leAt c.bytes 32 4 → s.memBad (Vol.addr s (s.stqTag q.val k).vol (leAt
      c.bytes 24 8 + j)) (s.stqTag q.val k).vol.bs = false)) ∧
    (∃ (s : State) (q : Fin 8192) (c : Cmd) (k : Nat), StqReady s q.val 2 c k ∧ NoFlush s q.val ∧ (s.stqTag q.val
      k).vol.local_ = true ∧ bitOf (leAt c.bytes 1 1) 4 = false ∧ (bitOf (leAt c.bytes 1 1) 3 = false ∨ s.flag
      MEM_RGN_A.MIRROR (s.stqTag q.val k).vol.region = false) ∧ bitOf (leAt c.bytes 1 1) 5 = true ∧ s.inGladeRgn (s.queueGlade
      (stqQid q.val)) (leAt c.bytes 40 8) (leAt c.bytes 32 4 * (s.stqTag q.val k).vol.bs) = true ∧ (s.gladeRead (s.queueGlade
      (stqQid q.val)) (leAt c.bytes 40 8) (leAt c.bytes 32 4 * (s.stqTag q.val k).vol.bs)).snd = St.success ∧ (putBlocks s
      (s.stqTag q.val k).vol (leAt c.bytes 24 8) (sealBlocks s (s.stqTag q.val k).vol (leAt c.bytes 24 8) (s.bytes (leAt
      c.bytes 40 8) (leAt c.bytes 32 4 * (s.stqTag q.val k).vol.bs)))).snd = St.success ∧ NoneHeld s (putBlocks s (s.stqTag
      q.val k).vol (leAt c.bytes 24 8) (sealBlocks s (s.stqTag q.val k).vol (leAt c.bytes 24 8) (s.bytes (leAt c.bytes 40 8)
      (leAt c.bytes 32 4 * (s.stqTag q.val k).vol.bs)))).fst) ∧
    (∃ (s : State) (q : Fin 8192) (c : Cmd) (k : Nat) (b : List Byte), StqReady s q.val 2 c k ∧ NoFlush s q.val ∧ (s.stqTag
      q.val k).vol.local_ = true ∧ bitOf (leAt c.bytes 1 1) 4 = false ∧ (bitOf (leAt c.bytes 1 1) 3 = false ∨ s.flag
      MEM_RGN_A.MIRROR (s.stqTag q.val k).vol.region = false) ∧ bitOf (leAt c.bytes 1 1) 5 = false ∧ s.hostOn (s.queue (stqQid
      q.val)).inst = true ∧ s.instReady (s.queue (stqQid q.val)).inst = true ∧ (putBlocks (s.instRead (s.queue (stqQid
      q.val)).inst (leAt c.bytes 40 8) (leAt c.bytes 32 4 * (s.stqTag q.val k).vol.bs) (HostReply.data b)) (s.stqTag q.val
      k).vol (leAt c.bytes 24 8) (sealBlocks (s.instRead (s.queue (stqQid q.val)).inst (leAt c.bytes 40 8) (leAt c.bytes 32 4
      * (s.stqTag q.val k).vol.bs) (HostReply.data b)) (s.stqTag q.val k).vol (leAt c.bytes 24 8) (bytesAt b 0 (leAt c.bytes
      32 4 * (s.stqTag q.val k).vol.bs)))).snd = St.success ∧ NoneHeld s (putBlocks (s.instRead (s.queue (stqQid q.val)).inst
      (leAt c.bytes 40 8) (leAt c.bytes 32 4 * (s.stqTag q.val k).vol.bs) (HostReply.data b)) (s.stqTag q.val k).vol (leAt
      c.bytes 24 8) (sealBlocks (s.instRead (s.queue (stqQid q.val)).inst (leAt c.bytes 40 8) (leAt c.bytes 32 4 * (s.stqTag
      q.val k).vol.bs) (HostReply.data b)) (s.stqTag q.val k).vol (leAt c.bytes 24 8) (bytesAt b 0 (leAt c.bytes 32 4 *
      (s.stqTag q.val k).vol.bs)))).fst) ∧
    (∃ (s : State) (q : Fin 8192) (c : Cmd) (k : Nat), StqReady s q.val 4 c k ∧ NoFlush s q.val ∧ (s.stqTag q.val
      k).vol.local_ = true ∧ (bitOf (leAt c.bytes 1 1) 3 = false ∨ s.flag MEM_RGN_A.MIRROR (s.stqTag q.val k).vol.region =
      false) ∧ (putBlocks s (s.stqTag q.val k).vol (leAt c.bytes 24 8) (List.replicate (leAt c.bytes 32 4 * (s.stqTag q.val
      k).vol.bs) 0)).snd = St.success ∧ NoneHeld s (putBlocks s (s.stqTag q.val k).vol (leAt c.bytes 24 8) (List.replicate
      (leAt c.bytes 32 4 * (s.stqTag q.val k).vol.bs) 0)).fst) ∧
    (∃ (s : State) (q : Fin 8192) (c : Cmd) (k : Nat), StqReady s q.val 3 c k ∧ s.ended = [] ∧ (s.stqTag q.val k).flushing =
      false ∧ (s.stqTag q.val k).status = St.success ∧ (∀ (p : Nat × Nat), p ∈ (s.stqTag q.val k).covered → stillRuns s q.val
      p = false) ∧ (∀ (x : Nat), x ∈ s.dirtyOf q.val → leAt c.bytes 8 2 = 65535 ∨ x = leAt c.bytes 8 2 → (volOf s x).local_ =
      true ∧ fenceStatus s (volOf s x).region (fenceSeq s) = some St.success)) :=
  ⟨⟨storing (cmd [(0, 1, 1), (1, 1, 0), (4, 4, 77), (8, 2, 6), (24, 8, 2), (32, 4, 3), (40, 8, 2129920)]) localVol, 3, cmd [(0,
     1, 1), (1, 1, 0), (4, 4, 77), (8, 2, 6), (24, 8, 2), (32, 4, 3), (40, 8, 2129920)], 0, by decide +kernel⟩,
   ⟨storing (cmd [(0, 1, 2), (1, 1, 32), (4, 4, 77), (8, 2, 6), (24, 8, 2), (32, 4, 3), (40, 8, 2129920)]) localVol, 3, cmd [(0,
     1, 2), (1, 1, 32), (4, 4, 77), (8, 2, 6), (24, 8, 2), (32, 4, 3), (40, 8, 2129920)], 0, by decide +kernel⟩,
   ⟨storing (cmd [(0, 1, 2), (1, 1, 0), (4, 4, 77), (8, 2, 6), (24, 8, 2), (32, 4, 3), (40, 8, 2129920)]) localVol, 3, cmd [(0,
     1, 2), (1, 1, 0), (4, 4, 77), (8, 2, 6), (24, 8, 2), (32, 4, 3), (40, 8, 2129920)], 0, List.replicate 1536 7,
     by decide +kernel⟩,
   ⟨storing (cmd [(0, 1, 4), (1, 1, 0), (4, 4, 77), (8, 2, 6), (24, 8, 2), (32, 4, 1)]) localVol, 3, cmd [(0, 1, 4), (1, 1,
     0), (4, 4, 77), (8, 2, 6), (24, 8, 2), (32, 4, 1)], 0, by decide +kernel⟩,
   ⟨storing (cmd [(0, 1, 3), (1, 1, 0), (4, 4, 77), (8, 2, 6)]) localVol, 3, cmd [(0, 1, 3), (1, 1, 0), (4, 4, 77), (8, 2,
     6)], 0, by decide +kernel⟩⟩

/-- States and operands meet the hypotheses of each clause of `StorageRemote`. -/
theorem witness_storageRemote :
    (∃ (s : State) (q : Fin 8192) (c : Cmd) (k : Nat), (s.stqTag q.val k).vol.local_ = false ∧ s.flag STQ_GLADE_A.ENABLE
      (s.stqTag q.val k).vol.glade = true ∧ s.ftn (s.stqTag q.val k).vol.glade ≠ 0 ∧ (s.stqTag q.val k).vol.dev ≠ s.devNum ∧
      fabKeyed s (s.stqTag q.val k).vol.dev = true ∧ (s.peer (s.stqTag q.val k).vol.dev).state = Ps.open_ ∧ s.ended = [] ∧
      bitOf (leAt c.bytes 1 1) 4 = false ∧ StqReady s q.val 1 c k ∧ (freeSlot s (s.stqTag q.val k).vol.glade).isSome = true) ∧
    (∃ (s : State) (q : Fin 8192) (c : Cmd) (k : Nat) (r : HostReply) (j : Nat), (s.stqTag q.val k).vol.local_ = false ∧
      s.flag STQ_GLADE_A.ENABLE (s.stqTag q.val k).vol.glade = true ∧ s.ftn (s.stqTag q.val k).vol.glade ≠ 0 ∧ (s.stqTag q.val
      k).vol.dev ≠ s.devNum ∧ fabKeyed s (s.stqTag q.val k).vol.dev = true ∧ (s.peer (s.stqTag q.val k).vol.dev).state =
      Ps.open_ ∧ s.ended = [] ∧ bitOf (leAt c.bytes 1 1) 4 = false ∧ StqReady s q.val 2 c k ∧ freeSlot s (s.stqTag q.val
      k).vol.glade = some j ∧ bitOf (leAt c.bytes 1 1) 5 = true ∧ s.inGladeRgn (s.queueGlade (stqQid q.val)) (leAt c.bytes 40
      8) (leAt c.bytes 32 4 * (s.stqTag q.val k).vol.bs) = true ∧ (s.gladeRead (s.queueGlade (stqQid q.val)) (leAt c.bytes 40
      8) (leAt c.bytes 32 4 * (s.stqTag q.val k).vol.bs)).snd = St.success ∧ (∀ (r : Nat × CkpRing), r ∈ s.rings → r.snd.todo
      = []) ∧ ((takeSlot s q.val k).fst.writeMem (slotAddr (takeSlot s q.val k).fst (s.stqTag q.val k).vol.glade j)
      (sealBlocks (takeSlot s q.val k).fst (s.stqTag q.val k).vol (leAt c.bytes 24 8) (s.bytes (leAt c.bytes 40 8) (leAt
      c.bytes 32 4 * (s.stqTag q.val k).vol.bs)))).snd = St.success ∧ NoneHeld s ((takeSlot s q.val k).fst.writeMem (slotAddr
      (takeSlot s q.val k).fst (s.stqTag q.val k).vol.glade j) (sealBlocks (takeSlot s q.val k).fst (s.stqTag q.val k).vol
      (leAt c.bytes 24 8) (s.bytes (leAt c.bytes 40 8) (leAt c.bytes 32 4 * (s.stqTag q.val k).vol.bs)))).fst) ∧
    (∃ (s : State) (q : Fin 8192) (c : Cmd) (k : Nat), (s.stqTag q.val k).vol.local_ = false ∧ s.flag STQ_GLADE_A.ENABLE
      (s.stqTag q.val k).vol.glade = true ∧ s.ftn (s.stqTag q.val k).vol.glade ≠ 0 ∧ (s.stqTag q.val k).vol.dev ≠ s.devNum ∧
      fabKeyed s (s.stqTag q.val k).vol.dev = true ∧ (s.peer (s.stqTag q.val k).vol.dev).state = Ps.open_ ∧ s.ended = [] ∧
      bitOf (leAt c.bytes 1 1) 4 = false ∧ StqReady s q.val 4 c k) :=
  ⟨⟨peered ((storing (cmd [(0, 1, 1), (1, 1, 0), (4, 4, 77), (8, 2, 6), (24, 8, 2), (32, 4, 3), (40, 8, 2129920)]) remoteVol).wrs 0 [(STQ_GLADE_A.ENABLE,
     1), (STQ_GLADE_B.SLOTS, 4)]), 3, cmd [(0, 1, 1), (1, 1, 0), (4, 4, 77), (8, 2, 6), (24, 8, 2), (32, 4, 3), (40, 8,
     2129920)], 0, by decide +kernel⟩,
   ⟨peered ((storing (cmd [(0, 1, 2), (1, 1, 32), (4, 4, 77), (8, 2, 6), (24, 8, 2), (32, 4, 3), (40, 8, 2129920)]) remoteVol).wrs 0 [(STQ_GLADE_A.ENABLE,
     1), (STQ_GLADE_B.SLOTS, 4)]), 3, cmd [(0, 1, 2), (1, 1, 32), (4, 4, 77), (8, 2, 6), (24, 8, 2), (32, 4, 3), (40, 8,
     2129920)], 0, .data [], 0, by decide +kernel⟩,
   ⟨peered ((storing (cmd [(0, 1, 4), (1, 1, 0), (4, 4, 77), (8, 2, 6), (24, 8, 2), (32, 4, 1)]) remoteVol).wrs 0 [(STQ_GLADE_A.ENABLE,
     1), (STQ_GLADE_B.SLOTS, 4)]), 3, cmd [(0, 1, 4), (1, 1, 0), (4, 4, 77), (8, 2, 6), (24, 8, 2), (32, 4, 1)], 0,
     by decide +kernel⟩⟩

/-- States and operands meet the hypotheses of each clause of `StorageAdmin`. -/
theorem witness_storageAdmin :
    (∃ (s : State) (q : Fin 8192) (c : Cmd) (k : Nat), (s.queue (stqQid q.val)).kind = true ∧ NoFlush s q.val ∧ StqReady s
      q.val 129 c k ∧ leAt c.bytes 24 1 = 0 ∧ s.hostOn (s.queue (stqQid q.val)).inst = true ∧ s.flag HEP_PORT_STAT.ATS_EN
      (s.homePort (s.queue (stqQid q.val)).inst) = false) ∧
    (∃ (s : State) (q : Fin 8192) (c : Cmd) (k : Nat), (s.queue (stqQid q.val)).kind = true ∧ NoFlush s q.val ∧ StqReady s
      q.val 130 c k ∧ leAt c.bytes 24 1 = 1 ∧ s.hostOn (s.queue (stqQid q.val)).inst = true ∧ s.flag HEP_PORT_STAT.ATS_EN
      (s.homePort (s.queue (stqQid q.val)).inst) = false) ∧
    (∃ (s : State) (q : Fin 8192) (c : Cmd) (k : Nat), (s.queue (stqQid q.val)).kind = true ∧ NoFlush s q.val ∧ StqReady s
      q.val 131 c k) ∧
    (∃ (s : State) (q : Fin 8192) (c : Cmd) (k : Nat), (s.queue (stqQid q.val)).kind = true ∧ NoFlush s q.val ∧ StqReady s
      q.val 132 c k ∧ leAt c.bytes 24 1 = 1) :=
  ⟨⟨(storing (cmd [(0, 1, 129), (1, 1, 0), (4, 4, 77), (8, 2, 6), (40, 8, 36864)]) {} { kind := true }).setStqInst 0 ({ errors := [{ time := 5, qid := stqQid 3, status := 7, tag := 1, lba := 2, volume := 3, opcode := 1, result := 0 }], holdoff := 9, raise := true }),
     3, cmd [(0, 1, 129), (1, 1, 0), (4, 4, 77), (8, 2, 6), (40, 8, 36864)], 0, by decide +kernel⟩,
   ⟨(storing (cmd [(0, 1, 130), (1, 1, 0), (4, 4, 77), (8, 2, 6), (24, 1, 1), (32, 4, 64), (40, 8, 36864)]) {} { kind := true }).setStqInst 0 ({ errors := [{ time := 5, qid := stqQid 3, status := 7, tag := 1, lba := 2, volume := 3, opcode := 1, result := 0 }], holdoff := 9, raise := true }),
     3, cmd [(0, 1, 130), (1, 1, 0), (4, 4, 77), (8, 2, 6), (24, 1, 1), (32, 4, 64), (40, 8, 36864)], 0, by decide +kernel⟩,
   ⟨(storing (cmd [(0, 1, 131), (1, 1, 0), (4, 4, 77), (8, 2, 6), (24, 1, 1)]) {} { kind := true }).setStqInst 0 ({ errors := [{ time := 5, qid := stqQid 3, status := 7, tag := 1, lba := 2, volume := 3, opcode := 1, result := 0 }], holdoff := 9, raise := true }),
     3, cmd [(0, 1, 131), (1, 1, 0), (4, 4, 77), (8, 2, 6), (24, 1, 1)], 0, by decide +kernel⟩,
   ⟨(storing (cmd [(0, 1, 132), (1, 1, 0), (4, 4, 77), (8, 2, 6), (24, 1, 1), (48, 4, 500)]) {} { kind := true }).setStqInst 0 ({ errors := [{ time := 5, qid := stqQid 3, status := 7, tag := 1, lba := 2, volume := 3, opcode := 1, result := 0 }], holdoff := 9, raise := true }),
     3, cmd [(0, 1, 132), (1, 1, 0), (4, 4, 77), (8, 2, 6), (24, 1, 1), (48, 4, 500)], 0, by decide +kernel⟩⟩

/-- States and operands meet the hypotheses of each clause of `StorageSetupAndTime`. -/
theorem witness_storageSetupAndTime :
    (∃ (s : State) (v : Fin 4096) (w : BitVec 64), s.noImage = false ∧ s.flag STQ_VOL_A.VALID v.val = false ∧ bitOf w.toNat
      1 = true ∧ bitOf w.toNat 4 = false ∧ s.gladeExists (bitsOf w.toNat 8 8) = true ∧ s.feature 7 = true ∧ s.flag
      MEM_RGN_A.VALID (s.rd STQ_VOL_B.TARGET v.val % 1024) = true ∧ s.rd MEM_RGN_A.GLADE (s.rd STQ_VOL_B.TARGET v.val % 1024)
      = bitsOf w.toNat 8 8 ∧ 1 ≤ s.rd STQ_VOL_C.CAPACITY v.val ∧ (s.rd STQ_VOL_C.CAPACITY v.val * if bitOf w.toNat 2 = true
      then 4096 else 512) ≤ rgnLen s (s.rd STQ_VOL_B.TARGET v.val % 1024)) ∧
    (∃ (s : State), s.noImage = false) ∧
    (∃ (s : State) (g : Fin 256) (v : BitVec 64) (b : BitVec 16), s.noImage = false ∧ s.flag STQ_GLADE_A.ENABLE g.val =
      false ∧ bitOf v.toNat 0 = true ∧ s.flag MEM_RGN_A.VALID (bitsOf v.toNat 1 10) = true ∧ s.rd MEM_RGN_A.GLADE (bitsOf
      v.toNat 1 10) = g.val ∧ 2097152 ≤ rgnLen s (bitsOf v.toNat 1 10) ∧ stageKeyOk s g.val (bitsOf v.toNat 32 32) (bitsOf
      v.toNat 1 10) = true ∧ s.queueExists (salQid b.toNat) = true ∧ (s.queue (salQid b.toNat)).kind = true ∧ s.queueGlade
      (salQid b.toNat) = g.val) ∧
    (∃ (s : State) (q : Fin 8192) (k : Fin 32) (e : Nat) (c : Cmd), (s.stqTag q.val k.val).entry = some e ∧ (s.stqTag q.val
      k.val).sent = true ∧ (s.queue (stqQid q.val)).cmdAt e = some c ∧ ringsFor s (s.gladeOf (s.queue (stqQid q.val)).inst)
      (s.queue (stqQid q.val)).inst ≠ []) ∧
    (∃ (s : State) (q : Fin 8192) (x : Queue) (c : Cmd), s.rd PWR_ACT.STATE = 3 ∧ s.queues = [(stqQid q.val, x)] ∧ x.cmds =
      [c] ∧ s.fw.commit = none) ∧
    (∃ (s : State) (j : Fin 4096), (s.stqInst j.val).heldVectors ≠ []) :=
  ⟨⟨(region ready 0 1).wrs 0 [(GLD_QUOTA_A.EXISTS, 1), (BOOT_FEAT_AGREED.FEATURES, 128)] |>.wrs 5 [(STQ_VOL_B.TARGET, 1),
     (STQ_VOL_C.CAPACITY, 100)], 5, 2, by decide +kernel⟩,
   ⟨(region ready 0 1).wrs 0 [(GLD_QUOTA_A.EXISTS, 1), (BOOT_FEAT_AGREED.FEATURES, 128)] |>.wrs 5 [(STQ_VOL_B.TARGET, 1),
     (STQ_VOL_C.CAPACITY, 100)], by decide +kernel⟩,
   ⟨((sending (cmd [])).setRegEntry 4 { base := 0x200000, length := 0x200000, pd := 3, rights := 15, gen := 2, valid := true, glade := 0 }),
     0, 1 + 2 * 1 + 2 ^ 32 * (4 * 256 + 2), 8, by decide +kernel⟩,
   ⟨(storing (cmd [(0, 1, 1), (1, 1, 0), (4, 4, 77), (8, 2, 6), (24, 8, 2), (32, 4, 3), (40, 8, 2129920)]) remoteVol).setTag 3 0 { entry := some 0, vol := remoteVol, sent := true },
     3, 0, 0, cmd [(0, 1, 1), (1, 1, 0), (4, 4, 77), (8, 2, 6), (24, 8, 2), (32, 4, 3), (40, 8, 2129920)], by decide +kernel⟩,
   ⟨{ ready.wr PWR_ACT.STATE 0 3 with queues := [(stqQid 3, { valid := true, state := .active, cmds := [cmd [(0, 1, 1), (1, 1, 0), (4, 4, 77), (8, 2, 6), (24, 8, 2), (32, 4, 3), (40, 8, 2129920)]], head := 1, tail := 1 })] },
     3, { valid := true, state := .active, cmds := [cmd [(0, 1, 1), (1, 1, 0), (4, 4, 77), (8, 2, 6), (24, 8, 2), (32, 4, 3), (40, 8, 2129920)]], head := 1, tail := 1 },
     cmd [(0, 1, 1), (1, 1, 0), (4, 4, 77), (8, 2, 6), (24, 8, 2), (32, 4, 3), (40, 8, 2129920)], by decide +kernel⟩,
   ⟨ready.setStqInst 5 { heldVectors := [3] }, 5, by decide +kernel⟩⟩

/-- States and operands meet the hypotheses of each clause of `KeyCommands`. -/
theorem witness_keyCommands :
    (∃ (s : State), s.noImage = false ∧ fetchPaused s = false ∧ secStopped s = false ∧ s.flag SEC_KEY_CMD.BUSY = false) ∧
    (∃ (s : State) (k : KeyOp), s.sec.keyOp = some k ∧ k.slot < 65536 ∧ k.glade < 256 ∧ k.type < 4) :=
  ⟨⟨ready, by decide +kernel⟩,
   ⟨inSec ((ready.wrs 0 [(GLD_QUOTA_A.EXISTS, 1)])) (fun x => { x with keyOp := some ({ op := 1, type := 3, glade := 0, slot := 4, kek := 0, data := List.replicate 133 9 }) }),
     { op := 1, type := 3, glade := 0, slot := 4, kek := 0, data := List.replicate 133 9 }, by decide +kernel⟩⟩

/-- States and operands meet the hypotheses of each clause of `Sealing`. -/
theorem witness_sealing :
    (∃ (s : State) (token : BitVec 16), s.noImage = false ∧ s.flag SEC_SEAL_LOCK.HELD = false ∧ token ≠ 0) ∧
    (∃ (s : State) (token : BitVec 16), s.noImage = false ∧ s.flag SEC_SEAL_LOCK.HELD = true ∧ s.rd SEC_SEAL_LOCK.TOKEN =
      token.toNat) ∧
    (∃ (s : State), s.noImage = false ∧ s.flag SEC_SEAL_LOCK.HELD = true ∧ s.flag SEC_SEAL_CTRL.BUSY = false) ∧
    (∃ (s : State), s.noImage = false) ∧
    (∃ (s : State) (token : BitVec 16) (slot : Fin 16) (len : BitVec 13) (mgmt : Bool), s.noImage = false ∧ sealHolder s
      token.toNat = true ∧ s.flag SEC_SEAL_CTRL.BUSY = false ∧ secStopped s = false ∧ 1 ≤ len.toNat ∧ len.toNat ≤ 4096 ∧
      (sealKey s slot.val mgmt).isSome = true ∧ sealOpen s 1 slot.val = none ∧ s.rd SEC_SEAL_SLOTCTR.VALUE slot.val ≠ 2 ^ 64 -
      1) ∧
    (∃ (s : State) (token : BitVec 16) (slot : Fin 16) (len : BitVec 13) (mgmt : Bool), s.noImage = false ∧ sealHolder s
      token.toNat = true ∧ s.flag SEC_SEAL_CTRL.BUSY = false ∧ secStopped s = false ∧ 1 ≤ len.toNat ∧ len.toNat ≤ 4096 ∧
      (sealKey s slot.val mgmt).isSome = true ∧ sealOpen s 2 slot.val = none) ∧
    (∃ (s : State) (token : BitVec 16) (slot : Fin 16), s.noImage = false ∧ sealHolder s token.toNat = true ∧ s.flag
      SEC_SEAL_CTRL.BUSY = false ∧ secStopped s = false ∧ slot ≠ 0) ∧
    (∃ (s : State) (token : BitVec 16) (o : SealOp), s.noImage = false ∧ sealHolder s token.toNat = true ∧ s.flag
      SEC_SEAL_CTRL.BUSY = false ∧ secStopped s = false ∧ s.sec.sealOp = some o ∧ o.mode = 3) ∧
    (∃ (s : State) (token : BitVec 16) (o : SealOp), s.noImage = false ∧ sealHolder s token.toNat = true ∧ s.flag
      SEC_SEAL_CTRL.BUSY = false ∧ secStopped s = false ∧ s.sec.sealOp = some o ∧ o.mode = 1 ∧ o.more = false) :=
  ⟨⟨ready, 5, by decide +kernel⟩,
   ⟨(ready.wrs 0 [(SEC_SEAL_LOCK.HELD, 1), (SEC_SEAL_LOCK.TOKEN, 5)]), 5, by decide +kernel⟩,
   ⟨(ready.wrs 0 [(SEC_SEAL_LOCK.HELD, 1), (SEC_SEAL_LOCK.TOKEN, 5)]), by decide +kernel⟩,
   ⟨ready, by decide +kernel⟩,
   ⟨inSec ((ready.wrs 0 [(SEC_SEAL_LOCK.HELD, 1), (SEC_SEAL_LOCK.TOKEN, 5)])) (fun x => { x with sealKeys := [(3, [1, 2]), (15, [3])], sealMsg := [(0, 77), (511, 5)] }),
     5, 3, 9, false, by decide +kernel⟩,
   ⟨inSec ((ready.wrs 0 [(SEC_SEAL_LOCK.HELD, 1), (SEC_SEAL_LOCK.TOKEN, 5)])) (fun x => { x with sealKeys := [(3, [1, 2]), (15, [3])], sealMsg := [(0, 77), (511, 5)] }),
     5, 3, 9, false, by decide +kernel⟩,
   ⟨(ready.wrs 0 [(SEC_SEAL_LOCK.HELD, 1), (SEC_SEAL_LOCK.TOKEN, 5)]), 5, 3, by decide +kernel⟩,
   ⟨inSec ((ready.wrs 0 [(SEC_SEAL_LOCK.HELD, 1), (SEC_SEAL_LOCK.TOKEN, 5)])) (fun x => { x with sealKeys := [(3, [1, 2])], sealOp := some ({ mode := 3, slot := 3, more := false, replay := false, bytes := [0, 0, 0, 0, 0, 0, 0, 1, 7] }) }),
     5, { mode := 3, slot := 3, more := false, replay := false, bytes := [0, 0, 0, 0, 0, 0, 0, 1, 7] }, by decide +kernel⟩,
   ⟨inSec ((ready.wrs 0 [(SEC_SEAL_LOCK.HELD, 1), (SEC_SEAL_LOCK.TOKEN, 5)])) (fun x => { x with sealKeys := [(3, [1, 2])], sealOp := some ({ mode := 1, slot := 3, more := false, replay := false, bytes := [0, 0, 0, 0, 0, 0, 0, 1, 7] }) }),
     5, { mode := 1, slot := 3, more := false, replay := false, bytes := [0, 0, 0, 0, 0, 0, 0, 1, 7] }, by decide +kernel⟩⟩

/-- States and operands meet the hypotheses of each clause of `AttestationKeysAndDebug`. -/
theorem witness_attestationKeysAndDebug :
    (∃ (s : State) (g : BitVec 8), s.noImage = false ∧ fetchPaused s = false ∧ s.flag SEC_ATT_CTRL.BUSY = false ∧ secStopped
      s = false ∧ s.noIdentity = false ∧ s.gladeExists g.toNat = true) ∧
    (∃ (s : State) (g : Nat) (nonce : List Byte), s.sec.att = some (g, nonce)) ∧
    (∃ (s : State), s.noImage = false ∧ s.rd SEC_ROLLBACK.ADV_STATUS ≠ 1 ∧ s.rd BOOT_STATE.STATE ≠ 7 ∧ fetchPaused s = false
      ∧ s.flag SEC_ROLLBACK.BASIS = true ∧ s.fw.running ≠ [] ∧ secStopped s = false ∧ s.rd CLK_GROVE.STATE 3 ≠ 2) ∧
    (∃ (s : State), s.noImage = false ∧ s.rd SEC_ROLLBACK.ADV_STATUS ≠ 1 ∧ s.flag SEC_ROLLBACK.BASIS = false) ∧
    (∃ (s : State), s.rd SEC_ROLLBACK.ADV_STATUS = 1) ∧
    (∃ (s : State) (k : Fin 64) (v : BitVec 64), s.noImage = false ∧ s.flag SEC_FAB_GRP_A.VALID k.val = false ∧ bitOf
      v.toNat 32 = true ∧ (∀ (x : Nat), x ∈ [s.rd SEC_FAB_GRP_B.SLOT0 k.val, s.rd SEC_FAB_GRP_B.SLOT1 k.val] → s.rd
      SEC_KEY_SLOT.TYPE x = 1 ∧ s.rd SEC_KEY_SLOT.GLADE x = 0)) ∧
    (∃ (s : State) (k : Fin 64), s.noImage = false ∧ s.flag SEC_FAB_GRP_A.VALID k.val = false) ∧
    (∃ (s : State), s.noImage = false) ∧
    (∃ (s : State), s.noImage = false ∧ s.rd TRL_STATUS.AUTH ≠ 3 ∧ secStopped s = false) ∧
    (∃ (s : State), s.noImage = false ∧ s.flag TRL_STATUS.CHAL_VALID = true ∧ secStopped s = false ∧ s.rd TRL_STATUS.AUTH ≠
      1 ∧ s.rd TRL_STATUS.AUTH ≠ 3) ∧
    (∃ (s : State) (chal : List Byte) (resp : List Byte), s.noImage = false ∧ s.sec.debugOp = some (chal, resp) ∧
      s.sec.failures < 7) ∧
    (∃ (s : State), s.noImage = false ∧ s.rd TRL_STATUS.AUTH = 3) :=
  ⟨⟨(ready.wrs 0 [(SEC_STATUS.IDENTITY_OK, 1), (GLD_QUOTA_A.EXISTS, 1), (SEC_ATT_NONCE.BYTES, 77), (SEC_ROLLBACK.BASIS, 1),
     (SEC_ROLLBACK.MIN_SVN, 3)]), 0, by decide +kernel⟩,
   ⟨inSec ((ready.wrs 0 [(SEC_STATUS.IDENTITY_OK, 1), (GLD_QUOTA_A.EXISTS, 1), (SEC_ATT_NONCE.BYTES, 77),
     (SEC_ROLLBACK.BASIS, 1), (SEC_ROLLBACK.MIN_SVN, 3)])) (fun x => { x with att := some (0, [1, 2, 3]) }), 0, [1, 2, 3],
     by decide +kernel⟩,
   ⟨inFw ((ready.wrs 0 [(SEC_STATUS.IDENTITY_OK, 1), (GLD_QUOTA_A.EXISTS, 1), (SEC_ATT_NONCE.BYTES, 77),
     (SEC_ROLLBACK.BASIS, 1), (SEC_ROLLBACK.MIN_SVN, 3)])) (fun x => { x with running := List.replicate 416 9 }),
     by decide +kernel⟩,
   ⟨ready, by decide +kernel⟩,
   ⟨inFw ((listen (ready.wrs 0 [(SEC_STATUS.IDENTITY_OK, 1), (GLD_QUOTA_A.EXISTS, 1), (SEC_ATT_NONCE.BYTES, 77),
     (SEC_ROLLBACK.BASIS, 1), (SEC_ROLLBACK.MIN_SVN, 3)])).wr SEC_ROLLBACK.ADV_STATUS 0 1) (fun x => { x with running := List.replicate 416 9 }),
     by decide +kernel⟩,
   ⟨((ready.wrs 0 [(SEC_FAB_GRP_B.SLOT0, 4), (SEC_FAB_GRP_B.SLOT1, 5)]).wr SEC_KEY_SLOT.TYPE 4 1).wr SEC_KEY_SLOT.TYPE 5 1,
     0, 9 + 2 ^ 16 * 20 + 2 ^ 32 * 3, by decide +kernel⟩,
   ⟨(ready.wrs 0 [(SEC_STATUS.IDENTITY_OK, 1), (GLD_QUOTA_A.EXISTS, 1), (SEC_ATT_NONCE.BYTES, 77), (SEC_ROLLBACK.BASIS, 1),
     (SEC_ROLLBACK.MIN_SVN, 3)]), 0, by decide +kernel⟩,
   ⟨(ready.wrs 0 [(SEC_STATUS.IDENTITY_OK, 1), (GLD_QUOTA_A.EXISTS, 1), (SEC_ATT_NONCE.BYTES, 77), (SEC_ROLLBACK.BASIS, 1),
     (SEC_ROLLBACK.MIN_SVN, 3)]), by decide +kernel⟩,
   ⟨(ready.wrs 0 [(SEC_STATUS.IDENTITY_OK, 1), (GLD_QUOTA_A.EXISTS, 1), (SEC_ATT_NONCE.BYTES, 77), (SEC_ROLLBACK.BASIS, 1),
     (SEC_ROLLBACK.MIN_SVN, 3)]), by decide +kernel⟩,
   ⟨(ready.wrs 0 [(TRL_STATUS.CHAL_VALID, 1), (TRL_AUTH_CHAL.BYTES, 9)]).wr TRL_AUTH_RESP.BYTES 20 7, by decide +kernel⟩,
   ⟨{ ready with sec := { debugOp := some ([1], [2]), failures := 3 } }, [1], [2], by decide +kernel⟩,
   ⟨ready.wr TRL_STATUS.AUTH 0 3, by decide +kernel⟩⟩

/-- States and operands meet the hypotheses of each clause of `RingRestore`. -/
theorem witness_ringRestore :
    (∃ (s : State) (q : Fin 256) (c : Cmd) (areas : List (List (BitVec 8))) (agreed : List (BitVec 64)), CkpReady s q.val 3
      c ∧ (readItems s (leAt c.bytes 2 1) (leAt c.bytes 48 8) (leAt c.bytes 25 1)).snd = St.success ∧ (readAreas s c.bytes
      areas).snd = St.success ∧ NoneHeld s ((tryRoots (2 * leAt c.bytes 2 1) (readItems s (leAt c.bytes 2 1) (leAt c.bytes 48
      8) (leAt c.bytes 25 1)).fst (List.map (fun x => x.toNat) agreed) (List.foldr insertRoot [] (List.filterMap (fun a =>
      Option.map (fun r => (a, r)) (rootOf (noteAreas s (readAreas s c.bytes areas).fst) (2 * leAt c.bytes 2 1) a)) (readAreas
      s c.bytes areas).fst)) (noteAreas s (readAreas s c.bytes areas).fst) []).fst.write (leAt c.bytes 56 8) (reportBytes (if
      (tryRoots (2 * leAt c.bytes 2 1) (readItems s (leAt c.bytes 2 1) (leAt c.bytes 48 8) (leAt c.bytes 25 1)).fst (List.map
      (fun x => x.toNat) agreed) (List.foldr insertRoot [] (List.filterMap (fun a => Option.map (fun r => (a, r)) (rootOf
      (noteAreas s (readAreas s c.bytes areas).fst) (2 * leAt c.bytes 2 1) a)) (readAreas s c.bytes areas).fst)) (noteAreas s
      (readAreas s c.bytes areas).fst) []).snd.fst = St.success then (tryRoots (2 * leAt c.bytes 2 1) (readItems s (leAt
      c.bytes 2 1) (leAt c.bytes 48 8) (leAt c.bytes 25 1)).fst (List.map (fun x => x.toNat) agreed) (List.foldr insertRoot []
      (List.filterMap (fun a => Option.map (fun r => (a, r)) (rootOf (noteAreas s (readAreas s c.bytes areas).fst) (2 * leAt
      c.bytes 2 1) a)) (readAreas s c.bytes areas).fst)) (noteAreas s (readAreas s c.bytes areas).fst) []).snd.snd.fst else 2
      ^ 64 - 1) (tryRoots (2 * leAt c.bytes 2 1) (readItems s (leAt c.bytes 2 1) (leAt c.bytes 48 8) (leAt c.bytes 25 1)).fst
      (List.map (fun x => x.toNat) agreed) (List.foldr insertRoot [] (List.filterMap (fun a => Option.map (fun r => (a, r))
      (rootOf (noteAreas s (readAreas s c.bytes areas).fst) (2 * leAt c.bytes 2 1) a)) (readAreas s c.bytes areas).fst))
      (noteAreas s (readAreas s c.bytes areas).fst) []).snd.snd.snd)) ∧ s.inGladeRgn (s.rd CKP_GRP_A.GLADE (leAt c.bytes 2 1))
      (leAt c.bytes 56 8) 65536 = true) ∧
    (∃ (s : State) (q : Fin 256) (c : Cmd) (ri : Nat), CkpReady s q.val 4 c ∧ leAt c.bytes 2 1 < 16 ∧ (ri = 2 * leAt c.bytes
      2 1 ∨ ri = 2 * leAt c.bytes 2 1 + 1) ∧ List.find? (fun k => ringStep s k == leAt c.bytes 24 8 && decide (1 ≤ ringState s
      k) && decide (ringState s k ≤ 3)) [2 * leAt c.bytes 2 1, 2 * leAt c.bytes 2 1 + 1] = some ri ∧ GroupHeard s (leAt
      c.bytes 2 1)) :=
  ⟨⟨ringing 0 (cmd [(0, 1, 3), (2, 1, 1), (4, 4, 77), (24, 1, 1), (25, 1, 1), (32, 2, 6), (40, 8, 2113536), (48, 8,
     2101248), (56, 8, 2109440)]), 3, cmd [(0, 1, 3), (2, 1, 1), (4, 4, 77), (24, 1, 1), (25, 1, 1), (32, 2, 6), (40, 8,
     2113536), (48, 8, 2101248), (56, 8, 2109440)], [], [10], by decide +kernel⟩,
   ⟨ringing 2 (cmd [(0, 1, 4), (2, 1, 1), (4, 4, 77), (24, 8, 10)]) { stepKnown := true, items := [item1] }, 3, cmd [(0, 1,
     4), (2, 1, 1), (4, 4, 77), (24, 8, 10)], 2, by decide +kernel⟩⟩

/-- States and operands meet the hypotheses of each clause of `RingGroupsAndMessages`. -/
theorem witness_ringGroupsAndMessages :
    (∃ (s : State) (g : Fin 16) (w : BitVec 64), s.noImage = false ∧ s.flag CKP_GRP_A.VALID g.val = false ∧ bitOf w.toNat 0
      = true ∧ s.gladeExists (bitsOf w.toNat 8 8) = true ∧ s.queueExists (ckpQid (bitsOf w.toNat 16 8)) = true ∧ s.queueGlade
      (ckpQid (bitsOf w.toNat 16 8)) = bitsOf w.toNat 8 8 ∧ s.flag MEM_RGN_A.VALID (bitsOf w.toNat 40 10) = true ∧ s.rd
      MEM_RGN_A.GLADE (bitsOf w.toNat 40 10) = bitsOf w.toNat 8 8 ∧ 67108864 + 1048576 * s.rd CKP_GRP_B.PUSH_MIB g.val ≤
      rgnLen s (bitsOf w.toNat 40 10) ∧ 1 ≤ bitsOf w.toNat 50 4 ∧ 2 ≤ bitsOf w.toNat 24 6 ∧ bitsOf w.toNat 24 6 ≤ 32 ∧ (bitsOf
      w.toNat 30 2 = 1 ∨ bitsOf w.toNat 30 2 = 2) ∧ bitsOf w.toNat 30 2 + 1 ≤ bitsOf w.toNat 24 6 ∧ bitsOf w.toNat 32 5 <
      bitsOf w.toNat 24 6 ∧ s.rd CKP_MEMBER.DEVNUM (32 * g.val + bitsOf w.toNat 32 5) = s.devNum) ∧
    (∃ (s : State) (g : Fin 16) (w : BitVec 64), s.noImage = false ∧ s.flag CKP_GRP_A.VALID g.val = false ∧ bitOf w.toNat 0
      = true ∧ bitsOf w.toNat 50 4 = 0) ∧
    (∃ (s : State) (g : Fin 16) (m : Fin 32) (step : BitVec 64) (ri : Nat), s.flag CKP_GRP_A.VALID g.val = true ∧ m.val <
      s.rd CKP_GRP_A.MEMBERS g.val ∧ (ri = 2 * g.val ∨ ri = 2 * g.val + 1) ∧ List.find? (fun k => ringLive s k && ringStep s k
      == step.toNat) [2 * g.val, 2 * g.val + 1] = some ri ∧ s.ended = []) ∧
    (∃ (s : State) (g : Fin 16) (m : Fin 32) (step : BitVec 64) (ri : Nat), s.flag CKP_GRP_A.VALID g.val = true ∧ m.val <
      s.rd CKP_GRP_A.MEMBERS g.val ∧ (ri = 2 * g.val ∨ ri = 2 * g.val + 1) ∧ List.find? (fun k => ringLive s k && ringStep s k
      == step.toNat) [2 * g.val, 2 * g.val + 1] = some ri ∧ s.ended = [] ∧ fetchPaused s = false) ∧
    (∃ (s : State) (g : Fin 16) (m : Fin 32) (step : BitVec 64) (ri : Nat), s.flag CKP_GRP_A.VALID g.val = true ∧ m.val <
      s.rd CKP_GRP_A.MEMBERS g.val ∧ (ri = 2 * g.val ∨ ri = 2 * g.val + 1) ∧ List.find? (fun k => ringLive s k && ringStep s k
      == step.toNat) [2 * g.val, 2 * g.val + 1] = some ri ∧ s.ended = [] ∧ ringState s ri = Rs.draining ∧ (m.val ≠ ringSelf s
      ri ∨ Option.any (fun x => x.rooted) (s.ring ri).drain = true)) :=
  ⟨⟨(ringing 0 (cmd [(0, 1, 9), (2, 1, 1), (4, 4, 77)])).wrs 0 [(GLD_QUOTA_A.EXISTS, 1)], 2, 1 + 2 ^ 16 * 3 + 2 ^ 24 * 3 + 2 ^ 30 + 2 ^ 32 + 2 ^ 40 * 4 + 2 ^ 50 * 2,
     by decide +kernel⟩,
   ⟨(ringing 0 (cmd [(0, 1, 9), (2, 1, 1), (4, 4, 77)])).wrs 0 [(GLD_QUOTA_A.EXISTS, 1)], 2, 1 + 2 ^ 16 * 3 + 2 ^ 24 * 3 + 2 ^ 30 + 2 ^ 32 + 2 ^ 40 * 4 + 2 ^ 50 * 0,
     by decide +kernel⟩,
   ⟨ringing 1 (cmd [(0, 1, 9), (2, 1, 1), (4, 4, 77)]) { stepKnown := true, seen := [], items := [item1] }, 1, 2, 10, 2,
     by decide +kernel⟩,
   ⟨ringing 1 (cmd [(0, 1, 9), (2, 1, 1), (4, 4, 77)]) { stepKnown := true, seen := [], items := [item1] }, 1, 2, 10, 2,
     by decide +kernel⟩,
   ⟨ringing 5 (cmd [(0, 1, 9), (2, 1, 1), (4, 4, 77)]) { stepKnown := true, seen := [], items := [item1] }, 1, 2, 10, 2,
     by decide +kernel⟩⟩

/-- States and operands meet the hypotheses of each clause of `RingArmAndCapture`. -/
theorem witness_ringArmAndCapture :
    (∃ (s : State) (q : Fin 256) (c : Cmd) (ri : Nat), CkpReady s q.val 1 c ∧ (captureStatus s c.bytes).snd = St.success ∧
      freeRing s (leAt c.bytes 2 1) = some ri ∧ leAt c.bytes 2 1 < 16 ∧ s.early (leAt c.bytes 2 1) = [] ∧ leAt c.bytes 24 1 =
      0 ∧ stepDiff (s.ctr (leAt c.bytes 26 2)) (leAt c.bytes 40 8) ≤ 0) ∧
    (∃ (s : State) (q : Fin 256) (c : Cmd) (ri : Nat), CkpReady s q.val 1 c ∧ (captureStatus s c.bytes).snd = St.success ∧
      freeRing s (leAt c.bytes 2 1) = some ri ∧ leAt c.bytes 2 1 < 16 ∧ s.early (leAt c.bytes 2 1) = [] ∧ leAt c.bytes 24 1 =
      1) ∧
    (∃ (s : State) (g : Fin 16) (r : Fin 2) (period : Nat) (lead : Nat), (s.ring (2 * g.val + r.val)).timer = some (period,
      lead) ∧ lead < 2 ^ 32 ∧ (s.ring (2 * g.val + r.val)).stepCtr < 65536 ∧ s.early g.val = []) ∧
    (∃ (s : State) (g : Fin 16) (r : Fin 2), ringState s (2 * g.val + r.val) = Rs.armed ∧ (s.ring (2 * g.val +
      r.val)).stepKnown = true ∧ 0 ≤ stepDiff (s.ctr (s.ring (2 * g.val + r.val)).stepCtr) (ringStep s (2 * g.val + r.val)) ∧
      (∀ (e : Nat × CkpRing), e ∈ s.rings → ∀ (i : CkpItem), i ∈ e.snd.items → i.kind ≠ 3 ∧ i.port ≤ 1) ∧ GroupHeard s g.val ∧
      blocksNeeded s (2 * g.val + r.val) + ringHeld s (if r.val = 0 then 2 * g.val + 1 else 2 * g.val) ≤ ringSpace s (2 *
      g.val + r.val)) ∧
    (∃ (s : State) (g : Fin 16) (r : Fin 2), ringState s (2 * g.val + r.val) = Rs.armed ∧ (s.ring (2 * g.val +
      r.val)).stepKnown = true ∧ 0 ≤ stepDiff (s.ctr (s.ring (2 * g.val + r.val)).stepCtr) (ringStep s (2 * g.val + r.val)) ∧
      (∀ (e : Nat × CkpRing), e ∈ s.rings → ∀ (i : CkpItem), i ∈ e.snd.items → i.kind ≠ 3 ∧ i.port ≤ 1) ∧ GroupHeard s g.val ∧
      ringSpace s (2 * g.val + r.val) < blocksNeeded s (2 * g.val + r.val) + ringHeld s (if r.val = 0 then 2 * g.val + 1 else
      2 * g.val)) ∧
    (∃ (s : State) (g : Fin 16) (r : Fin 2) (k : Nat) (n : Nat) (more : List (Nat × Nat)) (i : CkpItem), (s.ring (2 * g.val
      + r.val)).todo = (k, n) :: more ∧ (s.ring (2 * g.val + r.val)).items[k]? = some i ∧ s.memBad (i.addr + 65536 * n) (min
      65536 (i.len - 65536 * n)) = false ∧ writeRule s (ringBlock s (2 * g.val + r.val) (granulePlace (s.ring (2 * g.val +
      r.val)).items k n)) (granuleBytes s i n).length = WriteRule.go ∧ (∃ j, j ≠ n ∧ (k, j) ∈ more)) ∧
    (∃ (s : State) (g : Fin 16) (r : Fin 2) (k : Nat) (n : Nat) (more : List (Nat × Nat)) (i : CkpItem) (q : Fin 256) (e :
      Nat) (c : Cmd), (s.ring (2 * g.val + r.val)).todo = (k, n) :: more ∧ (s.ring (2 * g.val + r.val)).items[k]? = some i ∧
      s.memBad (i.addr + 65536 * n) (min 65536 (i.len - 65536 * n)) = false ∧ writeRule s (ringBlock s (2 * g.val + r.val)
      (granulePlace (s.ring (2 * g.val + r.val)).items k n)) (granuleBytes s i n).length = WriteRule.go ∧ more = [] ∧ (s.ring
      (2 * g.val + r.val)).items = [i] ∧ i.doneEn = false ∧ ringState s (2 * g.val + r.val) = Rs.capturing ∧ ¬ringSelf s (2 *
      g.val + r.val) ∈ (s.ring (2 * g.val + r.val)).captured ∧ (s.ring (2 * g.val + r.val)).capture = some (ckpQid q.val, e) ∧
      (s.queue (ckpQid q.val)).cmdAt e = some c ∧ GroupHeard s g.val) :=
  ⟨⟨ringing 0 (cmd [(0, 1, 1), (2, 1, 1), (4, 4, 77), (24, 1, 0), (26, 2, 5), (28, 2, 6), (30, 1, 1), (32, 8, 2101248), (40,
     8, 10), (56, 8, 100)]), 3, cmd [(0, 1, 1), (2, 1, 1), (4, 4, 77), (24, 1, 0), (26, 2, 5), (28, 2, 6), (30, 1, 1), (32, 8,
     2101248), (40, 8, 10), (56, 8, 100)], 2, by decide +kernel⟩,
   ⟨ringing 0 (cmd [(0, 1, 1), (2, 1, 1), (4, 4, 77), (24, 1, 1), (26, 2, 5), (28, 2, 6), (30, 1, 1), (32, 8, 2101248)]), 3,
     cmd [(0, 1, 1), (2, 1, 1), (4, 4, 77), (24, 1, 1), (26, 2, 5), (28, 2, 6), (30, 1, 1), (32, 8, 2101248)], 2,
     by decide +kernel⟩,
   ⟨ringing 1 (cmd [(0, 1, 9), (2, 1, 1), (4, 4, 77)]) { timer := some (5, 8), stepCtr := 5 }, 1, 0, 5, 8,
     by decide +kernel⟩,
   ⟨(ringing 1 (cmd [(0, 1, 9), (2, 1, 1), (4, 4, 77)]) { stepKnown := true, items := [item1], stepCtr := 5, trigCtr := 6 }).wr UST_CTR.VALUE 5 10,
     1, 0, by decide +kernel⟩,
   ⟨((ringing 1 (cmd [(0, 1, 9), (2, 1, 1), (4, 4, 77)]) { stepKnown := true, items := [item1], stepCtr := 5, trigCtr := 6 }).wr UST_CTR.VALUE 5 10).wr MEM_RGN_B.SIZE 4 32,
     1, 0, by decide +kernel⟩,
   ⟨ringing 2 (cmd [(0, 1, 9), (2, 1, 1), (4, 4, 77)]) { stepKnown := true, items := [item1], todo := [(0, 0), (0, 1), (0, 2)], capture := some (ckpQid 3, 0) },
     1, 0, 0, 0, [(0, 1), (0, 2)], item1, by decide +kernel, by decide +kernel, by decide +kernel, by decide +kernel, 1,
     by decide +kernel, by decide +kernel⟩,
   ⟨ringing 2 (cmd [(0, 1, 9), (2, 1, 1), (4, 4, 77)]) { stepKnown := true, items := [{ item1 with len := 100 }], todo := [(0, 0)], capture := some (ckpQid 3, 0) },
     1, 0, 0, 0, [], { item1 with len := 100 }, 3, 0, cmd [(0, 1, 9), (2, 1, 1), (4, 4, 77)], by decide +kernel⟩⟩

/-- States and operands meet the hypotheses of each clause of `RingStageAndDrain`. -/
theorem witness_ringStageAndDrain :
    (∃ (s : State) (g : Fin 16) (r : Fin 2), ringState s (2 * g.val + r.val) = Rs.staging ∧ (s.ring (2 * g.val +
      r.val)).deduped = false ∧ fetchPaused s = false ∧ Reachable s (2 * g.val + r.val) ∧ PlainWrites s) ∧
    (∃ (s : State) (g : Fin 16) (r : Fin 2), ringState s (2 * g.val + r.val) = Rs.staging ∧ (∀ (k : Nat), k < ringN s (2 *
      g.val + r.val) → k ∈ (s.ring (2 * g.val + r.val)).placed) ∧ GroupHeard s g.val) ∧
    (∃ (s : State) (q : Fin 256) (c : Cmd) (ri : Nat) (m : Nat), CkpReady s q.val 2 c ∧ ringAt s (leAt c.bytes 2 1) (leAt
      c.bytes 24 8) Rs.staged = some ri ∧ leAt c.bytes 2 1 < 16 ∧ areaStatus s (leAt c.bytes 2 1) (leAt c.bytes 32 2) (leAt
      c.bytes 40 8) (leAt c.bytes 48 8) = St.success ∧ m ∈ partOrder (ringN s ri) (ringP s ri) (ringSelf s ri) ∧ m ≠ ringSelf
      s ri ∧ ¬m ∈ (s.ring ri).absent ∧ (s.ring ri).parts.find m = none ∧ Reachable s ri) ∧
    (∃ (s : State) (g : Fin 16) (r : Fin 2) (d : CkpDrain) (q : Fin 256) (c : Cmd), (s.ring (2 * g.val + r.val)).drain =
      some d ∧ d.qid = ckpQid q.val ∧ (s.queue (ckpQid q.val)).cmdAt d.entry = some c ∧ (∀ (m : Nat), m < ringN s (2 * g.val +
      r.val) → m ∈ (s.ring (2 * g.val + r.val)).durable ∨ m ∈ (s.ring (2 * g.val + r.val)).absent) ∧ rootWriter s (2 * g.val +
      r.val) = some (ringSelf s (2 * g.val + r.val)) ∧ fetchPaused s = false ∧ s.flag SEC_SEAL_LOCK.HELD = false ∧ s.flag
      SEC_SEAL_CTRL.BUSY = false ∧ Tab.get [] s.sec.sealKeys (s.rd CKP_GRP_A.SEAL_SLOT g.val) ≠ [] ∧ s.rd
      SEC_SEAL_SLOTCTR.VALUE (s.rd CKP_GRP_A.SEAL_SLOT g.val) + 1 < 2 ^ 64 ∧ d.rooted = false ∧ (volOf s d.volume).local_ =
      true ∧ s.ended = [] ∧ (∀ (e : Nat × CkpRing), e ∈ s.rings → e.snd.todo = []) ∧ (volumeWrite (s.wr SEC_SEAL_SLOTCTR.VALUE
      (s.rd CKP_GRP_A.SEAL_SLOT g.val) (s.rd SEC_SEAL_SLOTCTR.VALUE (s.rd CKP_GRP_A.SEAL_SLOT g.val) + 1)) (2 * g.val + r.val)
      (volOf s d.volume) (d.area * (volOf s d.volume).bs) (rootBody s (2 * g.val + r.val) d ++ toLe 8 (s.rd
      SEC_SEAL_SLOTCTR.VALUE (s.rd CKP_GRP_A.SEAL_SLOT g.val) + 1) ++ rootTag s g.val (s.rd SEC_SEAL_SLOTCTR.VALUE (s.rd
      CKP_GRP_A.SEAL_SLOT g.val) + 1) (rootBody s (2 * g.val + r.val) d) ++ List.replicate 16 0)).snd = St.success ∧ NoneHeld
      s (volumeWrite (s.wr SEC_SEAL_SLOTCTR.VALUE (s.rd CKP_GRP_A.SEAL_SLOT g.val) (s.rd SEC_SEAL_SLOTCTR.VALUE (s.rd
      CKP_GRP_A.SEAL_SLOT g.val) + 1)) (2 * g.val + r.val) (volOf s d.volume) (d.area * (volOf s d.volume).bs) (rootBody s (2
      * g.val + r.val) d ++ toLe 8 (s.rd SEC_SEAL_SLOTCTR.VALUE (s.rd CKP_GRP_A.SEAL_SLOT g.val) + 1) ++ rootTag s g.val (s.rd
      SEC_SEAL_SLOTCTR.VALUE (s.rd CKP_GRP_A.SEAL_SLOT g.val) + 1) (rootBody s (2 * g.val + r.val) d) ++ List.replicate 16
      0)).fst ∧ GroupHeard s g.val) :=
  ⟨⟨ringing 3 (cmd [(0, 1, 9), (2, 1, 1), (4, 4, 77)]) { stepKnown := true, items := [item1], seen := [{ member := 0, item := 0, granule := 0, hash := [1] }, { member := 2, item := 0, granule := 0, hash := [1] }, { member := 2, item := 0, granule := 1, hash := [2] }], caps := 3 },
     1, 0, by decide +kernel⟩,
   ⟨ringing 3 (cmd [(0, 1, 9), (2, 1, 1), (4, 4, 77)]) { stepKnown := true, items := [item1], placed := [0, 1, 2], caps := 3, deduped := true },
     1, 0, by decide +kernel⟩,
   ⟨ringing 4 (cmd [(0, 1, 2), (2, 1, 1), (4, 4, 77), (24, 8, 10), (32, 2, 6), (40, 8, 0), (48, 8, 2000)]) { stepKnown := true, items := [item1] },
     3, cmd [(0, 1, 2), (2, 1, 1), (4, 4, 77), (24, 8, 10), (32, 2, 6), (40, 8, 0), (48, 8, 2000)], 2, 0, by decide +kernel⟩,
   ⟨inSec (ringing 5 (cmd [(0, 1, 2), (2, 1, 1), (4, 4, 77), (24, 8, 10), (32, 2, 6), (40, 8, 0), (48, 8, 2000)]) { stepKnown := true, items := [item1], drain := some ({ qid := ckpQid 3, entry := 0, volume := 6, area := 8, ablks := 2000 }), durable := [1, 2], absent := [0] }) (fun x => { x with sealKeys := [(2, [5])] }),
     1, 0, { qid := ckpQid 3, entry := 0, volume := 6, area := 8, ablks := 2000 }, 3, cmd [(0, 1, 2), (2, 1, 1), (4, 4, 77),
     (24, 8, 10), (32, 2, 6), (40, 8, 0), (48, 8, 2000)], by decide +kernel⟩⟩

/-- States and operands meet the hypotheses of each clause of `TwinMessages`. -/
theorem witness_twinMessages :
    (∃ (s : State) (p : Fin 2), s.twinKeyed = true ∧ s.pair ≠ Pair.unpaired ∧ twinLanesUp s p.val = true ∧ s.rd
      TWN_CNT.COUNT < 2 ^ 64 - 1) ∧
    (∃ (s : State), s.twinKeyed = true ∧ s.twin.toAck ≠ 0) ∧
    (∃ (s : State), s.twinKeyed = true ∧ twinLinkAlive s = true) ∧
    (∃ (s : State) (f : TwinFrame), FromTwin s f ∧ NothingHeld s ∧ s.twin.waiting = false ∧ f.state.toNat ≠ Pair.takenOver ∧
      (s.pair = Pair.pairing ∨ s.pair = Pair.degraded ∨ s.pair = Pair.suspect ∨ s.pair = Pair.isolated)) ∧
    (∃ (s : State) (f : TwinFrame), FromTwin s f ∧ s.pair ≠ Pair.degraded ∧ (∀ (e : Nat × CkpRing), e ∈ s.rings → e.snd.todo
      = []) ∧ 64 ≤ f.bytes.length ∧ f.bytes.length ≤ 8192 ∧ f.bytes.length % 64 = 0 ∧ f.addr.toNat % 64 = 0 ∧ f.seq.toNat =
      s.twin.applied + 1 ∧ targetRegion s f.addr.toNat f.bytes.length = true) ∧
    (∃ (s : State) (f : TwinFrame), FromTwin s f ∧ s.pair ≠ Pair.degraded ∧ NothingHeld s ∧ f.aux.toNat < s.twin.nextSeq) ∧
    (∃ (s : State) (f : TwinFrame), s.flag TWN_CFG.ENABLE = true ∧ twinQuadLost s ↑f.port = false ∧ f.authentic = false ∧
      s.rd TWN_CNT.COUNT 2 < 2 ^ 64 - 1) :=
  ⟨⟨twinned 2, 0, by decide +kernel⟩,
   ⟨inTwin (twinned 2) (fun x => { x with toAck := 3, applied := 8, unacked := [{ seq := 1, type := 2, region := 1, addr := 0x400000, bytes := List.replicate 64 1 }, { seq := 2, type := 2, region := 1, addr := 0x400000, bytes := List.replicate 64 1 }], nextSeq := 3 }),
     by decide +kernel⟩,
   ⟨inTwin ((twinned 2).wr TWN_STATUS.PORT0_UP 0 1) (fun x => { x with toAck := 3, applied := 8, unacked := [{ seq := 1, type := 2, region := 1, addr := 0x400000, bytes := List.replicate 64 1 }, { seq := 2, type := 2, region := 1, addr := 0x400000, bytes := List.replicate 64 1 }], nextSeq := 3 }),
     by decide +kernel⟩,
   ⟨twinned 1, { port := 1, authentic := true, state := 2, src := 9, epoch := 6, addr := 0x400040, aux := 1, seq := 9, bytes := List.replicate 64 7 },
     by decide +kernel⟩,
   ⟨twinned 2, { port := 1, authentic := true, state := 2, src := 9, epoch := 6, addr := 0x400040, aux := 0, seq := 1, bytes := List.replicate 64 7 },
     by decide +kernel⟩,
   ⟨twinned 2, { port := 1, authentic := true, state := 2, src := 9, epoch := 6, addr := 0x400040, aux := 0, seq := 1, bytes := List.replicate 64 7 },
     by decide +kernel⟩,
   ⟨twinned 2, { port := 1, authentic := false, state := 2, src := 9, epoch := 6, addr := 0x400040, aux := 0, seq := 1, bytes := List.replicate 64 7 },
     by decide +kernel⟩⟩

/-- States and operands meet the hypotheses of each clause of `TwinStatesAndRegions`. -/
theorem witness_twinStatesAndRegions :
    (∃ (s : State) (p : Fin 2), NothingHeld s ∧ s.twinPortUp p.val = true ∧ s.twinPortUp (1 - p.val) = false ∧ s.pair =
      Pair.paired ∧ s.flag TWN_STATUS.FAB_ALIVE = true) ∧
    (∃ (s : State) (p : Fin 2), NothingHeld s ∧ s.twinPortUp p.val = true ∧ s.twinPortUp (1 - p.val) = false ∧ s.pair =
      Pair.paired ∧ s.flag TWN_STATUS.FAB_ALIVE = false ∧ s.rd TWN_CFG.WITNESSES = 0 ∧ (∀ (e : Owner × Nat × List Byte), e ∈
      s.ended → ∀ (w : Nat), e.fst ≠ Owner.witness w)) ∧
    (∃ (s : State), NothingHeld s ∧ s.pair = Pair.paired ∧ twinLinkAlive s = true ∧ fabKeyed s (s.rd TWN_CFG.TWIN_DEV) =
      true ∧ (s.peer (s.rd TWN_CFG.TWIN_DEV)).state = Ps.open_ ∧ (s.peer (s.rd TWN_CFG.TWIN_DEV)).port < 16) ∧
    (∃ (s : State), NothingHeld s ∧ s.pair = Pair.suspect ∧ s.twin.waiting = false) ∧
    (∃ (s : State), NothingHeld s ∧ s.pair = Pair.isolated ∧ s.twin.waiting = false ∧ (∀ (e : Owner × Nat × List Byte), e ∈
      s.ended → ∀ (w : Nat), e.fst ≠ Owner.witness w) ∧ s.rd TWN_CNT.COUNT 6 < 2 ^ 64 - 1 ∧ s.rd TWN_CFG.WITNESSES = 0) ∧
    (∃ (s : State), NothingHeld s ∧ s.pair = Pair.isolated ∧ s.twin.waiting = false ∧ (∀ (e : Owner × Nat × List Byte), e ∈
      s.ended → ∀ (w : Nat), e.fst ≠ Owner.witness w) ∧ s.rd TWN_CNT.COUNT 6 < 2 ^ 64 - 1 ∧ s.rd TWN_CFG.WITNESSES = 1 ∧
      globalDev (s.rd TWN_WIT_ADDR.ADDR) ≠ s.devNum ∧ fabKeyed s (globalDev (s.rd TWN_WIT_ADDR.ADDR)) = true ∧ (s.peer
      (globalDev (s.rd TWN_WIT_ADDR.ADDR))).state = Ps.open_) ∧
    (∃ (s : State), NothingHeld s ∧ s.twin.waiting = true ∧ (s.pair = Pair.suspect ∨ s.pair = Pair.isolated)) ∧
    (∃ (s : State) (epoch : BitVec 16), NothingHeld s ∧ s.noImage = false ∧ epoch ≠ 0 ∧ s.rd TWN_CFG.WITNESSES ≠ 2 ∧ (s.pair
      = Pair.unpaired ∨ Pair.takenOver ≤ s.pair)) ∧
    (∃ (s : State), NothingHeld s ∧ s.noImage = false ∧ (s.pair = Pair.paired ∨ s.pair = Pair.degraded ∨ s.pair =
      Pair.suspect)) ∧
    (∃ (s : State), NothingHeld s ∧ s.noImage = false) ∧
    (∃ (s : State) (r : Fin 1024), r.val ∈ s.dram.resync ∧ (∀ (w : TwinWrite), w ∈ s.twin.unacked → ¬(w.type = 4 ∧ w.region
      = r.val)) ∧ copyLeft s r.val = 0 ∧ ringsFor s (s.rd MEM_RGN_A.GLADE r.val) 0 ≠ []) ∧
    (∃ (s : State) (r : Fin 1024), s.flag MEM_MIRROR_FENCE.BUSY = false ∧ s.noImage = false ∧ s.flag MEM_RGN_A.VALID r.val =
      true ∧ s.flag MEM_RGN_A.MIRROR r.val = true ∧ s.flag MEM_RGN_A.STALE r.val = false ∧ s.pair = Pair.paired) ∧
    (∃ (s : State) (r : Fin 1024), s.flag MEM_MIRROR_FENCE.BUSY = false ∧ s.noImage = false ∧ (s.flag MEM_RGN_A.VALID r.val
      = false ∨ s.flag MEM_RGN_A.MIRROR r.val = false)) ∧
    (∃ (s : State) (r : Fin 1024) (n : Nat) (st : Nat), s.dram.fence = some (r.val, n) ∧ fenceStatus s r.val n = some st ∧
      st < 256) :=
  ⟨⟨((twinned 2).wr TWN_STATUS.PORT1_UP 0 1).wr TWN_STATUS.FAB_ALIVE 0 1, 1, by decide +kernel⟩,
   ⟨(twinned 2).wr TWN_STATUS.PORT1_UP 0 1, 1, by decide +kernel, by decide +kernel, by decide +kernel, by decide +kernel,
     by decide +kernel, by decide +kernel, fun e h => absurd h (by rw [show ((twinned 2).wr TWN_STATUS.PORT1_UP 0 1).ended = [] from by decide +kernel]; exact List.not_mem_nil)⟩,
   ⟨(twinned 2).wr TWN_STATUS.PORT1_UP 0 1, by decide +kernel⟩,
   ⟨twinned 4, by decide +kernel⟩,
   ⟨twinned 7, by decide +kernel, by decide +kernel, by decide +kernel, fun e h => absurd h (by rw [show (twinned 7).ended = [] from by decide +kernel]; exact List.not_mem_nil),
     by decide +kernel, by decide +kernel⟩,
   ⟨(twinned 7).wrs 0 [(TWN_CFG.WITNESSES, 1), (TWN_WIT_ADDR.ADDR, 9 * 2 ^ 40 + 0x1000)], by decide +kernel,
     by decide +kernel, by decide +kernel, fun e h => absurd h (by rw [show ((twinned 7).wrs 0 [(TWN_CFG.WITNESSES, 1),
     (TWN_WIT_ADDR.ADDR, 9 * 2 ^ 40 + 0x1000)]).ended = [] from by decide +kernel]; exact List.not_mem_nil),
     by decide +kernel, by decide +kernel, by decide +kernel, by decide +kernel, by decide +kernel⟩,
   ⟨inTwin (twinned 4) (fun x => { x with waiting := true }), by decide +kernel⟩,
   ⟨twinned 0, 7, by decide +kernel⟩,
   ⟨twinned 2, by decide +kernel⟩,
   ⟨twinned 0, by decide +kernel⟩,
   ⟨inDram ((twinned 2).wr MEM_RGN_A.STALE 1 1) (fun x => { x with resync := [1], copied := [(1, 0x200000)] }), 1,
     by decide +kernel⟩,
   ⟨twinned 2, 1, by decide +kernel⟩,
   ⟨twinned 0, 5, by decide +kernel⟩,
   ⟨inDram (twinned 2) (fun x => { x with fence := some (1, 0) }), 1, 0, 0, by decide +kernel⟩⟩

/-- States and operands meet the hypotheses of each clause of `Windows`. -/
theorem witness_windows :
    (∃ (s : State) (j : Fin 256) (w : BitVec 64), s.noImage = false ∧ bitOf w.toNat 0 = true ∧ s.rd HEP_WIN_B.TARGET_HI
      j.val = 0 ∧ bitsOf w.toNat 48 16 ≠ 0 ∧ (bitOf w.toNat 3 = true → 65536 * bitsOf w.toNat 48 16 ≤ winSize s 0) ∧ (bitOf
      w.toNat 4 = true → 65536 * bitsOf w.toNat 48 16 ≤ winSize s 1) ∧ (bitOf w.toNat 3 = true ∨ bitOf w.toNat 4 = true) ∧
      s.ftn (bitsOf w.toNat 8 8) ≠ 0) ∧
    (∃ (s : State) (w : BitVec 64), s.noImage = false ∧ bitOf w.toNat 0 = true ∧ bitsOf w.toNat 48 16 = 0) ∧
    (∃ (s : State) (v : BitVec 64), s.noImage = false ∧ bitOf v.toNat 8 = true ∧ s.flag HEP_WIN_FENCE.BUSY = false) ∧
    (∃ (s : State), (∀ (d : Nat × Peer), d ∈ s.peers → ∀ (o : SalOp), o ∈ d.snd.ops → fenced s o = false)) ∧
    (∃ (s : State) (p : Fin 2) (off : BitVec 38) (len : BitVec 13), bar4Open s p.val off.toNat = true ∧ winPass s p.val
      (off.toNat / winSize s p.val) (off.toNat % winSize s p.val) len.toNat false = true ∧ globalDev (4096 * s.rd
      HEP_WIN_B.TARGET (off.toNat / winSize s p.val) + off.toNat % winSize s p.val) = s.devNum ∧ keyCheck s (s.rd
      HEP_WIN_A.RKEY (off.toNat / winSize s p.val)) (s.ftn (s.rd HEP_WIN_A.GLADE (off.toNat / winSize s p.val))) none (some
      Rt.read) (globalOff (4096 * s.rd HEP_WIN_B.TARGET (off.toNat / winSize s p.val) + off.toNat % winSize s p.val))
      len.toNat = 0 ∧ (s.gladeRead (s.regEntry (keyIndex (s.rd HEP_WIN_A.RKEY (off.toNat / winSize s p.val)))).glade
      (globalOff (4096 * s.rd HEP_WIN_B.TARGET (off.toNat / winSize s p.val) + off.toNat % winSize s p.val)) len.toNat).snd =
      St.success) ∧
    (∃ (s : State) (p : Fin 2) (off : BitVec 38) (len : BitVec 13), bar4Open s p.val off.toNat = true ∧ winPass s p.val
      (off.toNat / winSize s p.val) (off.toNat % winSize s p.val) len.toNat false = true ∧ globalDev (4096 * s.rd
      HEP_WIN_B.TARGET (off.toNat / winSize s p.val) + off.toNat % winSize s p.val) ≠ s.devNum ∧ fabKeyed s (globalDev (4096 *
      s.rd HEP_WIN_B.TARGET (off.toNat / winSize s p.val) + off.toNat % winSize s p.val)) = true ∧ (s.peer (globalDev (4096 *
      s.rd HEP_WIN_B.TARGET (off.toNat / winSize s p.val) + off.toNat % winSize s p.val))).state = Ps.open_) ∧
    (∃ (s : State) (p : Fin 2) (off : BitVec 38) (len : BitVec 13), bar4Open s p.val off.toNat = true ∧ winPass s p.val
      (off.toNat / winSize s p.val) (off.toNat % winSize s p.val) len.toNat false = false) ∧
    (∃ (s : State) (p : Fin 2) (off : BitVec 38), bar4Open s p.val off.toNat = false) ∧
    (∃ (s : State) (p : Fin 2) (off : BitVec 38) (b : List Byte), bar4Open s p.val off.toNat = true ∧ winPass s p.val
      (off.toNat / winSize s p.val) (off.toNat % winSize s p.val) b.length true = true ∧ globalDev (4096 * s.rd
      HEP_WIN_B.TARGET (off.toNat / winSize s p.val) + off.toNat % winSize s p.val) = s.devNum ∧ keyCheck s (s.rd
      HEP_WIN_A.RKEY (off.toNat / winSize s p.val)) (s.ftn (s.rd HEP_WIN_A.GLADE (off.toNat / winSize s p.val))) none (some
      Rt.write) (globalOff (4096 * s.rd HEP_WIN_B.TARGET (off.toNat / winSize s p.val) + off.toNat % winSize s p.val))
      b.length = 0 ∧ (s.gladeWrite (s.regEntry (keyIndex (s.rd HEP_WIN_A.RKEY (off.toNat / winSize s p.val)))).glade
      (globalOff (4096 * s.rd HEP_WIN_B.TARGET (off.toNat / winSize s p.val) + off.toNat % winSize s p.val)) b).snd =
      St.success ∧ NoneHeld s (s.gladeWrite (s.regEntry (keyIndex (s.rd HEP_WIN_A.RKEY (off.toNat / winSize s p.val)))).glade
      (globalOff (4096 * s.rd HEP_WIN_B.TARGET (off.toNat / winSize s p.val) + off.toNat % winSize s p.val)) b).fst ∧ (∀ (e :
      Nat × CkpRing), e ∈ s.rings → e.snd.todo = [])) ∧
    (∃ (s : State) (p : Fin 2) (tag : BitVec 14) (d : Nat) (y : Peer) (o : SalOp), s.peers = [(d, y)] ∧ y.ops = [o] ∧
      isWinRead p.val tag.toNat o = true) :=
  ⟨⟨registered ready, 1, 1 + 2 ^ 3 + 2 ^ 16 * 2 + 2 ^ 48, by decide +kernel⟩,
   ⟨ready, 1 + 2 ^ 3, by decide +kernel⟩,
   ⟨ready, 2 ^ 8 + 1, by decide +kernel⟩,
   ⟨ready, by decide +kernel⟩,
   ⟨(hosted (peered (registered ready))).wrs 1 [(HEP_WIN_A.VALID, 1), (HEP_WIN_A.RD, 1), (HEP_WIN_A.WR, 1),
     (HEP_WIN_A.PORT_A, 1), (HEP_WIN_A.GLADE, 0), (HEP_WIN_A.RKEY, 2), (HEP_WIN_A.LIMIT, 1), (HEP_WIN_B.TARGET, 0x210)], 0,
     0x400000, 16, by decide +kernel⟩,
   ⟨(hosted (peered (registered ready))).wrs 1 [(HEP_WIN_A.VALID, 1), (HEP_WIN_A.RD, 1), (HEP_WIN_A.WR, 1),
     (HEP_WIN_A.PORT_A, 1), (HEP_WIN_A.GLADE, 0), (HEP_WIN_A.RKEY, 2), (HEP_WIN_A.LIMIT, 1), (HEP_WIN_B.TARGET, 9 * 2 ^ 28 + 0x210)],
     0, 0x400000, 16, by decide +kernel⟩,
   ⟨(hosted (peered (registered ready))).wrs 1 [(HEP_WIN_A.VALID, 1), (HEP_WIN_A.RD, 1), (HEP_WIN_A.WR, 1),
     (HEP_WIN_A.PORT_A, 1), (HEP_WIN_A.GLADE, 0), (HEP_WIN_A.RKEY, 2), (HEP_WIN_A.LIMIT, 1), (HEP_WIN_B.TARGET, 0x210)], 0,
     0x800000, 16, by decide +kernel⟩,
   ⟨ready, 0, 0x400000, by decide +kernel⟩,
   ⟨(hosted (peered (registered ready))).wrs 1 [(HEP_WIN_A.VALID, 1), (HEP_WIN_A.RD, 1), (HEP_WIN_A.WR, 1),
     (HEP_WIN_A.PORT_A, 1), (HEP_WIN_A.GLADE, 0), (HEP_WIN_A.RKEY, 2), (HEP_WIN_A.LIMIT, 1), (HEP_WIN_B.TARGET, 0x210)], 0,
     0x400000, [1, 2, 3], by decide +kernel⟩,
   ⟨(ready.setPeer 9 { state := 2, ops := [{ msg := 7, owner := .window 0 1 4 0 5 false, kind := 3, glade := 0, laddr := 0, len := 16, status := 0, data := [] }] }),
     0, 5, 9, { state := 2, ops := [{ msg := 7, owner := .window 0 1 4 0 5 false, kind := 3, glade := 0, laddr := 0, len := 16, status := 0, data := [] }] },
     { msg := 7, owner := .window 0 1 4 0 5 false, kind := 3, glade := 0, laddr := 0, len := 16, status := 0, data := [] },
     by decide +kernel⟩⟩

/-- States and operands meet the hypotheses of each clause of `FabricOperations`. -/
theorem witness_fabricOperations :
    (∃ (s : State) (h : SalHeader) (b : List Byte), InOrder s h ∧ h.first = true ∧ h.last = true ∧ keyCheck s h.rkey.toNat
      h.ftn.toNat none (some Rt.write) h.addr.toNat b.length = 0 ∧ (s.gladeWrite (s.regEntry (keyIndex h.rkey.toNat)).glade
      h.addr.toNat b).snd = St.success ∧ NoneHeld s (s.gladeWrite (s.regEntry (keyIndex h.rkey.toNat)).glade h.addr.toNat
      b).fst) ∧
    (∃ (s : State) (h : SalHeader) (b : List Byte), InOrder s h ∧ h.first = true ∧ h.last = true ∧ keyCheck s h.rkey.toNat
      h.ftn.toNat none (some Rt.write) h.addr.toNat b.length = 0 ∧ (s.gladeWrite (s.regEntry (keyIndex h.rkey.toNat)).glade
      h.addr.toNat b).snd = St.success ∧ NoneHeld s (s.gladeWrite (s.regEntry (keyIndex h.rkey.toNat)).glade h.addr.toNat
      b).fst ∧ s.ustStopped = false ∧ (s.gladeWrite (s.regEntry (keyIndex h.rkey.toNat)).glade h.addr.toNat b).fst.ctrGranted
      (h.aux.toNat % 65536) ((s.gladeWrite (s.regEntry (keyIndex h.rkey.toNat)).glade h.addr.toNat b).fst.regEntry (keyIndex
      h.rkey.toNat)).glade = true) ∧
    (∃ (s : State) (h : SalHeader), InOrder s h ∧ h.first = true ∧ h.last = true ∧ keyCheck s h.rkey.toNat h.ftn.toNat none
      (some Rt.read) h.addr.toNat h.aux.toNat = 0 ∧ (s.gladeRead (s.regEntry (keyIndex h.rkey.toNat)).glade h.addr.toNat
      h.aux.toNat).snd = St.success) ∧
    (∃ (s : State) (h : SalHeader), InOrder s h ∧ h.first = true ∧ h.last = true ∧ keyCheck s h.rkey.toNat h.ftn.toNat none
      (some Rt.atomic) h.addr.toNat 8 = 0 ∧ tileAt h.addr.toNat = none ∧ (s.gladeRead (s.regEntry (keyIndex
      h.rkey.toNat)).glade h.addr.toNat 8).snd = St.success ∧ (s.gladeWrite (s.regEntry (keyIndex h.rkey.toNat)).glade
      h.addr.toNat (toLe 8 ((leNat (s.bytes h.addr.toNat 8) + h.opv.toNat) % 2 ^ 64))).snd = St.success ∧ NoneHeld s
      (s.gladeWrite (s.regEntry (keyIndex h.rkey.toNat)).glade h.addr.toNat (toLe 8 ((leNat (s.bytes h.addr.toNat 8) +
      h.opv.toNat) % 2 ^ 64))).fst) ∧
    (∃ (s : State) (h : SalHeader) (swap : BitVec 64), InOrder s h ∧ h.first = true ∧ h.last = true ∧ keyCheck s
      h.rkey.toNat h.ftn.toNat none (some Rt.atomic) h.addr.toNat 8 = 0 ∧ tileAt h.addr.toNat = none ∧ (s.gladeRead
      (s.regEntry (keyIndex h.rkey.toNat)).glade h.addr.toNat 8).snd = St.success ∧ (s.gladeWrite (s.regEntry (keyIndex
      h.rkey.toNat)).glade h.addr.toNat (toLe 8 (if leNat (s.bytes h.addr.toNat 8) = h.opv.toNat then swap.toNat else leNat
      (s.bytes h.addr.toNat 8)))).snd = St.success ∧ NoneHeld s (s.gladeWrite (s.regEntry (keyIndex h.rkey.toNat)).glade
      h.addr.toNat (toLe 8 (if leNat (s.bytes h.addr.toNat 8) = h.opv.toNat then swap.toNat else leNat (s.bytes h.addr.toNat
      8)))).fst) ∧
    (∃ (s : State) (h : SalHeader) (r : Nat) (b : Cmd) (d : List Byte), InOrder s h ∧ h.first = true ∧ h.last = true ∧ r =
      h.aux.toNat % 2 ^ 20 ∧ r < 65536 ∧ sendAllowed s (salQid r) h.ftn.toNat = true ∧ replyGlade s r = none ∧ List.find? (fun
      c => !c.started) (s.queue (salQid r)).cmds = some b ∧ bufferStatus s (salQid r) b = St.success ∧ h.moff = 0 ∧ d ≠ [] ∧
      d.length ≤ leAt b.bytes 12 4 ∧ AtHand s (CtxKey.queue (salQid r)) ∧ (s.gladeWrite (s.queueGlade (salQid r)) (leAt
      b.bytes 0 8) d).snd = St.success ∧ NoneHeld s (s.gladeWrite (s.queueGlade (salQid r)) (leAt b.bytes 0 8) d).fst) ∧
    (∃ (s : State) (h : SalHeader) (o : SalOp) (q : Fin 65536) (e : Nat) (c : Cmd) (d : List Byte), InOrder s h ∧ h.last =
      true ∧ h.aux = 0 ∧ o.status = 0 ∧ o.owner = Owner.cmd (salQid q.val) e ∧ (s.queue (salQid q.val)).kind = false ∧
      (s.queue (salQid q.val)).cmdAt e = some c ∧ d ≠ [] ∧ List.find? (fun y => y.msg == h.msg.toNat && [Pt.readReq].contains
      y.kind) (s.peer h.src.toNat).ops = some o ∧ (s.gladeWrite o.glade (o.laddr + h.moff.toNat) d).snd = St.success ∧
      NoneHeld s (s.gladeWrite o.glade (o.laddr + h.moff.toNat) d).fst) ∧
    (∃ (s : State) (h : SalHeader) (o : SalOp) (q : Fin 65536) (e : Nat) (c : Cmd) (v : BitVec 64), InOrder s h ∧ h.last =
      true ∧ h.aux = 0 ∧ o.status = 0 ∧ o.owner = Owner.cmd (salQid q.val) e ∧ (s.queue (salQid q.val)).kind = false ∧
      (s.queue (salQid q.val)).cmdAt e = some c ∧ List.find? (fun y => y.msg == h.msg.toNat && [Pt.fadd, Pt.cas].contains
      y.kind) (s.peer h.src.toNat).ops = some o ∧ (s.gladeWrite o.glade (o.laddr + h.moff.toNat) (toLe 8 v.toNat)).snd =
      St.success ∧ NoneHeld s (s.gladeWrite o.glade (o.laddr + h.moff.toNat) (toLe 8 v.toNat)).fst) ∧
    (∃ (s : State) (h : SalHeader) (o : SalOp) (q : Fin 65536) (e : Nat) (c : Cmd), InOrder s h ∧ h.last = true ∧ h.aux = 0
      ∧ o.status = 0 ∧ o.owner = Owner.cmd (salQid q.val) e ∧ (s.queue (salQid q.val)).kind = false ∧ (s.queue (salQid
      q.val)).cmdAt e = some c ∧ List.find? (fun y => y.msg == h.msg.toNat && [Pt.write, Pt.writePost, Pt.send].contains
      y.kind) (s.peer h.src.toNat).ops = some o) :=
  ⟨⟨{ (peered (queued (registered ready) (salQid 8) (cmd [(0, 8, 0x211000), (8, 4, 2), (12, 4, 4096)]) { pd := 3, kind := true }) ({ expect := 5, low := 3, nextPsn := 6, rx := [] })) with fab := { cache := [(0, [.peer 9])] } },
     { port := 3, frame := frame3, authentic := true, ce := false, version := 1, first := true, last := true, ackreq := false, ece := false, fresh := false, src := 9, dst := 0, epoch := 1, ftn := 9, psn := 5, apsn := 3, ts := 0, tse := 0, addr := 0x210000, rkey := 2, msg := 7, moff := 0, aux := 0, opv := 0 },
     [9, 8, 7], by decide +kernel⟩,
   ⟨{ (peered (queued (registered ready) (salQid 8) (cmd [(0, 8, 0x211000), (8, 4, 2), (12, 4, 4096)]) { pd := 3, kind := true }) ({ expect := 5, low := 3, nextPsn := 6, rx := [] })) with fab := { cache := [(0, [.peer 9])] } },
     { port := 3, frame := frame3, authentic := true, ce := false, version := 1, first := true, last := true, ackreq := false, ece := false, fresh := false, src := 9, dst := 0, epoch := 1, ftn := 9, psn := 5, apsn := 3, ts := 0, tse := 0, addr := 0x210000, rkey := 2, msg := 7, moff := 0, aux := 0, opv := 0 },
     [9, 8, 7], by decide +kernel⟩,
   ⟨{ (peered (queued (registered ready) (salQid 8) (cmd [(0, 8, 0x211000), (8, 4, 2), (12, 4, 4096)]) { pd := 3, kind := true }) ({ expect := 5, low := 3, nextPsn := 6, rx := [] })) with fab := { cache := [(0, [.peer 9])] } },
     { port := 3, frame := frame3, authentic := true, ce := false, version := 1, first := true, last := true, ackreq := false, ece := false, fresh := false, src := 9, dst := 0, epoch := 1, ftn := 9, psn := 5, apsn := 3, ts := 0, tse := 0, addr := 0x210000, rkey := 2, msg := 7, moff := 0, aux := 0, opv := 0 },
     by decide +kernel⟩,
   ⟨{ (peered (queued (registered ready) (salQid 8) (cmd [(0, 8, 0x211000), (8, 4, 2), (12, 4, 4096)]) { pd := 3, kind := true }) ({ expect := 5, low := 3, nextPsn := 6, rx := [] })) with fab := { cache := [(0, [.peer 9])] } },
     { port := 3, frame := frame3, authentic := true, ce := false, version := 1, first := true, last := true, ackreq := false, ece := false, fresh := false, src := 9, dst := 0, epoch := 1, ftn := 9, psn := 5, apsn := 3, ts := 0, tse := 0, addr := 0x210000, rkey := 2, msg := 7, moff := 0, aux := 0, opv := 0 },
     by decide +kernel⟩,
   ⟨{ (peered (queued (registered ready) (salQid 8) (cmd [(0, 8, 0x211000), (8, 4, 2), (12, 4, 4096)]) { pd := 3, kind := true }) ({ expect := 5, low := 3, nextPsn := 6, rx := [] })) with fab := { cache := [(0, [.peer 9])] } },
     { port := 3, frame := frame3, authentic := true, ce := false, version := 1, first := true, last := true, ackreq := false, ece := false, fresh := false, src := 9, dst := 0, epoch := 1, ftn := 9, psn := 5, apsn := 3, ts := 0, tse := 0, addr := 0x210000, rkey := 2, msg := 7, moff := 0, aux := 0, opv := 0 },
     0, by decide +kernel⟩,
   ⟨{ (peered (queued (registered ready) (salQid 8) (cmd [(0, 8, 0x211000), (8, 4, 2), (12, 4, 4096)]) { pd := 3, kind := true }) ({ expect := 5, low := 3, nextPsn := 6, rx := [] })) with fab := { cache := [(0, [.peer 9])] } },
     { port := 3, frame := frame3, authentic := true, ce := false, version := 1, first := true, last := true, ackreq := false, ece := false, fresh := false, src := 9, dst := 0, epoch := 1, ftn := 9, psn := 5, apsn := 3, ts := 0, tse := 0, addr := 0x210000, rkey := 2, msg := 7, moff := 0, aux := 8, opv := 0 },
     8, cmd [(0, 8, 0x211000), (8, 4, 2), (12, 4, 4096)], [9, 8, 7], by decide +kernel⟩,
   ⟨{ (peered (queued (registered ready) (salQid 7) (cmd [(0, 1, 1), (4, 4, 77), (8, 4, 2), (24, 8, 0x210000), (32, 8, 9 * 2 ^ 40 + 0x212000), (40, 4, 2), (44, 4, 16)]) { pd := 3 }) ({ expect := 5, low := 3, nextPsn := 6, ops := [{ msg := 7, owner := .cmd (salQid 7) 0, kind := 3, glade := 0, laddr := 0x212000, len := 16, status := 0, data := [] }] })) with fab := { cache := [(0, [.peer 9])] } },
     { port := 3, frame := frame3, authentic := true, ce := false, version := 1, first := true, last := true, ackreq := false, ece := false, fresh := false, src := 9, dst := 0, epoch := 1, ftn := 9, psn := 5, apsn := 3, ts := 0, tse := 0, addr := 0x210000, rkey := 2, msg := 7, moff := 0, aux := 0, opv := 0 },
     { msg := 7, owner := .cmd (salQid 7) 0, kind := 3, glade := 0, laddr := 0x212000, len := 16, status := 0, data := [] },
     7, 0, cmd [(0, 1, 1), (4, 4, 77), (8, 4, 2), (24, 8, 0x210000), (32, 8, 9 * 2 ^ 40 + 0x212000), (40, 4, 2), (44, 4, 16)],
     [9, 8, 7], by decide +kernel⟩,
   ⟨{ (peered (queued (registered ready) (salQid 7) (cmd [(0, 1, 1), (4, 4, 77), (8, 4, 2), (24, 8, 0x210000), (32, 8, 9 * 2 ^ 40 + 0x212000), (40, 4, 2), (44, 4, 16)]) { pd := 3 }) ({ expect := 5, low := 3, nextPsn := 6, ops := [{ msg := 7, owner := .cmd (salQid 7) 0, kind := 4, glade := 0, laddr := 0x212000, len := 8, status := 0, data := [] }] })) with fab := { cache := [(0, [.peer 9])] } },
     { port := 3, frame := frame3, authentic := true, ce := false, version := 1, first := true, last := true, ackreq := false, ece := false, fresh := false, src := 9, dst := 0, epoch := 1, ftn := 9, psn := 5, apsn := 3, ts := 0, tse := 0, addr := 0x210000, rkey := 2, msg := 7, moff := 0, aux := 0, opv := 0 },
     { msg := 7, owner := .cmd (salQid 7) 0, kind := 4, glade := 0, laddr := 0x212000, len := 8, status := 0, data := [] }, 7,
     0, cmd [(0, 1, 1), (4, 4, 77), (8, 4, 2), (24, 8, 0x210000), (32, 8, 9 * 2 ^ 40 + 0x212000), (40, 4, 2), (44, 4, 16)], 0,
     by decide +kernel⟩,
   ⟨{ (peered (queued (registered ready) (salQid 7) (cmd [(0, 1, 1), (4, 4, 77), (8, 4, 2), (24, 8, 0x210000), (32, 8, 9 * 2 ^ 40 + 0x212000), (40, 4, 2), (44, 4, 16)]) { pd := 3 }) ({ expect := 5, low := 3, nextPsn := 6, ops := [{ msg := 7, owner := .cmd (salQid 7) 0, kind := 1, glade := 0, laddr := 0x212000, len := 16, status := 0, data := [] }] })) with fab := { cache := [(0, [.peer 9])] } },
     { port := 3, frame := frame3, authentic := true, ce := false, version := 1, first := true, last := true, ackreq := false, ece := false, fresh := false, src := 9, dst := 0, epoch := 1, ftn := 9, psn := 5, apsn := 3, ts := 0, tse := 0, addr := 0x210000, rkey := 2, msg := 7, moff := 0, aux := 0, opv := 0 },
     { msg := 7, owner := .cmd (salQid 7) 0, kind := 1, glade := 0, laddr := 0x212000, len := 16, status := 0, data := [] },
     7, 0, cmd [(0, 1, 1), (4, 4, 77), (8, 4, 2), (24, 8, 0x210000), (32, 8, 9 * 2 ^ 40 + 0x212000), (40, 4, 2), (44, 4, 16)],
     by decide +kernel⟩⟩

/-- States and operands meet the hypotheses of each clause of `FabricControl`. -/
theorem witness_fabricControl :
    (∃ (s : State) (h : SalHeader), Accepted s h ∧ s.ended = [] ∧ ((s.peer h.src.toNat).state ≠ Ps.none → peerCached s
      h.src.toNat = true ∧ (s.peer h.src.toNat).missed = []) ∧ epochCurrent s h.src.toNat h.epoch.toNat = true ∧ (s.peer
      h.src.toNat).state = Ps.open_ ∧ 0 < psnDiff h.apsn.toNat (s.peer h.src.toNat).low ∧ psnDiff h.apsn.toNat (s.peer
      h.src.toNat).nextPsn ≤ 0) ∧
    (∃ (s : State) (h : SalHeader), Accepted s h ∧ s.ended = [] ∧ ((s.peer h.src.toNat).state ≠ Ps.none → peerCached s
      h.src.toNat = true ∧ (s.peer h.src.toNat).missed = []) ∧ epochCurrent s h.src.toNat h.epoch.toNat = true ∧ h.aux.toNat %
      256 = 3 ∧ (s.peer h.src.toNat).low = h.apsn.toNat ∧ (∃ p, p ∈ (s.peer h.src.toNat).unacked ∧ p.psn = some (h.addr.toNat
      % 2 ^ 48)) ∧ (s.peer h.src.toNat).expired = none) ∧
    (∃ (s : State) (h : SalHeader), Accepted s h ∧ s.ended = [] ∧ ((s.peer h.src.toNat).state ≠ Ps.none → peerCached s
      h.src.toNat = true ∧ (s.peer h.src.toNat).missed = []) ∧ epochCurrent s h.src.toNat h.epoch.toNat = true ∧ (s.peer
      h.src.toNat).low = h.apsn.toNat ∧ (s.peer h.src.toNat).port < 16) ∧
    (∃ (s : State) (h : SalHeader), Accepted s h ∧ s.ended = [] ∧ ((s.peer h.src.toNat).state ≠ Ps.none → peerCached s
      h.src.toNat = true ∧ (s.peer h.src.toNat).missed = []) ∧ (s.peer h.src.toNat).state = Ps.none ∧ (s.peer
      h.src.toNat).epoch = 0 ∧ mayCreatePeer s = true ∧ h.epoch ≠ 0 ∧ (s.cached (peerQuad s h.src.toNat)).length < cacheSize) ∧
    (∃ (s : State) (h : SalHeader), Accepted s h ∧ s.ended = [] ∧ ((s.peer h.src.toNat).state ≠ Ps.none → peerCached s
      h.src.toNat = true ∧ (s.peer h.src.toNat).missed = []) ∧ (s.peer h.src.toNat).state = Ps.opening ∧ h.epoch ≠ 0 ∧ (∀ (o :
      SalOp), o ∈ (s.peer h.src.toNat).ops → o.sent = false)) ∧
    (∃ (s : State) (d : BitVec 16), (s.peer d.toNat).unackedRx ≠ 0 ∧ (s.peer d.toNat).port < 16) ∧
    (∃ (s : State) (d : BitVec 16), (s.peer d.toNat).unacked ≠ [] ∧ ((s.peer d.toNat).expiries + 1) % 3 ≠ 0) ∧
    (∃ (s : State) (d : BitVec 16) (o : SalOp) (q : Fin 65536) (e : Nat) (c : Cmd), (s.peer d.toNat).state = Ps.open_ ∧
      (s.peer d.toNat).unacked ≠ [] ∧ (s.peer d.toNat).ops = [o] ∧ o.owner = Owner.cmd (salQid q.val) e ∧ (s.queue (salQid
      q.val)).kind = false ∧ (s.queue (salQid q.val)).cmdAt e = some c ∧ s.ended = [] ∧ (∀ (g : Nat), g < 16 → s.flag
      CKP_GRP_A.VALID g = false)) ∧
    (∃ (s : State) (d : BitVec 16), (s.peer d.toNat).holdoff = true) ∧
    (∃ (s : State) (d : BitVec 16), (s.peer d.toNat).paused = true) ∧
    (∃ (s : State) (d : BitVec 16) (p : RxPkt), (s.peer d.toNat).missed = [p] ∧ p.type < Pt.ack ∧ p.src = d.toNat ∧ (s.peer
      d.toNat).state = Ps.open_ ∧ s.flag FAB_CTX_CFG.LOC = false ∧ AtHand s (CtxKey.peer d.toNat) ∧ epochCurrent s d.toNat
      p.epoch = true ∧ p.apsn = (s.peer d.toNat).low ∧ psnDiff p.psn (s.peer d.toNat).expect < 0 ∧ (s.peer d.toNat).port < 16
      ∧ s.ended = [] ∧ s.rd FAB_CNT.COUNT 3 < 2 ^ 64 - 1) :=
  ⟨⟨{ (peered (ready) ({ expect := 5, low := 3, nextPsn := 6 })) with fab := { cache := [(0, [.peer 9])] } }, { port := 3, frame := frame3, authentic := true, ce := false, version := 1, first := true, last := true, ackreq := false, ece := false, fresh := false, src := 9, dst := 0, epoch := 1, ftn := 9, psn := 5, apsn := 5, ts := 0, tse := 0, addr := 0x210000, rkey := 2, msg := 7, moff := 0, aux := 0, opv := 0 },
     by decide +kernel⟩,
   ⟨{ (peered (ready) ({ expect := 5, low := 3, nextPsn := 6, unacked := [{ type := Pt.opResp, first := true, last := true, ftn := 9, addr := 0, rkey := 0, msg := 1, moff := 0, aux := 0, opv := 0, src := none, data := [], flow := .response 0, glade := 0, inst := 0, owner := none, psn := some 4 }] })) with fab := { cache := [(0, [.peer 9])] } },
     { port := 3, frame := frame3, authentic := true, ce := false, version := 1, first := true, last := true, ackreq := false, ece := false, fresh := false, src := 9, dst := 0, epoch := 1, ftn := 9, psn := 5, apsn := 3, ts := 0, tse := 0, addr := 4, rkey := 2, msg := 7, moff := 0, aux := 3, opv := 0 },
     by decide +kernel⟩,
   ⟨{ (peered (ready) ({ expect := 5, low := 3, nextPsn := 6 })) with fab := { cache := [(0, [.peer 9])] } }, { port := 3, frame := frame3, authentic := true, ce := false, version := 1, first := true, last := true, ackreq := false, ece := false, fresh := false, src := 9, dst := 0, epoch := 1, ftn := 9, psn := 5, apsn := 3, ts := 0, tse := 0, addr := 4, rkey := 2, msg := 7, moff := 0, aux := 3, opv := 0 },
     by decide +kernel⟩,
   ⟨((ready).wrs 0 [(SEC_FAB_GRP_A.VALID, 1), (SEC_FAB_GRP_A.HI, 65535), (FAB_CTX_CFG.ENABLE, 1), (FAB_CTX_CFG.PEER_RESERVE,
     10)] |>.wrs 3 [(FAB_PORT.STATE, 3), (FAB_PORT.MTU, 4096)]), { port := 3, frame := frame3, authentic := true, ce := false, version := 1, first := true, last := true, ackreq := false, ece := false, fresh := false, src := 9, dst := 0, epoch := 1, ftn := 9, psn := 5, apsn := 5, ts := 0, tse := 0, addr := 0x210000, rkey := 2, msg := 7, moff := 0, aux := 0, opv := 0 },
     by decide +kernel⟩,
   ⟨{ ((ready).wrs 0 [(SEC_FAB_GRP_A.VALID, 1), (SEC_FAB_GRP_A.HI, 65535), (FAB_CTX_CFG.ENABLE, 1), (FAB_CTX_CFG.PEER_RESERVE, 10)] |>.wrs 3 [(FAB_PORT.STATE, 3), (FAB_PORT.MTU, 4096)]).setPeer 9 { state := 1, port := 3, epoch := 1 } with fab := { cache := [(0, [.peer 9])] } },
     { port := 3, frame := frame3, authentic := true, ce := false, version := 1, first := true, last := true, ackreq := false, ece := false, fresh := false, src := 9, dst := 0, epoch := 1, ftn := 9, psn := 5, apsn := 5, ts := 0, tse := 0, addr := 0x210000, rkey := 2, msg := 7, moff := 0, aux := 0, opv := 0 },
     by decide +kernel⟩,
   ⟨{ (peered (ready) ({ expect := 5, low := 3, nextPsn := 6, unackedRx := 2 })) with fab := { cache := [(0, [.peer 9])] } },
     9, by decide +kernel⟩,
   ⟨{ (peered (ready) ({ expect := 5, low := 3, nextPsn := 6, unacked := [{ type := Pt.opResp, first := true, last := true, ftn := 9, addr := 0, rkey := 0, msg := 1, moff := 0, aux := 0, opv := 0, src := none, data := [], flow := .response 0, glade := 0, inst := 0, owner := none, psn := some 4 }] })) with fab := { cache := [(0, [.peer 9])] } },
     9, by decide +kernel⟩,
   ⟨{ (peered (queued (registered ready) (salQid 7) (cmd [(0, 1, 1), (4, 4, 77), (8, 4, 2), (24, 8, 0x210000), (32, 8, 9 * 2 ^ 40 + 0x212000), (40, 4, 2), (44, 4, 16)]) { pd := 3 }) ({ expect := 5, low := 3, nextPsn := 6, unacked := [{ type := Pt.opResp, first := true, last := true, ftn := 9, addr := 0, rkey := 0, msg := 1, moff := 0, aux := 0, opv := 0, src := none, data := [], flow := .response 0, glade := 0, inst := 0, owner := none, psn := some 4 }], ops := [{ msg := 7, owner := .cmd (salQid 7) 0, kind := 3, glade := 0, laddr := 0x212000, len := 16, status := 0, data := [] }] })) with fab := { cache := [(0, [.peer 9])] } },
     9, { msg := 7, owner := .cmd (salQid 7) 0, kind := 3, glade := 0, laddr := 0x212000, len := 16, status := 0, data := [] },
     7, 0, cmd [(0, 1, 1), (4, 4, 77), (8, 4, 2), (24, 8, 0x210000), (32, 8, 9 * 2 ^ 40 + 0x212000), (40, 4, 2), (44, 4, 16)],
     by decide +kernel⟩,
   ⟨{ (peered (ready) ({ expect := 5, low := 3, nextPsn := 6, holdoff := true })) with fab := { cache := [(0, [.peer 9])] } },
     9, by decide +kernel⟩,
   ⟨{ (peered (ready) ({ expect := 5, low := 3, nextPsn := 6, paused := true })) with fab := { cache := [(0, [.peer 9])] } },
     9, by decide +kernel⟩,
   ⟨{ (peered (ready) ({ expect := 5, low := 3, nextPsn := 6, missed := [{ type := 1, port := 3, src := 9, epoch := 1, psn := 4, first := true, last := true, ackreq := false, ce := false, ece := false, apsn := 3, ts := 0, tse := 0, ftn := 9, addr := 0, rkey := 2, msg := 7, moff := 0, aux := 0, opv := 0, bytes := [] }] })) with fab := { cache := [(0, [.peer 9])] } },
     9, { type := 1, port := 3, src := 9, epoch := 1, psn := 4, first := true, last := true, ackreq := false, ce := false, ece := false, apsn := 3, ts := 0, tse := 0, ftn := 9, addr := 0, rkey := 2, msg := 7, moff := 0, aux := 0, opv := 0, bytes := [] },
     by decide +kernel⟩⟩

/-- States and operands meet the hypotheses of each clause of `PortsAndLanes`. -/
theorem witness_portsAndLanes :
    (∃ (s : State) (p : Fin 16) (ask : EthAsk) (target : BitVec 32), (ethAccepted s p.val ask.eth fun x => x ==
      281474976710655) = true ∧ s.rd FAB_PORT.STATE p.val = 3 ∧ s.flag FAB_CFG.IPV6 = false ∧ target.toNat = portAddr s
      s.devNum p.val) ∧
    (∃ (s : State) (p : Fin 16) (ask : EthAsk) (target : BitVec 128), (ethAccepted s p.val ask.eth fun x => x ==
      56298414538752 + target.toNat % 16777216) = true ∧ s.rd FAB_PORT.STATE p.val = 3 ∧ s.flag FAB_CFG.IPV6 = true ∧
      target.toNat = portAddr s s.devNum p.val) ∧
    (∃ (s : State) (p : Fin 16) (k : Fin 3), s.rd FAB_PORT.STATE p.val = 3 ∧ s.rd FAB_CNT.COUNT (11 + k.val) < 2 ^ 64 - 1) ∧
    (∃ (s : State) (p : Fin 16) (v : BitVec 64), s.noImage = false ∧ s.flag FAB_LOCK.LOCKED = false ∧ s.fabPort p.val =
      Po.disabled ∧ bitOf v.toNat 0 = true ∧ 1280 ≤ bitsOf v.toNat 4 14 ∧ bitsOf v.toNat 4 14 ≤ 9216 ∧ repaired s = true ∧
      transportOut s (p.val / 4) = false ∧ s.rd CLK_GROVE.STATE (61 + p.val) ≠ 2 ∧ tileLit s (p.val / 4) = true ∧ s.flag
      OPT_TILE.REFCLK_OK (p.val / 4) = true ∧ s.lane (2 * p.val) ≠ 3 ∧ s.lane (2 * p.val + 1) ≠ 3) ∧
    (∃ (s : State) (p : Fin 16) (v : BitVec 64), s.noImage = false ∧ s.flag FAB_LOCK.LOCKED = false ∧ s.fabPort p.val ≠
      Po.disabled ∧ bitOf v.toNat 0 = false) ∧
    (∃ (s : State) (v : BitVec 64), s.noImage = false ∧ s.flag FAB_LOCK.LOCKED = false ∧ bitsOf v.toNat 0 1 = 0 ∧ bitOf
      v.toNat 1 = true ∧ peerCount s ≤ bitsOf v.toNat 12 17 ∧ bitsOf v.toNat 12 17 ≤ 65536 ∧ s.flag MEM_RGN_A.VALID (bitsOf
      v.toNat 2 10) = true ∧ 67108864 ≤ rgnLen s (bitsOf v.toNat 2 10)) ∧
    (∃ (s : State), s.noImage = false) ∧
    (∃ (s : State) (l : Fin 44), (l.val < 36 ∨ linkOfLane s (l.val - 36) = none) ∧ (s.lane l.val = 1 ∨ s.lane l.val = 2) ∧
      ¬l.val ∈ s.fab.retrain ∧ ¬l.val ∈ s.fab.sparing ∧ s.flag OPT_TILE.REFCLK_OK (laneTile l.val) = true) ∧
    (∃ (s : State) (l : Fin 44), (l.val < 36 ∨ linkOfLane s (l.val - 36) = none) ∧ l.val ∈ s.fab.retrain) ∧
    (∃ (s : State) (l : Fin 44), (l.val < 36 ∨ linkOfLane s (l.val - 36) = none) ∧ l.val ∈ s.fab.retrain ∧ s.boot.lanePolicy
      ≠ 2 ∧ s.flag OPT_LANE.IN_USE (laneSpare l.val) = false ∧ s.lane (laneSpare l.val) ≠ 3 ∧ (∀ (x : Nat), x ∈ s.fab.sparing
      → laneSpare x ≠ laneSpare l.val)) ∧
    (∃ (s : State) (l : Fin 44), (l.val < 36 ∨ linkOfLane s (l.val - 36) = none) ∧ l.val ∈ s.fab.sparing) ∧
    (∃ (s : State) (l : Fin 44), (l.val < 36 ∨ linkOfLane s (l.val - 36) = none) ∧ s.lane l.val = 1 ∧ ¬l.val ∈ s.fab.retrain
      ∧ ¬l.val ∈ s.fab.sparing ∧ s.flag OPT_TILE.REFCLK_OK (laneTile l.val) = true) ∧
    (∃ (s : State) (j : Fin 8), repaired s = false ∧ ¬j.val ∈ s.pins.dark) ∧
    (∃ (s : State) (j : Fin 8), repaired s = false ∧ j.val ∈ s.pins.dark) ∧
    (∃ (s : State) (j : Fin 8), s.flag (if j.val % 2 = 0 then OPT_TILE.LIGHT0 else OPT_TILE.LIGHT1) (j.val / 2) = true ∧
      s.flag (if j.val % 2 = 0 then OPT_TILE.LIGHT1 else OPT_TILE.LIGHT0) (j.val / 2) = true ∧ repaired s = true ∧ ¬j.val ∈
      s.pins.dark ∧ s.flag BOOT_STATE.OPTICAL_DONE = false ∧ tileUp s (j.val / 2) = false) ∧
    (∃ (s : State) (j : Fin 8), s.flag (if j.val % 2 = 0 then OPT_TILE.LIGHT0 else OPT_TILE.LIGHT1) (j.val / 2) = true ∧
      s.flag (if j.val % 2 = 0 then OPT_TILE.LIGHT1 else OPT_TILE.LIGHT0) (j.val / 2) = true ∧ Listening s ∧ repaired s = true
      ∧ ¬j.val ∈ s.pins.dark ∧ (s.flag BOOT_STATE.OPTICAL_DONE = true ∨ tileUp s (j.val / 2) = true)) ∧
    (∃ (s : State) (j : Fin 8) (p : Fin 16), s.flag (if j.val % 2 = 0 then OPT_TILE.LIGHT0 else OPT_TILE.LIGHT1) (j.val / 2)
      = true ∧ s.flag (if j.val % 2 = 0 then OPT_TILE.LIGHT1 else OPT_TILE.LIGHT0) (j.val / 2) = false ∧ p.val / 4 = j.val / 2
      ∧ repaired s = true ∧ ¬j.val ∈ s.pins.dark ∧ (s.fabPort p.val = Po.training ∨ s.fabPort p.val = Po.up) ∧ (∀ (l : Fin
      44), 36 ≤ ↑l → laneTile ↑l = j.val / 2 → s.lane ↑l = 0)) ∧
    (∃ (s : State) (j : Fin 8), s.flag (if j.val % 2 = 0 then OPT_TILE.LIGHT0 else OPT_TILE.LIGHT1) (j.val / 2) = false ∧
      Listening s ∧ repaired s = true ∧ j.val ∈ s.pins.dark ∧ (∀ (l : Fin 44), 36 ≤ ↑l → laneTile ↑l = j.val / 2 → linkOfLane
      s (↑l - 36) = none)) ∧
    (∃ (s : State), repaired s = true ∧ s.fab.lightOwed = []) :=
  ⟨⟨(((listen ready).wrs 0 [(OPT_TILE.LIGHT0, 1), (OPT_TILE.LIGHT1, 1), (OPT_TILE.REFCLK_OK, 1)])).wr FAB_PORT.STATE 3 3, 3,
     { eth := { dst := 0, tags := [] }, mac := 0x123456789ABC }, 3, by decide +kernel⟩,
   ⟨((((listen ready).wrs 0 [(OPT_TILE.LIGHT0, 1), (OPT_TILE.LIGHT1, 1), (OPT_TILE.REFCLK_OK, 1)])).wr FAB_PORT.STATE 3 3).wr FAB_CFG.IPV6 0 1,
     3, { eth := { dst := 0, tags := [] }, mac := 0x123456789ABC }, 3, by decide +kernel⟩,
   ⟨(((listen ready).wrs 0 [(OPT_TILE.LIGHT0, 1), (OPT_TILE.LIGHT1, 1), (OPT_TILE.REFCLK_OK, 1)])).wr FAB_PORT.STATE 3 3, 3,
     0, by decide +kernel⟩,
   ⟨((listen ready).wrs 0 [(OPT_TILE.LIGHT0, 1), (OPT_TILE.LIGHT1, 1), (OPT_TILE.REFCLK_OK, 1)]), 3, 1 + 16 * 1500,
     by decide +kernel⟩,
   ⟨(((listen ready).wrs 0 [(OPT_TILE.LIGHT0, 1), (OPT_TILE.LIGHT1, 1), (OPT_TILE.REFCLK_OK, 1)])).wr FAB_PORT.STATE 3 3, 3,
     0, by decide +kernel⟩,
   ⟨region (((listen ready).wrs 0 [(OPT_TILE.LIGHT0, 1), (OPT_TILE.LIGHT1, 1), (OPT_TILE.REFCLK_OK, 1)])) 0 32, 2 + 4 * 1 + 4096 * 8,
     by decide +kernel⟩,
   ⟨(((listen ready).wrs 0 [(OPT_TILE.LIGHT0, 1), (OPT_TILE.LIGHT1, 1), (OPT_TILE.REFCLK_OK, 1)])).wr FAB_PORT.STATE 3 3,
     by decide +kernel⟩,
   ⟨(((listen ready).wrs 0 [(OPT_TILE.LIGHT0, 1), (OPT_TILE.LIGHT1, 1), (OPT_TILE.REFCLK_OK, 1)])).wr OPT_LANE.STATE 6 1, 6,
     by decide +kernel⟩,
   ⟨{ ((listen ready).wrs 0 [(OPT_TILE.LIGHT0, 1), (OPT_TILE.LIGHT1, 1), (OPT_TILE.REFCLK_OK, 1)]) with fab := { retrain := [6] } },
     6, by decide +kernel⟩,
   ⟨{ ((listen ready).wrs 0 [(OPT_TILE.LIGHT0, 1), (OPT_TILE.LIGHT1, 1), (OPT_TILE.REFCLK_OK, 1)]) with fab := { retrain := [6] } },
     6, by decide +kernel⟩,
   ⟨{ ((listen ready).wrs 0 [(OPT_TILE.LIGHT0, 1), (OPT_TILE.LIGHT1, 1), (OPT_TILE.REFCLK_OK, 1)]) with fab := { sparing := [6] } },
     6, by decide +kernel⟩,
   ⟨(((listen ready).wrs 0 [(OPT_TILE.LIGHT0, 1), (OPT_TILE.LIGHT1, 1), (OPT_TILE.REFCLK_OK, 1)])).wr OPT_LANE.STATE 6 1, 6,
     by decide +kernel⟩,
   ⟨((((listen ready).wrs 0 [(OPT_TILE.LIGHT0, 1), (OPT_TILE.LIGHT1, 1), (OPT_TILE.REFCLK_OK, 1)])).wr OPT_TILE.LIGHT0 0 0).wr BOOT_STATE.STATE 0 3,
     0, by decide +kernel⟩,
   ⟨inPins (stage 3) (fun x => { x with dark := [0] }), 0, by decide +kernel⟩,
   ⟨(((listen ready).wrs 0 [(OPT_TILE.LIGHT0, 1), (OPT_TILE.LIGHT1, 1), (OPT_TILE.REFCLK_OK, 1)])).wr OPT_LANE.STATE 6 1, 0,
     by decide +kernel⟩,
   ⟨(((listen ready).wrs 0 [(OPT_TILE.LIGHT0, 1), (OPT_TILE.LIGHT1, 1), (OPT_TILE.REFCLK_OK, 1)])).wr FAB_PORT.STATE 3 3, 0,
     by decide +kernel⟩,
   ⟨((((listen ready).wrs 0 [(OPT_TILE.LIGHT0, 1), (OPT_TILE.LIGHT1, 1), (OPT_TILE.REFCLK_OK, 1)])).wr FAB_PORT.STATE 3 3).wr OPT_TILE.LIGHT1 0 0,
     0, 3, by decide +kernel⟩,
   ⟨inPins ((((listen ready).wrs 0 [(OPT_TILE.LIGHT0, 1), (OPT_TILE.LIGHT1, 1), (OPT_TILE.REFCLK_OK, 1)])).wrs 0 [(OPT_TILE.LIGHT0,
     0)]) (fun x => { x with dark := [0] }), 0, by decide +kernel⟩,
   ⟨(((listen ready).wrs 0 [(OPT_TILE.LIGHT0, 1), (OPT_TILE.LIGHT1, 1), (OPT_TILE.REFCLK_OK, 1)])).wr FAB_PORT.STATE 3 3,
     by decide +kernel⟩⟩

/-- States and operands meet the hypotheses of each clause of `TrapsAndWaits`. -/
theorem witness_trapsAndWaits :
    (∃ (s : State) (k : Fin 257), timerPending s k.val = true ∧ interruptible s k.val = true ∧ (s.core k.val).tip = false) ∧
    (∃ (s : State) (n : Fin 65536) (w : Wait) (c : Cmd), s.waits = [w] ∧ w.who = Waiter.queue (salQid n.val) ∧ waitingCmd s
      (salQid n.val) = some c ∧ (s.queue (salQid n.val)).kind = false ∧ (s.queue (salQid n.val)).cmdAt c.entry = some c ∧
      satisfied (s.waitValue w.on) w.target = true) ∧
    (∃ (s : State) (n : Fin 65536) (w : Wait) (c : Cmd) (b : Fin 256) (i : Nat), s.waits = [w] ∧ w.who = Waiter.queue
      (salQid n.val) ∧ waitingCmd s (salQid n.val) = some c ∧ (s.queue (salQid n.val)).kind = false ∧ (s.queue (salQid
      n.val)).cmdAt c.entry = some c ∧ s.noImage = false ∧ w.on = WaitOn.counter i ∧ i / 256 = b.val ∧ s.flag
      UST_CTR_BLK.GRANTED b.val = true) ∧
    (∃ (s : State) (k : Fin 256) (w : Wait), s.waits = [w] ∧ w.who = Waiter.core k.val ∧ satisfied (s.waitValue w.on)
      w.target = true ∧ s.debugOf k.val = { }) :=
  ⟨⟨fern 0 7 3 (fun c => { c with ie := true, tcmp := 0 }), 5, by decide +kernel⟩,
   ⟨{ sending ({ cmd [(0, 1, 1), (4, 4, 77), (8, 4, 2), (24, 8, 0x210000), (32, 8, 9 * 2 ^ 40 + 0x212000), (40, 4, 2), (44, 4, 16)] with waiting := true }) with waits := [{ who := .queue (salQid 7), on := .counter 5, target := 0 }] },
     7, { who := .queue (salQid 7), on := .counter 5, target := 0 }, { cmd [(0, 1, 1), (4, 4, 77), (8, 4, 2), (24, 8, 0x210000), (32, 8, 9 * 2 ^ 40 + 0x212000), (40, 4, 2), (44, 4, 16)] with waiting := true },
     by decide +kernel⟩,
   ⟨{ sending ({ cmd [(0, 1, 1), (4, 4, 77), (8, 4, 2), (24, 8, 0x210000), (32, 8, 9 * 2 ^ 40 + 0x212000), (40, 4, 2), (44, 4, 16)] with waiting := true }) with waits := [{ who := .queue (salQid 7), on := .counter 5, target := 0 }] },
     7, { who := .queue (salQid 7), on := .counter 5, target := 0 }, { cmd [(0, 1, 1), (4, 4, 77), (8, 4, 2), (24, 8, 0x210000), (32, 8, 9 * 2 ^ 40 + 0x212000), (40, 4, 2), (44, 4, 16)] with waiting := true },
     0, 5, by decide +kernel⟩,
   ⟨{ fern 0 7 3 with waits := [{ who := .core 5, on := .counter 5, target := 0 }] }, 5, { who := .core 5, on := .counter 5, target := 0 },
     by decide +kernel⟩⟩

/-- States and operands meet the hypotheses of each clause of `Telemetry`. -/
theorem witness_telemetry :
    (∃ (s : State), s.noImage = false) ∧
    (∃ (s : State) (k : Fin 8) (v : Word), s.noImage = false ∧ s.flag TLM_STR_CFG.ENABLE k.val = false ∧ bitOf (BitVec.toNat
      v) 0 = true ∧ 4 ≤ bitsOf (BitVec.toNat v) TLM_STR_CFG.LOG2SIZE.lsb TLM_STR_CFG.LOG2SIZE.width ∧ bitsOf (BitVec.toNat v)
      TLM_STR_CFG.LOG2SIZE.lsb TLM_STR_CFG.LOG2SIZE.width ≤ 16 ∧ 10 ≤ bitsOf (BitVec.toNat v) TLM_STR_CFG.PERIOD_US.lsb
      TLM_STR_CFG.PERIOD_US.width ∧ bitsOf (BitVec.toNat v) TLM_STR_CFG.PERIOD_US.lsb TLM_STR_CFG.PERIOD_US.width ≤ 1000000 ∧
      1 ≤ bitsOf (BitVec.toNat v) TLM_STR_CFG.NCTR.lsb TLM_STR_CFG.NCTR.width ∧ bitsOf (BitVec.toNat v) TLM_STR_CFG.NCTR.lsb
      TLM_STR_CFG.NCTR.width ≤ 28 ∧ portHost s (bitsOf (BitVec.toNat v) TLM_STR_CFG.PORT.lsb TLM_STR_CFG.PORT.width) = true ∧
      ringPlaced s (s.flag TLM_STR_BASE.LOC k.val) (s.rd TLM_STR_BASE.ADDR k.val * 64) (256 * 2 ^ bitsOf (BitVec.toNat v)
      TLM_STR_CFG.LOG2SIZE.lsb TLM_STR_CFG.LOG2SIZE.width) = true) ∧
    (∃ (s : State) (k : Fin 8), s.flag TLM_STR_CFG.ENABLE k.val = true ∧ (s.rd TLM_STR_TAIL.VALUE k.val + 1) % strSize s
      k.val ≠ s.rd TLM_STR_HEAD.VALUE k.val % strSize s k.val ∧ s.flag TLM_STR_BASE.LOC k.val = true ∧ s.masterOn (s.rd
      TLM_STR_CFG.PORT k.val) = true) ∧
    (∃ (s : State) (k : Fin 8), s.flag TLM_STR_CFG.ENABLE k.val = true ∧ (s.rd TLM_STR_TAIL.VALUE k.val + 1) % strSize s
      k.val ≠ s.rd TLM_STR_HEAD.VALUE k.val % strSize s k.val ∧ s.flag TLM_STR_BASE.LOC k.val = false) ∧
    (∃ (s : State) (k : Fin 8), s.flag TLM_STR_CFG.ENABLE k.val = true ∧ (s.rd TLM_STR_TAIL.VALUE k.val + 1) % strSize s
      k.val = s.rd TLM_STR_HEAD.VALUE k.val % strSize s k.val) ∧
    (∃ (s : State) (v : Word), s.noImage = false ∧ s.flag TLM_MTR_CFG.ENABLE = false ∧ bitOf (BitVec.toNat v) 0 = true ∧ 6 ≤
      bitsOf (BitVec.toNat v) TLM_MTR_CFG.LOG2SIZE.lsb TLM_MTR_CFG.LOG2SIZE.width ∧ bitsOf (BitVec.toNat v)
      TLM_MTR_CFG.LOG2SIZE.lsb TLM_MTR_CFG.LOG2SIZE.width ≤ 16 ∧ 1 ≤ bitsOf (BitVec.toNat v) TLM_MTR_CFG.INTERVAL_S.lsb
      TLM_MTR_CFG.INTERVAL_S.width ∧ bitsOf (BitVec.toNat v) TLM_MTR_CFG.INTERVAL_S.lsb TLM_MTR_CFG.INTERVAL_S.width ≤ 3600 ∧
      portHost s (bitsOf (BitVec.toNat v) TLM_MTR_CFG.PORT.lsb TLM_MTR_CFG.PORT.width) = true ∧ ringPlaced s (s.flag
      TLM_MTR_BASE.LOC) (s.rd TLM_MTR_BASE.ADDR * 64) (128 * 2 ^ bitsOf (BitVec.toNat v) TLM_MTR_CFG.LOG2SIZE.lsb
      TLM_MTR_CFG.LOG2SIZE.width) = true ∧ (∀ (m : Nat × Meter), m ∈ s.tlm.meters → m.snd.held = [])) ∧
    (∃ (s : State) (g : Fin 256) (r : MeterRec), controlFetch s = true ∧ meterGlades s = [g.val] ∧ (s.meter g.val).ended =
      [r] ∧ (s.meter g.val).held = [] ∧ mtrRoom s = true ∧ s.flag TLM_MTR_BASE.LOC = true) :=
  ⟨⟨hosted ready, by decide +kernel⟩,
   ⟨((hosted ready).wr TLM_STR_BASE.LOC 0 1), 0, 1 + 2 * 4 + 2 ^ 7 * 10 + 2 ^ 27, by decide +kernel⟩,
   ⟨(hosted ready).wrs 0 [(TLM_STR_CFG.ENABLE, 1), (TLM_STR_CFG.LOG2SIZE, 4), (TLM_STR_CFG.PERIOD_US, 10),
     (TLM_STR_CFG.NCTR, 1), (TLM_STR_CFG.PORT, 0), (TLM_STR_BASE.LOC, 1), (TLM_STR_BASE.ADDR, 4)], 0, by decide +kernel⟩,
   ⟨(region ready 0 1).wrs 0 [(TLM_STR_CFG.ENABLE, 1), (TLM_STR_CFG.LOG2SIZE, 4), (TLM_STR_CFG.PERIOD_US, 10),
     (TLM_STR_CFG.NCTR, 1), (TLM_STR_CFG.PORT, 0), (TLM_STR_BASE.LOC, 0), (TLM_STR_BASE.ADDR, 0x8000)], 0, by decide +kernel⟩,
   ⟨(hosted ready).wrs 0 [(TLM_STR_CFG.ENABLE, 1), (TLM_STR_CFG.LOG2SIZE, 4), (TLM_STR_CFG.PERIOD_US, 10),
     (TLM_STR_CFG.NCTR, 1), (TLM_STR_CFG.PORT, 0), (TLM_STR_BASE.LOC, 1), (TLM_STR_BASE.ADDR, 4), (TLM_STR_HEAD.VALUE, 1)], 0,
     by decide +kernel⟩,
   ⟨((hosted ready).wr TLM_MTR_BASE.LOC 0 1), 1 + 2 * 6 + 2 ^ 7 * 60, by decide +kernel⟩,
   ⟨(((hosted ready).wrs 0 [(TLM_MTR_BASE.LOC, 1), (TLM_MTR_CFG.ENABLE, 1), (TLM_MTR_CFG.LOG2SIZE, 6),
     (TLM_MTR_CFG.INTERVAL_S, 1), (TLM_TIME.NS, 1500000000)]).wr TLM_MTR_GLADE.EN 3 1).setMeter 3 { start := 0, ended := [{ start := 5, stop := 7, fields := [1, 2, 3], flags := 1 }] },
     3, { start := 5, stop := 7, fields := [1, 2, 3], flags := 1 }, by decide +kernel⟩⟩

/-- States and operands meet the hypotheses of each clause of `UnitFailuresAndService`. -/
theorem witness_unitFailuresAndService :
    (∃ (s : State) (k : Fin 8), Listening s ∧ ¬k.val ∈ s.boot.ctrlFailed ∧ ¬alternate k.val ∈ s.boot.ctrlFailed ∧
      s.boot.heldCtl = []) ∧
    (∃ (s : State), Listening s ∧ s.boot.heldCtl = []) ∧
    (∃ (s : State) (k : Fin 8) (unit : Nat) (mode : Nat), Listening s ∧ s.boot.heldCtl = [HeldCtl.march unit mode] ∧
      s.boot.moving = [k.val] ∧ marchClass unit = true ∧ (mode = 1 ∨ mode = 2) ∧ unitOut s unit = true) ∧
    (∃ (s : State), Listening s) ∧
    (∃ (s : State) (j : Fin 1024) (d : Nat × Nat), Listening s ∧ List.find? (fun x => x.fst == j.val) s.dram.degrade = some
      d ∧ ringsFor s (s.rd MEM_RGN_A.GLADE j.val) 0 ≠ []) ∧
    (∃ (s : State) (q : Fin 4), Listening s ∧ s.flag GLB_TILE_MAP.IN_USE q.val = false ∧ s.flag GLB_TILE_MAP.SPARE_FAULTY
      q.val = false ∧ (∀ (x : Nat × Option Nat), x ∈ s.boot.bringing → ¬(x.snd = none ∧ x.fst / 4096 = 3 ∧ x.fst % 4096 / 16 =
      q.val))) ∧
    (∃ (s : State) (n : Fin 64), Listening s ∧ s.tileOut n.val = false ∧ tilePhys s n.val = n.val ∧ bringing s (unitId 3
      n.val) = false ∧ tileSpareFree s (n.val / 16) = true) ∧
    (∃ (s : State) (p : Fin 2), Listening s ∧ mgmtOk s p.val = true ∧ p.val = activePair s ∧ mgmtOk s (1 - p.val) = true ∧
      s.rd PWR_ACT.STATE ≠ 4) ∧
    (∃ (s : State) (p : Fin 2), Listening s ∧ mgmtOk s p.val = true ∧ p.val ≠ activePair s) ∧
    (∃ (s : State), Listening s ∧ s.cpu.failover = true ∧ s.pwr.heldLimit = none ∧ s.sec.heldStarts = [] ∧ (∀ (ri : Nat), ri
      < 32 → ringLive s ri = false)) ∧
    (∃ (s : State) (n : Fin 64), List.find? (fun b => b.fst == 12288 + n.val) s.boot.bringing = some (12288 + n.val, none) ∧
      s.rd TWN_CNT.COUNT 7 < 2 ^ 64 - 1 ∧ s.boot.heldRegs = [] ∧ s.boot.heldPad = []) ∧
    (∃ (s : State) (q : Fin 4), s.noImage = false ∧ s.flag TWN_SVC.BUSY = false ∧ fetchPaused s = false ∧ s.boot.bringing =
      [] ∧ unitMoving s (45060 + q.val) = true) ∧
    (∃ (s : State) (q : Fin 4), s.noImage = false ∧ s.flag TWN_SVC.BUSY = false ∧ fetchPaused s = false ∧ s.boot.bringing =
      [] ∧ unitMoving s (45060 + q.val) = false ∧ ¬45060 + q.val ∈ s.boot.outUnits) ∧
    (∃ (s : State) (q : Fin 4), s.noImage = false ∧ s.flag TWN_SVC.BUSY = false ∧ fetchPaused s = false ∧ s.boot.bringing =
      [] ∧ unitMoving s (45060 + q.val) = false ∧ 45060 + q.val ∈ s.boot.outUnits ∧ 45060 + q.val ∈ s.boot.marchPassed) ∧
    (∃ (s : State) (unit : BitVec 16) (mode : BitVec 2), s.flag BOOT_MARCH.BUSY = false ∧ marchClass unit.toNat = true ∧
      unitOut s unit.toNat = true ∧ unitMoving s unit.toNat = false ∧ (mode = 1 ∨ mode = 2)) ∧
    (∃ (s : State) (unit : Nat) (mode : Nat), s.boot.march = some (unit, mode)) ∧
    (∃ (s : State) (k : Fin 256), (s.core k.val).restarting = true ∧ Listening s) :=
  ⟨⟨(listen ready), 3, by decide +kernel⟩,
   ⟨(listen ready), by decide +kernel⟩,
   ⟨inBoot ((listen ready)) (fun x => { x with moving := [3], heldCtl := [.march 0x2003 1], outUnits := [0x2003] }), 3,
     0x2003, 1, by decide +kernel⟩,
   ⟨(listen ready), by decide +kernel⟩,
   ⟨inDram ((region (listen ready) 0 1)) (fun x => { x with degrade := [(1, 5)] }), 1, (1, 5), by decide +kernel⟩,
   ⟨(listen ready), 1, by decide +kernel⟩,
   ⟨(listen ready), 5, by decide +kernel⟩,
   ⟨(listen ready), 0, by decide +kernel⟩,
   ⟨(listen ready), 1, by decide +kernel⟩,
   ⟨inCpu ((listen ready)) (fun x => { x with failover := true }), by decide +kernel⟩,
   ⟨inBoot ((listen ready)) (fun x => { x with bringing := [(0x3005, none)] }), 5, by decide +kernel⟩,
   ⟨inBoot ((listen ready)) (fun x => { x with moving := [0, 1, 2, 3, 4, 5, 6, 7] }), 1, by decide +kernel⟩,
   ⟨(listen ready), 1, by decide +kernel⟩,
   ⟨inBoot ((listen ready)) (fun x => { x with outUnits := [0xB005], marchPassed := [0xB005] }), 1, by decide +kernel⟩,
   ⟨inBoot ((listen ready)) (fun x => { x with outUnits := [0xB005] }), 0xB005, 1, by decide +kernel⟩,
   ⟨inBoot ((listen ready)) (fun x => { x with outUnits := [0xB005], march := some (0xB005, 1) }), 0xB005, 1,
     by decide +kernel⟩,
   ⟨(listen ready).setCore 7 { ((listen ready).core 7) with restarting := true }, 7, by decide +kernel⟩⟩

/-- States and operands meet the hypotheses of each clause of `QueuesFromOutside`. -/
theorem witness_queuesFromOutside :
    (∃ (s : State) (p : Fin 2), ((s.port p.val).d3hot = true ∨ s.flag HEP_PORT_STAT.ROLE p.val = true) ∧ s.rd HEP_CNT.COUNT
      (8 * p.val + 4) < 2 ^ 64 - 1) ∧
    (∃ (s : State) (p : Fin 2) (i : Fin 4096) (v : Word), (s.port p.val).d3hot = false ∧ s.flag HEP_PORT_STAT.ROLE p.val =
      false ∧ s.flag GLD_INST.VALID i.val = true ∧ bitsOf (BitVec.toNat v) 24 8 = 0 ∧ doorbellOk s p.val i.val (bitsOf
      (BitVec.toNat v) 0 24) = true ∧ 2 ≤ qcls (bitsOf (BitVec.toNat v) 0 24) ∧ bitsOf (BitVec.toNat v) 48 16 = 0 ∧ bitsOf
      (BitVec.toNat v) 32 16 < (s.queue (bitsOf (BitVec.toNat v) 0 24)).size) ∧
    (∃ (s : State) (p : Fin 2) (i : Fin 4096) (v : Word), (s.port p.val).d3hot = false ∧ s.flag HEP_PORT_STAT.ROLE p.val =
      false ∧ s.flag GLD_INST.VALID i.val = true ∧ bitsOf (BitVec.toNat v) 24 8 = 0 ∧ doorbellOk s p.val i.val (bitsOf
      (BitVec.toNat v) 0 24) = true ∧ 2 ≤ qcls (bitsOf (BitVec.toNat v) 0 24) ∧ (s.queue (bitsOf (BitVec.toNat v) 0 24)).state
      = QState.halted) ∧
    (∃ (s : State) (p : Fin 2) (i : Fin 4096) (v : Word), (s.port p.val).d3hot = false ∧ s.flag HEP_PORT_STAT.ROLE p.val =
      false ∧ s.flag GLD_INST.VALID i.val = true ∧ bitsOf (BitVec.toNat v) 24 8 = 0 ∧ doorbellOk s p.val i.val (bitsOf
      (BitVec.toNat v) 0 24) = true ∧ 2 ≤ qcls (bitsOf (BitVec.toNat v) 0 24) ∧ qcls (bitsOf (BitVec.toNat v) 0 24) = 4 ∧
      (s.queue (bitsOf (BitVec.toNat v) 0 24)).state ≠ QState.resetting) ∧
    (∃ (s : State) (p : Fin 2) (i : Fin 4096) (v : Word), (s.port p.val).d3hot = false ∧ s.flag HEP_PORT_STAT.ROLE p.val =
      false ∧ s.flag GLD_INST.VALID i.val = true ∧ bitsOf (BitVec.toNat v) 24 8 = 0 ∧ doorbellOk s p.val i.val (bitsOf
      (BitVec.toNat v) 0 24) = true ∧ 2 ≤ qcls (bitsOf (BitVec.toNat v) 0 24) ∧ qcls (bitsOf (BitVec.toNat v) 0 24) ≠ 4 ∧
      (s.queue (bitsOf (BitVec.toNat v) 0 24)).state ≠ QState.resetting ∧ (s.queue (bitsOf (BitVec.toNat v) 0 24)).cmds = [] ∧
      (∀ (g : Nat), g < 64 → (s.ustGroup g).cur = none) ∧ ringsOfQueue s (qidx (bitsOf (BitVec.toNat v) 0 24)) = []) ∧
    (∃ (s : State) (p : Fin 2) (i : Fin 4096) (v : Word), (s.port p.val).d3hot = false ∧ s.flag HEP_PORT_STAT.ROLE p.val =
      false ∧ s.flag GLD_INST.VALID i.val = true ∧ bitsOf (BitVec.toNat v) 24 8 = 0 ∧ bitsOf (BitVec.toNat v) 48 16 = 0 ∧
      doorbellOk s p.val i.val (bitsOf (BitVec.toNat v) 0 24) = true ∧ qcls (bitsOf (BitVec.toNat v) 0 24) = 1 ∧ s.tileOut
      (qidx (bitsOf (BitVec.toNat v) 0 24) / 8) = false ∧ bitsOf (BitVec.toNat v) 32 16 < (s.queue (bitsOf (BitVec.toNat v) 0
      24)).size ∧ bitsOf (BitVec.toNat v) 32 16 < 4096) ∧
    (∃ (s : State) (p : Fin 2) (i : Fin 4096) (v : Word), (s.port p.val).d3hot = false ∧ s.flag HEP_PORT_STAT.ROLE p.val =
      false ∧ s.flag GLD_INST.VALID i.val = true ∧ doorbellOk s p.val i.val (bitsOf (BitVec.toNat v) 0 24) = false ∧ s.rd
      GLD_DB_DROP.COUNT < 2 ^ 64 - 1) ∧
    (∃ (s : State) (p : Fin 2) (i : Fin 4096) (v : Word), (s.port p.val).d3hot = false ∧ s.flag HEP_PORT_STAT.ROLE p.val =
      false ∧ s.flag GLD_INST.VALID i.val = true ∧ bitsOf (BitVec.toNat v) 6 10 = 0 ∧ bitsOf (BitVec.toNat v) 32 32 = 0 ∧
      p.val = s.homePort i.val ∧ s.flag HEP_EVR_CFG.INST_FILT (bitsOf (BitVec.toNat v) 0 6) = true ∧ s.rd HEP_EVR_CFG.INST
      (bitsOf (BitVec.toNat v) 0 6) = i.val ∧ (s.evrOf (bitsOf (BitVec.toNat v) 0 6)).owed = 0) ∧
    (∃ (s : State) (p : Fin 2) (i : Fin 4096) (off : BitVec 12) (b : Bool), (s.port p.val).d3hot = false ∧ s.flag
      HEP_PORT_STAT.ROLE p.val = false ∧ s.flag GLD_INST.VALID i.val = true ∧ b = true ∧ off.toNat % 8 = 0 ∧ 24 ≤ off.toNat ∧
      s.rd GLD_DB_DROP.COUNT < 2 ^ 64 - 1) ∧
    (∃ (s : State) (p : Fin 2) (i : Fin 4096) (off : BitVec 12) (b : Bool), (s.port p.val).d3hot = false ∧ s.flag
      HEP_PORT_STAT.ROLE p.val = false ∧ (s.flag GLD_INST.VALID i.val = false ∨ b = false ∨ off.toNat % 8 ≠ 0) ∧ s.rd
      HEP_CNT.COUNT (8 * p.val + 7) < 2 ^ 64 - 1) ∧
    (∃ (s : State) (v : Word), s.noImage = false ∧ s.flag GLD_SQ_CTRL.ENABLE = false ∧ 4 ≤ GLD_SQ_CTRL.LOG2SIZE.of
      (BitVec.toNat v) ∧ GLD_SQ_CTRL.LOG2SIZE.of (BitVec.toNat v) ≤ 12) ∧
    (∃ (s : State) (v : Word), s.noImage = false ∧ bitsOf (BitVec.toNat v) 0 12 < (s.queue 0).size) ∧
    (∃ (s : State) (v : Word), s.noImage = false ∧ (s.queue 0).size ≤ bitsOf (BitVec.toNat v) 0 12) ∧
    (∃ (s : State) (b : List Byte), mayFetch s 0 = true ∧ (s.queue 0).host = true ∧ s.hostOn 0 = true ∧ (s.queue 0).log2 ≤
      12 ∧ setupFieldsOk (bytesAt b 0 64) = true) ∧
    (∃ (s : State) (n : Fin 65536), mayFetch s (salQid n.val) = true ∧ AtHand s (CtxKey.queue (salQid n.val)) ∧ (s.queue
      (salQid n.val)).state = QState.active ∧ (s.queue (salQid n.val)).host = false ∧ (s.queue (salQid n.val)).kind = false ∧
      (s.gladeRead (s.queueGlade (salQid n.val)) ((s.queue (salQid n.val)).cmdAddr (salQid n.val) (s.queue (salQid
      n.val)).head) 64).snd = St.success ∧ salFieldsOk (s.bytes ((s.queue (salQid n.val)).cmdAddr (salQid n.val) (s.queue
      (salQid n.val)).head) 64) = true ∧ preGranted s (s.queueGlade (salQid n.val)) (s.bytes ((s.queue (salQid n.val)).cmdAddr
      (salQid n.val) (s.queue (salQid n.val)).head) 64) = true ∧ bitOf (leAt (s.bytes ((s.queue (salQid n.val)).cmdAddr
      (salQid n.val) (s.queue (salQid n.val)).head) 64) 1 1) 1 = false) ∧
    (∃ (s : State) (qid : BitVec 24) (d : Done) (rest : List Done), (s.queue qid.toNat).due = d :: rest ∧ mayWriteEntry s
      qid.toNat = true ∧ stampOk s qid.toNat d = true ∧ (qcls qid.toNat = 2 ∨ qcls qid.toNat = 3 ∨ qcls qid.toNat = 4) ∧
      (s.queue qid.toNat).host = true ∧ s.hostOn (s.queue qid.toNat).inst = true ∧ s.flag HEP_PORT_STAT.ATS_EN (s.homePort
      (s.queue qid.toNat).inst) = false ∧ d.post = none ∧ d.tell = none) ∧
    (∃ (s : State) (qid : BitVec 24) (d : Done) (rest : List Done), (s.queue qid.toNat).due = d :: rest ∧ mayWriteEntry s
      qid.toNat = true ∧ stampOk s qid.toNat d = true ∧ (qcls qid.toNat = 2 ∨ qcls qid.toNat = 3 ∨ qcls qid.toNat = 4) ∧
      (s.queue qid.toNat).host = false ∧ s.inGladeRgn (s.gladeOf (s.queue qid.toNat).inst) ((s.queue qid.toNat).cbase + 16 *
      (s.queue qid.toNat).wpos) 16 = true ∧ NoneHeld s (s.write ((s.queue qid.toNat).cbase + 16 * (s.queue qid.toNat).wpos)
      (entryBytes qid.toNat (s.queue qid.toNat) d))) ∧
    (∃ (s : State) (qid : BitVec 24), 2 ≤ qcls qid.toNat ∧ s.queueExists qid.toNat = true ∧ (s.queue qid.toNat).state =
      QState.resetting ∧ (s.queue qid.toNat).cmds = [] ∧ (s.queue qid.toNat).due = [] ∧ (s.queue qid.toNat).waiting = 0) :=
  ⟨⟨((owned ready).setPort 0 { (owned ready).port 0 with d3hot := true }), 0, by decide +kernel⟩,
   ⟨belled { state := .active }, 0, 1, 0x400007 + 2 ^ 32 * 5, by decide +kernel⟩,
   ⟨belled { state := .halted }, 0, 1, 0x400007 + 2 ^ 32 * 5, by decide +kernel⟩,
   ⟨belled { state := .active }, 0, 1, 0x400007 + 2 ^ 32 * 5, by decide +kernel⟩,
   ⟨(owned ready).setQueue 0x300003 { valid := true, inst := 1, state := .active }, 0, 1, 0x300003 + 2 ^ 32,
     by decide +kernel⟩,
   ⟨(owned ready).wrs 40 [(TILE_QCTRL.OWNER, 1)], 0, 1, 0x100028 + 2 ^ 32 * 3, by decide +kernel⟩,
   ⟨belled { state := .active }, 0, 1, 0x300003 + 2 ^ 32, by decide +kernel⟩,
   ⟨(owned ready).wrs 0 [(HEP_EVR_CFG.INST_FILT, 1), (HEP_EVR_CFG.INST, 1)], 0, 1, 0, by decide +kernel⟩,
   ⟨belled { state := .active }, 0, 1, 0x18, true, by decide +kernel⟩,
   ⟨belled { state := .active }, 0, 1, 0x18, false, by decide +kernel⟩,
   ⟨belled { state := .active }, 0x100028 + 2 ^ 32 * 3, by decide +kernel⟩,
   ⟨belled { state := .active }, 0x400007 + 2 ^ 32 * 5, by decide +kernel⟩,
   ⟨belled { state := .active }, 0x100028 + 2 ^ 32 * 3, by decide +kernel⟩,
   ⟨setUp ready, toLe 64 (3 + 2 ^ 64), by decide +kernel⟩,
   ⟨belled { state := .active, tail := 1, base := 0x200000 } (holding (region ready 0 1) 0x200000 (cmd [(0, 1, 1), (4, 4,
     77), (8, 4, 2), (24, 8, 0x210000), (32, 8, 9 * 2 ^ 40 + 0x212000), (40, 4, 2), (44, 4, 16)]).bytes), 7,
     by decide +kernel⟩,
   ⟨belled { state := .active, host := true, cbase := 0x9000, due := [{ word0 := 7, status := 0, mid := 0, stamp := 0, entry := 0, intr := false, post := none }], tail := 1, head := 1 } (hosted ready),
     0x400007, { word0 := 7, status := 0, mid := 0, stamp := 0, entry := 0, intr := false, post := none }, [],
     by decide +kernel⟩,
   ⟨belled { state := .active, cbase := 0x201000, due := [{ word0 := 7, status := 0, mid := 0, stamp := 0, entry := 0, intr := false, post := none }], tail := 1, head := 1 } (region ready 0 1),
     0x400007, { word0 := 7, status := 0, mid := 0, stamp := 0, entry := 0, intr := false, post := none }, [],
     by decide +kernel⟩,
   ⟨queued ready (stqQid 3) (cmd []) |> fun s => s.setQueue (stqQid 3) { valid := true, state := .resetting }, BitVec.ofNat 24 (stqQid 3),
     by decide +kernel⟩⟩

/-- States and operands meet the hypotheses of each clause of `SetupCommands`. -/
theorem witness_setupCommands :
    (∃ (s : State) (c : Cmd), SetupReady s 1 c ∧ s.gladeExists 0 = true ∧ s.gladeExists (leAt c.bytes 8 1) = false ∧
      quotasFit s (leAt c.bytes 8 1) (quotaWords s c.bytes) = true) ∧
    (∃ (s : State) (c : Cmd), SetupReady s 2 c ∧ s.gladeExists (leAt c.bytes 8 1) = true ∧ quotasFit s (leAt c.bytes 8 1)
      (quotaWords s c.bytes) = true ∧ (∀ (p : Machine.Pool), poolUse s p (leAt c.bytes 8 1) ≤ p.part (quotaWords s c.bytes) ∨
      poolQuota s p (leAt c.bytes 8 1) ≤ p.part (quotaWords s c.bytes))) ∧
    (∃ (s : State) (c : Cmd) (i : Nat), SetupReady s 3 c ∧ s.gladeExists (leAt c.bytes 8 1) = true ∧ offloadBusy s (leAt
      c.bytes 8 1) = false ∧ instancesOf s (leAt c.bytes 8 1) = [i] ∧ tileQueuesOf s i = [] ∧ queuesOf s i = [] ∧ (∀ (x : Nat
      × Machine.Stream), x ∈ s.streams → x.snd.inst ≠ i)) ∧
    (∃ (s : State) (c : Cmd), SetupReady s 4 c ∧ s.gladeExists (leAt c.bytes 8 1) = true ∧ gladeHolds s (leAt c.bytes 8 1) =
      false ∧ keyBusy s (leAt c.bytes 8 1) = false ∧ s.flag TLM_MTR_GLADE.EN (leAt c.bytes 8 1) = false ∧ s.rd
      TRL_STATUS.GLADE ≠ leAt c.bytes 8 1) ∧
    (∃ (s : State) (c : Cmd) (k : Nat), SetupReady s 5 c ∧ portHost s (b2n (bitOf (leAt c.bytes 9 1) 0)) = true ∧ (bitOf
      (leAt c.bytes 9 1) 1 = true → (s.port (b2n (bitOf (leAt c.bytes 9 1) 0))).pasidEn = true) ∧ s.gladeExists (leAt c.bytes
      8 1) = true ∧ mayTake s Pool.instances (leAt c.bytes 8 1) 1 = true ∧ List.find? (fun k => !s.flag GLD_INST.VALID (k +
      1)) (List.range 4095) = some k) ∧
    (∃ (s : State) (c : Cmd), leAt c.bytes 12 2 < 4096 ∧ leAt c.bytes 12 2 ≠ 0 ∧ s.flag GLD_INST.VALID (leAt c.bytes 12 2) =
      true ∧ tileQueuesOf s (leAt c.bytes 12 2) = [] ∧ queuesOf s (leAt c.bytes 12 2) = [] ∧ (∀ (x : Nat × Machine.Stream), x
      ∈ s.streams → x.snd.inst ≠ leAt c.bytes 12 2) ∧ SetupReady s 6 c) ∧
    (∃ (s : State) (c : Cmd), leAt c.bytes 12 2 < 4096 ∧ leAt c.bytes 12 2 ≠ 0 ∧ s.flag GLD_INST.VALID (leAt c.bytes 12 2) =
      true ∧ tileQueuesOf s (leAt c.bytes 12 2) = [] ∧ queuesOf s (leAt c.bytes 12 2) = [] ∧ (∀ (x : Nat × Machine.Stream), x
      ∈ s.streams → x.snd.inst ≠ leAt c.bytes 12 2) ∧ SetupReady s 7 c) ∧
    (∃ (s : State) (c : Cmd) (k : Nat), SetupReady s 8 c ∧ s.flag GLD_INST.VALID (leAt c.bytes 12 2) = true ∧ mayTakeCtx s
      (s.gladeOf (leAt c.bytes 12 2)) 1 = true ∧ (∀ (h : Fin 4), (s.cached ↑h).length < cacheSize) ∧ leAt c.bytes 8 1 = 3 ∧
      s.feature 2 = true ∧ freeQueue s 3 0 256 = some k) ∧
    (∃ (s : State) (c : Cmd) (k : Nat), SetupReady s 8 c ∧ s.flag GLD_INST.VALID (leAt c.bytes 12 2) = true ∧ mayTakeCtx s
      (s.gladeOf (leAt c.bytes 12 2)) 1 = true ∧ (∀ (h : Fin 4), (s.cached ↑h).length < cacheSize) ∧ leAt c.bytes 8 1 = 4 ∧
      freeQueue s 4 0 65536 = some k ∧ s.flag FAB_SAL_PD.VALID (leAt c.bytes 34 2) = true ∧ s.rd FAB_SAL_PD.GLADE (leAt
      c.bytes 34 2) = s.gladeOf (leAt c.bytes 12 2) ∧ leAt c.bytes 34 2 < 4096) ∧
    (∃ (s : State) (c : Cmd) (n : Fin 65536), SetupReady s 9 c ∧ leAt c.bytes 16 4 = salQid n.val ∧ (s.queue (salQid
      n.val)).valid = true ∧ (s.queue (salQid n.val)).cmds = [] ∧ (s.queue (salQid n.val)).due = [] ∧ (s.queue (salQid
      n.val)).waiting = 0 ∧ s.waits = []) ∧
    (∃ (s : State) (c : Cmd) (i : Nat), SetupReady s 10 c ∧ s.flag FAB_SAL_RKT_CFG.ENABLE = true ∧ s.flag FAB_SAL_PD.VALID
      (leAt c.bytes 32 2) = true ∧ leAt c.bytes 32 2 < 4096 ∧ mayRegister s (s.rd FAB_SAL_PD.GLADE (leAt c.bytes 32 2)) (leAt
      c.bytes 16 8) (leAt c.bytes 24 8) = true ∧ freeReg s = some i) ∧
    (∃ (s : State) (c : Cmd), SetupReady s 11 c ∧ keyStatus s (leAt c.bytes 16 4) = St.success ∧ (s.regEntry (keyIndex (leAt
      c.bytes 16 4))).pd < 4096 ∧ regBusy (removeReg s (keyIndex (leAt c.bytes 16 4))) (keyIndex (leAt c.bytes 16 4)) = false) ∧
    (∃ (s : State) (c : Cmd), (s.queue 0).cmds.head? = some c ∧ leAt c.bytes 0 1 = 11 ∧ c.started = true ∧ c.waiting = false
      ∧ s.flag GLD_SQ_CTRL.ENABLE = true ∧ regBusy s (keyIndex (leAt c.bytes 16 4)) = false) ∧
    (∃ (s : State) (c : Cmd) (q : Fin 8192) (k : Nat) (n : Nat), (s.queue (stqQid q.val)).kind = true ∧ (s.queue (stqQid
      q.val)).valid = true ∧ (s.queue (stqQid q.val)).inst = 0 ∧ NoFlush s q.val ∧ s.waits = [] ∧ StqReady s q.val 135 c k ∧
      setupFieldsOk (adminSetup 8 c.bytes) = true ∧ leAt (adminSetup 8 c.bytes) 8 1 = 5 ∧ s.feature 6 = true ∧ leAt
      (adminSetup 8 c.bytes) 12 2 < 4096 ∧ s.flag GLD_INST.VALID (leAt (adminSetup 8 c.bytes) 12 2) = true ∧ mayTakeCtx s
      (s.gladeOf (leAt (adminSetup 8 c.bytes) 12 2)) 32 = true ∧ mayTake s Pool.stq (s.gladeOf (leAt (adminSetup 8 c.bytes) 12
      2)) 1 = true ∧ s.rd GLD_INST.STQ (leAt (adminSetup 8 c.bytes) 12 2) < 64 ∧ bitOf (leAt (adminSetup 8 c.bytes) 40 1) 0 =
      false ∧ freeQueue s 5 0 8192 = some n) ∧
    (∃ (s : State) (c : Cmd) (q : Fin 8192) (k : Nat) (r : Fin 8192), (s.queue (stqQid q.val)).kind = true ∧ (s.queue
      (stqQid q.val)).valid = true ∧ (s.queue (stqQid q.val)).inst = 0 ∧ NoFlush s q.val ∧ s.waits = [] ∧ StqReady s q.val 136
      c k ∧ setupFieldsOk (adminSetup 9 c.bytes) = true ∧ leAt (adminSetup 9 c.bytes) 16 4 = stqQid r.val ∧ r ≠ q ∧ (s.queue
      (stqQid r.val)).valid = true ∧ (s.queue (stqQid r.val)).cmds = [] ∧ (s.queue (stqQid r.val)).due = [] ∧ (s.queue (stqQid
      r.val)).inst < 4096) :=
  ⟨⟨settingUp (cmd [(0, 1, 1), (4, 4, 77), (8, 1, 3)]) ((ready.wrs 0 [(GLD_QUOTA_A.EXISTS, 1)])), cmd [(0, 1, 1), (4, 4,
     77), (8, 1, 3)], by decide +kernel⟩,
   ⟨settingUp (cmd [(0, 1, 2), (4, 4, 77), (8, 1, 3), (9, 1, 1)]) (((ready.wrs 0 [(GLD_QUOTA_A.EXISTS, 1)]).wrs 3 [(GLD_QUOTA_A.EXISTS,
     1), (GLD_QUOTA_A.INSTANCES, 4), (GLD_QUOTA_B.CTX, 100), (GLD_QUOTA_B.STQ, 100)])), cmd [(0, 1, 2), (4, 4, 77), (8, 1, 3),
     (9, 1, 1)], by decide +kernel, by decide +kernel, by decide +kernel, fun p => by cases p <;> decide +kernel⟩,
   ⟨settingUp (cmd [(0, 1, 3), (4, 4, 77), (8, 1, 3)]) (((((ready.wrs 0 [(GLD_QUOTA_A.EXISTS, 1)]).wrs 3 [(GLD_QUOTA_A.EXISTS,
     1), (GLD_QUOTA_A.INSTANCES, 4), (GLD_QUOTA_B.CTX, 100), (GLD_QUOTA_B.STQ, 100)])).wrs 5 [(GLD_INST.VALID, 1),
     (GLD_INST.GLADE, 3)]).wrs 1 [(CPU_OFL_A.STATE, 2), (CPU_OFL_A.GLADE, 3)]), cmd [(0, 1, 3), (4, 4, 77), (8, 1, 3)], 5,
     by decide +kernel⟩,
   ⟨settingUp (cmd [(0, 1, 4), (4, 4, 77), (8, 1, 3)]) (((ready.wrs 0 [(GLD_QUOTA_A.EXISTS, 1)]).wrs 3 [(GLD_QUOTA_A.EXISTS,
     1), (GLD_QUOTA_A.INSTANCES, 4), (GLD_QUOTA_B.CTX, 100), (GLD_QUOTA_B.STQ, 100)])), cmd [(0, 1, 4), (4, 4, 77), (8, 1,
     3)], by decide +kernel⟩,
   ⟨settingUp (cmd [(0, 1, 5), (4, 4, 77), (8, 1, 3)]) (((ready.wrs 0 [(GLD_QUOTA_A.EXISTS, 1)]).wrs 3 [(GLD_QUOTA_A.EXISTS,
     1), (GLD_QUOTA_A.INSTANCES, 4), (GLD_QUOTA_B.CTX, 100), (GLD_QUOTA_B.STQ, 100)])), cmd [(0, 1, 5), (4, 4, 77), (8, 1,
     3)], 0, by decide +kernel⟩,
   ⟨settingUp (cmd [(0, 1, 6), (4, 4, 77), (12, 2, 5)]) ((((ready.wrs 0 [(GLD_QUOTA_A.EXISTS, 1)]).wrs 3 [(GLD_QUOTA_A.EXISTS,
     1), (GLD_QUOTA_A.INSTANCES, 4), (GLD_QUOTA_B.CTX, 100), (GLD_QUOTA_B.STQ, 100)])).wrs 5 [(GLD_INST.VALID, 1),
     (GLD_INST.GLADE, 3)]), cmd [(0, 1, 6), (4, 4, 77), (12, 2, 5)], by decide +kernel⟩,
   ⟨settingUp (cmd [(0, 1, 7), (4, 4, 77), (12, 2, 5)]) ((((ready.wrs 0 [(GLD_QUOTA_A.EXISTS, 1)]).wrs 3 [(GLD_QUOTA_A.EXISTS,
     1), (GLD_QUOTA_A.INSTANCES, 4), (GLD_QUOTA_B.CTX, 100), (GLD_QUOTA_B.STQ, 100)])).wrs 5 [(GLD_INST.VALID, 1),
     (GLD_INST.GLADE, 3)]), cmd [(0, 1, 7), (4, 4, 77), (12, 2, 5)], by decide +kernel⟩,
   ⟨settingUp (cmd [(0, 1, 8), (4, 4, 77), (8, 1, 3), (10, 1, 4), (12, 2, 5)]) ((((((ready.wrs 0 [(GLD_QUOTA_A.EXISTS,
     1)]).wrs 3 [(GLD_QUOTA_A.EXISTS, 1), (GLD_QUOTA_A.INSTANCES, 4), (GLD_QUOTA_B.CTX, 100), (GLD_QUOTA_B.STQ, 100)])).wrs 5 [(GLD_INST.VALID,
     1), (GLD_INST.GLADE, 3)]).wrs 0 [(FAB_CTX_CFG.ENABLE, 1), (BOOT_FEAT_AGREED.FEATURES, 64)] |>.wrs 7 [(FAB_SAL_PD.VALID,
     1), (FAB_SAL_PD.GLADE, 3)]).wr BOOT_FEAT_AGREED.FEATURES 0 68), cmd [(0, 1, 8), (4, 4, 77), (8, 1, 3), (10, 1, 4), (12,
     2, 5)], 0, by decide +kernel⟩,
   ⟨settingUp (cmd [(0, 1, 8), (4, 4, 77), (8, 1, 4), (10, 1, 4), (12, 2, 5), (34, 2, 7)]) (((((ready.wrs 0 [(GLD_QUOTA_A.EXISTS,
     1)]).wrs 3 [(GLD_QUOTA_A.EXISTS, 1), (GLD_QUOTA_A.INSTANCES, 4), (GLD_QUOTA_B.CTX, 100), (GLD_QUOTA_B.STQ, 100)])).wrs 5 [(GLD_INST.VALID,
     1), (GLD_INST.GLADE, 3)]).wrs 0 [(FAB_CTX_CFG.ENABLE, 1), (BOOT_FEAT_AGREED.FEATURES, 64)] |>.wrs 7 [(FAB_SAL_PD.VALID,
     1), (FAB_SAL_PD.GLADE, 3)]), cmd [(0, 1, 8), (4, 4, 77), (8, 1, 4), (10, 1, 4), (12, 2, 5), (34, 2, 7)], 0,
     by decide +kernel⟩,
   ⟨settingUp (cmd [(0, 1, 9), (4, 4, 77), (16, 4, 4194311)]) (belled { state := .active } (((ready.wrs 0 [(GLD_QUOTA_A.EXISTS,
     1)]).wrs 3 [(GLD_QUOTA_A.EXISTS, 1), (GLD_QUOTA_A.INSTANCES, 4), (GLD_QUOTA_B.CTX, 100), (GLD_QUOTA_B.STQ, 100)]))), cmd [(0,
     1, 9), (4, 4, 77), (16, 4, 4194311)], 7, by decide +kernel⟩,
   ⟨settingUp (cmd [(0, 1, 10), (4, 4, 77), (16, 8, 2097152), (24, 8, 4096), (32, 2, 3), (34, 1, 15)]) (registered ready),
     cmd [(0, 1, 10), (4, 4, 77), (16, 8, 2097152), (24, 8, 4096), (32, 2, 3), (34, 1, 15)], 1, by decide +kernel⟩,
   ⟨settingUp (cmd [(0, 1, 11), (4, 4, 77), (16, 4, 2)]) (registered ready), cmd [(0, 1, 11), (4, 4, 77), (16, 4, 2)],
     by decide +kernel⟩,
   ⟨settingUp ({ cmd [(0, 1, 11), (4, 4, 77), (16, 4, 2)] with started := true }) (registered ready), { cmd [(0, 1, 11), (4, 4, 77), (16, 4, 2)] with started := true },
     by decide +kernel⟩,
   ⟨stored (((((ready.wrs 0 [(GLD_QUOTA_A.EXISTS, 1)]).wrs 3 [(GLD_QUOTA_A.EXISTS, 1), (GLD_QUOTA_A.INSTANCES, 4),
     (GLD_QUOTA_B.CTX, 100), (GLD_QUOTA_B.STQ, 100)])).wrs 5 [(GLD_INST.VALID, 1), (GLD_INST.GLADE, 3)]).wrs 0 [(FAB_CTX_CFG.ENABLE,
     1), (BOOT_FEAT_AGREED.FEATURES, 64)] |>.wrs 7 [(FAB_SAL_PD.VALID, 1), (FAB_SAL_PD.GLADE, 3)]) (cmd [(0, 1, 0x87), (4, 4,
     77), (24, 1, 5), (26, 1, 4), (28, 2, 5)]) {} { kind := true }, cmd [(0, 1, 0x87), (4, 4, 77), (24, 1, 5), (26, 1, 4),
     (28, 2, 5)], 3, 0, 0, by decide +kernel⟩,
   ⟨(stored (((((ready.wrs 0 [(GLD_QUOTA_A.EXISTS, 1)]).wrs 3 [(GLD_QUOTA_A.EXISTS, 1), (GLD_QUOTA_A.INSTANCES, 4),
     (GLD_QUOTA_B.CTX, 100), (GLD_QUOTA_B.STQ, 100)])).wrs 5 [(GLD_INST.VALID, 1), (GLD_INST.GLADE, 3)]).wrs 0 [(FAB_CTX_CFG.ENABLE,
     1), (BOOT_FEAT_AGREED.FEATURES, 64)] |>.wrs 7 [(FAB_SAL_PD.VALID, 1), (FAB_SAL_PD.GLADE, 3)]) (cmd [(0, 1, 0x88), (4, 4,
     77), (32, 4, 0x500004)]) {} { kind := true }).setQueue 0x500004 { valid := true, inst := 5, state := .active }, cmd [(0,
     1, 0x88), (4, 4, 77), (32, 4, 0x500004)], 3, 0, 4, by decide +kernel⟩⟩

/-- States and operands meet the hypotheses of each clause of `HostPortFunctions`. -/
theorem witness_hostPortFunctions :
    (∃ (s : State) (p : Fin 2), PortIdle s p.val ∧ Listening s ∧ cfgOk s p.val = true ∧ s.flag HEP_PORT_STAT.BME p.val =
      true ∧ (s.port p.val).pasidEn = true ∧ (s.port p.val).inReset = false ∧ s.flag HEP_PORT_STAT.LINK_UP p.val = true) ∧
    (∃ (s : State) (p : Fin 2), cfgOk s p.val = true ∧ s.flag HEP_PORT_STAT.BME p.val = false ∧ (s.port p.val).pba = []) ∧
    (∃ (s : State) (p : Fin 2), s.flag HEP_PORT_STAT.FLR_BUSY p.val = true) ∧
    (∃ (s : State) (p : Fin 2) (speed : Fin 7) (width : Fin 17), (s.port p.val).inReset = false ∧ (s.port p.val).training =
      true ∧ ¬p.val ∈ s.pins.hclkLost ∧ speed.val ≤ (s.port p.val).maxSpeed ∧ width.val ≤ (s.port p.val).maxWidth ∧ speed.val
      ≠ 0 ∧ width.val ≠ 0) ∧
    (∃ (s : State) (p : Fin 2), cfgOk s p.val = true) ∧
    (∃ (s : State) (p : Fin 2), cfgOk s p.val = true ∧ (s.port p.val).bar4On = true) :=
  ⟨⟨((hosted (listen ready)).wr HEP_PORT_STAT.LINK_UP 1 1).setPort 1 { (hosted (listen ready)).port 1 with pasidEn := true },
     1, by decide +kernel⟩,
   ⟨(((hosted (listen ready))).wr HEP_PORT_STAT.LINK_UP 1 1).wr HEP_PORT_STAT.BME 1 0, 1, by decide +kernel⟩,
   ⟨(((hosted (listen ready))).wr HEP_PORT_STAT.LINK_UP 1 1).wr HEP_PORT_STAT.FLR_BUSY 1 1, 1, by decide +kernel⟩,
   ⟨((hosted (listen ready))).wr HEP_PORT_STAT.LINK_UP 1 1, 1, 5, 8, by decide +kernel⟩,
   ⟨((hosted (listen ready))).wr HEP_PORT_STAT.LINK_UP 1 1, 1, by decide +kernel⟩,
   ⟨((hosted (listen ready))).wr HEP_PORT_STAT.LINK_UP 1 1, 1, by decide +kernel⟩⟩

/-- States and operands meet the hypotheses of each clause of `HostRequestsAndEvents`. -/
theorem witness_hostRequestsAndEvents :
    (∃ (s : State) (p : Fin 2) (r : HostReq) (rest : List HostReq) (g : Nat) (h' : HostPort), (s.port p.val).waiting = r ::
      rest ∧ s.masterOn p.val = true ∧ (s.port p.val).outstanding.length < tagLimit s p.val ∧ takeTag s p.val = some (g, h')) ∧
    (∃ (s : State) (p : Fin 2) (tag : BitVec 14) (r : HostReq), List.find? (fun x => x.tag == tag.toNat) (s.port
      p.val).outstanding = some r ∧ r.dropped = false ∧ r.owner = none) ∧
    (∃ (s : State) (p : Fin 2) (tag : BitVec 14), List.find? (fun x => x.tag == tag.toNat) (s.port p.val).outstanding = none
      ∧ s.rd HEP_CNT.COUNT (8 * p.val + 1) < 2 ^ 64 - 1) ∧
    (∃ (s : State) (p : Fin 2) (tag : BitVec 14) (r : HostReq), List.find? (fun x => x.tag == tag.toNat) (s.port
      p.val).outstanding = some r ∧ r.owner = none ∧ r.silent = false ∧ s.rd HEP_CNT.COUNT (8 * p.val) < 2 ^ 64 - 1 ∧
      Listening s) ∧
    (∃ (s : State) (p : Fin 2) (tag : BitVec 14), tag.toNat ∈ (s.port p.val).quarantine) ∧
    (∃ (s : State) (p : Fin 2), s.rd HEP_CNT.COUNT (8 * p.val + 4) < 2 ^ 64 - 1) ∧
    (∃ (s : State) (p : Fin 2), s.rd HEP_CNT.COUNT (8 * p.val + 2) < 2 ^ 64 - 1) ∧
    (∃ (s : State) (p : Fin 2) (e : AerErr), rxError (s.port p.val) e = true) ∧
    (∃ (s : State) (r : Fin 64) (x : Raised) (rest : List Raised), s.events = x :: rest ∧ x.due = [r.val] ∧ s.flag
      HEP_EVR_CFG.ENABLE r.val = true ∧ evrReach s r.val = true ∧ (s.evrOf r.val).owed = 0 ∧ 1 ≤ evrRoom s r.val ∧ s.flag
      HEP_EVR_BASE.LOC r.val = true ∧ s.flag HEP_PORT_STAT.ATS_EN (s.rd HEP_EVR_CFG.PORT r.val) = false) ∧
    (∃ (s : State) (r : Fin 64) (x : Raised) (rest : List Raised), s.events = x :: rest ∧ x.due = [r.val] ∧ s.flag
      HEP_EVR_CFG.ENABLE r.val = true ∧ evrReach s r.val = true ∧ (s.evrOf r.val).owed = 0 ∧ 1 ≤ evrRoom s r.val ∧ s.flag
      HEP_EVR_BASE.LOC r.val = false ∧ s.flag HEP_EVR_WB.WB_EN r.val = false) ∧
    (∃ (s : State) (r : Fin 64) (v : Word), s.noImage = false ∧ s.flag HEP_EVR_CFG.ENABLE r.val = false ∧ 6 ≤
      HEP_EVR_CFG.LOG2SIZE.of (BitVec.toNat v) ∧ HEP_EVR_CFG.LOG2SIZE.of (BitVec.toNat v) ≤ 16 ∧ portHost s
      (HEP_EVR_CFG.PORT.of (BitVec.toNat v)) = true ∧ ringPlaced s (s.flag HEP_EVR_BASE.LOC r.val) (s.rd HEP_EVR_BASE.ADDR
      r.val * 64) (32 * 2 ^ HEP_EVR_CFG.LOG2SIZE.of (BitVec.toNat v)) = true ∧ (s.evrOf r.val).owed = 0) ∧
    (∃ (s : State) (r : Fin 64), s.noImage = false ∧ (s.evrOf r.val).owed = 0) ∧
    (∃ (s : State) (r : Fin 64), (s.evrOf r.val).held = true) ∧
    (∃ (s : State) (p : Fin 2) (v : Fin 2048), cfgOk s p.val = true ∧ portHost s p.val = true ∧ (s.port p.val).msixEn = true
      ∧ (s.port p.val).msixMask = false ∧ s.masterOn p.val = true ∧ (s.port p.val).pba = [v.val]) :=
  ⟨⟨(((hosted (listen ready))).setPort 1 { ((hosted (listen ready))).port 1 with waiting := [{ tag := 0, addr := 0x9000, len := 64, owner := none, dropped := false }] }),
     1, { tag := 0, addr := 0x9000, len := 64, owner := none, dropped := false }, [], 0, { ((hosted (listen ready))).port 1 with nextTag := 1, waiting := [{ tag := 0, addr := 0x9000, len := 64, owner := none, dropped := false }] },
     by decide +kernel⟩,
   ⟨(((hosted (listen ready))).setPort 1 { ((hosted (listen ready))).port 1 with outstanding := [{ tag := 5, addr := 0x9000, len := 64, owner := none, dropped := false }] }),
     1, 5, { tag := 5, addr := 0x9000, len := 64, owner := none, dropped := false }, by decide +kernel⟩,
   ⟨(hosted (listen ready)), 1, 5, by decide +kernel⟩,
   ⟨(((hosted (listen ready))).setPort 1 { ((hosted (listen ready))).port 1 with outstanding := [{ tag := 5, addr := 0x9000, len := 64, owner := none, dropped := false }] }),
     1, 5, { tag := 5, addr := 0x9000, len := 64, owner := none, dropped := false }, by decide +kernel⟩,
   ⟨(((hosted (listen ready))).setPort 1 { ((hosted (listen ready))).port 1 with quarantine := [5] }), 1, 5,
     by decide +kernel⟩,
   ⟨(hosted (listen ready)), 1, by decide +kernel⟩,
   ⟨(hosted (listen ready)), 1, by decide +kernel⟩,
   ⟨(hosted (listen ready)), 1, .badTlp, by decide +kernel⟩,
   ⟨{ ((hosted (listen ready))).wrs 2 [(HEP_EVR_CFG.ENABLE, 1), (HEP_EVR_CFG.LOG2SIZE, 6), (HEP_EVR_CFG.PORT, 1), (HEP_EVR_BASE.LOC, 1), (HEP_EVR_BASE.ADDR, 0x8001), (HEP_EVR_WB.WB_EN, 0)] with events := [{ event := { type := 5, source := 0x3005, glade := 0, inst := 0, status := 0, gen := 0, time := 0, payload := 0 }, due := [2] }] },
     2, { event := { type := 5, source := 0x3005, glade := 0, inst := 0, status := 0, gen := 0, time := 0, payload := 0 }, due := [2] },
     [], by decide +kernel⟩,
   ⟨{ (region ((hosted (listen ready))) 0 1).wrs 2 [(HEP_EVR_CFG.ENABLE, 1), (HEP_EVR_CFG.LOG2SIZE, 6), (HEP_EVR_CFG.PORT, 1), (HEP_EVR_BASE.LOC, 0), (HEP_EVR_BASE.ADDR, 0x8001), (HEP_EVR_WB.WB_EN, 0)] with events := [{ event := { type := 5, source := 0x3005, glade := 0, inst := 0, status := 0, gen := 0, time := 0, payload := 0 }, due := [2] }] },
     2, { event := { type := 5, source := 0x3005, glade := 0, inst := 0, status := 0, gen := 0, time := 0, payload := 0 }, due := [2] },
     [], by decide +kernel⟩,
   ⟨((hosted (listen ready))).wr HEP_EVR_BASE.LOC 2 1, 2, 1 + 2 * 6, by decide +kernel⟩,
   ⟨(hosted (listen ready)), 2, by decide +kernel⟩,
   ⟨((((hosted (listen ready))).wr HEP_EVR_CFG.VECTOR 2 3).setPort 0 { ((hosted (listen ready))).port 0 with unmasked := [3] }).setEvr 2 { held := true },
     2, by decide +kernel⟩,
   ⟨((((hosted (listen ready))).wr HEP_PORT_STAT.LINK_UP 1 1).setPort 1 { (((hosted (listen ready))).wr HEP_PORT_STAT.LINK_UP 1 1).port 1 with pba := [3] }),
     1, 3, by decide +kernel⟩⟩

/-- States and operands meet the hypotheses of each clause of `RegisterAccess`. -/
theorem witness_registerAccess :
    (∃ (s : State) (off : BitVec 26) (p : Fin 2) (v : Word) (b : Blk) (r : Reg) (i : Nat), (s.port p.val).d3hot = false ∧
      s.flag HEP_PORT_STAT.ROLE p.val = false ∧ heldUnit s off.toNat = none ∧ off.toNat % 8 = 0 ∧ msixAt off.toNat = none ∧
      ¬(32309248 ≤ off.toNat ∧ off.toNat < 32313344) ∧ blockOf off.toNat = some b ∧ bar0Reaches s b = true ∧ offsetOut s
      off.toNat = false ∧ b ≠ Blk.trl ∧ findReg off.toNat = some r ∧ r.index off.toNat = some i ∧ writeSpecial s p.val b
      r.base i (BitVec.toNat v) = none) ∧
    (∃ (off : BitVec 26) (size : BitVec 13), badFlags off.toNat size.toNat ≠ []) ∧
    (∃ (off : BitVec 26), blockOf off.toNat = none) ∧
    (∃ (s : State) (off : BitVec 26), offsetOut s off.toNat = true) ∧
    (∃ (s : State) (off : BitVec 26) (wide : Bool), offsetOut s off.toNat = true ∧ 8 ≤ (off.toNat % 65536 / if wide = true
      then 8 else 4) * if wide = true then 8 else 4) :=
  ⟨⟨ready, BitVec.ofNat 26 (FAB_PORT_MAC.MAC.addr 3), 0, 0x123456789ABC, .fab, (findReg (FAB_PORT_MAC.MAC.addr 3)).getD { name := "", base := 0, stride := 0, count := 0, sub := 0, stride2 := 0, reset := 0, fields := [] },
     3, by decide +kernel⟩,
   ⟨BitVec.ofNat 26 (FAB_PORT_MAC.MAC.addr 3), 3, by decide +kernel⟩,
   ⟨0x3FFFFF8, by decide +kernel⟩,
   ⟨ready.wr GLB_TILE_MAP.OUT_OF_SERVICE 0 2, 0x810008, by decide +kernel⟩,
   ⟨ready.wr GLB_TILE_MAP.OUT_OF_SERVICE 0 2, 0x810008, false, by decide +kernel⟩⟩

/-- States and operands meet the hypotheses of each clause of `MemoryStacks`. -/
theorem witness_memoryStacks :
    (∃ (s : State) (a : BitVec 40) (ch : Nat) (bank : Nat) (row : Nat), Reached s (cwOf a.toNat) ch bank row ∧ s.closedAt
      (cwOf a.toNat) 64 = false ∧ ch < 64 ∧ ¬cwOf a.toNat ∈ s.dram.poison) ∧
    (∃ (s : State) (a : BitVec 40) (ch : Nat) (bank : Nat) (row : Nat) (n : Fin 73), Reached s (cwOf a.toNat) ch bank row ∧
      s.closedAt (cwOf a.toNat) 64 = false ∧ ch < 64 ∧ ¬cwOf a.toNat ∈ s.dram.poison ∧ 1 ≤ n.val ∧ s.rd MEM_CE_CNT.COUNT ch <
      2 ^ 64 - 1 ∧ n.val ≤ corrCap s ch) ∧
    (∃ (s : State) (a : BitVec 40) (ch : Nat) (bank : Nat) (row : Nat) (n : Fin 73), Reached s (cwOf a.toNat) ch bank row ∧
      s.closedAt (cwOf a.toNat) 64 = false ∧ ch < 64 ∧ ¬cwOf a.toNat ∈ s.dram.poison ∧ s.rd MEM_UE_CNT.COUNT ch < 2 ^ 64 - 1 ∧
      corrCap s ch < n.val ∧ n.val ≤ detectCap s ch ∧ ringsFor s (s.gladeAt (cwOf a.toNat)) 0 ≠ []) ∧
    (∃ (s : State) (a : BitVec 40) (ch : Nat) (bank : Nat) (row : Nat) (l : List Byte), Reached s (cwOf a.toNat) ch bank row
      ∧ s.closedAt (cwOf a.toNat) 64 = false ∧ ch < 64 ∧ ¬cwOf a.toNat ∈ s.dram.poison ∧ l.length = 64 ∧ a.toNat % 64 = 0 ∧
      writeRule s a.toNat 64 = WriteRule.wait) ∧
    (∃ (s : State) (a : BitVec 40) (ch : Nat) (bank : Nat) (row : Nat) (l : List Byte), Reached s (cwOf a.toNat) ch bank row
      ∧ s.closedAt (cwOf a.toNat) 64 = false ∧ ch < 64 ∧ ¬cwOf a.toNat ∈ s.dram.poison ∧ l.length = 64 ∧ a.toNat % 64 = 0 ∧
      writeRule s a.toNat 64 ≠ WriteRule.wait) ∧
    (∃ (s : State) (a : BitVec 40) (ch : Nat) (bank : Nat) (row : Nat) (l : List Byte), Reached s (cwOf a.toNat) ch bank row
      ∧ s.closedAt (cwOf a.toNat) 64 = false ∧ ch < 64 ∧ ¬cwOf a.toNat ∈ s.dram.poison ∧ l.length < 64 ∧ a.toNat % 64 +
      l.length ≤ 64 ∧ ¬cwOf a.toNat ∈ s.dram.bad ∧ writeRule s a.toNat l.length ≠ WriteRule.wait) ∧
    (∃ (s : State) (a : BitVec 40) (ch : Nat) (bank : Nat) (row : Nat), Reached s (cwOf a.toNat) ch bank row ∧ s.closedAt
      (cwOf a.toNat) 64 = false ∧ cwOf a.toNat ∈ s.dram.poison) ∧
    (∃ (s : State) (a : BitVec 40), mapAddr s (cwOf a.toNat) = none) ∧
    (∃ (s : State) (ch : Nat) (bank : Nat) (row : Nat), Reached s (s.rd MEM_SCRUB_POS.ADDR) ch bank row ∧ s.flag
      MEM_SCRUB_CFG.ENABLE = true ∧ s.boot.warm = 0 ∧ ch < 64 ∧ s.rd MEM_SCRUB_POS.ADDR + 64 < s.top ∧ s.rd MEM_SCRUB_POS.ADDR
      + 64 < 2 ^ 40) ∧
    (∃ (s : State) (ch : Nat) (bank : Nat) (row : Nat), Reached s (s.rd MEM_SCRUB_POS.ADDR) ch bank row ∧ s.flag
      MEM_SCRUB_CFG.ENABLE = true ∧ s.boot.warm = 0 ∧ ch < 64 ∧ s.top ≤ s.rd MEM_SCRUB_POS.ADDR + 64 ∧ Listening s) ∧
    (∃ (s : State) (j : SpareJob) (rest : List SpareJob), s.dram.sparing = j :: rest ∧ j.bank < 512 ∧ s.dram.held = [] ∧
      ringsFor s (s.gladeAt j.page) 0 ≠ []) ∧
    (∃ (s : State) (b : Fin 512), b.val ∈ s.dram.faulty ∧ s.dram.held = [] ∧ Listening s) ∧
    (∃ (s : State), s.noImage = false) ∧
    (∃ (s : State) (v : Word), s.noImage = false ∧ BitVec.toNat v % 64 = s.localGib) ∧
    (∃ (s : State) (v : Word), s.noImage = false ∧ BitVec.toNat v % 64 ≠ s.localGib ∧ BitVec.toNat v % 64 ≤ 40 ∧ anyRegion s
      = false ∧ localFits s (BitVec.toNat v % 64) = true) ∧
    (∃ (s : State) (v : Word), s.noImage = false ∧ BitVec.toNat v % 64 ≠ s.localGib ∧ (40 < BitVec.toNat v % 64 ∨ anyRegion
      s = true)) ∧
    (∃ (s : State) (k : Fin 1024) (v : Word) (m : Bool), s.noImage = false ∧ s.flag MEM_RGN_A.VALID k.val = false ∧ s.rd
      MEM_RGN_B.SIZE k.val ≠ 0 ∧ 2097152 * bitsOf (BitVec.toNat v) 21 17 + 2097152 * s.rd MEM_RGN_B.SIZE k.val ≤ s.top ∧
      s.gladeExists (bitsOf (BitVec.toNat v) 8 8) = true ∧ mayTake s Pool.dram (bitsOf (BitVec.toNat v) 8 8) (s.rd
      MEM_RGN_B.SIZE k.val) = true ∧ (∀ (j : Nat), j < 1024 → s.flag MEM_RGN_A.VALID j = true → rgnBase s j + rgnLen s j ≤
      2097152 * bitsOf (BitVec.toNat v) 21 17 ∨ 2097152 * bitsOf (BitVec.toNat v) 21 17 + 2097152 * s.rd MEM_RGN_B.SIZE k.val
      ≤ rgnBase s j) ∧ (bitOf (BitVec.toNat v) 1 = false ∨ s.pair = Pair.paired ∧ m = true)) ∧
    (∃ (s : State) (k : Fin 1024), s.noImage = false ∧ s.flag MEM_RGN_A.VALID k.val = false ∧ s.rd MEM_RGN_B.SIZE k.val = 0) ∧
    (∃ (s : State) (k : Fin 1024), s.noImage = false ∧ s.flag MEM_RGN_A.VALID k.val = true ∧ s.flag FAB_SAL_RKT_CFG.ENABLE =
      false ∧ s.dram.clearing = [] ∧ s.dram.mirrorHeld = [] ∧ s.rings = [] ∧ (below 4096 fun v => s.flag STQ_VOL_A.VALID v) =
      []) :=
  ⟨⟨(listen ready).wr MEM_LAYOUT.CORR_LIMIT 0 1, 0, 0, 0, 0, by decide +kernel⟩,
   ⟨(listen ready).wr MEM_LAYOUT.CORR_LIMIT 0 1, 0, 0, 0, 0, 2, by decide +kernel⟩,
   ⟨(listen ready).wr MEM_LAYOUT.CORR_LIMIT 0 1, 0, 0, 0, 0, 4, by decide +kernel⟩,
   ⟨(listen ready).wrs 0 [(MEM_RGN_A.VALID, 1), (MEM_RGN_A.MIRROR, 1), (MEM_RGN_B.SIZE, 1), (TWN_STATUS.STATE,
     Pair.suspect)], 0, 0, 0, 0, List.replicate 64 5, by decide +kernel⟩,
   ⟨(listen ready).wr MEM_LAYOUT.CORR_LIMIT 0 1, 0, 0, 0, 0, List.replicate 64 5, by decide +kernel⟩,
   ⟨(listen ready).wr MEM_LAYOUT.CORR_LIMIT 0 1, 0, 0, 0, 0, [1, 2, 3], by decide +kernel⟩,
   ⟨inDram (listen ready) (fun x => { x with poison := [0] }), 0, 0, 0, 0, by decide +kernel⟩,
   ⟨(listen ready).wr MEM_LAYOUT.CORR_LIMIT 0 1, 0x2800000000, by decide +kernel⟩,
   ⟨(listen ready).wr MEM_LAYOUT.CORR_LIMIT 0 1, 0, 0, 0, by decide +kernel⟩,
   ⟨(listen ready).wr MEM_SCRUB_POS.ADDR 0 0x27FFFFFFC0, 63, 7, 81919, by decide +kernel⟩,
   ⟨inDram (listen ready) (fun x => { x with sparing := [{ bank := 5, row := 7, spare := 1, page := 0 }], bad := [0] }), { bank := 5, row := 7, spare := 1, page := 0 },
     [], by decide +kernel⟩,
   ⟨inDram (listen ready) (fun x => { x with faulty := [5] }), 5, by decide +kernel⟩,
   ⟨(listen ready).wr MEM_LAYOUT.CORR_LIMIT 0 1, by decide +kernel⟩,
   ⟨(listen ready).wr MEM_LAYOUT.CORR_LIMIT 0 1, 0x2800000, by decide +kernel⟩,
   ⟨(listen ready).wr MEM_LAYOUT.CORR_LIMIT 0 1, 0x1050105, by decide +kernel⟩,
   ⟨region (listen ready) 0 1, 0x1050105, by decide +kernel⟩,
   ⟨(listen ready).wrs 1023 [(MEM_RGN_B.SIZE, 2)] |>.wrs 0 [(GLD_QUOTA_A.EXISTS, 1)], 1023, 40, false, by decide +kernel⟩,
   ⟨(listen ready).wr MEM_LAYOUT.CORR_LIMIT 0 1, 1, by decide +kernel⟩,
   ⟨region (listen ready) 0 1, 1, by decide +kernel⟩⟩

/-- States and operands meet the hypotheses of each clause of `StartSequence`. -/
theorem witness_startSequence :
    (∃ (s : State), alive s = true ∧ s.rd BOOT_RESET_CAUSE.WARM_COUNT < 2 ^ BOOT_RESET_CAUSE.WARM_COUNT.width - 1) ∧
    (∃ (key : BitVec 8), key ≠ 165) ∧
    (∃ (s : State), s.boot.warm = 1 ∧ s.dram.mirrorHeld = [] ∧ s.twin.held = [] ∧ s.dram.held = []) ∧
    (∃ (s : State) (h : HeldMem) (l : List Byte), s.boot.warm = 1 ∧ s.dram.mirrorHeld = [] ∧ s.twin.held = [] ∧ s.dram.held
      = [h] ∧ h.write = some l) ∧
    (∃ (s : State), s.boot.warm = 2 ∧ s.Canonical) ∧
    (∃ (s : State), alive s = true ∧ bootState s = 0) ∧
    (∃ (s : State), alive s = true ∧ bootState s = 1) ∧
    (∃ (s : State), alive s = true ∧ bootState s = 2) ∧
    (∃ (s : State), alive s = true ∧ bootState s = 3 ∧ lySectionsOk s.boot.image = true ∧ (∀ (r : List Byte), r ∈ s.boot.log
      ++ s.boot.extra → repairRecordOk r = true)) ∧
    (∃ (s : State), alive s = true ∧ bootState s = 4) ∧
    (∃ (s : State), alive s = true ∧ bootState s = 5) :=
  ⟨⟨stage 0, by decide +kernel⟩,
   ⟨0, by decide +kernel⟩,
   ⟨inBoot (stage 6) (fun x => { x with warm := 1 }), by decide +kernel⟩,
   ⟨inDram (inBoot (stage 6) (fun x => { x with warm := 1 })) (fun x => { x with held := [{ addr := 0x40, len := 64, write := some (List.replicate 64 7) }] }),
     { addr := 0x40, len := 64, write := some (List.replicate 64 7) }, List.replicate 64 7, by decide +kernel⟩,
   ⟨holding (inBoot (stage 6) (fun x => { x with warm := 2 })) 0x1000 [1, 2, 3], by decide +kernel, by unfold State.Canonical; decide +kernel⟩,
   ⟨stage 0, by decide +kernel⟩,
   ⟨stage 1, by decide +kernel⟩,
   ⟨stage 2, by decide +kernel⟩,
   ⟨stage 3, by decide +kernel⟩,
   ⟨stage 4, by decide +kernel⟩,
   ⟨stage 5, by decide +kernel⟩⟩

/-- States and operands meet the hypotheses of each clause of `WritebackAndFirmware`. -/
theorem witness_writebackAndFirmware :
    (∃ (s : State), writebackOk s = true ∧ s.boot.writing = none ∧ s.flag BOOT_STATUS.IDENTITY_FAIL = false ∧ s.rd
      CLK_GROVE.STATE 3 ≠ 2) ∧
    (∃ (s : State), writebackOk s = false) ∧
    (∃ (s : State) (slot : Nat) (b : List Byte) (n : Nat), s.boot.writing = some (slot, b, n)) ∧
    (∃ (s : State), s.flag BOOT_FW_CMD.BUSY = false ∧ bootState s = 9) ∧
    (∃ (s : State), s.flag BOOT_FW_CMD.BUSY = false ∧ bootState s ≠ 9 ∧ bootState s ≠ 6) ∧
    (∃ (s : State), s.flag BOOT_FW_CMD.BUSY = false ∧ bootState s = 6 ∧ ¬(fwLen s % 8 = 0 ∧ 4096 ≤ fwLen s ∧ fwLen s ≤
      67108864 ∧ fwBase s + fwLen s ≤ 2 ^ 64)) ∧
    (∃ (s : State) (p : Fin 2), s.flag BOOT_FW_CMD.BUSY = false ∧ bootState s = 6 ∧ (fwLen s % 8 = 0 ∧ 4096 ≤ fwLen s ∧
      fwLen s ≤ 67108864 ∧ fwBase s + fwLen s ≤ 2 ^ 64) ∧ s.masterOn p.val = false) ∧
    (∃ (s : State) (p : Fin 2), s.flag BOOT_FW_CMD.BUSY = false ∧ bootState s = 6 ∧ (fwLen s % 8 = 0 ∧ 4096 ≤ fwLen s ∧
      fwLen s ≤ 67108864 ∧ fwBase s + fwLen s ≤ 2 ^ 64) ∧ s.masterOn p.val = true) ∧
    (∃ (s : State) (n : Nat) (p : Nat), s.fw.loading = some (n, p) ∧ s.masterOn p = true ∧ tagReady s p = false) ∧
    (∃ (s : State) (n : Nat) (p : Nat), s.fw.loading = some (n, p) ∧ (s.masterOn p = false ∨ tagReady s p = true)) ∧
    (∃ (s : State), s.fw.started = true ∧ bootState s = 7) ∧
    (∃ (s : State), s.fw.started = true ∧ bootState s = 7 ∧ s.rd CLK_CFG.HOLD ≠ 0 ∧ bitOf (leAt s.fw.running 16 8) 9 =
      false) ∧
    (∃ (s : State), s.fw.started = true ∧ bootState s = 7 ∧ (s.rd CLK_CFG.HOLD = 0 ∨ bitOf (leAt s.fw.running 16 8) 9 =
      true)) ∧
    (∃ (s : State), s.flag BOOT_FW_CMD.BUSY = false ∧ bootState s ≠ 8) ∧
    (∃ (s : State), s.flag BOOT_FW_CMD.BUSY = false ∧ bootState s = 8 ∧ anyGlade s = true) ∧
    (∃ (s : State), s.flag BOOT_FW_CMD.BUSY = false ∧ bootState s = 8 ∧ anyGlade s = false ∧ s.rd BOOT_IFVER.DEV_MAJOR ≠
      s.rd BOOT_IFVER.DRV_MAJOR) ∧
    (∃ (s : State), s.flag BOOT_FW_CMD.BUSY = false ∧ bootState s = 8 ∧ anyGlade s = false ∧ s.rd BOOT_IFVER.DEV_MAJOR =
      s.rd BOOT_IFVER.DRV_MAJOR) :=
  ⟨⟨inBoot (stage 6) (fun x => { x with image := wbImage }), by decide +kernel⟩,
   ⟨ready, by decide +kernel⟩,
   ⟨inBoot (stage 6) (fun x => { x with writing := some (1, [1, 2], 3) }), 1, [1, 2], 3, by decide +kernel⟩,
   ⟨stage 9, by decide +kernel⟩,
   ⟨ready, by decide +kernel⟩,
   ⟨stage 6, by decide +kernel⟩,
   ⟨(stage 6).wrs 0 [(BOOT_FW_LEN.LEN, 4096), (BOOT_FW_BASE.ADDR, 0)], 0, by decide +kernel⟩,
   ⟨(hosted (stage 6)).wrs 0 [(BOOT_FW_LEN.LEN, 4096), (BOOT_FW_BASE.ADDR, 0)], 0, by decide +kernel⟩,
   ⟨inFw ((((hosted (stage 7)).wr HEP_PORT_CFG.MAX_OUT 1 1).setPort 1 { (hosted (stage 7)).port 1 with outstanding := [{ tag := 1, addr := 0, len := 64, owner := none, dropped := false }] })) (fun x => { x with loading := some (4096, 1) }),
     4096, 1, by decide +kernel⟩,
   ⟨inFw (stage 7) (fun x => { x with loading := some (4096, 1) }), 4096, 1, by decide +kernel⟩,
   ⟨inFw (stage 7) (fun x => { x with started := true, running := List.replicate 64 0x55 }), by decide +kernel⟩,
   ⟨inFw ((stage 7).wr CLK_CFG.HOLD 0 1) (fun x => { x with started := true, running := List.replicate 64 0x00 }),
     by decide +kernel⟩,
   ⟨inFw (stage 7) (fun x => { x with started := true, running := List.replicate 64 0x55 }), by decide +kernel⟩,
   ⟨stage 5, by decide +kernel⟩,
   ⟨ready.wr GLD_QUOTA_A.EXISTS 3 1, by decide +kernel⟩,
   ⟨ready.wr BOOT_IFVER.DRV_MAJOR 0 7, by decide +kernel⟩,
   ⟨ready, by decide +kernel⟩⟩

/-- States and operands meet the hypotheses of each clause of `PackagePins`. -/
theorem witness_packagePins :
    (∃ (s : State), s.pins.aux = true) ∧
    (∃ (s : State), s.pins.pwr = false) ∧
    (∃ (s : State), s.pins.pwr = true) ∧
    (∃ (s : State), s.pins.sysRst = false ∧ powered s = true ∧ s.boot.warm = 0) ∧
    (∃ (s : State), s.pins.sysRst = false ∧ powered s = false) ∧
    (∃ (s : State), s.pins.sysRst = true) ∧
    (∃ (s : State) (p : Fin 2), ¬p.val ∈ s.pins.perst) ∧
    (∃ (s : State) (p : Fin 2), p.val ∈ s.pins.perst ∧ s.pins.pwr = true) ∧
    (∃ (s : State) (p : Fin 2), p.val ∈ s.pins.early ∧ 100000000 ≤ s.now) ∧
    (∃ (s : State), s.pins.pwr = true ∧ s.pins.aux = true) ∧
    (∃ (s : State), powered s = true) ∧
    (∃ (s : State) (p : Fin 2), ¬p.val ∈ s.pins.hclkLost) ∧
    (∃ (s : State) (o : Fin 4), ¬o.val ∈ s.pins.oclkLost ∧ repaired s = false) ∧
    (∃ (s : State) (o : Fin 4), ¬o.val ∈ s.pins.oclkLost ∧ repaired s = true) ∧
    (∃ (s : State) (o : Fin 4), ¬o.val ∈ s.pins.oclkLost ∧ repaired s = true ∧ s.fab.lightOwed = [] ∧ (∀ (l : Nat), l ∈
      tileLanes o.val → s.lane l ≠ 1 ∧ s.lane l ≠ 2)) ∧
    (∃ (s : State), s.pins.aux = true ∧ s.pins.pwr = true) ∧
    (∃ (s : State), (s.pins.aux = false ∨ s.pins.pwr = false)) :=
  ⟨⟨ready, by decide +kernel⟩,
   ⟨inPins (ready) (fun x => { x with pwr := false }), by decide +kernel⟩,
   ⟨ready, by decide +kernel⟩,
   ⟨ready, by decide +kernel⟩,
   ⟨inPins (ready) (fun x => { x with pwr := false }), by decide +kernel⟩,
   ⟨inPins (ready) (fun x => { x with pwr := false, sysRst := true }), by decide +kernel⟩,
   ⟨inPins (ready) (fun x => { x with perst := [] }), 0, by decide +kernel⟩,
   ⟨ready, 0, by decide +kernel⟩,
   ⟨inPins (ready.wr TLM_TIME.NS 0 100000000) (fun x => { x with early := [1] }), 1, by decide +kernel⟩,
   ⟨ready, by decide +kernel⟩,
   ⟨ready, by decide +kernel⟩,
   ⟨ready, 0, by decide +kernel⟩,
   ⟨State.reset, 0, by decide +kernel⟩,
   ⟨ready, 0, by decide +kernel⟩,
   ⟨ready, 0, by decide +kernel⟩,
   ⟨ready, by decide +kernel⟩,
   ⟨inPins (ready) (fun x => { x with pwr := false }), by decide +kernel⟩⟩

/-- States and operands meet the hypotheses of each clause of `FirmwareActivation`. -/
theorem witness_firmwareActivation :
    (∃ (s : State) (v : Word), s.noImage = false ∧ s.flag PWR_FW_STORE.ENABLE = false ∧ bitOf (BitVec.toNat v) 10 = true) ∧
    (∃ (s : State) (q : Fin 8192) (c : Cmd) (l : List Byte), AdminReady s q.val 133 c ∧ s.flag PWR_FW_STORE.ENABLE = true ∧
      s.hostOn 0 = true ∧ s.instReady 0 = true ∧ s.rd PWR_ACT.STATE = 0 ∧ leAt c.bytes 32 4 + leAt c.bytes 36 4 ≤ 67108864 ∧
      (leAt c.bytes 32 4 = 0 ∨ leAt c.bytes 32 4 = s.fw.next ∧ s.fw.short = false) ∧ (s.putMem (fwStoreBase s + leAt c.bytes
      32 4) (bytesAt l 0 (leAt c.bytes 36 4))).snd = false) ∧
    (∃ (s : State) (q : Fin 8192) (c : Cmd), AdminReady s q.val 134 c ∧ fetchPaused s = true) ∧
    (∃ (s : State) (q : Fin 8192) (c : Cmd), AdminReady s q.val 134 c ∧ fetchPaused s = false ∧ s.fw.commit = none) ∧
    (∃ (s : State) (qid : Nat) (e : Nat) (a : Nat), s.fw.commit = some (qid, e, a) ∧ s.rd PWR_ACT.STATE = 0) ∧
    (∃ (s : State), s.rd PWR_ACT.STATE = 2 ∧ controlLevel s < 2) ∧
    (∃ (s : State), s.rd PWR_ACT.STATE = 3 ∧ storageDrained s = true) ∧
    (∃ (s : State), s.rd PWR_ACT.STATE = 4) ∧
    (∃ (s : State), s.rd PWR_ACT.STATE = 4 ∧ s.rd PWR_CNT.COUNT 5 < 2 ^ 64 - 1) ∧
    (∃ (s : State), s.sec.heldStarts = [] ∧ s.fw.commit = none ∧ (∀ (ri : Nat), ri < 32 → ringLive s ri = false) ∧ s.rd
      PWR_ACT.STATE = 5 ∧ s.rd PWR_CNT.COUNT 4 < 2 ^ 64 - 1) ∧
    (∃ (s : State), s.sec.heldStarts = [] ∧ s.fw.commit = none ∧ (∀ (ri : Nat), ri < 32 → ringLive s ri = false) ∧ s.rd
      PWR_ACT.STATE = 6) :=
  ⟨⟨region ready 0 32, 0x401, by decide +kernel⟩,
   ⟨stored (hosted ((region ready 0 32).wrs 0 [(PWR_FW_STORE.REGION, 1), (PWR_FW_STORE.ENABLE, 1)])) (cmd [(0, 1, 0x85),
     (32, 4, 0), (36, 4, 8)]) {} { kind := true, host := true }, 3, cmd [(0, 1, 0x85), (32, 4, 0), (36, 4, 8)], [1, 2, 3, 4,
     5, 6, 7, 8], by decide +kernel⟩,
   ⟨stored (ready.wr PWR_ACT.STATE 0 4) (cmd [(0, 1, 0x86), (24, 1, 1)]) {} { kind := true, host := true }, 3, cmd [(0, 1,
     0x86), (24, 1, 1)], by decide +kernel⟩,
   ⟨stored ready (cmd [(0, 1, 0x86), (24, 1, 1)]) {} { kind := true, host := true }, 3, cmd [(0, 1, 0x86), (24, 1, 1)],
     by decide +kernel⟩,
   ⟨inFw (stored ((region ready 0 32).wrs 0 [(PWR_FW_STORE.REGION, 1), (PWR_FW_STORE.ENABLE, 1)]) (cmd [(0, 1, 0x86), (24,
     1, 1)]) {} { kind := true, host := true }) (fun x => { x with commit := some (stqQid 3, 0, 0), next := 4096 }), stqQid 3,
     0, 0, by decide +kernel⟩,
   ⟨ready.wr PWR_ACT.STATE 0 2, by decide +kernel⟩,
   ⟨ready.wr PWR_ACT.STATE 0 3, by decide +kernel⟩,
   ⟨stored (ready.wr PWR_ACT.STATE 0 4) (cmd [(0, 1, 0x86), (24, 1, 1)]) {} { kind := true, host := true },
     by decide +kernel⟩,
   ⟨stored (ready.wr PWR_ACT.STATE 0 4) (cmd [(0, 1, 0x86), (24, 1, 1)]) {} { kind := true, host := true },
     by decide +kernel⟩,
   ⟨ready.wr PWR_ACT.STATE 0 5, by decide +kernel⟩,
   ⟨ready.wr PWR_ACT.STATE 0 6, by decide +kernel⟩⟩

/-- States and operands meet the hypotheses of each clause of `ThermalAndPower`. -/
theorem witness_thermalAndPower :
    (∃ (s : State) (i : Fin 16), s.rd PWR_ACT.STATE ≠ 3 ∧ s.flag PWR_SENSOR.FAULT i.val = false) ∧
    (∃ (s : State) (l : List (BitVec 12)), s.rd PWR_ACT.STATE ≠ 3 ∧ l.length = 16 ∧ (∀ (i : Nat), i < 16 → s.flag
      PWR_SENSOR.FAULT i = false) ∧ s.rd PWR_STATUS.LEVEL ≠ 0 ∧ (∀ (x : BitVec 12), x ∈ l → x.toNat < leaveAt s (s.rd
      PWR_STATUS.LEVEL))) ∧
    (∃ (s : State) (i : Fin 16), s.rd PWR_ACT.STATE ≠ 3 ∧ s.flag PWR_SENSOR.FAULT i.val = false ∧ Listening s) ∧
    (∃ (s : State), s.rd PWR_ACT.STATE ≠ 3 ∧ hwCaps s = (16, 16, 16) ∧ s.flag PWR_STATUS.HW_LIMIT = false) ∧
    (∃ (s : State), s.rd PWR_ACT.STATE ≠ 3 ∧ s.flag PWR_CLK.LOOP = true) ∧
    (∃ (s : State), s.rd PWR_ACT.STATE ≠ 3 ∧ s.noImage = false ∧ fetchPaused s = false) ∧
    (∃ (s : State), s.rd PWR_ACT.STATE ≠ 3 ∧ s.noImage = false ∧ fetchPaused s = true) ∧
    (∃ (s : State) (v : Word), s.rd PWR_ACT.STATE ≠ 3 ∧ s.noImage = false ∧ (s.flag PWR_LOCK.LOCKED = false ∧ BitVec.toNat v
      % 256 ≤ leAt (powerSection s) 8 1 ∧ bitsOf (BitVec.toNat v) 8 8 ≤ leAt (powerSection s) 9 1 ∧ bitsOf (BitVec.toNat v) 16
      8 ≤ leAt (powerSection s) 10 1 ∧ BitVec.toNat v % 256 + 3 ≤ bitsOf (BitVec.toNat v) 8 8 ∧ bitsOf (BitVec.toNat v) 8 8 +
      3 ≤ bitsOf (BitVec.toNat v) 16 8 ∧ 1 ≤ bitsOf (BitVec.toNat v) 24 4 ∧ bitsOf (BitVec.toNat v) 24 4 ≤ 10)) ∧
    (∃ (s : State) (v : Word), s.rd PWR_ACT.STATE ≠ 3 ∧ s.noImage = false ∧ ¬(s.flag PWR_LOCK.LOCKED = false ∧ BitVec.toNat
      v % 256 ≤ leAt (powerSection s) 8 1 ∧ bitsOf (BitVec.toNat v) 8 8 ≤ leAt (powerSection s) 9 1 ∧ bitsOf (BitVec.toNat v)
      16 8 ≤ leAt (powerSection s) 10 1 ∧ BitVec.toNat v % 256 + 3 ≤ bitsOf (BitVec.toNat v) 8 8 ∧ bitsOf (BitVec.toNat v) 8 8
      + 3 ≤ bitsOf (BitVec.toNat v) 16 8 ∧ 1 ≤ bitsOf (BitVec.toNat v) 24 4 ∧ bitsOf (BitVec.toNat v) 24 4 ≤ 10)) ∧
    (∃ (s : State), s.rd PWR_ACT.STATE ≠ 3 ∧ s.noImage = false) :=
  ⟨⟨((stage 8).wrs 0 [(PWR_THERM_CFG.WARN_C, 90), (PWR_THERM_CFG.THROTTLE_C, 95), (PWR_THERM_CFG.EMERG_C, 100),
     (PWR_STATUS.LEVEL, 2)]), 0, by decide +kernel⟩,
   ⟨((stage 8).wrs 0 [(PWR_THERM_CFG.WARN_C, 90), (PWR_THERM_CFG.THROTTLE_C, 95), (PWR_THERM_CFG.EMERG_C, 100),
     (PWR_STATUS.LEVEL, 2)]), List.replicate 16 600, by decide +kernel⟩,
   ⟨listen ((stage 8).wrs 0 [(PWR_THERM_CFG.WARN_C, 90), (PWR_THERM_CFG.THROTTLE_C, 95), (PWR_THERM_CFG.EMERG_C, 100),
     (PWR_THERM_CFG.HYST_C, 5), (PWR_HW_CFG.HW_LIMIT_W, 400), (PWR_HW_CFG.HW_WINDOW_US, 20), (PWR_CLK.TILE_REQ, 16),
     (PWR_CLK.CORE_REQ, 3), (PWR_CLK.DRAM_REQ, 16)]), 0, by decide +kernel⟩,
   ⟨((stage 8).wrs 0 [(PWR_THERM_CFG.WARN_C, 90), (PWR_THERM_CFG.THROTTLE_C, 95), (PWR_THERM_CFG.EMERG_C, 100),
     (PWR_THERM_CFG.HYST_C, 5), (PWR_HW_CFG.HW_LIMIT_W, 400), (PWR_HW_CFG.HW_WINDOW_US, 20), (PWR_CLK.TILE_REQ, 16),
     (PWR_CLK.CORE_REQ, 3), (PWR_CLK.DRAM_REQ, 16)]), by decide +kernel⟩,
   ⟨((stage 8).wrs 0 [(PWR_THERM_CFG.WARN_C, 90), (PWR_THERM_CFG.THROTTLE_C, 95), (PWR_THERM_CFG.EMERG_C, 100),
     (PWR_THERM_CFG.HYST_C, 5), (PWR_HW_CFG.HW_LIMIT_W, 400), (PWR_HW_CFG.HW_WINDOW_US, 20), (PWR_CLK.TILE_REQ, 16),
     (PWR_CLK.CORE_REQ, 3), (PWR_CLK.DRAM_REQ, 16)]).wr PWR_CLK.LOOP 0 1, by decide +kernel⟩,
   ⟨((stage 8).wrs 0 [(PWR_THERM_CFG.WARN_C, 90), (PWR_THERM_CFG.THROTTLE_C, 95), (PWR_THERM_CFG.EMERG_C, 100),
     (PWR_STATUS.LEVEL, 2)]), by decide +kernel⟩,
   ⟨((stage 8).wrs 0 [(PWR_THERM_CFG.WARN_C, 90), (PWR_THERM_CFG.THROTTLE_C, 95), (PWR_THERM_CFG.EMERG_C, 100),
     (PWR_THERM_CFG.HYST_C, 5), (PWR_HW_CFG.HW_LIMIT_W, 400), (PWR_HW_CFG.HW_WINDOW_US, 20), (PWR_CLK.TILE_REQ, 16),
     (PWR_CLK.CORE_REQ, 3), (PWR_CLK.DRAM_REQ, 16)]).wr PWR_ACT.STATE 0 4, by decide +kernel⟩,
   ⟨inBoot (((stage 8).wrs 0 [(PWR_THERM_CFG.WARN_C, 90), (PWR_THERM_CFG.THROTTLE_C, 95), (PWR_THERM_CFG.EMERG_C, 100),
     (PWR_THERM_CFG.HYST_C, 5), (PWR_HW_CFG.HW_LIMIT_W, 400), (PWR_HW_CFG.HW_WINDOW_US, 20), (PWR_CLK.TILE_REQ, 16),
     (PWR_CLK.CORE_REQ, 3), (PWR_CLK.DRAM_REQ, 16)])) (fun x => { x with image := pwrImage }), 85 + 256 * 90 + 65536 * 95 + 2 ^ 24 * 5,
     by decide +kernel⟩,
   ⟨((stage 8).wrs 0 [(PWR_THERM_CFG.WARN_C, 90), (PWR_THERM_CFG.THROTTLE_C, 95), (PWR_THERM_CFG.EMERG_C, 100),
     (PWR_STATUS.LEVEL, 2)]), 200 + 2 ^ 16 * 80, by decide +kernel⟩,
   ⟨((stage 8).wrs 0 [(PWR_THERM_CFG.WARN_C, 90), (PWR_THERM_CFG.THROTTLE_C, 95), (PWR_THERM_CFG.EMERG_C, 100),
     (PWR_STATUS.LEVEL, 2)]), by decide +kernel⟩⟩

/-- States and operands meet the hypotheses of each clause of `OffloadPrograms`. -/
theorem witness_offloadPrograms :
    (∃ (s : State) (slot : Fin 64) (st : Nat), s.noImage = false ∧ controlFetch s = true ∧ s.flag CPU_OFL_CMD.BUSY = false ∧
      oflRefusal s slot.val = some st) ∧
    (∃ (s : State) (slot : Fin 64), s.noImage = false ∧ controlFetch s = true ∧ s.flag CPU_OFL_CMD.BUSY = false ∧ oflRefusal
      s slot.val = none) ∧
    (∃ (s : State) (slot : Fin 64), s.noImage = false ∧ controlFetch s = true ∧ s.flag CPU_OFL_CMD.BUSY = false ∧ s.cpu.ofl
      = some (1, slot.val)) ∧
    (∃ (s : State) (slot : Fin 64), s.noImage = false ∧ controlFetch s = true ∧ s.flag CPU_OFL_CMD.BUSY = false ∧ (slotState
      s slot.val = 1 ∨ slotState s slot.val = 3)) ∧
    (∃ (s : State) (slot : Fin 64), s.noImage = false ∧ controlFetch s = true ∧ s.flag CPU_OFL_CMD.BUSY = false ∧ slotState
      s slot.val = 0) ∧
    (∃ (s : State) (slot : Fin 64), s.noImage = false ∧ controlFetch s = true ∧ s.flag CPU_OFL_CMD.BUSY = false ∧ slotState
      s slot.val = 2) ∧
    (∃ (s : State) (slot : Fin 64), s.noImage = false ∧ controlFetch s = true ∧ s.flag CPU_OFL_CMD.BUSY = false ∧ s.cpu.ofl
      = some (3, slot.val) ∧ slotState s slot.val = 2) ∧
    (∃ (s : State) (k : Fin 256), s.noImage = false ∧ controlFetch s = true ∧ s.flag CPU_OFL_CMD.BUSY = false ∧ firmwareCore
      k.val = true ∧ coreWorks s k.val = true ∧ (s.debugOf k.val).halted = false ∧ 10000000 + (s.core k.val).wdog ≤ s.now ∧
      s.queues = [] ∧ s.rd PWR_ACT.STATE ≠ 4 ∧ s.rd CPU_CNT.COUNT < 2 ^ 64 - 1 ∧ (List.filter (fun x => decide (s.now <
      1000000000 + x)) (s.core k.val).soft).length < 2) :=
  ⟨⟨ready, 0, 3, by decide +kernel⟩,
   ⟨((holding (region ready 0 1) 0x200000 (toLe 4 0x50464F46 ++ toLe 2 1 ++ toLe 2 0 ++ toLe 4 0 ++ toLe 4 64 ++ List.replicate 48 0 ++ List.replicate 64 9)).wrs 0 [(CPU_OFL_A.CORES,
     2), (CPU_OFL_A.CLUSTER_MASK, 1), (CPU_OFL_B.ADDR, 0x200000), (CPU_OFL_B.LEN, 128), (BOOT_FEAT_AGREED.FEATURES, 0x100),
     (GLD_QUOTA_A.EXISTS, 1)] |> fun s => (s.wrs (coreEntry 5) [(CPU_CORE.ROLE, 1)] |>.wrs (coreEntry 6) [(CPU_CORE.ROLE, 1)] |>.wrs (coreEntry 9) [(CPU_CORE.ROLE,
     1)])), 0, by decide +kernel⟩,
   ⟨inCpu (ready) (fun x => { x with ofl := some (1, 0) }), 0, by decide +kernel⟩,
   ⟨(ready.wr CPU_OFL_A.STATE 0 1 |>.wrs (coreEntry 5) [(CPU_CORE.ROLE, 2), (CPU_CORE.SLOT, 0)] |>.wrs (coreEntry 200) [(CPU_CORE.ROLE,
     2), (CPU_CORE.SLOT, 0)]), 0, by decide +kernel⟩,
   ⟨ready, 0, by decide +kernel⟩,
   ⟨inCpu (ready.wr CPU_OFL_A.STATE 0 2) (fun x => { x with ofl := some (3, 0) }), 0, by decide +kernel⟩,
   ⟨inCpu (ready.wr CPU_OFL_A.STATE 0 2) (fun x => { x with ofl := some (3, 0) }), 0, by decide +kernel⟩,
   ⟨inCpu (ready.wr TLM_TIME.NS 0 10000001) (fun x => { x with mgmtOn := true }), 0, by decide +kernel⟩⟩

/-- States and operands meet the hypotheses of each clause of `CrossingsAndGroves`. -/
theorem witness_crossingsAndGroves :
    (∃ (s : State) (far : Fin 115) (cl : Fin 4), classHolds s cl.val = false ∧ Listening s ∧ s.rd CLK_XTO_CNT.COUNT far.val
      < 2 ^ 64 - 1 ∧ groveState s far.val = 0 ∧ (far.val = 2 ∨ far.val = 3 ∨ far.val = 5)) ∧
    (∃ (s : State) (far : Fin 115) (cl : Fin 4), classHolds s cl.val = false ∧ Listening s ∧ s.rd CLK_XTO_CNT.COUNT far.val
      < 2 ^ 64 - 1 ∧ groveState s far.val = 2) ∧
    (∃ (s : State) (far : Fin 115) (cl : Fin 4), classHolds s cl.val = true ∧ groveState s far.val = 0 ∧ s.flag
      CLK_GROVE.HOLDING far.val = false ∧ Listening s) ∧
    (∃ (s : State) (far : Fin 115) (cl : Fin 4), classHolds s cl.val = true ∧ groveState s far.val = 0 ∧ s.flag
      CLK_GROVE.HOLDING far.val = true) ∧
    (∃ (s : State) (g : Fin 115), groveMoving s g.val = true) ∧
    (∃ (s : State) (g : Fin 115), groveMoving s g.val = false ∧ groveState s g.val = 0 ∧ (g.val = 4 ∨ g.val = 5 ∨ 17 ≤ g.val
      ∧ g.val < 25 ∨ 45 ≤ g.val ∧ g.val < 49 ∨ 57 ≤ g.val ∧ g.val < 61 ∨ 83 ≤ g.val)) ∧
    (∃ (s : State) (g : Fin 115), groveState s g.val = 1 ∧ Listening s ∧ groveOptics g.val = [] ∧ s.boot.heldRegs = []) ∧
    (∃ (s : State), s.noImage = false) ∧
    (∃ (s : State), s.boot.log.length < logMax) ∧
    (∃ (s : State) (k : Fin 256), coreRuns s k.val = true ∧ (s.core k.val).tip = false) ∧
    (∃ (unit : BitVec 16), unit.toNat / 4096 ≠ 3 ∧ unit.toNat / 4096 ≠ 4) :=
  ⟨⟨listen ready, 2, 0, by decide +kernel⟩,
   ⟨(listen ready).wr CLK_GROVE.STATE 5 2, 5, 0, by decide +kernel⟩,
   ⟨(listen ready).wr CLK_CFG.HOLD 0 15, 2, 0, by decide +kernel⟩,
   ⟨((listen ready).wr CLK_CFG.HOLD 0 15).wr CLK_GROVE.HOLDING 5 1, 5, 0, by decide +kernel⟩,
   ⟨inBoot ((listen ready)) (fun x => { x with moving := [0, 1, 2, 3, 4, 5, 6, 7] }), 26, by decide +kernel⟩,
   ⟨listen ready, 5, by decide +kernel⟩,
   ⟨(listen ready).wr CLK_GROVE.STATE 26 1, 26, by decide +kernel⟩,
   ⟨listen ready, by decide +kernel⟩,
   ⟨listen ready, by decide +kernel⟩,
   ⟨fern 0 0 0, 5, by decide +kernel⟩,
   ⟨0x5003, by decide +kernel⟩⟩

/-- States and operands meet the hypotheses of each clause of `FernArithmetic`. -/
theorem witness_fernArithmetic :
    (∃ (s : State) (k : Fin 257) (i : FernIns), fernNext s k.val FernOp.add = some i) ∧
    (∃ (s : State) (k : Fin 257) (i : FernIns), fernNext s k.val FernOp.sub = some i) ∧
    (∃ (s : State) (k : Fin 257) (i : FernIns), fernNext s k.val FernOp.land = some i) ∧
    (∃ (s : State) (k : Fin 257) (i : FernIns), fernNext s k.val FernOp.lor = some i) ∧
    (∃ (s : State) (k : Fin 257) (i : FernIns), fernNext s k.val FernOp.lxor = some i) ∧
    (∃ (s : State) (k : Fin 257) (i : FernIns), fernNext s k.val FernOp.sll = some i) ∧
    (∃ (s : State) (k : Fin 257) (i : FernIns), fernNext s k.val FernOp.srl = some i) ∧
    (∃ (s : State) (k : Fin 257) (i : FernIns), fernNext s k.val FernOp.sra = some i) ∧
    (∃ (s : State) (k : Fin 257) (i : FernIns), fernNext s k.val FernOp.slt = some i) ∧
    (∃ (s : State) (k : Fin 257) (i : FernIns), fernNext s k.val FernOp.sltu = some i) ∧
    (∃ (s : State) (k : Fin 257) (i : FernIns), fernNext s k.val FernOp.mul = some i) ∧
    (∃ (s : State) (k : Fin 257) (i : FernIns), fernNext s k.val FernOp.mulh = some i) ∧
    (∃ (s : State) (k : Fin 257) (i : FernIns), fernNext s k.val FernOp.mulhu = some i) ∧
    (∃ (s : State) (k : Fin 257) (i : FernIns), fernNext s k.val FernOp.div = some i) ∧
    (∃ (s : State) (k : Fin 257) (i : FernIns), fernNext s k.val FernOp.divu = some i) ∧
    (∃ (s : State) (k : Fin 257) (i : FernIns), fernNext s k.val FernOp.rem = some i) ∧
    (∃ (s : State) (k : Fin 257) (i : FernIns), fernNext s k.val FernOp.remu = some i) ∧
    (∃ (s : State) (k : Fin 257) (i : FernIns), fernNext s k.val FernOp.addi = some i) ∧
    (∃ (s : State) (k : Fin 257) (i : FernIns), fernNext s k.val FernOp.andi = some i) ∧
    (∃ (s : State) (k : Fin 257) (i : FernIns), fernNext s k.val FernOp.ori = some i) ∧
    (∃ (s : State) (k : Fin 257) (i : FernIns), fernNext s k.val FernOp.xori = some i) ∧
    (∃ (s : State) (k : Fin 257) (i : FernIns), fernNext s k.val FernOp.slti = some i) ∧
    (∃ (s : State) (k : Fin 257) (i : FernIns), fernNext s k.val FernOp.slli = some i) ∧
    (∃ (s : State) (k : Fin 257) (i : FernIns), fernNext s k.val FernOp.srli = some i) ∧
    (∃ (s : State) (k : Fin 257) (i : FernIns), fernNext s k.val FernOp.srai = some i) ∧
    (∃ (s : State) (k : Fin 257) (i : FernIns), fernNext s k.val FernOp.lui = some i) ∧
    (∃ (s : State) (k : Fin 257) (i : FernIns), fernNext s k.val FernOp.auipc = some i) ∧
    (∃ (s : State) (k : Fin 257) (i : FernIns), fernNext s k.val FernOp.cAddi = some i) ∧
    (∃ (s : State) (k : Fin 257) (i : FernIns), fernNext s k.val FernOp.cLi = some i) ∧
    (∃ (s : State) (k : Fin 257) (i : FernIns), fernNext s k.val FernOp.cAlu = some i) :=
  ⟨⟨fern (rw 1 0) 4294967295 1, 5, ri .add, by decide +kernel⟩,
   ⟨fern (rw 1 1) 4294967295 1, 5, ri .sub, by decide +kernel⟩,
   ⟨fern (rw 1 2) 4294967295 1, 5, ri .land, by decide +kernel⟩,
   ⟨fern (rw 1 3) 4294967295 1, 5, ri .lor, by decide +kernel⟩,
   ⟨fern (rw 1 4) 4294967295 1, 5, ri .lxor, by decide +kernel⟩,
   ⟨fern (rw 1 5) 4294967295 1, 5, ri .sll, by decide +kernel⟩,
   ⟨fern (rw 1 6) 4294967295 1, 5, ri .srl, by decide +kernel⟩,
   ⟨fern (rw 1 7) 4294967295 1, 5, ri .sra, by decide +kernel⟩,
   ⟨fern (rw 1 8) 4294967295 1, 5, ri .slt, by decide +kernel⟩,
   ⟨fern (rw 1 9) 4294967295 1, 5, ri .sltu, by decide +kernel⟩,
   ⟨fern (rw 1 16) 4294967295 1, 5, ri .mul, by decide +kernel⟩,
   ⟨fern (rw 1 17) 4294967295 1, 5, ri .mulh, by decide +kernel⟩,
   ⟨fern (rw 1 18) 4294967295 1, 5, ri .mulhu, by decide +kernel⟩,
   ⟨fern (rw 1 24) 4294967295 1, 5, ri .div, by decide +kernel⟩,
   ⟨fern (rw 1 25) 4294967295 1, 5, ri .divu, by decide +kernel⟩,
   ⟨fern (rw 1 26) 4294967295 1, 5, ri .rem, by decide +kernel⟩,
   ⟨fern (rw 1 27) 4294967295 1, 5, ri .remu, by decide +kernel⟩,
   ⟨fern (iw 2 16383) 0xfffffff0 9, 5, ii .addi (-1), by decide +kernel⟩,
   ⟨fern (iw 3 16383) 0xfffffff0 9, 5, ii .andi 16383, by decide +kernel⟩,
   ⟨fern (iw 4 16383) 0xfffffff0 9, 5, ii .ori 16383, by decide +kernel⟩,
   ⟨fern (iw 5 16383) 0xfffffff0 9, 5, ii .xori 16383, by decide +kernel⟩,
   ⟨fern (iw 6 16383) 0xfffffff0 9, 5, ii .slti (-1), by decide +kernel⟩,
   ⟨fern (rw 7 0) 0x80000001 9, 5, ri .slli, by decide +kernel⟩,
   ⟨fern (rw 7 1) 0x80000001 9, 5, ri .srli, by decide +kernel⟩,
   ⟨fern (rw 7 2) 0x80000001 9, 5, ri .srai, by decide +kernel⟩,
   ⟨fern (8 * 8 + 2 ^ 8 * 3 + 2 ^ 13 * 524287) 1 9, 5, { op := .lui, rd := 3, imm := (-1) }, by decide +kernel⟩,
   ⟨fern (8 * 9 + 2 ^ 8 * 3 + 2 ^ 13 * 524287) 1 9, 5, { op := .auipc, rd := 3, imm := (-1) }, by decide +kernel⟩,
   ⟨fern (0xFFC9) 0 0 (fun c => (c.setGpr 9 0xfffffff0).setGpr 10 33), 5, { op := .cAddi, rd := 9, rs1 := 9, imm := -1, len := 2 },
     by decide +kernel⟩,
   ⟨fern (7 + 8 * 1 + 64 * 1023) 0 0 (fun c => (c.setGpr 9 0xfffffff0).setGpr 10 33), 5, { op := .cLi, rd := 9, imm := -1, len := 2 },
     by decide +kernel⟩,
   ⟨fern (4 + 8 * 1 + 64 * 2 + 512 * 0) 0 0 (fun c => (c.setGpr 9 0xfffffff0).setGpr 10 33), 5, { op := .cAlu, rd := 9, rs1 := 9, rs2 := 10, len := 2, sel := 0 },
     by decide +kernel⟩⟩

/-- States and operands meet the hypotheses of each clause of `FernMemory`. -/
theorem witness_fernMemory :
    (∃ (s : State) (k : Fin 257) (i : FernIns) (p : Place) (v : Nat) (u : State), fernNext s k.val FernOp.lb = some i ∧
      (BitVec.ofNat 32 (s.gpr k.val i.rs1) + BitVec.ofInt 32 i.imm).toNat % 1 = 0 ∧ place s k.val (BitVec.ofNat 32 (s.gpr
      k.val i.rs1) + BitVec.ofInt 32 i.imm).toNat 1 false = some p ∧ readPlace s k.val p 1 = some (v, u)) ∧
    (∃ (s : State) (k : Fin 257) (i : FernIns), fernNext s k.val FernOp.lb = some i ∧ (BitVec.ofNat 32 (s.gpr k.val i.rs1) +
      BitVec.ofInt 32 i.imm).toNat % 1 = 0 ∧ (s.core k.val).tip = false ∧ place s k.val (BitVec.ofNat 32 (s.gpr k.val i.rs1) +
      BitVec.ofInt 32 i.imm).toNat 1 false = none) ∧
    (∃ (s : State) (k : Fin 257) (i : FernIns) (p : Place) (v : Nat) (u : State), fernNext s k.val FernOp.lbu = some i ∧
      (BitVec.ofNat 32 (s.gpr k.val i.rs1) + BitVec.ofInt 32 i.imm).toNat % 1 = 0 ∧ place s k.val (BitVec.ofNat 32 (s.gpr
      k.val i.rs1) + BitVec.ofInt 32 i.imm).toNat 1 false = some p ∧ readPlace s k.val p 1 = some (v, u)) ∧
    (∃ (s : State) (k : Fin 257) (i : FernIns), fernNext s k.val FernOp.lbu = some i ∧ (BitVec.ofNat 32 (s.gpr k.val i.rs1)
      + BitVec.ofInt 32 i.imm).toNat % 1 = 0 ∧ (s.core k.val).tip = false ∧ place s k.val (BitVec.ofNat 32 (s.gpr k.val i.rs1)
      + BitVec.ofInt 32 i.imm).toNat 1 false = none) ∧
    (∃ (s : State) (k : Fin 257) (i : FernIns) (p : Place) (v : Nat) (u : State), fernNext s k.val FernOp.lh = some i ∧
      (BitVec.ofNat 32 (s.gpr k.val i.rs1) + BitVec.ofInt 32 i.imm).toNat % 2 = 0 ∧ place s k.val (BitVec.ofNat 32 (s.gpr
      k.val i.rs1) + BitVec.ofInt 32 i.imm).toNat 2 false = some p ∧ readPlace s k.val p 2 = some (v, u)) ∧
    (∃ (s : State) (k : Fin 257) (i : FernIns), fernNext s k.val FernOp.lh = some i ∧ (BitVec.ofNat 32 (s.gpr k.val i.rs1) +
      BitVec.ofInt 32 i.imm).toNat % 2 = 0 ∧ (s.core k.val).tip = false ∧ place s k.val (BitVec.ofNat 32 (s.gpr k.val i.rs1) +
      BitVec.ofInt 32 i.imm).toNat 2 false = none) ∧
    (∃ (s : State) (k : Fin 257) (i : FernIns) (p : Place) (v : Nat) (u : State), fernNext s k.val FernOp.lhu = some i ∧
      (BitVec.ofNat 32 (s.gpr k.val i.rs1) + BitVec.ofInt 32 i.imm).toNat % 2 = 0 ∧ place s k.val (BitVec.ofNat 32 (s.gpr
      k.val i.rs1) + BitVec.ofInt 32 i.imm).toNat 2 false = some p ∧ readPlace s k.val p 2 = some (v, u)) ∧
    (∃ (s : State) (k : Fin 257) (i : FernIns), fernNext s k.val FernOp.lhu = some i ∧ (BitVec.ofNat 32 (s.gpr k.val i.rs1)
      + BitVec.ofInt 32 i.imm).toNat % 2 = 0 ∧ (s.core k.val).tip = false ∧ place s k.val (BitVec.ofNat 32 (s.gpr k.val i.rs1)
      + BitVec.ofInt 32 i.imm).toNat 2 false = none) ∧
    (∃ (s : State) (k : Fin 257) (i : FernIns) (p : Place) (v : Nat) (u : State), fernNext s k.val FernOp.lw = some i ∧
      (BitVec.ofNat 32 (s.gpr k.val i.rs1) + BitVec.ofInt 32 i.imm).toNat % 4 = 0 ∧ place s k.val (BitVec.ofNat 32 (s.gpr
      k.val i.rs1) + BitVec.ofInt 32 i.imm).toNat 4 false = some p ∧ readPlace s k.val p 4 = some (v, u)) ∧
    (∃ (s : State) (k : Fin 257) (i : FernIns), fernNext s k.val FernOp.lw = some i ∧ (BitVec.ofNat 32 (s.gpr k.val i.rs1) +
      BitVec.ofInt 32 i.imm).toNat % 4 = 0 ∧ (s.core k.val).tip = false ∧ place s k.val (BitVec.ofNat 32 (s.gpr k.val i.rs1) +
      BitVec.ofInt 32 i.imm).toNat 4 false = none) ∧
    (∃ (s : State) (k : Fin 257) (i : FernIns) (p : Place) (v : Nat) (u : State), fernNext s k.val FernOp.cLw = some i ∧
      (BitVec.ofNat 32 (s.gpr k.val i.rs1) + BitVec.ofInt 32 i.imm).toNat % 4 = 0 ∧ place s k.val (BitVec.ofNat 32 (s.gpr
      k.val i.rs1) + BitVec.ofInt 32 i.imm).toNat 4 false = some p ∧ readPlace s k.val p 4 = some (v, u)) ∧
    (∃ (s : State) (k : Fin 257) (i : FernIns), fernNext s k.val FernOp.cLw = some i ∧ (BitVec.ofNat 32 (s.gpr k.val i.rs1)
      + BitVec.ofInt 32 i.imm).toNat % 4 = 0 ∧ (s.core k.val).tip = false ∧ place s k.val (BitVec.ofNat 32 (s.gpr k.val i.rs1)
      + BitVec.ofInt 32 i.imm).toNat 4 false = none) ∧
    (∃ (s : State) (k : Fin 257) (i : FernIns) (p : Place), fernNext s k.val FernOp.sb = some i ∧ (BitVec.ofNat 32 (s.gpr
      k.val i.rs1) + BitVec.ofInt 32 i.imm).toNat % 1 = 0 ∧ place s k.val (BitVec.ofNat 32 (s.gpr k.val i.rs1) + BitVec.ofInt
      32 i.imm).toNat 1 true = some p ∧ (∀ (x : Nat), p = Place.device x → inRegSpace x 1 = false) ∧ (writePlace s k.val p 1
      (s.gpr k.val i.rs2)).snd = false ∧ NoneHeld s (writePlace s k.val p 1 (s.gpr k.val i.rs2)).fst) ∧
    (∃ (s : State) (k : Fin 257) (i : FernIns) (off : Nat), fernNext s k.val FernOp.sb = some i ∧ (BitVec.ofNat 32 (s.gpr
      k.val i.rs1) + BitVec.ofInt 32 i.imm).toNat % 1 = 0 ∧ place s k.val (BitVec.ofNat 32 (s.gpr k.val i.rs1) + BitVec.ofInt
      32 i.imm).toNat 1 true = some (Place.own off)) ∧
    (∃ (s : State) (k : Fin 257) (i : FernIns), fernNext s k.val FernOp.sb = some i ∧ (BitVec.ofNat 32 (s.gpr k.val i.rs1) +
      BitVec.ofInt 32 i.imm).toNat % 1 = 0 ∧ (s.core k.val).tip = false ∧ place s k.val (BitVec.ofNat 32 (s.gpr k.val i.rs1) +
      BitVec.ofInt 32 i.imm).toNat 1 true = none) ∧
    (∃ (s : State) (k : Fin 257) (i : FernIns) (p : Place), fernNext s k.val FernOp.sh = some i ∧ (BitVec.ofNat 32 (s.gpr
      k.val i.rs1) + BitVec.ofInt 32 i.imm).toNat % 2 = 0 ∧ place s k.val (BitVec.ofNat 32 (s.gpr k.val i.rs1) + BitVec.ofInt
      32 i.imm).toNat 2 true = some p ∧ (∀ (x : Nat), p = Place.device x → inRegSpace x 2 = false) ∧ (writePlace s k.val p 2
      (s.gpr k.val i.rs2)).snd = false ∧ NoneHeld s (writePlace s k.val p 2 (s.gpr k.val i.rs2)).fst) ∧
    (∃ (s : State) (k : Fin 257) (i : FernIns) (off : Nat), fernNext s k.val FernOp.sh = some i ∧ (BitVec.ofNat 32 (s.gpr
      k.val i.rs1) + BitVec.ofInt 32 i.imm).toNat % 2 = 0 ∧ place s k.val (BitVec.ofNat 32 (s.gpr k.val i.rs1) + BitVec.ofInt
      32 i.imm).toNat 2 true = some (Place.own off)) ∧
    (∃ (s : State) (k : Fin 257) (i : FernIns), fernNext s k.val FernOp.sh = some i ∧ (BitVec.ofNat 32 (s.gpr k.val i.rs1) +
      BitVec.ofInt 32 i.imm).toNat % 2 = 0 ∧ (s.core k.val).tip = false ∧ place s k.val (BitVec.ofNat 32 (s.gpr k.val i.rs1) +
      BitVec.ofInt 32 i.imm).toNat 2 true = none) ∧
    (∃ (s : State) (k : Fin 257) (i : FernIns) (p : Place), fernNext s k.val FernOp.sw = some i ∧ (BitVec.ofNat 32 (s.gpr
      k.val i.rs1) + BitVec.ofInt 32 i.imm).toNat % 4 = 0 ∧ place s k.val (BitVec.ofNat 32 (s.gpr k.val i.rs1) + BitVec.ofInt
      32 i.imm).toNat 4 true = some p ∧ (∀ (x : Nat), p = Place.device x → inRegSpace x 4 = false) ∧ (writePlace s k.val p 4
      (s.gpr k.val i.rs2)).snd = false ∧ NoneHeld s (writePlace s k.val p 4 (s.gpr k.val i.rs2)).fst) ∧
    (∃ (s : State) (k : Fin 257) (i : FernIns) (off : Nat), fernNext s k.val FernOp.sw = some i ∧ (BitVec.ofNat 32 (s.gpr
      k.val i.rs1) + BitVec.ofInt 32 i.imm).toNat % 4 = 0 ∧ place s k.val (BitVec.ofNat 32 (s.gpr k.val i.rs1) + BitVec.ofInt
      32 i.imm).toNat 4 true = some (Place.own off)) ∧
    (∃ (s : State) (k : Fin 257) (i : FernIns), fernNext s k.val FernOp.sw = some i ∧ (BitVec.ofNat 32 (s.gpr k.val i.rs1) +
      BitVec.ofInt 32 i.imm).toNat % 4 = 0 ∧ (s.core k.val).tip = false ∧ place s k.val (BitVec.ofNat 32 (s.gpr k.val i.rs1) +
      BitVec.ofInt 32 i.imm).toNat 4 true = none) ∧
    (∃ (s : State) (k : Fin 257) (i : FernIns) (p : Place), fernNext s k.val FernOp.cSw = some i ∧ (BitVec.ofNat 32 (s.gpr
      k.val i.rs1) + BitVec.ofInt 32 i.imm).toNat % 4 = 0 ∧ place s k.val (BitVec.ofNat 32 (s.gpr k.val i.rs1) + BitVec.ofInt
      32 i.imm).toNat 4 true = some p ∧ (∀ (x : Nat), p = Place.device x → inRegSpace x 4 = false) ∧ (writePlace s k.val p 4
      (s.gpr k.val i.rs2)).snd = false ∧ NoneHeld s (writePlace s k.val p 4 (s.gpr k.val i.rs2)).fst) ∧
    (∃ (s : State) (k : Fin 257) (i : FernIns) (off : Nat), fernNext s k.val FernOp.cSw = some i ∧ (BitVec.ofNat 32 (s.gpr
      k.val i.rs1) + BitVec.ofInt 32 i.imm).toNat % 4 = 0 ∧ place s k.val (BitVec.ofNat 32 (s.gpr k.val i.rs1) + BitVec.ofInt
      32 i.imm).toNat 4 true = some (Place.own off)) ∧
    (∃ (s : State) (k : Fin 257) (i : FernIns), fernNext s k.val FernOp.cSw = some i ∧ (BitVec.ofNat 32 (s.gpr k.val i.rs1)
      + BitVec.ofInt 32 i.imm).toNat % 4 = 0 ∧ (s.core k.val).tip = false ∧ place s k.val (BitVec.ofNat 32 (s.gpr k.val i.rs1)
      + BitVec.ofInt 32 i.imm).toNat 4 true = none) ∧
    (∃ (s : State) (k : Fin 257) (i : FernIns) (old : Nat) (p : Place), fernNext s k.val FernOp.amoadd = some i ∧
      (BitVec.ofNat 32 (s.gpr k.val i.rs1)).toNat % 4 = 0 ∧ place s k.val (BitVec.ofNat 32 (s.gpr k.val i.rs1)).toNat 4 true =
      some p ∧ (∀ (x : Nat), p = Place.device x → inRegSpace x 4 = false) ∧ readPlace s k.val p 4 = some (old, s) ∧
      (writePlace s k.val p 4 ((old + s.gpr k.val i.rs2) % 2 ^ 32)).snd = false ∧ NoneHeld s (writePlace s k.val p 4 ((old +
      s.gpr k.val i.rs2) % 2 ^ 32)).fst) ∧
    (∃ (s : State) (k : Fin 257) (i : FernIns), fernNext s k.val FernOp.amoadd = some i ∧ (BitVec.ofNat 32 (s.gpr k.val
      i.rs1)).toNat % 4 = 0 ∧ (s.core k.val).tip = false ∧ place s k.val (BitVec.ofNat 32 (s.gpr k.val i.rs1)).toNat 4 true =
      none) ∧
    (∃ (s : State) (k : Fin 257) (i : FernIns) (old : Nat) (p : Place), fernNext s k.val FernOp.amoswap = some i ∧
      (BitVec.ofNat 32 (s.gpr k.val i.rs1)).toNat % 4 = 0 ∧ place s k.val (BitVec.ofNat 32 (s.gpr k.val i.rs1)).toNat 4 true =
      some p ∧ (∀ (x : Nat), p = Place.device x → inRegSpace x 4 = false) ∧ readPlace s k.val p 4 = some (old, s) ∧
      (writePlace s k.val p 4 (s.gpr k.val i.rs2)).snd = false ∧ NoneHeld s (writePlace s k.val p 4 (s.gpr k.val i.rs2)).fst) ∧
    (∃ (s : State) (k : Fin 257) (i : FernIns), fernNext s k.val FernOp.amoswap = some i ∧ (BitVec.ofNat 32 (s.gpr k.val
      i.rs1)).toNat % 4 = 0 ∧ (s.core k.val).tip = false ∧ place s k.val (BitVec.ofNat 32 (s.gpr k.val i.rs1)).toNat 4 true =
      none) ∧
    (∃ (s : State) (k : Fin 257) (i : FernIns) (old : Nat) (p : Place), old = s.gpr k.val i.rd ∧ fernNext s k.val
      FernOp.amocas = some i ∧ (BitVec.ofNat 32 (s.gpr k.val i.rs1)).toNat % 4 = 0 ∧ place s k.val (BitVec.ofNat 32 (s.gpr
      k.val i.rs1)).toNat 4 true = some p ∧ (∀ (x : Nat), p = Place.device x → inRegSpace x 4 = false) ∧ readPlace s k.val p 4
      = some (old, s) ∧ (writePlace s k.val p 4 (s.gpr k.val i.rs2)).snd = false ∧ NoneHeld s (writePlace s k.val p 4 (s.gpr
      k.val i.rs2)).fst) ∧
    (∃ (s : State) (k : Fin 257) (i : FernIns) (old : Nat), old = s.gpr k.val i.rd ∧ fernNext s k.val FernOp.amocas = some i
      ∧ (BitVec.ofNat 32 (s.gpr k.val i.rs1)).toNat % 4 = 0 ∧ (s.core k.val).tip = false ∧ place s k.val (BitVec.ofNat 32
      (s.gpr k.val i.rs1)).toNat 4 true = none) ∧
    (∃ (s : State) (k : Fin 257) (i : FernIns) (old : Nat) (p : Place), old ≠ s.gpr k.val i.rd ∧ fernNext s k.val
      FernOp.amocas = some i ∧ (BitVec.ofNat 32 (s.gpr k.val i.rs1)).toNat % 4 = 0 ∧ place s k.val (BitVec.ofNat 32 (s.gpr
      k.val i.rs1)).toNat 4 true = some p ∧ readPlace s k.val p 4 = some (old, s)) ∧
    (∃ (s : State) (k : Fin 257) (i : FernIns), fernNext s k.val FernOp.lh = some i ∧ (s.core k.val).tip = false ∧
      (BitVec.ofNat 32 (s.gpr k.val i.rs1) + BitVec.ofInt 32 i.imm).toNat % 2 ≠ 0) ∧
    (∃ (s : State) (k : Fin 257) (i : FernIns), fernNext s k.val FernOp.lhu = some i ∧ (s.core k.val).tip = false ∧
      (BitVec.ofNat 32 (s.gpr k.val i.rs1) + BitVec.ofInt 32 i.imm).toNat % 2 ≠ 0) ∧
    (∃ (s : State) (k : Fin 257) (i : FernIns), fernNext s k.val FernOp.lw = some i ∧ (s.core k.val).tip = false ∧
      (BitVec.ofNat 32 (s.gpr k.val i.rs1) + BitVec.ofInt 32 i.imm).toNat % 4 ≠ 0) ∧
    (∃ (s : State) (k : Fin 257) (i : FernIns), fernNext s k.val FernOp.cLw = some i ∧ (s.core k.val).tip = false ∧
      (BitVec.ofNat 32 (s.gpr k.val i.rs1) + BitVec.ofInt 32 i.imm).toNat % 4 ≠ 0) ∧
    (∃ (s : State) (k : Fin 257) (i : FernIns), fernNext s k.val FernOp.sh = some i ∧ (s.core k.val).tip = false ∧
      (BitVec.ofNat 32 (s.gpr k.val i.rs1) + BitVec.ofInt 32 i.imm).toNat % 2 ≠ 0) ∧
    (∃ (s : State) (k : Fin 257) (i : FernIns), fernNext s k.val FernOp.sw = some i ∧ (s.core k.val).tip = false ∧
      (BitVec.ofNat 32 (s.gpr k.val i.rs1) + BitVec.ofInt 32 i.imm).toNat % 4 ≠ 0) ∧
    (∃ (s : State) (k : Fin 257) (i : FernIns), fernNext s k.val FernOp.cSw = some i ∧ (s.core k.val).tip = false ∧
      (BitVec.ofNat 32 (s.gpr k.val i.rs1) + BitVec.ofInt 32 i.imm).toNat % 4 ≠ 0) ∧
    (∃ (s : State) (k : Fin 257) (i : FernIns), fernNext s k.val FernOp.amoadd = some i ∧ (s.core k.val).tip = false ∧
      (BitVec.ofNat 32 (s.gpr k.val i.rs1)).toNat % 4 ≠ 0) ∧
    (∃ (s : State) (k : Fin 257) (i : FernIns), fernNext s k.val FernOp.amoswap = some i ∧ (s.core k.val).tip = false ∧
      (BitVec.ofNat 32 (s.gpr k.val i.rs1)).toNat % 4 ≠ 0) ∧
    (∃ (s : State) (k : Fin 257) (i : FernIns), fernNext s k.val FernOp.amocas = some i ∧ (s.core k.val).tip = false ∧
      (BitVec.ofNat 32 (s.gpr k.val i.rs1)).toNat % 4 ≠ 0) :=
  ⟨⟨localStore (fern (iw 10 4) 512 2 (fun c => c.setGpr 3 0xCAFEBABE)) 5 0x204 [0x81, 0x92, 0xA3, 0xF4, 5, 6, 7, 8], 5, ii .lb 4,
     .own 0x204, 0x81, localStore (fern (iw 10 4) 512 2 (fun c => c.setGpr 3 0xCAFEBABE)) 5 0x204 [0x81, 0x92, 0xA3, 0xF4, 5,
     6, 7, 8], by decide +kernel⟩,
   ⟨localStore (fern (iw 10 4) 67108352 2 (fun c => c.setGpr 3 0xCAFEBABE)) 5 0x204 [0x81, 0x92, 0xA3, 0xF4, 5, 6, 7, 8], 5,
     ii .lb 4, by decide +kernel⟩,
   ⟨localStore (fern (iw 11 4) 512 2 (fun c => c.setGpr 3 0xCAFEBABE)) 5 0x204 [0x81, 0x92, 0xA3, 0xF4, 5, 6, 7, 8], 5, ii .lbu 4,
     .own 0x204, 0x81, localStore (fern (iw 11 4) 512 2 (fun c => c.setGpr 3 0xCAFEBABE)) 5 0x204 [0x81, 0x92, 0xA3, 0xF4, 5,
     6, 7, 8], by decide +kernel⟩,
   ⟨localStore (fern (iw 11 4) 67108352 2 (fun c => c.setGpr 3 0xCAFEBABE)) 5 0x204 [0x81, 0x92, 0xA3, 0xF4, 5, 6, 7, 8], 5,
     ii .lbu 4, by decide +kernel⟩,
   ⟨localStore (fern (iw 12 4) 512 2 (fun c => c.setGpr 3 0xCAFEBABE)) 5 0x204 [0x81, 0x92, 0xA3, 0xF4, 5, 6, 7, 8], 5, ii .lh 4,
     .own 0x204, 0x9281, localStore (fern (iw 12 4) 512 2 (fun c => c.setGpr 3 0xCAFEBABE)) 5 0x204 [0x81, 0x92, 0xA3, 0xF4,
     5, 6, 7, 8], by decide +kernel⟩,
   ⟨localStore (fern (iw 12 4) 67108352 2 (fun c => c.setGpr 3 0xCAFEBABE)) 5 0x204 [0x81, 0x92, 0xA3, 0xF4, 5, 6, 7, 8], 5,
     ii .lh 4, by decide +kernel⟩,
   ⟨localStore (fern (iw 13 4) 512 2 (fun c => c.setGpr 3 0xCAFEBABE)) 5 0x204 [0x81, 0x92, 0xA3, 0xF4, 5, 6, 7, 8], 5, ii .lhu 4,
     .own 0x204, 0x9281, localStore (fern (iw 13 4) 512 2 (fun c => c.setGpr 3 0xCAFEBABE)) 5 0x204 [0x81, 0x92, 0xA3, 0xF4,
     5, 6, 7, 8], by decide +kernel⟩,
   ⟨localStore (fern (iw 13 4) 67108352 2 (fun c => c.setGpr 3 0xCAFEBABE)) 5 0x204 [0x81, 0x92, 0xA3, 0xF4, 5, 6, 7, 8], 5,
     ii .lhu 4, by decide +kernel⟩,
   ⟨localStore (fern (iw 14 4) 512 2 (fun c => c.setGpr 3 0xCAFEBABE)) 5 0x204 [0x81, 0x92, 0xA3, 0xF4, 5, 6, 7, 8], 5, ii .lw 4,
     .own 0x204, 0xF4A39281, localStore (fern (iw 14 4) 512 2 (fun c => c.setGpr 3 0xCAFEBABE)) 5 0x204 [0x81, 0x92, 0xA3,
     0xF4, 5, 6, 7, 8], by decide +kernel⟩,
   ⟨localStore (fern (iw 14 4) 67108352 2 (fun c => c.setGpr 3 0xCAFEBABE)) 5 0x204 [0x81, 0x92, 0xA3, 0xF4, 5, 6, 7, 8], 5,
     ii .lw 4, by decide +kernel⟩,
   ⟨localStore (fern (2 + 8 * 1 + 64 * 2 + 512) 0 0 (fun c => (c.setGpr 9 0x77665544).setGpr 10 512)) 5 0x204 [0x81, 0x92,
     0xA3, 0xF4, 5, 6, 7, 8], 5, { op := .cLw, rd := 9, rs1 := 10, imm := 4, len := 2 }, .own 0x204, 0xF4A39281, localStore (fern (2 + 8 * 1 + 64 * 2 + 512) 0 0 (fun c => (c.setGpr 9 0x77665544).setGpr 10 512)) 5 0x204 [0x81,
     0x92, 0xA3, 0xF4, 5, 6, 7, 8], by decide +kernel⟩,
   ⟨localStore (fern (2 + 8 * 1 + 64 * 2 + 512) 0 0 (fun c => (c.setGpr 9 0x77665544).setGpr 10 67108352)) 5 0x204 [0x81,
     0x92, 0xA3, 0xF4, 5, 6, 7, 8], 5, { op := .cLw, rd := 9, rs1 := 10, imm := 4, len := 2 }, by decide +kernel⟩,
   ⟨localStore (fern (iw 15 4) 512 2 (fun c => c.setGpr 3 0xCAFEBABE)) 5 0x204 [0x81, 0x92, 0xA3, 0xF4, 5, 6, 7, 8], 5, { op := .sb, rs2 := 3, rs1 := 1, imm := 4 },
     .own 0x204, by decide +kernel, by decide +kernel, by decide +kernel, nofun, by decide +kernel, by decide +kernel⟩,
   ⟨localStore (fern (iw 15 4) 512 2 (fun c => c.setGpr 3 0xCAFEBABE)) 5 0x204 [0x81, 0x92, 0xA3, 0xF4, 5, 6, 7, 8], 5, { op := .sb, rs2 := 3, rs1 := 1, imm := 4 },
     0x204, by decide +kernel⟩,
   ⟨localStore (fern (iw 15 4) 67108352 2 (fun c => c.setGpr 3 0xCAFEBABE)) 5 0x204 [0x81, 0x92, 0xA3, 0xF4, 5, 6, 7, 8], 5,
     { op := .sb, rs2 := 3, rs1 := 1, imm := 4 }, by decide +kernel⟩,
   ⟨localStore (fern (iw 16 4) 512 2 (fun c => c.setGpr 3 0xCAFEBABE)) 5 0x204 [0x81, 0x92, 0xA3, 0xF4, 5, 6, 7, 8], 5, { op := .sh, rs2 := 3, rs1 := 1, imm := 4 },
     .own 0x204, by decide +kernel, by decide +kernel, by decide +kernel, nofun, by decide +kernel, by decide +kernel⟩,
   ⟨localStore (fern (iw 16 4) 512 2 (fun c => c.setGpr 3 0xCAFEBABE)) 5 0x204 [0x81, 0x92, 0xA3, 0xF4, 5, 6, 7, 8], 5, { op := .sh, rs2 := 3, rs1 := 1, imm := 4 },
     0x204, by decide +kernel⟩,
   ⟨localStore (fern (iw 16 4) 67108352 2 (fun c => c.setGpr 3 0xCAFEBABE)) 5 0x204 [0x81, 0x92, 0xA3, 0xF4, 5, 6, 7, 8], 5,
     { op := .sh, rs2 := 3, rs1 := 1, imm := 4 }, by decide +kernel⟩,
   ⟨localStore (fern (iw 17 4) 512 2 (fun c => c.setGpr 3 0xCAFEBABE)) 5 0x204 [0x81, 0x92, 0xA3, 0xF4, 5, 6, 7, 8], 5, { op := .sw, rs2 := 3, rs1 := 1, imm := 4 },
     .own 0x204, by decide +kernel, by decide +kernel, by decide +kernel, nofun, by decide +kernel, by decide +kernel⟩,
   ⟨localStore (fern (iw 17 4) 512 2 (fun c => c.setGpr 3 0xCAFEBABE)) 5 0x204 [0x81, 0x92, 0xA3, 0xF4, 5, 6, 7, 8], 5, { op := .sw, rs2 := 3, rs1 := 1, imm := 4 },
     0x204, by decide +kernel⟩,
   ⟨localStore (fern (iw 17 4) 67108352 2 (fun c => c.setGpr 3 0xCAFEBABE)) 5 0x204 [0x81, 0x92, 0xA3, 0xF4, 5, 6, 7, 8], 5,
     { op := .sw, rs2 := 3, rs1 := 1, imm := 4 }, by decide +kernel⟩,
   ⟨localStore (fern (3 + 8 * 1 + 64 * 2 + 512) 0 0 (fun c => (c.setGpr 9 0x77665544).setGpr 10 512)) 5 0x204 [0x81, 0x92,
     0xA3, 0xF4, 5, 6, 7, 8], 5, { op := .cSw, rs2 := 9, rs1 := 10, imm := 4, len := 2 }, .own 0x204, by decide +kernel,
     by decide +kernel, by decide +kernel, nofun, by decide +kernel, by decide +kernel⟩,
   ⟨localStore (fern (3 + 8 * 1 + 64 * 2 + 512) 0 0 (fun c => (c.setGpr 9 0x77665544).setGpr 10 512)) 5 0x204 [0x81, 0x92,
     0xA3, 0xF4, 5, 6, 7, 8], 5, { op := .cSw, rs2 := 9, rs1 := 10, imm := 4, len := 2 }, 0x204, by decide +kernel⟩,
   ⟨localStore (fern (3 + 8 * 1 + 64 * 2 + 512) 0 0 (fun c => (c.setGpr 9 0x77665544).setGpr 10 67108352)) 5 0x204 [0x81,
     0x92, 0xA3, 0xF4, 5, 6, 7, 8], 5, { op := .cSw, rs2 := 9, rs1 := 10, imm := 4, len := 2 }, by decide +kernel⟩,
   ⟨localStore (fern (rw 0x1F 0) 516 0xF0000002 (fun c => c.setGpr 3 0xF4A39281)) 5 0x204 [0x81, 0x92, 0xA3, 0xF4, 5, 6, 7,
     8], 5, ri .amoadd, 0xF4A39281, .own 0x204, by decide +kernel, by decide +kernel, by decide +kernel, nofun,
     by decide +kernel, by decide +kernel, by decide +kernel⟩,
   ⟨localStore (fern (rw 0x1F 0) 67108352 0xF0000002 (fun c => c.setGpr 3 0xF4A39281)) 5 0x204 [0x81, 0x92, 0xA3, 0xF4, 5,
     6, 7, 8], 5, ri .amoadd, by decide +kernel⟩,
   ⟨localStore (fern (rw 0x1F 1) 516 0xF0000002 (fun c => c.setGpr 3 0xF4A39281)) 5 0x204 [0x81, 0x92, 0xA3, 0xF4, 5, 6, 7,
     8], 5, ri .amoswap, 0xF4A39281, .own 0x204, by decide +kernel, by decide +kernel, by decide +kernel, nofun,
     by decide +kernel, by decide +kernel, by decide +kernel⟩,
   ⟨localStore (fern (rw 0x1F 1) 67108352 0xF0000002 (fun c => c.setGpr 3 0xF4A39281)) 5 0x204 [0x81, 0x92, 0xA3, 0xF4, 5,
     6, 7, 8], 5, ri .amoswap, by decide +kernel⟩,
   ⟨localStore (fern (rw 0x1F 2) 516 0xF0000002 (fun c => c.setGpr 3 0xF4A39281)) 5 0x204 [0x81, 0x92, 0xA3, 0xF4, 5, 6, 7,
     8], 5, ri .amocas, 0xF4A39281, .own 0x204, by decide +kernel, by decide +kernel, by decide +kernel, by decide +kernel,
     nofun, by decide +kernel, by decide +kernel, by decide +kernel⟩,
   ⟨localStore (fern (rw 0x1F 2) 67108352 0xF0000002 (fun c => c.setGpr 3 0xF4A39281)) 5 0x204 [0x81, 0x92, 0xA3, 0xF4, 5,
     6, 7, 8], 5, ri .amocas, 0xF4A39281, by decide +kernel⟩,
   ⟨localStore (fern (rw 0x1F 2) 0x204 7 (fun c => c.setGpr 3 1)) 5 0x204 [0x81, 0x92, 0xA3, 0xF4, 5, 6, 7, 8], 5, ri .amocas,
     0xF4A39281, .own 0x204, by decide +kernel⟩,
   ⟨localStore (fern (iw 12 4) 513 2 (fun c => c.setGpr 3 0xCAFEBABE)) 5 0x204 [0x81, 0x92, 0xA3, 0xF4, 5, 6, 7, 8], 5, ii .lh 4,
     by decide +kernel⟩,
   ⟨localStore (fern (iw 13 4) 513 2 (fun c => c.setGpr 3 0xCAFEBABE)) 5 0x204 [0x81, 0x92, 0xA3, 0xF4, 5, 6, 7, 8], 5, ii .lhu 4,
     by decide +kernel⟩,
   ⟨localStore (fern (iw 14 4) 513 2 (fun c => c.setGpr 3 0xCAFEBABE)) 5 0x204 [0x81, 0x92, 0xA3, 0xF4, 5, 6, 7, 8], 5, ii .lw 4,
     by decide +kernel⟩,
   ⟨localStore (fern (2 + 8 * 1 + 64 * 2 + 512) 0 0 (fun c => (c.setGpr 9 0x77665544).setGpr 10 513)) 5 0x204 [0x81, 0x92,
     0xA3, 0xF4, 5, 6, 7, 8], 5, { op := .cLw, rd := 9, rs1 := 10, imm := 4, len := 2 }, by decide +kernel⟩,
   ⟨localStore (fern (iw 16 4) 513 2 (fun c => c.setGpr 3 0xCAFEBABE)) 5 0x204 [0x81, 0x92, 0xA3, 0xF4, 5, 6, 7, 8], 5, { op := .sh, rs2 := 3, rs1 := 1, imm := 4 },
     by decide +kernel⟩,
   ⟨localStore (fern (iw 17 4) 513 2 (fun c => c.setGpr 3 0xCAFEBABE)) 5 0x204 [0x81, 0x92, 0xA3, 0xF4, 5, 6, 7, 8], 5, { op := .sw, rs2 := 3, rs1 := 1, imm := 4 },
     by decide +kernel⟩,
   ⟨localStore (fern (3 + 8 * 1 + 64 * 2 + 512) 0 0 (fun c => (c.setGpr 9 0x77665544).setGpr 10 513)) 5 0x204 [0x81, 0x92,
     0xA3, 0xF4, 5, 6, 7, 8], 5, { op := .cSw, rs2 := 9, rs1 := 10, imm := 4, len := 2 }, by decide +kernel⟩,
   ⟨localStore (fern (rw 0x1F 0) 517 0xF0000002 (fun c => c.setGpr 3 0xF4A39281)) 5 0x204 [0x81, 0x92, 0xA3, 0xF4, 5, 6, 7,
     8], 5, ri .amoadd, by decide +kernel⟩,
   ⟨localStore (fern (rw 0x1F 1) 517 0xF0000002 (fun c => c.setGpr 3 0xF4A39281)) 5 0x204 [0x81, 0x92, 0xA3, 0xF4, 5, 6, 7,
     8], 5, ri .amoswap, by decide +kernel⟩,
   ⟨localStore (fern (rw 0x1F 2) 517 0xF0000002 (fun c => c.setGpr 3 0xF4A39281)) 5 0x204 [0x81, 0x92, 0xA3, 0xF4, 5, 6, 7,
     8], 5, ri .amocas, by decide +kernel⟩⟩

/-- States and operands meet the hypotheses of each clause of `FernControl`. -/
theorem witness_fernControl :
    (∃ (s : State) (k : Fin 257) (i : FernIns), fernNext s k.val FernOp.beq = some i) ∧
    (∃ (s : State) (k : Fin 257) (i : FernIns), fernNext s k.val FernOp.bne = some i) ∧
    (∃ (s : State) (k : Fin 257) (i : FernIns), fernNext s k.val FernOp.blt = some i) ∧
    (∃ (s : State) (k : Fin 257) (i : FernIns), fernNext s k.val FernOp.bge = some i) ∧
    (∃ (s : State) (k : Fin 257) (i : FernIns), fernNext s k.val FernOp.bltu = some i) ∧
    (∃ (s : State) (k : Fin 257) (i : FernIns), fernNext s k.val FernOp.bgeu = some i) ∧
    (∃ (s : State) (k : Fin 257) (i : FernIns), fernNext s k.val FernOp.cBz = some i) ∧
    (∃ (s : State) (k : Fin 257) (i : FernIns), fernNext s k.val FernOp.cJ = some i) ∧
    (∃ (s : State) (k : Fin 257) (i : FernIns), fernNext s k.val FernOp.fence = some i) ∧
    (∃ (s : State) (k : Fin 257) (i : FernIns), fernNext s k.val FernOp.jal = some i) ∧
    (∃ (s : State) (k : Fin 257) (i : FernIns), fernNext s k.val FernOp.jalr = some i) ∧
    (∃ (s : State) (k : Fin 257) (i : FernIns), (s.core k.val).tip = false ∧ fernNext s k.val FernOp.ecall = some i ∧
      (s.core k.val).pl = 0) ∧
    (∃ (s : State) (k : Fin 257) (i : FernIns), (s.core k.val).tip = false ∧ fernNext s k.val FernOp.ecall = some i ∧
      (s.core k.val).pl = 1) ∧
    (∃ (s : State) (k : Fin 257) (i : FernIns), (s.core k.val).tip = false ∧ fernNext s k.val FernOp.ecall = some i ∧
      (s.core k.val).pl = 3) ∧
    (∃ (s : State) (k : Fin 257) (i : FernIns), (s.core k.val).tip = false ∧ fernNext s k.val FernOp.ebreak = some i) ∧
    (∃ (s : State) (k : Fin 257) (bits : Nat), (s.core k.val).tip = false ∧ coreRuns s k.val = true ∧ breakpointAt s k.val =
      none ∧ fetch s k.val = Fetched.illegal bits ∧ bits < 2 ^ 32) ∧
    (∃ (s : State) (k : Fin 257), (s.core k.val).tip = false ∧ coreRuns s k.val = true ∧ breakpointAt s k.val = none ∧ fetch
      s k.val = Fetched.odd) ∧
    (∃ (s : State) (k : Fin 257) (bits : Nat), (s.core k.val).tip = false ∧ coreRuns s k.val = true ∧ breakpointAt s k.val =
      none ∧ fetch s k.val = Fetched.fault bits) ∧
    (∃ (s : State) (k : Fin 257) (i : FernIns) (w : Bool), (s.core k.val).tip = false ∧ (s.core k.val).pl < handlerLevel
      k.val ∧ srGuarded i.imm.toNat = true ∧ w = false ∧ fernNext s k.val FernOp.mfsr = some i) ∧
    (∃ (s : State) (k : Fin 257) (i : FernIns) (w : Bool), (s.core k.val).tip = false ∧ (s.core k.val).pl < handlerLevel
      k.val ∧ srGuarded i.imm.toNat = true ∧ w = true ∧ fernNext s k.val FernOp.mtsr = some i) ∧
    (∃ (s : State) (k : Fin 257) (i : FernIns), (s.core k.val).tip = false ∧ srOpen i.imm.toNat = false ∧ srGuarded
      i.imm.toNat = false ∧ fernNext s k.val FernOp.mfsr = some i) ∧
    (∃ (s : State) (k : Fin 257) (i : FernIns), (s.core k.val).tip = false ∧ srOpen i.imm.toNat = false ∧ srGuarded
      i.imm.toNat = false ∧ fernNext s k.val FernOp.mtsr = some i) ∧
    (∃ (s : State) (k : Fin 257) (i : FernIns), fernNext s k.val FernOp.tret = some i) ∧
    (∃ (s : State) (k : Fin 257) (i : FernIns), fernNext s k.val FernOp.wfi = some i) ∧
    (∃ (s : State) (k : Fin 257) (i : FernIns), ¬(s.core k.val).pl < handlerLevel k.val ∧ fernNext s k.val FernOp.mfsr =
      some i ∧ i.imm.toNat = 16) ∧
    (∃ (s : State) (k : Fin 257) (i : FernIns), ¬(s.core k.val).pl < handlerLevel k.val ∧ fernNext s k.val FernOp.mfsr =
      some i ∧ i.imm.toNat = 17) ∧
    (∃ (s : State) (k : Fin 257) (i : FernIns), ¬(s.core k.val).pl < handlerLevel k.val ∧ fernNext s k.val FernOp.mfsr =
      some i ∧ i.imm.toNat = 18) ∧
    (∃ (s : State) (k : Fin 257) (i : FernIns), ¬(s.core k.val).pl < handlerLevel k.val ∧ fernNext s k.val FernOp.mfsr =
      some i ∧ i.imm.toNat = 19) ∧
    (∃ (s : State) (k : Fin 257) (i : FernIns), ¬(s.core k.val).pl < handlerLevel k.val ∧ fernNext s k.val FernOp.mfsr =
      some i ∧ i.imm.toNat = 20) ∧
    (∃ (s : State) (k : Fin 257) (i : FernIns), ¬(s.core k.val).pl < handlerLevel k.val ∧ fernNext s k.val FernOp.mfsr =
      some i ∧ i.imm.toNat = 24) ∧
    (∃ (s : State) (k : Fin 257) (i : FernIns), ¬(s.core k.val).pl < handlerLevel k.val ∧ fernNext s k.val FernOp.mfsr =
      some i ∧ i.imm.toNat = 32) ∧
    (∃ (s : State) (k : Fin 257) (i : FernIns), ¬(s.core k.val).pl < handlerLevel k.val ∧ fernNext s k.val FernOp.mfsr =
      some i ∧ i.imm.toNat = 33) ∧
    (∃ (s : State) (k : Fin 257) (i : FernIns), ¬(s.core k.val).pl < handlerLevel k.val ∧ fernNext s k.val FernOp.mfsr =
      some i ∧ i.imm.toNat = 34) ∧
    (∃ (s : State) (k : Fin 257) (i : FernIns), ¬(s.core k.val).pl < handlerLevel k.val ∧ fernNext s k.val FernOp.mfsr =
      some i ∧ i.imm.toNat = 36) ∧
    (∃ (s : State) (k : Fin 257) (i : FernIns), ¬(s.core k.val).pl < handlerLevel k.val ∧ fernNext s k.val FernOp.mfsr =
      some i ∧ i.imm.toNat = 37) ∧
    (∃ (s : State) (k : Fin 257) (i : FernIns), ¬(s.core k.val).pl < handlerLevel k.val ∧ fernNext s k.val FernOp.mfsr =
      some i ∧ i.imm.toNat = 64) ∧
    (∃ (s : State) (k : Fin 257) (i : FernIns), ¬(s.core k.val).pl < handlerLevel k.val ∧ fernNext s k.val FernOp.mfsr =
      some i ∧ i.imm.toNat = 3) ∧
    (∃ (s : State) (k : Fin 257) (i : FernIns), ¬(s.core k.val).pl < handlerLevel k.val ∧ fernNext s k.val FernOp.mtsr =
      some i ∧ i.imm.toNat = 17) ∧
    (∃ (s : State) (k : Fin 257) (i : FernIns), ¬(s.core k.val).pl < handlerLevel k.val ∧ fernNext s k.val FernOp.mtsr =
      some i ∧ i.imm.toNat = 18) ∧
    (∃ (s : State) (k : Fin 257) (i : FernIns), ¬(s.core k.val).pl < handlerLevel k.val ∧ fernNext s k.val FernOp.mtsr =
      some i ∧ i.imm.toNat = 24) ∧
    (∃ (s : State) (k : Fin 257) (i : FernIns), ¬(s.core k.val).pl < handlerLevel k.val ∧ fernNext s k.val FernOp.mtsr =
      some i ∧ i.imm.toNat = 64) ∧
    (∃ (s : State) (k : Fin 257) (i : FernIns), ¬(s.core k.val).pl < handlerLevel k.val ∧ fernNext s k.val FernOp.mtsr =
      some i ∧ i.imm.toNat = 36) ∧
    (∃ (s : State) (k : Fin 257) (i : FernIns), ¬(s.core k.val).pl < handlerLevel k.val ∧ fernNext s k.val FernOp.mtsr =
      some i ∧ i.imm.toNat = 55) ∧
    (∃ (s : State) (k : Fin 257) (i : FernIns), ¬(s.core k.val).pl < handlerLevel k.val ∧ fernNext s k.val FernOp.mtsr =
      some i ∧ i.imm.toNat = 33) :=
  ⟨⟨fern (8 * 18 + 2 ^ 8 * 1 + 2 ^ 13 * 2 + 2 ^ 18 * 0x3ffc) 5 5, 5, { op := .beq, rs1 := 1, rs2 := 2, imm := -4 },
     by decide +kernel⟩,
   ⟨fern (8 * 19 + 2 ^ 8 * 1 + 2 ^ 13 * 2 + 2 ^ 18 * 0x3ffc) 5 5, 5, { op := .bne, rs1 := 1, rs2 := 2, imm := -4 },
     by decide +kernel⟩,
   ⟨fern (8 * 20 + 2 ^ 8 * 1 + 2 ^ 13 * 2 + 2 ^ 18 * 0x3ffc) 5 5, 5, { op := .blt, rs1 := 1, rs2 := 2, imm := -4 },
     by decide +kernel⟩,
   ⟨fern (8 * 21 + 2 ^ 8 * 1 + 2 ^ 13 * 2 + 2 ^ 18 * 0x3ffc) 5 5, 5, { op := .bge, rs1 := 1, rs2 := 2, imm := -4 },
     by decide +kernel⟩,
   ⟨fern (8 * 22 + 2 ^ 8 * 1 + 2 ^ 13 * 2 + 2 ^ 18 * 0x3ffc) 5 5, 5, { op := .bltu, rs1 := 1, rs2 := 2, imm := -4 },
     by decide +kernel⟩,
   ⟨fern (8 * 23 + 2 ^ 8 * 1 + 2 ^ 13 * 2 + 2 ^ 18 * 0x3ffc) 5 5, 5, { op := .bgeu, rs1 := 1, rs2 := 2, imm := -4 },
     by decide +kernel⟩,
   ⟨fern (5 + 8 * 1 + 64 * 0 + 128 * 0x1fd) 0 0 (fun c => c.setGpr 9 0), 5, { op := .cBz, rs1 := 9, imm := -3, len := 2, sel := 0 },
     by decide +kernel⟩,
   ⟨fern (6 + 8 * 0x1ffe) 0 0, 5, { op := .cJ, imm := -2, len := 2 }, by decide +kernel⟩,
   ⟨fern (8 * 0x1B + 2 ^ 23 * 4) 0 0 (fun c => { c with pl := 1, ie := true, tvec := 0x40, ppl := 1, pie := true, tpc := 0x80 }),
     5, { op := .fence }, by decide +kernel⟩,
   ⟨fern (8 * 0x18 + 2 ^ 8 * 3 + 2 ^ 13 * 0x7fffe) 0 0, 5, { op := .jal, rd := 3, imm := -2 }, by decide +kernel⟩,
   ⟨fern (iw 0x19 5) 0xfffffffe 0, 5, ii .jalr 5, by decide +kernel⟩,
   ⟨fern (8 * 0x1B + 2 ^ 23 * 0) 0 0 (fun c => { c with pl := 0, lpr := 1, ie := true, tvec := 0x40, ppl := 1, pie := true, tpc := 0x80 }),
     5, { op := .ecall }, by decide +kernel⟩,
   ⟨fern (8 * 0x1B + 2 ^ 23 * 0) 0 0 (fun c => { c with pl := 1, ie := true, tvec := 0x40, ppl := 1, pie := true, tpc := 0x80 }),
     5, { op := .ecall }, by decide +kernel⟩,
   ⟨fern (8 * 0x1B + 2 ^ 23 * 0) 0 0 (fun c => { c with pl := 3, ie := true, tvec := 0x40, ppl := 1, pie := true, tpc := 0x80 }),
     5, { op := .ecall }, by decide +kernel⟩,
   ⟨fern (8 * 0x1B + 2 ^ 23 * 1) 0 0 (fun c => { c with pl := 1, ie := true, tvec := 0x40, ppl := 1, pie := true, tpc := 0x80 }),
     5, { op := .ebreak }, by decide +kernel⟩,
   ⟨fern 0 0 0, 5, 0, by decide +kernel⟩,
   ⟨fern 0 0 0 (fun c => { c with pc := 0x101 }), 5, by decide +kernel⟩,
   ⟨fern 0 0 0 (fun c => { c with pc := 0x20000000 }), 5, 0x20000000, by decide +kernel⟩,
   ⟨fern (8 * 0x1C + 2 ^ 8 * 3 + 2 ^ 18 * 17) 0 0 (fun c => { c with pl := 0, lpr := 1 }), 5, { op := .mfsr, rd := 3, imm := 17, rs2 := 17 },
     false, by decide +kernel⟩,
   ⟨fern (8 * 0x1D + 2 ^ 13 * 1 + 2 ^ 18 * 17) 0 0 (fun c => { c with pl := 0, lpr := 1 }), 5, { op := .mtsr, rs1 := 1, imm := 17, rs2 := 17 },
     true, by decide +kernel⟩,
   ⟨fern (8 * 0x1C + 2 ^ 8 * 3 + 2 ^ 18 * 1023) 0 0 (fun c => { c with pl := 0, lpr := 1 }), 5, { op := .mfsr, rd := 3, imm := 0x3FF, rs2 := 31 },
     by decide +kernel⟩,
   ⟨fern (8 * 0x1D + 2 ^ 13 * 1 + 2 ^ 18 * 1023) 0 0 (fun c => { c with pl := 0, lpr := 1 }), 5, { op := .mtsr, rs1 := 1, imm := 0x3FF, rs2 := 31 },
     by decide +kernel⟩,
   ⟨fern (8 * 0x1B + 2 ^ 23 * 2) 0 0 (fun c => { c with pl := 1, ie := true, tvec := 0x40, ppl := 1, pie := true, tpc := 0x80 }),
     5, { op := .tret }, by decide +kernel⟩,
   ⟨fern (8 * 0x1B + 2 ^ 23 * 3) 0 0 (fun c => { c with pl := 1, ie := true, tvec := 0x40, ppl := 1, pie := true, tpc := 0x80 }),
     5, { op := .wfi }, by decide +kernel⟩,
   ⟨fern (8 * 0x1C + 2 ^ 8 * 3 + 2 ^ 18 * 16) 0 0 (fun c => { c with tvec := 0x40, tpc := 0x80, tcause := 7, tval := 9, df := 3, tcmp := 2 ^ 33 + 5, lpr := 6, ie := true, pl := 3 }),
     5, { op := .mfsr, rd := 3, imm := 16, rs2 := 16 }, by decide +kernel⟩,
   ⟨fern (8 * 0x1C + 2 ^ 8 * 3 + 2 ^ 18 * 17) 0 0 (fun c => { c with tvec := 0x40, tpc := 0x80, tcause := 7, tval := 9, df := 3, tcmp := 2 ^ 33 + 5, lpr := 6, ie := true, pl := 3 }),
     5, { op := .mfsr, rd := 3, imm := 17, rs2 := 17 }, by decide +kernel⟩,
   ⟨fern (8 * 0x1C + 2 ^ 8 * 3 + 2 ^ 18 * 18) 0 0 (fun c => { c with tvec := 0x40, tpc := 0x80, tcause := 7, tval := 9, df := 3, tcmp := 2 ^ 33 + 5, lpr := 6, ie := true, pl := 3 }),
     5, { op := .mfsr, rd := 3, imm := 18, rs2 := 18 }, by decide +kernel⟩,
   ⟨fern (8 * 0x1C + 2 ^ 8 * 3 + 2 ^ 18 * 19) 0 0 (fun c => { c with tvec := 0x40, tpc := 0x80, tcause := 7, tval := 9, df := 3, tcmp := 2 ^ 33 + 5, lpr := 6, ie := true, pl := 3 }),
     5, { op := .mfsr, rd := 3, imm := 19, rs2 := 19 }, by decide +kernel⟩,
   ⟨fern (8 * 0x1C + 2 ^ 8 * 3 + 2 ^ 18 * 20) 0 0 (fun c => { c with tvec := 0x40, tpc := 0x80, tcause := 7, tval := 9, df := 3, tcmp := 2 ^ 33 + 5, lpr := 6, ie := true, pl := 3 }),
     5, { op := .mfsr, rd := 3, imm := 20, rs2 := 20 }, by decide +kernel⟩,
   ⟨fern (8 * 0x1C + 2 ^ 8 * 3 + 2 ^ 18 * 24) 0 0 (fun c => { c with tvec := 0x40, tpc := 0x80, tcause := 7, tval := 9, df := 3, tcmp := 2 ^ 33 + 5, lpr := 6, ie := true, pl := 3 }),
     5, { op := .mfsr, rd := 3, imm := 24, rs2 := 24 }, by decide +kernel⟩,
   ⟨fern (8 * 0x1C + 2 ^ 8 * 3 + 2 ^ 18 * 32) 0 0 (fun c => { c with tvec := 0x40, tpc := 0x80, tcause := 7, tval := 9, df := 3, tcmp := 2 ^ 33 + 5, lpr := 6, ie := true, pl := 3 }),
     5, { op := .mfsr, rd := 3, imm := 32, rs2 := 0 }, by decide +kernel⟩,
   ⟨fern (8 * 0x1C + 2 ^ 8 * 3 + 2 ^ 18 * 33) 0 0 (fun c => { c with tvec := 0x40, tpc := 0x80, tcause := 7, tval := 9, df := 3, tcmp := 2 ^ 33 + 5, lpr := 6, ie := true, pl := 3 }),
     5, { op := .mfsr, rd := 3, imm := 33, rs2 := 1 }, by decide +kernel⟩,
   ⟨fern (8 * 0x1C + 2 ^ 8 * 3 + 2 ^ 18 * 34) 0 0 (fun c => { c with tvec := 0x40, tpc := 0x80, tcause := 7, tval := 9, df := 3, tcmp := 2 ^ 33 + 5, lpr := 6, ie := true, pl := 3 }),
     5, { op := .mfsr, rd := 3, imm := 34, rs2 := 2 }, by decide +kernel⟩,
   ⟨fern (8 * 0x1C + 2 ^ 8 * 3 + 2 ^ 18 * 36) 0 0 (fun c => { c with tvec := 0x40, tpc := 0x80, tcause := 7, tval := 9, df := 3, tcmp := 2 ^ 33 + 5, lpr := 6, ie := true, pl := 3 }),
     5, { op := .mfsr, rd := 3, imm := 36, rs2 := 4 }, by decide +kernel⟩,
   ⟨fern (8 * 0x1C + 2 ^ 8 * 3 + 2 ^ 18 * 37) 0 0 (fun c => { c with tvec := 0x40, tpc := 0x80, tcause := 7, tval := 9, df := 3, tcmp := 2 ^ 33 + 5, lpr := 6, ie := true, pl := 3 }),
     5, { op := .mfsr, rd := 3, imm := 37, rs2 := 5 }, by decide +kernel⟩,
   ⟨fern (8 * 0x1C + 2 ^ 8 * 3 + 2 ^ 18 * 64) 0 0 (fun c => { c with tvec := 0x40, tpc := 0x80, tcause := 7, tval := 9, df := 3, tcmp := 2 ^ 33 + 5, lpr := 6, ie := true, pl := 3 }),
     5, { op := .mfsr, rd := 3, imm := 64, rs2 := 0 }, by decide +kernel⟩,
   ⟨fern (8 * 0x1C + 2 ^ 8 * 3 + 2 ^ 18 * 3) 0 0 (fun c => { c with tvec := 0x40, tpc := 0x80, tcause := 7, tval := 9, df := 3, tcmp := 2 ^ 33 + 5, lpr := 6, ie := true, pl := 3 }),
     5, { op := .mfsr, rd := 3, imm := 3, rs2 := 3 }, by decide +kernel⟩,
   ⟨fern (8 * 0x1D + 2 ^ 13 * 1 + 2 ^ 18 * 17) 0xFFFFFFFF 0 (fun c => { c with pl := 3 }), 5, { op := .mtsr, rs1 := 1, imm := 17, rs2 := 17 },
     by decide +kernel⟩,
   ⟨fern (8 * 0x1D + 2 ^ 13 * 1 + 2 ^ 18 * 18) 0xFFFFFFFF 0 (fun c => { c with pl := 3 }), 5, { op := .mtsr, rs1 := 1, imm := 18, rs2 := 18 },
     by decide +kernel⟩,
   ⟨fern (8 * 0x1D + 2 ^ 13 * 1 + 2 ^ 18 * 24) 0xFFFFFFFF 0 (fun c => { c with pl := 3 }), 5, { op := .mtsr, rs1 := 1, imm := 24, rs2 := 24 },
     by decide +kernel⟩,
   ⟨fern (8 * 0x1D + 2 ^ 13 * 1 + 2 ^ 18 * 64) 0xFFFFFFFF 0 (fun c => { c with pl := 3 }), 5, { op := .mtsr, rs1 := 1, imm := 64, rs2 := 0 },
     by decide +kernel⟩,
   ⟨fern (8 * 0x1D + 2 ^ 13 * 1 + 2 ^ 18 * 36) 0xFFFFFFFF 0 (fun c => { c with pl := 3 }), 5, { op := .mtsr, rs1 := 1, imm := 36, rs2 := 4 },
     by decide +kernel⟩,
   ⟨fern (8 * 0x1D + 2 ^ 13 * 1 + 2 ^ 18 * 55) 0xFFFFFFFF 0 (fun c => { c with pl := 3 }), 5, { op := .mtsr, rs1 := 1, imm := 55, rs2 := 23 },
     by decide +kernel⟩,
   ⟨fern (8 * 0x1D + 2 ^ 13 * 1 + 2 ^ 18 * 33) 0xFFFFFFFF 0 (fun c => { c with pl := 3 }), 5, { op := .mtsr, rs1 := 1, imm := 33, rs2 := 1 },
     by decide +kernel⟩⟩

/-- States and operands meet the hypotheses of each clause of `FernDecimal`. -/
theorem witness_fernDecimal :
    (∃ (s : State) (k : Fin 257) (i : FernIns), decimalOk (s.gpr k.val i.rs1) = true ∧ decimalOk (s.gpr k.val i.rs2) = true
      ∧ fernNext s k.val FernOp.dadd = some i) ∧
    (∃ (s : State) (k : Fin 257) (i : FernIns), decimalOk (s.gpr k.val i.rs1) = true ∧ decimalOk (s.gpr k.val i.rs2) = true
      ∧ fernNext s k.val FernOp.daddc = some i) ∧
    (∃ (s : State) (k : Fin 257) (i : FernIns), decimalOk (s.gpr k.val i.rs1) = true ∧ decimalOk (s.gpr k.val i.rs2) = true
      ∧ fernNext s k.val FernOp.dsub = some i) ∧
    (∃ (s : State) (k : Fin 257) (i : FernIns), decimalOk (s.gpr k.val i.rs1) = true ∧ decimalOk (s.gpr k.val i.rs2) = true
      ∧ fernNext s k.val FernOp.dsubb = some i) ∧
    (∃ (s : State) (k : Fin 257) (i : FernIns), decimalOk (s.gpr k.val i.rs1) = true ∧ i.imm.toNat ≤ 8 ∧ fernNext s k.val
      FernOp.dsl = some i) ∧
    (∃ (s : State) (k : Fin 257) (i : FernIns), decimalOk (s.gpr k.val i.rs1) = true ∧ i.imm.toNat ≤ 8 ∧ fernNext s k.val
      FernOp.dsr = some i) ∧
    (∃ (s : State) (k : Fin 257) (i : FernIns), decimalOk (s.gpr k.val i.rs1) = false ∧ fernNext s k.val FernOp.dadd = some
      i ∧ bitOf (s.core k.val).df 3 = false) ∧
    (∃ (s : State) (k : Fin 257) (i : FernIns), decimalOk (s.gpr k.val i.rs1) = false ∧ fernNext s k.val FernOp.dadd = some
      i ∧ bitOf (s.core k.val).df 3 = true ∧ (s.core k.val).tip = false) ∧
    (∃ (s : State) (k : Fin 257) (i : FernIns), decimalOk (s.gpr k.val i.rs1) = false ∧ fernNext s k.val FernOp.daddc = some
      i ∧ bitOf (s.core k.val).df 3 = false) ∧
    (∃ (s : State) (k : Fin 257) (i : FernIns), decimalOk (s.gpr k.val i.rs1) = false ∧ fernNext s k.val FernOp.daddc = some
      i ∧ bitOf (s.core k.val).df 3 = true ∧ (s.core k.val).tip = false) ∧
    (∃ (s : State) (k : Fin 257) (i : FernIns), decimalOk (s.gpr k.val i.rs1) = false ∧ fernNext s k.val FernOp.dsub = some
      i ∧ bitOf (s.core k.val).df 3 = false) ∧
    (∃ (s : State) (k : Fin 257) (i : FernIns), decimalOk (s.gpr k.val i.rs1) = false ∧ fernNext s k.val FernOp.dsub = some
      i ∧ bitOf (s.core k.val).df 3 = true ∧ (s.core k.val).tip = false) ∧
    (∃ (s : State) (k : Fin 257) (i : FernIns), decimalOk (s.gpr k.val i.rs1) = false ∧ fernNext s k.val FernOp.dsubb = some
      i ∧ bitOf (s.core k.val).df 3 = false) ∧
    (∃ (s : State) (k : Fin 257) (i : FernIns), decimalOk (s.gpr k.val i.rs1) = false ∧ fernNext s k.val FernOp.dsubb = some
      i ∧ bitOf (s.core k.val).df 3 = true ∧ (s.core k.val).tip = false) ∧
    (∃ (s : State) (k : Fin 257) (i : FernIns), decimalOk (s.gpr k.val i.rs1) = false ∧ fernNext s k.val FernOp.dsl = some i
      ∧ bitOf (s.core k.val).df 3 = false) ∧
    (∃ (s : State) (k : Fin 257) (i : FernIns), decimalOk (s.gpr k.val i.rs1) = false ∧ fernNext s k.val FernOp.dsl = some i
      ∧ bitOf (s.core k.val).df 3 = true ∧ (s.core k.val).tip = false) ∧
    (∃ (s : State) (k : Fin 257) (i : FernIns), decimalOk (s.gpr k.val i.rs1) = false ∧ fernNext s k.val FernOp.dsr = some i
      ∧ bitOf (s.core k.val).df 3 = false) ∧
    (∃ (s : State) (k : Fin 257) (i : FernIns), decimalOk (s.gpr k.val i.rs1) = false ∧ fernNext s k.val FernOp.dsr = some i
      ∧ bitOf (s.core k.val).df 3 = true ∧ (s.core k.val).tip = false) ∧
    (∃ (s : State) (k : Fin 257) (i : FernIns), decimalOk (s.gpr k.val i.rs2) = false ∧ fernNext s k.val FernOp.dadd = some
      i ∧ bitOf (s.core k.val).df 3 = false) ∧
    (∃ (s : State) (k : Fin 257) (i : FernIns), decimalOk (s.gpr k.val i.rs2) = false ∧ fernNext s k.val FernOp.dadd = some
      i ∧ bitOf (s.core k.val).df 3 = true ∧ (s.core k.val).tip = false) ∧
    (∃ (s : State) (k : Fin 257) (i : FernIns), decimalOk (s.gpr k.val i.rs2) = false ∧ fernNext s k.val FernOp.daddc = some
      i ∧ bitOf (s.core k.val).df 3 = false) ∧
    (∃ (s : State) (k : Fin 257) (i : FernIns), decimalOk (s.gpr k.val i.rs2) = false ∧ fernNext s k.val FernOp.daddc = some
      i ∧ bitOf (s.core k.val).df 3 = true ∧ (s.core k.val).tip = false) ∧
    (∃ (s : State) (k : Fin 257) (i : FernIns), decimalOk (s.gpr k.val i.rs2) = false ∧ fernNext s k.val FernOp.dsub = some
      i ∧ bitOf (s.core k.val).df 3 = false) ∧
    (∃ (s : State) (k : Fin 257) (i : FernIns), decimalOk (s.gpr k.val i.rs2) = false ∧ fernNext s k.val FernOp.dsub = some
      i ∧ bitOf (s.core k.val).df 3 = true ∧ (s.core k.val).tip = false) ∧
    (∃ (s : State) (k : Fin 257) (i : FernIns), decimalOk (s.gpr k.val i.rs2) = false ∧ fernNext s k.val FernOp.dsubb = some
      i ∧ bitOf (s.core k.val).df 3 = false) ∧
    (∃ (s : State) (k : Fin 257) (i : FernIns), decimalOk (s.gpr k.val i.rs2) = false ∧ fernNext s k.val FernOp.dsubb = some
      i ∧ bitOf (s.core k.val).df 3 = true ∧ (s.core k.val).tip = false) ∧
    (∃ (s : State) (k : Fin 257) (i : FernIns), fernNext s k.val FernOp.dadj = some i) ∧
    (∃ (s : State) (k : Fin 257) (i : FernIns) (u : Nat) (v : Nat), u < 2 ^ 32 ∧ v < 2 ^ 32 ∧ (∀ (j : Nat), j < 8 → bitsOf u
      (4 * j) 4 + bitsOf v (4 * j) 4 ≠ 15) ∧ decimalOk u = true ∧ decimalOk v = true ∧ s.gpr k.val i.rs1 = (u + v) % 2 ^ 32 ∧
      bitsOf (s.core k.val).df 4 8 = nibbleCarries u v ∧ bitOf (s.core k.val).df 12 = decide (2 ^ 32 ≤ u + v) ∧ fernNext s
      k.val FernOp.dadj = some i) :=
  ⟨⟨fern (rw 0x1A 0) 2576980377 2 (fun c => { c with df := 0 }), 5, ri .dadd, by decide +kernel⟩,
   ⟨fern (rw 0x1A 1) 2576980377 2 (fun c => { c with df := 0 }), 5, ri .daddc, by decide +kernel⟩,
   ⟨fern (rw 0x1A 2) 2576980377 2 (fun c => { c with df := 0 }), 5, ri .dsub, by decide +kernel⟩,
   ⟨fern (rw 0x1A 3) 2576980377 2 (fun c => { c with df := 0 }), 5, ri .dsubb, by decide +kernel⟩,
   ⟨fern (8 * 0x1A + 2 ^ 8 * 3 + 2 ^ 13 + 2 ^ 18 * 0 + 2 ^ 23 * 5) 305419896 0 (fun c => { c with df := 0 }), 5, { op := .dsl, rd := 3, rs1 := 1, rs2 := 0, imm := 0 },
     by decide +kernel⟩,
   ⟨fern (8 * 0x1A + 2 ^ 8 * 3 + 2 ^ 13 + 2 ^ 18 * 0 + 2 ^ 23 * 6) 305419896 0 (fun c => { c with df := 0 }), 5, { op := .dsr, rd := 3, rs1 := 1, rs2 := 0, imm := 0 },
     by decide +kernel⟩,
   ⟨fern (rw 0x1A 0) 0xA 5, 5, ri .dadd, by decide +kernel⟩,
   ⟨fern (rw 0x1A 0) 0xA 0xA0000000 (fun c => { c with df := 8 }), 5, ri .dadd, by decide +kernel⟩,
   ⟨fern (rw 0x1A 1) 0xA 5, 5, ri .daddc, by decide +kernel⟩,
   ⟨fern (rw 0x1A 1) 0xA 0xA0000000 (fun c => { c with df := 8 }), 5, ri .daddc, by decide +kernel⟩,
   ⟨fern (rw 0x1A 2) 0xA 5, 5, ri .dsub, by decide +kernel⟩,
   ⟨fern (rw 0x1A 2) 0xA 0xA0000000 (fun c => { c with df := 8 }), 5, ri .dsub, by decide +kernel⟩,
   ⟨fern (rw 0x1A 3) 0xA 5, 5, ri .dsubb, by decide +kernel⟩,
   ⟨fern (rw 0x1A 3) 0xA 0xA0000000 (fun c => { c with df := 8 }), 5, ri .dsubb, by decide +kernel⟩,
   ⟨fern (8 * 0x1A + 2 ^ 8 * 3 + 2 ^ 13 + 2 ^ 18 * 0 + 2 ^ 23 * 5) 10 0 (fun c => { c with df := 0 }), 5, { op := .dsl, rd := 3, rs1 := 1, rs2 := 0, imm := 0 },
     by decide +kernel⟩,
   ⟨fern (8 * 0x1A + 2 ^ 8 * 3 + 2 ^ 13 + 2 ^ 18 * 8 + 2 ^ 23 * 5) 10 0 (fun c => { c with df := 8 }), 5, { op := .dsl, rd := 3, rs1 := 1, rs2 := 8, imm := 8 },
     by decide +kernel⟩,
   ⟨fern (8 * 0x1A + 2 ^ 8 * 3 + 2 ^ 13 + 2 ^ 18 * 0 + 2 ^ 23 * 6) 10 0 (fun c => { c with df := 0 }), 5, { op := .dsr, rd := 3, rs1 := 1, rs2 := 0, imm := 0 },
     by decide +kernel⟩,
   ⟨fern (8 * 0x1A + 2 ^ 8 * 3 + 2 ^ 13 + 2 ^ 18 * 8 + 2 ^ 23 * 6) 10 0 (fun c => { c with df := 8 }), 5, { op := .dsr, rd := 3, rs1 := 1, rs2 := 8, imm := 8 },
     by decide +kernel⟩,
   ⟨fern (rw 0x1A 0) 5 0xA0000000, 5, ri .dadd, by decide +kernel⟩,
   ⟨fern (rw 0x1A 0) 0xA 0xA0000000 (fun c => { c with df := 8 }), 5, ri .dadd, by decide +kernel⟩,
   ⟨fern (rw 0x1A 1) 5 0xA0000000, 5, ri .daddc, by decide +kernel⟩,
   ⟨fern (rw 0x1A 1) 0xA 0xA0000000 (fun c => { c with df := 8 }), 5, ri .daddc, by decide +kernel⟩,
   ⟨fern (rw 0x1A 2) 5 0xA0000000, 5, ri .dsub, by decide +kernel⟩,
   ⟨fern (rw 0x1A 2) 0xA 0xA0000000 (fun c => { c with df := 8 }), 5, ri .dsub, by decide +kernel⟩,
   ⟨fern (rw 0x1A 3) 5 0xA0000000, 5, ri .dsubb, by decide +kernel⟩,
   ⟨fern (rw 0x1A 3) 0xA 0xA0000000 (fun c => { c with df := 8 }), 5, ri .dsubb, by decide +kernel⟩,
   ⟨fern (8 * 0x1A + 2 ^ 8 * 3 + 2 ^ 13 + 2 ^ 23 * 4) ((2576980377 + 2) % 2 ^ 32) 0 (fun c => { c with df := sumFlags 0 2576980377 2 }),
     5, { op := .dadj, rd := 3, rs1 := 1 }, by decide +kernel⟩,
   ⟨fern (8 * 0x1A + 2 ^ 8 * 3 + 2 ^ 13 + 2 ^ 23 * 4) ((2576980377 + 2) % 2 ^ 32) 0 (fun c => { c with df := sumFlags 0 2576980377 2 }),
     5, { op := .dadj, rd := 3, rs1 := 1 }, 2576980377, 2, by decide +kernel⟩⟩

/-- States and operands meet the hypotheses of each clause of `FernCounters`. -/
theorem witness_fernCounters :
    (∃ (s : State) (k : Fin 257) (i : FernIns), coreCtr s k.val (s.gpr k.val i.rs1 % 65536) = true ∧ s.ustStopped = false ∧
      fernNext s k.val FernOp.cpost = some i) ∧
    (∃ (s : State) (k : Fin 257) (i : FernIns), coreCtr s k.val (s.gpr k.val i.rs1 % 65536) = true ∧ s.ustStopped = false ∧
      fernNext s k.val FernOp.cread = some i ∧ i.rd % 2 = 0) ∧
    (∃ (s : State) (k : Fin 257) (i : FernIns), fernNext s k.val FernOp.cwait = some i ∧ coreCtr s k.val (s.gpr k.val i.rs1
      % 65536) = true ∧ satisfied (s.ctr (s.gpr k.val i.rs1 % 65536)) (s.gpr k.val i.rs2 + 2 ^ 32 * s.gpr k.val (i.rs2 + 1)) =
      true) ∧
    (∃ (s : State) (k : Fin 257) (i : FernIns), fernNext s k.val FernOp.cwait = some i ∧ coreCtr s k.val (s.gpr k.val i.rs1
      % 65536) = true ∧ satisfied (s.ctr (s.gpr k.val i.rs1 % 65536)) (s.gpr k.val i.rs2 + 2 ^ 32 * s.gpr k.val (i.rs2 + 1)) =
      false) ∧
    (∃ (s : State) (k : Fin 257) (i : FernIns), coreCtr s k.val (s.gpr k.val i.rs1 % 65536) = false ∧ (s.core k.val).tip =
      false ∧ fernNext s k.val FernOp.cpost = some i) ∧
    (∃ (s : State) (k : Fin 257) (i : FernIns), coreCtr s k.val (s.gpr k.val i.rs1 % 65536) = false ∧ (s.core k.val).tip =
      false ∧ fernNext s k.val FernOp.cread = some i) ∧
    (∃ (s : State) (k : Fin 257) (i : FernIns), coreCtr s k.val (s.gpr k.val i.rs1 % 65536) = false ∧ (s.core k.val).tip =
      false ∧ fernNext s k.val FernOp.cwait = some i) :=
  ⟨⟨(fern (rw 0x1E 0) 7 3).wrs 0 [(UST_CTR_BLK.GRANTED, 1), (UST_CTR.VALUE, 0)], 5, ri .cpost, by decide +kernel⟩,
   ⟨(fern (8 * 0x1E + 2 ^ 8 * 4 + 2 ^ 13 + 2 ^ 23 * 2) 7 3).wrs 0 [(UST_CTR_BLK.GRANTED, 1), (UST_CTR.VALUE, 0)], 5, { op := .cread, rd := 4, rs1 := 1 },
     by decide +kernel⟩,
   ⟨((fern (rw 0x1E 1) 7 3).wrs 0 [(UST_CTR_BLK.GRANTED, 1)]).wr UST_CTR.VALUE 7 300, 5, ri .cwait, by decide +kernel⟩,
   ⟨(fern (rw 0x1E 1) 7 3).wrs 0 [(UST_CTR_BLK.GRANTED, 1), (UST_CTR.VALUE, 0)], 5, ri .cwait, by decide +kernel⟩,
   ⟨(fern (rw 0x1E 0) 7 3).wrs 0 [(UST_CTR_BLK.GRANTED, 0), (UST_CTR.VALUE, 0)], 5, ri .cpost, by decide +kernel⟩,
   ⟨(fern (8 * 0x1E + 2 ^ 8 * 4 + 2 ^ 13 + 2 ^ 23 * 2) 7 3).wrs 0 [(UST_CTR_BLK.GRANTED, 0), (UST_CTR.VALUE, 0)], 5, { op := .cread, rd := 4, rs1 := 1 },
     by decide +kernel⟩,
   ⟨(fern (rw 0x1E 1) 7 3).wrs 0 [(UST_CTR_BLK.GRANTED, 0), (UST_CTR.VALUE, 0)], 5, ri .cwait, by decide +kernel⟩⟩

/-- States and operands meet the hypotheses of each clause of `FernEncodings`. -/
theorem witness_fernEncodings :
    (∃ (p : Nat × FernOp), p ∈ arithFuncts) ∧
    (∃ (f : Fin 512), (∀ (p : Nat × FernOp), p ∈ arithFuncts → p.fst ≠ f.val)) :=
  ⟨⟨(0x12, .mulhu), by decide +kernel⟩,
   ⟨511, by decide +kernel⟩⟩

/-- States and operands meet the hypotheses of each clause of `TrailAndTest`. -/
theorem witness_trailAndTest :
    (∃ (s : State), trailOn s = false) ∧
    (∃ (s : State) (off : BitVec 24) (crc : BitVec 8), trailOn s = true ∧ ¬crc.toNat = crc8 (requestBits 1 off.toNat none)) ∧
    (∃ (s : State) (off : BitVec 24) (v : Word) (crc : BitVec 8), trailOn s = true ∧ ¬crc.toNat = crc8 (requestBits 2
      off.toNat (some (BitVec.toNat v)))) ∧
    (∃ (s : State) (off : BitVec 24) (crc : BitVec 8), trailOn s = true ∧ trlThere off.toNat = false ∧ crc.toNat = crc8
      (requestBits 1 off.toNat none)) ∧
    (∃ (s : State) (off : BitVec 24) (v : Word) (crc : BitVec 8), trailOn s = true ∧ trlThere off.toNat = false ∧ crc.toNat
      = crc8 (requestBits 2 off.toNat (some (BitVec.toNat v)))) ∧
    (∃ (s : State) (off : BitVec 24) (crc : BitVec 8), trailOn s = true ∧ trlThere off.toNat = true ∧ trailLocked s = true ∧
      512 ≤ off.toNat ∧ crc.toNat = crc8 (requestBits 1 off.toNat none)) ∧
    (∃ (s : State) (off : BitVec 24) (v : Word) (crc : BitVec 8), trailOn s = true ∧ trlThere off.toNat = true ∧ trailLocked
      s = true ∧ 512 ≤ off.toNat ∧ crc.toNat = crc8 (requestBits 2 off.toNat (some (BitVec.toNat v)))) ∧
    (∃ (s : State) (op : BitVec 8), trailOn s = true ∧ op ≠ 1 ∧ op ≠ 2) ∧
    (∃ (s : State) (off : BitVec 24) (crc : BitVec 8), trailOn s = true ∧ (off.toNat = 0 ∨ off.toNat = 512 ∧ trailLocked s =
      false) ∧ crc.toNat = crc8 (requestBits 1 off.toNat none) ∧ trlThere off.toNat = true) ∧
    (∃ (s : State) (off : BitVec 24) (v : Word) (crc : BitVec 8), trailOn s = true ∧ off.toNat = 512 ∧ trailLocked s = false
      ∧ crc.toNat = crc8 (requestBits 2 off.toNat (some (BitVec.toNat v))) ∧ trlThere off.toNat = true) ∧
    (∃ (s : State), s.cpu.probes = [] ∧ s.sec.heldStarts = [] ∧ (∀ (ri : Nat), ri < 32 → ringLive s ri = false)) ∧
    (∃ (s : State), trailLocked s = true) ∧
    (∃ (s : State), trailLocked s = false ∧ trailCore s = none) ∧
    (∃ (s : State) (d : Nat), trailLocked s = false ∧ trailCore s = some d ∧ inScope s d = false) ∧
    (∃ (s : State) (d : Nat), trailLocked s = false ∧ trailCore s = some d ∧ inScope s d = true ∧ d < 256 ∧ (s.debugOf
      d).halted = false) ∧
    (∃ (s : State) (d : Nat), trailLocked s = false ∧ trailCore s = some d ∧ inScope s d = true ∧ d < 256 ∧ (s.debugOf
      d).halted = true) ∧
    (∃ (s : State) (d : Nat) (v : Word), trailLocked s = false ∧ trailCore s = some d ∧ inScope s d = true ∧ d < 256 ∧
      TRL_CORE_REG.SR.of (putBits (BitVec.toNat v) 43 1 1) = 0 ∧ bitsOf (putBits (BitVec.toNat v) 43 1 1) TRL_CORE_REG.NUM.lsb
      TRL_CORE_REG.NUM.width < 32 ∧ (s.debugOf d).halted = true ∧ TRL_CORE_REG.WRITE.of (putBits (BitVec.toNat v) 43 1 1) = 1) ∧
    (∃ (s : State) (d : Nat) (v : Word), trailLocked s = false ∧ trailCore s = some d ∧ inScope s d = true ∧ d < 256 ∧
      TRL_CORE_REG.SR.of (putBits (BitVec.toNat v) 43 1 1) = 0 ∧ bitsOf (putBits (BitVec.toNat v) 43 1 1) TRL_CORE_REG.NUM.lsb
      TRL_CORE_REG.NUM.width < 32 ∧ (s.debugOf d).halted = true ∧ TRL_CORE_REG.WRITE.of (putBits (BitVec.toNat v) 43 1 1) = 0) ∧
    (∃ (s : State) (k : Fin 256) (j : Nat), coreRuns s k.val = true ∧ breakpointAt s k.val = some j) ∧
    (∃ (s : State) (k : Fin 256) (j : Nat), (s.debugOf k.val).hit = some j) ∧
    (∃ (s : State), trailLocked s = false ∧ s.cpu.job = none ∧ s.flag TRL_MEM_ADDR.LOCAL = false ∧ memScope s (s.rd
      TRL_MEM_ADDR.ADDR / 8 * 8) = true) ∧
    (∃ (s : State), trailLocked s = false ∧ s.cpu.job = none ∧ s.flag TRL_MEM_ADDR.LOCAL = false ∧ memScope s (s.rd
      TRL_MEM_ADDR.ADDR / 8 * 8) = false) ∧
    (∃ (s : State) (x : TrailJob), s.cpu.job = some x ∧ x.result = none ∧ x.onCore = false ∧ inRegSpace x.addr 8 = false ∧
      x.write = none ∧ s.memBad x.addr 8 = false) ∧
    (∃ (s : State) (x : TrailJob) (v : Nat), s.cpu.job = some x ∧ x.result = none ∧ x.onCore = false ∧ inRegSpace x.addr 8 =
      false ∧ x.write = some v) ∧
    (∃ (s : State), s.pins.aux = true ∧ s.cpu.tapHold = false ∧ powered s = true ∧ s.boot.warm = 0 ∧ s.cpu.probes = []) ∧
    (∃ (s : State), s.pins.aux = true) :=
  ⟨⟨{ ready with pins := { ready.pins with aux := false } }, by decide +kernel⟩,
   ⟨ready, 0, BitVec.ofNat 8 (crc8 (requestBits 1 0x200 none)), by decide +kernel⟩,
   ⟨ready, 0, 0x4005, BitVec.ofNat 8 (crc8 (requestBits 1 0 none)), by decide +kernel⟩,
   ⟨ready, 0x900, BitVec.ofNat 8 (crc8 (requestBits 1 0x900 none)), by decide +kernel⟩,
   ⟨ready, 0x900, 0x4005, BitVec.ofNat 8 (crc8 (requestBits 2 0x900 (some 0x4005))), by decide +kernel⟩,
   ⟨ready, 0x200, BitVec.ofNat 8 (crc8 (requestBits 1 0x200 none)), by decide +kernel⟩,
   ⟨ready, 0x200, 0x4005, BitVec.ofNat 8 (crc8 (requestBits 2 0x200 (some 0x4005))), by decide +kernel⟩,
   ⟨ready, BitVec.ofNat 8 (crc8 (requestBits 1 0 none)), by decide +kernel⟩,
   ⟨ready, 0, BitVec.ofNat 8 (crc8 (requestBits 1 0 none)), by decide +kernel⟩,
   ⟨ready.wr TRL_STATUS.LOCK 0 2, 0x200, 0x4005, BitVec.ofNat 8 (crc8 (requestBits 2 0x200 (some 0x4005))),
     by decide +kernel⟩,
   ⟨ready, by decide +kernel⟩,
   ⟨ready, by decide +kernel⟩,
   ⟨ready.wr TRL_STATUS.LOCK 0 2, by decide +kernel⟩,
   ⟨ready.wrs 0 [(TRL_STATUS.LOCK, 1), (TRL_CORE_SEL.UNIT, 0x4005)], 5, by decide +kernel⟩,
   ⟨(ready.wrs 0 [(TRL_STATUS.LOCK, 2), (TRL_CORE_SEL.UNIT, 0x4005)]), 5, by decide +kernel⟩,
   ⟨(ready.wrs 0 [(TRL_STATUS.LOCK, 2), (TRL_CORE_SEL.UNIT, 0x4005)]).setDebug 5 { halted := true }, 5, by decide +kernel⟩,
   ⟨(ready.wrs 0 [(TRL_STATUS.LOCK, 2), (TRL_CORE_SEL.UNIT, 0x4005)]).setDebug 5 { halted := true }, 5, 1 <<< 44 + 3 <<< 32 + 0x99,
     by decide +kernel⟩,
   ⟨(ready.wrs 0 [(TRL_STATUS.LOCK, 2), (TRL_CORE_SEL.UNIT, 0x4005)]).setDebug 5 { halted := true }, 5, 0x4005,
     by decide +kernel⟩,
   ⟨(fern 0 7 0).setDebug 5 { bp := Tab.set 0 [] 2 (0x101) }, 5, 2, by decide +kernel⟩,
   ⟨(fern 0 7 0).setDebug 5 { hit := some 2 }, 5, 2, by decide +kernel⟩,
   ⟨ready.wr TRL_STATUS.LOCK 0 2, by decide +kernel⟩,
   ⟨ready.wrs 0 [(TRL_STATUS.LOCK, 1), (TRL_CORE_SEL.UNIT, 0x4005)], by decide +kernel⟩,
   ⟨{ ready with cpu := { ready.cpu with job := some { write := none, addr := 64, onCore := false, core := 256 } } }, { write := none, addr := 64, onCore := false, core := 256 },
     by decide +kernel⟩,
   ⟨{ ready with cpu := { ready.cpu with job := some { write := some 7, addr := 64, onCore := false, core := 256 } } }, { write := some 7, addr := 64, onCore := false, core := 256 },
     7, by decide +kernel⟩,
   ⟨ready, by decide +kernel⟩,
   ⟨ready, by decide +kernel⟩⟩

/-- States and operands meet the hypotheses of `DecodeFeatures`. -/
theorem witness_decodeFeatures :
    ∃ (s : State) (n : Fin 256), mayFetch s (decQid n.val) = true ∧ (s.queue (decQid n.val)).state = QState.active ∧
      (s.queue (decQid n.val)).host = false ∧ (s.gladeRead (s.queueGlade (decQid n.val)) ((s.queue (decQid n.val)).cmdAddr
      (decQid n.val) (s.queue (decQid n.val)).head) 64).snd = St.success ∧ decFieldsOk (s.bytes ((s.queue (decQid
      n.val)).cmdAddr (decQid n.val) (s.queue (decQid n.val)).head) 64) = true ∧ (s.feature 0 = false ∨ s.feature 1 = false ∧
      (leAt (s.bytes ((s.queue (decQid n.val)).cmdAddr (decQid n.val) (s.queue (decQid n.val)).head) 64) 0 1 = 5 ∨ leAt
      (s.bytes ((s.queue (decQid n.val)).cmdAddr (decQid n.val) (s.queue (decQid n.val)).head) 64) 0 1 = 7 ∨ leAt (s.bytes
      ((s.queue (decQid n.val)).cmdAddr (decQid n.val) (s.queue (decQid n.val)).head) 64) 0 1 = 4 ∧ bitOf (leAt (s.bytes
      ((s.queue (decQid n.val)).cmdAddr (decQid n.val) (s.queue (decQid n.val)).head) 64) 27 1) 0 = true)) :=
  ⟨(holding (region ready 0 1) 0x200000 (cmd [(0, 1, 1), (24, 8, 0x201000)]).bytes).setQueue (decQid 3) { valid := true, state := .active, tail := 1, base := 0x200000 },
     3, by decide +kernel⟩

/-- States and operands meet the hypotheses of each clause of `ControlLevel`. -/
theorem witness_controlLevel :
    (∃ (s : State), s.flag PWR_STATUS.HW_LIMIT = false) ∧
    (∃ (s : State), s.flag PWR_STATUS.HW_LIMIT = true) ∧
    (∃ (s : State) (qid : Nat) (e : Nat) (a : Nat), s.fw.commit = some (qid, e, a) ∧ s.rd PWR_ACT.STATE = 0 ∧ a ≠ 0) ∧
    (∃ (s : State), s.rd PWR_ACT.STATE = 2 ∧ controlLevel s < 2) ∧
    (∃ (s : State), s.rd PWR_ACT.STATE = 2 ∧ 2 ≤ controlLevel s) :=
  ⟨⟨inFw (stored ((region ready 0 32).wrs 0 [(PWR_FW_STORE.REGION, 1), (PWR_FW_STORE.ENABLE, 1)]) (cmd [(0, 1, 0x86), (24,
     1, 1)]) {} { kind := true, host := true }) (fun x => { x with commit := some (stqQid 3, 0, 0), next := 4096 }),
     by decide +kernel⟩,
   ⟨ready.wrs 0 [(PWR_STATUS.LEVEL, 1), (PWR_STATUS.HW_LIMIT, 1)], by decide +kernel⟩,
   ⟨inFw (stored ((region ready 0 32).wrs 0 [(PWR_FW_STORE.REGION, 1), (PWR_FW_STORE.ENABLE, 1)]) (cmd [(0, 1, 0x86), (24,
     1, 1)]) {} { kind := true, host := true }) (fun x => { x with commit := some (stqQid 3, 0, 1), next := 4096 }), stqQid 3,
     0, 1, by decide +kernel⟩,
   ⟨ready.wr PWR_ACT.STATE 0 2, by decide +kernel⟩,
   ⟨ready.wrs 0 [(PWR_ACT.STATE, 2), (PWR_STATUS.HW_LIMIT, 1)], by decide +kernel⟩⟩

/-- States and operands meet the hypotheses of `ImageKeys`. -/
theorem witness_imageKeys :
    ∃ s : State, alive s = true ∧ bootState s = 2 :=
  ⟨stage 2, by decide +kernel⟩

end Sys2Proof.Tests
end

section
/-! SUPPORT. Queues of the classes kept in the table of queues alone, and what an event leaves of them. -/
namespace Sys2Proof.Machine

open Sys2Proof

/-! ### Queues of classes 2 to 6 -/

theorem State.queue_eq_get (s : State) {qid : Nat} (h : 2 ≤ qcls qid) : s.queue qid = Tab.get {} s.queues qid := by
  unfold State.queue
  split
  · omega
  · omega
  · rfl

/-- The queue of an identifier depends on the table of queues only. -/
theorem State.queue_congr {s t : State} {qid : Nat} (h : 2 ≤ qcls qid) (e : t.queues = s.queues) :
    t.queue qid = s.queue qid := by
  rw [t.queue_eq_get h, s.queue_eq_get h, e]

@[simp] theorem State.wrs_queues (s : State) (i : Nat) (l : List (Fld × Nat)) : (s.wrs i l).queues = s.queues := by
  induction l generalizing s with
  | nil => rfl
  | cons p l ih => exact ih _

theorem State.setQueue_queues (s : State) {qid : Nat} (q : Queue) (h : 2 ≤ qcls qid) :
    (s.setQueue qid q).queues = Tab.set {} s.queues qid q := by
  unfold State.setQueue
  split
  · omega
  · omega
  · dsimp only
    split
    · simp
    · rfl
  · rfl

theorem State.queue_setQueue_self (s : State) {qid : Nat} (q : Queue) (h : 2 ≤ qcls qid) :
    (s.setQueue qid q).queue qid = q := by
  rw [State.queue_eq_get _ h, State.setQueue_queues _ _ h, Tab.get_set_self]

/-- A queue of a class other than 0, 1 and 5 has no registers of its own. -/
theorem State.setQueue_regs (s : State) {qid : Nat} (q : Queue) (h : 2 ≤ qcls qid) (h5 : qcls qid ≠ 5) :
    (s.setQueue qid q).regs = s.regs := by
  unfold State.setQueue
  split
  · omega
  · omega
  · contradiction
  · rfl

theorem State.queue_waits (s : State) (qid : Nat) (w : List Wait) : ({ s with waits := w } : State).queue qid = s.queue qid :=
  rfl

theorem Queue.mem_putDue_self (q : Queue) (cls : Nat) (d : Done) : d ∈ q.putDue cls d := by
  unfold Queue.putDue
  split <;> simp

/-- The completion of a command that has ended is due on its queue. -/
theorem State.complete_due (s : State) {qid : Nat} (c : Cmd) (status mid : Nat) (h : 2 ≤ qcls qid) :
    ∃ d ∈ ((s.complete qid c status mid).queue qid).due,
      d.word0 = (if qcls qid == 4 && (s.queue qid).kind then 0 else c.tag) ∧ d.status = status ∧ d.entry = c.entry := by
  unfold State.complete
  dsimp only
  rw [apply_ite (fun t : State => t.queue qid), State.queue_waits, ite_self, State.queue_setQueue_self _ _ h]
  exact ⟨_, Queue.mem_putDue_self _ _ _, rfl, rfl, rfl⟩

/-! ### Events -/

theorem raiseCore_queues (s : State) (e : EventRec) : (raiseCore s e).1.queues = s.queues := by
  unfold raiseCore
  split
  · dsimp only
    split <;> rfl
  · rfl

theorem setOverflow_queues (s : State) (off : Nat) : (setOverflow s off).queues = s.queues := by
  unfold setOverflow
  dsimp only
  split <;> rfl

theorem State.raise_queues (s : State) (type source glade inst status payload : Nat) :
    (s.raise type source glade inst status payload).queues = s.queues := by
  unfold State.raise
  dsimp only
  split
  · rename_i t e
    rw [← raiseCore_queues s, e]
  · rename_i t e
    rw [raiseCore_queues, setOverflow_queues, ← raiseCore_queues s, e]

end Sys2Proof.Machine
end

section
/-! SUPPORT. What fetching a context into the context store's cache leaves alone (R228). -/
namespace Sys2Proof.Machine

open Sys2Proof

/-- The queues are unchanged, and so is every register of the blocks below the fabric's (R21). -/
structure CtxFrame (s t : State) : Prop where
  queues : t.queues = s.queues
  reg : ∀ off, off < 0x1000000 → t.reg off = s.reg off

theorem CtxFrame.refl (s : State) : CtxFrame s s := ⟨rfl, fun _ _ => rfl⟩

/-- An update of fields other than the registers and the queues. -/
theorem CtxFrame.upd {s t u : State} (hq : u.queues = t.queues) (hr : u.regs = t.regs) (h : CtxFrame s t) : CtxFrame s u :=
  ⟨hq.trans h.queues, fun off ho => (congrArg (Tab.getD resetAt · off) hr).trans (h.reg off ho)⟩

theorem Fld.base_le_addr (f : Fld) (i : Nat) : f.base ≤ f.addr i := by
  unfold Fld.addr
  split <;> omega

theorem CtxFrame.wr {s0 s : State} {f : Fld} {i v : Nat} (hf : 0x1000000 ≤ f.base) (h : CtxFrame s0 s) :
    CtxFrame s0 (s.wr f i v) := by
  refine ⟨h.queues, fun off ho => ?_⟩
  have := f.base_le_addr i
  rw [State.reg_wr_ne s f i v off (by omega), h.reg off ho]

theorem CtxFrame.wrs {s0 s : State} {i : Nat} {l : List (Fld × Nat)} (hl : ∀ p ∈ l, 0x1000000 ≤ p.1.base)
    (h : CtxFrame s0 s) : CtxFrame s0 (s.wrs i l) := by
  induction l generalizing s with
  | nil => exact h
  | cons p l ih =>
    obtain ⟨hp, hl⟩ := List.forall_mem_cons.1 hl
    exact ih hl (h.wr hp)

/-! ### The ports, the memory and the cache -/

section
variable {s0 s : State}

theorem setPort_ctxFrame (p : Nat) (x : HostPort) (h : CtxFrame s0 s) : CtxFrame s0 (s.setPort p x) := by
  unfold State.setPort
  exact .wr (by decide) (.wr (by decide) (.upd (t := s) rfl rfl h))

/-- A read whose answer has come in good order touches the port it goes through. -/
theorem hostReadOne_data_ctxFrame (p : Nat) (pasid : Option Nat) (addr len : Nat) (l : List Byte) (h : CtxFrame s0 s) :
    CtxFrame s0 (s.hostReadOne p pasid addr len (.data l)) := by
  unfold State.hostReadOne
  split
  · exact h
  · split
    · exact h
    · rename_i t x _
      exact setPort_ctxFrame _ _ (.upd (t := s.setPort p x) rfl rfl (setPort_ctxFrame p x h))

theorem store_ctxFrame (a : Nat) (l : List Byte) (h : CtxFrame s0 s) : CtxFrame s0 (s.store a l) :=
  .upd (State.store_queues s a l) (State.store_regs s a l) h

theorem putCw_ctxFrame (a : Nat) (l : List Byte) (cw : Nat) (h : CtxFrame s0 s) : CtxFrame s0 (putCw s a l cw).1 := by
  unfold putCw
  dsimp only
  split
  · split
    · exact h
    · split
      · exact store_ctxFrame _ _ (.upd (t := s) rfl rfl h)
      · split
        · exact .upd (t := s) rfl rfl h
        · exact store_ctxFrame _ _ h
  · exact store_ctxFrame _ _ h

theorem putMem_ctxFrame (a : Nat) (l : List Byte) (h : CtxFrame s0 s) : CtxFrame s0 (s.putMem a l).1 := by
  unfold State.putMem
  generalize cwsOf a l.length = cws, false = b
  induction cws generalizing s b with
  | nil => exact h
  | cons cw cws ih => exact ih (putCw_ctxFrame a l cw h) _

theorem refreshCtx_ctxFrame (q : Nat) (h : CtxFrame s0 s) : CtxFrame s0 (refreshCtx s q) :=
  .wrs (by simp [FAB_CTX_USE.CACHED, FAB_CTX_USE.BUSY, FAB_CTX_USE.MISS_BYTES]) h

theorem refreshPeerStat_ctxFrame (h : CtxFrame s0 s) : CtxFrame s0 (refreshPeerStat s) :=
  .wrs (by simp [FAB_PEER_STAT.STATE, FAB_PEER_STAT.CACHED, FAB_PEER_STAT.PORT, FAB_PEER_STAT.EPOCH, FAB_PEER_STAT.W_KIB,
    FAB_PEER_STAT.UNACKED]) h

theorem setCache_ctxFrame (q : Nat) (l : List CtxKey) (h : CtxFrame s0 s) : CtxFrame s0 (setCache s q l) :=
  refreshPeerStat_ctxFrame (refreshCtx_ctxFrame q (.upd (t := s) rfl rfl h))

theorem ctxFetch_ctxFrame (h : CtxFrame s0 s) : CtxFrame s0 (ctxFetch s) := by
  unfold ctxFetch
  split
  · exact hostReadOne_data_ctxFrame _ _ _ _ _ (.upd (t := s) rfl rfl h)
  · exact h

theorem ctxWriteBack_ctxFrame (h : CtxFrame s0 s) : CtxFrame s0 (ctxWriteBack s) := by
  have hfree : ∀ n, CtxFrame s0 ((ctxPlace s.freeBit.2).2.freeBytes n).2 := fun n => .upd (t := s) rfl rfl h
  unfold ctxWriteBack
  extract_lets changed p l
  split
  · split
    · split
      · exact .upd (t := l.2) rfl rfl (hfree 256)
      · exact hfree 256
    · exact putMem_ctxFrame _ _ (hfree 256)
  · exact .upd (t := s) rfl rfl h

theorem placeCtx_ctxFrame (k : CtxKey) (h : CtxFrame s0 s) : CtxFrame s0 (placeCtx s k) := by
  unfold placeCtx
  extract_lets q l
  split
  · exact setCache_ctxFrame _ _ h
  · split
    · exact setCache_ctxFrame _ _ h
    · split
      · exact setCache_ctxFrame _ _ (ctxWriteBack_ctxFrame h)
      · exact h

theorem touchCtx_ctxFrame (k : CtxKey) (h : CtxFrame s0 s) : CtxFrame s0 (touchCtx s k) := by
  unfold touchCtx
  split
  · exact placeCtx_ctxFrame k h
  · split
    · exact placeCtx_ctxFrame k (ctxFetch_ctxFrame h)
    · exact h

end

theorem State.feature_congr {s t : State} (h : t.regs = s.regs) (b : Nat) : t.feature b = s.feature b := by
  unfold State.feature State.rd State.reg
  rw [h]

/-- The agreed features are in the start sequence's block. -/
theorem CtxFrame.feature {s t : State} (h : CtxFrame s t) (b : Nat) : t.feature b = s.feature b := by
  have e : t.reg (BOOT_FEAT_AGREED.FEATURES.addr 0) = s.reg (BOOT_FEAT_AGREED.FEATURES.addr 0) := h.reg _ (by decide)
  unfold State.feature State.rd
  rw [e]

end Sys2Proof.Machine
end

section
/-! SUPPORT. A decode command is fetched, found wrong and ended (R143, R144, R147); and from it the statement on the features that
decode commands need. -/
namespace Sys2Proof.Machine

open Sys2Proof

/-! ### Fetching from a ring in device memory -/

/-- A read that succeeds gives the bytes of memory. -/
theorem State.gladeRead_of_success {s : State} {g a n : Nat} (h : (s.gladeRead g a n).2 = St.success) :
    s.gladeRead g a n = (s.bytes a n, St.success) := by
  unfold State.gladeRead at h ⊢
  split at h
  · split at h
    · exact absurd h (by decide : St.mediumError ≠ St.success)
    · simp [*]
  · exact absurd h (by decide : St.protectionFault ≠ St.success)

theorem State.noteStatus_success (s : State) (a n : Nat) : s.noteStatus St.success a n = s := rfl

theorem qcls_decQid (n : Fin 256) : qcls (decQid n) = 2 := by
  unfold qcls decQid mkQid
  omega

theorem toNat_ofNat_decQid (n : Fin 256) : (BitVec.ofNat 24 (decQid n)).toNat = decQid n := by
  rw [BitVec.toNat_ofNat]
  unfold decQid mkQid
  omega

theorem entrySize_decQid (n : Fin 256) (q : Queue) : entrySize (decQid n) q = 64 := by
  simp [entrySize, qcls_decQid]

theorem fetchBytes_device {s : State} {qid : Nat} {r : HostReply} (hh : (s.queue qid).host = false)
    (hr : (s.gladeRead (s.queueGlade qid) ((s.queue qid).cmdAddr qid (s.queue qid).head) (entrySize qid (s.queue qid))).2
      = St.success) :
    fetchBytes s qid r
      = (s.bytes ((s.queue qid).cmdAddr qid (s.queue qid).head) (entrySize qid (s.queue qid)), St.success) := by
  simp [fetchBytes, hh, State.gladeRead_of_success hr]

theorem exec_commandFetch (qid : BitVec 24) (r : HostReply) (s : State) :
    exec (.commandFetch qid r) s = execCommandFetch qid r s := rfl

/-- The next command of a decode queue whose ring is in device memory is fetched: its queue's context is used, and the bytes of
the ring's entry are decoded. -/
theorem execCommandFetch_decode {s : State} {n : Fin 256} {r : HostReply} (hm : mayFetch s (decQid n) = true)
    (hh : (s.queue (decQid n)).host = false)
    (hr : (s.gladeRead (s.queueGlade (decQid n)) ((s.queue (decQid n)).cmdAddr (decQid n) (s.queue (decQid n)).head) 64).2
      = St.success) :
    execCommandFetch (BitVec.ofNat 24 (decQid n)) r s
      = .next (decFetched (touchCtx s (.queue (decQid n))) (decQid n)
          (s.bytes ((s.queue (decQid n)).cmdAddr (decQid n) (s.queue (decQid n)).head) 64) St.success) := by
  have hf := fetchBytes_device (r := r) hh (by rw [entrySize_decQid]; exact hr)
  rw [entrySize_decQid] at hf
  unfold execCommandFetch
  simp only [toNat_ofNat_decQid, hm, hh, hf, entrySize_decQid, State.noteStatus_success, qcls_decQid]
  rfl

/-! ### Ending a decode command -/

theorem freeStream_queues (s : State) (qid : Nat) : (freeStream s qid).queues = s.queues := by
  unfold freeStream
  split <;> rfl

theorem decFault_queues (s : State) (qid : Nat) (c : Cmd) (status : Nat) : (decFault s qid c status).queues = s.queues :=
  State.raise_queues _ _ _ _ _ _ _

/-- A decode command that ends has its completion due. -/
theorem decEnd_due (s : State) {qid : Nat} (c : Cmd) (status result : Nat) (h : qcls qid = 2) :
    ∃ d ∈ ((decEnd s qid c status result).queue qid).due, d.word0 = c.tag ∧ d.status = status ∧ d.entry = c.entry := by
  have h2 : 2 ≤ qcls qid := h.ge
  obtain ⟨d, hd, hw, hs, he⟩ :=
    (freeStream s qid).complete_due c status (if status = St.success then result % 2 ^ 32 else 0) h2
  refine ⟨d, ?_, by simpa [h] using hw, hs, he⟩
  unfold decEnd
  dsimp only
  split
  · exact hd
  · rw [State.queue_congr h2 (decFault_queues _ _ _ _)]
    exact hd

theorem headD_drop_setAt_of_lt {α : Type} (l : List α) {i j : Nat} (v d : α) (h : i < j) :
    ((setAt l i v).drop j).headD d = (l.drop j).headD d := by
  induction l generalizing i j with
  | nil => rfl
  | cons x l ih =>
    cases j with
    | zero => omega
    | succ j =>
      cases i with
      | zero => rfl
      | succ i => exact ih (by omega)

theorem leAt_setAt_of_lt (l : List Byte) {i off : Nat} (n : Nat) (v : Byte) (h : i < off) :
    leAt (setAt l i v) off n = leAt l off n := by
  unfold leAt bytesAt
  congr 1
  exact List.map_congr_left fun k _ => headD_drop_setAt_of_lt l v 0 (by omega)

/-- The TAG lies beyond the byte of the POST flag. -/
theorem Cmd.noPost_tag (c : Cmd) : c.noPost.tag = c.tag := leAt_setAt_of_lt _ _ _ (by decide)

/-! ### The features a decode command needs -/

/-- Fields within their values are looked at first, and the features second (log entry 43). -/
theorem decRefusal_of_feature {s : State} {glade : Nat} {l : List Byte} (hl : decFieldsOk l = true)
    (hf : decFeature s l = false) : decRefusal s glade l = St.notSupported := by
  simp [decRefusal, hl, hf]

theorem decFeature_eq_false_iff (s : State) (l : List Byte) :
    decFeature s l = false ↔
      s.feature 0 = false ∨
        (s.feature 1 = false ∧ (leAt l 0 1 = 5 ∨ leAt l 0 1 = 7 ∨ (leAt l 0 1 = 4 ∧ bitOf (leAt l 27 1) 0 = true))) := by
  by_cases h : s.feature 0 = true <;> simp [decFeature, h, or_iff_not_imp_left]

theorem decFeature_congr {s t : State} (h : ∀ b, t.feature b = s.feature b) (l : List Byte) :
    decFeature t l = decFeature s l := by
  unfold decFeature
  rw [h 0, h 1]

/-- A fetched command whose fields are right and whose features are not agreed completes with NOT_SUPPORTED (R147). -/
theorem decFetched_notSupported {s : State} {qid : Nat} {l : List Byte} (hc : qcls qid = 2)
    (ha : (s.queue qid).state = .active) (hl : decFieldsOk l = true) (hf : decFeature s l = false) :
    ∃ d ∈ ((decFetched s qid l St.success).queue qid).due,
      d.word0 = leAt l 4 4 ∧ d.status = St.notSupported ∧ d.entry = (s.queue qid).head := by
  have refused : ∀ q home glade, decRefusal (notePick (s.setQueue qid q) home qid) glade l = St.notSupported := by
    intro q home glade
    refine decRefusal_of_feature hl ((decFeature_congr (fun b => ?_) l).trans hf)
    exact State.feature_congr (s.setQueue_regs q (by omega) (by omega)) b
  unfold decFetched
  dsimp only
  rw [if_neg (not_not.2 ha), if_neg (not_not.2 rfl), refused, if_pos (by decide)]
  split
  · exact decEnd_due _ _ _ _ hc
  · obtain ⟨d, hd, hw, hs, he⟩ := decEnd_due _ (Cmd.noPost _) _ _ hc
    exact ⟨d, hd, hw.trans (Cmd.noPost_tag _), hs, he⟩

/-- Settles O58: using the queue's context leaves the queue and the agreed features as they were, so the fetched command meets the
refusal of its features, which follows the check of its fields (log entry 43). -/
theorem decodeFeatures : Obligations.DecodeFeatures := by
  unfold Obligations.DecodeFeatures
  intro s n r
  dsimp only
  intro hm ha hh hr hl hf
  have frame := touchCtx_ctxFrame (.queue (decQid n)) (.refl s)
  have hq : (touchCtx s (.queue (decQid n))).queue (decQid n) = s.queue (decQid n) :=
    State.queue_congr (qcls_decQid n).ge frame.queues
  have hf' := (decFeature_congr frame.feature _).trans ((decFeature_eq_false_iff s _).2 hf)
  have hd := decFetched_notSupported (qcls_decQid n) (hq ▸ ha) hl hf'
  rw [hq] at hd
  rw [exec_commandFetch, execCommandFetch_decode hm hh hr]
  exact ⟨_, rfl, hd⟩

end Sys2Proof.Machine
end

section
/-! SUPPORT. The keys under which an image copy verifies, and what the end of the image read puts into use (R51 to R53, R322); and
from it the statement on the keys of an image copy. -/
namespace Sys2Proof.Machine

open Sys2Proof

/-! ### Keys and signatures of a copy -/

/-- R322: the keys of a copy are the root key and the owner keys whose configuration bit is set. -/
theorem mem_lyKeys (s : State) (k : List Byte) :
    k ∈ lyKeys s ↔ k = Config.vendorRootKey ∨ ∃ u, (k, u) ∈ s.sec.owners ∧ bitOf u 0 = true := by
  simp [lyKeys]

/-- The key that a copy selects may verify it, and has the identifier that the copy names. -/
theorem mem_lyKeys_of_lyKey {s : State} {c k : List Byte} (h : lyKey s c = some k) :
    k ∈ lyKeys s ∧ keyIdent k = bytesAt c 24 32 :=
  ⟨List.mem_of_find?_eq_some h, by simpa using List.find?_some h⟩

theorem lyKey_eq_none_iff (s : State) (c : List Byte) :
    lyKey s c = none ↔ ∀ k ∈ lyKeys s, keyIdent k ≠ bytesAt c 24 32 := by
  simp [lyKey]

theorem lySigned_iff (s : State) (c : List Byte) :
    lySigned s c = true ↔ ∃ k, lyKey s c = some k ∧
      Config.ecdsaVerify k (bytesAt c 0 (lyTotal c - 132)) (bytesAt c (lyTotal c - 132) 132) = true := by
  unfold lySigned
  cases lyKey s c <;> simp

theorem lySigned_of_lyValid {s : State} {c : List Byte} (h : lyValid s c = true) : lySigned s c = true :=
  (Bool.and_eq_true_iff.1 h).2

/-- A copy whose signer key identifier matches no key is invalid. -/
theorem lyValid_eq_false_of_lyKey {s : State} {c : List Byte} (h : lyKey s c = none) : lyValid s c = false := by
  refine Bool.eq_false_iff.2 fun hv => ?_
  obtain ⟨k, hk, -⟩ := (lySigned_iff s c).1 (lySigned_of_lyValid hv)
  rw [h] at hk
  contradiction

/-! ### The end of the image read -/

/-- The copies that are tried are those that were read. -/
theorem mem_of_mem_lyOrder {a b c : List Byte} {k : Nat} (h : (k, c) ∈ lyOrder a b) : c ∈ [a, b] := by
  have hc := List.mem_of_mem_filter h
  simp only [List.mem_cons, List.not_mem_nil, or_false]
  split at hc <;>
  · simp only [List.mem_cons, List.not_mem_nil, or_false, Prod.mk.injEq] at hc
    tauto

/-- The copy that is chosen was read, and is valid. -/
theorem lyOrder_find?_some {s : State} {a b c : List Byte} {k : Nat}
    (h : (lyOrder a b).find? (fun x => lyValid s x.2) = some (k, c)) : c ∈ [a, b] ∧ lyValid s c = true :=
  ⟨mem_of_mem_lyOrder (List.mem_of_find?_eq_some h), by simpa using List.find?_some h⟩

theorem bootState_enterNoImage (s : State) : bootState (enterNoImage s) = 9 := State.rd_wr_self _ _ _ _ (by decide)

@[simp] theorem State.wrs_boot (s : State) (i : Nat) (l : List (Fld × Nat)) : (s.wrs i l).boot = s.boot := by
  induction l generalizing s with
  | nil => rfl
  | cons p l ih => exact ih _

/-- Taking the repair log leaves the image alone. -/
@[simp] theorem takeLog_image (s : State) (log0 log1 : List Byte) : (takeLog s log0 log1).boot.image = s.boot.image := by
  unfold takeLog
  dsimp only
  split
  · rfl
  · split <;> rfl

theorem exec_imageReadDone (a b log0 log1 : List Byte) (s : State) :
    exec (.imageReadDone a b log0 log1) s = execImageReadDone a b log0 log1 s := rfl

/-- Where no copy is valid, the start sequence goes on without an image. -/
theorem execImageReadDone_of_none {s : State} {a b : List Byte} (log0 log1 : List Byte) (ha : alive s = true)
    (hb : bootState s = 2) (h : (lyOrder a b).find? (fun x => lyValid s x.2) = none) :
    execImageReadDone a b log0 log1 s = .next (enterNoImage s) := by
  simp [execImageReadDone, ha, hb, h]

/-- The first copy that is valid is put into use. -/
theorem execImageReadDone_of_some {s : State} {a b c : List Byte} {k : Nat} (log0 log1 : List Byte) (ha : alive s = true)
    (hb : bootState s = 2) (h : (lyOrder a b).find? (fun x => lyValid s x.2) = some (k, c)) :
    Answers (execImageReadDone a b log0 log1 s) fun t => t.boot.image = bytesAt c 0 (lyTotal c) := by
  simp [Answers, execImageReadDone, ha, hb, h]

/-- Settles O60: the copy put into use is the first valid one of those read, and a valid copy verifies under the key it selects;
without a valid copy the sequence goes to another state than REPAIR. -/
theorem imageKeys : Obligations.ImageKeys := by
  unfold Obligations.ImageKeys
  intro s
  dsimp only
  simp only [← mem_lyKeys]
  refine ⟨fun a b log0 log1 ha hb => ?_, fun c hc => lyValid_eq_false_of_lyKey ((lyKey_eq_none_iff s c).2 hc)⟩
  rw [exec_imageReadDone]
  cases h : (lyOrder a b).find? (fun x => lyValid s x.2) with
  | none =>
    refine ⟨_, execImageReadDone_of_none log0 log1 ha hb h, fun h3 => ?_⟩
    rw [bootState_enterNoImage] at h3
    contradiction
  | some x =>
    obtain ⟨n, c⟩ := x
    obtain ⟨t, ht, himage⟩ := execImageReadDone_of_some log0 log1 ha hb h
    obtain ⟨hc, hv⟩ := lyOrder_find?_some h
    obtain ⟨k, hk, hsig⟩ := (lySigned_iff s c).1 (lySigned_of_lyValid hv)
    obtain ⟨hmem, hid⟩ := mem_lyKeys_of_lyKey hk
    exact ⟨t, ht, fun _ => ⟨c, hc, k, himage, hmem, hid, hsig⟩⟩

end Sys2Proof.Machine
end

section
/-! SUPPORT. What events, reads through a host port, growth rings and writes of memory leave alone: the registers of the blocks
below the memory stacks' (R21), those of power and activation among them. -/
namespace Sys2Proof.Machine

open Sys2Proof

/-! ### The low registers -/

/-- The words of the registers of the blocks GLB, BOOT, CLK and PWR (R21). -/
def Regs.low (r : Tab Word) (off : Fin 0x400000) : Word := Tab.getD resetAt r off

/-- A field of a low register reads the low registers only. -/
theorem State.rd_of_low {s t : State} (h : Regs.low t.regs = Regs.low s.regs) (f : Fld) (i : Nat)
    (hf : f.addr i < 0x400000) : t.rd f i = s.rd f i :=
  congrArg (fun w : Word => bitsOf w.toNat f.lsb f.width) (congrFun h ⟨f.addr i, hf⟩)

/-- A register of a block from the memory stacks' on is no low register, whichever entry of it is written. -/
@[simp] theorem Regs.wr_low (r : Tab Word) (f : Fld) (i v : Nat) (hf : 0x400000 ≤ f.base) :
    Regs.low (Regs.wr r f i v) = Regs.low r := by
  funext off
  have := f.base_le_addr i
  exact Tab.getD_setD_ne _ _ _ (by omega)

theorem State.wr_low (s : State) (f : Fld) (i v : Nat) (hf : 0x400000 ≤ f.base) :
    Regs.low (s.wr f i v).regs = Regs.low s.regs := Regs.wr_low s.regs f i v hf

@[simp] theorem State.wrs_low (s : State) (i : Nat) (l : List (Fld × Nat)) (hl : ∀ p ∈ l, 0x400000 ≤ p.1.base) :
    Regs.low (s.wrs i l).regs = Regs.low s.regs := by
  induction l generalizing s with
  | nil => rfl
  | cons p l ih =>
    obtain ⟨hp, hl⟩ := List.forall_mem_cons.1 hl
    exact (ih _ hl).trans (s.wr_low p.1 i p.2 hp)

theorem foldl_low {α : Type} {f : State → α → State} (hf : ∀ s x, Regs.low (f s x).regs = Regs.low s.regs) (s : State)
    (l : List α) : Regs.low (l.foldl f s).regs = Regs.low s.regs := by
  induction l generalizing s with
  | nil => rfl
  | cons x l ih => exact (ih _).trans (hf s x)

@[simp] theorem ite_low (c : Prop) [Decidable c] (s t : State) :
    Regs.low (if c then s else t).regs = if c then Regs.low s.regs else Regs.low t.regs :=
  apply_ite (fun u : State => Regs.low u.regs) c s t

/-! ### Events and counters -/

@[simp] theorem raiseCore_low (s : State) (e : EventRec) : Regs.low (raiseCore s e).1.regs = Regs.low s.regs := by
  unfold raiseCore
  split
  · dsimp only
    split
    · exact s.wr_low _ _ _ (by decide)
    · rfl
  · rfl

@[simp] theorem setOverflow_low (s : State) (off : Nat) : Regs.low (setOverflow s off).regs = Regs.low s.regs := by
  unfold setOverflow
  dsimp only
  split
  · exact State.wr_low _ _ _ _ (by decide)
  · rfl

@[simp] theorem State.raise_low (s : State) (type source glade inst status payload : Nat) :
    Regs.low (s.raise type source glade inst status payload).regs = Regs.low s.regs := by
  unfold State.raise
  dsimp only
  split
  · rename_i t e
    rw [← raiseCore_low s, e]
  · rename_i t e
    rw [raiseCore_low, setOverflow_low, ← raiseCore_low s, e]

@[simp] theorem State.raiseUnit_low (s : State) (type source payload : Nat) :
    Regs.low (s.raiseUnit type source payload).regs = Regs.low s.regs := s.raise_low _ _ _ _ _ _

@[simp] theorem State.bump_low (s : State) (f : Fld) (i n : Nat) (hf : 0x400000 ≤ f.base) :
    Regs.low (s.bump f i n).regs = Regs.low s.regs := by
  simp [State.bump, hf]

@[simp] theorem State.setMeter_low (s : State) (g : Nat) (m : Meter) : Regs.low (s.setMeter g m).regs = Regs.low s.regs :=
  State.wr_low _ _ _ _ (by decide)

@[simp] theorem State.meterAdd_low (s : State) (g f n : Nat) : Regs.low (s.meterAdd g f n).regs = Regs.low s.regs := by
  simp [State.meterAdd]

/-! ### Reads through a host port -/

@[simp] theorem State.setPort_low (s : State) (p : Nat) (h : HostPort) : Regs.low (s.setPort p h).regs = Regs.low s.regs := by
  unfold State.setPort
  rw [State.wr_low _ _ _ _ (by decide), State.wr_low _ _ _ _ (by decide)]

@[simp] theorem State.logAer_low (s : State) (p : Nat) (e : AerErr) : Regs.low (s.logAer p e).regs = Regs.low s.regs := by
  unfold State.logAer
  dsimp only
  rw [State.setPort_low]
  split <;> rfl

@[simp] theorem State.cplTimeout_low (s : State) (p tag addr : Nat) (silent : Bool) :
    Regs.low (s.cplTimeout p tag addr silent).regs = Regs.low s.regs := by
  simp (disch := decide) [State.cplTimeout]

@[simp] theorem State.poisonRx_low (s : State) (p tag addr : Nat) :
    Regs.low (s.poisonRx p tag addr).regs = Regs.low s.regs := by
  simp (disch := decide) [State.poisonRx]

@[simp] theorem State.hostReadOne_low (s : State) (p : Nat) (pasid : Option Nat) (addr len : Nat) (r : HostReply) :
    Regs.low (s.hostReadOne p pasid addr len r).regs = Regs.low s.regs := by
  unfold State.hostReadOne
  split
  · rfl
  · split
    · rfl
    · cases r <;> simp

/-! ### Uncorrectable codewords -/

@[simp] theorem bankFaulty_low (s : State) (b : Nat) : Regs.low (bankFaulty s b).regs = Regs.low s.regs := by
  simp [bankFaulty]

@[simp] theorem uncorrectable_low (s : State) (ch bank row cw low : Nat) :
    Regs.low (uncorrectable s ch bank row cw low).regs = Regs.low s.regs := by
  unfold uncorrectable memRaise
  dsimp only
  split <;> simp (disch := decide)

@[simp] theorem noteCw_low (s : State) (cw : Nat) : Regs.low (noteCw s cw).regs = Regs.low s.regs := by
  unfold noteCw
  split
  · split
    · exact uncorrectable_low _ _ _ _ _ _
    · rfl
  · rfl

@[simp] theorem State.noteRead_low (s : State) (a n : Nat) : Regs.low (s.noteRead a n).regs = Regs.low s.regs :=
  foldl_low noteCw_low _ _

@[simp] theorem State.noteStatus_low (s : State) (status a n : Nat) :
    Regs.low (s.noteStatus status a n).regs = Regs.low s.regs := by
  simp [State.noteStatus]

/-! ### Queues and growth rings -/

@[simp] theorem State.setQueue_low (s : State) (qid : Nat) (q : Queue) : Regs.low (s.setQueue qid q).regs = Regs.low s.regs := by
  unfold State.setQueue
  split
  · exact State.wrs_low _ _ _ (by simp [GLD_SQ_STATUS.HEAD, GLD_SQ_STATUS.PHASE, GLD_SQ_STATUS.TAIL_REFUSED,
      GLD_SQ_STATUS.LAST_STATUS, GLD_SQ_TAIL.TAIL])
  · dsimp only
    split
    · exact State.wrs_low _ _ _ (by simp [TILE_QSTATUS.HEAD, TILE_QSTATUS.TAIL, TILE_QSTATUS.STATE, TILE_QSTATUS.PHASE,
        TILE_QSTATUS.TAIL_REFUSED, TILE_QSTATUS.LAST_STATUS, TILE_QDONE.COUNT])
    · rfl
  · dsimp only
    split
    · exact State.wrs_low _ _ _ (by simp [STQ_Q.VALID, STQ_Q.ADMIN, STQ_Q.STATE, STQ_Q.CLUSTER, STQ_Q.OWNER,
        STQ_Q.BUSY_TAGS])
    · rfl
  · rfl

@[simp] theorem State.complete_low (s : State) (qid : Nat) (c : Cmd) (status mid : Nat) :
    Regs.low (s.complete qid c status mid).regs = Regs.low s.regs := by
  simp [State.complete]

@[simp] theorem State.setCmd_low (s : State) (qid : Nat) (c : Cmd) : Regs.low (s.setCmd qid c).regs = Regs.low s.regs :=
  s.setQueue_low _ _

@[simp] theorem State.setRing_low (s : State) (ri : Nat) (x : CkpRing) : Regs.low (s.setRing ri x).regs = Regs.low s.regs :=
  State.wr_low _ _ _ _ (by decide)

@[simp] theorem tellAll_low (s : State) (ri : Nat) (m : CkpMsg) : Regs.low (tellAll s ri m).regs = Regs.low s.regs :=
  foldl_low (f := fun s k => tell s ri k m) (fun _ _ => rfl) _ _

@[simp] theorem ckpRaise_low (s : State) (g type status payload : Nat) :
    Regs.low (ckpRaise s g type status payload).regs = Regs.low s.regs := s.raise_low _ _ _ _ _ _

@[simp] theorem noteSeen_low (s : State) (ri : Nat) (h : CkpHash) : Regs.low (noteSeen s ri h).regs = Regs.low s.regs :=
  s.setRing_low _ _

@[simp] theorem sendHashes_low (s : State) (ri : Nat) : Regs.low (sendHashes s ri).regs = Regs.low s.regs := by
  unfold sendHashes
  dsimp only
  split
  · rfl
  · rw [foldl_low fun s h => ?_, State.setRing_low]
    simp [tell]

@[simp] theorem ringStaging_low (s : State) (ri : Nat) : Regs.low (ringStaging s ri).regs = Regs.low s.regs := by
  simp (disch := decide) [ringStaging]

@[simp] theorem endRingCmd_low (s : State) (p : Option (Nat × Nat)) (status result : Nat) :
    Regs.low (endRingCmd s p status result).regs = Regs.low s.regs := by
  unfold endRingCmd
  split
  · split
    · exact s.complete_low _ _ _ _
    · rfl
  · rfl

@[simp] theorem ringSettle_low (s : State) (ri : Nat) : Regs.low (ringSettle s ri).regs = Regs.low s.regs := by
  unfold ringSettle
  dsimp only
  split
  · rw [ringStaging_low, tellAll_low]
    exact (endRingCmd_low _ (s.ring ri).capture _ _).trans (s.setRing_low _ _)
  · rfl

@[simp] theorem markCaptured_low (s : State) (ri item : Nat) : Regs.low (markCaptured s ri item).regs = Regs.low s.regs := by
  unfold markCaptured
  dsimp only
  split
  · rfl
  · simp

@[simp] theorem dropRing_low (s : State) (ri member status mine : Nat) :
    Regs.low (dropRing s ri member status mine).regs = Regs.low s.regs := by
  simp (disch := decide) [dropRing]

@[simp] theorem abandonRing_low (s : State) (ri status : Nat) : Regs.low (abandonRing s ri status).regs = Regs.low s.regs := by
  simp [abandonRing]

@[simp] theorem hashGranule_low (s : State) (ri item g : Nat) (l : List Byte) :
    Regs.low (hashGranule s ri item g l).regs = Regs.low s.regs := s.setRing_low _ _

@[simp] theorem capturePushed_low (s : State) (ri item : Nat) :
    Regs.low (capturePushed s ri item).regs = Regs.low s.regs := by
  unfold capturePushed
  split
  · rfl
  · dsimp only
    split
    · simp
    · rw [markCaptured_low, foldl_low fun s g => hashGranule_low s _ _ _ _]

@[simp] theorem ckpPush_low (s : State) : Regs.low (ckpPush s).regs = Regs.low s.regs := by
  refine foldl_low (fun s r => ?_) _ _
  split
  · rfl
  · rw [ringSettle_low, foldl_low fun s k => capturePushed_low s _ _]

@[simp] theorem State.post_low (s : State) (glade c n : Nat) : Regs.low (s.post glade c n).regs = Regs.low s.regs := by
  simp (disch := decide) [State.post, State.addCtr]

/-! ### Writes of memory and the mirror -/

@[simp] theorem State.twinSend_low (s : State) (port type addr aux : Nat) (l : List Byte) :
    Regs.low (s.twinSend port type addr aux l).regs = Regs.low s.regs := by
  simp [State.twinSend]

@[simp] theorem State.twinWriteNew_low (s : State) (type region addr : Nat) (l : List Byte) :
    Regs.low (s.twinWriteNew type region addr l).regs = Regs.low s.regs := by
  simp (disch := decide) [State.twinWriteNew, State.twinWriteSend]

@[simp] theorem State.mirrorRange_low (s : State) (type region a n : Nat) :
    Regs.low (s.mirrorRange type region a n).regs = Regs.low s.regs := by
  unfold State.mirrorRange
  split
  · rfl
  · exact foldl_low (fun s p => s.twinWriteNew_low _ _ _ _) _ _

@[simp] theorem mirrorStored_low (s : State) (a n : Nat) : Regs.low (mirrorStored s a n).regs = Regs.low s.regs := by
  unfold mirrorStored
  split
  · simp
  · rfl

theorem putCw_regs (s : State) (a : Nat) (l : List Byte) (cw : Nat) : (putCw s a l cw).1.regs = s.regs := by
  unfold putCw
  dsimp only
  split
  · split
    · rfl
    · split
      · rfl
      · split <;> rfl
  · rfl

@[simp] theorem State.putMem_regs (s : State) (a : Nat) (l : List Byte) : (s.putMem a l).1.regs = s.regs := by
  unfold State.putMem
  generalize cwsOf a l.length = cws, false = b
  induction cws generalizing s b with
  | nil => rfl
  | cons cw cws ih => exact (ih _ _).trans (putCw_regs s a l cw)

@[simp] theorem itemCaptured_low (s : State) (ri item : Nat) : Regs.low (itemCaptured s ri item).regs = Regs.low s.regs := by
  unfold itemCaptured
  split
  · rfl
  · simp

@[simp] theorem holdWrite_low (s : State) (a : Nat) (l : List Byte) : Regs.low (holdWrite s a l).regs = Regs.low s.regs := by
  simp [holdWrite]

@[simp] theorem placeGranule_low (s : State) (ri item g : Nat) (l : List Byte) :
    Regs.low (placeGranule s ri item g l).regs = Regs.low s.regs := by
  unfold placeGranule
  dsimp only
  split <;> simp

@[simp] theorem copyGranule_low (s : State) (ri item g : Nat) : Regs.low (copyGranule s ri item g).regs = Regs.low s.regs := by
  unfold copyGranule
  dsimp only
  split
  · rfl
  · split
    · simp
    · simp (disch := decide)

@[simp] theorem captureBefore_low (s : State) (a n : Nat) : Regs.low (captureBefore s a n).regs = Regs.low s.regs := by
  refine foldl_low (fun s h => ?_) _ _
  simp (disch := decide)

@[simp] theorem State.writeMem_low (s : State) (a : Nat) (l : List Byte) :
    Regs.low (s.writeMem a l).1.regs = Regs.low s.regs := by
  unfold State.writeMem
  split
  · simp [applyWrite]
  · exact holdWrite_low s a l
  · rfl

@[simp] theorem State.gladeWrite_low (s : State) (glade a : Nat) (l : List Byte) :
    Regs.low (s.gladeWrite glade a l).1.regs = Regs.low s.regs := by
  unfold State.gladeWrite
  split
  · exact s.writeMem_low a l
  · rfl

end Sys2Proof.Machine
end

section
/-! SUPPORT. What the context store, the transport and the end of a storage command leave alone: the low registers. -/
namespace Sys2Proof.Machine

open Sys2Proof

/-! ### The context store -/

@[simp] theorem State.freeWord_regs (s : State) : s.freeWord.2.regs = s.regs := rfl
@[simp] theorem State.freeBit_regs (s : State) : s.freeBit.2.regs = s.regs := rfl
@[simp] theorem State.freeBytes_regs (s : State) (n : Nat) : (s.freeBytes n).2.regs = s.regs := rfl
@[simp] theorem ctxPlace_regs (s : State) : (ctxPlace s).2.regs = s.regs := rfl

@[simp] theorem noteLookup_low (s : State) (key : Nat) : Regs.low (noteLookup s key).regs = Regs.low s.regs := by
  simp (disch := decide) [noteLookup]

@[simp] theorem refreshCtx_low (s : State) (q : Nat) : Regs.low (refreshCtx s q).regs = Regs.low s.regs :=
  State.wrs_low _ _ _ (by simp [FAB_CTX_USE.CACHED, FAB_CTX_USE.BUSY, FAB_CTX_USE.MISS_BYTES])

@[simp] theorem refreshPeerStat_low (s : State) : Regs.low (refreshPeerStat s).regs = Regs.low s.regs :=
  State.wrs_low _ _ _ (by simp [FAB_PEER_STAT.STATE, FAB_PEER_STAT.CACHED, FAB_PEER_STAT.PORT, FAB_PEER_STAT.EPOCH,
    FAB_PEER_STAT.W_KIB, FAB_PEER_STAT.UNACKED])

@[simp] theorem State.setPeer_low (s : State) (d : Nat) (x : Peer) : Regs.low (s.setPeer d x).regs = Regs.low s.regs := by
  simp [State.setPeer]

@[simp] theorem setCache_low (s : State) (q : Nat) (l : List CtxKey) : Regs.low (setCache s q l).regs = Regs.low s.regs := by
  simp [setCache]

@[simp] theorem ctxFetch_low (s : State) : Regs.low (ctxFetch s).regs = Regs.low s.regs := by
  simp [ctxFetch]

@[simp] theorem ctxWriteBack_low (s : State) : Regs.low (ctxWriteBack s).regs = Regs.low s.regs := by
  simp [ctxWriteBack]

@[simp] theorem placeCtx_low (s : State) (k : CtxKey) : Regs.low (placeCtx s k).regs = Regs.low s.regs := by
  unfold placeCtx
  dsimp only
  split
  · exact setCache_low _ _ _
  · split
    · exact setCache_low _ _ _
    · split <;> simp

@[simp] theorem touchCtx_low (s : State) (k : CtxKey) : Regs.low (touchCtx s k).regs = Regs.low s.regs := by
  simp [touchCtx]

/-! ### Operations of the transport -/

@[simp] theorem sendCtl_low (s : State) (p : Nat) (c : Ctl) : Regs.low (sendCtl s p c).regs = Regs.low s.regs := by
  simp [sendCtl]

@[simp] theorem windowFault_low (s : State) (port win offset status : Nat) (write : Bool) :
    Regs.low (windowFault s port win offset status write).regs = Regs.low s.regs := by
  simp [windowFault]

@[simp] theorem sendCompletions_low (s : State) (port tag : Nat) (l : List Byte) (bad : List (Nat × Nat)) :
    Regs.low (sendCompletions s port tag l bad).regs = Regs.low s.regs := by
  refine foldl_low (fun s k => ?_) _ _
  simp (disch := decide)

@[simp] theorem endWindow_low (s : State) (port win offset tag : Nat) (write : Bool) (status : Nat) (l : List Byte)
    (bad : List (Nat × Nat)) : Regs.low (endWindow s port win offset tag write status l bad).regs = Regs.low s.regs := by
  simp (disch := decide) [endWindow]

@[simp] theorem padBad_low (s : State) (o : SalOp) (n : Nat) : Regs.low (padBad s o n).1.regs = Regs.low s.regs := by
  unfold padBad
  split <;> rfl

@[simp] theorem endOp_low (s : State) (o : SalOp) (status : Nat) : Regs.low (endOp s o status).regs = Regs.low s.regs := by
  unfold endOp
  split
  · split
    · split
      · exact s.complete_low _ _ _ _
      · rfl
    · rfl
  · dsimp only
    rw [endWindow_low]
    split
    · exact padBad_low _ _ _
    · rfl
  · rfl
  · rfl

@[simp] theorem sendHello_low (s : State) (d epoch : Nat) (fresh : Bool) :
    Regs.low (sendHello s d epoch fresh).regs = Regs.low s.regs := by
  simp [sendHello]

@[simp] theorem createPeer_low (s : State) (d : Nat) : Regs.low (createPeer s d).regs = Regs.low s.regs := by
  simp [createPeer]

@[simp] theorem reachPeer_low (s : State) (d : Nat) : Regs.low (reachPeer s d).1.regs = Regs.low s.regs := by
  unfold reachPeer
  split
  · exact s.raiseUnit_low _ _ _
  · split
    · split <;> simp
    · split <;> simp
    · rfl

@[simp] theorem startOp_low (s : State) (r : OpReq) : Regs.low (startOp s r).regs = Regs.low s.regs := by
  simp [startOp, enqueue]

theorem takeBuffer_low {s t : State} {qid : Nat} {c : Cmd} (h : takeBuffer s qid = some (c, t)) :
    Regs.low t.regs = Regs.low s.regs := by
  unfold takeBuffer at h
  dsimp only at h
  split at h
  · cases h
    simp
  · split at h
    · split at h
      · cases h
        simp
      · contradiction
    · contradiction

@[simp] theorem recvDone_low (s : State) (qid entry written status src ftn : Nat) :
    Regs.low (recvDone s qid entry written status src ftn).regs = Regs.low s.regs := by
  unfold recvDone
  split
  · rfl
  · simp

theorem deliver_low {s t : State} {qid src ftn : Nat} {l : List Byte} {r : Nat × Option Nat}
    (h : deliver s qid src ftn l = some (t, r)) : Regs.low t.regs = Regs.low s.regs := by
  unfold deliver at h
  split at h
  · cases h
    rfl
  · split at h
    · contradiction
    · rename_i c u hu
      dsimp only at h
      split at h <;>
      · cases h
        simp [takeBuffer_low hu]

/-! ### Storage commands -/

@[simp] theorem volStat_low (s : State) (g : Nat) (v : Vol) (k n : Nat) :
    Regs.low (volStat s g v k n).regs = Regs.low s.regs := by
  simp [volStat]

@[simp] theorem State.setSlots_low (s : State) (g : Nat) (l : List StqSlot) :
    Regs.low (s.setSlots g l).regs = Regs.low s.regs := State.wr_low _ _ _ _ (by decide)

@[simp] theorem stqFail_low (s : State) (q : Nat) (c : Cmd) (status result : Nat) :
    Regs.low (stqFail s q c status result).regs = Regs.low s.regs := by
  simp (disch := decide) [stqFail, State.setStqInst]

@[simp] theorem stqFinish_low (s : State) (q entry status result : Nat) :
    Regs.low (stqFinish s q entry status result).regs = Regs.low s.regs := by
  unfold stqFinish
  dsimp only
  split
  · rw [State.complete_low, ite_low, ite_low]
    split
    · split <;> simp (disch := decide) [State.setDirty, State.setTag, quarantineSlot, releaseSlot]
    · simp (disch := decide) [State.setDirty, State.setTag, quarantineSlot, releaseSlot]
  · exact s.complete_low _ _ _ _
  · rfl

@[simp] theorem sendVolume_low (s : State) (q t entry : Nat) (v : Vol) (op fua lba nblk : Nat) (slot : Option Nat) :
    Regs.low (sendVolume s q t entry v op fua lba nblk slot).regs = Regs.low s.regs := by
  unfold sendVolume
  extract_lets qid i x own addr l ftn u
  have hu : Regs.low u.regs = Regs.low s.regs := rfl
  split
  · exact hu
  · split
    · split
      · rename_i h
        exact (deliver_low h).trans hu
      · exact hu
    · exact (startOp_low _ _).trans hu

@[simp] theorem flushStart_low (s : State) (q t entry : Nat) (x : StqTag) (named : Nat) :
    Regs.low (flushStart s q t entry x named).regs = Regs.low s.regs := by
  unfold flushStart
  dsimp only
  rw [foldl_low fun s v => sendVolume_low s q t entry _ _ _ _ _ _]
  rfl

@[simp] theorem stqStep_low (s : State) (q t : Nat) : Regs.low (stqStep s q t).regs = Regs.low s.regs := by
  unfold stqStep
  dsimp only
  split
  · rfl
  · split
    · rfl
    · simp [State.setTag]

@[simp] theorem stqEnd_low (s : State) (q entry status result : Nat) :
    Regs.low (stqEnd s q entry status result).regs = Regs.low s.regs :=
  (foldl_low (fun s t => stqStep_low s q t) _ _).trans (stqFinish_low _ _ _ _ _)

@[simp] theorem commitEnd_low (s : State) (status : Nat) : Regs.low (commitEnd s status).regs = Regs.low s.regs := by
  unfold commitEnd
  split
  · exact stqEnd_low _ _ _ _ _
  · rfl

end Sys2Proof.Machine
end

section
/-! SUPPORT. The control level, and the states that the end of a verification and the end of a deferral lead to (R420, R428); and
from it the statement on the control level. -/
namespace Sys2Proof.Machine

open Sys2Proof

/-! ### The control level -/

theorem controlLevel_of_limiting {s : State} (h : s.flag PWR_STATUS.HW_LIMIT = true) :
    controlLevel s = max 2 (s.rd PWR_STATUS.LEVEL) := if_pos h

theorem controlLevel_of_not_limiting {s : State} (h : s.flag PWR_STATUS.HW_LIMIT = false) :
    controlLevel s = s.rd PWR_STATUS.LEVEL := if_neg (by simp [h])

/-- The control level depends on PWR_STATUS only. -/
theorem controlLevel_congr {s t : State} (h : t.reg (PWR_STATUS.LEVEL.addr 0) = s.reg (PWR_STATUS.LEVEL.addr 0)) :
    controlLevel t = controlLevel s := by
  have hl : t.rd PWR_STATUS.LEVEL = s.rd PWR_STATUS.LEVEL := congrArg (fun w : Word => bitsOf w.toNat _ _) h
  have hh : t.rd PWR_STATUS.HW_LIMIT = s.rd PWR_STATUS.HW_LIMIT := congrArg (fun w : Word => bitsOf w.toNat _ _) h
  unfold controlLevel State.flag
  rw [hl, hh]

theorem controlLevel_wr_stagedVersion (s : State) (v : Nat) :
    controlLevel (s.wr PWR_ACT_VER.STAGED_VERSION 0 v) = controlLevel s :=
  controlLevel_congr (s.reg_wr_ne _ _ _ _ (by decide))

/-! ### The state of the activation -/

/-- A field of another register reads as before a list of writes. -/
theorem State.rd_wrs_addr (s : State) (l : List (Fld × Nat)) (g : Fld) (i j : Nat)
    (hl : ∀ p ∈ l, p.1.addr i ≠ g.addr j) : (s.wrs i l).rd g j = s.rd g j := by
  induction l generalizing s with
  | nil => rfl
  | cons p l ih =>
    obtain ⟨hp, hl⟩ := List.forall_mem_cons.1 hl
    exact (ih _ hl).trans (s.rd_wr_addr p.1 g i j p.2 hp)

/-- Work that leaves the low registers alone leaves the activation where it is. -/
theorem actState_of_low {s t : State} (h : Regs.low t.regs = Regs.low s.regs) :
    t.rd PWR_ACT.STATE = s.rd PWR_ACT.STATE := State.rd_of_low h _ _ (by decide)

theorem setAct_state (s : State) {n : Nat} (hn : n < 8) : (setAct s n).rd PWR_ACT.STATE = n := by
  unfold setAct
  dsimp only
  split
  · assumption
  · rw [actState_of_low (State.raiseUnit_low _ _ _ _), State.rd_wr_self _ _ _ _ (by decide)]
    exact Nat.mod_eq_of_lt hn

theorem commitEnd_state (s : State) (status : Nat) : (commitEnd s status).rd PWR_ACT.STATE = s.rd PWR_ACT.STATE :=
  actState_of_low (commitEnd_low s status)

/-- The requests and fractions of the clocks are registers of their own. -/
theorem defaultClocks_state (s : State) : (defaultClocks s).rd PWR_ACT.STATE = s.rd PWR_ACT.STATE := by
  unfold defaultClocks showClocks
  dsimp only
  rw [State.rd_wrs_addr, State.rd_wrs_addr]
  · simp [Fld.addr, PWR_CLK.TILE_REQ, PWR_CLK.CORE_REQ, PWR_CLK.DRAM_REQ, PWR_CLK.LOOP, PWR_ACT.STATE]
  · simp [Fld.addr, PWR_CLK.TILE_EFF, PWR_CLK.CORE_EFF, PWR_CLK.DRAM_EFF, PWR_ACT.STATE]

@[simp] theorem wdogFlip_low (s : State) (d : Nat) : Regs.low (wdogFlip s d).regs = Regs.low s.regs := by
  unfold wdogFlip
  split <;> rfl

@[simp] theorem showLive_low (s : State) (k : Nat) : Regs.low (showLive s k).regs = Regs.low s.regs := by
  simp (disch := decide) [showLive, showCore]

@[simp] theorem dbgResume_low (s : State) (d : Nat) (step : Bool) : Regs.low (dbgResume s d step).regs = Regs.low s.regs := by
  unfold dbgResume
  dsimp only
  split
  · rw [showLive_low, wdogFlip_low]
    rfl
  · rfl

/-- Letting the halted firmware cores run leaves the activation in QUIESCE. -/
theorem enterQuiesce_state (s : State) : (enterQuiesce s).rd PWR_ACT.STATE = 3 := by
  unfold enterQuiesce
  dsimp only
  refine (actState_of_low (foldl_low (fun u d => ?_) _ _)).trans ?_
  · exact dbgResume_low u d false
  · rw [defaultClocks_state, setAct_state _ (by decide)]

theorem activate_state (s : State) :
    (activate s).rd PWR_ACT.STATE = if 2 ≤ controlLevel s then 2 else 3 := by
  unfold activate
  split
  · rw [commitEnd_state, setAct_state _ (by decide)]
  · exact enterQuiesce_state s

/-! ### The end of a verification -/

theorem fetchPaused_of_idle {s : State} (h : s.rd PWR_ACT.STATE = 0) : fetchPaused s = false := by
  simp [fetchPaused, h]

theorem exec_fwCommitVerified (s : State) : exec .fwCommitVerified s = execFwCommitVerified s := rfl

theorem exec_deferredStartExpire (s : State) : exec .deferredStartExpire s = execDeferredStartExpire s := rfl

/-- R420: a commit that asks for activation fails and leaves the device IDLE, or is deferred, or starts, by the control level. -/
theorem execFwCommitVerified_of_idle {s : State} {qid e a : Nat} (hc : s.fw.commit = some (qid, e, a))
    (h0 : s.rd PWR_ACT.STATE = 0) (ha : a ≠ 0) :
    Answers (execFwCommitVerified s) fun t =>
      t.rd PWR_ACT.STATE =
        if (commitStatus s (s.bytes (fwStoreBase s) s.fw.next) a).isSome then 0
        else if 2 ≤ controlLevel s then 2 else 3 := by
  unfold execFwCommitVerified
  simp only [hc, fetchPaused_of_idle h0, ha, Bool.false_eq_true, if_false]
  split
  · rename_i st hst
    refine ⟨_, rfl, ?_⟩
    have hn := actState_of_low (s.noteStatus_low st (fwStoreBase s) s.fw.next)
    simp [commitEnd_state, hn, h0, hst]
  · rename_i hst
    refine ⟨_, rfl, ?_⟩
    simp only [activate_state, controlLevel_wr_stagedVersion, hst]
    rfl

/-! ### The end of a deferral -/

theorem execDeferredStartExpire_of_low {s : State} (h : s.rd PWR_ACT.STATE = 2) (hl : controlLevel s < 2) :
    execDeferredStartExpire s = .next (enterQuiesce (commitEnd s St.activationInProgress)) :=
  if_pos (by simp [h, hl])

/-- While the control level is THROTTLE or higher the deferral goes on (log entry 2). -/
theorem execDeferredStartExpire_of_high {s : State} (hl : 2 ≤ controlLevel s) : execDeferredStartExpire s = .next s :=
  if_neg (by simp; omega)

/-- Settles O59: the state after a verified commit and after a deferral is the one that the control level gives, because the work
that ends the commit leaves the power and activation registers alone. (The name `controlLevel` itself is the model's.) -/
theorem controlLevel_decidesDeferral : Obligations.ControlLevel := by
  unfold Obligations.ControlLevel
  intro s
  rw [exec_fwCommitVerified, exec_deferredStartExpire]
  refine ⟨controlLevel_of_not_limiting, controlLevel_of_limiting, fun qid e a hc h0 ha => ?_, fun h2 =>
    ⟨fun hl => ⟨_, execDeferredStartExpire_of_low h2 hl, enterQuiesce_state _⟩,
      fun hl => ⟨s, execDeferredStartExpire_of_high hl, rfl⟩⟩⟩
  obtain ⟨t, ht, hs⟩ := execFwCommitVerified_of_idle hc h0 ha
  refine ⟨t, ht, fun h => ?_, fun h => ?_⟩ <;>
  · rw [hs] at h
    split_ifs at h <;> omega

end Sys2Proof.Machine
end
